-- ==== Sys2Proof/Word.lean ====
section
/-! DEFINITION. Word.lean: the word types of the module and their plainest arithmetic. -/

namespace Sys2Proof

/-- One byte. -/
abbrev Byte := BitVec 8

/-- The bits of one F32 word (R31). -/
abbrev F32 := BitVec 32

/-- A register value: every register is 32 bits wide (chapter Register views and maps). -/
abbrev Word := BitVec 32

/-- The all-ones 32-bit number that stands for "none" in the outer registers (R394, R419). -/
def none32 : Nat := 0xFFFFFFFF

/-- `n` modulo 2^k. -/
def lowBits (k n : Nat) : Nat := n % 2 ^ k

/-- Bits `[lo + len - 1 : lo]` of a number. -/
def bitsAt (n lo len : Nat) : Nat := (n >>> lo) % 2 ^ len

/-- Bit `i` of a number. -/
def bitAt (n i : Nat) : Bool := n.testBit i

/-- A Boolean as a bit. -/
def b2n (b : Bool) : Nat := if b then 1 else 0

/-- A sum that stops at `2^k - 1` (every counter that saturates). -/
def satAdd (k a b : Nat) : Nat := min (a + b) (2 ^ k - 1)

/-- The ceiling of a division. -/
def ceilDiv (a b : Nat) : Nat := (a + b - 1) / b

/-- The number of ones among bits 0 to 63. -/
def popcount64 (n : Nat) : Nat := ((List.range 64).filter (fun i => n.testBit i)).length

/-- The indices of the ones among bits 0 to `k - 1`, ascending. -/
def onesBelow (k n : Nat) : List Nat := (List.range k).filter (fun i => n.testBit i)

end Sys2Proof
end

