-- ==== Sys2Proof/Syntax.lean ====
section
/-! DEFINITION. Syntax.lean: the commands the model takes, one constructor of `Instr` per row of the opcode table, with the
records of their operands. -/

namespace Sys2Proof

/-! ### Descriptors (chapter Tile programs and descriptors) -/

/-- Who issues a descriptor: the tile id and the sequencer queue. -/
structure Issuer where
  tile : Fin 1024
  queue : Fin 4
  deriving DecidableEq, Repr

/-- Word W0 without KIND (R188). -/
structure DHdr where
  sigEn : Bool
  sigSem : Nat
  htag : Nat
  deriving DecidableEq, Repr

/-- LOAD and STORE (R191). -/
structure MoveD where
  bytes : Nat
  tclass : Nat
  rows : Nat
  addr : Nat
  sstride : Nat
  tbase : Nat
  tstride : Nat
  deriving DecidableEq, Repr

/-- STAGE (R192). -/
structure StageD where
  arrays : Nat
  diag : Bool
  sscale : Bool
  sorient : Bool
  fmt : Nat
  sbase : Nat
  deriving DecidableEq, Repr

/-- One side of a PASS: words W2 to W5, or W6 to W9 (R193). -/
structure PassSide where
  s0 : Nat
  q0 : Nat
  acc : Bool
  amode : Nat
  msc : Bool
  ssc : Bool
  mfmt : Nat
  sfmt : Nat
  mbase : Nat
  mstride : Nat
  msbase : Nat
  deriving DecidableEq, Repr

/-- PASS (R193): `arrays` 1 array A, 2 array B, 3 paired. -/
structure PassD where
  arrays : Nat
  orient : Bool
  m : Nat
  kblk : Nat
  a : PassSide
  b : PassSide
  deriving DecidableEq, Repr

/-- The accumulator rows a DRAIN or PUT reads (R194, R199). -/
structure RowsD where
  array : Bool
  orient : Bool
  s0 : Nat
  q0 : Nat
  nrows : Nat
  clear : Bool
  deriving DecidableEq, Repr

/-- DRAIN (R194). -/
structure DrainD where
  src : RowsD
  rnd : Bool
  ovf : Bool
  smx : Bool
  merge : Bool
  hist : Bool
  slope : Bool
  oscale : Bool
  msel : Bool
  ofmt : Nat
  act : Nat
  hslot : Nat
  alpha : F32
  obase : Nat
  ostride : Nat
  slbase : Nat
  slstride : Nat
  stbase : Nat
  scbase : Nat
  deriving DecidableEq, Repr

/-- ROW without its operation code (R196). -/
structure RowD where
  first : Bool
  rms : Bool
  rebuild : Bool
  rtag : Nat
  q0 : Nat
  r : Nat
  n : Nat
  b0 : Nat
  b : Nat
  ifmt : Nat
  i2fmt : Nat
  ofmt : Nat
  eps : F32
  ibase : Nat
  istride : Nat
  i2base : Nat
  i2stride : Nat
  obase : Nat
  ostride : Nat
  xbase : Nat
  deriving DecidableEq, Repr

/-- LANE without its operation code (R197). -/
structure LaneD where
  act : Nat
  rnd : Bool
  ovf : Bool
  slope : Bool
  xb : Bool
  yb : Bool
  zb : Bool
  v : Nat
  xfmt : Nat
  yfmt : Nat
  zfmt : Nat
  ofmt : Nat
  xbase : Nat
  xstride : Nat
  ybase : Nat
  ystride : Nat
  zbase : Nat
  zstride : Nat
  obase : Nat
  ostride : Nat
  slbase : Nat
  slstride : Nat
  alpha : F32
  deriving DecidableEq, Repr

/-- PUT without its OP (R199). -/
structure PutD where
  src : RowsD
  msel : Bool
  cidx : Nat
  dbase : Nat
  dstride : Nat
  deriving DecidableEq, Repr

/-- GET (R200). -/
structure GetD where
  len : Nat
  sbase : Nat
  tbase : Nat
  deriving DecidableEq, Repr

/-- WAIT (R202). -/
structure WaitD where
  mode : Nat
  sem : Nat
  mark : Nat
  count : Nat
  step : Nat
  deriving DecidableEq, Repr

/-- The kinds of R188 with their fields. -/
inductive DKind where
  | load (d : MoveD)
  | store (d : MoveD)
  | stage (d : StageD)
  | swap (arrays : Nat)
  | pass (d : PassD)
  | drain (d : DrainD)
  | row (op : Nat) (d : RowD)
  | lane (op : Nat) (d : LaneD)
  | put (write : Bool) (d : PutD)
  | get (d : GetD)
  | mark (n : Nat)
  | wait (d : WaitD)
  | fence (qmask : Nat)
  deriving DecidableEq, Repr

/-- A descriptor. -/
structure Descriptor where
  hdr : DHdr
  kind : DKind
  deriving DecidableEq, Repr

/-- An error that a read meets (R216, R217): the byte offset in the stack of the codeword, and whether it is uncorrectable; or a command or
address parity error of the read that a retry put right (R225), which spoils no data. -/
structure EccErr where
  off : Nat
  ue : Bool
  par : Bool := false
  deriving DecidableEq, Repr

/-! ### Host commands (chapters Reilo link and Cylux command protocol, Command reference) -/

/-- The packet header of R481 without OPCODE and PLEN. -/
structure Hdr where
  queue : Fin 64
  part : Nat
  seq : Nat
  sched : Bool
  dl : Bool
  eval : Bool
  irq : Bool
  fence : Bool
  step : Nat
  mark : Nat
  deadline : Nat
  deriving DecidableEq, Repr

/-- A host-tier buffer: BLOB and BYTES of CONFIG, RBUF and RLEN of the commands with larger results (R500). -/
structure BufP where
  addr : Nat
  len : Nat
  deriving DecidableEq, Repr

/-- QUEUE_SETUP (R505). -/
structure QueueSetupP where
  q : Nat
  base : Nat
  log : Nat
  cq : Nat
  seq0 : Nat
  deriving DecidableEq, Repr

/-- CRING_SETUP and ERING_SETUP (R505). -/
structure RingP where
  ring : Nat
  base : Nat
  log : Nat
  vec : Nat
  deriving DecidableEq, Repr

/-- PART_CREATE (R444). -/
structure PartP where
  pid : Nat
  fx0 : Nat
  fy0 : Nat
  w : Nat
  h : Nat
  train : Nat
  profile : Nat
  fports : Nat
  lports : Nat
  deriving DecidableEq, Repr

/-- An export entry (R453). -/
structure ExportE where
  kind : Nat
  dkind : Nat
  fmask : Nat
  gid : Nat
  soff : Nat
  bytes : Nat
  dest : Nat
  dstride : Nat
  deriving DecidableEq, Repr

/-- SHUTTER (R452). -/
structure ShutterP where
  pid : Nat
  mode : Nat
  waitMs : Nat
  cut : Nat
  nextProfile : Nat
  qbind : Nat
  entries : List ExportE
  deriving DecidableEq, Repr

/-- HEIR_WINDOW without OPEN (R506). -/
structure HeirP where
  w : Nat
  srcmod : Nat
  base : Nat
  bytes : Nat
  deriving DecidableEq, Repr

/-- BULK_MOVE (R507). -/
structure BulkP where
  sk : Nat
  dk : Nat
  src : Nat
  dst : Nat
  bytes : Nat
  deriving DecidableEq, Repr

/-- REGULATOR (R229). -/
structure RegulatorP where
  cls : Nat
  rate : Nat
  burst : Nat
  borrow : Nat
  deriving DecidableEq, Repr

/-- REGULATOR_SYS (R229). -/
structure RegulatorSysP where
  fmask : Nat
  srate : Nat
  sburst : Nat
  sborrow : Nat
  opceil : Nat
  deriving DecidableEq, Repr

/-- ACT_REG (R268). -/
structure ActP where
  aid : Nat
  policy : Nat
  bytes : Nat
  fmask : Nat
  sbase : Nat
  lbase : Nat
  hbase : Nat
  hstride : Nat
  dfr : Nat
  outMark : Nat
  inMark : Nat
  tmask : Nat
  osem : Nat
  isem : Nat
  deriving DecidableEq, Repr

/-- A stream entry of TILE_PROGRAM (R508). -/
structure StreamE where
  fmask : Nat
  tmask : Nat
  queue : Nat
  ndesc : Nat
  soff : Nat
  tstride : Nat
  deriving DecidableEq, Repr

/-- A transom item of TILE_PROGRAM (R256). -/
structure TransomE where
  gid : Nat
  vtag : Nat
  acq : Nat
  rel : Nat
  deriving DecidableEq, Repr

/-- TILE_PROGRAM (R508). -/
structure TileProgramP where
  entries : List StreamE
  transom : List TransomE
  deriving DecidableEq, Repr

/-- One item of MARK_TABLE (R337, R509). -/
structure MarkItem where
  dfn : Nat
  scope : Nat
  phase : Nat
  tmask : Nat
  deriving DecidableEq, Repr

/-- WATCHDOG (R355, R436). -/
structure WatchdogP where
  mult : Nat
  initMs : Nat
  limit : Nat
  deriving DecidableEq, Repr

/-- A collective without its OP (R323). -/
structure CollP where
  opr : Nat
  itype : Nat
  otype : Nat
  group : Nat
  root : Nat
  count : Nat
  contrib : Nat
  src : Nat
  dst : Nat
  deriving DecidableEq, Repr

/-- FABRIC_SET (R312). -/
structure FabricP where
  replayUs : Nat
  replayLim : Nat
  flowRtoUs : Nat
  flowRetry : Nat
  deriving DecidableEq, Repr

/-- One member of a federation record (R393). -/
structure FedMember where
  island : Nat
  parent : Nat
  keeper : Nat
  deriving DecidableEq, Repr

/-- FED_RECORD (R393). -/
structure FedP where
  members : List FedMember
  h : Nat
  s : Nat
  w1 : F32
  w2 : F32
  w3 : F32
  w4 : F32
  div : Nat
  policy : Nat
  nhold : Nat
  rejoin : Nat
  join : Nat
  deriving DecidableEq, Repr

/-- OUTER_REG (R394). -/
structure OuterP where
  field : Nat
  gid : Nat
  dfmt : Nat
  olr : F32
  omom : F32
  opbase : Nat
  deriving DecidableEq, Repr

/-- One partner of ROUTE_TABLE with its gateway pairs (module, port) (R382, R511). -/
structure RouteE where
  island : Nat
  ngw : Nat
  gws : List (Nat × Nat)
  deriving DecidableEq, Repr

/-- LPORT_CONFIG (R372, R387). -/
structure LportP where
  port : Nat
  wfield : Nat
  wbase : Nat
  losttouchMs : Nat
  shiftUs : Nat
  shiftN : Nat
  flows : Nat
  deriving DecidableEq, Repr

/-- OPTICS without DIR (R511). -/
structure OpticsP where
  port : Nat
  bank : Nat
  page : Nat
  off : Nat
  len : Nat
  data : List Byte
  deriving DecidableEq, Repr

/-- The RULE block of a group record (R289). -/
structure RuleP where
  rcode : Nat
  nesterov : Nat
  biascorr : Nat
  clip : Nat
  lrslot : Nat
  gslot : Nat
  lr : F32
  b1 : F32
  b2 : F32
  eps : F32
  wd : F32
  maxnorm : F32
  rows : Nat
  cols : Nat
  nsiter : Nat
  nsa : F32
  nsb : F32
  nsc : F32
  oscale : F32
  refresh : Nat
  riter : Nat
  bmark : Nat
  scratch : Nat
  deriving DecidableEq, Repr

/-- The tier record (R277). -/
structure TierP where
  home : Nat
  haddr : Nat
  rbase : Nat
  pkbase : Nat
  late : Nat
  smarkEn : Nat
  smark : Nat
  deriving DecidableEq, Repr

/-- PGROUP_REG: the group record of R242 with RULE, the tier record and MEMBERS (module id, field) (R512). -/
structure GroupP where
  field : Nat
  gid : Nat
  nelem : Nat
  cons : Nat
  rule : RuleP
  r : Nat
  m1fmt : Nat
  m2fmt : Nat
  gxfmt : Nat
  wcfmt : Nat
  htag : Nat
  bank : Nat
  pbase : Nat
  gbase : Nat
  tmask : Nat
  telems : Nat
  slot0 : Nat
  slot1 : Nat
  xmark : Nat
  tier : TierP
  members : List (Nat × Nat)
  deriving DecidableEq, Repr

/-- FIELD and GID of the commands that name one group. -/
structure FieldGid where
  field : Nat
  gid : Nat
  deriving DecidableEq, Repr

/-- CKPT_EXPORT (R512). -/
structure CkptP where
  fmask : Nat
  gid : Nat
  dkind : Nat
  dest : Nat
  dstride : Nat
  deriving DecidableEq, Repr

/-- HEALTH_READ (R513). -/
structure HealthP where
  htag : Nat
  fmt : Nat
  buf : BufP
  deriving DecidableEq, Repr

/-- STEER_CTL (R156). -/
structure SteerCtlP where
  window : Nat
  active : Nat
  tLo : Nat
  tHi : Nat
  deriving DecidableEq, Repr

/-- STEER_SLOT (R157). -/
structure SteerSlotP where
  slot : Nat
  minRung : Nat
  maxRung : Nat
  enable : Nat
  deriving DecidableEq, Repr

/-- ATTEST (R514): the nonce as four 8-byte numbers. -/
structure AttestP where
  n0 : Nat
  n1 : Nat
  n2 : Nat
  n3 : Nat
  buf : BufP
  deriving DecidableEq, Repr

/-- LOG_READ (R514). -/
structure LogP where
  first : Nat
  count : Nat
  buf : BufP
  deriving DecidableEq, Repr

/-- TG_RUN (R238). -/
structure TgP where
  field : Nat
  chmask : Nat
  pattern : Nat
  seed : Nat
  base : Nat
  len : Nat
  rdmix : Nat
  rate : Nat
  bursts : Nat
  cont : Nat
  stopOnErr : Nat
  deriving DecidableEq, Repr

/-- The parameters of a host command, by opcode. -/
inductive Body where
  | nop
  | config (p : BufP)
  | inventory (p : BufP)
  | power (state : Nat)
  | queueSetup (p : QueueSetupP)
  | cringSetup (p : RingP)
  | eringSetup (p : RingP)
  | partCreate (p : PartP)
  | partDelete (pid : Nat)
  | profile (pid prof : Nat)
  | shutter (p : ShutterP)
  | heirWindow (opn : Nat) (p : HeirP)
  | queueBind (q view : Nat)
  | bulkMove (p : BulkP)
  | regulator (p : RegulatorP)
  | regulatorSys (p : RegulatorSysP)
  | errClear (fmask chmask : Nat)
  | actReg (p : ActP)
  | actRemove (aid : Nat)
  | footprint
  | tileProgram (p : TileProgramP)
  | stepStart (s0 : Nat)
  | stepStop
  | markTable (items : List MarkItem)
  | keeperSelect (keeper mode : Nat)
  | watchdog (p : WatchdogP)
  | islandForm
  | cgroupReg (id : Nat) (members : List Nat)
  | cgroupRemove (id : Nat)
  | collective (op : Nat) (p : CollP)
  | portRetrain (port : Nat)
  | portClear (pmask : Nat)
  | fabricSet (p : FabricP)
  | fedRecord (p : FedP)
  | outerReg (p : OuterP)
  | outerRemove (p : FieldGid)
  | routeTable (items : List RouteE)
  | lportConfig (p : LportP)
  | optics (dir : Nat) (p : OpticsP)
  | lportClear (pmask : Nat)
  | pgroupReg (p : GroupP)
  | pgroupRemove (p : FieldGid)
  | publish (p : FieldGid)
  | stepScalar (slot : Nat) (value : F32)
  | driftAudit (p : FieldGid)
  | ckptExport (p : CkptP)
  | healthRead (p : HealthP)
  | healthClear (t0 t1 t2 t3 : Nat)
  | steerCtl (p : SteerCtlP)
  | steerSlot (p : SteerSlotP)
  | steerPin (slot rung unpin : Nat)
  | nevtEn (classEn steerEn : Nat)
  | snapshot (p : BufP)
  | attest (p : AttestP)
  | logRead (p : LogP)
  | idkeyRead (p : BufP)
  | testMode (field enter : Nat)
  | tgRun (p : TgP)
  | tgStop (field chmask : Nat)
  | selftest (fmask : Nat)
  deriving DecidableEq, Repr

/-! ### What reaches the module from outside -/

/-- What the host tier, the optics or a heir answers while a command runs: bytes read (CONFIG's blob, CMIS bytes), whether a
handshake was answered, and which items failed. -/
structure Feed where
  data : List Byte := []
  answered : Bool := true
  failed : List Nat := []
  deriving DecidableEq, Repr

/-- A fabric frame (R308), its fields by name; `typ` 0 DATA, 1 CONTROL, 2 IDLE. -/
structure FabFrame where
  lseq : Nat
  vl : Nat
  typ : Nat
  ack : Nat
  nak : Bool
  credit : Nat
  cvl : Nat
  dest : Nat
  dirlock : Nat
  src : Nat
  flow : Nat
  epoch : Nat
  kind : Nat
  fseq : Nat
  arg : Nat
  payload : List Byte
  deriving DecidableEq, Repr

/-- A flare frame: the fields of ARG (R345), the step, and the payload. -/
structure FlareFrame where
  op : Nat
  key : Nat
  index : Nat
  step : Nat
  attempt : Nat
  payload : List Byte
  deriving DecidableEq, Repr

/-- A collective segment as it arrives at the engine (R326, R327): group, the group's sequence number, the epoch of its flow (R329), segment number, the
rank it comes from, whether it is a result that has already been combined, its bytes, and how many residue mismatches the
engine meets on it, and in which adder lane (R328). -/
structure CollSeg where
  group : Nat
  seq : Nat
  epoch : Nat
  seg : Nat
  rank : Nat
  final : Bool
  data : List Byte
  bad : Nat
  lane : Nat
  deriving DecidableEq, Repr

/-- A signature of R322 from one rank. -/
structure CollSig where
  group : Nat
  seq : Nat
  epoch : Nat
  rank : Nat
  op : Nat
  opr : Nat
  itype : Nat
  otype : Nat
  count : Nat
  root : Nat
  deriving DecidableEq, Repr

/-- A HELLO (R367), and the sender's FLOWS setting: R371 needs both ends' settings, and no field of R367 carries it (assumption 30). -/
structure HelloF where
  island : Nat
  module : Nat
  port : Nat
  fedTag : Nat
  nonce : List Byte
  rand : Nat
  flows : Nat
  deriving DecidableEq, Repr

/-- What a poll of a transceiver reads besides the lanes locked (R363): loss of signal, whether the data path is active, the module state and
the lane fault flags. -/
structure OpticsRead where
  los : Bool
  active : Bool
  modState : Nat
  faults : Nat
  deriving DecidableEq, Repr

/-- A lantern DATA frame (R365). -/
structure LntData where
  session : Nat
  flow : Nat
  man : Bool
  pseq : Nat
  payload : List Byte
  deriving DecidableEq, Repr

/-- An outer transfer as it reaches its consumer (R384, R404, R405): the fields of its manifest and its whole payload. -/
structure Xfer where
  typ : Nat
  srcIsland : Nat
  dstIsland : Nat
  fmt : Nat
  round : Nat
  base : Nat
  item : Nat
  srcModule : Nat
  attempt : Nat
  payload : List Byte
  deriving DecidableEq, Repr

/-- What an outer-loop flood says (R380, R407, R412, R415): a partner's DARK state as one gateway sees it, with the port it arrived on, one island-wide
LASTJ, the island's outer state with the joining source and whether R412 decided it, that every reply of a fetch has landed with the source's RHO, or
that a module has its first outer group or no longer one (assumption 28). -/
inductive OuterFlood where
  | partner (island module port : Nat) (dark : Bool) (arr : Fin 8)
  | lastj (v : Nat)
  | state (v : Nat) (source : Nat) (rejoin : Bool)
  | landed (rho : Nat)
  | registered (module : Nat) (present : Bool)
  deriving DecidableEq, Repr

/-- The values that an outer-loop flood carries are legal (R10, R380, R396, R407, R415). -/
def OuterFlood.wf : OuterFlood → Bool
  | .partner island module port _ _ => island < 16 && module < 1024 && port < 4
  | .lastj v => v < 2 ^ 32
  | .state v source _ => v ≤ 4 && (source < 16 || source == 255)
  | .landed rho => rho < 2 ^ 32
  | .registered module _ => module < 1024

/-- What reaches the collective engine: a packet of an engine's flow on a fabric port, with how often the adders' residue check fails on the segment
that it completes and in which lane (R317, R328); or a whole signature or segment, with its epoch. -/
inductive CollMsg where
  | sig (g : CollSig)
  | seg (g : CollSeg)
  | packet (port : Fin 8) (f : FabFrame) (bad lane : Nat)
  deriving DecidableEq, Repr

/-- The locator a FFL_VALID write names: a tile's or a field's (R172). -/
inductive FflTarget where
  | tile (t : Fin 1024)
  | field (f : Fin 64)
  deriving DecidableEq, Repr

/-- The transfer that XFAIL names (R475, R488): the fetch of a command queue, the writes of a completion ring or of an event ring, a
command's host-tier transfer by queue and sequence number, an activation entry's transfer, or a group's. -/
inductive XTag where
  | queue (q : Fin 64)
  | cring (c : Fin 64)
  | ering (e : Fin 17)
  | command (q : Fin 64) (seq : Nat)
  | activation (part : Fin 16) (aid : Nat) (field : Fin 64) (addr : Nat)
  | group (field : Fin 64) (gid : Nat) (addr : Nat)
  deriving DecidableEq, Repr

/-- A transfer that the HX-2 reports as failed: its tag and the cause (R475, R476). -/
structure XFail where
  tag : XTag
  cause : Nat
  deriving DecidableEq, Repr

/-- The commands of the module, one constructor per row of the opcode table in its order. A host command carries its header and
its parameters; a tile row its issuer, its W0 and its fields; a register row the view; an event row what the event brings. -/
inductive Instr where
  | nop (h : Hdr)
  | config (h : Hdr) (p : BufP) (feed : Feed)
  | inventory (h : Hdr) (p : BufP)
  | powerRun (h : Hdr)
  | powerPark (h : Hdr)
  | powerRetain (h : Hdr)
  | powerStateReached
  | queueSetup (h : Hdr) (p : QueueSetupP)
  | cringSetup (h : Hdr) (p : RingP)
  | eringSetup (h : Hdr) (p : RingP)
  | partCreate (h : Hdr) (p : PartP)
  | partDelete (h : Hdr) (pid : Nat)
  | profile (h : Hdr) (pid prof : Nat)
  | shutter (h : Hdr) (p : ShutterP) (feed : Feed)
  | shutterDrainPoint (pid : Fin 16)
  | shutterWaitTimeout (pid : Fin 16)
  | shutterExportDone (pid : Fin 16) (feed : Feed)
  | exportCutTimer (pid : Fin 16) (finished bytes : Nat)
  | shutterZeroiseDone (pid : Fin 16)
  | heirWindowOpen (h : Hdr) (p : HeirP)
  | heirWindowClose (h : Hdr) (p : HeirP)
  | queueBind (h : Hdr) (q view : Nat)
  | bulkMove (h : Hdr) (p : BulkP)
  | regulator (h : Hdr) (p : RegulatorP)
  | regulatorSys (h : Hdr) (p : RegulatorSysP)
  | errClear (h : Hdr) (fmask chmask : Nat)
  | actReg (h : Hdr) (p : ActP)
  | actRemove (h : Hdr) (aid : Nat)
  | footprint (h : Hdr)
  | tileProgram (h : Hdr) (p : TileProgramP)
  | stepStart (h : Hdr) (s0 : Nat)
  | stepStop (h : Hdr)
  | markTable (h : Hdr) (items : List MarkItem)
  | keeperSelect (h : Hdr) (keeper mode : Nat)
  | watchdog (h : Hdr) (p : WatchdogP)
  | islandForm (h : Hdr) (feed : Feed)
  | cgroupReg (h : Hdr) (id : Nat) (members : List Nat)
  | cgroupRemove (h : Hdr) (id : Nat)
  | allReduce (h : Hdr) (p : CollP)
  | reduceScatter (h : Hdr) (p : CollP)
  | allGather (h : Hdr) (p : CollP)
  | broadcast (h : Hdr) (p : CollP)
  | reduce (h : Hdr) (p : CollP)
  | allToAll (h : Hdr) (p : CollP)
  | barrier (h : Hdr) (p : CollP)
  | portRetrain (h : Hdr) (port : Nat)
  | portClear (h : Hdr) (pmask : Nat)
  | fabricSet (h : Hdr) (p : FabricP)
  | fedRecord (h : Hdr) (p : FedP)
  | outerReg (h : Hdr) (p : OuterP)
  | outerRemove (h : Hdr) (p : FieldGid)
  | routeTable (h : Hdr) (items : List RouteE)
  | lportConfig (h : Hdr) (p : LportP)
  | opticsRead (h : Hdr) (p : OpticsP) (feed : Feed)
  | opticsWrite (h : Hdr) (p : OpticsP) (feed : Feed)
  | lportClear (h : Hdr) (pmask : Nat)
  | pgroupReg (h : Hdr) (p : GroupP)
  | pgroupRemove (h : Hdr) (p : FieldGid)
  | publish (h : Hdr) (p : FieldGid)
  | stepScalar (h : Hdr) (slot : Nat) (value : F32)
  | driftAudit (h : Hdr) (p : FieldGid)
  | ckptExport (h : Hdr) (p : CkptP)
  | healthRead (h : Hdr) (p : HealthP)
  | healthClear (h : Hdr) (t0 t1 t2 t3 : Nat)
  | steerCtl (h : Hdr) (p : SteerCtlP)
  | steerSlot (h : Hdr) (p : SteerSlotP)
  | steerPin (h : Hdr) (slot rung : Nat)
  | steerUnpin (h : Hdr) (slot rung : Nat)
  | nevtEn (h : Hdr) (classEn steerEn : Nat)
  | snapshot (h : Hdr) (p : BufP)
  | attest (h : Hdr) (p : AttestP)
  | logRead (h : Hdr) (p : LogP)
  | idkeyRead (h : Hdr) (p : BufP)
  | testModeEnter (h : Hdr) (field : Nat)
  | testModeLeave (h : Hdr) (field : Nat)
  | tgRun (h : Hdr) (p : TgP)
  | tgRunDone (field : Fin 64) (ch : Fin 32) (errs : Nat) (first : Option (Nat × Nat))
  | tgStop (h : Hdr) (field chmask : Nat)
  | selftest (h : Hdr) (fmask : Nat) (feed : Feed)
  | sqDoorbell (view : Fin 17) (idx : Fin 64) (value : Word)
  | packetFetch (q : Fin 64) (bytes : List Byte) (feed : Feed)
  | scheduledStart (q : Fin 64) (feed : Feed)
  | completionPost (q : Fin 64)
  | cqDoorbell (view : Fin 17) (idx : Fin 64) (value : Word)
  | eqDoorbell (view : Fin 17) (idx : Fin 17) (value : Word)
  | q0SetupWrite (view : Fin 17) (reg : Fin 5) (value : Word)
  | rngSeedLoad (view : Fin 17) (tile : Fin 1024) (value : Word)
  | fflRearm (view : Fin 17) (target : FflTarget) (value : Word)
  | clrViol (view : Fin 17) (value : Word)
  | bcnPosRead (view : Fin 17)
  | registerWrite (view : Fin 17) (off : Nat) (value : Word)
  | imagePush (view : Fin 17) (value : Word)
  | imageReadDone (image : Option (List Byte))
  | firmwareLoadDone
  | dramTrainDone (failed : List (Nat × Nat))
  | bootZeroiseDone
  | selftestDone (failed : List Nat)
  | chkCfgWrite (view : Fin 17) (unit : Fin 65) (value : Word)
  | chkParamWrite (view : Fin 17) (unit : Fin 65) (reg : Fin 6) (value : Word)
  | chkRestart (view : Fin 17) (unit : Fin 65) (value : Word)
  | chkData8 (view : Fin 17) (unit : Fin 65) (value : Word)
  | chkData16 (view : Fin 17) (unit : Fin 65) (value : Word)
  | chkData32 (view : Fin 17) (unit : Fin 65) (value : Word)
  | chkFeedDone (unit : Fin 65)
  | chkResultRead (view : Fin 17) (unit : Fin 65) (hi : Bool)
  | queueRefill (u : Issuer)
  | descriptorStart (u : Issuer)
  | descriptorRetire (u : Issuer)
  | load (u : Issuer) (h : DHdr) (d : MoveD) (errs : List EccErr)
  | store (u : Issuer) (h : DHdr) (d : MoveD)
  | stage (u : Issuer) (h : DHdr) (d : StageD)
  | swap (u : Issuer) (h : DHdr) (arrays : Nat)
  | pass (u : Issuer) (h : DHdr) (d : PassD)
  | pairedPass (u : Issuer) (h : DHdr) (d : PassD)
  | drain (u : Issuer) (h : DHdr) (d : DrainD)
  | smxFwd (u : Issuer) (h : DHdr) (d : RowD)
  | smxDot (u : Issuer) (h : DHdr) (d : RowD)
  | smxBwd (u : Issuer) (h : DHdr) (d : RowD)
  | normStats (u : Issuer) (h : DHdr) (d : RowD)
  | normFwd (u : Issuer) (h : DHdr) (d : RowD)
  | normDot (u : Issuer) (h : DHdr) (d : RowD)
  | normBwd (u : Issuer) (h : DHdr) (d : RowD)
  | recSave (u : Issuer) (h : DHdr) (d : RowD)
  | recLoad (u : Issuer) (h : DHdr) (d : RowD)
  | laneCvt (u : Issuer) (h : DHdr) (d : LaneD)
  | laneAdd (u : Issuer) (h : DHdr) (d : LaneD)
  | laneSub (u : Issuer) (h : DHdr) (d : LaneD)
  | laneMul (u : Issuer) (h : DHdr) (d : LaneD)
  | laneFma (u : Issuer) (h : DHdr) (d : LaneD)
  | laneScale (u : Issuer) (h : DHdr) (d : LaneD)
  | laneAct (u : Issuer) (h : DHdr) (d : LaneD)
  | laneDact (u : Issuer) (h : DHdr) (d : LaneD)
  | laneMax (u : Issuer) (h : DHdr) (d : LaneD)
  | laneMin (u : Issuer) (h : DHdr) (d : LaneD)
  | laneSumsq (u : Issuer) (h : DHdr) (d : LaneD)
  | putAdd (u : Issuer) (h : DHdr) (d : PutD)
  | putWrite (u : Issuer) (h : DHdr) (d : PutD)
  | putRelease (u : Issuer)
  | get (u : Issuer) (h : DHdr) (d : GetD)
  | mark (u : Issuer) (h : DHdr) (n : Nat)
  | waitSemaphore (u : Issuer) (h : DHdr) (d : WaitD)
  | waitMark (u : Issuer) (h : DHdr) (d : WaitD)
  | fence (u : Issuer) (h : DHdr) (qmask : Nat)
  | nsummaryPropagate (tile : Fin 1024)
  | readyContribute (step : Nat)
  | doneContribute
  | flareFrameRx (port : Fin 8) (f : FabFrame)
  | stepBeginDelivery (step site : Nat)
  | markDelivery (step : Nat) (mark : Fin 32)
  | commitDelivery (step dur : Nat)
  | evalSlotDelivery (step : Nat)
  | normResult (step : Nat) (value : F32)
  | steerRoundResult (slot : Fin 64) (counts : List Nat)
  | scalarDelivery (slot : Fin 8) (value : F32) (step : Nat)
  | outerFloodRx (f : OuterFlood)
  | abortFloodRx (port : Fin 8) (step attempt : Nat)
  | fenceFloodRx (port : Fin 8) (module fencedPort : Nat)
  | stepOverdue (elapsed : Nat)
  | ppsEdge (cclk : Nat)
  | siteMessage (ns : Nat)
  | siteTimeout
  | advance
  | pstat (rails : Nat) (req : Nat)
  | xfail (x : XFail)
  | tileFault (field : Fin 64) (slots : List (Fin 17))
  | tileStoreUe (tile : Fin 1024) (word : Nat)
  | fcProbeTimeout (field : Fin 64)
  | channelLost (field : Fin 64) (ch : Fin 32)
  | scrub (field : Fin 64) (ch : Fin 32) (errs : List EccErr)
  | thermalSample (field : Fin 64) (group : Fin 8) (temp : Option Nat)
  | updateSweepStart (field : Fin 64)
  | updateSweepDone (field : Fin 64)
  | tileBorrow (field : Fin 64) (gid : Nat)
  | shardReductionLanded (field : Fin 64) (gid : Nat) (data : List (Nat × List Byte))
  | mirrorShardLanded (field : Fin 64) (gid : Nat) (shard : Nat) (data : List Byte)
  | workingCopyEmit (field : Fin 64) (gid : Nat)
  | ownerShardReceive (field : Fin 64) (gid : Nat) (rank : Nat) (data : List Byte)
  | versionPublish (field : Fin 64) (gid : Nat)
  | offloadReadDone (part : Fin 16) (aid : Nat) (field : Fin 64)
  | offloadDone (part : Fin 16) (aid : Nat) (field : Fin 64)
  | prefetchStart (part : Fin 16) (aid : Nat) (field : Fin 64)
  | prefetchLanded (part : Fin 16) (aid : Nat) (field : Fin 64) (data : List Byte)
  | stateFetch (field : Fin 64) (gid : Nat)
  | fetchLanded (field : Fin 64) (gid : Nat) (data : List Byte)
  | tierWritebackAck (field : Fin 64) (gid : Nat) (waitUs : Nat)
  | outerApplySweep (field : Fin 64) (gid : Nat)
  | outerFoldSweep (field : Fin 64) (gid : Nat)
  | outerCloseSweep (field : Fin 64) (gid : Nat)
  | outerCombineSweep (field : Fin 64) (gid : Nat) (round : Nat)
  | outerMasterReceive (field : Fin 64) (gid : Nat) (shard : Nat) (data : List Byte)
  | upTransferDelivered (x : Xfer)
  | downTransferDelivered (x : Xfer)
  | statusTransferRx (x : Xfer)
  | fetchReqRx (x : Xfer)
  | fetchDataRx (x : Xfer)
  | fabricTrainDone (port : Fin 8) (module : Fin 1024) (island : Fin 16) (peerPort : Fin 8)
  | fabricTrainTimeout (port : Fin 8)
  | fabricSilence (port : Fin 8)
  | fabricLaneLockLost (port : Fin 8) (lanes : Nat)
  | replayTimeout (port : Fin 8)
  | idleSend (port : Fin 8)
  | idleFrame (port : Fin 8) (f : FabFrame)
  | frameForward (port : Fin 8) (f : FabFrame)
  | bulkWritePacket (port : Fin 8) (f : FabFrame)
  | collectiveSegment (m : CollMsg)
  | flowAck (port : Fin 8) (f : FabFrame)
  | flowControlMessage (port : Fin 8) (f : FabFrame)
  | flowAckTimer (ctx : Nat)
  | flowRetransmitTimeout (ctx fseq : Nat)
  | opticsPoll (port : Fin 4) (los : OpticsRead) (lanes : Nat)
  | opticsPresenceChange (port : Fin 4) (present : Bool)
  | lanternLinkUp (port : Fin 4)
  | lanternLinkLost (port : Fin 4) (lanes : Nat)
  | hello (port : Fin 4) (f : HelloF)
  | helloRetry (port : Fin 4)
  | attestFrame (port : Fin 4) (session : Nat) (report : List Byte)
  | attestTimeout (port : Fin 4)
  | lanternData (port : Fin 4) (f : LntData)
  | manifestReject (port : Fin 4) (session flow : Nat) (told : Option Xfer)
  | lanternAck (port : Fin 4) (session flow cum sack : Nat)
  | lanternAckTimer (port : Fin 4) (flow : Fin 64)
  | lanternRtoExpiry (port : Fin 4) (flow : Fin 64) (pseq : Nat)
  | echoTimer (port : Fin 4) (now : Nat)
  | echo (port : Fin 4) (t1 now : Nat)
  | echoReply (port : Fin 4) (t1 t2 t3 now : Nat)
  | losttouch (port : Fin 4) (cut : Option Xfer)
  | close (port : Fin 4) (session : Nat)
  | lanternIdle (port : Fin 4)
  | reiloSilence
  | reiloLinkUp (lanes : Nat)
  | reset
  | railGoodLost (rail : Fin 3)
  | railEnableRemoved (rail : Fin 3)
  | inputOutOfRange
  | pgCoreReturn
  | powerRemoved
  | railEnableAsserted (rail : Fin 3)
  | testZeroiseDone (field : Fin 64)
  | hostTierAck (q : Fin 64) (seq : Nat) (data : List Byte)
  | fcRestartDone (field : Fin 64)
  | linkFrameDiscard (port : Fin 8) (outOfOrder : Bool)
  | lanternFrameDiscard (port : Fin 4)
  | formationNoAnswer (module : Nat)
  deriving DecidableEq, Repr

end Sys2Proof
end

