-- ==== Sys2Proof/Decode.lean ====
section
/-! DEFINITION. Decode.lean: the commands that a word of the opcode table spells. The table gives no row any bits, so no word spells one. -/

namespace Sys2Proof

/-- No row of the opcode table gives bits: a command of this block is an operation of its interfaces, and packets and descriptors
are decoded from bytes where the module fetches them (`Machine.parsePacket`, `Machine.decodeDescriptor`). -/
def decodeTableWord (_nbits _w : Nat) : Option Instr := none

end Sys2Proof
end

