-- ==== Sys2Proof/Config.lean ====
section
/-! DEFINITION. Config.lean: the free values and the uninterpreted functions of the model. None has a body that a proof could see. -/

namespace Sys2Proof.Config

/-- The candidate for the fixed F32 result of `exp` (R113); `expF32` keeps it within 1 ulp. Assumption 3. -/
opaque expFree : F32 → F32

/-- The candidate for the forward value of activation code `c` at `x` with parameter `alpha` (R127). Assumption 3. -/
opaque actFree : Nat → F32 → F32 → F32

/-- The candidate for the slope of activation code `c` at `x` (R127). Assumption 3. -/
opaque slopeFree : Nat → F32 → F32

/-- The candidate for `rsqrt` (R141). Assumption 3. -/
opaque rsqrtFree : F32 → F32

/-- The candidate for the power `pw(b, t)` (R292). Assumption 3. -/
opaque powFree : F32 → Nat → F32

/-- A result that a rule does not state for its operands: `site` names the rule, the list is its operands. Assumption 4. -/
opaque unstated : Nat → List F32 → F32

/-- SHA-384, named by R542, R550 and R369 and defined outside the spec: 48 bytes. Assumption 5. -/
opaque sha384 : List Byte → List Byte

/-- Whether an ECDSA P-384 signature (96 bytes) verifies under a public key (97 bytes) over a 48-byte hash (R542, R368). Assumption 5. -/
opaque ecdsaVerify : List Byte → List Byte → List Byte → Bool

/-- The identity key's signature over a hash, from the fused SECRET (R548, R551); the number counts signatures made,
since an ECDSA signature is not a function of the message alone. Assumption 5. -/
opaque identitySign : Nat → List Byte → Nat → List Byte

/-- The 97-byte identity public key that the fused SECRET determines (R548). Assumption 5. -/
opaque identityKey : Nat → List Byte

/-- The identity public key under which a lantern peer's report is judged: R369 names the key, and no field of R365, R367 or R551
carries it. Assumption 29. -/
opaque peerKey : List Byte → List Byte

/-- SHA-384 of the boot ROM (R550, TYPE 1). Assumption 5. -/
opaque romDigest : List Byte

/-- Fresh random bytes, by a counter that each use advances (R367). Assumption 6. -/
opaque freshByte : Nat → Byte

/-- What a traffic generator's checker has found when its run is stopped: mismatched codewords, the offset of the first, and its line and
transfer; physical, so free. Assumption 35. -/
opaque tgFound : Nat → Nat × Nat × Nat

/-- How many bursts a run of a traffic generator has made when it ends before its count: physical, so free. Assumption 35. -/
opaque tgBursts : Nat → Nat

/-- The 16 bytes of a MEANVAR element of an output of type BF16, by its count, mean and M2: R323 allows that type and no rule gives its layout.
Assumption 109. -/
opaque meanVarBf16 : Nat → Nat → Nat → BitVec 128

/-- What PWR_MON measures at its input: volts and power in the units of R552; physical, so free. Assumption 36. -/
opaque inputSample : Nat → Nat × Nat

end Sys2Proof.Config
end

