-- ==== Sys2Proof/Machine/Store.lean ====
section
/-! DEFINITION. Machine/Store.lean: finite maps kept as sorted lists, and byte memories in canonical form. -/

namespace Sys2Proof.Machine

/-- A finite map from numbers, kept as a list with rising keys. -/
abbrev SMap (α : Type) := List (Nat × α)

/-- The value at key `k`, or `d` when the map does not list it. -/
def smapGet {α : Type} (d : α) : SMap α → Nat → α
  | [], _ => d
  | (k', v) :: m, k => if k' = k then v else smapGet d m k

/-- The value at key `k`, if listed. -/
def smapFind {α : Type} : SMap α → Nat → Option α
  | [], _ => none
  | (k', v) :: m, k => if k' = k then some v else smapFind m k

/-- Sets the value at key `k`. -/
def smapSet {α : Type} : SMap α → Nat → α → SMap α
  | [], k, v => [(k, v)]
  | (k', v') :: m, k, v =>
    if k = k' then (k, v) :: m
    else if k < k' then (k, v) :: (k', v') :: m
    else (k', v') :: smapSet m k v

/-- Removes key `k`. -/
def smapErase {α : Type} : SMap α → Nat → SMap α
  | [], _ => []
  | (k', v) :: m, k => if k' = k then smapErase m k else (k', v) :: smapErase m k

/-- Changes the value at key `k`, taking `d` where it is not listed. -/
def smapModify {α : Type} (d : α) (m : SMap α) (k : Nat) (f : α → α) : SMap α :=
  smapSet m k (f (smapGet d m k))

/-- Changes every listed value. -/
def smapMap {α β : Type} (f : Nat → α → β) (m : SMap α) : SMap β := m.map (fun p => (p.1, f p.1 p.2))

/-- Changes the values at a list of keys. -/
def smapModifyAll {α : Type} (d : α) (m : SMap α) (ks : List Nat) (f : Nat → α → α) : SMap α :=
  ks.foldl (fun m k => smapModify d m k (f k)) m

/-- A byte memory: the bytes that differ from zero, at strictly rising addresses. -/
abbrev Memory := List Host.Cell

/-- What an address that the list does not name reads as (assumption 2). -/
def blankByte : Byte := 0

/-- One byte of memory. -/
def memRead : Memory → Nat → Byte
  | [], _ => blankByte
  | (k, v) :: m, a => if k = a then v else memRead m a

/-- Writes one byte, keeping the canonical form: a zero byte is not listed. -/
def memWrite : Memory → Nat → Byte → Memory
  | [], a, v => if v = blankByte then [] else [(a, v)]
  | (k, w) :: m, a, v =>
    if a = k then (if v = blankByte then m else (a, v) :: m)
    else if a < k then (if v = blankByte then (k, w) :: m else (a, v) :: (k, w) :: m)
    else (k, w) :: memWrite m a v

/-- Reads `n` bytes from address `a` upward. -/
def memReadBytes (m : Memory) (a n : Nat) : List Byte := (List.range n).map (fun i => memRead m (a + i))

/-- Writes a list of bytes from address `a` upward. -/
def memWriteBytes (m : Memory) (a : Nat) : List Byte → Memory
  | [] => m
  | b :: bs => memWriteBytes (memWrite m a b) (a + 1) bs

/-- Sets every byte of `[a, a + n)` to zero. -/
def memClear (m : Memory) (a n : Nat) : Memory := m.filter (fun c => !(a ≤ c.1 && c.1 < a + n))

/-- Copies `n` bytes from `src` to `dst` (all read before any is written). -/
def memCopy (m : Memory) (src dst n : Nat) : Memory := memWriteBytes m dst (memReadBytes m src n)

/-- The canonical form: strictly rising addresses and no blank byte listed. -/
def Memory.wf : Memory → Bool
  | [] => true
  | [(_, v)] => v != blankByte
  | (k, v) :: (k', v') :: m => v != blankByte && k < k' && Memory.wf ((k', v') :: m)

/-- A list of bytes as a little-endian number (R4). -/
def leNat : List Byte → Nat
  | [] => 0
  | b :: bs => b.toNat + 256 * leNat bs

/-- The `n` bytes of a number, least significant first (R4). -/
def leBytes : Nat → Nat → List Byte
  | 0, _ => []
  | n + 1, v => BitVec.ofNat 8 v :: leBytes n (v / 256)

/-- A little-endian number of `n` bytes in memory. -/
def memReadNat (m : Memory) (a n : Nat) : Nat := leNat (memReadBytes m a n)

/-- Writes a little-endian number of `n` bytes. -/
def memWriteNat (m : Memory) (a n v : Nat) : Memory := memWriteBytes m a (leBytes n v)

/-- An F32 word in memory. -/
def memReadF32 (m : Memory) (a : Nat) : F32 := BitVec.ofNat 32 (memReadNat m a 4)

/-- Writes an F32 word. -/
def memWriteF32 (m : Memory) (a : Nat) (v : F32) : Memory := memWriteNat m a 4 v.toNat

/-- Padding of a byte list with zeros to `n` bytes; a longer list is cut. -/
def padTo (n : Nat) (bs : List Byte) : List Byte := (bs ++ List.replicate (n - bs.length) 0).take n

end Sys2Proof.Machine
end

