-- ==== Sys2Proof/Machine/Num.lean ====
section
/-! DEFINITION. Machine/Num.lean: exact values, roundings and the float encodings of chapter The eight number formats. -/

namespace Sys2Proof.Machine

/-- An exact value: a NaN, an infinity, or (-1)^neg × m × 2^e. A zero keeps its sign. -/
inductive Val where
  | nan
  | inf (neg : Bool)
  | fin (neg : Bool) (m : Nat) (e : Int)
  deriving DecidableEq, Repr

/-- Bits needed to write `n`. -/
def bitLen (n : Nat) : Nat := if n = 0 then 0 else Nat.log2 n + 1

/-- Signed zero. -/
def Val.zero (neg : Bool) : Val := .fin neg 0 0

/-- Whether the value is a NaN. -/
def Val.isNan : Val → Bool
  | .nan => true
  | _ => false

/-- Whether the value is an infinity. -/
def Val.isInf : Val → Bool
  | .inf _ => true
  | _ => false

/-- Whether the value is finite. -/
def Val.isFin : Val → Bool
  | .fin _ _ _ => true
  | _ => false

/-- Whether the value is a zero. -/
def Val.isZero : Val → Bool
  | .fin _ m _ => m == 0
  | _ => false

/-- The sign of a value; a NaN has none. -/
def Val.isNeg : Val → Bool
  | .nan => false
  | .inf n => n
  | .fin n _ _ => n

/-- Negation. -/
def Val.neg : Val → Val
  | .nan => .nan
  | .inf n => .inf (!n)
  | .fin n m e => .fin (!n) m e

/-- Magnitude. -/
def Val.abs : Val → Val
  | .nan => .nan
  | .inf _ => .inf false
  | .fin _ m e => .fin false m e

/-- The exact product; zero times infinity is a NaN (R96). -/
def Val.mul : Val → Val → Val
  | .nan, _ => .nan
  | _, .nan => .nan
  | .inf a, .inf b => .inf (a != b)
  | .inf a, .fin b m _ => if m = 0 then .nan else .inf (a != b)
  | .fin b m _, .inf a => if m = 0 then .nan else .inf (a != b)
  | .fin a m e, .fin b m' e' => .fin (a != b) (m * m') (e + e')

/-- A signed integer times 2^e as a value; an exact zero is +0. -/
def Val.ofInt (z : Int) (e : Int) : Val := .fin (decide (z < 0)) z.natAbs e

/-- The signed mantissa of a finite value brought to exponent `e0 ≤ e`. -/
def alignTo (neg : Bool) (m : Nat) (e e0 : Int) : Int :=
  let k : Int := (m <<< (e - e0).toNat : Nat)
  if neg then -k else k

/-- The exact sum, as IEEE 754 decides signs of zero under round to nearest: two zeros of one sign keep it, every other
zero sum is +0; infinities of both signs give a NaN (R102). -/
def Val.add : Val → Val → Val
  | .nan, _ => .nan
  | _, .nan => .nan
  | .inf a, .inf b => if a = b then .inf a else .nan
  | .inf a, _ => .inf a
  | _, .inf b => .inf b
  | .fin a m e, .fin b m' e' =>
    if m = 0 && m' = 0 then .fin (a && b) 0 0
    else
      let e0 := min e e'
      Val.ofInt (alignTo a m e e0 + alignTo b m' e' e0) e0

/-- The exact difference. -/
def Val.sub (x y : Val) : Val := x.add y.neg

/-- Whether |x| ≤ |y| for finite values. -/
def magLe (m : Nat) (e : Int) (m' : Nat) (e' : Int) : Bool :=
  let e0 := min e e'
  decide (m <<< (e - e0).toNat ≤ m' <<< (e' - e0).toNat)

/-- x < y; false when either is a NaN. -/
def Val.lt : Val → Val → Bool
  | .nan, _ => false
  | _, .nan => false
  | .inf a, .inf b => a && !b
  | .inf a, .fin _ _ _ => a
  | .fin _ _ _, .inf b => !b
  | .fin a m e, .fin b m' e' =>
    let e0 := min e e'
    decide (alignTo a m e e0 < alignTo b m' e' e0)

/-- x ≤ y; false when either is a NaN. -/
def Val.le (x y : Val) : Bool := !x.isNan && !y.isNan && !(y.lt x)

/-- `m ÷ 2^s` rounded to nearest, ties to even (R42). -/
def rneShift (m s : Nat) : Nat :=
  if s = 0 then m
  else
    let q := m >>> s
    let r := m - (q <<< s)
    let h := 1 <<< (s - 1)
    if h < r ∨ (r = h ∧ q % 2 = 1) then q + 1 else q

/-- `m ÷ 2^s` rounded stochastically with the 16-bit draw `n` (R44). -/
def stochShift (m s n : Nat) : Nat :=
  if s = 0 then m
  else
    let q := m >>> s
    let r := m - (q <<< s)
    let d := if s ≤ 16 then r <<< (16 - s) else r >>> (s - 16)
    if 0x10000 ≤ d + n then q + 1 else q

/-- The rounding step of a conversion: to nearest, or stochastic with a draw. -/
def shiftRound (draw : Option Nat) (m s : Nat) : Nat :=
  match draw with
  | none => rneShift m s
  | some n => stochShift m s n

/-- Rounds `m × 2^e` to `p` significant bits with no exponent below `qmin`. -/
def roundSig (draw : Option Nat) (p : Nat) (qmin : Option Int) (m : Nat) (e : Int) : Nat × Int :=
  let e1 : Int := e + (bitLen m : Int) - (p : Int)
  let e' : Int := match qmin with
    | none => e1
    | some q => max e1 q
  if e' ≤ e then (m, e) else (shiftRound draw m (e' - e).toNat, e')

/-- A float encoding: precision, exponent of the last place of subnormals, fraction bits, the largest finite code,
the codes of +infinity and of the NaN the module writes (R32, R62). -/
structure FloatFmt where
  p : Nat
  qmin : Int
  mbits : Nat
  width : Nat
  maxCode : Nat
  infCode : Option Nat
  nanCode : Nat
  deriving DecidableEq, Repr

/-- F32: IEEE 754 binary32 (R31). -/
def fmtF32 : FloatFmt := ⟨24, -149, 23, 32, 0x7F7FFFFF, some 0x7F800000, 0x7FC00000⟩
/-- BF16: the upper 16 bits of an F32 (R31). -/
def fmtBF16 : FloatFmt := ⟨8, -133, 7, 16, 0x7F7F, some 0x7F80, 0x7FC0⟩
/-- H16: IEEE 754 binary16 (R31). -/
def fmtH16 : FloatFmt := ⟨11, -24, 10, 16, 0x7BFF, some 0x7C00, 0x7E00⟩
/-- E5M2 (R32). -/
def fmtE5M2 : FloatFmt := ⟨3, -16, 2, 8, 0x7B, some 0x7C, 0x7E⟩
/-- E4M3, which has no infinity (R32). -/
def fmtE4M3 : FloatFmt := ⟨4, -9, 3, 8, 0x7E, none, 0x7F⟩
/-- The E2M1 element of B4 (R34): no infinity and no NaN of its own. -/
def fmtE2M1 : FloatFmt := ⟨2, -1, 1, 4, 0x7, none, 0x7⟩

/-- The magnitude code of a rounded nonzero or zero `m × 2^e`, with no upper limit. -/
def magCode (f : FloatFmt) (m : Nat) (e : Int) : Nat :=
  if m = 0 then 0
  else
    let cut := bitLen m - f.p
    let m1 := m >>> cut
    let e1 := e + (cut : Int)
    let sh := min (f.p - bitLen m1) (e1 - f.qmin).toNat
    let m2 := m1 <<< sh
    let e2 := e1 - (sh : Int)
    if m2 < 2 ^ (f.p - 1) then m2
    else ((e2 - f.qmin).toNat + 1) <<< f.mbits + (m2 - 2 ^ f.mbits)

/-- The sign bit of a format, set when `neg`. -/
def signBit (f : FloatFmt) (neg : Bool) : Nat := if neg then 2 ^ (f.width - 1) else 0

/-- The value of a code (R32, R34). Subnormals keep their value. -/
def decodeFloat (f : FloatFmt) (code : Nat) : Val :=
  let neg := code.testBit (f.width - 1)
  let mag := code % 2 ^ (f.width - 1)
  if f.maxCode < mag then (if f.infCode = some mag then .inf neg else .nan)
  else
    let ef := mag >>> f.mbits
    let frac := mag % 2 ^ f.mbits
    if ef = 0 then .fin neg frac f.qmin
    else .fin neg (frac + 2 ^ f.mbits) (f.qmin + (ef : Int) - 1)

/-- IEEE 754 rounding of an exact value into a format that has infinities, to nearest even. -/
def encodeNearest (f : FloatFmt) : Val → Nat
  | .nan => f.nanCode
  | .inf n => signBit f n + f.infCode.getD f.maxCode
  | .fin n m e =>
    let r := roundSig none f.p (some f.qmin) m e
    let c := magCode f r.1 r.2
    if f.maxCode < c then signBit f n + f.infCode.getD f.maxCode else signBit f n + c

/-- `round_f32`: the F32 nearest an exact value, ties to even (R42). -/
def roundF32 (v : Val) : F32 := BitVec.ofNat 32 (encodeNearest fmtF32 v)

/-- `round_bf16`. -/
def roundBF16 (v : Val) : Nat := encodeNearest fmtBF16 v

/-- The exact value of an F32 word, subnormals included. -/
def f32Val (x : F32) : Val := decodeFloat fmtF32 x.toNat

/-- Whether an F32 word is subnormal. -/
def f32Subnormal (x : F32) : Bool := bitsAt x.toNat 23 8 == 0 && bitsAt x.toNat 0 23 != 0

/-- `flush` of R100: zero of the sign of a subnormal F32 value. -/
def flushF32 (x : F32) : F32 := if f32Subnormal x then BitVec.ofNat 32 (if x.toNat.testBit 31 then 0x80000000 else 0) else x

/-- An F32 operand as it is read: a subnormal as zero of its sign (R61). -/
def readF32 (x : F32) : Val := f32Val (flushF32 x)

/-- The canonical F32 NaN (R62). -/
def nanF32 : F32 := 0x7FC00000#32
/-- +infinity in F32. -/
def infF32 : F32 := 0x7F800000#32
/-- -infinity in F32. -/
def ninfF32 : F32 := 0xFF800000#32
/-- 1.0 in F32. -/
def oneF32 : F32 := 0x3F800000#32

/-- Whether an F32 word is a NaN. -/
def f32IsNan (x : F32) : Bool := (f32Val x).isNan
/-- Whether an F32 word is finite. -/
def f32IsFin (x : F32) : Bool := (f32Val x).isFin

/-- round_f32(x + y) of two F32 words. -/
def fAdd (x y : F32) : F32 := roundF32 ((f32Val x).add (f32Val y))
/-- round_f32(x - y). -/
def fSub (x y : F32) : F32 := roundF32 ((f32Val x).sub (f32Val y))
/-- round_f32(x × y). -/
def fMul (x y : F32) : F32 := roundF32 ((f32Val x).mul (f32Val y))
/-- round_f32(x × y + z), one rounding. -/
def fFma (x y z : F32) : F32 := roundF32 (((f32Val x).mul (f32Val y)).add (f32Val z))
/-- -x. -/
def fNeg (x : F32) : F32 := x ^^^ 0x80000000#32

/-- A quotient of magnitudes as mantissa and exponent with a sticky last bit, precise enough for any rounding here. -/
def divSticky (m : Nat) (e : Int) (m' : Nat) (e' : Int) : Nat × Int :=
  let k := 80 + bitLen m'
  let num := m <<< k
  let q := num / m'
  let s := if num % m' = 0 then 0 else 1
  (2 * q + s, e - e' - (k : Int) - 1)

/-- A quotient with IEEE 754 special cases, as a value that rounds as the exact quotient does. -/
def Val.div : Val → Val → Val
  | .nan, _ => .nan
  | _, .nan => .nan
  | .inf _, .inf _ => .nan
  | .inf a, .fin b _ _ => .inf (a != b)
  | .fin a _ _, .inf b => .fin (a != b) 0 0
  | .fin a m e, .fin b m' e' =>
    if m' = 0 then (if m = 0 then .nan else .inf (a != b))
    else
      let r := divSticky m e m' e'
      .fin (a != b) r.1 r.2

/-- round_f32(x ÷ y). -/
def fDiv (x y : F32) : F32 := roundF32 ((f32Val x).div (f32Val y))

/-- The quotient by a whole number, rounded once. -/
def fDivNat (x : F32) (n : Nat) : F32 := roundF32 ((f32Val x).div (.fin false n 0))

/-- The integer square root, bit by bit from bit `k - 1` downward. -/
def isqrtFrom : Nat → Nat → Nat → Nat
  | 0, _, acc => acc
  | k + 1, n, acc =>
    let t := acc + 2 ^ k
    if t * t ≤ n then isqrtFrom k n t else isqrtFrom k n acc

/-- The integer square root of `n`. -/
def isqrt (n : Nat) : Nat := isqrtFrom (bitLen n / 2 + 1) n 0

/-- The square root with a sticky last bit; a negative nonzero argument gives a NaN. -/
def Val.sqrt : Val → Val
  | .nan => .nan
  | .inf n => if n then .nan else .inf false
  | .fin n m e =>
    if m = 0 then .fin n 0 0
    else if n then .nan
    else
      let sh : Nat := if e % 2 = 0 then 80 else 81
      let num := m <<< sh
      let q := isqrt num
      let s := if q * q = num then 0 else 1
      .fin false (2 * q + s) ((e - (sh : Int)) / 2 - 1)

/-- Correctly rounded square root (R292). -/
def fSqrt (x : F32) : F32 := roundF32 (f32Val x).sqrt

/-- `max` with the NaN and zero rules of R120. -/
def fMax (x y : F32) : F32 :=
  if f32IsNan x || f32IsNan y then nanF32
  else if (f32Val x).isZero && (f32Val y).isZero then (if x.toNat = 0 || y.toNat = 0 then 0 else x)
  else if (f32Val x).lt (f32Val y) then y else x

/-- `min` with the NaN and zero rules of R120. -/
def fMin (x y : F32) : F32 :=
  if f32IsNan x || f32IsNan y then nanF32
  else if (f32Val x).isZero && (f32Val y).isZero then (if x.toNat = 0 && y.toNat = 0 then 0 else 0x80000000#32)
  else if (f32Val y).lt (f32Val x) then y else x

/-- An unsigned integer as F32, to nearest even. -/
def f32OfNat (n : Nat) : F32 := roundF32 (.fin false n 0)

/-- One level of a balanced tree: neighbours (2i, 2i + 1) are added. -/
def pairUp {α : Type} (f : α → α → α) : List α → List α
  | a :: b :: l => f a b :: pairUp f l
  | l => l

/-- The balanced tree of R98 and R114: `levels` rounds of neighbours. -/
def treeFold {α : Type} (f : α → α → α) (z : α) : Nat → List α → α
  | 0, l => l.headD z
  | n + 1, l => treeFold f z n (pairUp f l)

/-- The balanced F32 sum of 128 elements by position (R114, R136). -/
def treeSum (l : List F32) : F32 := treeFold fAdd 0 7 l

/-- 2^k for an integer exponent, as a value. -/
def Val.pow2 (k : Int) : Val := .fin false 1 k

/-- Whether two values are equal as numbers. -/
def Val.numEq (x y : Val) : Bool := !x.isNan && !y.isNan && !(x.lt y) && !(y.lt x)

end Sys2Proof.Machine
end

