-- ==== Sys2Proof/Machine/Convert.lean ====
section
/-! DEFINITION. Machine/Convert.lean: the conversions of chapter The eight number formats, with what each one counts (R46, R158, R162). -/

namespace Sys2Proof.Machine

/-- What one element of a conversion or operand read counts. `ovr` and `vanish` are OVER and VANISH of R162. -/
structure Ev where
  sat : Bool := false
  inf : Bool := false
  invalid : Bool := false
  flush : Bool := false
  ovr : Bool := false
  vanish : Bool := false
  deriving DecidableEq, Repr

/-- The float encoding of format codes 0 to 4 and of the B4 element, by format code (R31). -/
def floatFmt (fmt : Nat) : FloatFmt :=
  match fmt with
  | 0 => fmtF32
  | 1 => fmtBF16
  | 2 => fmtH16
  | 3 => fmtE5M2
  | 4 => fmtE4M3
  | _ => fmtE2M1

/-- Two's complement of `w` bits as an integer. -/
def signedOf (w n : Nat) : Int := if n.testBit (w - 1) then (n % 2 ^ w : Nat) - (2 ^ w : Nat) else ((n % 2 ^ w : Nat) : Int)

/-- An integer as a `w`-bit two's-complement code. -/
def codeOfInt (w : Nat) (z : Int) : Nat := (z % (2 ^ w : Nat)).toNat

/-- The exact value of an element code; B4 and I4 take the block's scale byte (R32 to R35). -/
def elemVal (fmt scale code : Nat) : Val :=
  match fmt with
  | 5 => Val.ofInt (signedOf 8 code) 0
  | 6 => if scale = 0xFF then .nan
         else match decodeFloat fmtE2M1 code with
              | .fin n m e => .fin n m (e + (scale : Int) - 127)
              | v => v
  | 7 => if scale = 0xFF then .nan else Val.ofInt (signedOf 4 code) ((scale : Int) - 127)
  | _ => decodeFloat (floatFmt fmt) code

/-- Whether a format flushes subnormal operands (R61). -/
def wideFmt (fmt : Nat) : Bool := fmt == 0 || fmt == 1 || fmt == 2

/-- Whether a value is subnormal in a wide format. -/
def subnormalIn (f : FloatFmt) : Val → Bool
  | .fin _ m e => m != 0 && !magLe 1 (f.qmin + (f.p : Int) - 1) m e
  | _ => false

/-- An operand element as an operation reads it, and whether it counts as flushed (R61). -/
def readElem (fmt scale code : Nat) : Val × Bool :=
  let v := elemVal fmt scale code
  if wideFmt fmt && subnormalIn (floatFmt fmt) v then (Val.zero v.isNeg, true) else (v, false)

/-- Widening to F32 (R51): exact, but a subnormal result is flushed and an overflow becomes an infinity. -/
def widenF32 (v : Val) : F32 × Ev :=
  let w := roundF32 v
  if f32Subnormal w then (flushF32 w, { flush := true })
  else if v.isFin && !(v.isZero) && (f32Val w).isInf then (w, { inf := true })
  else if v.isFin && !(v.isZero) && (f32Val w).isZero then (w, { flush := true })
  else (w, {})

/-- An operand element widened to F32, with its counts. -/
def readWiden (fmt scale code : Nat) : F32 × Ev :=
  let r := readElem fmt scale code
  let w := widenF32 r.1
  (w.1, { w.2 with flush := w.2.flush || r.2 })

/-- An 8-bit element of a vector with block scales: its value times the block's scale, widened; under scale 0xFF it is NaN (R51, R325). -/
def widenScaled (fmt scale code : Nat) : F32 × Ev :=
  if scale = 0xFF then (nanF32, {})
  else match decodeFloat (floatFmt fmt) code with
    | .fin n m x => widenF32 (.fin n m (x + (scale : Int) - 127))
    | v => widenF32 v

/-- The largest finite value of a float format. -/
def maxVal (f : FloatFmt) : Val := decodeFloat f f.maxCode

/-- Conversion into F32, BF16 or H16 (R45, R46, R52). -/
def convertWide (f : FloatFmt) (draw : Option Nat) : Val → Nat × Ev
  | .nan => (f.nanCode, {})
  | .inf n => (signBit f n + f.infCode.getD 0, {})
  | .fin n m e =>
    if m = 0 then (signBit f n, {})
    else
      let r := roundSig draw f.p none m e
      let small := !magLe 1 (f.qmin + (f.p : Int) - 1) r.1 r.2
      if small then (signBit f n, { flush := true, vanish := true })
      else
        let c := magCode f r.1 r.2
        let big := if draw.isSome then (maxVal f).lt (.fin false m e) else decide (f.maxCode < c)
        if big then (signBit f n + f.infCode.getD 0, { inf := true, ovr := true })
        else (signBit f n + c, {})

/-- Conversion into E5M2 or E4M3 under an overflow policy (false SAT, true SPECIAL) (R45, R46). -/
def convertNarrow (f : FloatFmt) (special : Bool) (draw : Option Nat) : Val → Nat × Ev
  | .nan => (f.nanCode, {})
  | .inf n =>
    if special then
      (match f.infCode with
       | some c => (signBit f n + c, {})
       | none => (f.nanCode, { invalid := true }))
    else (signBit f n + f.maxCode, { sat := true })
  | .fin n m e =>
    if m = 0 then (signBit f n, {})
    else
      let r := roundSig draw f.p (some f.qmin) m e
      let c := magCode f r.1 r.2
      let big := if draw.isSome then (maxVal f).lt (.fin false m e) else decide (f.maxCode < c)
      if big then
        (if special then
          (match f.infCode with
           | some ic => (signBit f n + ic, { inf := true, ovr := true })
           | none => (f.nanCode, { invalid := true, ovr := true }))
         else (signBit f n + f.maxCode, { sat := true, ovr := true }))
      else (signBit f n + c, { vanish := c == 0 })

/-- A quotient of naturals rounded to an integer, to nearest even or stochastically (R42, R44). -/
def roundQuot (draw : Option Nat) (num den : Nat) : Nat :=
  let q := num / den
  let r := num % den
  match draw with
  | none => if den < 2 * r ∨ (2 * r = den ∧ q % 2 = 1) then q + 1 else q
  | some n => if 0x10000 ≤ (r <<< 16) / den + n then q + 1 else q

/-- `m × 2^e ÷ (ms × 2^es)` rounded to an integer. -/
def roundRatio (draw : Option Nat) (m : Nat) (e : Int) (ms : Nat) (es : Int) : Nat :=
  roundQuot draw (m <<< (e - es).toNat) (ms <<< (es - e).toNat)

/-- Conversion into I8 without a row scale (R46, R47). -/
def convertI8 (special : Bool) (draw : Option Nat) : Val → Nat × Ev
  | .nan => (0x80, {})
  | .inf n => if special then (0x80, { invalid := true }) else (if n then 0x81 else 0x7F, { sat := true })
  | .fin n m e =>
    let q := roundRatio draw m e 1 0
    let big := if draw.isSome then Val.lt (.fin false 127 0) (.fin false m e) else decide (127 < q)
    if big then
      (if special then (0x80, { invalid := true, ovr := true })
       else (if n then 0x81 else 0x7F, { sat := true, ovr := true }))
    else (codeOfInt 8 (if n then -(q : Int) else (q : Int)), { vanish := q == 0 && m != 0 })

/-- Conversion of one element into format codes 0 to 5 (I8 without row scale). -/
def convertElem (fmt : Nat) (special : Bool) (draw : Option Nat) (v : Val) : Nat × Ev :=
  match fmt with
  | 3 => convertNarrow fmtE5M2 special draw v
  | 4 => convertNarrow fmtE4M3 special draw v
  | 5 => convertI8 special draw v
  | _ => convertWide (floatFmt fmt) draw v

/-- A residual as it is kept in BF16 (R41, R52, R249, R398). -/
def roundRes (v : Val) : Nat × Ev := convertElem 1 false none v

/-- The largest finite magnitude of a list of values, as a value. -/
def maxMag (vs : List Val) : Val :=
  vs.foldl (fun a v => match v with
    | .fin _ _ _ => if a.lt v.abs then v.abs else a
    | _ => a) (Val.zero false)

/-- Whether `v ÷ 2^(e - 127) ≤ lim` for a finite magnitude. -/
def fitsScale (v : Val) (lim e : Nat) : Bool := v.le (.fin false lim ((e : Int) - 127))

/-- The smallest scale byte 0 to 254 under which a magnitude stays within `lim`; none when no byte does (R49, R249). -/
def findScale (v : Val) (lim : Nat) : Option Nat := (List.range 255).find? (fitsScale v lim)

/-- A finite value divided by 2^(e - 127). -/
def unscale (v : Val) (e : Nat) : Val :=
  match v with
  | .fin n m x => .fin n m (x - ((e : Int) - 127))
  | w => w

/-- A B4 or I4 element code of a value already divided by its scale, and whether it was clipped. -/
def code4 (isI4 : Bool) (draw : Option Nat) (v : Val) : Nat × Bool :=
  match v with
  | .fin n m e =>
    if isI4 then
      let q := roundRatio draw m e 1 0
      if 7 < q then (codeOfInt 4 (if n then -7 else 7), true)
      else (codeOfInt 4 (if n then -(q : Int) else (q : Int)), false)
    else
      let r := roundSig draw 2 (some (-1)) m e
      let c := magCode fmtE2M1 r.1 r.2
      if 7 < c then ((if n then 8 else 0) + 7, true) else ((if n then 8 else 0) + c, false)
  | .inf n => if isI4 then (codeOfInt 4 (if n then -7 else 7), true) else ((if n then 8 else 0) + 7, true)
  | .nan => (0, false)

/-- Conversion of a block of 32 values into B4 or I4: the scale byte and each element's code and counts (R46, R49). -/
def convertBlock (isI4 special : Bool) (draws : Nat → Option Nat) (vs : List Val) : Nat × List (Nat × Ev) :=
  let lim := if isI4 then 7 else 6
  let top := maxMag vs
  let scale := if top.isZero then some 0x7F else findScale top lim
  let bad := vs.any Val.isInf || scale.isNone
  if vs.any Val.isNan then (0xFF, vs.map (fun _ => (0, {})))
  else if bad && special then
    (0xFF, vs.map (fun v => (0, { invalid := true, ovr := v.isFin && !(fitsScale v.abs lim 254) })))
  else
    let e := if bad then 0xFE else scale.getD 0xFE
    (e, vs.zipIdx.map (fun p =>
      let c := code4 isI4 (draws p.2) (unscale p.1 e)
      let zero := if isI4 then c.1 == 0 else c.1 % 8 == 0
      (c.1, { sat := c.2, ovr := c.2 && p.1.isFin, vanish := p.1.isFin && !(p.1.isZero) && zero })))

/-- `m ÷ 2^s` rounded up. -/
def ceilShift (m s : Nat) : Nat :=
  let q := m >>> s
  if m = q <<< s then q else q + 1

/-- A positive finite value rounded toward +infinity into a float format, as a code (R48, R246). -/
def encodeUp (f : FloatFmt) : Val → Nat
  | .fin _ m e =>
    let e' : Int := max (e + (bitLen m : Int) - (f.p : Int)) f.qmin
    let r : Nat × Int := if e' ≤ e then (m, e) else (ceilShift m (e' - e).toNat, e')
    magCode f r.1 r.2
  | .inf _ => f.infCode.getD f.maxCode
  | .nan => f.nanCode

/-- The scale of a row-scaled I8 row of finite values (R48). -/
def rowScale (vs : List Val) : F32 :=
  let top := maxMag vs
  if top.isZero then oneF32
  else
    let c := BitVec.ofNat 32 (encodeUp fmtF32 (top.div (.fin false 127 0)))
    if (f32Val c).lt (.fin false 1 (-126)) then 0x00800000#32 else c

/-- Conversion of a row into row-scaled I8: the scale and each element's code and counts (R46, R48). -/
def convertRowI8 (draws : Nat → Option Nat) (vs : List Val) : F32 × List (Nat × Ev) :=
  if vs.any Val.isNan then (nanF32, vs.map (fun _ => (0x80, {})))
  else if vs.any Val.isInf then (nanF32, vs.map (fun _ => (0x80, { invalid := true })))
  else
    let s := rowScale vs
    match f32Val s with
    | .fin _ ms es =>
      (s, vs.zipIdx.map (fun p => match p.1 with
        | .fin n m e =>
          let q := roundRatio (draws p.2) m e ms es
          (codeOfInt 8 (if n then -(q : Int) else (q : Int)), { vanish := q == 0 && m != 0 })
        | _ => (0x80, {})))
    | _ => (s, vs.map (fun _ => (0x80, {})))

/-- The limit L of R246 and R249: 448 for E4M3, 57,344 for E5M2. -/
def limit8 (fmt : Nat) : Nat := if fmt = 4 then 448 else 57344

/-- One block of 128 finite values quantised with an E8M0 scale: scale byte, codes and the exact values sent (R249). -/
def quantise8 (fmt : Nat) (xs : List F32) : Nat × List Nat × List Val :=
  let vs := xs.map f32Val
  let top := maxMag vs
  let e := if top.isZero then 0x7F else (findScale top (limit8 fmt)).getD 254
  let qs := vs.map (fun v => (convertElem fmt false none (unscale v e)).1)
  (e, qs, qs.map (fun c => match decodeFloat (floatFmt fmt) c with
    | .fin n m x => .fin n m (x + (e : Int) - 127)
    | v => v))

/-- One block of 32 finite values quantised to B4 (R49): scale byte, codes and the exact values. -/
def quantiseB4 (xs : List F32) : Nat × List Nat × List Val :=
  let r := convertBlock false false (fun _ => none) (xs.map f32Val)
  let cs := r.2.map Prod.fst
  (r.1, cs, cs.map (elemVal 6 r.1))

/-- Moment storage of a block of 128 F32 values (R246): the BF16 scale code, the element codes, and whether the block was
not finite. -/
def storeMoments (fmt : Nat) (ms : List F32) : Nat × List Nat × Bool :=
  let vs := ms.map f32Val
  if vs.any (fun v => !v.isFin) then (0x7FC0, ms.map (fun _ => (floatFmt fmt).nanCode), true)
  else
    let top := maxMag vs
    let s := if top.isZero then 0x3F80 else max (encodeUp fmtBF16 (top.div (.fin false (limit8 fmt) 0))) 0x0080
    let sv := decodeFloat fmtBF16 s
    (s, vs.map (fun v => (convertElem fmt false none (f32Val (roundF32 (v.div sv)))).1), false)

/-- A stored moment read back: element × scale, formed exactly (R246) and widened to F32, so that a subnormal result is flushed and counted (R41,
R51; assumption 48). -/
def readMoment (fmt scale code : Nat) : F32 × Ev :=
  widenF32 ((decodeFloat (floatFmt fmt) code).mul (decodeFloat fmtBF16 scale))

/-- The element's size in bits by format code (R31). -/
def fmtBits (fmt : Nat) : Nat :=
  match fmt with
  | 0 => 32
  | 1 => 16
  | 2 => 16
  | 6 => 4
  | 7 => 4
  | _ => 8

end Sys2Proof.Machine
end

