-- ==== Sys2Proof/Machine/FixedFn.lean ====
section
/-! DEFINITION. Machine/FixedFn.lean: the fixed F32 functions that the spec bounds in ulp (R113, R127, R141, R292): each is a
free value of Config, kept within the stated distance of the exact function (assumption 3). -/

namespace Sys2Proof.Machine

/-- Fraction bits of the fixed-point numbers in which the exact functions are approximated. -/
def fxP : Nat := 512

/-- ln 2 in units of 2^-512, cut. -/
def fxLn2 : Int := 0xb17217f7d1cf79abc9e3b39803f2f6af40f343267298b62d8a0d175b8baafa2be7b876206debac98559552fb4afa1b10ed2eae35c138214427573b291169b825

/-- √(2/π) in units of 2^-512, cut. -/
def fxSqrt2Pi : Int := 0xcc42299ea1b284687e59e2805d5c717fa7053e60a24e0db1808e369004c73a5d3bf158aa88fa7b6e47eba75766e9d11bd6284ef2e17c2a264f1d32688be119ff

/-- 1.0 in units of 2^-512. -/
def fxOne : Int := (2 : Int) ^ fxP

/-- Fixed-point product. -/
def fxMul (a b : Int) : Int := (a * b) / fxOne

/-- Fixed-point quotient. -/
def fxDiv (a b : Int) : Int := (a * fxOne) / b

/-- A finite value in fixed point, its magnitude limited to 2^12 so that the functions below stay computable: every one of
them has reached its limit there. -/
def fxOfVal : Val → Int
  | .fin n m e =>
    let big := !(magLe m e 1 12)
    let a : Int := if big then 4096 * fxOne
      else
        let s : Int := e + (fxP : Int)
        if 0 ≤ s then ((m <<< s.toNat : Nat) : Int) else ((m >>> (-s).toNat : Nat) : Int)
    if n then -a else a
  | _ => 0

/-- A fixed-point number as a value. -/
def fxVal (z : Int) : Val := Val.ofInt z (-(fxP : Int))

/-- Σ r^i / i! from term `i`, `n` terms more. -/
def fxExpSeries : Nat → Nat → Int → Int → Int → Int
  | 0, _, _, _, acc => acc
  | n + 1, i, r, t, acc =>
    let t' := fxMul t r / (i : Int)
    fxExpSeries n (i + 1) r t' (acc + t')

/-- e^x of a fixed-point number below 2^12 in magnitude, as a value: e^r × 2^k. -/
def expVal (x : Int) : Val :=
  let k := x / fxLn2
  let r := x - k * fxLn2
  Val.ofInt (fxExpSeries 100 1 r fxOne fxOne) (k - (fxP : Int))

/-- Σ z^(2i+1) / (2i+1). -/
def fxAtanhSeries : Nat → Nat → Int → Int → Int → Int
  | 0, _, _, _, acc => acc
  | n + 1, i, z2, t, acc => fxAtanhSeries n (i + 2) z2 (fxMul t z2) (acc + t / (i : Int))

/-- ln(1 + y) for 0 ≤ y ≤ 1 in fixed point. -/
def fxLog1p (y : Int) : Int :=
  let z := fxDiv y (2 * fxOne + y)
  2 * fxAtanhSeries 170 1 (fxMul z z) z 0

/-- Σ of x (x²)^i / (1·3·…·(2i+1)), the series of Φ(x) - 1/2 over φ(x). -/
def fxErfSeries : Nat → Nat → Int → Int → Int → Int
  | 0, _, _, _, acc => acc
  | n + 1, i, x2, t, acc => fxErfSeries n (i + 2) x2 (fxMul t x2 / (i : Int)) (acc + t)

/-- A value limited in precision to 600 significant bits, so that long products stay small. -/
def trimVal : Val → Val
  | .fin n m e => let r := roundSig none 600 none m e; .fin n r.1 r.2
  | v => v

/-- e^x as a value. -/
def expOf (v : Val) : Val := expVal (fxOfVal v)

/-- A value in fixed point where it lies below 2^512. -/
def fxTrunc : Val → Int
  | .fin n m e =>
    let s : Int := e + (fxP : Int)
    let a : Int := if 0 ≤ s then ((m <<< s.toNat : Nat) : Int) else ((m >>> (-s).toNat : Nat) : Int)
    if n then -a else a
  | _ => 0

/-- An exact quotient of values cut at 600 bits. -/
def quotVal (x y : Val) : Val :=
  match x, y with
  | .fin a m e, .fin b m' e' =>
    if m' = 0 then Val.zero false
    else .fin (a != b) ((m <<< (600 + bitLen m')) / m') (e - e' - (600 + (bitLen m' : Int)))
  | _, _ => Val.zero false

/-- 1.0 as a value. -/
def oneVal : Val := .fin false 1 0

/-- 1 ÷ (1 + e^-x). -/
def sigmoidOf (v : Val) : Val := quotVal oneVal (oneVal.add (expOf v.neg))

/-- φ(x) = e^(-x²/2) ÷ √(2π). -/
def phiDensity (v : Val) : Val :=
  let x := fxOfVal v
  let h := -(fxMul x x) / 2
  if h < -(4096 * fxOne) then Val.zero false
  else ((expVal h).mul (Val.ofInt fxSqrt2Pi (-(fxP : Int) - 1)))

/-- Φ(x), the normal distribution function. -/
def normalCdf (v : Val) : Val :=
  let x := fxOfVal v
  if x < -(16 * fxOne) then Val.zero false
  else if 16 * fxOne < x then oneVal
  else
    let s := fxErfSeries 900 3 (fxMul x x) x 0
    (Val.ofInt 1 (-1)).add ((fxVal s).mul (phiDensity v))

/-- The argument √(2/π)(x + 0.044715x³) of GELU_TANH, doubled. -/
def geluTanhArg (v : Val) : Val :=
  let x3 := (v.mul v).mul v
  let c := quotVal (Val.ofInt 44715 0) (Val.ofInt 1000000 0)
  trimVal (((v.add (trimVal (c.mul x3))).mul (Val.ofInt fxSqrt2Pi (-(fxP : Int)))).mul (Val.ofInt 2 0))

/-- e² + 2e for e = e^x, and that plus 2. -/
def mishParts (e : Val) : Val × Val :=
  let n := trimVal ((e.mul e).add (e.mul (Val.ofInt 2 0)))
  (n, n.add (Val.ofInt 2 0))

/-- The exact forward value of activation codes 3 to 11 at a finite x (R126), to far more bits than F32 holds. -/
def actExact (code : Nat) (alpha x : Val) : Val :=
  match code with
  | 3 => if x.isNeg || x.isZero then alpha.mul ((expOf x).sub oneVal) else x
  | 4 => sigmoidOf x
  | 5 =>
    let e := expOf (x.mul (Val.ofInt 2 0))
    quotVal (e.sub oneVal) (e.add oneVal)
  | 6 => expOf x
  | 7 =>
    if x.isNeg then fxVal (fxLog1p (fxTrunc (expOf x)))
    else x.add (fxVal (fxLog1p (fxTrunc (expOf x.neg))))
  | 8 => x.mul (normalCdf x)
  | 9 => x.mul (sigmoidOf (geluTanhArg x))
  | 10 => x.mul (sigmoidOf x)
  | 11 =>
    let p := mishParts (expOf x)
    x.mul (quotVal p.1 p.2)
  | _ => x

/-- The exact slope of activation codes 8 to 11 at a finite x (R127). -/
def slopeExact (code : Nat) (x : Val) : Val :=
  match code with
  | 8 => (normalCdf x).add (x.mul (phiDensity x))
  | 9 =>
    let s := sigmoidOf (geluTanhArg x)
    let d := trimVal (s.mul (oneVal.sub s))
    let c := quotVal (Val.ofInt 134145 0) (Val.ofInt 1000000 0)
    let u := trimVal ((oneVal.add (trimVal (c.mul (x.mul x)))).mul (Val.ofInt fxSqrt2Pi (-(fxP : Int))))
    s.add (trimVal (((x.mul (Val.ofInt 2 0)).mul d).mul u))
  | 10 =>
    let s := sigmoidOf x
    s.add (trimVal (x.mul (trimVal (s.mul (oneVal.sub s)))))
  | _ =>
    let e := expOf x
    let p := mishParts e
    let d2 := trimVal (p.2.mul p.2)
    (quotVal p.1 p.2).add (trimVal (x.mul (quotVal ((Val.ofInt 4 0).mul (trimVal (e.mul (e.add oneVal)))) d2)))

/-- One unit in the last place of F32 at a value. -/
def ulpF32 : Val → Val
  | .fin _ m e => if m = 0 then .fin false 1 (-149) else .fin false 1 (max (e + (bitLen m : Int) - 24) (-149))
  | _ => Val.zero false

/-- The candidate where it lies within `k` ulp of the exact value, else the F32 nearest the exact value. -/
def withinUlp (k : Nat) (exact : Val) (cand : F32) : F32 :=
  let c := f32Val cand
  if c.isFin && (c.sub exact).abs.le ((Val.ofInt k 0).mul (ulpF32 exact)) then cand else roundF32 exact

/-- `exp` of R113; at +0 it is exactly 1.0, since R114 gives a merge into (−inf, +0) the bits of no merge. -/
def expF32 (x : F32) : F32 :=
  if x = 0 then oneF32 else match f32Val x with
  | .nan => nanF32
  | .inf n => if n then 0 else infF32
  | v => withinUlp 1 (expOf v) (Config.expFree x)

/-- Signed zero and one in F32. -/
def negZeroF32 : F32 := 0x80000000#32

/-- The forward value of an activation at an infinite input (R126). -/
def actAtInf (code : Nat) (alpha : F32) (neg : Bool) : F32 :=
  match code, neg with
  | 1, true => 0
  | 3, true => fNeg alpha
  | 4, false => oneF32
  | 4, true => 0
  | 5, false => oneF32
  | 5, true => fNeg oneF32
  | 6, true => 0
  | 7, true => 0
  | 8, true => negZeroF32
  | 9, true => negZeroF32
  | 10, true => negZeroF32
  | 11, true => negZeroF32
  | _, false => infF32
  | _, true => ninfF32

/-- The forward value of activation `code` at `x` (R126, R127). ALPHA is used as it is, also when it is subnormal, and counts nothing, like every
F32 immediate and parameter (R61; DESIGN CHOICE, assumption 116). -/
def actF32 (code : Nat) (alpha x : F32) : F32 :=
  if code = 0 then x
  else match f32Val x with
    | .nan => nanF32
    | .inf n => actAtInf code alpha n
    | v =>
      let pos := !v.isNeg && !v.isZero
      if code = 1 then (if pos then x else 0)
      else if code = 2 then (if pos then x else fMul alpha x)
      else if code = 3 && pos then x
      else withinUlp 2 (actExact code (f32Val alpha) v) (Config.actFree code x alpha)

/-- The slope of activation codes 8 to 11 at `x` (R127). -/
def slopeF32 (code : Nat) (x : F32) : F32 :=
  match f32Val x with
  | .nan => nanF32
  | .inf n => if n then 0 else oneF32
  | v => withinUlp 2 (slopeExact code v) (Config.slopeFree code x)

/-- An F32 result that a rule does not state; where it is a NaN it is the one NaN that the module writes (R62; assumption 4). -/
def unstatedF32 (site : Nat) (args : List F32) : F32 :=
  if f32IsNan (Config.unstated site args) then nanF32 else Config.unstated site args

/-- `rsqrt` of R141; at zero and below it the spec states no result (assumption 4). -/
def rsqrtF32 (x : F32) : F32 :=
  match f32Val x with
  | .nan => nanF32
  | .inf false => 0
  | .inf true => unstatedF32 141 [x]
  | v =>
    if v.isZero || v.isNeg then unstatedF32 141 [x]
    else withinUlp 1 (oneVal.div v.sqrt) (Config.rsqrtFree x)

/-- b^t by repeated squaring from the top bit of `t`, cut at 600 bits. -/
def powSteps : Nat → Nat → Val → Val → Val
  | 0, _, _, acc => acc
  | k + 1, t, b, acc =>
    let sq := trimVal (acc.mul acc)
    powSteps k t b (if t.testBit k then trimVal (sq.mul b) else sq)

/-- The power `pw(b, t)` of R292. -/
def powF32 (b : F32) (t : Nat) : F32 :=
  match f32Val b with
  | .fin n m e => withinUlp 1 (powSteps (bitLen t) t (.fin n m e) oneVal) (Config.powFree b t)
  | _ => unstatedF32 292 [b, BitVec.ofNat 32 t]

end Sys2Proof.Machine
end

