-- ==== Sys2Proof/Machine/TileTypes.lean ====
section
/-! DEFINITION. Machine/TileTypes.lean: the records of a tile and of the numeric status that tiles and fields keep. -/

namespace Sys2Proof.Machine

/-- A first-fault locator (R172). -/
structure Ffl where
  w0 : Word := 0
  w1 : Word := 0
  w2 : Word := 0
  w3 : Word := 0
  w4 : Word := 0
  deriving DecidableEq, Repr

/-- What one tile or one field keeps of numeric health: the status word (R166, R167), the health tag that first set each
bit (R176), the locator, and the step counts: count `i` of tag `t` at key 32 t + i, with i = 0 INVALID, 1 INF, 2 SAT,
3 FLUSH and 4 + 3 (f - 1) + 0, 1, 2 for CONV, OVER, VANISH of format code f (R160, R162). `due` the bits of a
tile that are still to reach its field, with the tags of the elements that set them (R167). -/
structure Meter where
  status : Word := 0
  bitTag : SMap Nat := []
  ffl : Ffl := {}
  cnt : SMap Nat := []
  due : SMap Nat := []
  deriving DecidableEq, Repr

/-- The tag of a block that is not EMPTY (R68): its format code, whether it is diagonal, and for scaled I8 the
orientation its scales serve (true: row). -/
structure BlockTag where
  fmt : Nat
  diag : Bool
  sorient : Option Bool
  deriving DecidableEq, Repr

/-- A stationary or shadow block (R65, R68): element codes row-major, the scales of scaled I8 (F32 words) or of B4 and I4
(scale bytes). An entry the lists do not reach is +0. -/
structure Block where
  tag : Option BlockTag := none
  codes : List Nat := []
  scales : List Nat := []
  deriving DecidableEq, Repr

/-- One array of the matrix pair. -/
structure ArrayState where
  stat : Block := {}
  shadow : Block := {}
  deriving DecidableEq, Repr

/-- The accumulate modes of R109. -/
inductive AccMode where
  | sum
  | sumsq
  | moments
  deriving DecidableEq, Repr

/-- One accumulator row (R99, R105): arrival count, mode tag, main and wick words by column. -/
structure AccRow where
  count : Nat := 0
  mode : Option AccMode := none
  main : List F32 := []
  wick : List F32 := []
  deriving DecidableEq, Repr

/-- The record tags of R132. -/
inductive RecTag where
  | empty
  | smx
  | gatherLn
  | gatherRms
  | ln
  | rms
  deriving DecidableEq, Repr

/-- One side-memory record (R132). -/
structure SideRec where
  tag : RecTag := .empty
  s0 : F32 := 0
  s1 : F32 := 0
  s2 : F32 := 0
  s3 : F32 := 0
  deriving DecidableEq, Repr

/-- A descriptor in a tile queue: the command that queued it (its uid), whether its stream is an evaluation stream, its
sequence number once started (R184), whether its unit has acted, whether its PUT is held (R116), the step a mark WAIT
fixed (R202), the entries a FENCE waits for (R203) by uid, and its place in the order in which the tile starts descriptors (R180). -/
structure QEntry where
  uid : Nat
  cmd : Nat
  eval : Bool
  desc : Descriptor
  dseq : Nat := 0
  acted : Bool := false
  held : Bool := false
  waitStep : Option Nat := none
  fenceSet : Option (List Nat) := none
  fmts : List Nat := []
  startNo : Nat := 0
  deriving DecidableEq, Repr

/-- One tile queue (R180): the stream not yet fetched, the 64-entry ring, the started descriptors that have not retired,
the next sequence number, and the entries a replay queues again (R208, R422). -/
structure TileQueue where
  source : List QEntry := []
  ring : List QEntry := []
  started : List QEntry := []
  nextSeq : Nat := 0
  stepLog : List QEntry := []
  deriving DecidableEq, Repr

/-- A tile as the slot map reaches it by tile id (R11). `accs` holds accumulator row
(array 2048 + orientation 1024 + set 128 + row); `hist` holds bin b of slot h at 32 h + b (R148); `seedGens` holds lane states
that descriptors started before a seed load still use (R57); `starts` counts the descriptors that the tile has started (R180). -/
structure TileState where
  seedLo : Word := 1
  seedHi : Word := 0
  lanes : List (BitVec 64) := []
  seedGens : List (List Nat × List (BitVec 64)) := []
  arrA : ArrayState := {}
  arrB : ArrayState := {}
  accs : SMap AccRow := []
  side : SMap SideRec := []
  hist : SMap Nat := []
  meter : Meter := {}
  sems : SMap Nat := []
  semOvf : Bool := false
  queues : SMap TileQueue := []
  savedLanes : List (BitVec 64) := []
  savedSems : SMap Nat := []
  marks : Nat := 0
  ueWords : List Nat := []
  starts : Nat := 0
  deriving DecidableEq, Repr

/-- What a descriptor's execution needs beside its own fields: its issuer, the partition's profile EXACT, the step
position (0 when not placed, R172), its header, its sequence number and the format of each steering slot of the field. -/
structure DescCtx where
  tile : Nat
  queue : Nat
  exact : Bool
  step : Nat
  htag : Nat
  dseq : Nat
  slotFmt : List Nat
  deriving DecidableEq, Repr

end Sys2Proof.Machine
end

