-- ==== Sys2Proof/Machine/Flags.lean ====
section
/-! DEFINITION. Machine/Flags.lean: numeric counts, sticky bits and first-fault capture (chapter Numeric health). -/

namespace Sys2Proof.Machine

/-- The bits of TIL_NSTATUS and FLD_NSUMMARY (R166). -/
def bitInvalid : Nat := 0
/-- INF. -/
def bitInf : Nat := 1
/-- SAT. -/
def bitSat : Nat := 2
/-- FLUSH. -/
def bitFlush : Nat := 3
/-- LONGSUM. -/
def bitLongsum : Nat := 4
/-- HISTSAT. -/
def bitHistsat : Nat := 5
/-- CNTSAT. -/
def bitCntsat : Nat := 6
/-- MISMATCH. -/
def bitMismatch : Nat := 7
/-- FFL_VALID. -/
def bitFfl : Nat := 8

/-- Sets bit `i` of a word. -/
def setBitW (w : Word) (i : Nat) : Word := w ||| BitVec.ofNat 32 (2 ^ i)

/-- A write to W1C bits: every one written clears its bit (chapter Scope, access codes). -/
def w1c (old written mask : Word) : Word := old &&& ~~~(written &&& mask)

/-- Sets a sticky bit, with the tag of the element that set it (R166, R176). Every time its condition arises the bit is due to reach the
field, where it may have been cleared meanwhile, and a clear in the tile does not recall it (R166, R167; assumption 90). -/
def Meter.sticky (m : Meter) (bit tag : Nat) : Meter :=
  let m1 := if m.status.toNat.testBit bit then m else { m with status := setBitW m.status bit, bitTag := smapSet m.bitTag bit tag }
  if (smapFind m1.due bit).isSome then m1 else { m1 with due := smapSet m1.due bit tag }

/-- Adds `n` to a step count, which stops at 2^32 - 1; the count that would pass it sets CNTSAT (R160). -/
def Meter.add (m : Meter) (tag idx n : Nat) : Meter :=
  if n = 0 then m
  else
    let k := 32 * tag + idx
    let v := smapGet 0 m.cnt k + n
    let m1 := { m with cnt := smapSet m.cnt k (min v (2 ^ 32 - 1)) }
    if 2 ^ 32 - 1 < v then m1.sticky bitCntsat tag else m1

/-- Where an element arose, as FFL0, FFL1 and FFL4 name it (R172). -/
structure Locus where
  tile : Nat := 0
  array : Nat := 0
  orient : Nat := 0
  set : Nat := 0
  row : Nat := 0
  col : Nat := 0
  queue : Nat := 0
  kblk : Nat := 0
  source : Nat := 0
  tag : Nat := 0
  step : Nat := 0
  dseq : Nat := 0
  deriving DecidableEq, Repr

/-- The locator words of a capture with a cause code (R172, R173). -/
def Locus.words (l : Locus) (cause : Nat) : Ffl where
  w0 := BitVec.ofNat 32 (l.tile % 1024 + l.array * 2 ^ 10 + l.orient * 2 ^ 11 + l.set % 8 * 2 ^ 12 + l.row % 128 * 2 ^ 15
    + l.col % 128 * 2 ^ 22 + l.queue % 4 * 2 ^ 29)
  w1 := BitVec.ofNat 32 (l.kblk % 2 ^ 16 + cause * 2 ^ 16 + l.source * 2 ^ 20 + l.tag % 256 * 2 ^ 24)
  w2 := BitVec.ofNat 32 (l.step % 2 ^ 32)
  w3 := BitVec.ofNat 32 (l.step / 2 ^ 32 % 2 ^ 16)
  w4 := BitVec.ofNat 32 (l.dseq % 2 ^ 32)

/-- Captures the first fault while the locator is armed (R170). -/
def Meter.capture (m : Meter) (l : Locus) (cause : Nat) : Meter :=
  if m.status.toNat.testBit bitFfl then m
  else { m.sticky bitFfl l.tag with ffl := l.words cause }

/-- The class an arithmetic step gives a result element (R158), before any conversion. -/
inductive Cls where
  | none
  | invalid (cause : Nat)
  | inf
  | sat
  | flush
  deriving DecidableEq, Repr

/-- Counts one result element (R158): its class counts once, sets its bit, and INVALID is captured. -/
def Meter.element (m : Meter) (l : Locus) : Cls → Meter
  | .none => m
  | .invalid c => ((m.add l.tag 0 1).sticky bitInvalid l.tag).capture l c
  | .inf => (m.add l.tag 1 1).sticky bitInf l.tag
  | .sat => (m.add l.tag 2 1).sticky bitSat l.tag
  | .flush => (m.add l.tag 3 1).sticky bitFlush l.tag

/-- Counts `n` operand elements read as zero (R61). -/
def Meter.flushes (m : Meter) (tag n : Nat) : Meter :=
  if n = 0 then m else (m.add tag 3 n).sticky bitFlush tag

/-- The class of a conversion event; cause 4 (R173). -/
def Ev.cls (e : Ev) : Cls :=
  if e.invalid then .invalid 4 else if e.inf then .inf else if e.sat then .sat else if e.flush then .flush else .none

/-- The last step that met a condition gives the class (R158). -/
def Cls.thenConv (a : Cls) (e : Ev) : Cls :=
  match e.cls with
  | .none => a
  | c => c

/-- CONV, OVER and VANISH of one converted element (R162). -/
def Meter.conv (m : Meter) (tag fmt : Nat) (e : Ev) : Meter :=
  if fmt = 0 || 7 < fmt then m
  else
    let b := 4 + 3 * (fmt - 1)
    ((m.add tag b 1).add tag (b + 1) (b2n e.ovr)).add tag (b + 2) (b2n e.vanish)

/-- One result element with its arithmetic class and its conversion. -/
def Meter.result (m : Meter) (l : Locus) (fmt : Nat) (a : Cls) (e : Ev) : Meter :=
  (m.element l (a.thenConv e)).conv l.tag fmt e

/-- An event that marks a mismatch of R90, R112 or R137 (R166 bit 7). -/
def Meter.mismatch (m : Meter) (tag : Nat) : Meter := m.sticky bitMismatch tag

/-- Re-arming: writing 1 to FFL_VALID zeroes the locator words (R172); other bits written as 1 clear (R166). -/
def Meter.clearBits (m : Meter) (w : Word) : Meter :=
  let rearm := w.toNat.testBit bitFfl && m.status.toNat.testBit bitFfl
  { m with status := w1c m.status w 0x1FF, ffl := if rearm then {} else m.ffl,
           bitTag := m.bitTag.filter (fun p => !(w.toNat.testBit p.1)) }

/-- The step counts cleared (R161). -/
def Meter.zeroCounts (m : Meter) : Meter := { m with cnt := [] }

/-- The class of a result whose inputs are known: a NaN from inputs with no NaN is INVALID with the cause given, an
infinity from finite inputs is INF (R158). -/
def clsOf (cause : Nat) (ins : List Val) (r : Val) : Cls :=
  if r.isNan && !(ins.any Val.isNan) then .invalid cause
  else if r.isInf && ins.all Val.isFin then .inf
  else .none

/-- The class of an F32 result whose exact value is known: beside `clsOf`, a nonzero value that rounds to zero is FLUSH (R158). -/
def exactCls (cause : Nat) (ins : List F32) (exact : Val) (r : F32) : Cls :=
  if exact.isFin && !exact.isZero && (f32Val r).isZero then .flush else clsOf cause (ins.map f32Val) (f32Val r)

/-! ### F32 words with the cause of their first NaN -/

/-- An F32 word with the cause (R173) of the NaN that arose in forming it, 0 for none. -/
abbrev UV := F32 × Nat

/-- A given word. -/
def uv (x : F32) : UV := (x, 0)

/-- The result of an operation on inputs: a NaN from inputs that are none has cause `c`. -/
def uvOp (c : Nat) (ins : List UV) (r : F32) : UV :=
  match ins.find? (fun i => i.2 != 0) with
  | some i => (r, i.2)
  | none => (r, if f32IsNan r && !(ins.any (fun i => f32IsNan i.1)) then c else 0)

/-- Sum: a NaN that arises is infinity minus infinity. -/
def uAdd (a b : UV) : UV := uvOp 3 [a, b] (fAdd a.1 b.1)
/-- Difference. -/
def uSub (a b : UV) : UV := uvOp 3 [a, b] (fSub a.1 b.1)
/-- Product: a NaN that arises is zero times infinity. -/
def uMul (a b : UV) : UV := uvOp 1 [a, b] (fMul a.1 b.1)
/-- Quotient; a NaN has cause 8 (the table of R173 names no other for it). -/
def uDiv (a b : UV) : UV := uvOp 8 [a, b] (fDiv a.1 b.1)
/-- Square root. -/
def uSqrt (a : UV) : UV := uvOp 8 [a] (fSqrt a.1)

/-- The class of a written word whose inputs are known (R158). -/
def uvCls (ins : List F32) (r : UV) : Cls :=
  if f32IsNan r.1 && r.2 != 0 then .invalid r.2
  else if (f32Val r.1).isInf && ins.all f32IsFin then .inf
  else .none

/-- The class of a product as the last step of a result: its NaN by cause, a product of nonzero factors that rounds to zero FLUSH. -/
def uMulCls (ins : List F32) (a b : UV) : F32 × Cls :=
  let r := uMul a b
  let lost := f32IsFin a.1 && f32IsFin b.1 && !(f32Val a.1).isZero && !(f32Val b.1).isZero && (f32Val r.1).isZero
  (r.1, if lost then .flush else uvCls ins r)

/-- The balanced sum of 128 elements by position, with the cause of a NaN that arises in it. -/
def uTreeSum (l : List UV) : UV := treeFold uAdd (uv 0) 7 l

end Sys2Proof.Machine
end

