-- ==== Sys2Proof/Machine/FabricTypes.lean ====
section
/-! DEFINITION. Machine/FabricTypes.lean: the records of the fabric, the collective engine, the lantern ports and the outer loop, and what the module sends. -/

namespace Sys2Proof.Machine

/-- A fabric port (R309 to R313, R332): `state` 0 DOWN, 1 TRAIN, 2 UP, 3 REFUSED, 4 FENCED. `txSeq` the next LSEQ to send, `rxNext`
the next expected, `replay` the frames not yet acknowledged, `wait` frames without credits, `nakOut` a NAK sent for the present gap,
`tries` consecutive replays without ACK advance, `used` 64-byte credits in use by lane, `owed` credits to return by lane,
`turn` that VL2 is next in the round robin, `returning` a port that retrained to UP and has accepted no frame yet (R315). -/
structure FabPort where
  state : Nat := 0
  downSeen : Bool := false
  replaySeen : Bool := false
  fenceSeen : Bool := false
  refuseSeen : Bool := false
  lanesOk : Nat := 0
  peerModule : Nat := 0
  peerIsland : Nat := 0
  peerPort : Nat := 0
  crcerr : Nat := 0
  replays : Nat := 0
  txSeq : Nat := 0
  rxNext : Nat := 0
  replay : List FabFrame := []
  wait : List FabFrame := []
  nakOut : Bool := false
  tries : Nat := 0
  turn : Bool := false
  returning : Bool := false
  used : SMap Nat := []
  owed : SMap Nat := []
  deriving DecidableEq, Repr

/-- A flow packet at its source, with the retransmissions it has had (R317). -/
structure FlowPkt where
  frame : FabFrame
  tries : Nat := 0
  deriving DecidableEq, Repr

/-- A message between the engines of two modules (R249, R250, R258, R322, R326, R383, R409), as the packets of a flow carry it: the rules give the
data that moves and no layout of it, so that KIND, ARGS and the header are the model's (DESIGN CHOICE, assumption 134). `kind` 0 signature,
1 collective segment, 2 exchange contribution, 3 reduced shard, 4 working-copy shard, 5 outer master, 6 outer transfer. -/
structure FabMsg where
  kind : Nat
  args : List Nat
  data : List Byte
  deriving DecidableEq, Repr

/-- A flow context (R316, R317): the source side keeps unacknowledged packets, the destination side the packets that wait for a
gap to fill. `part` the partition that owns it, `uid` the bulk move or export that it serves, `reading` that it brings the data of a
bulk move's source here, `expect` bytes still, to `dst` (in the host tier when `toHost`, by the write flow `onto` when it leads to a third module); a flow with no `uid` was opened by its first packet.
`engine` the set of an engine's flow, whose contexts its registration holds (R316), and `body` the part of a message that has come on it. -/
structure Flow where
  part : Nat := 0
  peer : Nat := 0
  ctx : Nat := 0
  epoch : Nat := 0
  nextTx : Nat := 0
  unacked : List FlowPkt := []
  queued : List FlowPkt := []
  nextRx : Nat := 0
  early : SMap FabFrame := []
  sinceAck : Nat := 0
  uid : Option Nat := none
  reading : Bool := false
  toHost : Bool := false
  onto : Option Nat := none
  dst : Nat := 0
  expect : Nat := 0
  engine : Option Nat := none
  body : List Byte := []
  deriving DecidableEq, Repr

/-- A collective group (R321, R322, R425): `seqBegin` is the sequence number at the step's first STEP_BEGIN, `epoch`
the epoch of its flows (R329). -/
structure CGroup where
  members : List Nat
  part : Nat
  seq : Nat := 0
  seqBegin : Nat := 0
  epoch : Nat := 0
  deriving DecidableEq, Repr

/-- A collective in progress (R322 to R328): `uid` its command, `sigs` the ranks whose signature has come and whether each agreed,
`partials` the partial sum of each segment as F32 words (value, or count, mean and M2), `added` the ranks added into each segment, `cls` the
classes of each segment's elements so far, counted once when the segment leaves (R158), `inStep` that it was issued in a step of its training partition (R422), `done` the segments, or pieces by rank and number, whose result has been written here. -/
structure CollJob where
  uid : Nat
  op : Nat
  p : CollP
  seq : Nat
  exact : Bool
  inStep : Bool := false
  started : Bool := false
  sigs : List (Nat × Bool) := []
  partials : SMap (List F32) := []
  added : SMap (List Nat) := []
  cls : SMap (List Cls) := []
  done : List Nat := []
  deriving DecidableEq, Repr

/-- The settings of FABRIC_SET (R312). -/
structure FabSet where
  replayUs : Nat := 4
  replayLim : Nat := 8
  flowRtoUs : Nat := 40
  flowRetry : Nat := 6
  deriving DecidableEq, Repr

/-- The fabric of the module (R307 to R333). `lanes` bit n = 1 while adder lane n is not fenced; `epoch` is that of the training partition's
exchanges (R329), `inbox` the messages that flows have delivered, by source and set. -/
structure Fabric where
  ports : SMap FabPort := []
  flows : SMap Flow := []
  groups : SMap CGroup := []
  jobs : List CollJob := []
  earlySigs : List CollSig := []
  earlySegs : List CollSeg := []
  barriers : SMap (List Nat) := []
  epoch : Nat := 0
  inbox : List (Nat × Nat × FabMsg) := []
  set : FabSet := {}
  retxSeen : Bool := false
  failSeen : Bool := false
  staleSeen : Bool := false
  unreachSeen : Bool := false
  lanes : Nat := 0xFFFF
  retrySeen : Bool := false
  resfault : Bool := false
  retries : Nat := 0
  deriving DecidableEq, Repr

/-- A lantern packet at the sender (R372, R375). One that waits holds its payload; one in the send window holds the slot where its `len`
payload bytes stand in memory. `fast` that a fast retransmission has been made within the present RTO. -/
structure LntPkt where
  pseq : Nat
  man : Bool
  payload : List Byte := []
  slot : Nat := 0
  len : Nat := 0
  fast : Bool := false
  deriving DecidableEq, Repr

/-- A lantern packet that came early: the slot of the receive window where its `len` payload bytes stand (R372, R373). -/
structure LntHeld where
  man : Bool
  slot : Nat
  len : Nat
  deriving DecidableEq, Repr

/-- One flow of a lantern session (R373 to R375): `cum` the next PSEQ in order, `body` the payload bytes of the transfer being
delivered, `fresh` DATA packets since the last ACK, `waiting` packets that wait for window space. -/
structure LntFlow where
  nextTx : Nat := 0
  window : List LntPkt := []
  waiting : List LntPkt := []
  cum : Nat := 0
  early : SMap LntHeld := []
  body : List Byte := []
  fresh : Nat := 0
  deriving DecidableEq, Repr

/-- The settings of a lantern port (R387). -/
structure LntSet where
  wfield : Nat := 0
  wbase : Nat := 0
  losttouchMs : Nat := 2000
  shiftUs : Nat := 500
  shiftN : Nat := 3
  flows : Nat := 16
  deriving DecidableEq, Repr

/-- A lantern port (R364 to R379, R391): `state` 0 DOWN, 1 TRAIN, 2 LINK, 3 ATTEST, 4 UP, 5 DARK, 6 REFUSED. `var` VAR, `sampled` a first
sample has come, `shiftCount` and `shiftUp` the run of shifted samples, `echoes` outstanding T1, `own` the HELLO sent, `peer` the HELLO
received. `live` that a session which has been UP has not been discarded since (R379, R381), with `flowCount` flows; `linked` that all lanes are
locked and the data path is active (R364), `modState` and `faults` what the last poll of the optics read (R363). -/
structure LntPort where
  state : Nat := 0
  pathchg : Bool := false
  darkSeen : Bool := false
  refuseSeen : Bool := false
  staleSeen : Bool := false
  crc64Seen : Bool := false
  losSeen : Bool := false
  lanesOk : Nat := 0
  peerIsland : Nat := 0
  peerModule : Nat := 0
  peerPort : Nat := 0
  session : Nat := 0
  base : Nat := 0
  var : Nat := 0
  rto : Nat := 0
  sampled : Bool := false
  shiftCount : Nat := 0
  shiftUp : Bool := false
  retx : Nat := 0
  crcerr : Nat := 0
  linked : Bool := false
  modState : Nat := 0
  faults : Nat := 0
  present : Bool := false
  configured : Bool := false
  set : LntSet := {}
  pend : LntSet := {}
  live : Bool := false
  flowCount : Nat := 0
  echoes : List Nat := []
  own : Option HelloF := none
  peer : Option HelloF := none
  flows : SMap LntFlow := []
  deriving DecidableEq, Repr

/-- A transfer that lies in the send windows of this module's ports and whose manifest is not acknowledged (R383, R386): port, flow and
the PSEQ of its manifest. -/
structure SentXfer where
  x : Xfer
  port : Nat
  flow : Nat
  lastPseq : Nat
  deriving DecidableEq, Repr

/-- What a STATUS record tells (R405, R412): GROUP, RHO and LASTJ. -/
structure Standing where
  group : Nat
  rho : Nat
  lastj : Nat
  deriving DecidableEq, Repr

/-- A STATUS exchange at the keeper (R412): the partner, this island's own record, and the partner's once it has come. -/
structure Exchange where
  island : Nat
  own : Standing
  got : Option Standing := none
  deriving DecidableEq, Repr

/-- The island's outer loop (R380, R393, R396, R410 to R419). `state` 0 OFF, 1 JOINING, 2 LINKED, 3 ALONE, 4 HELD; `source` the member
island a fetch takes, `rhoSrc` its RHO, `join` that JOIN has not acted yet, `closing` whether the present step is a closing step, `closeIn` the state in which its close was reached (R410),
`gathered` that every reply to this module's fetches has landed and was reported, `install` the RHO with which the next OUTER_APPLY
installs, `regs` the modules that have outer groups, as the keeper knows them (R415), `refetch` that a fetch was cut, `asked` the STATUS exchanges under way, `dark` the bits of LNT_PARTNER, `returned` partners whose
return the keeper has not acted on, `gwUp` the sessions to partners that stand, as (island, module, port). -/
structure OuterIsland where
  fed : Option FedP := none
  state : Nat := 0
  holdSeen : Bool := false
  rejoinSeen : Bool := false
  missed : Nat := 0
  rho : Nat := 0
  lastj : Nat := none32
  cstep : Nat := 0
  closing : Bool := false
  closeIn : Option Nat := none
  source : Option Nat := none
  rhoSrc : Option Nat := none
  join : Bool := false
  gathered : Bool := false
  regs : List Nat := []
  install : Option Nat := none
  refetch : Bool := false
  asked : List Exchange := []
  dark : Nat := 0
  returned : List Nat := []
  gwUp : List (Nat × Nat × Nat) := []
  routes : List RouteE := []
  sent : List SentXfer := []
  deriving DecidableEq, Repr

/-- What the module sends out, in order: interrupt messages (R486, R487), values of register reads, sideband messages (R476), fabric
and flare frames by port, lantern frames by port, a transfer that the receiving gateway hands to its own module (R383), a cut or rejected transfer named to its source (R379, R386), data of a replica set for another member of this module, requests to the host tier (R475), step-line broadcasts of the keeper,
and power pins. -/
inductive OutMsg where
  | irq (vec : Nat)
  | regRead (view off : Nat) (value : Word)
  | readyFwd (step : Nat)
  | fabric (port : Nat) (f : FabFrame)
  | broadcast (f : FlareFrame)
  | lntHello (port : Nat) (h : HelloF)
  | lntAttest (port session : Nat) (report : List Byte)
  | lntData (port : Nat) (d : LntData)
  | lntAck (port session flow cum sack : Nat)
  | lntEcho (port t1 : Nat)
  | lntEchoReply (port t1 t2 t3 : Nat)
  | lntClose (port session : Nat)
  | lntReject (port session flow : Nat)
  | relay (module : Nat) (port : Option Nat) (x : Xfer)
  | cut (island module : Nat) (x : Xfer)
  | rejected (module : Nat) (x : Xfer)
  | shard (module field gid kind index : Nat) (data : List Byte)
  | scalarFwd (slot : Nat) (value : F32) (step mark : Nat)
  | hostRead (addr len : Nat)
  | hostWrite (addr : Nat) (data : List Byte)
  | islandRead (module addr len ctx : Nat)
  | heirAsk (module : Nat) (ranges : List (Nat × Nat))
  | i2cWrite (port bank page off : Nat) (data : List Byte)
  | dataPath (port : Nat) (init : Bool)
  | xferFailed (x : Xfer) (status : Nat)
  | formation (module : Nat)
  deriving DecidableEq, Repr

end Sys2Proof.Machine
end

