-- ==== Sys2Proof/Machine/FieldTypes.lean ====
section
/-! DEFINITION. Machine/FieldTypes.lean: the records of a field: slot map, steering, stack, parameter groups, update unit and activation entries. -/

namespace Sys2Proof.Machine

/-- A steering slot (R157), its rungs as R149 orders them; `reqs` the accepted STEER_PIN and STEER_UNPIN
requests that wait for a STEP_BEGIN at or after their point (R154): `some r` pins rung r, `none` unpins. `pendStep` is the first step that a decided
change is for (R152), and `queued` the rung and the first step of a change decided while one is pending. -/
structure SteerSlot where
  rung : Nat := 1
  minRung : Nat := 0
  maxRung : Nat := 2
  enable : Bool := false
  pinned : Bool := false
  pendRung : Nat := 0
  pending : Bool := false
  changed : Bool := false
  reqs : List (Nat × Option Nat) := []
  fresh : Bool := false
  pendStep : Nat := 0
  queued : Option (Nat × Nat) := none
  deriving DecidableEq, Repr

/-- Steering of a field (R150, R152, R156): window bins at key 32 slot + bin, `pendCtl` a STEER_CTL accepted for the next
STEP_BEGIN, `awaited` slots whose island-wide counts of a closed window have not returned. -/
structure Steering where
  window : Nat := 100
  active : Bool := false
  tLo : Nat := 256
  tHi : Nat := 16384
  pendCtl : Option SteerCtlP := none
  slots : SMap SteerSlot := []
  bins : SMap Nat := []
  awaited : List Nat := []
  deriving DecidableEq, Repr

/-- A DRAM channel (R225, R239). `run` the parameters of a generator run in progress. -/
structure Channel where
  ceSeen : Bool := false
  ueSeen : Bool := false
  capar : Bool := false
  ce : Nat := 0
  ue : Nat := 0
  ueAddr : Nat := 0
  run : Option TgP := none
  tgDone : Bool := false
  tgFail : Bool := false
  tgErrsat : Bool := false
  tgErrs : Nat := 0
  tgFail0 : Nat := 0
  tgFail1 : Nat := 0
  deriving DecidableEq, Repr

/-- One traffic class of a stack's regulator (R230). -/
structure ClassRate where
  rate : Nat
  borrow : Bool := true
  burst : Nat := 1024
  deriving DecidableEq, Repr

/-- The reset values of the five classes (R230). -/
def ratesReset : List ClassRate := [{ rate := 400 }, { rate := 200 }, { rate := 200 }, { rate := 100 }, { rate := 100 }]

/-- One channel group's sensor (R234): `missed` counts consecutive samples not delivered (R233). -/
structure Sensor where
  temp : Nat := 0
  valid : Bool := false
  missed : Nat := 0
  deriving DecidableEq, Repr

/-- A field's stack (R212 to R241): `good` is the interleave list fixed at boot; masks have bit c for channel c. -/
structure Stack where
  blobMap : Nat := 0
  trainMap : Nat := 0
  lost : Nat := 0
  good : List Nat := []
  chans : SMap Channel := []
  rates : List ClassRate := ratesReset
  opceil : Nat := 1000
  sill : Nat := 0
  warmSeen : Bool := false
  hotSeen : Bool := false
  critSeen : Bool := false
  sensorBad : Bool := false
  sensors : List Sensor := List.replicate 8 {}
  test : Bool := false
  testZero : Option Nat := none
  deriving DecidableEq, Repr

/-- A parked gradient of a HOST group (R279): its step and the clip factor and scalars kept with it. -/
structure Park where
  step : Nat
  factor : F32
  scal : List F32
  deriving DecidableEq, Repr

/-- A landing slot (R404 to R406); its bytes lie in the plane LD of its number. `up` tells an UP item from a DOWN aggregate, `late` one
that came after its field reached REDUCE_DONE in the step in progress. -/
structure Landing where
  up : Bool
  round : Nat
  base : Nat
  mask : Nat
  catchup : Bool
  late : Bool
  deriving DecidableEq, Repr

/-- An outstanding own round in slot D[k], Q[k] (R395, R398): its BASE and CATCHUP, and whether it has been sent. -/
structure OutRound where
  round : Nat
  catchup : Bool
  base : Nat
  sent : Bool
  deriving DecidableEq, Repr

/-- What the sweeps of a step leave for its COMMIT (R395, R400, R407, R413): `ran` the sweeps done (0 apply, 1 fold, 2 close), landing slots
to free and to fill, slots to free, to fill and to mark as sent, masks by round, the new BASE and LASTJ, transfers to send, the
rounds forwarded, counts for APPLIED, FOLDS and SKIPS, how many cut items went again, whether fetched state was installed, and the ranks
whose masters are known to be on their way and those that have come (R409). -/
structure OuterPend where
  ran : List Nat := []
  freeLand : List Nat := []
  fillLand : SMap Landing := []
  freeSlot : List Nat := []
  fillSlot : SMap OutRound := []
  sentSlots : List Nat := []
  masks : List (Nat × Nat) := []
  base : Option Nat := none
  lastj : Option Nat := none
  sends : List Xfer := []
  rounds : List Nat := []
  applied : Nat := 0
  folds : Nat := 0
  skips : Nat := 0
  again : Nat := 0
  installed : Bool := false
  owed : List Nat := []
  come : List Nat := []
  deriving DecidableEq, Repr

/-- The outer registration of a group (R394, R418). `masks` is the applied mask by round, `heard` the members that
have delivered an UP item, by round (R402), `waiting` transfers that wait for a landing slot (R406), `catchup` that the next contribution carries
CATCHUP (R411), `again` items whose UP transfer was cut (R417), `reqs` fetch requests not yet answered (R400, R413), `fetched` the
fetched tb and mo, `early` masters that wait for the group's own sweep (R409), `removing` the command of a removal. -/
structure OuterGroup where
  p : OuterP
  slots : SMap OutRound := []
  landing : SMap Landing := []
  dupSeen : Bool := false
  staleSeen : Bool := false
  foldSeen : Bool := false
  nonfin : Bool := false
  base : Nat := none32
  folds : Nat := 0
  skips : Nat := 0
  applied : Nat := 0
  lastj : Nat := none32
  masks : SMap Nat := []
  pend : OuterPend := {}
  heard : SMap Nat := []
  waiting : List Xfer := []
  catchup : Bool := false
  again : List Xfer := []
  reqs : List Xfer := []
  fetched : Option (List Byte) := none
  early : SMap (List Byte) := []
  removing : Option Nat := none
  deriving DecidableEq, Repr

/-- A parameter group of a field (R242, R263, R284, R304). `pendAcq`, `pendRel` are the step's pending changes by slot (R257);
`sweep` counts the sweeps of the group's rule that are done in the step; `landed` the shards whose reduced gradient has
landed; `got` the ranks whose shard of the version being published is in the slot; `active` that it takes part in the step in
progress; `borrow` 1 while its matrix stream holds the tiles, 2 once that stream is behind it, 3 while the stream of a committed step still stands; `behind` that a version which a COMMIT
computed awaits its emission behind version 0 (R255, R258); `waiting` shards of other ranks that flow control holds, by rank, each with its version first (R262); `wbq` the writes to HADDR that
have not been acknowledged, oldest first: 0 of the attempt in progress, 1 of a committed step, 2 of an aborted attempt, 3 a failed one of a
committed step that the replay issues again (R276, R279 to R282); `fetchBank` the bank that a fetch in flight reads, `both` that the landing
area holds the planes of the other bank as well (R278), `contribs` the contributions to the own shard that have come, in the order of their
arrival, as step, rank and blocks (R249), `wrote` that a sweep of the attempt, or of the one aborted before it, has written the other
bank (R433). -/
structure Group where
  p : GroupP
  bank : Nat
  version : Nat := 0
  published : Bool := false
  use0 : Nat := 0
  use1 : Nat := 0
  pendAcq : Nat × Nat := (0, 0)
  pendRel : Nat × Nat := (0, 0)
  stalls : Nat := 0
  ucount : Nat := 0
  pendingVer : Bool := false
  emitting : Bool := false
  transomWait : Bool := false
  latePut : Bool := false
  pubOnly : Option Nat := none
  exchanged : Bool := false
  landed : List Nat := []
  sweep : Nat := 0
  updated : Bool := false
  skipped : Bool := false
  borrow : Nat := 0
  got : List Nat := []
  removing : Option Nat := none
  active : Bool := true
  resident : Bool := false
  both : Bool := false
  fetching : Bool := false
  fetchBank : Nat := 0
  tierWait : Bool := false
  htErr : Bool := false
  tstall : Nat := 0
  waitUs : Nat := 0
  parks : List Park := []
  wbq : List Nat := []
  wrote : Bool := false
  waiting : SMap (List Byte) := []
  contribs : List (Nat × Nat × List Byte) := []
  behind : Bool := false
  factor : F32 := 0x3F800000
  outer : Option OuterGroup := none
  deriving DecidableEq, Repr

/-- Whether a write-back of the attempt in progress has not been acknowledged (R279). -/
def Group.writeback (g : Group) : Bool := g.wbq.contains 0

/-- Whether a write to HADDR of an aborted attempt has not been acknowledged (R282). -/
def Group.wbLate (g : Group) : Bool := g.wbq.contains 2

/-- Whether the field's tiles are borrowed by the group's stream (R295, R305). -/
def Group.borrows (g : Group) : Bool := g.borrow == 1 || g.borrow == 3

/-- A field: slot map (R17: `fenced` has bit p for physical slot p), numeric health, steering, stack, groups and update unit.
`counts` holds committed 64-bit counts at the keys of `Meter.cnt` (R161). `frozen` keeps the tile registers of fenced
physical slots (R529); `awaits` the contributor index that each reduction-buffer word awaits (R116),
`placed` the indices that PUTs of no rows have taken ahead of their turn, by word (R204), `caps` the captures of its
tiles' locators that have not reached the field's, in the order in which they occurred: tile, tag, locator (R171), `normSum` the S_f that it has
formed (R299). -/
structure Field where
  spareFor : Nat := 0
  spareUsed : Bool := false
  factory : Bool := false
  fenced : Nat := 0
  gone : Bool := false
  capRaised : Bool := false
  restarts : Nat := 0
  fcFenced : Bool := false
  restarting : Bool := false
  tsUe : Bool := false
  testFailed : Nat := 0
  meter : Meter := {}
  counts : SMap Nat := []
  classEn : Nat := 0x81
  steerEn : Bool := false
  steer : Steering := {}
  stack : Stack := {}
  groups : SMap Group := []
  sweeping : Option (Nat × Nat) := none
  normWait : Bool := false
  normSum : F32 := 0
  normDone : Bool := false
  refresh : Bool := false
  nfskip : Bool := false
  norm : F32 := 0
  clipf : F32 := 0x3F800000
  skips : Nat := 0
  scal : List F32 := List.replicate 8 0x3F800000
  awaits : SMap Nat := []
  placed : List (Nat × Nat) := []
  caps : List (Nat × Nat × Ffl) := []
  frozen : SMap TileState := []
  refill : List (Nat × Nat) := []
  deriving DecidableEq, Repr

/-- How far an OFFLOAD entry has come in one field in the step in progress (R271, R272); `offLate` and `pfLate` writes and reads of an
aborted attempt that have not been acknowledged or landed (R275), `offFail` and `pfFail` that the HX-2 has reported the transfer failed
(R276). -/
structure ActProg where
  started : Bool := false
  read : Bool := false
  off : Bool := false
  pfRun : Bool := false
  pfDone : Bool := false
  offLate : Bool := false
  pfLate : Bool := false
  offFail : Bool := false
  pfFail : Bool := false
  deriving DecidableEq, Repr

/-- A registered activation entry (R268). `begun` from the first STEP_BEGIN after registration, `first` until the COMMIT of that step;
`prog` by field. -/
structure ActEntry where
  p : ActP
  begun : Bool := false
  first : Bool := true
  removing : Bool := false
  prog : SMap ActProg := []
  deriving DecidableEq, Repr

end Sys2Proof.Machine
end

