-- ==== Sys2Proof/Machine/HostTypes.lean ====
section
/-! DEFINITION. Machine/HostTypes.lean: the records of the host link, the commands in hand, partitions, power and boot, the
check-value units, the step line and the flare path. -/

namespace Sys2Proof.Machine

/-- A command queue (R477, R478, R482, R494). `view` is 0 to 15 a partition, 16 privileged, 17 unbound (R449); `stopped` is set by a
failed access until the ring is set up again (R488).-/
structure CmdQueue where
  base : Nat := 0
  log : Nat := 0
  cq : Nat := 0
  head : Nat := 0
  tail : Nat := 0
  enabled : Bool := false
  dbErr : Bool := false
  seqErr : Bool := false
  ringErr : Bool := false
  stopped : Bool := false
  seq : Nat := 0
  view : Nat := 17
  deriving DecidableEq, Repr

/-- A completion ring (R477, R485, R486, R530): `post` the next entry to write, `used` the posted entries the host has not
consumed. -/
structure CRing where
  base : Nat := 0
  log : Nat := 0
  vec : Nat := 0
  post : Nat := 0
  head : Nat := 0
  used : Nat := 0
  phase : Bool := true
  enabled : Bool := false
  ringErr : Bool := false
  stopped : Bool := false
  dbErr : Bool := false
  deriving DecidableEq, Repr

/-- An event ring (R487, R488, R530): `fresh` counts the events dropped since the last OVERFLOW record. -/
structure ERing where
  base : Nat := 0
  log : Nat := 0
  vec : Nat := 0
  idx : Nat := 0
  head : Nat := 0
  used : Nat := 0
  phase : Bool := true
  enabled : Bool := false
  ringErr : Bool := false
  stopped : Bool := false
  dropSeen : Bool := false
  dropped : Nat := 0
  fresh : Nat := 0
  deriving DecidableEq, Repr

/-- How far a submitted command has come: it waits to start (R350, R421), runs, or has completed and awaits its posting. -/
inductive CmdPhase where
  | waiting
  | running
  | done
  deriving DecidableEq, Repr

/-- A submitted command (R480 to R486). `point` is the (step, mark) it waits for; `replayed` is set when an abort finds it
repeated (R423); `posted` keeps a repeated command whose completion was already posted (R424); `left` counts the parts of its
work still outside the module; `order` is its place among the collectives of its group (R322); `carried` marks a tile program that was
queued before the step in progress, whose transom changes are not made again in a replay; `rework` that its work is repeated although its completion
is ready (R424, R441); `drained` that it stood at its partition's drain point, so that only ZEROISE completes it (R460); `slot` that it holds an entry of
its completion ring (R485); `writes` the bytes that it has sent to the host tier and whose landing has not been acknowledged (R484). -/
structure OutCmd where
  uid : Nat
  hdr : Hdr
  body : Body
  part : Nat
  point : Option (Nat × Nat) := none
  phase : CmdPhase := .waiting
  status : Nat := 0
  detail : Nat := 0
  r0 : Nat := 0
  r1 : Nat := 0
  r2 : Nat := 0
  r3 : Nat := 0
  sqhead : Nat := 0
  replayed : Bool := false
  posted : Bool := false
  left : Nat := 0
  order : Nat := 0
  profile : Nat := 0
  inStep : Bool := false
  deferred : Bool := false
  carried : Bool := false
  rework : Bool := false
  drained : Bool := false
  slot : Bool := false
  writes : List (Nat × List Byte) := []
  deriving DecidableEq, Repr

/-- The classes of Reilo traffic (R474); a bulk move names the partition and the field that it serves, and those of a shutter's export are their
own. -/
inductive ReiloClass where
  | sideband
  | register
  | ring
  | shutter
  | bulk (part field : Nat)
  deriving DecidableEq, Repr

/-- What the module sends over Reilo: bytes for host memory, a message, or both. -/
structure Posting where
  cls : ReiloClass
  data : Option (Nat × List Byte) := none
  msg : Option OutMsg := none
  deriving DecidableEq, Repr

/-- The host link and its rings (R471 to R496, R530), the commands in hand in submission order, and the postings that a link which is not UP
holds (R473). -/
structure HostLink where
  state : Nat := 0
  lanesOk : Nat := 0
  downSeen : Bool := false
  xfailSeen : Bool := false
  q0Base : Nat := 0
  c0Base : Nat := 0
  qlog : Nat := 10
  clog : Nat := 8
  queues : SMap CmdQueue := [(0, { view := 16 })]
  crings : SMap CRing := []
  erings : SMap ERing := []
  cmds : List OutCmd := []
  nextUid : Nat := 0
  held : List Posting := []
  deriving DecidableEq, Repr

/-- A partition slot (R444, R470): `state` 0 FREE, 1 ACTIVE, 2 STOPPED, 3 SHUTTER; `cause` is the status a STOPPED partition
gives its commands (R437). -/
structure Partition where
  fx0 : Nat := 0
  fy0 : Nat := 0
  w : Nat := 0
  h : Nat := 0
  state : Nat := 0
  profile : Nat := 0
  train : Bool := false
  fports : Nat := 0
  lports : Nat := 0
  phase : Nat := 0
  cutSeen : Bool := false
  pendProfile : Option Nat := none
  cause : Nat := 0
  deriving DecidableEq, Repr

/-- A shutter in progress (R452 to R466): `uid` its command, `del` a partition delete, `commit` that a COMMIT has come since CHECK
(R456), `sizes` the bytes of each entry and how many of them a LOST channel held, `finished`, `bytes` and `ffBytes` what R463 reports, `cut` that R465 cut the export, `fail` a transfer that failed (R469, R475). -/
structure ShutterJob where
  uid : Nat
  p : ShutterP
  del : Bool
  commit : Bool := false
  sizes : List (Nat × Nat) := []
  finished : Nat := 0
  bytes : Nat := 0
  ffBytes : Nat := 0
  cut : Bool := false
  fail : Bool := false
  deriving DecidableEq, Repr

/-- An open heir window (R454). -/
structure HeirWindow where
  srcmod : Nat
  base : Nat
  bytes : Nat
  deriving DecidableEq, Repr

/-- Rails, pins and power state (R533 to R540, R552). `state` 0 booting, 1 RUN, 2 PARK, 3 RETAIN; `req` a requested state with
its command; `on` is false in OFF; `vin` and `pin` hold the last sample of the input (assumption 36). -/
structure Power where
  on : Bool := true
  state : Nat := 0
  phase : Nat := 0
  penCtl : Bool := true
  penDram : Bool := true
  penCore : Bool := true
  pgCtl : Bool := true
  pgDram : Bool := true
  pgCore : Bool := true
  railoffOk : Bool := false
  pwrflt : Bool := false
  thermtrip : Bool := false
  vin : Nat := 0
  pin : Nat := 0
  railsHx2 : Nat := 0
  reqHx2 : Nat := 0
  req : Option (Nat × Nat) := none
  deriving DecidableEq, Repr

/-- What fuses hold (R540, R542, R544, R548): factory map-outs as masks of physical slots and of channels by field. -/
structure Fuses where
  serial : Nat := 1
  stepping : Nat := 0
  build : Nat := 0
  minSvn : Nat := 0
  rootHash : List Byte := []
  ownerHash : List Byte := []
  secret : Nat := 0
  tileOut : SMap Nat := []
  chanOut : SMap Nat := []
  deriving DecidableEq, Repr

/-- The security block (R541 to R551): `pushed` an image under check; `entries` the stored log entries, `chain` the chain
value C. -/
structure Security where
  addrLo : Word := 0
  addrHi : Word := 0
  len : Word := 0
  fail : Nat := 0
  waiting : Bool := false
  attempts : Nat := 0
  imageSvn : Nat := 0
  count : Nat := 0
  full : Bool := false
  chain : List Byte := []
  entries : List (List Byte) := []
  fwDigest : List Byte := []
  ownerDigest : List Byte := []
  signed : Nat := 0
  deriving DecidableEq, Repr

/-- A member of the island map: module id and coordinates (R544). -/
structure MapMember where
  id : Nat
  x : Nat
  y : Nat
  z : Nat
  deriving DecidableEq, Repr

/-- What an accepted configuration blob gives (R544). -/
structure Blob where
  fedTag : Nat := 0
  mapouts : SMap Nat := []
  mapBytes : List Byte := []
  dimX : Nat := 0
  dimY : Nat := 0
  dimZ : Nat := 0
  wrap : Nat := 0
  exp6 : Nat := 0
  exp7 : Nat := 0
  keeper : Nat := 0
  mode : Nat := 0
  members : List MapMember := []
  trust : List (List Byte) := []
  meas : List (List Byte) := []
  deriving DecidableEq, Repr

/-- MOD_PLACE and the island as formed (R22, R25). -/
structure Place where
  moduleId : Nat := 0
  islandId : Nat := 0
  placed : Bool := false
  size : Nat := 0
  diam : Nat := 0
  depth : Nat := 0
  deriving DecidableEq, Repr

/-- A check-value unit (R555 to R560): `feeding` the bytes of the data write in progress, `held` the writes that wait behind it
(register offset and value), `stalled` the result reads that wait, by view and whether RESULT_HI was read. -/
structure ChkUnit where
  width : Nat := 32
  refin : Bool := true
  refout : Bool := true
  poly : Nat := 0x04C11DB7
  init : Nat := 0xFFFFFFFF
  xorout : Nat := 0xFFFFFFFF
  reg : Nat := 0xFFFFFFFF
  badcfg : Bool := false
  resultHi : Word := 0
  feeding : List Byte := []
  held : List (Nat × Word) := []
  stalled : List (Nat × Bool) := []
  deriving DecidableEq, Repr

/-- One entry of a mark table (R337, R360). -/
structure MarkEntry where
  phase : Nat := 0
  dfn : Bool := false
  island : Bool := false
  tmask : Nat := 0
  deriving DecidableEq, Repr

/-- A flare round in flight (R345, R347): its key, this module's own payload when it has contributed, the children's payloads
by port, whether it was sent on. -/
structure FlareRound where
  op : Nat
  key : Nat
  index : Nat
  step : Nat
  attempt : Nat
  own : Option (List Byte) := none
  kids : SMap (List Byte) := []
  sent : Bool := false
  deriving DecidableEq, Repr

/-- The step line and the beacon (R335 to R361). `table` and `pendTable` hold marks 0 to 31, `lateTable` and `lateKeeper` what was accepted
after this module's READY (R358); `reached` the marks this module
reached in the attempt, `fieldReached` those of each field; `decided` the keeper's COMMIT decision (R357); `durs` the last 64
step durations in CCLK, oldest first; `scalNext` delivered step scalars with the first step they are for (R291); `begun` whether STEP_BEGIN of `step` was delivered; `hold` the keeper withholds
STEP_BEGIN; `startReq` the step a start named, `advance` the step of a completed READY round whose STEP_BEGIN waits for the HX-2 or for a start;
`abandoned` the step whose attempt a start of the same step continues (R344); `ready` and `doneSent` that this module has contributed, the first for `readyStep`;
`fences` the fenced (module, port) pairs, `floods` the last ABORT floods seen, as (step, attempt), newest first (R346); `missed` that the
recovery is of a step whose STEP_BEGIN had not come here (R356); `waits` contributions to flare rounds that wait for one of the 16 places, each with
the port it came by, or none for this module's own (R345); `opened` that the keeper has broadcast a STEP_BEGIN which has not been delivered
here (R344). -/
structure Beacon where
  step : Nat := 0
  phase : Nat := 0
  attempt : Nat := 0
  running : Bool := false
  recovering : Bool := false
  overdue : Bool := false
  abortSeen : Bool := false
  ext : Bool := false
  keeperId : Nat := 0
  pendKeeper : Option (Nat × Nat) := none
  lateKeeper : Option (Nat × Nat) := none
  table : SMap MarkEntry := []
  pendTable : Option (SMap MarkEntry) := none
  lateTable : Option (SMap MarkEntry) := none
  reached : Nat := 0
  fieldReached : SMap Nat := []
  topMark : Nat := 0
  mult : Nat := 10
  initMs : Nat := 10000
  limit : Nat := 4
  pendWdog : Option WatchdogP := none
  durs : List Nat := []
  sinceStart : Bool := false
  overduePosted : Bool := false
  aborts : Nat := 0
  decided : Bool := false
  begun : Bool := false
  hold : Bool := true
  startReq : Option Nat := none
  stopReq : Bool := false
  advance : Option Nat := none
  opened : Bool := false
  abandoned : Option Nat := none
  ready : Bool := false
  readyStep : Nat := 0
  doneSent : Bool := false
  scalNext : List (Nat × F32 × Nat) := []
  posHi : Word := 0
  siteValid : Bool := false
  siteTime : Nat := 0
  edgeCclk : Nat := 0
  prevEdge : Option Nat := none
  edgeSeen : Bool := false
  beginSite : Nat := 0
  rounds : List FlareRound := []
  roundCount : Nat := 0
  reissueSeen : Bool := false
  staleSeen : Bool := false
  fences : List (Nat × Nat) := []
  floods : List (Nat × Nat) := []
  missed : Bool := false
  waits : List (Option Nat × FlareFrame) := []
  deriving DecidableEq, Repr

/-- The module's recovery status (R442, R443) and violation registers (R526). -/
structure ModRegs where
  fault : Word := 0
  faultField : Nat := 0
  aborts : Nat := 0
  violCount : Nat := 0
  violLast : Word := 0
  deriving DecidableEq, Repr

end Sys2Proof.Machine
end

