-- ==== Sys2Proof/Machine/State.lean ====
section
/-! DEFINITION. Machine/State.lean: the state of the module as plain data, the two kinds of stop, and the state after reset. -/

namespace Sys2Proof.Machine

/-- The reasons for which the model's machine stops: none. Every command of the spec has an effect in every state, if only that nothing
changes, so there is no constructor to raise. -/
inductive Fault where
  deriving DecidableEq, Repr

/-- What the model declines. -/
inductive Refusal where
  /-- A row of the opcode table that has no meaning in the model. Safe: nothing is claimed of it. Raised by the arms of `exec` that
  name it, and by no meaning. -/
  | notModelled (mnemonic : String)
  deriving DecidableEq, Repr

/-- The whole state of one module.

* `mem` module memory at 48-bit module addresses (R18): stacks, tile stores by tile id, reduction buffers.
* `hostMem` the bytes that the module has written to the host tier (R266).
* `tiles` by tile id, `fields` by field number; an entry that is not listed is at its reset value.
* `acts` activation entries by 1024 partition + AID (R268).
* `outbox` everything the module has sent, oldest first.
* `fresh` the model's own counter behind free values (assumptions 6, 35, 36, 107, 121); no register of the module.
* `pending` the commands that wait, first in first out. -/
structure State where
  mem : Memory := []
  hostMem : Memory := []
  host : HostLink := {}
  parts : SMap Partition := []
  shutters : SMap ShutterJob := []
  heirs : SMap HeirWindow := []
  tiles : SMap TileState := []
  fields : SMap Field := []
  acts : SMap ActEntry := []
  fab : Fabric := {}
  lnt : SMap LntPort := []
  outer : OuterIsland := {}
  bcn : Beacon := {}
  mods : ModRegs := {}
  power : Power := {}
  fuses : Fuses := {}
  sec : Security := {}
  blob : Blob := {}
  place : Place := {}
  chk : SMap ChkUnit := []
  outbox : List OutMsg := []
  fresh : Nat := 0
  pending : List Instr := []
  deriving DecidableEq, Repr

/-- The module right after reset: every register at the reset value its table gives, the boot ROM at its first phase (R540), the
rails good (R534), nothing listed in memory, no command waiting. -/
def State.reset : State := {}

end Sys2Proof.Machine
end

