-- ==== Sys2Proof/Machine/Ops.lean ====
section
/-! DEFINITION. Machine/Ops.lean: the named operations over the state: parts of the module, partitions, addresses, the step line's position, events and completions. -/

namespace Sys2Proof.Machine

/-! ### Status codes (R489) -/

/-- DONE. -/
def stDone : Nat := 0x0000
/-- DONE_REPLAYED. -/
def stReplayed : Nat := 0x0001
/-- BAD_OPCODE. -/
def stOpcode : Nat := 0x0100
/-- BAD_LENGTH. -/
def stLength : Nat := 0x0101
/-- BAD_VALUE. -/
def stValue : Nat := 0x0102
/-- ZERO_NOT_ALLOWED. -/
def stZero : Nat := 0x0103
/-- BAD_FORMAT. -/
def stFormat : Nat := 0x0104
/-- BAD_ALIGN. -/
def stAlign : Nat := 0x0105
/-- BAD_TARGET. -/
def stTarget : Nat := 0x0106
/-- WRONG_STATE. -/
def stState : Nat := 0x0107
/-- ALREADY. -/
def stAlready : Nat := 0x0108
/-- NO_CONTEXT. -/
def stContext : Nat := 0x0109
/-- ABORTED_STEP. -/
def stAbStep : Nat := 0x0200
/-- ABORTED_SHUTTER. -/
def stAbShutter : Nat := 0x0201
/-- EXPORT_CUT. -/
def stCut : Nat := 0x0202
/-- HW_FAULT. -/
def stHw : Nat := 0x0300
/-- CAPACITY_LOST. -/
def stCapacity : Nat := 0x0301
/-- CHANNEL_LOST. -/
def stChannel : Nat := 0x0302
/-- PARTNER_DARK. -/
def stDark : Nat := 0x0400

/-! ### Parts of the state -/

/-- The tile that a tile id reaches (R11). -/
def State.tile (s : State) (t : Nat) : TileState := smapGet {} s.tiles t

/-- Replaces a tile. -/
def State.setTile (s : State) (t : Nat) (x : TileState) : State := { s with tiles := smapSet s.tiles t x }

/-- Changes a tile. -/
def State.modTile (s : State) (t : Nat) (f : TileState → TileState) : State := s.setTile t (f (s.tile t))

/-- A field. -/
def State.fld (s : State) (f : Nat) : Field := smapGet {} s.fields f

/-- Changes a field. -/
def State.modFld (s : State) (f : Nat) (g : Field → Field) : State := { s with fields := smapSet s.fields f (g (s.fld f)) }

/-- A partition slot. -/
def State.part (s : State) (p : Nat) : Partition := smapGet {} s.parts p

/-- Changes a partition slot. -/
def State.modPart (s : State) (p : Nat) (g : Partition → Partition) : State := { s with parts := smapSet s.parts p (g (s.part p)) }

/-- A fabric port. -/
def State.port (s : State) (p : Nat) : FabPort := smapGet {} s.fab.ports p

/-- Changes a fabric port. -/
def State.modPort (s : State) (p : Nat) (g : FabPort → FabPort) : State :=
  { s with fab := { s.fab with ports := smapSet s.fab.ports p (g (s.port p)) } }

/-- A lantern port. -/
def State.lport (s : State) (p : Nat) : LntPort := smapGet {} s.lnt p

/-- Changes a lantern port. -/
def State.modLport (s : State) (p : Nat) (g : LntPort → LntPort) : State := { s with lnt := smapSet s.lnt p (g (s.lport p)) }

/-- A group of a field, if registered (R242). -/
def State.group (s : State) (f g : Nat) : Option Group := smapFind (s.fld f).groups g

/-- Changes a registered group. -/
def State.modGroup (s : State) (f g : Nat) (h : Group → Group) : State :=
  match s.group f g with
  | some x => s.modFld f (fun d => { d with groups := smapSet d.groups g (h x) })
  | none => s

/-- A check-value unit. -/
def State.chkUnit (s : State) (u : Nat) : ChkUnit := smapGet {} s.chk u

/-- A command queue. -/
def State.cmdQueue (s : State) (q : Nat) : CmdQueue := smapGet {} s.host.queues q

/-- Changes the host link. -/
def State.modHost (s : State) (g : HostLink → HostLink) : State := { s with host := g s.host }

/-- Changes a command queue. -/
def State.modQueue (s : State) (q : Nat) (g : CmdQueue → CmdQueue) : State :=
  s.modHost (fun h => { h with queues := smapModify {} h.queues q g })

/-- Changes a completion ring. -/
def State.modCring (s : State) (c : Nat) (g : CRing → CRing) : State :=
  s.modHost (fun h => { h with crings := smapModify {} h.crings c g })

/-- Changes an event ring. -/
def State.modEring (s : State) (e : Nat) (g : ERing → ERing) : State :=
  s.modHost (fun h => { h with erings := smapModify {} h.erings e g })

/-- Changes the beacon. -/
def State.modBcn (s : State) (g : Beacon → Beacon) : State := { s with bcn := g s.bcn }

/-- Changes the island's outer loop. -/
def State.modOuter (s : State) (g : OuterIsland → OuterIsland) : State := { s with outer := g s.outer }

/-- Sends a message. -/
def State.emit (s : State) (m : OutMsg) : State := { s with outbox := s.outbox ++ [m] }

/-- Sends a list of messages. -/
def State.emits (s : State) (ms : List OutMsg) : State := { s with outbox := s.outbox ++ ms }

/-- Applies a change for each number of a list, in order. -/
def State.forAll {α : Type} (s : State) (xs : List α) (g : State → α → State) : State := xs.foldl g s

/-! ### Reilo (R473, R474) -/

/-- A posting goes out: its bytes reach host memory and its message is sent. -/
def State.handOver (s : State) (x : Posting) : State :=
  { s with hostMem := (match x.data with | some d => memWriteBytes s.hostMem d.1 d.2 | none => s.hostMem), outbox := s.outbox ++ x.msg.toList }

/-- Posts over Reilo: at once while the link is UP; a link that is not UP holds it until it returns (R473). -/
def State.post (s : State) (x : Posting) : State :=
  if s.host.state = 2 then s.handOver x else s.modHost (fun h => { h with held := h.held ++ [x] })

/-- Posts a message. -/
def State.tell (s : State) (cls : ReiloClass) (m : OutMsg) : State := s.post { cls := cls, msg := some m }

/-- Posts bytes for host memory. -/
def State.store (s : State) (cls : ReiloClass) (a : Nat) (bytes : List Byte) : State := s.post { cls := cls, data := some (a, bytes) }

/-! ### Partitions (R444, R445) -/

/-- Whether field `f` lies in a rectangle of fields; a slot in state FREE holds none. -/
def Partition.holds (p : Partition) (f : Nat) : Bool :=
  p.state != 0 && p.fx0 ≤ f % 8 && f % 8 < p.fx0 + p.w && p.fy0 ≤ f / 8 && f / 8 < p.fy0 + p.h

/-- The fields of a partition in ascending number. -/
def Partition.fields (p : Partition) : List Nat := (List.range 64).filter p.holds

/-- The partition that holds a field. -/
def State.partOf (s : State) (f : Nat) : Option Nat := (List.range 16).find? (fun p => (s.part p).holds f)

/-- The training partition of the module, if one is formed (R444). -/
def State.trainPart (s : State) : Option Nat := (List.range 16).find? (fun p => (s.part p).state != 0 && (s.part p).train)

/-- The fields of the training partition. -/
def State.trainFields (s : State) : List Nat :=
  match s.trainPart with
  | some p => (s.part p).fields
  | none => []

/-- Whether a field belongs to the training partition. -/
def State.isTrainField (s : State) (f : Nat) : Bool := s.trainFields.contains f

/-- The fields a command's PART reaches: those of the partition, or every field for the module as a whole. -/
def State.reach (s : State) (part : Nat) (f : Nat) : Bool := f < 64 && (part == 16 || (s.part part).holds f)

/-- Whether a partition's profile in force is SERVE (R447). -/
def State.serves (s : State) (p : Nat) : Bool := p < 16 && (s.part p).profile == 3

/-- The class of a field's own Reilo traffic. -/
def State.fieldClass (s : State) (f : Nat) : ReiloClass := .bulk ((s.partOf f).getD 16) f

/-- Where a posting stands among those that wait (R474): by class, and within BULK export, then SERVE, then round robin by field, each turn from
field 0 (assumption 112). `before` are the postings that came before it. -/
def State.postKey (s : State) (before : List Posting) (x : Posting) : Nat :=
  match x.cls with
  | .sideband => 0
  | .register => 1
  | .ring => 2
  | .shutter => 3
  | .bulk p f =>
    if s.serves p then 4
    else
      let mine := before.filter (fun y => match y.cls with | .bulk q g => !s.serves q && g == f | _ => false)
      5 + 65 * mine.length + min f 64

/-- Puts a posting behind those of its place and before those of a later one. -/
def insertPosting (x : Nat × Posting) : List (Nat × Posting) → List (Nat × Posting)
  | [] => [x]
  | y :: ys => if x.1 < y.1 then x :: y :: ys else y :: insertPosting x ys

/-- The postings in the order in which they go to the link (R474). -/
def State.linkOrder (s : State) (xs : List Posting) : List Posting :=
  ((xs.zipIdx.map (fun p => (s.postKey (xs.take p.2) p.1, p.1))).foldl (fun a x => insertPosting x a) []).map Prod.snd



/-- Whether the partition's profile in force is EXACT (R447). -/
def State.exactOf (s : State) (f : Nat) : Bool :=
  match s.partOf f with
  | some p => (s.part p).profile == 1
  | none => false

/-! ### Slots and addresses (R11 to R21) -/

/-- The physical slot that serves logical slot `i` of a field, if any (R15, R222, R434). -/
def Field.serves (d : Field) (i : Nat) : Option Nat :=
  if d.gone || d.fcFenced then none
  else if d.spareUsed && d.spareFor == i then (if d.fenced.testBit 16 then none else some 16)
  else if d.fenced.testBit i then none else some i

/-- Whether some physical tile serves a tile id. -/
def State.served (s : State) (t : Nat) : Bool := ((s.fld (t / 16)).serves (t % 16)).isSome

/-- The logical slots a field presents (R15). -/
def Field.slots (d : Field) : List Nat := (List.range 16).filter (fun i => (d.serves i).isSome)

/-- The tile ids of a field that a physical tile serves, ascending. -/
def State.tilesOf (s : State) (f : Nat) : List Nat := ((s.fld f).slots).map (fun i => 16 * f + i)

/-- The capacity of a stack in bytes: g x 4 GiB (R222). -/
def Stack.capacity (k : Stack) : Nat := k.good.length * 2 ^ 32

/-- The unit an address falls in: base of its window, size of the window, valid bytes, and its field; none in a reserved range
(R18). -/
def State.unitOf (s : State) (a : Nat) : Option (Nat × Nat × Nat × Nat) :=
  if a < 2 ^ 43 then
    let f := a / 2 ^ 37
    some (f * 2 ^ 37, 2 ^ 37, (s.fld f).stack.capacity, f)
  else if a < 0x081000000000 then
    let t := (a - 0x080000000000) / 2 ^ 26
    some (0x080000000000 + t * 2 ^ 26, 2 ^ 26, if s.served t then 0x2800000 else 0, t / 16)
  else if a < 0x081200000000 then
    let f := (a - 0x081000000000) / 2 ^ 27
    some (0x081000000000 + f * 2 ^ 27, 2 ^ 27, 0x6000000, f)
  else none

/-- Whether `n` bytes from address `a` touch no hole and only fields that `part` reaches (R19); `fuel` bounds the units
crossed. -/
def State.rangeOk (s : State) (part : Nat) : Nat → Nat → Nat → Bool
  | 0, _, n => n == 0
  | fuel + 1, a, n =>
    if n = 0 then true
    else match s.unitOf a with
      | none => false
      | some (base, size, cap, f) =>
        s.reach part f &&
          (if a + n ≤ base + cap then true
           else if cap = size && a < base + size then State.rangeOk s part fuel (base + size) (a + n - (base + size))
           else false)

/-- Whether a command's range of module addresses is good (R19). -/
def State.moduleRange (s : State) (part a n : Nat) : Bool := s.rangeOk part 2112 a n

/-- Whether `n` bytes at stack offset `o` lie in a field's stack and in no hole (R214). -/
def State.stackRange (s : State) (f o n : Nat) : Bool := o + n ≤ (s.fld f).stack.capacity

/-- Whether a module id names a member of the island map (R21). -/
def State.isMember (s : State) (m : Nat) : Bool := s.blob.members.any (fun x => x.id == m)

/-- Whether a host-tier address breaks a ruling of R266: the status, or none. `n` bytes from it. -/
def hostAddrStatus (a n : Nat) : Option Nat :=
  let space := bitsAt a 62 2
  if 1 < space then some stValue
  else if space = 0 && bitsAt a 39 23 != 0 then some stValue
  else if space = 1 && bitsAt a 48 14 != 0 then some stValue
  else if space = 0 && 2 ^ 39 < bitsAt a 0 39 + n then some stTarget
  else none

/-! ### The step line (R335, R336) -/

/-- The phase of mark `n` in a table: fixed for 0 and 28 to 31. -/
def markPhase (tbl : SMap MarkEntry) (n : Nat) : Nat :=
  if n = 0 then 0 else if n = 28 then 0xE000 else if n = 29 then 0xE800 else if n = 30 then 0xF000
  else if n = 31 then 0xF800 else (smapGet {} tbl n).phase

/-- Whether mark `n` is defined. -/
def markDef (tbl : SMap MarkEntry) (n : Nat) : Bool := n = 0 || (28 ≤ n && n ≤ 31) || (smapGet {} tbl n).dfn

/-- Whether mark `n` has island scope. -/
def markIsland (tbl : SMap MarkEntry) (n : Nat) : Bool := n = 0 || (28 ≤ n && n ≤ 31) || (smapGet {} tbl n).island

/-- The reporting slots of mark `n`. -/
def markTmask (tbl : SMap MarkEntry) (n : Nat) : Nat := (smapGet {} tbl n).tmask

/-- Whether a mark may be named (R338): defined in the table in force or pending. -/
def State.markNamed (s : State) (n : Nat) : Bool :=
  n < 32 && (markDef s.bcn.table n || s.bcn.pendTable.any (fun t => markDef t n) || s.bcn.lateTable.any (fun t => markDef t n))

/-- Whether the delivered position is at or past (step, mark) (R335). A mark that the table in force does not define is passed with the
step (assumption 91). -/
def State.reachedPoint (s : State) (step mark : Nat) : Bool :=
  step < s.bcn.step || (step == s.bcn.step && markDef s.bcn.table mark && markPhase s.bcn.table mark ≤ s.bcn.phase)

/-- The step of captures and events: 0 when not placed (R172, R487). -/
def State.stepNow (s : State) : Nat := if s.place.placed then s.bcn.step else 0

/-- Whether this module is the beacon keeper. -/
def State.isKeeper (s : State) : Bool := s.place.placed && s.bcn.keeperId == s.place.moduleId

/-! ### Events (R487, R488) -/

/-- One 64-byte event record. -/
def State.eventRec (s : State) (cls code part unit : Nat) (phase : Bool) (payload : List Byte) : List Byte :=
  leBytes 2 cls ++ leBytes 2 code ++ leBytes 1 part ++ leBytes 1 (b2n phase) ++ leBytes 2 unit
    ++ leBytes 6 s.stepNow ++ leBytes 1 (if s.place.placed then s.bcn.attempt else 0) ++ leBytes 1 0
    ++ leBytes 8 (if s.bcn.siteValid then s.bcn.siteTime else 0) ++ padTo 40 payload

/-- Writes one record into an event ring that has a free entry, and sends its interrupt when it held none (R487). -/
def State.eventWrite (s : State) (e cls code part unit : Nat) (payload : List Byte) : State :=
  let r := smapGet {} s.host.erings e
  let s1 := s.store .ring (r.base + 64 * r.idx) (s.eventRec cls code part unit r.phase payload)
  let last := r.idx + 1 == 2 ^ r.log
  let s2 := s1.modEring e (fun r => { r with idx := if last then 0 else r.idx + 1, used := r.used + 1,
                                             phase := if last then !r.phase else r.phase })
  if r.used = 0 then s2.tell .ring (.irq r.vec) else s2

/-- Posts a record to one ring: into a free entry, or dropped and counted (R488). -/
def State.ringEvent (s : State) (e cls code part unit : Nat) (payload : List Byte) : State :=
  let r := smapGet {} s.host.erings e
  if !r.enabled || r.stopped then s
  else if 2 ^ r.log ≤ r.used then
    s.modEring e (fun r => { r with dropped := satAdd 32 r.dropped 1, fresh := r.fresh + 1, dropSeen := true })
  else s.eventWrite e cls code part unit payload

/-- Posts an event: into the privileged ring, and into the ring of the partition it names (R487). -/
def State.event (s : State) (cls code part unit : Nat) (payload : List Byte) : State :=
  let s1 := s.ringEvent 16 cls code part unit payload
  if part < 16 then s1.ringEvent part cls code part unit payload else s1

/-- The PART that an event about a field carries. -/
def State.evPart (s : State) (f : Nat) : Nat := (s.partOf f).getD 16

/-! ### Commands in hand -/

/-- The command with a uid. -/
def State.cmd (s : State) (uid : Nat) : Option OutCmd := s.host.cmds.find? (fun c => c.uid == uid)

/-- Changes one command in hand. -/
def State.modCmd (s : State) (uid : Nat) (g : OutCmd → OutCmd) : State :=
  s.modHost (fun h => { h with cmds := h.cmds.map (fun c => if c.uid == uid then g c else c) })

/-- The point that a site-time deadline was given, as the first two result words return it (R353). -/
def OutCmd.chosen (c : OutCmd) : Option (Nat × Nat) := if c.hdr.dl then c.point else none

/-- Completes a command that has not completed: with DONE_REPLAYED in place of DONE when its work was repeated (R423). The words of R353
stand before those of the opcode (assumption 38). -/
def OutCmd.finish (c : OutCmd) (status : Nat) (r : List Nat) : OutCmd :=
  if c.phase = .done || (c.drained && status != stAbShutter) then c
  else { c with phase := .done, status := if status = stDone && c.replayed then stReplayed else status,
                r0 := match c.chosen with | some p => p.1 % 2 ^ 32 | none => r.getD 0 0,
                r1 := match c.chosen with | some p => p.2 | none => r.getD 1 0,
                r2 := r.getD 2 0, r3 := r.getD 3 0 }

/-- Completes the command with a uid. -/
def State.finish (s : State) (uid status : Nat) (r : List Nat) : State := s.modCmd uid (fun c => c.finish status r)

/-- A detail of a failure: DOFF and DIDX as the completion carries them (R486). -/
def detailOf (doff didx : Nat) : Nat := doff % 2 ^ 16 + didx % 2 ^ 16 * 2 ^ 16

/-- Every command in hand that meets a test and has not completed completes with a status. -/
def State.finishAll (s : State) (test : OutCmd → Bool) (status : Nat) : State :=
  s.modHost (fun h => { h with cmds := h.cmds.map (fun c => if test c && c.phase != .done then c.finish status [] else c) })

/-! ### The input monitor (R552) -/

/-- A sample of the input: a free value in both fields of PWR_MON (assumption 36). -/
def State.sampleInput (s : State) : State :=
  let v := Config.inputSample s.fresh
  { s with fresh := s.fresh + 1, power := { s.power with vin := v.1 % 4096, pin := v.2 % 4096 } }

/-! ### Host memory written by results (R500) -/

/-- Writes the first `min(len, size)` bytes of a result to a host buffer, in the class of the completion that follows it (assumption 112). -/
def State.writeResult (s : State) (b : BufP) (bytes : List Byte) : State := s.store .ring b.addr (bytes.take b.len)

/-- Adds to a numeric count of a field's own sources and passes a change on a field's meter. -/
def State.modMeter (s : State) (f : Nat) (g : Meter → Meter) : State :=
  s.modFld f (fun d => { d with meter := { g d.meter with due := [] } })

/-! ### The stacks of a module (R212 to R217, R223, R236) -/

/-- The channel of a stack offset. -/
def Stack.chan (k : Stack) (o : Nat) : Nat := k.good.getD (o / 1024 % k.good.length) 0

/-- The channel offset of a stack offset. -/
def Stack.chanOff (k : Stack) (o : Nat) : Nat := o / 1024 / k.good.length * 1024 + o % 1024

/-- Whether a module address lies in a granule of a LOST channel (R223), or in a stack in test mode, which no other traffic reaches (R236,
assumption 106). -/
def State.lostAt (s : State) (a : Nat) : Bool :=
  a < 2 ^ 43 && (let k := (s.fld (a / 2 ^ 37)).stack
                 k.test || (k.lost != 0 && k.lost.testBit (k.chan (a % 2 ^ 37))))

/-- One byte as a read delivers it: 0xFF from a LOST channel (R217, R223). -/
def State.peek (s : State) (a : Nat) : Byte := if s.lostAt a then 0xFF else memRead s.mem a

/-- `n` bytes as a read delivers them. -/
def State.peekBytes (s : State) (a n : Nat) : List Byte := (List.range n).map (fun i => s.peek (a + i))

/-- Writes bytes; those of a LOST channel are dropped (R223). -/
def State.pokeBytes (s : State) (a : Nat) : List Byte → State
  | [] => s
  | b :: bs => State.pokeBytes (if s.lostAt a then s else { s with mem := memWrite s.mem a b }) (a + 1) bs

/-! ### The sets of the engines' flows (R316, R321, R383; assumption 134) -/

/-- The sets whose members exchange messages: those of a collective group in a step of its training partition and outside one, of the replica set of
a group of a field, and of outer transfers on their way to a gateway and from one. -/
def collSet (group : Nat) (inStep : Bool) : Nat := if inStep then group else 1024 + group
/-- The set of a replica set, by the field and GID of the module that receives. -/
def replicaSet (f gid : Nat) : Nat := 2 ^ 14 + 64 * gid + f
/-- The set of the working copies that the members of a group of a field send one another under OWNER (R258). -/
def ownerSet (f gid : Nat) : Nat := 2 ^ 16 + 64 * gid + f
/-- The set of outer transfers toward a gateway. -/
def gatewaySet : Nat := 2 ^ 15
/-- The set of outer transfers from a gateway to their destination. -/
def deliverSet : Nat := 2 ^ 15 + 1

/-- Whether a working copy that a group's member sent has not been accepted everywhere: its emission goes on (R262). -/
def State.emissionOut (s : State) (g : GroupP) : Bool :=
  s.fab.flows.any (fun x => g.members.any (fun m => x.2.peer == m.1 && x.2.engine == some (ownerSet m.2 g.gid))
    && !(x.2.unacked.isEmpty && x.2.queued.isEmpty))

end Sys2Proof.Machine
end

