-- ==== Sys2Proof/Machine/Packet.lean ====
section
/-! DEFINITION. Machine/Packet.lean: command packets: layouts of R497, header of R481, parameters of every opcode. -/

namespace Sys2Proof.Machine

/-! ### Opcodes (R505 to R515) -/

/-- The opcode of a command. -/
def opcodeOf : Body → Nat
  | .nop => 0x0000 | .config _ => 0x0001 | .inventory _ => 0x0002 | .power _ => 0x0003
  | .queueSetup _ => 0x0010 | .cringSetup _ => 0x0011 | .eringSetup _ => 0x0012
  | .partCreate _ => 0x0100 | .partDelete _ => 0x0101 | .profile _ _ => 0x0102 | .shutter _ => 0x0103
  | .heirWindow _ _ => 0x0104 | .queueBind _ _ => 0x0105
  | .bulkMove _ => 0x0200 | .regulator _ => 0x0201 | .regulatorSys _ => 0x0202 | .errClear _ _ => 0x0203
  | .actReg _ => 0x0204 | .actRemove _ => 0x0205 | .footprint => 0x0206
  | .tileProgram _ => 0x0300
  | .stepStart _ => 0x0400 | .stepStop => 0x0401 | .markTable _ => 0x0402 | .keeperSelect _ _ => 0x0403 | .watchdog _ => 0x0404
  | .islandForm => 0x0500 | .cgroupReg _ _ => 0x0501 | .cgroupRemove _ => 0x0502 | .collective _ _ => 0x0503
  | .portRetrain _ => 0x0504 | .portClear _ => 0x0505 | .fabricSet _ => 0x0506
  | .fedRecord _ => 0x0600 | .outerReg _ => 0x0601 | .outerRemove _ => 0x0602 | .routeTable _ => 0x0603 | .lportConfig _ => 0x0604
  | .optics _ _ => 0x0605 | .lportClear _ => 0x0606
  | .pgroupReg _ => 0x0700 | .pgroupRemove _ => 0x0701 | .publish _ => 0x0702 | .stepScalar _ _ => 0x0703 | .driftAudit _ => 0x0704
  | .ckptExport _ => 0x0705
  | .healthRead _ => 0x0800 | .healthClear _ _ _ _ => 0x0801 | .steerCtl _ => 0x0802 | .steerSlot _ => 0x0803
  | .steerPin _ _ _ => 0x0804 | .nevtEn _ _ => 0x0805 | .snapshot _ => 0x0806
  | .attest _ => 0x0900 | .logRead _ => 0x0901 | .idkeyRead _ => 0x0902
  | .testMode _ _ => 0x0A00 | .tgRun _ => 0x0A01 | .tgStop _ _ => 0x0A02 | .selftest _ => 0x0A03

/-- Whether an opcode is marked P (R503). -/
def opPriv (op : Nat) : Bool :=
  [0x0000, 0x0001, 0x0002, 0x0003, 0x0010, 0x0011, 0x0012, 0x0100, 0x0101, 0x0103, 0x0104, 0x0105, 0x0202, 0x0403, 0x0500, 0x0506,
    0x0901, 0x0A00, 0x0A01, 0x0A02, 0x0A03].contains op

/-- Whether an opcode is marked S (R503). -/
def opSched (op : Nat) : Bool := [0x0000, 0x0200, 0x0300, 0x0503, 0x0703, 0x0705, 0x0804, 0x0806].contains op

/-! ### Layouts (R497) -/

/-- The next multiple of `n` at or above `p`. -/
def alignUp (n p : Nat) : Nat := (p + n - 1) / n * n

/-- The offsets and sizes of containers from position `p`: size 0 marks the bounds of a nested record (a multiple of 8), sizes
above 8 are byte strings (assumption 20). -/
def layFrom : Nat → List Nat → List (Nat × Nat)
  | _, [] => []
  | p, n :: ns =>
    if n = 0 then layFrom (alignUp 8 p) ns
    else
      let o := alignUp (if 8 < n then 8 else n) p
      (o, n) :: layFrom (o + n) ns

/-- The end of a record, padded to a multiple of 8. -/
def layEnd (ns : List Nat) : Nat :=
  match (layFrom 0 ns).getLast? with
  | some (o, n) => alignUp 8 (o + n)
  | none => 0

/-- The containers of the fixed fields of an opcode. -/
def layFixed (op : Nat) : List Nat :=
  match op with
  | 0x0001 | 0x0002 | 0x0806 | 0x0902 => [8, 8]
  | 0x0003 | 0x0101 | 0x0504 | 0x0505 | 0x0606 => [1]
  | 0x0010 => [1, 8, 1, 1, 4]
  | 0x0011 | 0x0012 => [1, 8, 1, 1]
  | 0x0100 => [1, 1, 1, 1, 1, 1, 1, 1, 1]
  | 0x0102 | 0x0105 | 0x0602 | 0x0701 | 0x0702 | 0x0704 | 0x0805 | 0x0A00 => [1, 1]
  | 0x0103 => [1, 1, 2, 1, 1, 8, 2]
  | 0x0104 => [1, 1, 2, 8, 8]
  | 0x0200 => [1, 1, 8, 8, 8]
  | 0x0201 => [1, 2, 2, 1]
  | 0x0202 => [8, 2, 2, 1, 2]
  | 0x0203 => [8, 4]
  | 0x0204 => [2, 1, 8, 8, 8, 8, 8, 8, 1, 1, 1, 2, 1, 1]
  | 0x0205 | 0x0502 => [2]
  | 0x0300 => [1, 1]
  | 0x0400 | 0x0A03 => [8]
  | 0x0403 => [2, 1]
  | 0x0404 => [2, 2, 1]
  | 0x0501 => [2, 2]
  | 0x0503 => [1, 1, 1, 1, 2, 2, 8, 1, 8, 8]
  | 0x0506 => [1, 1, 2, 1]
  | 0x0600 => [1, 2, 1, 4, 4, 4, 4, 1, 1, 1, 2, 1]
  | 0x0601 => [1, 1, 1, 4, 4, 8]
  | 0x0603 => [1]
  | 0x0604 => [1, 1, 8, 2, 2, 1, 1]
  | 0x0605 => [1, 1, 1, 1, 1, 8, 16]
  | 0x0700 => [1, 1, 8, 1,
      0, 1, 1, 1, 1, 1, 1, 4, 4, 4, 4, 4, 4, 4, 4, 1, 4, 4, 4, 4, 2, 1, 1, 4, 0,
      2, 1, 1, 1, 1, 1, 1, 8, 4, 2, 8, 4, 4, 1,
      0, 1, 8, 8, 8, 1, 1, 1, 0]
  | 0x0703 => [1, 4]
  | 0x0705 => [8, 1, 1, 8, 8]
  | 0x0800 => [1, 1, 8, 8]
  | 0x0801 => [8, 8, 8, 8]
  | 0x0802 => [2, 1, 2, 2]
  | 0x0803 => [1, 1, 1, 1]
  | 0x0804 => [1, 1, 1]
  | 0x0900 => [8, 8, 8, 8, 8, 8]
  | 0x0901 => [1, 1, 8, 8]
  | 0x0A01 => [1, 4, 1, 4, 4, 8, 1, 2, 4, 1, 1]
  | 0x0A02 => [1, 4]
  | _ => []

/-- The containers of one item of an opcode's first and second list. -/
def layItem (op k : Nat) : List Nat :=
  match op, k with
  | 0x0103, 0 => [1, 1, 8, 1, 8, 8, 8, 8]
  | 0x0300, 0 => [8, 2, 1, 4, 8, 8]
  | 0x0300, 1 => [1, 4, 1, 1]
  | 0x0402, 0 => [1, 1, 2, 2]
  | 0x0501, 0 => [2]
  | 0x0600, 0 => [1, 1, 2]
  | 0x0603, 0 => [1, 1, 0, 2, 1, 0, 2, 1, 0, 2, 1, 0, 2, 1, 0, 2, 1, 0, 2, 1, 0, 2, 1, 0, 2, 1, 0]
  | 0x0700, 0 => [2, 1]
  | _, _ => []

/-- The number of items of the two lists, given the values of the fixed fields. -/
def layCounts (op : Nat) (v : List Nat) : Nat × Nat :=
  match op with
  | 0x0103 => (v.getD 6 0, 0)
  | 0x0300 => (v.getD 0 0, v.getD 1 0)
  | 0x0402 => (32, 0)
  | 0x0501 => (v.getD 1 0, 0)
  | 0x0600 => (v.getD 0 0, 0)
  | 0x0603 => (v.getD 0 0, 0)
  | 0x0700 => (v.getD 27 0, 0)
  | _ => (0, 0)

/-- The byte offset in the packet of fixed field `i`. -/
def fieldOff (op i : Nat) : Nat := 64 + ((layFrom 0 (layFixed op)).getD i (0, 0)).1

/-- The byte offset in the packet of field `i` of item `j` of list `k`, the first list holding `n0` items. -/
def itemOff (op k n0 j i : Nat) : Nat :=
  64 + layEnd (layFixed op) + (if k = 0 then 0 else n0 * layEnd (layItem op 0)) + j * layEnd (layItem op k)
    + ((layFrom 0 (layItem op k)).getD i (0, 0)).1

/-- The packed length of an opcode's parameters, given the values of the fixed fields (R498). -/
def packedLen (op : Nat) (v : List Nat) : Nat :=
  let n := layCounts op v
  layEnd (layFixed op) + n.1 * layEnd (layItem op 0) + n.2 * layEnd (layItem op 1)

/-- A little-endian number in a byte list. -/
def bytesAt (bs : List Byte) (o n : Nat) : Nat := leNat ((bs.drop o).take n)

/-- The values of containers laid out from offset `base`. -/
def readLay (bs : List Byte) (base : Nat) (ns : List Nat) : List Nat :=
  (layFrom 0 ns).map (fun p => bytesAt bs (base + p.1) p.2)

/-- The values of the items of list `k`. -/
def readItems (bs : List Byte) (op k base n : Nat) : List (List Nat) :=
  (List.range n).map (fun j => readLay bs (base + j * layEnd (layItem op k)) (layItem op k))

/-- Whether an offset of the parameter block lies in a container; the rest is padding (R497). -/
def inContainer (cs : List (Nat × Nat)) (o : Nat) : Bool := cs.any (fun c => c.1 ≤ o && o < c.1 + c.2)

/-- All containers of a parameter block. -/
def allContainers (op : Nat) (v : List Nat) : List (Nat × Nat) :=
  let n := layCounts op v
  let b0 := layEnd (layFixed op)
  let b1 := b0 + n.1 * layEnd (layItem op 0)
  let items (k b c : Nat) := (List.range c).flatMap (fun j =>
    (layFrom 0 (layItem op k)).map (fun p => (b + j * layEnd (layItem op k) + p.1, p.2)))
  layFrom 0 (layFixed op) ++ items 0 b0 n.1 ++ items 1 b1 n.2

/-- The first byte of padding that is not zero, as an offset of the parameter block. -/
def firstPad (op : Nat) (v : List Nat) (bs : List Byte) : Option Nat :=
  let cs := allContainers op v
  (List.range bs.length).find? (fun o => bs.getD o 0 != 0 && !inContainer cs o)

/-- An F32 parameter. -/
def f32 (n : Nat) : F32 := BitVec.ofNat 32 n

/-- The command of an opcode, from the values of its fixed fields and list items. -/
def bodyOf (op : Nat) (v : List Nat) (l0 l1 : List (List Nat)) (data : List Byte) : Option Body :=
  let a := fun i => v.getD i 0
  let g := fun (x : List Nat) i => x.getD i 0
  match op with
  | 0x0000 => some .nop
  | 0x0001 => some (.config ⟨a 0, a 1⟩)
  | 0x0002 => some (.inventory ⟨a 0, a 1⟩)
  | 0x0003 => some (.power (a 0))
  | 0x0010 => some (.queueSetup ⟨a 0, a 1, a 2, a 3, a 4⟩)
  | 0x0011 => some (.cringSetup ⟨a 0, a 1, a 2, a 3⟩)
  | 0x0012 => some (.eringSetup ⟨a 0, a 1, a 2, a 3⟩)
  | 0x0100 => some (.partCreate ⟨a 0, a 1, a 2, a 3, a 4, a 5, a 6, a 7, a 8⟩)
  | 0x0101 => some (.partDelete (a 0))
  | 0x0102 => some (.profile (a 0) (a 1))
  | 0x0103 => some (.shutter ⟨a 0, a 1, a 2, a 3, a 4, a 5,
      l0.map (fun x => ⟨g x 0, g x 1, g x 2, g x 3, g x 4, g x 5, g x 6, g x 7⟩)⟩)
  | 0x0104 => some (.heirWindow (a 1) ⟨a 0, a 2, a 3, a 4⟩)
  | 0x0105 => some (.queueBind (a 0) (a 1))
  | 0x0200 => some (.bulkMove ⟨a 0, a 1, a 2, a 3, a 4⟩)
  | 0x0201 => some (.regulator ⟨a 0, a 1, a 2, a 3⟩)
  | 0x0202 => some (.regulatorSys ⟨a 0, a 1, a 2, a 3, a 4⟩)
  | 0x0203 => some (.errClear (a 0) (a 1))
  | 0x0204 => some (.actReg ⟨a 0, a 1, a 2, a 3, a 4, a 5, a 6, a 7, a 8, a 9, a 10, a 11, a 12, a 13⟩)
  | 0x0205 => some (.actRemove (a 0))
  | 0x0206 => some .footprint
  | 0x0300 => some (.tileProgram ⟨l0.map (fun x => ⟨g x 0, g x 1, g x 2, g x 3, g x 4, g x 5⟩),
      l1.map (fun x => ⟨g x 0, g x 1, g x 2, g x 3⟩)⟩)
  | 0x0400 => some (.stepStart (a 0))
  | 0x0401 => some .stepStop
  | 0x0402 => some (.markTable (l0.map (fun x => ⟨g x 0, g x 1, g x 2, g x 3⟩)))
  | 0x0403 => some (.keeperSelect (a 0) (a 1))
  | 0x0404 => some (.watchdog ⟨a 0, a 1, a 2⟩)
  | 0x0500 => some .islandForm
  | 0x0501 => some (.cgroupReg (a 0) (l0.map (fun x => g x 0)))
  | 0x0502 => some (.cgroupRemove (a 0))
  | 0x0503 => some (.collective (a 0) ⟨a 1, a 2, a 3, a 4, a 5, a 6, a 7, a 8, a 9⟩)
  | 0x0504 => some (.portRetrain (a 0))
  | 0x0505 => some (.portClear (a 0))
  | 0x0506 => some (.fabricSet ⟨a 0, a 1, a 2, a 3⟩)
  | 0x0600 => some (.fedRecord ⟨l0.map (fun x => ⟨g x 0, g x 1, g x 2⟩), a 1, a 2, f32 (a 3), f32 (a 4), f32 (a 5), f32 (a 6),
      a 7, a 8, a 9, a 10, a 11⟩)
  | 0x0601 => some (.outerReg ⟨a 0, a 1, a 2, f32 (a 3), f32 (a 4), a 5⟩)
  | 0x0602 => some (.outerRemove ⟨a 0, a 1⟩)
  | 0x0603 => some (.routeTable (l0.map (fun x => ⟨g x 0, g x 1, (List.range 8).map (fun k => (g x (2 + 2 * k), g x (3 + 2 * k)))⟩)))
  | 0x0604 => some (.lportConfig ⟨a 0, a 1, a 2, a 3, a 4, a 5, a 6⟩)
  | 0x0605 => some (.optics (a 1) ⟨a 0, a 2, a 3, a 4, a 5, data⟩)
  | 0x0606 => some (.lportClear (a 0))
  | 0x0700 => some (.pgroupReg
      { field := a 0, gid := a 1, nelem := a 2, cons := a 3,
        rule := ⟨a 4, a 5, a 6, a 7, a 8, a 9, f32 (a 10), f32 (a 11), f32 (a 12), f32 (a 13), f32 (a 14), f32 (a 15), a 16, a 17,
          a 18, f32 (a 19), f32 (a 20), f32 (a 21), f32 (a 22), a 23, a 24, a 25, a 26⟩,
        r := a 27, m1fmt := a 28, m2fmt := a 29, gxfmt := a 30, wcfmt := a 31, htag := a 32, bank := a 33, pbase := a 34,
        gbase := a 35, tmask := a 36, telems := a 37, slot0 := a 38, slot1 := a 39, xmark := a 40,
        tier := ⟨a 41, a 42, a 43, a 44, a 45, a 46, a 47⟩, members := l0.map (fun x => (g x 0, g x 1)) })
  | 0x0701 => some (.pgroupRemove ⟨a 0, a 1⟩)
  | 0x0702 => some (.publish ⟨a 0, a 1⟩)
  | 0x0703 => some (.stepScalar (a 0) (f32 (a 1)))
  | 0x0704 => some (.driftAudit ⟨a 0, a 1⟩)
  | 0x0705 => some (.ckptExport ⟨a 0, a 1, a 2, a 3, a 4⟩)
  | 0x0800 => some (.healthRead ⟨a 0, a 1, ⟨a 2, a 3⟩⟩)
  | 0x0801 => some (.healthClear (a 0) (a 1) (a 2) (a 3))
  | 0x0802 => some (.steerCtl ⟨a 0, a 1, a 2, a 3⟩)
  | 0x0803 => some (.steerSlot ⟨a 0, a 1, a 2, a 3⟩)
  | 0x0804 => some (.steerPin (a 0) (a 1) (a 2))
  | 0x0805 => some (.nevtEn (a 0) (a 1))
  | 0x0806 => some (.snapshot ⟨a 0, a 1⟩)
  | 0x0900 => some (.attest ⟨a 0, a 1, a 2, a 3, ⟨a 4, a 5⟩⟩)
  | 0x0901 => some (.logRead ⟨a 0, a 1, ⟨a 2, a 3⟩⟩)
  | 0x0902 => some (.idkeyRead ⟨a 0, a 1⟩)
  | 0x0A00 => some (.testMode (a 0) (a 1))
  | 0x0A01 => some (.tgRun ⟨a 0, a 1, a 2, a 3, a 4, a 5, a 6, a 7, a 8, a 9, a 10⟩)
  | 0x0A02 => some (.tgStop (a 0) (a 1))
  | 0x0A03 => some (.selftest (a 0))
  | _ => none

/-- The command that an opcode and a parameter block spell; the DATA of OPTICS is its 16 bytes. -/
def parseBody (op : Nat) (bs : List Byte) : Option Body :=
  let v := readLay bs 0 (layFixed op)
  let n := layCounts op v
  let b0 := layEnd (layFixed op)
  let b1 := b0 + n.1 * layEnd (layItem op 0)
  bodyOf op v (readItems bs op 0 b0 n.1) (readItems bs op 1 b1 n.2) ((bs.drop 8).take 16)

/-- The fields of a packet header as its bytes hold them (R481). -/
structure RawHdr where
  opcode : Nat
  flags : Nat
  queue : Nat
  part : Nat
  plen : Nat
  seq : Nat
  step : Nat
  mark : Nat
  deadline : Nat
  deriving DecidableEq, Repr

/-- Reads the header. -/
def parseHdr (bs : List Byte) : RawHdr :=
  { opcode := bytesAt bs 0 2, flags := bytesAt bs 2 2, queue := bytesAt bs 4 1, part := bytesAt bs 5 1, plen := bytesAt bs 6 2,
    seq := bytesAt bs 8 4, step := bytesAt bs 16 6, mark := bytesAt bs 22 1, deadline := bytesAt bs 24 8 }

/-- The first byte of the header whose RSVD bits are not zero (R481). -/
def headerRsvd (bs : List Byte) : Option Nat :=
  (List.range 64).find? (fun o =>
    let b := (bs.getD o 0).toNat
    if o = 2 then 32 ≤ b
    else if o = 3 then b != 0
    else if o = 4 then 64 ≤ b
    else if o = 5 || o = 22 then 32 ≤ b
    else if (12 ≤ o && o < 16) || o = 23 || 32 ≤ o then b != 0
    else false)

/-- The header of a packet with its fields cut to their widths. -/
def RawHdr.toHdr (r : RawHdr) : Hdr :=
  { queue := ⟨r.queue % 64, Nat.mod_lt _ (by decide)⟩, part := r.part % 32, seq := r.seq,
    sched := r.flags.testBit 0, dl := r.flags.testBit 1, eval := r.flags.testBit 2, irq := r.flags.testBit 3,
    fence := r.flags.testBit 4, step := r.step, mark := r.mark % 32, deadline := r.deadline }

end Sys2Proof.Machine
end

