-- ==== Sys2Proof/Machine/Checks.lean ====
section
/-! DEFINITION. Machine/Checks.lean: the checks of a command at submission, in the order of R483. -/

namespace Sys2Proof.Machine

/-- One check: its place in R483, whether it holds, the status when it fails, the byte offset in the packet of the field
(DOFF), the index of the failing item (DIDX), and the first result word of the rejection. -/
structure Check where
  order : Nat
  ok : Bool
  status : Nat
  off : Nat := 0
  didx : Nat := 0
  r0 : Nat := 0
  r1 : Nat := 0
  deriving DecidableEq, Repr

/-- Check 7: a field that rejects zero is not zero. -/
def ckZero (ok : Bool) (off : Nat) : Check := { order := 7, ok := ok, status := stZero, off := off }

/-- Check 8: formats. -/
def ckFormat (ok : Bool) (off : Nat) : Check := { order := 8, ok := ok, status := stFormat, off := off }

/-- Check 9: alignment. -/
def ckAlign (ok : Bool) (off : Nat) : Check := { order := 9, ok := ok, status := stAlign, off := off }

/-- Check 10: ranges and codes. -/
def ckValue (ok : Bool) (off : Nat) : Check := { order := 10, ok := ok, status := stValue, off := off }

/-- Check 11: targets. -/
def ckTarget (ok : Bool) (off : Nat) : Check := { order := 11, ok := ok, status := stTarget, off := off }

/-- Check 12: states, with the status given. -/
def ckState (ok : Bool) (status off : Nat) : Check := { order := 12, ok := ok, status := status, off := off }

/-- The checks of a host-tier address `a` with `n` bytes at a field (R266): alignment, SPACE and range. -/
def ckHostAddr (a n off : Nat) : List Check :=
  [ckAlign (a % 64 == 0) off, ckValue (hostAddrStatus a n != some stValue) off, ckTarget (hostAddrStatus a n != some stTarget) off]

/-- The checks of RBUF and RLEN of an opcode at fields `i` and `i + 1` (R500). -/
def ckBuf (op i : Nat) (b : BufP) : List Check :=
  ckHostAddr b.addr b.len (fieldOff op i) ++ [ckAlign (b.len % 64 == 0) (fieldOff op (i + 1))]

/-- The failing check that decides: the lowest in the order of R483, the first listed among equals. -/
def firstFail (cs : List Check) : Option Check :=
  cs.foldl (fun best c => if c.ok then best else match best with
    | none => some c
    | some b => if c.order < b.order then some c else some b) none

/-- Whether PLEN, the header and the scheduling of a command are good (check 5 of R483, R338). -/
def State.headerChecks (s : State) (h : Hdr) (op : Nat) : List Check :=
  [{ order := 1, ok := h.part ≤ 16, status := stValue, off := 5 },
   { order := 5, ok := !(h.sched && h.dl), status := stValue, off := 2 },
   { order := 5, ok := !h.eval || op == 0x0300, status := stValue, off := 2 },
   { order := 5, ok := !(h.sched || h.dl) || opSched op, status := stValue, off := 2 },
   { order := 5, ok := h.sched || h.step == 0, status := stValue, off := 16 },
   { order := 5, ok := if h.sched || h.dl then s.markNamed h.mark else h.mark == 0, status := stValue, off := 22 },
   { order := 5, ok := h.dl || h.deadline == 0, status := stValue, off := 24 },
   { order := 5, ok := !h.eval || (h.sched && h.mark == 31), status := stValue, off := 2 }]

/-- The opcodes served before phase READY (chapter Power states, boot and trust). -/
def bootOp (op : Nat) : Bool := [0x0001, 0x0002, 0x0010, 0x0011, 0x0012].contains op

/-- The opcodes that PARK turns away (R538). -/
def parkStops (op : Nat) : Bool :=
  [0x0300, 0x0503, 0x0103, 0x0101, 0x0400, 0x0700, 0x0702, 0x0704, 0x0705, 0x0A00, 0x0A01, 0x0A03].contains op

/-- Check 12 as far as it does not depend on the opcode's parameters: boot phase, power state, placement and deadlines
(R23, R351, R353, R538). -/
def State.stateChecks (s : State) (h : Hdr) (op : Nat) : List Check :=
  [ckState (8 ≤ s.power.phase || bootOp op) stState 0,
   ckState (s.power.state != 3 || op / 256 == 0 || op / 256 == 9) stState 0,
   ckState (s.power.state != 2 || !parkStops op) stState 0,
   ckState (s.place.placed || !([4, 5, 6].contains (op / 256) || h.sched || h.dl)) stState 0,
   ckState (!h.dl || (s.bcn.siteValid && s.bcn.sinceStart)) stState 24]

/-- The median of the last step durations, in CCLK (R354): the lower median, the 32nd smallest of 64. -/
def medianOf (ds : List Nat) : Nat := (ds.mergeSort).getD ((ds.length - 1) / 2) 0

/-- The point of a deadline (R353): `t` the site time, `n` the mark. Times are compared in units of 1 ns / (6 x 65,536), a CCLK being
5/6 ns. -/
def State.deadlinePoint (s : State) (t n : Nat) : Nat × Nat :=
  let tm := 5 * medianOf s.bcn.durs
  let room := (t - s.bcn.beginSite) * 6 * 65536
  let ph := markPhase s.bcn.table n * tm
  let k := (room - ph) / (65536 * tm)
  let now := s.bcn.step
  let fits := s.bcn.beginSite ≤ t && ph ≤ room
  if fits && (0 < k || !s.reachedPoint now n) then (now + k, n)
  else (if s.reachedPoint now n then now + 1 else now, n)

end Sys2Proof.Machine
end

