-- ==== Sys2Proof/Machine/Regs.lean ====
section
/-! DEFINITION. Machine/Regs.lean: the value of every register at its offset in every view (chapter Register views and maps). -/

namespace Sys2Proof.Machine

/-- A register value from its fields (lowest bit, value). -/
def packBits (fs : List (Nat × Nat)) : Nat := fs.foldl (fun a f => a + f.2 * 2 ^ f.1) 0

/-! ### Derived values -/

/-- The ceiling that a sill sets (R231). -/
def sillCeiling (sill : Nat) : Nat := match sill with | 0 => 1000 | 1 => 750 | 2 => 500 | _ => 100

/-- The effective ceiling C of a field's stack (R228). -/
def State.ceiling (s : State) (f : Nat) : Nat :=
  let k := (s.fld f).stack
  let cool := match s.partOf f with | some p => (s.part p).profile == 2 | none => false
  min (min k.opceil (if cool then 600 else 1000)) (sillCeiling k.sill)

/-- FLD_SLOTMAP (R17). -/
def Field.slotmap (d : Field) : Nat :=
  let used := d.serves d.spareFor == some 16
  packBits [(0, if used then d.spareFor else 0), (4, b2n used), (5, b2n d.factory),
    (6, b2n (decide (d.slots.length < 16))), (8, d.fenced % 2 ^ 17)]

/-- The state of a channel (R225): 0 IN_SERVICE, 1 MAPPED_OUT, 2 LOST, 3 TEST. -/
def Stack.chanState (k : Stack) (c : Nat) : Nat :=
  if !k.good.contains c then 1 else if k.test then 3 else if k.lost.testBit c then 2 else 0

/-- The fuse map-outs of a field's channels. -/
def State.fuseChans (s : State) (f : Nat) : Nat := smapGet 0 s.fuses.chanOut f

/-- The flow contexts that lantern sessions hold (R371). -/
def State.lanternContexts (s : State) : Nat :=
  s.lnt.foldl (fun a p => a + (if p.2.live then p.2.flowCount else 0)) 0

/-- The distinct MEMBERS lists of a field's groups (R316). -/
def Field.replicaSets (d : Field) : List (List (Nat × Nat)) := (d.groups.map (fun g => g.2.p.members)).eraseDups

/-- The flow contexts held (R316; assumption 21). -/
def State.contextsUsed (s : State) : Nat :=
  32 * s.fab.groups.length + s.fields.foldl (fun a f => a + 8 * f.2.replicaSets.length) 0
    + (s.fab.flows.filter (fun x => x.2.engine.isNone)).length + s.lanternContexts

/-- The flow contexts free. -/
def State.contextsFree (s : State) : Nat := 16384 - s.contextsUsed

/-- Whether a queue's next descriptor is a WAIT, FENCE or MARK whose condition does not hold yet (R181, R210); `passed` says which marks have
been reached. -/
def TileState.headHeld (t : TileState) (passed : Nat → Nat → Bool) (n : Nat) : Bool :=
  let q := smapGet ({} : TileQueue) t.queues n
  match q.ring with
  | [] => false
  | e :: _ =>
    match e.desc.kind with
    | .wait d => if d.mode = 0 then decide (smapGet 0 t.sems d.sem < d.count) else !passed (e.waitStep.getD 0) d.mark
    | .fence _ => (e.fenceSet.getD []).any (fun i => t.queues.any (fun y => y.2.started.any (fun x => x.uid == i)))
    | .mark _ => !q.started.isEmpty
    | _ => false

/-- TIL_SEQSTATUS (R210). -/
def TileState.seqStatus (t : TileState) (passed : Nat → Nat → Bool) : Nat :=
  let q := fun n => smapGet ({} : TileQueue) t.queues n
  let busy := fun n => b2n (!((q n).source.isEmpty && (q n).ring.isEmpty && (q n).started.isEmpty))
  let held := fun n => b2n (t.headHeld passed n || (q n).started.any (fun e => match e.desc.kind with
    | .wait _ => true | .fence _ => true | .mark _ => true | _ => false))
  packBits [(0, busy 0), (1, busy 1), (2, busy 2), (3, busy 3), (4, held 0), (5, held 1), (6, held 2), (7, held 3),
    (8, b2n t.semOvf)]

/-- A locator word. -/
def Ffl.word (f : Ffl) (i : Nat) : Nat :=
  (match i with | 0 => f.w0 | 1 => f.w1 | 2 => f.w2 | 3 => f.w3 | _ => f.w4).toNat

/-- A register of a tile block (R528). -/
def TileState.reg (t : TileState) (passed : Nat → Nat → Bool) (o : Nat) : Nat :=
  if o = 0x000 then t.meter.status.toNat
  else if o = 0x004 then t.seqStatus passed
  else if o = 0x008 then t.seedLo.toNat
  else if o = 0x00C then t.seedHi.toNat
  else if 0x010 ≤ o && o ≤ 0x020 then t.meter.ffl.word ((o - 0x010) / 4)
  else if 0x040 ≤ o && o < 0x080 then smapGet 0 t.sems ((o - 0x040) / 4)
  else 0

/-- The tile that stands behind physical slot `p` of a field: the frozen registers of a fenced slot, the tile id it serves, or a
tile at reset values for an idle spare (R529). -/
def State.physTile (s : State) (f p : Nat) : TileState :=
  let d := s.fld f
  if d.fenced.testBit p || d.fcFenced then smapGet {} d.frozen p
  else match (List.range 16).find? (fun i => d.serves i == some p) with
    | some i => s.tile (16 * f + i)
    | none => {}

/-- TIL_PHYS (R529). -/
def State.tilPhys (s : State) (f p : Nat) : Nat :=
  let d := s.fld f
  let srv := (List.range 16).find? (fun i => d.serves i == some p)
  packBits [(0, match srv with | some i => 16 * f + i | none => 0), (10, b2n srv.isSome),
    (11, b2n (d.fenced.testBit p || d.fcFenced)), (12, b2n (p == 16))]

/-- The fields in view for MOD_NSUMMARY (R168). -/
def State.viewFields (s : State) (view : Nat) : List Nat := if view = 16 then List.range 64 else (s.part view).fields

/-! ### Blocks -/

/-- The MOD block (R523). -/
def State.modReg (s : State) (view o : Nat) : Nat :=
  if o = 0x000 then packBits [(0, 0x1024), (16, s.fuses.stepping % 16), (20, s.fuses.build % 16), (24, 0x4C)]
  else if o = 0x004 then packBits [(0, s.place.moduleId), (10, s.place.islandId), (14, b2n s.place.placed), (16, s.place.size)]
  else if o = 0x008 then s.fuses.serial % 2 ^ 32
  else if o = 0x00C then s.fuses.serial / 2 ^ 32 % 2 ^ 32
  else if o = 0x010 then (s.viewFields view).foldl (fun a f => a ||| (s.fld f).meter.status.toNat % 512) 0
  else if o = 0x014 then packBits (((s.viewFields view).filter (fun f => f < 32 && (s.fld f).meter.status != 0)).map (fun f => (f, 1)))
  else if o = 0x018 then packBits (((s.viewFields view).filter (fun f => 32 ≤ f && (s.fld f).meter.status != 0)).map (fun f => (f - 32, 1)))
  else if o = 0x020 then
    let stopped := match s.trainPart with | some p => (s.part p).state == 2 | none => false
    if view = 16 then packBits [(0, s.mods.fault.toNat % 128), (7, b2n stopped), (8, s.mods.faultField)] else s.mods.fault.toNat % 128
  else if o = 0x024 then packBits [(0, s.mods.aborts), (16, s.bcn.limit)]
  else if o = 0x030 then s.mods.violCount
  else if o = 0x034 then s.mods.violLast.toNat
  else if o = 0x038 then packBits [(0, view), (5, 1), (6, b2n (view < 16 && (s.part view).train))]
  else if 0x100 ≤ o && o < 0x180 then
    let p := s.part ((o - 0x100) / 8)
    if o % 8 = 0 then packBits [(0, p.fx0), (3, p.fy0), (6, p.w), (10, p.h), (14, p.state), (16, p.profile), (18, b2n p.train)]
    else packBits [(0, p.fports), (8, p.lports), (12, p.phase), (15, b2n p.cutSeen)]
  else 0

/-- The HST block (R494, R530). -/
def State.hstReg (s : State) (o : Nat) : Nat :=
  let h := s.host
  if o = 0x000 then packBits [(0, h.state), (2, b2n h.downSeen), (3, b2n h.xfailSeen), (4, h.lanesOk)]
  else if o = 0x010 then h.q0Base % 2 ^ 32
  else if o = 0x014 then h.q0Base / 2 ^ 32
  else if o = 0x018 then h.c0Base % 2 ^ 32
  else if o = 0x01C then h.c0Base / 2 ^ 32
  else if o = 0x020 then packBits [(0, h.qlog), (8, h.clog)]
  else if 0x100 ≤ o && o < 0x200 then
    let q := s.cmdQueue ((o - 0x100) / 4)
    packBits [(0, q.head), (16, b2n q.enabled), (17, b2n q.dbErr), (18, b2n q.seqErr), (19, b2n q.ringErr)]
  else if 0x400 ≤ o && o < 0x444 then
    let e := smapGet ({} : ERing) h.erings ((o - 0x400) / 4)
    packBits [(0, b2n e.enabled), (1, b2n e.ringErr), (2, b2n e.dropSeen)]
  else if 0x480 ≤ o && o < 0x4C4 then (smapGet ({} : ERing) h.erings ((o - 0x480) / 4)).dropped
  else if 0x600 ≤ o && o < 0x700 then
    let c := smapGet ({} : CRing) h.crings ((o - 0x600) / 4)
    packBits [(0, b2n c.enabled), (1, b2n c.ringErr), (2, b2n c.dbErr)]
  else 0

/-- Whether mark `n` has been reached in the current attempt here: the fixed ones as the position tells (R360). -/
def Beacon.hasReached (b : Beacon) (n : Nat) : Bool :=
  if n = 0 then b.begun || 0xF000 ≤ b.phase else if n = 30 then 0xF000 ≤ b.phase else if n = 31 then 0xF800 ≤ b.phase else b.reached.testBit n

/-- BCN_STATUS.RUNNING: the keeper advances the step line; it withholds STEP_BEGIN while the island's outer loop is HELD, and the step before has ended
(R360, R410). -/
def State.lineRuns (s : State) : Bool := s.bcn.running && !(s.outer.state == 4 && s.bcn.phase == 0xF800)

/-- The BCN block (R360). -/
def State.bcnReg (s : State) (o : Nat) : Nat :=
  let b := s.bcn
  if o = 0x000 then b.step % 2 ^ 32
  else if o = 0x004 then b.posHi.toNat
  else if o = 0x008 then packBits [(0, b2n s.lineRuns), (1, b2n s.isKeeper), (2, b2n b.ext), (3, b2n b.siteValid), (4, b2n b.recovering),
    (5, b2n b.overdue), (6, b2n b.abortSeen), (8, b.attempt), (16, b.keeperId)]
  else if o = 0x00C then min (medianOf b.durs / 1200) (2 ^ 32 - 1)
  else if o = 0x010 then packBits [(0, b.mult), (16, b.initMs)]
  else if o = 0x018 then b.siteTime % 2 ^ 32
  else if o = 0x01C then b.siteTime / 2 ^ 32
  else if 0x100 ≤ o && o < 0x200 then
    let n := (o - 0x100) / 8
    if o % 8 = 0 then packBits [(0, markPhase b.table n), (16, b2n (markDef b.table n)), (17, b2n (markIsland b.table n)),
      (18, b2n (b.hasReached n))]
    else markTmask b.table n
  else 0

/-- The FLR block (R361). -/
def State.flrReg (s : State) (o : Nat) : Nat :=
  if o = 0x000 then packBits [(0, s.place.depth), (10, b2n s.bcn.reissueSeen), (11, b2n s.bcn.staleSeen)]
  else if o = 0x004 then s.bcn.roundCount % 2 ^ 32
  else 0

/-- The FAB block (R332, R333). -/
def State.fabReg (s : State) (o : Nat) : Nat :=
  let f := s.fab
  if o < 0x800 then
    let p := s.port (o / 0x100)
    let i := o % 0x100
    if i = 0x00 then packBits [(0, p.state), (4, b2n p.downSeen), (5, b2n p.replaySeen), (6, b2n p.fenceSeen), (7, b2n p.refuseSeen),
      (8, p.lanesOk)]
    else if i = 0x04 then packBits [(0, p.peerModule), (10, p.peerIsland), (14, p.peerPort)]
    else if i = 0x08 then p.crcerr
    else if i = 0x0C then p.replays
    else 0
  else if o = 0x800 then packBits [(0, s.contextsFree), (16, s.lanternContexts)]
  else if o = 0x804 then packBits [(0, b2n f.retxSeen), (1, b2n f.failSeen), (2, b2n f.staleSeen), (3, b2n f.unreachSeen)]
  else if o = 0x808 then packBits [(0, f.lanes), (16, b2n f.retrySeen), (17, b2n f.resfault)]
  else if o = 0x80C then f.retries
  else 0

/-- The send-window slots in use at a lantern port. -/
def LntPort.winUse (p : LntPort) : Nat := p.flows.foldl (fun a f => a + f.2.window.length) 0

/-- The LNT block (R391, R392, R419). -/
def State.lntReg (s : State) (o : Nat) : Nat :=
  let x := s.outer
  if o < 0x400 then
    let p := s.lport (o / 0x100)
    let i := o % 0x100
    if i = 0x00 then packBits [(0, p.state), (3, b2n p.pathchg), (4, b2n p.darkSeen), (5, b2n p.refuseSeen), (6, b2n p.staleSeen),
      (7, b2n p.crc64Seen), (8, b2n p.losSeen), (9, p.lanesOk), (12, p.peerIsland), (16, p.peerModule), (26, p.peerPort)]
    else if i = 0x04 then p.session
    else if i = 0x08 then p.base % 2 ^ 32
    else if i = 0x0C then p.rto % 2 ^ 32
    else if i = 0x10 then p.retx
    else if i = 0x14 then p.crcerr
    else if i = 0x18 then p.winUse
    else 0
  else if o = 0x800 then packBits ((0, x.dark % 65536) :: x.routes.map (fun r => (16 + r.island, 1)))
  else if o = 0x900 then packBits [(0, x.state), (3, b2n x.holdSeen), (4, b2n x.rejoinSeen), (8, x.missed)]
  else if o = 0x904 then x.rho
  else if o = 0x908 then x.lastj
  else if o = 0x90C then x.cstep
  else 0

/-- The PWR block (R552). -/
def State.pwrReg (s : State) (o : Nat) : Nat :=
  let p := s.power
  if o = 0x0 then packBits [(0, p.state), (3, b2n p.pgCtl), (4, b2n p.pgDram), (5, b2n p.pgCore), (6, b2n p.railoffOk), (8, p.phase)]
  else if o = 0x4 then packBits [(0, p.vin), (16, p.pin)]
  else 0

/-- Whether OWNER_HASH in the fuses is not zero (R542). -/
def Fuses.owner (f : Fuses) : Bool := f.ownerHash.any (fun b => b != 0)

/-- The SEC block (R552). -/
def State.secReg (s : State) (o : Nat) : Nat :=
  let c := s.sec
  if o = 0x00 then c.addrLo.toNat
  else if o = 0x04 then c.addrHi.toNat
  else if o = 0x08 then c.len.toNat
  else if o = 0x10 then packBits [(0, c.fail), (4, b2n c.waiting), (5, b2n s.fuses.owner), (8, c.attempts)]
  else if o = 0x14 then packBits [(0, c.imageSvn), (16, s.fuses.minSvn)]
  else if o = 0x18 then packBits [(0, min c.count 65535), (16, b2n c.full)]
  else 0

/-- `w` bits reversed. -/
def reflectBits (w n : Nat) : Nat := (List.range w).foldl (fun a i => a + b2n (n.testBit i) * 2 ^ (w - 1 - i)) 0

/-- The result of a check-value unit (R555). -/
def ChkUnit.result (u : ChkUnit) : Nat :=
  Nat.xor (if u.refout then reflectBits u.width u.reg else u.reg) (u.xorout % 2 ^ u.width)

/-- A check-value unit's registers (R560). -/
def ChkUnit.get (u : ChkUnit) (o : Nat) : Nat :=
  if o = 0x00 then packBits [(0, u.width), (7, b2n u.refin), (8, b2n u.refout)]
  else if o = 0x08 then packBits [(0, b2n (!(u.feeding.isEmpty && u.held.isEmpty))), (1, b2n u.badcfg)]
  else if o = 0x10 then u.poly % 2 ^ 32
  else if o = 0x14 then u.poly / 2 ^ 32
  else if o = 0x18 then u.init % 2 ^ 32
  else if o = 0x1C then u.init / 2 ^ 32
  else if o = 0x20 then u.xorout % 2 ^ 32
  else if o = 0x24 then u.xorout / 2 ^ 32
  else if o = 0x40 then u.result % 2 ^ 32
  else if o = 0x44 then u.resultHi.toNat
  else 0

/-- UPD_GRP_STAT, _VER, _USE and _STALL of a group; `out` that members have not accepted all that its emission sent (R262, R263). -/
def Group.stat (g : Group) (out : Bool) (i : Nat) : Nat :=
  match i with
  | 0 => packBits [(0, 1), (1, g.p.cons), (2, g.bank), (3, b2n g.pendingVer), (4, b2n (g.emitting || out)), (5, b2n g.transomWait), (6, b2n g.latePut)]
  | 1 => g.version
  | 2 => packBits [(0, g.use0), (16, g.use1)]
  | _ => g.stalls

/-- Whether a parked gradient of a group awaits its update: until the update of the step has run, and under LATE the gradient of `step`, the
step at hand, in any case (R279, R281, R284). -/
def Group.parkAwaits (g : Group) (step : Nat) : Bool := g.parks.any (fun k => !g.updated || (g.p.tier.late == 1 && k.step == step))

/-- UPD_GRP_TIER and UPD_GRP_TSTALL (R284). -/
def Group.tierReg (g : Group) (step i : Nat) : Nat :=
  if g.p.tier.home = 0 then 0
  else if i = 0 then packBits [(0, 1), (1, g.p.tier.late), (2, b2n g.resident), (3, b2n g.fetching), (4, b2n (g.parkAwaits step)),
    (5, b2n g.tierWait), (6, b2n g.htErr)]
  else packBits [(0, g.tstall), (16, g.waitUs)]

/-- UPD_OUT_STAT, _BASE, _CNT and _APPLIED (R418). -/
def OuterGroup.reg (x : OuterGroup) (i : Nat) : Nat :=
  match i with
  | 0 => packBits [(0, 1), (1, b2n (smapFind x.slots 0).isSome), (2, b2n (smapFind x.slots 1).isSome), (3, x.landing.length),
      (7, b2n x.dupSeen), (8, b2n x.staleSeen), (9, b2n x.foldSeen), (10, b2n x.nonfin)]
  | 1 => x.base
  | 2 => packBits [(0, x.folds), (16, x.skips)]
  | _ => x.applied

/-- The UPD sub-block of a field, from its own base (R527). -/
def State.updReg (s : State) (f o : Nat) : Nat :=
  let d := s.fld f
  if o < 0x1000 then match s.group f (o / 16) with | some g => g.stat (s.emissionOut g.p) (o % 16 / 4) | none => 0
  else if o < 0x1800 then match s.group f ((o - 0x1000) / 8) with | some g => g.tierReg s.bcn.step (o % 8 / 4) | none => 0
  else if o < 0x1C00 then match s.group f ((o - 0x1800) / 4) with | some g => g.ucount | none => 0
  else if o = 0x1C00 then packBits [(0, b2n d.sweeping.isSome), (1, b2n (d.groups.any (fun g => g.2.borrows))), (2, b2n d.normWait),
    (3, b2n d.refresh), (4, b2n d.nfskip)]
  else if o = 0x1C04 then d.norm.toNat
  else if o = 0x1C08 then d.clipf.toNat
  else if o = 0x1C0C then d.skips
  else if 0x1C20 ≤ o && o < 0x1C40 then (d.scal.getD ((o - 0x1C20) / 4) 0).toNat
  else if 0x2000 ≤ o && o < 0x3000 then
    match s.group f ((o - 0x2000) / 16) with
    | some g => (match g.outer with | some x => x.reg (o % 16 / 4) | none => 0)
    | none => 0
  else 0

/-- What a group counts as: its last sample, or 100 °C after three that were not delivered, in quarters of a degree (R233). -/
def Sensor.reads (x : Sensor) : Nat := if 3 ≤ x.missed then 400 else x.temp

/-- The STK and CHN registers of a field, from the field block's base (R527). Of groups that read the same temperature, HOTTEST names the lowest (R234;
DESIGN CHOICE, assumption 130). -/
def State.stkReg (s : State) (f o : Nat) : Nat :=
  let k := (s.fld f).stack
  if o = 0x8000 then s.fuseChans f
  else if o = 0x8004 then k.blobMap
  else if o = 0x8008 then k.trainMap
  else if o = 0x800C then k.lost
  else if o = 0x8010 then packBits [(0, k.good.length), (8, 4 * k.good.length)]
  else if o = 0x8014 then packBits [(0, k.opceil), (10, s.ceiling f)]
  else if o = 0x8018 then packBits [(0, k.sill), (2, b2n k.warmSeen), (3, b2n k.hotSeen), (4, b2n k.critSeen), (5, b2n k.sensorBad),
    (6, b2n s.power.thermtrip), (8, ((List.range 8).foldl (fun b j =>
      if (k.sensors.getD b {}).reads < (k.sensors.getD j {}).reads then j else b) 0))]
  else if 0x8020 ≤ o && o < 0x8034 then
    let r := k.rates.getD ((o - 0x8020) / 4) { rate := 0 }
    packBits [(0, r.rate), (10, b2n r.borrow), (16, r.burst)]
  else if 0x8040 ≤ o && o < 0x8060 then
    let x := k.sensors.getD ((o - 0x8040) / 4) {}
    packBits [(0, x.temp), (11, b2n x.valid)]
  else if 0x9000 ≤ o && o < 0x9200 then
    let n := (o - 0x9000) / 16
    let c := smapGet ({} : Channel) k.chans n
    match o % 16 / 4 with
    | 0 => packBits [(0, k.chanState n), (2, b2n c.ceSeen), (3, b2n c.ueSeen), (4, b2n c.capar)]
    | 1 => c.ce
    | 2 => c.ue
    | _ => c.ueAddr
  else if 0x9200 ≤ o && o < 0x9400 then
    let c := smapGet ({} : Channel) k.chans ((o - 0x9200) / 16)
    match o % 16 / 4 with
    | 0 => packBits [(0, b2n c.run.isSome), (1, b2n c.tgDone), (2, b2n c.tgFail), (3, b2n c.tgErrsat)]
    | 1 => c.tgErrs
    | 2 => c.tgFail0
    | _ => c.tgFail1
  else 0

/-- FLD_STEER_SLOT (R157). -/
def SteerSlot.reg (x : SteerSlot) : Nat :=
  packBits [(0, x.rung), (2, x.minRung), (4, x.maxRung), (6, b2n x.enable), (7, b2n x.pinned), (8, x.pendRung), (10, b2n x.pending),
    (11, b2n x.changed)]

/-- A field block (R527). -/
def State.fldReg (s : State) (f o : Nat) : Nat :=
  let d := s.fld f
  if o = 0x0000 then d.slotmap
  else if o = 0x0004 then d.meter.status.toNat
  else if o = 0x0008 then packBits [(0, min d.restarts 2), (2, b2n d.fcFenced), (3, b2n d.tsUe)]
  else if o = 0x000C then packBits [(0, d.classEn), (9, b2n d.steerEn)]
  else if 0x0010 ≤ o && o ≤ 0x0020 then d.meter.ffl.word ((o - 0x0010) / 4)
  else if o = 0x0040 then packBits [(0, d.steer.window), (16, b2n d.steer.active)]
  else if o = 0x0044 then packBits [(0, d.steer.tLo), (16, d.steer.tHi)]
  else if 0x0100 ≤ o && o < 0x0200 then (smapGet ({} : SteerSlot) d.steer.slots ((o - 0x0100) / 4)).reg
  else if 0x4000 ≤ o && o < 0x8000 then s.updReg f (o - 0x4000)
  else s.stkReg f o

/-- The value of the register at an offset of the window, as a view that holds it reads it (R518, R519). -/
def State.regAt (s : State) (view o : Nat) : Nat :=
  if o < 0x100000 then
    let i := o % 0x10000
    match o / 0x10000 with
    | 0 => s.modReg view i
    | 1 => s.hstReg i
    | 2 => s.bcnReg i
    | 3 => s.flrReg i
    | 4 => s.fabReg i
    | 5 => s.lntReg i
    | 6 => s.pwrReg i
    | 7 => s.secReg i
    | 8 => if i / 0x100 < 65 then (s.chkUnit (i / 0x100)).get (i % 0x100) else 0
    | _ => 0
  else if 0x400000 ≤ o && o < 0x800000 then s.fldReg ((o - 0x400000) / 0x10000) (o % 0x10000)
  else if 0x800000 ≤ o && o < 0xC00000 then
    let t := (o - 0x800000) / 0x1000
    if s.served t then (s.tile t).reg s.reachedPoint (o % 0x1000) else 0
  else if 0x1000000 ≤ o && o < 0x1440000 then
    let n := (o - 0x1000000) / 0x1000
    let i := o % 0x1000
    if i < 0x80 then (s.physTile (n / 17) (n % 17)).reg
      (if (s.fld (n / 17)).fenced.testBit (n % 17) || (s.fld (n / 17)).fcFenced then fun _ _ => false else s.reachedPoint) i else if i = 0x100 then s.tilPhys (n / 17) (n % 17) else 0
  else 0

/-- Whether every queue that feeds a completion ring is bound to `p`, and one is (R522). -/
def State.ringFedBy (s : State) (c p : Nat) : Bool :=
  let qs := s.host.queues.filter (fun q => q.2.enabled && q.2.cq == c)
  !qs.isEmpty && qs.all (fun q => q.2.view == p)

/-- Whether a partition view holds the register at an offset (R522). -/
def State.partHolds (s : State) (p o : Nat) : Bool :=
  let train := (s.part p).train
  if (s.part p).state = 0 then false
  else if o < 0x100000 then
    let i := o % 0x10000
    match o / 0x10000 with
    | 0 => [0x000, 0x004, 0x008, 0x00C, 0x010, 0x014, 0x018, 0x038].contains i || (i == 0x100 + 8 * p || i == 0x104 + 8 * p)
        || (train && (i == 0x020 || i == 0x024))
    | 1 => (0x100 ≤ i && i < 0x300 && (s.cmdQueue (i % 0x100 / 4)).view == p)
        || (0x300 ≤ i && i < 0x400 && s.ringFedBy ((i - 0x300) / 4) p)
        || i == 0x400 + 4 * p || i == 0x480 + 4 * p || i == 0x500 + 4 * p
    | 2 => true
    | 4 => i < 0x800 && (s.part p).fports.testBit (i / 0x100)
    | 5 => (i < 0x400 && (s.part p).lports.testBit (i / 0x100)) || i == 0x800 || (train && 0x900 ≤ i && i < 0x910)
    | 8 => i / 0x100 == 1 + p
    | _ => false
  else if 0x400000 ≤ o && o < 0x800000 then
    let i := o % 0x10000
    (s.part p).holds ((o - 0x400000) / 0x10000) && i != 0x0000 && i != 0x0008 && !(0x9200 ≤ i && i < 0x9400)
  else if 0x800000 ≤ o && o < 0xC00000 then
    let t := (o - 0x800000) / 0x1000
    (s.part p).holds (t / 16) && s.served t
  else false

/-- Whether a view holds the register at an offset now; before READY the boot ROM serves only some blocks (chapter Power
states, boot and trust). -/
def State.viewHolds (s : State) (view o : Nat) : Bool :=
  let served := 8 ≤ s.power.phase || (0x10000 ≤ o && o < 0x20000) || (0x60000 ≤ o && o < 0x80000) || o == 0 || o == 8 || o == 12
  served && o % 4 == 0 && (if view = 16 then o < 0x10000000 else s.partHolds view o)

/-- A register read: zero where the view does not hold it (R451). -/
def State.readReg (s : State) (view o : Nat) : Word :=
  if s.viewHolds view o then BitVec.ofNat 32 (s.regAt view o) else 0

end Sys2Proof.Machine
end

