-- ==== Sys2Proof/Machine/CheckValue.lean ====
section
/-! DEFINITION. Machine/CheckValue.lean: the check-value units (chapter Check-value units). -/

namespace Sys2Proof.Machine

/-- One bit of the division (R555). -/
def ChkUnit.feedBit (u : ChkUnit) (b : Bool) : ChkUnit :=
  let top := Bool.xor (u.reg.testBit (u.width - 1)) b
  let r := u.reg * 2 % 2 ^ u.width
  { u with reg := if top then Nat.xor r (u.poly % 2 ^ u.width) else r }

/-- One byte, most significant bit first, after REFIN (R555). -/
def ChkUnit.feed (u : ChkUnit) (b : Byte) : ChkUnit :=
  let v := if u.refin then reflectBits 8 b.toNat else b.toNat
  [7, 6, 5, 4, 3, 2, 1, 0].foldl (fun u i => u.feedBit (v.testBit i)) u

/-- REG restarts from INIT (R556). -/
def ChkUnit.restart (u : ChkUnit) : ChkUnit := { u with reg := u.init % 2 ^ u.width }

/-- Replaces one half of a 64-bit register. -/
def setHalf (old : Nat) (hi : Bool) (v : Word) : Nat :=
  if hi then old % 2 ^ 32 + v.toNat * 2 ^ 32 else old / 2 ^ 32 * 2 ^ 32 + v.toNat

/-- A register write that takes effect now (R556, R557, R559): a data write begins to feed its bytes. -/
def ChkUnit.apply (u : ChkUnit) (o : Nat) (v : Word) : ChkUnit :=
  let n := v.toNat
  if o = 0x00 then
    let w := n % 128
    if w = 0 || 64 < w then { u with badcfg := true }
    else ChkUnit.restart { u with width := w, refin := n.testBit 7, refout := n.testBit 8 }
  else if o = 0x04 then (if n.testBit 0 then u.restart else u)
  else if o = 0x08 then (if n.testBit 1 then { u with badcfg := false } else u)
  else if o = 0x10 || o = 0x14 then ChkUnit.restart { u with poly := setHalf u.poly (o == 0x14) v }
  else if o = 0x18 || o = 0x1C then ChkUnit.restart { u with init := setHalf u.init (o == 0x1C) v }
  else if o = 0x20 || o = 0x24 then ChkUnit.restart { u with xorout := setHalf u.xorout (o == 0x24) v }
  else if o = 0x30 then { u with feeding := leBytes 1 n }
  else if o = 0x34 then { u with feeding := leBytes 2 n }
  else if o = 0x38 then { u with feeding := leBytes 4 n }
  else u

/-- Whether a unit is busy or holds a write (R557, R558). -/
def ChkUnit.busy (u : ChkUnit) : Bool := !(u.feeding.isEmpty && u.held.isEmpty)

/-- A register write: held while the unit is busy, in arrival order (R558). -/
def ChkUnit.write (u : ChkUnit) (o : Nat) (v : Word) : ChkUnit :=
  if u.busy then { u with held := u.held ++ [(o, v)] } else u.apply o v

/-- Held writes take effect in order until one begins to feed (R558). Behind a held write of an illegal CHK_CFG a write that clears BADCFG acts
in its turn of the same order, so the bit ends clear (R7, R559, R563; DESIGN CHOICE, assumption 101). -/
def ChkUnit.release (u : ChkUnit) : List (Nat × Word) → ChkUnit
  | [] => { u with held := [] }
  | w :: ws =>
    let u1 := u.apply w.1 w.2
    if u1.feeding.isEmpty then ChkUnit.release u1 ws else { u1 with held := ws }

/-- The end of a busy period: the bytes are fed, then the held writes follow (R557, R558). -/
def ChkUnit.feedDone (u : ChkUnit) : ChkUnit :=
  let u1 := { u.feeding.foldl ChkUnit.feed u with feeding := [] }
  u1.release u.held

/-- A read of RESULT_LO returns the result and latches RESULT_HI (R560). -/
def ChkUnit.latch (u : ChkUnit) : ChkUnit := { u with resultHi := BitVec.ofNat 32 (u.result / 2 ^ 32) }

/-- The offset of register `o` of unit `u` in the window (R519, R560). -/
def chkOffset (u o : Nat) : Nat := 0x80000 + 0x100 * u + o

/-- A write from a view to a unit's register; ignored where the view does not hold it (R451, R522). -/
def State.chkWrite (s : State) (view u o : Nat) (v : Word) : State :=
  if s.viewHolds view (chkOffset u o) then { s with chk := smapSet s.chk u ((s.chkUnit u).write o v) } else s

/-- Answers a result read (R560). -/
def State.chkAnswer (s : State) (u : Nat) (rd : Nat × Bool) : State :=
  let x := if rd.2 then s.chkUnit u else (s.chkUnit u).latch
  let o := if rd.2 then 0x44 else 0x40
  State.tell { s with chk := smapSet s.chk u x } .register (.regRead rd.1 (chkOffset u o) (BitVec.ofNat 32 (x.get o)))

/-- CHK_CFG_WRITE: sets the configuration and restarts REG, or is ignored with BADCFG (R556, R559). -/
def execChkCfgWrite (view : Fin 17) (unit : Fin 65) (value : Word) (s : State) : Host.Outcome State Fault Refusal :=
  .next (s.chkWrite view unit 0x00 value)

/-- CHK_PARAM_WRITE: register 0 to 5 is POLY_LO, POLY_HI, INIT_LO, INIT_HI, XOROUT_LO, XOROUT_HI (R556, R560). -/
def execChkParamWrite (view : Fin 17) (unit : Fin 65) (reg : Fin 6) (value : Word) (s : State) :
    Host.Outcome State Fault Refusal :=
  .next (s.chkWrite view unit (0x10 + 4 * reg) value)

/-- CHK_RESTART: a write to CHK_CTL (R556). -/
def execChkRestart (view : Fin 17) (unit : Fin 65) (value : Word) (s : State) : Host.Outcome State Fault Refusal :=
  .next (s.chkWrite view unit 0x04 value)

/-- CHK_DATA8 feeds one byte (R557). -/
def execChkData8 (view : Fin 17) (unit : Fin 65) (value : Word) (s : State) : Host.Outcome State Fault Refusal :=
  .next (s.chkWrite view unit 0x30 value)

/-- CHK_DATA16 feeds two bytes, least significant first (R557). -/
def execChkData16 (view : Fin 17) (unit : Fin 65) (value : Word) (s : State) : Host.Outcome State Fault Refusal :=
  .next (s.chkWrite view unit 0x34 value)

/-- CHK_DATA32 feeds four bytes, least significant first (R557). -/
def execChkData32 (view : Fin 17) (unit : Fin 65) (value : Word) (s : State) : Host.Outcome State Fault Refusal :=
  .next (s.chkWrite view unit 0x38 value)

/-- CHK_FEED_DONE: the bytes in hand are fed, held writes follow, and a stalled result read returns once nothing is left (R557,
R558). -/
def execChkFeedDone (unit : Fin 65) (s : State) : Host.Outcome State Fault Refusal :=
  let u := (s.chkUnit unit).feedDone
  let s1 := { s with chk := smapSet s.chk unit u }
  if u.busy then .next s1
  else .next (State.forAll { s1 with chk := smapSet s1.chk unit { u with stalled := [] } } u.stalled
    (fun s rd => s.chkAnswer unit rd))

/-- CHK_RESULT_READ: stalls while the unit is busy, otherwise returns the result; RESULT_LO latches RESULT_HI (R558, R560). -/
def execChkResultRead (view : Fin 17) (unit : Fin 65) (hi : Bool) (s : State) : Host.Outcome State Fault Refusal :=
  let o := chkOffset unit (if hi then 0x44 else 0x40)
  if !s.viewHolds view o then .next (s.tell .register (.regRead view o 0))
  else if (s.chkUnit unit).busy then
    .next { s with chk := smapModify {} s.chk unit (fun u => { u with stalled := u.stalled ++ [(view.val, hi)] }) }
  else .next (s.chkAnswer unit (view.val, hi))

end Sys2Proof.Machine
end

