-- ==== Sys2Proof/Machine/Operands.lean ====
section
/-! DEFINITION. Machine/Operands.lean: module addresses, operand vectors in the tile store, format fields and generator
lanes. -/

namespace Sys2Proof.Machine

/-- The module address of a stack offset (R18). -/
def stackAddr (f off : Nat) : Nat := f * 2 ^ 37 + off

/-- The module address of a tile-store offset (R18). -/
def tileAddr (t off : Nat) : Nat := 0x080000000000 + t * 2 ^ 26 + off

/-- The module address of a reduction-buffer offset (R18). -/
def redAddr (f off : Nat) : Nat := 0x081000000000 + f * 2 ^ 27 + off

/-- The tile-store capacity, 40 MiB. -/
def tileStoreBytes : Nat := 41943040

/-- The reduction-buffer capacity, 96 MiB. -/
def redBytes : Nat := 100663296

/-- The stack capacity, 128 GiB. -/
def stackBytes : Nat := 2 ^ 37

/-- The format of a rung (R146). -/
def rungFmt (r : Nat) : Nat :=
  match r with
  | 0 => 4
  | 1 => 3
  | 2 => 1
  | _ => 0

/-- The format code a format field names: its own code, or that of its steering slot (R146, R189). -/
def fmtOf (slotFmt : List Nat) (b : Nat) : Nat := if 128 ≤ b then slotFmt.getD (b % 64) 3 else b % 8

/-- A format field that R189 accepts. -/
def fmtFieldOk (b : Nat) : Bool := if 128 ≤ b then b < 192 else b < 8

/-- Whether a format has E8M0 block scales. -/
def isBlockFmt (fmt : Nat) : Bool := fmt == 6 || fmt == 7

/-- Whether a format's elements are integers (R33, R34). -/
def intFmt (fmt : Nat) : Bool := fmt == 5 || fmt == 7

/-- The bytes one vector of 128 elements takes (chapter The matrix pair; not used for B4 and I4). -/
def vecBytes (fmt : Nat) : Nat := 16 * fmtBits fmt

/-- The address of the scale byte of block `j` of a B4 or I4 tensor (R36). -/
def scaleAddr (base j : Nat) : Nat := base + j / 64 * 1088 + j % 64

/-- The address of element `k` of block `j` of a B4 or I4 tensor (R36). -/
def nibbleAddr (base j k : Nat) : Nat := base + j / 64 * 1088 + 64 + 16 * (j % 64) + k / 2

/-- A nibble of a byte: low for even positions. -/
def nibble (b : Byte) (k : Nat) : Nat := if k % 2 = 0 then b.toNat % 16 else b.toNat / 16

/-- The codes and scale of block `j` of a B4 or I4 tensor: each element as (scale byte, code). -/
def readBlock (mem : Memory) (base j : Nat) : List (Nat × Nat) :=
  let s := (memRead mem (scaleAddr base j)).toNat
  (List.range 32).map (fun k => (s, nibble (memRead mem (nibbleAddr base j k)) k))

/-- Element `i` of a plain format at an address. -/
def readCode (mem : Memory) (fmt base i : Nat) : Nat :=
  let n := fmtBits fmt / 8
  memReadNat mem (base + i * n) n

/-- The 128 elements of vector `m` of an operand: (scale, code) each (R36, R73, R190). -/
def readVec (mem : Memory) (fmt base stride m : Nat) : List (Nat × Nat) :=
  if isBlockFmt fmt then
    (List.range 4).flatMap (fun b => readBlock mem base (m * stride + b))
  else (List.range 128).map (fun i => (0, readCode mem fmt (base + m * stride) i))

/-- Writes the nibble of element `k` of block `j`, keeping the other nibble of its byte. -/
def writeNibble (mem : Memory) (base j k code : Nat) : Memory :=
  let a := nibbleAddr base j k
  let old := (memRead mem a).toNat
  let new := if k % 2 = 0 then old / 16 * 16 + code % 16 else old % 16 + code % 16 * 16
  memWrite mem a (BitVec.ofNat 8 new)

/-- Writes one whole scale block: scale byte and 32 codes (R38). -/
def writeBlock (mem : Memory) (base j scale : Nat) (codes : List Nat) : Memory :=
  (codes.zipIdx).foldl (fun mm p => writeNibble mm base j p.2 p.1) (memWrite mem (scaleAddr base j) (BitVec.ofNat 8 scale))

/-- Writes the codes of a plain format from an address. -/
def writeCodes (mem : Memory) (fmt base : Nat) (codes : List Nat) : Memory :=
  let n := fmtBits fmt / 8
  memWriteBytes mem base (codes.flatMap (leBytes n))

/-- Writes vector `m` of an output: the four blocks of a B4 or I4 vector, or 128 codes. -/
def writeVec (mem : Memory) (fmt base stride m : Nat) (scales codes : List Nat) : Memory :=
  if isBlockFmt fmt then
    (List.range 4).foldl
      (fun mm b => writeBlock mm base (m * stride + b) (scales.getD b 0) ((codes.drop (32 * b)).take 32)) mem
  else writeCodes mem fmt (base + m * stride) codes

/-- The padding of the last group of a B4 or I4 tensor of `n` vectors: scales 0x7F and codes 0 in every unused block (R38). -/
def padVecs (mem : Memory) (fmt base n : Nat) : Memory :=
  if isBlockFmt fmt then
    (List.range (ceilDiv n 16 * 16 - n)).foldl (fun mm i => writeVec mm fmt base 4 (n + i) (List.replicate 4 0x7F) (List.replicate 128 0)) mem
  else mem

/-! ### Generator lanes (R53 to R55) -/

/-- One advance of a xorshift lane (R53). -/
def laneNext (s : BitVec 64) : BitVec 64 :=
  let a := s ^^^ (s <<< 13)
  let b := a ^^^ (a >>> 7)
  b ^^^ (b <<< 17)

/-- The draw of an advanced lane: bits [63:48]. -/
def laneDraw (s : BitVec 64) : Nat := s.toNat / 2 ^ 48

/-- The golden-ratio constant of R55. -/
def laneGold : Nat := 0x9E3779B97F4A7C15

/-- The state a seed gives lane `i` (R55). -/
def laneSeed (seed : BitVec 64) (i : Nat) : BitVec 64 :=
  let v := seed ^^^ BitVec.ofNat 64 (i * laneGold)
  if v = 0 then BitVec.ofNat 64 laneGold else v

/-- The 128 lanes after a seed load. -/
def lanesOfSeed (seed : BitVec 64) : List (BitVec 64) := (List.range 128).map (laneSeed seed)

/-- The lanes at reset: seed 1 (R56). An empty list stands for them. -/
def lanesOr (l : List (BitVec 64)) : List (BitVec 64) := if l.isEmpty then lanesOfSeed 1 else l

/-- Every lane draws once: the draws and the lanes after. -/
def drawAll (on : Bool) (lanes : List (BitVec 64)) : List (Option Nat) × List (BitVec 64) :=
  if on then
    let l := lanes.map laneNext
    (l.map (fun s => some (laneDraw s)), l)
  else (lanes.map (fun _ => none), lanes)

/-- A converted vector: codes, block scales, the row scale of scaled I8, and the counts of each element. -/
structure ConvVec where
  codes : List Nat
  scales : List Nat
  rowScale : Option F32
  evs : List Ev
  deriving DecidableEq, Repr

/-- Converts a vector of 128 F32 results into an output format (R43 to R49). -/
def convertVec (fmt : Nat) (special scaled : Bool) (draws : List (Option Nat)) (vs : List Val) : ConvVec :=
  if isBlockFmt fmt then
    let rs := (List.range 4).map (fun b =>
      convertBlock (fmt == 7) special (fun k => (draws.getD (32 * b + k) none)) ((vs.drop (32 * b)).take 32))
    let es := rs.flatMap Prod.snd
    ⟨es.map Prod.fst, rs.map Prod.fst, none, es.map Prod.snd⟩
  else if scaled then
    let r := convertRowI8 (fun k => draws.getD k none) vs
    ⟨r.2.map Prod.fst, [], some r.1, r.2.map Prod.snd⟩
  else
    let es := vs.zipIdx.map (fun p => convertElem fmt special (draws.getD p.2 none) p.1)
    ⟨es.map Prod.fst, [], none, es.map Prod.snd⟩

/-- Counts of widened operand elements: FLUSH per element, INF of block scales (R51, R61). -/
def Meter.reads (m : Meter) (l : Locus) (evs : List Ev) : Meter :=
  let m1 := m.flushes l.tag (evs.filter (fun e => e.flush)).length
  let k := (evs.filter (fun e => e.inf)).length
  if k = 0 then m1 else (m1.add l.tag 1 k).sticky bitInf l.tag

/-- Counts a list of result elements in ascending position. -/
def Meter.vector (m : Meter) (l : Locus) (fmt : Nat) (cls : List Cls) (evs : List Ev) : Meter :=
  (cls.zipIdx).foldl (fun mm p => mm.result { l with col := p.2 } fmt p.1 (evs.getD p.2 {})) m

/-- A plain operand vector widened to F32 (R51), with the counts of its reads. -/
def readVecF32 (mem : Memory) (fmt base stride m : Nat) : List F32 × List Ev :=
  let r := (readVec mem fmt base stride m).map (fun p => readWiden fmt p.1 p.2)
  (r.map Prod.fst, r.map Prod.snd)

end Sys2Proof.Machine
end

