-- ==== Sys2Proof/Machine/RegRows.lean ====
section
/-! DEFINITION. Machine/RegRows.lean: register writes and reads that change state. -/

namespace Sys2Proof.Machine

/-- Keeps a sticky Bool unless a one is written to its bit. -/
def keepUnless (old : Bool) (v : Word) (bit : Nat) : Bool := old && !v.toNat.testBit bit

/-- The offset of a tile's register in the window (R518). -/
def tileOffset (t o : Nat) : Nat := 0x800000 + 0x1000 * t + o

/-- The offset of a field's register in the window (R518). -/
def fieldOffset (f o : Nat) : Nat := 0x400000 + 0x10000 * f + o

/-- The generator lanes load a seed; descriptors that started before keep the lanes they started with (R56, R57). -/
def TileState.loadSeed (t : TileState) (seed : BitVec 64) : TileState :=
  let live := ([0, 1, 2, 3] : List Nat).flatMap (fun q => (smapGet ({} : TileQueue) t.queues q).started.map (fun e => e.uid))
  { t with lanes := lanesOfSeed seed, seedGens := t.seedGens ++ [(live, lanesOr t.lanes)] }

/-- RNG_SEED_LOAD: a write to TIL_RNG_SEED_HI; a zero seed is ignored (R56). -/
def execRngSeedLoad (view : Fin 17) (tile : Fin 1024) (value : Word) (s : State) : Host.Outcome State Fault Refusal :=
  let t := s.tile tile
  let seed := value ++ t.seedLo
  if !s.viewHolds view (tileOffset tile 0x00C) || seed == 0 then .next s
  else .next (s.setTile tile ({ t with seedHi := value }.loadSeed seed))

/-- FFL_REARM: a write of FFL_VALID to TIL_NSTATUS or FLD_NSUMMARY; a one zeroes the locator words and re-arms (R170, R172). Ones at
other bits clear them (R166, R167). -/
def execFflRearm (view : Fin 17) (target : FflTarget) (value : Word) (s : State) : Host.Outcome State Fault Refusal :=
  match target with
  | .tile t =>
    if s.viewHolds view (tileOffset t 0x000) then .next (s.modTile t (fun x => { x with meter := x.meter.clearBits value })) else .next s
  | .field f =>
    if s.viewHolds view (fieldOffset f 0x0004) then .next (s.modMeter f (fun m => m.clearBits value)) else .next s

/-- CLR_VIOL: a write to MOD_CTRL; a one at CLR_VIOL zeroes VIOL_COUNT (R526). -/
def execClrViol (view : Fin 17) (value : Word) (s : State) : Host.Outcome State Fault Refusal :=
  if s.viewHolds view 0x03C && value.toNat.testBit 0 then .next { s with mods := { s.mods with violCount := 0 } } else .next s

/-- BCN_POS_READ: reading BCN_POS_LO latches BCN_POS_HI (R360). -/
def execBcnPosRead (view : Fin 17) (s : State) : Host.Outcome State Fault Refusal :=
  if s.viewHolds view 0x20000 then
    .next ((s.modBcn (fun b => { b with posHi := BitVec.ofNat 32 (packBits [(0, b.step / 2 ^ 32), (16, b.phase)]) })).tell .register
      (.regRead view 0x20000 (s.readReg view 0x20000)))
  else .next (s.tell .register (.regRead view 0x20000 0))

/-- W1C and RW bits of the tile block that have no behaviour of their own (R528). -/
def TileState.regWrite (t : TileState) (o : Nat) (v : Word) : TileState :=
  if o = 0x000 then { t with meter := t.meter.clearBits v }
  else if o = 0x004 then { t with semOvf := keepUnless t.semOvf v 8 }
  else if o = 0x008 then { t with seedLo := v }
  else t

/-- W1C bits of a channel (R225, R239). -/
def Channel.regWrite (c : Channel) (tg : Bool) (v : Word) : Channel :=
  if tg then
    let fail := keepUnless c.tgFail v 2
    { c with tgDone := keepUnless c.tgDone v 1, tgFail := fail, tgErrsat := keepUnless c.tgErrsat v 3 }
  else { c with ceSeen := keepUnless c.ceSeen v 2, ueSeen := keepUnless c.ueSeen v 3, capar := keepUnless c.capar v 4 }

/-- W1C bits of a stack (R234). -/
def Stack.regWrite (k : Stack) (v : Word) : Stack :=
  { k with warmSeen := keepUnless k.warmSeen v 2, hotSeen := keepUnless k.hotSeen v 3, critSeen := keepUnless k.critSeen v 4,
           sensorBad := keepUnless k.sensorBad v 5 }

/-- W1C bits of the field block (R527). -/
def State.fldWrite (s : State) (f o : Nat) (v : Word) : State :=
  if o = 0x0004 then s.modMeter f (fun m => m.clearBits v)
  else if o = 0x0008 then s.modFld f (fun d => { d with tsUe := keepUnless d.tsUe v 3 })
  else if 0x0100 ≤ o && o < 0x0200 then
    s.modFld f (fun d => { d with steer := { d.steer with
      slots := smapModify {} d.steer.slots ((o - 0x0100) / 4) (fun x => { x with changed := keepUnless x.changed v 11 }) } })
  else if 0x4000 ≤ o && o < 0x5000 && o % 16 = 0 then
    s.modGroup f ((o - 0x4000) / 16) (fun g => { g with transomWait := keepUnless g.transomWait v 5, latePut := keepUnless g.latePut v 6 })
  else if 0x5000 ≤ o && o < 0x5800 && o % 8 = 0 then
    s.modGroup f ((o - 0x5000) / 8) (fun g => { g with tierWait := keepUnless g.tierWait v 5, htErr := keepUnless g.htErr v 6 })
  else if o = 0x5C00 then s.modFld f (fun d => { d with nfskip := keepUnless d.nfskip v 4 })
  else if 0x6000 ≤ o && o < 0x7000 && o % 16 = 0 then
    s.modGroup f ((o - 0x6000) / 16) (fun g => { g with outer := g.outer.map (fun x =>
      { x with dupSeen := keepUnless x.dupSeen v 7, staleSeen := keepUnless x.staleSeen v 8, foldSeen := keepUnless x.foldSeen v 9,
               nonfin := keepUnless x.nonfin v 10 }) })
  else if o = 0x8018 then s.modFld f (fun d => { d with stack := d.stack.regWrite v })
  else if 0x9000 ≤ o && o < 0x9400 && o % 16 = 0 then
    let tg := 0x9200 ≤ o
    let c := (if tg then o - 0x9200 else o - 0x9000) / 16
    s.modFld f (fun d => { d with stack := { d.stack with chans := smapModify {} d.stack.chans c (fun x => x.regWrite tg v) } })
  else s

/-- W1C bits of FAB_FLOW_ERR (R333). -/
def Fabric.clearErr (f : Fabric) (v : Word) : Fabric :=
  { f with retxSeen := keepUnless f.retxSeen v 0, failSeen := keepUnless f.failSeen v 1, staleSeen := keepUnless f.staleSeen v 2,
           unreachSeen := keepUnless f.unreachSeen v 3 }

/-- W1C and RW bits of the module blocks that have no behaviour of their own (R523, R494, R530, R360, R361, R332, R333, R391, R419, R552,
R560). -/
def State.blockWrite (s : State) (view blk i : Nat) (v : Word) : State :=
  match blk with
  | 0 =>
    if i = 0x020 then { s with mods := { s.mods with fault := w1c s.mods.fault v 0x7F } }
    else if i = 0x034 then { s with mods := { s.mods with violLast := w1c s.mods.violLast v 0x8000 } }
    else if 0x100 ≤ i && i < 0x180 && i % 8 = 4 then
      s.modPart ((i - 0x100) / 8) (fun p => { p with cutSeen := keepUnless p.cutSeen v 15 })
    else s
  | 1 =>
    if i = 0x000 then s.modHost (fun h => { h with downSeen := keepUnless h.downSeen v 2, xfailSeen := keepUnless h.xfailSeen v 3 })
    else if 0x100 ≤ i && i < 0x200 then
      s.modQueue ((i - 0x100) / 4) (fun q => { q with dbErr := keepUnless q.dbErr v 17, seqErr := keepUnless q.seqErr v 18,
                                                      ringErr := keepUnless q.ringErr v 19 })
    else if 0x400 ≤ i && i < 0x444 then
      s.modEring ((i - 0x400) / 4) (fun e => { e with ringErr := keepUnless e.ringErr v 1, dropSeen := keepUnless e.dropSeen v 2 })
    else if 0x600 ≤ i && i < 0x700 then
      s.modCring ((i - 0x600) / 4) (fun c => { c with ringErr := keepUnless c.ringErr v 1, dbErr := keepUnless c.dbErr v 2 })
    else s
  | 2 =>
    if i = 0x008 then s.modBcn (fun b => { b with overdue := keepUnless b.overdue v 5, abortSeen := keepUnless b.abortSeen v 6 }) else s
  | 3 =>
    if i = 0x000 then s.modBcn (fun b => { b with reissueSeen := keepUnless b.reissueSeen v 10, staleSeen := keepUnless b.staleSeen v 11 })
    else s
  | 4 =>
    if i < 0x800 then
      (if i % 0x100 = 0 then s.modPort (i / 0x100) (fun p =>
        { p with downSeen := keepUnless p.downSeen v 4, replaySeen := keepUnless p.replaySeen v 5,
                 fenceSeen := keepUnless p.fenceSeen v 6, refuseSeen := keepUnless p.refuseSeen v 7 }) else s)
    else if i = 0x804 then { s with fab := s.fab.clearErr v }
    else if i = 0x808 then { s with fab := { s.fab with retrySeen := keepUnless s.fab.retrySeen v 16, resfault := keepUnless s.fab.resfault v 17 } }
    else s
  | 5 =>
    if i < 0x400 then
      (if i % 0x100 = 0 then s.modLport (i / 0x100) (fun p =>
        { p with pathchg := keepUnless p.pathchg v 3, darkSeen := keepUnless p.darkSeen v 4, refuseSeen := keepUnless p.refuseSeen v 5,
                 staleSeen := keepUnless p.staleSeen v 6, crc64Seen := keepUnless p.crc64Seen v 7, losSeen := keepUnless p.losSeen v 8 }) else s)
    else if i = 0x900 then s.modOuter (fun x => { x with holdSeen := keepUnless x.holdSeen v 3, rejoinSeen := keepUnless x.rejoinSeen v 4 })
    else s
  | 7 =>
    if s.power.phase != 1 then s
    else if i = 0x00 then { s with sec := { s.sec with addrLo := v } }
    else if i = 0x04 then { s with sec := { s.sec with addrHi := v } }
    else if i = 0x08 then { s with sec := { s.sec with len := v } }
    else s
  | 8 => if i % 0x100 = 0x08 then s.chkWrite view (i / 0x100) 0x08 v else s
  | _ => s

/-- REGISTER_WRITE: sets RW fields and clears W1C bits of a register without behaviour of its own; ignored where the view does not
hold the register, and at a physical-tile block (R7, R451, R521, R529). -/
def execRegisterWrite (view : Fin 17) (off : Nat) (value : Word) (s : State) : Host.Outcome State Fault Refusal :=
  if !s.viewHolds view off then .next s
  else if off < 0x100000 then .next (s.blockWrite view (off / 0x10000) (off % 0x10000) value)
  else if 0x400000 ≤ off && off < 0x800000 then .next (s.fldWrite ((off - 0x400000) / 0x10000) (off % 0x10000) value)
  else if 0x800000 ≤ off && off < 0xC00000 then
    let t := (off - 0x800000) / 0x1000
    if s.served t then .next (s.modTile t (fun x => x.regWrite (off % 0x1000) value)) else .next s
  else .next s

end Sys2Proof.Machine
end

