-- ==== Sys2Proof/Machine/Boot.lean ====
section
/-! DEFINITION. Machine/Boot.lean: the attestation log, the configuration blob, port roles, and what reset, OFF and RETAIN leave. -/

namespace Sys2Proof.Machine

/-! ### The attestation log (R550) -/

/-- One measurement: C is extended, and an entry stored while there is room. -/
def State.measure (s : State) (typ : Nat) (digest : List Byte) : State :=
  let c := s.sec
  let chain := Config.sha384 (padTo 48 c.chain ++ digest)
  let entry := leBytes 2 c.entries.length ++ leBytes 2 typ ++ leBytes 4 0
    ++ leBytes 8 (if s.bcn.siteValid then s.bcn.siteTime else 0) ++ padTo 48 digest
  let full := 64 ≤ c.entries.length
  { s with sec := { c with chain := chain, count := c.count + 1, full := c.full || full,
                           entries := if full then c.entries else c.entries ++ [entry] } }

/-! ### The configuration blob (R544) -/

/-- The bytes of the blob's sections, before padding. -/
def blobSize (nmap ntrust nmeas : Nat) : Nat := 336 + 8 * nmap + 48 * ntrust + 48 * nmeas

/-- Checks that bytes are zero, each at its own offset. -/
def zeroBytes (bs : List Byte) (lo hi : Nat) : List (Nat × Bool) :=
  (List.range (hi - lo)).map (fun i => (lo + i, bs.getD (lo + i) 0 == 0))

/-- The members whose id is MODULE_ID. -/
def selfMembers (bs : List Byte) (nmap : Nat) : List Nat :=
  (List.range nmap).filter (fun i => bytesAt bs (336 + 8 * i) 2 == bytesAt bs 6 2)

/-- The rulings of the blob in byte order: offset and whether it holds. `maps` is the map-out section that a blob after RETAIN must
repeat (R545). -/
def blobChecks (bs : List Byte) (maps : Option (List Byte)) : List (Nat × Bool) :=
  let nmap := bytesAt bs 16 2
  let ntrust := bytesAt bs 18 2
  let nmeas := bytesAt bs 20 1
  let size := blobSize nmap ntrust nmeas
  [(0, bytesAt bs 0 4 == 0x31425844), (4, bytesAt bs 4 2 == 1), (6, decide (bytesAt bs 6 2 ≤ 1023)), (8, decide (bytesAt bs 8 1 ≤ 15))]
  ++ zeroBytes bs 9 12
  ++ [(16, 1 ≤ nmap && nmap ≤ 1024 && bs.length == alignUp 64 size), (18, decide (ntrust ≤ 4096)), (20, decide (nmeas ≤ 8))]
  ++ zeroBytes bs 21 64
  ++ [(64, match maps with | some m => decide ((bs.drop 64).take 256 = m) | none => true)]
  ++ [(320, 1 ≤ bytesAt bs 320 1 && bytesAt bs 320 1 ≤ 16), (321, 1 ≤ bytesAt bs 321 1 && bytesAt bs 321 1 ≤ 16),
      (322, 1 ≤ bytesAt bs 322 1 && bytesAt bs 322 1 ≤ 16), (323, decide (bytesAt bs 323 1 ≤ 7)), (324, decide (bytesAt bs 324 1 ≤ 3)),
      (325, decide (bytesAt bs 325 1 ≤ 3)), (326, decide (bytesAt bs 326 2 ≤ 1023)), (328, decide (bytesAt bs 328 1 ≤ 1))]
  ++ zeroBytes bs 329 336
  ++ (List.range nmap).flatMap (fun i =>
      let o := 336 + 8 * i
      let mine := selfMembers bs nmap
      [(o, bytesAt bs o 2 ≤ 1023 && !(mine.drop 1).contains i && !(mine.isEmpty && i + 1 == nmap))] ++ zeroBytes bs (o + 5) (o + 8))
  ++ zeroBytes bs size (alignUp 64 size)

/-- The first ruling that the blob breaks. -/
def blobFail (bs : List Byte) (maps : Option (List Byte)) : Option Nat :=
  ((blobChecks bs maps).find? (fun c => !c.2)).map (fun c => c.1)

/-- What a blob gives. -/
def parseBlob (bs : List Byte) : Blob :=
  let nmap := bytesAt bs 16 2
  let ntrust := bytesAt bs 18 2
  let nmeas := bytesAt bs 20 1
  let t0 := 336 + 8 * nmap
  { fedTag := bytesAt bs 12 4
    mapouts := (List.range 64).map (fun f => (f, bytesAt bs (64 + 4 * f) 4))
    mapBytes := (bs.drop 64).take 256
    dimX := bytesAt bs 320 1, dimY := bytesAt bs 321 1, dimZ := bytesAt bs 322 1, wrap := bytesAt bs 323 1
    exp6 := bytesAt bs 324 1, exp7 := bytesAt bs 325 1, keeper := bytesAt bs 326 2, mode := bytesAt bs 328 1
    members := (List.range nmap).map (fun i =>
      let o := 336 + 8 * i
      { id := bytesAt bs o 2, x := bytesAt bs (o + 2) 1, y := bytesAt bs (o + 3) 1, z := bytesAt bs (o + 4) 1 })
    trust := (List.range ntrust).map (fun i => (bs.drop (t0 + 48 * i)).take 48)
    meas := (List.range nmeas).map (fun i => (bs.drop (t0 + 48 * ntrust + 48 * i)).take 48) }

/-! ### The island's shape (R307, R318) -/

/-- The size of dimension 0, 1 or 2. -/
def Blob.dim (b : Blob) (d : Nat) : Nat := match d with | 0 => b.dimX | 1 => b.dimY | _ => b.dimZ

/-- Whether a dimension wraps. -/
def Blob.wraps (b : Blob) (d : Nat) : Bool := b.wrap.testBit d

/-- A member's coordinate in a dimension. -/
def MapMember.coord (m : MapMember) (d : Nat) : Nat := match d with | 0 => m.x | 1 => m.y | _ => m.z

/-- The member with a module id. -/
def Blob.member (b : Blob) (id : Nat) : Option MapMember := b.members.find? (fun m => m.id == id)

/-- The member at coordinates. -/
def Blob.memberAt (b : Blob) (x y z : Nat) : Option MapMember := b.members.find? (fun m => m.x == x && m.y == y && m.z == z)

/-- The dimension of an express port as 0, 1 or 2. -/
def Blob.expressDim (b : Blob) (p : Nat) : Option Nat :=
  let v := if p = 6 then b.exp6 else if p = 7 then b.exp7 else 0
  if v = 0 then none else some (v - 1)

/-- The neighbour that the shape names at a port of a member, and the port at its end (R307). -/
def Blob.neighbour (b : Blob) (m : MapMember) (p : Nat) : Option (MapMember × Nat) :=
  let at_ := fun (d c : Nat) => match d with
    | 0 => b.memberAt c m.y m.z
    | 1 => b.memberAt m.x c m.z
    | _ => b.memberAt m.x m.y c
  if p < 6 then
    let d := p / 2
    let n := b.dim d
    let c := m.coord d
    if n ≤ 1 then none
    else if p % 2 = 0 then
      (if c + 1 < n then at_ d (c + 1) else if b.wraps d then at_ d 0 else none).map (fun x => (x, p + 1))
    else
      (if 0 < c then at_ d (c - 1) else if b.wraps d then at_ d (n - 1) else none).map (fun x => (x, p - 1))
  else match b.expressDim p with
    | some d =>
      let n := b.dim d
      if n < 4 || n % 2 = 1 then none else (at_ d ((m.coord d + n / 2) % n)).map (fun x => (x, p))
    | none => none

/-- Whether the map is legal (R318). -/
def Blob.legal (b : Blob) : Bool :=
  decide (b.dimX * b.dimY * b.dimZ ≤ 1024) && b.members.all (fun m => m.x < b.dimX && m.y < b.dimY && m.z < b.dimZ)
    && decide ((b.members.map (fun m => (m.x, m.y, m.z))).Nodup)
    && ([6, 7] : List Nat).all (fun p => match b.expressDim p with
      | some d => b.wraps d && 4 ≤ b.dim d && b.dim d % 2 == 0
      | none => true)

/-- Ports with a role leave DOWN when the module is placed (R23, R313). -/
def State.trainPorts (s : State) : State :=
  match s.blob.member s.place.moduleId with
  | some m => s.forAll (List.range 8) (fun s p =>
      if (s.blob.neighbour m p).isSome && (s.port p).state = 0 then s.modPort p (fun x => { x with state := 1 }) else s)
  | none => s

/-- Whether a lantern port may leave DOWN (R364). -/
def State.lportReady (s : State) (p : Nat) : Bool :=
  let x := s.lport p
  s.place.placed && x.present && x.configured && (List.range 16).any (fun q => (s.part q).state != 0 && (s.part q).lports.testBit p)

/-- A port enters TRAIN: its link is to be trained and the optics data path brought up, which the module's one write to the data path controls
asks for (R363, R364). -/
def State.trainLport (s : State) (p : Nat) : State := (s.modLport p (fun x => { x with state := 1, linked := false })).emit (.dataPath p true)

/-- A lantern port leaves DOWN for TRAIN when nothing keeps it there (R364). -/
def State.wakeLport (s : State) (p : Nat) : State :=
  if (s.lport p).state = 0 && s.lportReady p then s.trainLport p else s

/-- Applies an accepted blob (R544, R545): placement, island map, keeper; map-outs only in a boot. -/
def State.acceptBlob (s : State) (bytes : List Byte) : State :=
  let b := parseBlob bytes
  let boot := s.power.phase = 4
  let s1 := { s with blob := b, place := { s.place with moduleId := bytesAt bytes 6 2, islandId := bytesAt bytes 8 1, placed := true } }
  let s2 := s1.modBcn (fun x => { x with keeperId := b.keeper, ext := b.mode == 1 })
  let s3 := if boot then
      { (s2.forAll (List.range 64) (fun s f => s.modFld f (fun d => { d with stack := { d.stack with blobMap := smapGet 0 b.mapouts f } })))
        with power := { s.power with phase := 5 } }
    else s2
  let s4 := (s3.measure 4 (Config.sha384 bytes)).trainPorts
  s4.forAll (List.range 4) (fun s p => s.wakeLport p)

/-! ### Reset, OFF and RETAIN -/

/-- The slot map that fuses give a field at boot (R12, R15, R16): fenced slots, the spare on the lowest fenced active slot. -/
def fieldAtBoot (mask : Nat) : Field :=
  let bad := (List.range 16).filter (fun i => mask.testBit i)
  match bad with
  | [] => { fenced := mask % 2 ^ 17 }
  | i :: _ => if mask.testBit 16 then { fenced := mask % 2 ^ 17 }
    else { fenced := mask % 2 ^ 17, spareFor := i, spareUsed := true, factory := true }

/-- What reset leaves (R532, R562 and the reset rules of every chapter): fuses, rails and pins stay; stack contents stay while their
rail is on. -/
def State.afterReset (s : State) : State :=
  { State.reset with
    mem := s.mem.filter (fun c => decide (c.1 < 2 ^ 43)), hostMem := s.hostMem, fuses := s.fuses,
    fields := s.fuses.tileOut.map (fun p => (p.1, fieldAtBoot p.2)),
    power := { s.power with state := 0, phase := 0, req := none, railoffOk := false },
    lnt := s.lnt.map (fun p => (p.1, { ({} : LntPort) with present := p.2.present })),
    outbox := s.outbox, fresh := s.fresh, pending := s.pending }

/-- What OFF leaves: only the fuses (R536). -/
def State.afterOff (s : State) : State :=
  { State.reset with
    hostMem := s.hostMem, fuses := s.fuses,
    fields := s.fuses.tileOut.map (fun p => (p.1, fieldAtBoot p.2)),
    power := { on := false, penCtl := false, penDram := false, penCore := false, pgCtl := false, pgDram := false, pgCore := false },
    lnt := s.lnt.map (fun p => (p.1, { ({} : LntPort) with present := p.2.present })),
    outbox := s.outbox, fresh := s.fresh, pending := s.pending }

/-- A stack in RETAIN: its interleave list and map-outs stand (R215, R538). One in test mode leaves it without a zeroise, as RETAIN keeps what the
stacks hold (R241, R536; DESIGN CHOICE, assumption 128). -/
def Stack.retain (k : Stack) : Stack := { good := k.good, blobMap := k.blobMap, trainMap := k.trainMap, lost := k.lost }

/-- A field in RETAIN: slot map, fenced units and frozen registers stand (R443, R532, R536). -/
def Field.retain (d : Field) : Field :=
  { spareFor := d.spareFor, spareUsed := d.spareUsed, factory := d.factory, fenced := d.fenced, gone := d.gone, restarts := d.restarts,
    fcFenced := d.fcFenced, tsUe := d.tsUe, testFailed := d.testFailed, frozen := d.frozen, stack := d.stack.retain }

/-- What a transition to RETAIN leaves (R536, R538). -/
def State.afterRetain (s : State) : State :=
  { s with
    mem := s.mem.filter (fun c => decide (c.1 < 2 ^ 43)), shutters := [], heirs := [], tiles := [],
    fields := smapMap (fun _ d => d.retain) s.fields, acts := [],
    fab := { lanes := s.fab.lanes }, lnt := s.lnt.map (fun p => (p.1, { ({} : LntPort) with present := p.2.present })), outer := {},
    bcn := { limit := s.bcn.limit }, mods := { s.mods with fault := 0, faultField := 0 },
    place := {}, blob := { mapouts := s.blob.mapouts, mapBytes := s.blob.mapBytes } }

end Sys2Proof.Machine
end

