-- ==== Sys2Proof/Machine/CmdModule.lean ====
section
/-! DEFINITION. Machine/CmdModule.lean: checks and effects of the module control, partition and memory commands (groups 0x00xx, 0x01xx
without the shutter, 0x02xx without bulk moves and activation entries). -/

namespace Sys2Proof.Machine

/-- The commands of a queue whose completion has not been posted. -/
def State.outOf (s : State) (q : Nat) : List OutCmd := s.host.cmds.filter (fun c => c.hdr.queue.val == q && !c.posted)

/-- Whether a queue holds an unread or outstanding command; the command in hand is not yet among them. -/
def State.queueBusy (s : State) (q : Nat) : Bool := (s.cmdQueue q).head != (s.cmdQueue q).tail || !(s.outOf q).isEmpty

/-- Whether a command that has not completed meets a test on its opcode. -/
def State.anyOutstanding (s : State) (test : OutCmd → Bool) : Bool := s.host.cmds.any (fun c => !c.posted && c.phase != .done && test c)

/-! ### 0x00xx (R505) -/

/-- NOP: completes when it starts. -/
def startNop (s : State) (uid : Nat) : State := s.finish uid stDone []

/-- CONFIG: BLOB and BYTES. -/
def checksConfig (s : State) (p : BufP) : List Check :=
  ckBuf 0x0001 0 p ++ [ckValue (p.len ≤ 2 ^ 20) (fieldOff 0x0001 1), ckState (!s.place.placed) stAlready 0,
    ckState (s.power.phase = 4 || 8 ≤ s.power.phase) stState 0]

/-- CONFIG: the blob is read, checked and accepted (R544, R545). -/
def startConfig (s : State) (uid : Nat) (p : BufP) (feed : Feed) : State :=
  if p.len = 0 then s.finish uid stDone []
  else
    let bytes := padTo p.len feed.data
    match blobFail bytes (if s.power.phase = 4 then none else some s.blob.mapBytes) with
    | some o => (s.finish uid stValue [o]).modCmd uid (fun c => { c with detail := detailOf (fieldOff 0x0001 0) 0 })
    | none => (s.acceptBlob bytes).finish uid stDone []

/-- INVENTORY. -/
def checksInventory (p : BufP) : List Check := ckBuf 0x0002 0 p

/-- A field's record of the inventory (R547). -/
def State.inventoryRec (s : State) (f : Nat) : List Byte :=
  let d := s.fld f
  let mapped := packBits (((List.range 32).filter (fun c => !d.stack.good.contains c)).map (fun c => (c, 1)))
  leBytes 4 d.slotmap ++ leBytes 4 mapped ++ leBytes 4 d.stack.trainMap
    ++ leBytes 4 (packBits [(0, d.stack.good.length), (6, b2n d.fcFenced), (7, min d.testFailed 17)])

/-- The number of channels in a state, over the module. -/
def State.countChans (s : State) (st : Nat) : Nat :=
  (List.range 64).foldl (fun a f => a + ((List.range 32).filter (fun c => (s.fld f).stack.chanState c == st)).length) 0

/-- The logical slots the module presents. -/
def State.slotsAll (s : State) : Nat := (List.range 64).foldl (fun a f => a + (s.fld f).slots.length) 0

/-- The spares that serve a slot. -/
def State.sparesUsed (s : State) : Nat := ((List.range 64).filter (fun f => (s.fld f).spareUsed)).length

/-- INVENTORY: result words and the map in RBUF (R505, R547). -/
def startInventory (s : State) (uid : Nat) (p : BufP) : State :=
  let full := ((List.range 64).filter (fun f => (s.fld f).slots.length == 16)).length
  let bytes := leBytes 4 s.slotsAll ++ leBytes 4 s.sparesUsed ++ leBytes 4 full ++ leBytes 4 1040
    ++ (List.range 64).flatMap s.inventoryRec
  (s.writeResult p bytes).finish uid stDone [s.slotsAll, s.sparesUsed, s.countChans 0, s.countChans 1]

/-- Whether the condition for PARK of R537 turns a transition away. -/
def State.parkBusy (s : State) : Bool :=
  s.anyOutstanding (fun c => [1, 3, 5, 7, 10].contains (opcodeOf c.body / 256)) || (s.trainPart.isSome && s.lineRuns)

/-- Whether POWER to a state may run (R537). -/
def State.powerOk (s : State) (st : Nat) : Bool :=
  s.power.req.isNone && !(s.anyOutstanding (fun c => opcodeOf c.body == 0x0003)) &&
  match s.power.state, st with
  | 1, 1 => !s.parkBusy
  | 2, 0 => true
  | 1, 2 | 2, 2 => !s.anyOutstanding (fun _ => true) && !(List.range 16).any (fun p => (s.part p).state == 3) && !s.parkBusy
  | 3, 0 => s.power.pgCore
  | _, _ => false

/-- POWER. -/
def checksPower (s : State) (st : Nat) : List Check :=
  [ckValue (st ≤ 2) (fieldOff 0x0003 0), ckState (2 < st || s.powerOk st) stState 0]

/-- POWER: the transition begins; it completes at POWER_STATE_REACHED (R537). -/
def startPower (s : State) (uid st : Nat) : State :=
  { s with power := { s.power with req := some (if st = 0 then 1 else st + 1, uid) } }

/-- The rulings that the three ring commands share: BASE a multiple of 4 KiB at a host-tier address (R477). -/
def ckRing (op iBase iLog minLog : Nat) (base log entry : Nat) : List Check :=
  [ckAlign (base % 4096 == 0) (fieldOff op iBase), ckValue (hostAddrStatus base (2 ^ log * entry) != some stValue) (fieldOff op iBase),
   ckTarget (log == 0 || hostAddrStatus base (2 ^ log * entry) != some stTarget) (fieldOff op iBase),
   ckValue (log == 0 || (minLog ≤ log && log ≤ 16)) (fieldOff op iLog)]

/-- QUEUE_SETUP. -/
def checksQueueSetup (s : State) (p : QueueSetupP) : List Check :=
  ckRing 0x0010 1 2 10 p.base p.log 64 ++
  [ckValue (1 ≤ p.q && p.q ≤ 63) (fieldOff 0x0010 0), ckValue (p.cq ≤ 63) (fieldOff 0x0010 3), ckValue (p.seq0 < 2 ^ 32) (fieldOff 0x0010 4),
   ckValue (p.log != 0 || p.base == 0) (fieldOff 0x0010 1), ckValue (p.log != 0 || p.cq == 0) (fieldOff 0x0010 3),
   ckValue (p.log != 0 || p.seq0 == 0) (fieldOff 0x0010 4),
   ckTarget (p.log == 0 || (smapGet ({} : CRing) s.host.crings p.cq).enabled) (fieldOff 0x0010 3),
   ckState (!s.queueBusy p.q) stState (fieldOff 0x0010 0)]

/-- QUEUE_SETUP: sets a queue up from its first entry, or disables it; its binding stays (R449, R477, R482). -/
def startQueueSetup (s : State) (uid : Nat) (p : QueueSetupP) : State :=
  (s.modQueue p.q (fun q =>
    let keep : CmdQueue := { view := q.view, dbErr := q.dbErr, seqErr := q.seqErr, ringErr := q.ringErr }
    if p.log = 0 then keep
    else { keep with base := p.base, log := p.log, cq := p.cq, seq := p.seq0, enabled := true })).finish uid
      stDone []

/-- CRING_SETUP. -/
def checksCring (s : State) (p : RingP) : List Check :=
  ckRing 0x0011 1 2 8 p.base p.log 32 ++
  [ckValue (1 ≤ p.ring && p.ring ≤ 63) (fieldOff 0x0011 0), ckValue (p.vec ≤ 255) (fieldOff 0x0011 3),
   ckValue (p.log != 0 || p.base == 0) (fieldOff 0x0011 1), ckValue (p.log != 0 || p.vec == 0) (fieldOff 0x0011 3),
   ckState (!(s.host.queues.any (fun q => q.2.cq == p.ring && q.1 != 0 && !(s.outOf q.1).isEmpty))) stState (fieldOff 0x0011 0)]

/-- CRING_SETUP: sets a completion ring up from entry 0 with PHASE 1, or disables it. -/
def startCring (s : State) (uid : Nat) (p : RingP) : State :=
  (s.modCring p.ring (fun r =>
    let keep : CRing := { dbErr := r.dbErr, ringErr := r.ringErr }
    if p.log = 0 then keep else { keep with base := p.base, log := p.log, vec := p.vec, enabled := true })).finish uid stDone []

/-- ERING_SETUP. -/
def checksEring (p : RingP) : List Check :=
  ckRing 0x0012 1 2 8 p.base p.log 64 ++ [ckValue (p.ring ≤ 16) (fieldOff 0x0012 0), ckValue (p.vec ≤ 255) (fieldOff 0x0012 3),
    ckValue (p.log != 0 || p.base == 0) (fieldOff 0x0012 1), ckValue (p.log != 0 || p.vec == 0) (fieldOff 0x0012 3)]

/-- ERING_SETUP: sets an event ring up from entry 0 with PHASE 1, zeroes DROPPED and clears RING_ERR (R488, R505). -/
def startEring (s : State) (uid : Nat) (p : RingP) : State :=
  (s.modEring p.ring (fun e =>
    if p.log = 0 then { ({} : ERing) with dropSeen := e.dropSeen }
    else { ({} : ERing) with dropSeen := e.dropSeen, base := p.base, log := p.log, vec := p.vec, enabled := true })).finish uid stDone []

/-! ### 0x01xx (R444 to R450, R506) -/

/-- The fields of the rectangle that another partition or test mode holds, ascending. -/
def State.takenFields (s : State) (p : PartP) : List Nat :=
  let r : Partition := { state := 1, fx0 := p.fx0, fy0 := p.fy0, w := p.w, h := p.h }
  r.fields.filter (fun f => (s.partOf f).any (fun q => q != p.pid) || (s.fld f).stack.test)

/-- PART_CREATE (R444). -/
def checksPartCreate (s : State) (p : PartP) : List Check :=
  let o := fieldOff 0x0100
  let taken := s.takenFields p
  let owned := fun (sel : Partition → Nat) (mask : Nat) => (List.range 16).any (fun q => q != p.pid && (s.part q).state != 0 && Nat.land (sel (s.part q)) mask != 0)
  [ckValue (p.pid ≤ 15) (o 0), ckValue (p.fx0 ≤ 7) (o 1), ckValue (p.fy0 ≤ 7) (o 2), ckZero (p.w != 0) (o 3), ckZero (p.h != 0) (o 4),
   ckValue (p.fx0 + p.w ≤ 8) (o 3), ckValue (p.fy0 + p.h ≤ 8) (o 4), ckValue (p.train ≤ 1) (o 5), ckValue (p.profile ≤ 3) (o 6),
   ckValue (!(p.profile == 3 && p.train == 1)) (o 6), ckValue (p.fports < 256) (o 7), ckValue (p.lports < 16) (o 8),
   { order := 11, ok := taken.isEmpty, status := stTarget, off := o 1, didx := taken.headD 0 },
   ckTarget (!owned (fun q => q.fports) p.fports) (o 7), ckTarget (!owned (fun q => q.lports) p.lports) (o 8),
   ckState ((s.part p.pid).state == 0) stAlready (o 0), ckState (p.train != 1 || s.trainPart.isNone) stAlready (o 5)]

/-- PART_CREATE: the slot becomes ACTIVE with its rectangle (R444, R445); its lantern ports may leave DOWN (R364). -/
def startPartCreate (s : State) (uid : Nat) (p : PartP) : State :=
  let s1 := s.modPart p.pid (fun _ =>
    { fx0 := p.fx0, fy0 := p.fy0, w := p.w, h := p.h, state := 1, profile := p.profile, train := p.train == 1,
      fports := p.fports, lports := p.lports })
  (s1.forAll (onesBelow 4 p.lports) (fun s q => s.wakeLport q)).finish uid stDone []

/-- PROFILE (R448). -/
def checksProfile (s : State) (pid prof : Nat) : List Check :=
  let o := fieldOff 0x0102
  [ckValue (pid ≤ 15) (o 0), ckValue (prof ≤ 3) (o 1), ckTarget ((s.part pid).state != 0) (o 0),
   ckValue (!(prof == 3 && (s.part pid).train)) (o 1)]

/-- PROFILE: in force at the next STEP_BEGIN in a training partition, at completion in any other; without effect during a
shutter (R448, R469). -/
def startProfile (s : State) (uid pid prof : Nat) : State :=
  let p := s.part pid
  let s1 := if p.state = 3 then s
    else if p.train then s.modPart pid (fun p => { p with pendProfile := some prof })
    else s.modPart pid (fun p => { p with profile := prof })
  s1.finish uid stDone []

/-- HEIR_WINDOW (R454, R506). -/
def checksHeir (s : State) (opn : Nat) (p : HeirP) : List Check :=
  let o := fieldOff 0x0104
  let used := (smapFind s.heirs p.w).isSome
  if opn = 1 then
    [ckValue (p.w ≤ 15) (o 0), ckValue (p.srcmod ≤ 1023) (o 2), ckAlign (p.base % 64 == 0) (o 3), ckAlign (p.bytes % 64 == 0) (o 4),
     ckTarget (p.bytes == 0 || (p.base + p.bytes ≤ 2 ^ 43 && s.moduleRange 16 p.base p.bytes)) (o 3),
     ckState (!used) stAlready (o 0)]
  else
    [ckValue (p.w ≤ 15) (o 0), ckValue (opn == 0) (o 1), ckValue (p.srcmod == 0) (o 2), ckValue (p.base == 0) (o 3), ckValue (p.bytes == 0) (o 4),
     ckState used stState (o 0)]

/-- HEIR_WINDOW with OPEN 1 opens a window; BYTES 0 is a no-op. -/
def startHeirOpen (s : State) (uid : Nat) (p : HeirP) : State :=
  let s1 := if p.bytes = 0 then s
    else { s with heirs := smapSet s.heirs p.w { srcmod := p.srcmod, base := p.base, bytes := p.bytes } }
  s1.finish uid stDone []

/-- HEIR_WINDOW with OPEN 0 closes a window. -/
def startHeirClose (s : State) (uid : Nat) (p : HeirP) : State := { s with heirs := smapErase s.heirs p.w }.finish uid stDone []

/-- QUEUE_BIND (R449, R477, R506). -/
def checksBind (s : State) (q view : Nat) : List Check :=
  let o := fieldOff 0x0105
  [ckValue (1 ≤ q && q ≤ 63) (o 0), ckValue (view ≤ 17) (o 1), ckTarget (16 ≤ view || (s.part view).state != 0) (o 1),
   ckState ((s.outOf q).isEmpty) stState (o 0)]

/-- QUEUE_BIND: binds a queue (R449). -/
def startBind (s : State) (uid q view : Nat) : State := (s.modQueue q (fun x => { x with view := view })).finish uid stDone []

/-! ### 0x02xx without moves and entries (R229, R225) -/

/-- The fields of the partition a command acts on: those of PART, or of the module as a whole. -/
def State.partFields (s : State) (part : Nat) : List Nat := if part = 16 then List.range 64 else (s.part part).fields

/-- Whether a stack's five RATE values stay at or below 1,000 with class `k` at `rate` (R229). -/
def Stack.rateFits (x : Stack) (k rate : Nat) : Bool :=
  decide (((x.rates.set k { rate := rate }).foldl (fun a r => a + r.rate) 0) ≤ 1000)

/-- REGULATOR (R229). -/
def checksRegulator (s : State) (part : Nat) (p : RegulatorP) : List Check :=
  let o := fieldOff 0x0201
  [ckValue (p.cls ≤ 3) (o 0), ckZero (p.burst != 0) (o 2), ckValue (p.burst ≤ 65535) (o 2), ckValue (p.borrow ≤ 1) (o 3),
   ckValue (p.rate ≤ 1000 && (s.partFields part).all (fun f => (s.fld f).stack.rateFits p.cls p.rate)) (o 1)]

/-- Sets one class of a stack. -/
def Stack.setRate (x : Stack) (k rate burst borrow : Nat) : Stack :=
  { x with rates := x.rates.set k { rate := rate, borrow := borrow == 1, burst := burst } }

/-- REGULATOR: a class bucket in every stack of the partition. -/
def startRegulator (s : State) (uid part : Nat) (p : RegulatorP) : State :=
  (s.forAll (s.partFields part) (fun s f =>
    s.modFld f (fun d => { d with stack := d.stack.setRate p.cls p.rate p.burst p.borrow }))).finish uid stDone []

/-- REGULATOR_SYS (R229). FMASK names the stacks; one outside PART is BAD_TARGET (R504). -/
def checksRegulatorSys (s : State) (part : Nat) (p : RegulatorSysP) : List Check :=
  let o := fieldOff 0x0202
  [ckZero (p.sburst != 0) (o 2), ckValue (p.sburst ≤ 65535) (o 2), ckValue (p.sborrow ≤ 1) (o 3),
   ckZero (p.opceil != 0) (o 4), ckValue (p.opceil ≤ 1000) (o 4),
   ckTarget ((onesBelow 64 p.fmask).all (fun f => s.reach part f)) (o 0),
   ckValue (p.srate ≤ 1000 && (onesBelow 64 p.fmask).all (fun f => (s.fld f).stack.rateFits 4 p.srate)) (o 1)]

/-- REGULATOR_SYS: the SYSTEM bucket and OPCEIL of the named stacks. -/
def startRegulatorSys (s : State) (uid : Nat) (p : RegulatorSysP) : State :=
  (s.forAll (onesBelow 64 p.fmask) (fun s f =>
    s.modFld f (fun d => { d with stack := { d.stack.setRate 4 p.srate p.sburst p.sborrow with opceil := p.opceil } }))).finish uid stDone []

/-- ERR_CLEAR (R504). -/
def checksErrClear (s : State) (part fmask chmask : Nat) : List Check :=
  let o := fieldOff 0x0203
  [ckTarget ((onesBelow 64 fmask).all (fun f => s.reach part f)) (o 0), ckValue (chmask < 2 ^ 32) (o 1)]

/-- ERR_CLEAR: zeroes CHN_CE_COUNT and CHN_UE_COUNT of the named channels (R225). -/
def startErrClear (s : State) (uid fmask chmask : Nat) : State :=
  (s.forAll (onesBelow 64 fmask) (fun s f => s.modFld f (fun d => { d with stack := { d.stack with
    chans := smapModifyAll {} d.stack.chans (onesBelow 32 chmask) (fun _ c => { c with ce := 0, ue := 0 }) } }))).finish uid stDone []

end Sys2Proof.Machine
end

