-- ==== Sys2Proof/Machine/Matrix.lean ====
section
/-! DEFINITION. Machine/Matrix.lean: STAGE, SWAP and PASS on the matrix pair, and arrivals into accumulator rows (chapters The
matrix pair, Accumulation and reductions). -/

namespace Sys2Proof.Machine

/-- The array a flag names: false A, true B. -/
def TileState.arr (t : TileState) (b : Bool) : ArrayState := if b then t.arrB else t.arrA

/-- Sets an array. -/
def TileState.setArr (t : TileState) (b : Bool) (a : ArrayState) : TileState :=
  if b then { t with arrB := a } else { t with arrA := a }

/-- The key of accumulator row `idx` = set × 128 + row of an array and orientation. -/
def accKey (array orient : Bool) (idx : Nat) : Nat := 2048 * b2n array + 1024 * b2n orient + idx

/-- One accumulator row. -/
def TileState.acc (t : TileState) (k : Nat) : AccRow := smapGet {} t.accs k

/-- Sets one accumulator row. -/
def TileState.setAcc (t : TileState) (k : Nat) (r : AccRow) : TileState := { t with accs := smapSet t.accs k r }

/-- The block STAGE reads (R66, R88, R192): codes row-major and its scales. -/
def stageBlock (mem : Memory) (base fmt : Nat) (d : StageD) : Block :=
  if d.diag then
    let v := readVec mem fmt base 0 0
    { tag := some ⟨fmt, true, none⟩
      codes := (List.range 16384).map (fun i => if i / 128 = i % 128 then (v.getD (i % 128) (0, 0)).2 else 0) }
  else if isBlockFmt fmt then
    { tag := some ⟨fmt, false, none⟩
      codes := (List.range 512).flatMap (fun j => (readBlock mem base j).map Prod.snd)
      scales := (List.range 512).map (fun j => (memRead mem (scaleAddr base j)).toNat) }
  else
    { tag := some ⟨fmt, false, if d.sscale then some d.sorient else none⟩
      codes := (List.range 16384).map (fun i => readCode mem fmt base i)
      scales := if d.sscale then (List.range 128).map (fun j => memReadNat mem (base + 16384 + 4 * j) 4) else [] }

/-- STAGE: the named shadows take the block; nothing else changes (R78, R81, R85). -/
def stageEffect (cx : DescCtx) (mem : Memory) (d : StageD) (t : TileState) : TileState :=
  let b := stageBlock mem (tileAddr cx.tile d.sbase) (fmtOf cx.slotFmt d.fmt) d
  let put := fun (on : Bool) (a : ArrayState) => if on then { a with shadow := b } else a
  { t with arrA := put (d.arrays.testBit 0) t.arrA, arrB := put (d.arrays.testBit 1) t.arrB }

/-- The exchange of stationary and shadow (R79). -/
def ArrayState.swap (a : ArrayState) : ArrayState := ⟨a.shadow, a.stat⟩

/-- SWAP of the named arrays. -/
def swapEffect (arrays : Nat) (t : TileState) : TileState :=
  { t with arrA := if arrays.testBit 0 then t.arrA.swap else t.arrA
           arrB := if arrays.testBit 1 then t.arrB.swap else t.arrB }

/-- Element (r, c) of a block under its tag: its value as a pass reads it and whether it was flushed (R61). -/
def Block.elem (b : Block) (r c : Nat) : Val × Bool :=
  match b.tag with
  | none => (Val.zero false, false)
  | some t =>
    let i := 128 * r + c
    readElem t.fmt (if isBlockFmt t.fmt then b.scales.getD (i / 32) 0 else 0) (b.codes.getD i 0)

/-- The stationary elements that output `j` of an orientation meets, by k (R69, R70). -/
def Block.line (b : Block) (row : Bool) (j : Nat) : List Val :=
  (List.range 128).map (fun k => (if row then b.elem j k else b.elem k j).1)

/-- Elements of a block that are read as zero. -/
def Block.flushed (b : Block) : Nat :=
  ((List.range 16384).filter (fun i => (b.elem (i / 128) (i % 128)).2)).length

/-- Whether a pass against this tag is a mismatch (R90). -/
def tagMismatch (tag : Option BlockTag) (sfmt : Nat) (ssc row : Bool) : Bool :=
  match tag with
  | none => true
  | some t =>
    t.fmt != sfmt || (t.sorient.isSome && !ssc) || (t.fmt == 5 && t.sorient.isNone && ssc)
      || (t.sorient.isSome && t.sorient != some row)

/-- The sum of two tree inputs to a 48-bit significand (R98). -/
def add48 (x y : Val) : Val :=
  match x.add y with
  | .fin n m e => let r := roundSig none 48 none m e; .fin n r.1 r.2
  | v => v

/-- The exact sum of the products (R94); it is -0 only when every product is -0 (R97). -/
def exactSum : List Val → Val
  | [] => Val.zero false
  | v :: vs => vs.foldl Val.add v

/-- A tree result: its value, and the cause when it is a NaN that no input held. -/
structure TreeRes where
  val : Val
  cause : Option Nat := none
  deriving DecidableEq, Repr

/-- Whether a product of these two is zero times infinity. -/
def zeroInf (x y : Val) : Bool := (x.isZero && y.isInf) || (x.isInf && y.isZero)

/-- One product of a tree. A product of two integer elements (I8, I4) is an integer, so its zero carries no sign (R33, R34, R50). -/
def treeProduct (ints : Bool) (x y : Val) : Val := if ints && (x.mul y).isZero then Val.zero false else x.mul y

/-- The tree of one output: exact, or the 48-bit balanced tree when a format is wide (R94, R96 to R98); `ints` when both formats hold
integers. Where a zero times an infinity and infinite products of both signs stand in one tree, the cause is the former (R173; DESIGN CHOICE,
assumption 120). -/
def treeResult (wide ints : Bool) (ws xs : List Val) : TreeRes :=
  let ps := List.zipWith (treeProduct ints) ws xs
  if ws.any Val.isNan || xs.any Val.isNan then ⟨.nan, none⟩
  else if (List.zipWith zeroInf ws xs).any id then ⟨.nan, some 1⟩
  else
    let pos := ps.any (fun p => p.isInf && !p.isNeg)
    let neg := ps.any (fun p => p.isInf && p.isNeg)
    if pos && neg then ⟨.nan, some 2⟩
    else if pos then ⟨.inf false, none⟩
    else if neg then ⟨.inf true, none⟩
    else if wide then ⟨treeFold add48 (Val.zero false) 7 ps, none⟩
    else ⟨exactSum ps, none⟩

/-- The product of a tree result with a row or vector scale, exact (R95). -/
def TreeRes.scale (t : TreeRes) (s : Val) : TreeRes :=
  if t.val.isNan then t
  else if s.isNan then ⟨.nan, none⟩
  else if zeroInf t.val s then ⟨.nan, some 1⟩
  else ⟨t.val.mul s, none⟩

/-- The square of an arrival (R110). -/
def TreeRes.square (t : TreeRes) : TreeRes := ⟨t.val.mul t.val, t.cause⟩

/-- The class of a NaN result: counted with the arrival's own cause, else as infinity minus infinity, unless an input held a
NaN. -/
def nanCls (x : TreeRes) (oldNan : Bool) : Cls :=
  if oldNan then .none
  else if x.val.isNan then (match x.cause with | some c => .invalid c | none => .none)
  else .invalid 3

/-- One SUM or SUMSQ arrival into a word (R100, R102, R103): main, wick and class. -/
def arriveSum (acc wick : Bool) (x : TreeRes) (m w : F32) : F32 × F32 × Cls :=
  let mv := f32Val m
  let v := if acc then (if wick then (mv.add (f32Val w)).add x.val else mv.add x.val) else x.val
  let r := roundF32 v
  match v with
  | .nan => (nanF32, 0, nanCls x (acc && mv.isNan))
  | .inf _ => (r, 0, .none)
  | .fin _ _ _ =>
    if !(f32IsFin r) then (r, 0, .inf)
    else
      let m' := flushF32 r
      let d := v.sub (f32Val m')
      let w' := if acc && !wick then roundF32 ((f32Val w).add d) else roundF32 d
      (m', flushF32 w', if !v.isZero && (f32Val m').isZero then .flush else .none)

/-- One MOMENTS arrival into a word (R111), `n` the count after it. A mean that is subnormal, or a nonzero first arrival that rounds
to zero, is FLUSH (R158). -/
def arriveMoments (first : Bool) (n : Nat) (x : TreeRes) (m w : F32) : F32 × F32 × Cls :=
  let y := roundF32 x.val
  let mean0 := f32Val m
  let rn := fDivNat oneF32 n
  let d := fSub y m
  let mean := if first then y else fAdd m (fMul d rn)
  let m2 := if first then 0 else fAdd w (fMul d (fSub y mean))
  let olds := if first then [] else [mean0, f32Val w]
  let cls : Cls :=
    if f32IsNan mean || f32IsNan m2 then nanCls x (olds.any Val.isNan)
    else if (!(f32IsFin mean) || !(f32IsFin m2)) && x.val.isFin && olds.all Val.isFin then .inf
    else if f32Subnormal mean || (first && !x.val.isZero && (f32Val mean).isZero) then .flush else .none
  (flushF32 mean, flushF32 m2, cls)

/-- The row count after an arrival (R99). -/
def countAfter (acc : Bool) (n : Nat) : Nat := if acc then min (n + 1) (2 ^ 24 + 1) else 1

/-- One vector's arrival into a row: the row after and each word's class (R100 to R112). `bad` is a stationary mismatch. After
a mismatch of the mode or of the operand every main word is NaN and every wick word +0 (DESIGN CHOICE, assumption 98). -/
def arriveRow (exact bad acc : Bool) (mode : AccMode) (xs : List TreeRes) (r : AccRow) : AccRow × List Cls :=
  let n := countAfter acc r.count
  let clash := acc && r.mode.isSome && r.mode != some mode
  if bad || clash then
    ({ r with count := n, mode := if acc && r.mode.isSome then r.mode else some mode
              main := List.replicate 128 nanF32, wick := [] },
     List.replicate 128 (.invalid (if bad then 5 else 6)))
  else
    let wick := exact || 4096 < n
    let ws := xs.zipIdx.map (fun p =>
      let m := r.main.getD p.2 0
      let w := r.wick.getD p.2 0
      match mode with
      | .sum => arriveSum acc wick p.1 m w
      | .sumsq => arriveSum acc wick p.1.square m w
      | .moments => arriveMoments (n == 1) n p.1 m w)
    ({ count := n, mode := some mode, main := ws.map Prod.fst, wick := ws.map (fun a => a.2.1) }, ws.map (fun a => a.2.2))

/-- Counts the words of one vector of a pass. -/
def Meter.words (m : Meter) (l : Locus) (cls : List Cls) : Meter :=
  (cls.zipIdx).foldl (fun mm p => mm.element { l with col := p.2 } p.1) m

/-- The accumulate mode of an AMODE field (R109). -/
def accMode (n : Nat) : AccMode :=
  match n with
  | 1 => .sumsq
  | 2 => .moments
  | _ => .sum

/-- A moving vector as a pass reads it: values, flushed elements (R61). -/
def movingVec (mem : Memory) (fmt base stride m : Nat) : List Val × Nat :=
  let r := (readVec mem fmt base stride m).map (fun p => readElem fmt p.1 p.2)
  (r.map Prod.fst, (r.filter (fun p => p.2)).length)

/-- One vector of one side of a pass (R83 to R112). -/
def passVector (cx : DescCtx) (mem : Memory) (array row : Bool) (paired : Bool) (kblk : Nat) (sd : PassSide) (m : Nat)
    (t : TileState) : TileState :=
  let mfmt := fmtOf cx.slotFmt sd.mfmt
  let sfmt := fmtOf cx.slotFmt sd.sfmt
  let blk := (t.arr array).stat
  let bad := tagMismatch blk.tag sfmt sd.ssc row
  let mv := movingVec mem mfmt (tileAddr cx.tile sd.mbase) sd.mstride m
  let smWord := memReadF32 mem (tileAddr cx.tile (sd.msbase + 4 * m))
  let sm := if sd.msc then readF32 smWord else oneVal
  let flushN := mv.2 + b2n (sd.msc && f32Subnormal smWord)
  let wide := wideFmt mfmt || wideFmt sfmt
  let outs := (List.range 128).map (fun j =>
    let tr := treeResult wide (intFmt mfmt && intFmt sfmt) (blk.line row j) mv.1
    let t1 := if sd.msc then tr.scale sm else tr
    if sd.ssc then t1.scale (readF32 (BitVec.ofNat 32 (blk.scales.getD j 0))) else t1)
  let idx := sd.s0 * 128 + sd.q0 + m
  let key := accKey array row idx
  let old := t.acc key
  let res := arriveRow cx.exact bad sd.acc (accMode sd.amode) outs old
  let clash := sd.acc && old.mode.isSome && old.mode != some (accMode sd.amode)
  let loc : Locus := { tile := cx.tile, array := b2n array, orient := b2n row, set := idx / 128, row := idx % 128,
                       queue := cx.queue, kblk := kblk, source := b2n paired, tag := cx.htag, step := cx.step, dseq := cx.dseq }
  let m1 := t.meter.flushes cx.htag flushN
  let m2 := if bad || clash then m1.mismatch cx.htag else m1
  let m3 := if sd.acc && old.count == 2 ^ 24 then m2.sticky bitLongsum cx.htag else m2
  { t.setAcc key res.1 with meter := m3.words loc res.2 }

/-- The flushed elements of a pass's stationary block, counted once per pass (R61). -/
def passBlockReads (cx : DescCtx) (array : Bool) (sd : PassSide) (t : TileState) : TileState :=
  let b := (t.arr array).stat
  let sc := if sd.ssc then ((b.scales.filter (fun s => f32Subnormal (BitVec.ofNat 32 s))).length) else 0
  { t with meter := t.meter.flushes cx.htag (b.flushed + sc) }

/-- PASS on one array (R83). With M = 0 nothing happens (R77). -/
def passEffect (cx : DescCtx) (mem : Memory) (d : PassD) (t : TileState) : TileState :=
  if d.m = 0 then t
  else
    let array := d.arrays == 2
    let sd := if array then d.b else d.a
    (List.range d.m).foldl (fun tt m => passVector cx mem array d.orient false d.kblk sd m tt) (passBlockReads cx array sd t)

/-- A paired pass: vector by vector, array A in the row orientation before array B in the column orientation (R86, R170). -/
def pairedEffect (cx : DescCtx) (mem : Memory) (d : PassD) (t : TileState) : TileState :=
  if d.m = 0 then t
  else
    (List.range d.m).foldl
      (fun tt m => passVector cx mem true false true d.kblk d.b m (passVector cx mem false true true d.kblk d.a m tt))
      (passBlockReads cx true d.b (passBlockReads cx false d.a t))

end Sys2Proof.Machine
end

