-- ==== Sys2Proof/Machine/Drain.lean ====
section
/-! DEFINITION. Machine/Drain.lean: reading accumulator rows, DRAIN with its histogram, softmax statistics, activation,
conversion and slope bytes (R101, R111, R114, R129, R148, R195). -/

namespace Sys2Proof.Machine

/-- One word of an accumulator row as DRAIN or PUT reads it, and its class (R101, R111). -/
def readWord (exact msel : Bool) (r : AccRow) (c : Nat) : F32 × Cls :=
  let m := r.main.getD c 0
  let w := r.wick.getD c 0
  if r.mode = some .moments then
    if msel then
      let v := fDivNat w r.count
      (v, exactCls 8 [w] ((f32Val w).div (.fin false r.count 0)) v)
    else (m, .none)
  else if r.count ≤ 4096 && !exact then (m, .none)
  else if !(f32IsFin m) then (if f32IsNan m then nanF32 else m, .none)
  else
    let v := fAdd m w
    (v, clsOf 3 [f32Val m, f32Val w] (f32Val v))

/-- The 128 words of a row as they are read. -/
def readRow (exact msel : Bool) (r : AccRow) : List (F32 × Cls) := (List.range 128).map (readWord exact msel r)

/-- The accumulator key of row `q` of a DRAIN or PUT. -/
def rowsKey (s : RowsD) (q : Nat) : Nat := accKey s.array s.orient (s.s0 * 128 + s.q0 + q)

/-- Clears a row that a clearing read has read (R105). -/
def clearRow (on : Bool) (k : Nat) (t : TileState) : TileState :=
  if on then { t with accs := smapErase t.accs k } else t

/-- The unbiased exponent of a nonzero finite F32 value. -/
def expOfF32 (v : Val) : Int :=
  match v with
  | .fin _ m e => e + (bitLen m : Int) - 1
  | _ => 0

/-- The histogram bin of a read value (R148). -/
def histBin (x : F32) : Nat :=
  let v := f32Val x
  if !v.isFin then 31
  else if v.isZero then 0
  else
    let e := expOfF32 v
    if e ≤ -18 then 1
    else if e ≤ -2 then (e + 19).toNat
    else if e ≤ 8 then ((e + 37) / 2).toNat
    else if e ≤ 15 then (e + 14).toNat
    else 30

/-- Counts one value into a histogram slot; a counter that would pass 2^32 - 1 sets HISTSAT (R148, R149). -/
def histAdd (slot tag : Nat) (t : TileState) (x : F32) : TileState :=
  let k := 32 * slot + histBin x
  let n := smapGet 0 t.hist k + 1
  { t with hist := smapSet t.hist k (min n (2 ^ 32 - 1))
           meter := if 2 ^ 32 - 1 < n then t.meter.sticky bitHistsat tag else t.meter }

/-- exp of a word, which keeps the cause of a NaN (R113). -/
def uExp (x : UV) : UV := (expF32 x.1, x.2)

/-- The softmax pair (m, l) of a row of read values (R114), with the cause of a NaN that arises in l (R173). -/
def smxPair (vs : List F32) : F32 × UV :=
  let mx := vs.foldl fMax ninfF32
  (mx, if mx = ninfF32 then uv 0 else uTreeSum (vs.map (fun v => uExp (uSub (uv v) (uv mx)))))

/-- The merge of a pair into (m0, l0) (R114). -/
def smxMerge (m0 l0 mx : F32) (s : UV) : F32 × UV :=
  let m1 := fMax m0 mx
  if m1 = ninfF32 then (m1, uv 0)
  else (m1, uAdd (uMul (uv l0) (uExp (uSub (uv m0) (uv m1)))) (uMul s (uExp (uSub (uv mx) (uv m1)))))

/-- The format in which the output of a DRAIN or LANE is written, its activation and conversion, for one vector of values:
outputs with classes, slope bytes and the lanes after (R54, R127, R129, R130). -/
structure OutVec where
  conv : ConvVec
  cls : List Cls
  slopes : List Nat
  lanes : List (BitVec 64)
  deriving DecidableEq, Repr

/-- Converts a vector and forms its slope bytes; each lane draws for its output element, then for its slope byte. -/
def outVec (fmt act : Nat) (rnd ovf scaled slope : Bool) (vals : List (F32 × Cls)) (xs : List F32)
    (lanes : List (BitVec 64)) : OutVec :=
  let d1 := drawAll (rnd && fmt != 0) lanes
  let cv := convertVec fmt ovf scaled d1.1 (vals.map (fun p => f32Val p.1))
  let d2 := drawAll (rnd && slope) d1.2
  let sl := if slope then
      xs.zipIdx.map (fun p => (convertElem 4 false (d2.1.getD p.2 none) (f32Val (slopeF32 act p.1))).1)
    else []
  ⟨cv, vals.map Prod.snd, sl, d2.2⟩

/-- Writes an output vector, its row scale and its slope bytes. -/
def writeOut (tile fmt obase ostride slbase slstride scbase q : Nat) (o : OutVec) (mem : Memory) : Memory :=
  let m1 := writeVec mem fmt (tileAddr tile obase) ostride q o.conv.scales o.conv.codes
  let m2 := match o.conv.rowScale with
    | some s => memWriteF32 m1 (tileAddr tile (scbase + 4 * q)) s
    | none => m1
  if o.slopes.isEmpty then m2
  else memWriteBytes m2 (tileAddr tile (slbase + q * slstride)) (o.slopes.map (BitVec.ofNat 8))

/-- Whether an activation's exact value at a finite x is nonzero (R126): a zero it then gives has been rounded away (R158). -/
def actNonzero (act : Nat) (alpha x : Val) : Bool :=
  let pos := !x.isNeg && !x.isZero
  match act with
  | 0 => false
  | 1 => false
  | 2 => !pos && !alpha.isZero && !x.isZero
  | 3 => !pos && !alpha.isZero && !x.isZero
  | 4 => true
  | 6 => true
  | 7 => true
  | _ => !x.isZero

/-- The activation applied to a read value, with the class of its result. -/
def actWord (act : Nat) (alpha : F32) (p : F32 × Cls) : F32 × Cls :=
  let r := actF32 act alpha p.1
  let lost := f32IsFin p.1 && (f32Val r).isZero && actNonzero act (f32Val alpha) (f32Val p.1)
  match if lost then Cls.flush else clsOf 8 [f32Val p.1] (f32Val r) with
  | .none => (r, p.2)
  | c => (r, c)

/-- The softmax statistics of one row, written to its pair (R114). A NaN the row's values did not hold counts as INVALID by its cause (R173). -/
def smxRow (cx : DescCtx) (loc : Locus) (d : DrainD) (q : Nat) (vs : List F32) (mt : Memory × TileState) :
    Memory × TileState :=
  let a := tileAddr cx.tile (d.stbase + 8 * q)
  let p := smxPair vs
  let m0 := memReadF32 mt.1 a
  let l0 := memReadF32 mt.1 (a + 4)
  let r := if d.merge then smxMerge (flushF32 m0) (flushF32 l0) p.1 p.2 else p
  let ins := if d.merge then m0 :: l0 :: vs else vs
  let meter1 := if d.merge then mt.2.meter.flushes cx.htag (b2n (f32Subnormal m0) + b2n (f32Subnormal l0)) else mt.2.meter
  let meter2 := meter1.element { loc with col := 0 } (uvCls ins (uv r.1))
  let meter3 := meter2.element { loc with col := 1 } (uvCls ins r.2)
  (memWriteF32 (memWriteF32 mt.1 a r.1) (a + 4) r.2.1, { mt.2 with meter := meter3 })

/-- One row of a DRAIN (R195): read, histogram, statistics, activation, conversion, clear. -/
def drainRow (cx : DescCtx) (d : DrainD) (mt : Memory × TileState) (q : Nat) : Memory × TileState :=
  let t := mt.2
  let idx := d.src.s0 * 128 + d.src.q0 + q
  let fmt := fmtOf cx.slotFmt d.ofmt
  let rd := readRow cx.exact d.msel (t.acc (rowsKey d.src q))
  let vs := rd.map Prod.fst
  let loc : Locus := { tile := cx.tile, array := b2n d.src.array, orient := b2n d.src.orient, set := idx / 128, row := q,
                       queue := cx.queue, source := 2, tag := cx.htag, step := cx.step, dseq := cx.dseq }
  let t1 := if d.hist then vs.foldl (histAdd d.hslot cx.htag) t else t
  let mt1 := if d.smx then smxRow cx loc d q vs (mt.1, t1) else (mt.1, t1)
  let o := outVec fmt d.act d.rnd d.ovf d.oscale d.slope (rd.map (actWord d.act d.alpha)) vs (lanesOr mt1.2.lanes)
  let t2 := { mt1.2 with lanes := o.lanes, meter := mt1.2.meter.vector loc fmt o.cls o.conv.evs }
  (writeOut cx.tile fmt d.obase d.ostride d.slbase d.slstride d.scbase q o mt1.1, clearRow d.src.clear (rowsKey d.src q) t2)

/-- DRAIN (R194, R195). -/
def drainEffect (cx : DescCtx) (d : DrainD) (mt : Memory × TileState) : Memory × TileState :=
  (List.range d.src.nrows).foldl (drainRow cx d) mt

end Sys2Proof.Machine
end

