-- ==== Sys2Proof/Machine/Lane.lean ====
section
/-! DEFINITION. Machine/Lane.lean: the lane unit's operations (R128, R197, R198). -/

namespace Sys2Proof.Machine

/-- A result with its class: `cause` is used for a NaN that no input held (R158, R173). -/
def withCls (cause : Nat) (ins : List F32) (r : F32) : F32 × Cls := (r, clsOf cause (ins.map f32Val) (f32Val r))

/-- The cause of an invalid product-and-sum: zero times infinity, else infinity minus infinity. -/
def fmaCause (x y : F32) : Nat := if zeroInf (f32Val x) (f32Val y) then 1 else 3

/-- x × y + z with its class: a nonzero exact value that rounds to zero is FLUSH (R158). -/
def fmaWord (x y z : F32) : F32 × Cls :=
  (fFma x y z, exactCls (fmaCause x y) [x, y, z] (((f32Val x).mul (f32Val y)).add (f32Val z)) (fFma x y z))

/-- One element of DACT (R128): `s` is the slope for codes 8 to 11, `y` the saved output for the others. -/
def dactWord (act : Nat) (alpha g y s : F32) : F32 × Cls :=
  let src := if 8 ≤ act then s else y
  if f32IsNan g || f32IsNan src then (nanF32, .none)
  else
    let pos := !(f32Val y).isNeg && !(f32Val y).isZero
    match act with
    | 0 => (g, .none)
    | 1 => (if pos then g else 0, .none)
    | 2 => if pos then (g, .none) else uMulCls [g] (uv g) (uv alpha)
    | 3 => if pos then (g, .none) else uMulCls [g, y] (uv g) (uAdd (uv y) (uv alpha))
    | 4 => uMulCls [g, y] (uv g) (uMul (uv y) (uSub (uv oneF32) (uv y)))
    | 5 => uMulCls [g, y] (uv g) (uSub (uv oneF32) (uMul (uv y) (uv y)))
    | 6 => uMulCls [g, y] (uv g) (uv y)
    | 7 => uMulCls [g, y] (uv g) (uSub (uv oneF32) (uv (expF32 (fNeg y))))
    | _ => uMulCls [g, s] (uv g) (uv s)

/-- The result of a LANE operation on one element (R198). -/
def laneWord (op act : Nat) (alpha x y z s : F32) : F32 × Cls :=
  match op with
  | 0 => (x, .none)
  | 1 => withCls 3 [x, y] (fAdd x y)
  | 2 => withCls 3 [x, y] (fSub x y)
  | 3 => uMulCls [x, y] (uv x) (uv y)
  | 4 => fmaWord x y z
  | 5 => uMulCls [x] (uv x) (uv alpha)
  | 6 => actWord act alpha (x, .none)
  | 7 => dactWord act alpha x y s
  | 8 => (fMax x y, .none)
  | 9 => (fMin x y, .none)
  | _ => fmaWord x x z

/-- Whether an operation reads Y, Z or the slope plane (R198). -/
def laneUsesY (op act : Nat) : Bool := op == 1 || op == 2 || op == 3 || op == 4 || op == 8 || op == 9 || (op == 7 && act < 8)
/-- Whether an operation reads Z. -/
def laneUsesZ (op : Nat) : Bool := op == 4 || op == 10
/-- Whether an operation reads the slope plane. -/
def laneUsesS (op act : Nat) : Bool := op == 7 && 8 ≤ act

/-- One operand vector of a LANE: widened values and counts; an operand not in use reads nothing. -/
def laneOperand (mem : Memory) (tile : Nat) (used bcast : Bool) (fmt base stride m : Nat) : List F32 × List Ev :=
  if used then readVecF32 mem fmt (tileAddr tile base) stride (if bcast then 0 else m) else ([], [])

/-- The slope values DACT reads for vector `m` (R129). -/
def slopeOperand (mem : Memory) (tile base stride m : Nat) : List F32 :=
  (List.range 128).map (fun i =>
    (readWiden 4 0 (memRead mem (tileAddr tile (base + m * stride) + i)).toNat).1)

/-- One vector of a LANE operation. -/
def laneVector (cx : DescCtx) (op : Nat) (d : LaneD) (mt : Memory × TileState) (m : Nat) : Memory × TileState :=
  let mem := mt.1
  let t := mt.2
  let fmt := fmtOf cx.slotFmt d.ofmt
  let x := laneOperand mem cx.tile true d.xb (fmtOf cx.slotFmt d.xfmt) d.xbase d.xstride m
  let y := laneOperand mem cx.tile (laneUsesY op d.act) d.yb (fmtOf cx.slotFmt d.yfmt) d.ybase d.ystride m
  let z := laneOperand mem cx.tile (laneUsesZ op) d.zb (fmtOf cx.slotFmt d.zfmt) d.zbase d.zstride m
  let s := if laneUsesS op d.act then slopeOperand mem cx.tile d.slbase d.slstride m else []
  let rs := (List.range 128).map (fun i =>
    laneWord op d.act d.alpha (x.1.getD i 0) (y.1.getD i 0) (z.1.getD i 0) (s.getD i 0))
  let loc : Locus := { tile := cx.tile, row := m, queue := cx.queue, source := 3, tag := cx.htag, step := cx.step,
                       dseq := cx.dseq }
  let o := outVec fmt d.act d.rnd d.ovf false (op == 6 && d.slope) rs x.1 (lanesOr t.lanes)
  let meter := (t.meter.reads loc (x.2 ++ y.2 ++ z.2)).vector loc fmt o.cls o.conv.evs
  (writeOut cx.tile fmt d.obase d.ostride d.slbase d.slstride 0 m o mem, { t with lanes := o.lanes, meter := meter })

/-- A LANE operation over its V vectors (R198). -/
def laneEffect (cx : DescCtx) (op : Nat) (d : LaneD) (mt : Memory × TileState) : Memory × TileState :=
  (List.range d.v).foldl (laneVector cx op d) mt

end Sys2Proof.Machine
end

