-- ==== Sys2Proof/Machine/Row.lean ====
section
/-! DEFINITION. Machine/Row.lean: the row engine and its side memory (R121, R132 to R142). -/

namespace Sys2Proof.Machine

/-- A mean-and-variance element (R121). -/
structure MeanVar where
  n : Nat
  mean : F32
  m2 : F32
  deriving DecidableEq, Repr

/-- The combine of R121, with the causes of NaNs that arise in mean and M2; the count stops at 2^32 - 1. The product n_a × f is formed
from the integer and rounded once. -/
def mvTraced (a b : MeanVar) : Nat × UV × UV :=
  let n := min (a.n + b.n) (2 ^ 32 - 1)
  if n = 0 then (0, uv 0, uv 0)
  else
    let delta := uSub (uv b.mean) (uv a.mean)
    let f := fDiv (f32OfNat b.n) (f32OfNat n)
    let g := roundF32 ((Val.fin false a.n 0).mul (f32Val f))
    (n, uAdd (uv a.mean) (uMul delta (uv f)), uAdd (uAdd (uv a.m2) (uv b.m2)) (uMul (uMul delta delta) (uv g)))

/-- The combine of R121. -/
def mvCombine (a b : MeanVar) : MeanVar := ⟨(mvTraced a b).1, (mvTraced a b).2.1.1, (mvTraced a b).2.2.1⟩

/-- The class of a combined element (R158): one for its two F32 words, the mean before M2. -/
def mvCls (a b : MeanVar) : Cls :=
  let r := mvTraced a b
  let ins := [a.mean, a.m2, b.mean, b.m2]
  match uvCls ins r.2.1 with
  | .none => uvCls ins r.2.2
  | c => c

/-- Whether a combined count stopped there, which sets LONGSUM (R121). -/
def mvLong (a b : MeanVar) : Bool := decide (2 ^ 32 - 1 < a.n + b.n)

/-- What the rows of a ROW operation change: memory, the tile, and whether R121 sets LONGSUM in the field summary. -/
structure RowRes where
  mem : Memory
  tile : TileState
  long : Bool := false
  deriving DecidableEq, Repr

/-- The tag of a RTAG field (R196). -/
def recTagOf (n : Nat) : RecTag :=
  match n with
  | 1 => .smx
  | 2 => .gatherLn
  | 3 => .gatherRms
  | 4 => .ln
  | 5 => .rms
  | _ => .empty

/-- The record a row uses. -/
def TileState.record (t : TileState) (k : Nat) : SideRec := smapGet {} t.side k

/-- Sets a record. -/
def TileState.setRec (t : TileState) (k : Nat) (r : SideRec) : TileState := { t with side := smapSet t.side k r }

/-- Whether the record's tag is one the operation requires (R137). -/
def tagAllowed (op : Nat) (first rms : Bool) (t : RecTag) : Bool :=
  let gather := if rms then RecTag.gatherRms else RecTag.gatherLn
  match op with
  | 0 => first || t == .smx
  | 1 => t == .smx
  | 2 => t == .smx
  | 3 => first || t == gather
  | 4 => if first then t == gather else t == .ln || t == .rms
  | _ => t == .ln || t == .rms

/-- The record words a mismatched operation writes as NaN, and how many (R137): those that the operation would have changed. NORM_DOT
changes S2 for LN only, and a mismatched tag names neither LN nor RMS, so the descriptor's MODE decides (DESIGN CHOICE, assumption 93). -/
def poisonRec (op : Nat) (first rms : Bool) (r : SideRec) : SideRec × Nat :=
  match op with
  | 1 => ({ r with s2 := nanF32 }, 1)
  | 3 => if rms then ({ r with s1 := nanF32, s2 := nanF32 }, 2) else ({ r with s0 := nanF32, s1 := nanF32, s2 := nanF32 }, 3)
  | 4 => if !first then (r, 0)
         else if rms then ({ r with s0 := nanF32, s1 := nanF32, s2 := nanF32, s3 := nanF32 }, 4)
         else ({ r with s1 := nanF32, s2 := nanF32, s3 := nanF32 }, 3)
  | 5 => if rms then ({ r with s3 := nanF32 }, 1) else ({ r with s2 := nanF32, s3 := nanF32 }, 2)
  | _ => (r, 0)

/-- The softmax probability (R138), with the cause of a NaN that arises in it (R173). -/
def smxWord (s0 s1 v : F32) : UV :=
  if s0 = ninfF32 then uv 0
  else
    let dd := uSub (uv v) (uv s0)
    uMul (expF32 dd.1, dd.2) (uDiv (uv oneF32) (uv s1))

/-- The softmax probability and its class: a nonzero probability that is zero in F32 is FLUSH (R138, R158). -/
def smxProb (s0 s1 v : F32) : F32 × Cls :=
  let r := smxWord s0 s1 v
  (r.1, if s0 != ninfF32 && f32IsFin (fSub v s0) && f32IsFin s1 && (f32Val r.1).isZero then .flush else uvCls [v, s0, s1] r)

/-- The normalised value (R141), with the cause of a NaN that arises in it. -/
def normWord (s0 s1 x : F32) : UV := uMul (uSub (uv x) (uv s0)) (uv s1)

/-- The normalised value and its class. -/
def normHat (s0 s1 x : F32) : F32 × Cls := uMulCls [x, s0, s1] (uSub (uv x) (uv s0)) (uv s1)

/-- The finalised record of NORM_FWD (R141) from a gathered one; n is the integer count gathered. -/
def finalise (rms : Bool) (eps : F32) (r : SideRec) : SideRec :=
  let v := fDivNat r.s1 r.s2.toNat
  let inv := rsqrtF32 (fAdd v eps)
  if rms then ⟨.rms, 0, inv, 0, 0⟩ else ⟨.ln, r.s0, inv, 0, 0⟩

/-- The descriptor's operand vectors for block `b` of row `i` (R196): values and counts, element by element. -/
def rowOperand (cx : DescCtx) (mem : Memory) (fmtField base stride i b : Nat) : List F32 × List Ev :=
  let fmt := fmtOf cx.slotFmt fmtField
  readVecF32 mem fmt (tileAddr cx.tile (base + i * stride + b * vecBytes fmt)) 0 0

/-- Positions of block `b` that lie below N (R135). -/
def rowLive (n b c : Nat) : Bool := decide (128 * b + c < n)

/-- A list by position with +0 at the positions that R135 leaves out. -/
def liveList (n b : Nat) (l : List F32) : List F32 := l.zipIdx.map (fun p => if rowLive n b p.2 then p.1 else 0)

/-- The balanced sum of a block, over its live positions (R136), with the cause of a NaN that arises in it. -/
def liveSum (n b : Nat) (l : List UV) : UV := uTreeSum (l.zipIdx.map (fun p => if rowLive n b p.2 then p.1 else uv 0))

/-- The balanced sum of products (R139, R142): of a NaN that no product is, infinite products of both signs are cause 2 (R173). -/
def liveDot (n b : Nat) (xs ys : List UV) : UV :=
  let ps := (xs.zip ys).map (fun p => uMul p.1 p.2)
  let live := ps.zipIdx.filter (fun p => rowLive n b p.2)
  let both := live.any (fun p => p.1.1 == infF32) && live.any (fun p => p.1.1 == ninfF32)
  let s := liveSum n b ps
  (s.1, if both && s.2 == 3 then 2 else s.2)

/-- Whether an operation rebuilds its first input: operations 1, 2, 5 and 6 with REBUILD; the others have none to rebuild (R137, R196). -/
def rowRebuilds (op : Nat) (d : RowD) : Bool := d.rebuild && (op == 1 || op == 2 || op == 5 || op == 6)

/-- The first input: read, or rebuilt from v or x (R138, R141), with the causes of NaNs that arise in the rebuild. -/
def rowInput (op : Nat) (d : RowD) (r : SideRec) (xs : List F32) : List UV :=
  if !rowRebuilds op d then xs.map uv
  else if op ≤ 2 then xs.map (smxWord r.s0 r.s1) else xs.map (normWord r.s0 r.s1)

/-- The record words that a rebuild reads. -/
def rebuildReads (op : Nat) (d : RowD) (r : SideRec) : List F32 := if rowRebuilds op d then [r.s0, r.s1] else []

/-- What a block makes of a record: the record, the class of each word it wrote (R158, R173), and whether R121 sets LONGSUM. -/
structure RecStep where
  rec_ : SideRec
  cls : List Cls := []
  long : Bool := false
  deriving DecidableEq, Repr

/-- The record after a block of SMX_DOT, NORM_STATS or NORM_DOT; other operations leave it (R139, R140, R142). `us` is the first input, rebuilt
where the descriptor says so, and `xs` and `ys` what was read. A count of GATHER_RMS that would pass 2^32 - 1 stops there and sets LONGSUM, as R121
has it for the combine (DESIGN CHOICE, assumption 117). -/
def rowRecord (op : Nat) (d : RowD) (b : Nat) (r : SideRec) (us : List UV) (xs ys : List F32) : RecStep :=
  let n := d.n
  let nb := ((List.range 128).filter (rowLive n b)).length
  let read := liveList n b xs ++ liveList n b ys ++ rebuildReads op d r
  match op with
  | 1 =>
    let z := uAdd (uv r.s2) (liveDot n b us (ys.map uv))
    { rec_ := { r with s2 := z.1 }, cls := [uvCls (r.s2 :: read) z] }
  | 3 =>
    if nb = 0 then { rec_ := r }
    else if r.tag = .gatherRms then
      let z := uAdd (uv r.s1) (liveDot n b us us)
      { rec_ := { r with s1 := z.1, s2 := BitVec.ofNat 32 (min (r.s2.toNat + nb) (2 ^ 32 - 1)) },
        cls := [uvCls (r.s1 :: read) z], long := decide (2 ^ 32 - 1 < r.s2.toNat + nb) }
    else
      let sum := liveSum n b us
      let mean : UV := (fDivNat sum.1 nb, sum.2)
      let m2 := liveSum n b (us.map (fun x => let e := uSub x mean; uMul e e))
      let a : MeanVar := ⟨r.s2.toNat, r.s0, r.s1⟩
      let c : MeanVar := ⟨nb, mean.1, m2.1⟩
      let z := mvTraced a c
      let ins := r.s0 :: r.s1 :: read
      let from_ := fun (own : UV) (w : UV) => uvCls ins (w.1, if own.2 != 0 then own.2 else w.2)
      { rec_ := { r with s0 := z.2.1.1, s1 := z.2.2.1, s2 := BitVec.ofNat 32 z.1 },
        cls := [from_ mean z.2.1, from_ m2 z.2.2], long := mvLong a c }
  | 5 =>
    let dot := uAdd (uv r.s3) (liveDot n b (ys.map uv) us)
    if r.tag = .ln then
      let sum := uAdd (uv r.s2) (liveSum n b (ys.map uv))
      { rec_ := { r with s2 := sum.1, s3 := dot.1 }, cls := [uvCls (r.s2 :: read) sum, uvCls (r.s3 :: read) dot] }
    else { rec_ := { r with s3 := dot.1 }, cls := [uvCls (r.s3 :: read) dot] }
  | _ => { rec_ := r }

/-- One output element of an operation that writes (R138, R139, R141, R142): `u` the first input (p, v or x-hat), rebuilt where the descriptor
says so from the word `x` that was read, `y` the second. -/
def rowWord (op : Nat) (d : RowD) (r : SideRec) (u : UV) (x y : F32) : F32 × Cls :=
  match op with
  | 0 => smxProb r.s0 r.s1 x
  | 2 => uMulCls ([x, y, r.s2] ++ rebuildReads op d r) u (uSub (uv y) (uv r.s2))
  | 4 => normHat r.s0 r.s1 x
  | _ =>
    let rn := uv (fDivNat oneF32 d.n)
    let a := if r.tag = .rms then uv 0 else uMul (uv r.s2) rn
    let b := uMul (uv r.s3) rn
    uMulCls ([x, y, r.s1, r.s2, r.s3] ++ rebuildReads op d r) (uv r.s1) (uSub (uSub (uv y) a) (uMul u b))

/-- Whether an operation writes an output, and whether it reads a second input (R137). -/
def rowWrites (op : Nat) : Bool := op == 0 || op == 2 || op == 4 || op == 6
/-- Whether an operation reads the second input. -/
def rowSecond (op : Nat) : Bool := op == 1 || op == 2 || op == 5 || op == 6

/-- The place a ROW element is reported at (R172): the output vector is block `j` of row `i`, counted over the descriptor's rows of B
blocks. -/
def rowLocus (cx : DescCtx) (d : RowD) (i j : Nat) : Locus :=
  { tile := cx.tile, row := i * d.b + j, queue := cx.queue, source := 4, tag := cx.htag, step := cx.step, dseq := cx.dseq }

/-- What FIRST does to the record before the first block (R137, R138, R140, R141); SMX_FWD reads its pair (m, l). -/
def rowFirst (cx : DescCtx) (op : Nat) (d : RowD) (mem : Memory) (i : Nat) (r : SideRec) : SideRec :=
  if !d.first then r
  else match op with
    | 0 => ⟨.smx, flushF32 (memReadF32 mem (tileAddr cx.tile (d.xbase + 8 * i))),
            flushF32 (memReadF32 mem (tileAddr cx.tile (d.xbase + 8 * i + 4))), 0, 0⟩
    | 1 => { r with s2 := 0 }
    | 3 => ⟨if d.rms then .gatherRms else .gatherLn, 0, 0, 0, 0⟩
    | 4 => finalise d.rms d.eps r
    | 5 => { r with s2 := 0, s3 := 0 }
    | _ => r

/-- The subnormal words of the pair that SMX_FWD reads with FIRST (R61). -/
def firstFlushes (cx : DescCtx) (op : Nat) (d : RowD) (mem : Memory) (i : Nat) : Nat :=
  if d.first && op == 0 then
    b2n (f32Subnormal (memReadF32 mem (tileAddr cx.tile (d.xbase + 8 * i))))
      + b2n (f32Subnormal (memReadF32 mem (tileAddr cx.tile (d.xbase + 8 * i + 4))))
  else 0

/-- One block of one row, the `j`th that the descriptor works on. The outputs are narrowed with the policy SAT, as ROW carries no OVF bit
(DESIGN CHOICE, assumption 94). Each of the 128 elements counts in CONV, those at N and above that are written as +0 included (R135, R162; DESIGN
CHOICE, assumption 118). -/
def rowBlock (cx : DescCtx) (op : Nat) (d : RowD) (i : Nat) (rr : RowRes) (j : Nat) : RowRes :=
  let t := rr.tile
  let k := d.q0 + i
  let b := d.b0 + j
  let r := t.record k
  let x := rowOperand cx rr.mem d.ifmt d.ibase d.istride i b
  let y := if rowSecond op then rowOperand cx rr.mem d.i2fmt d.i2base d.i2stride i b else ([], [])
  let live := fun (l : List Ev) => (l.zipIdx.filter (fun p => rowLive d.n b p.2)).map Prod.fst
  let loc := rowLocus cx d i j
  let m1 := t.meter.reads loc (live x.2 ++ live y.2)
  let xin := rowInput op d r x.1
  let upd := rowRecord op d b r xin x.1 y.1
  let m2 := m1.words loc upd.cls
  let t1 := t.setRec k upd.rec_
  if rowWrites op then
    let fmt := fmtOf cx.slotFmt d.ofmt
    let rs := (List.range 128).map (fun c =>
      if rowLive d.n b c then rowWord op d upd.rec_ (xin.getD c (uv 0)) (x.1.getD c 0) (y.1.getD c 0) else (0, .none))
    let cv := convertVec fmt false false [] (rs.map (fun p => f32Val p.1))
    { rr with mem := writeCodes rr.mem fmt (tileAddr cx.tile (d.obase + i * d.ostride + b * vecBytes fmt)) cv.codes
              tile := { t1 with meter := m2.vector loc fmt (rs.map Prod.snd) cv.evs } }
  else { rr with tile := { t1 with meter := m2 }, long := rr.long || upd.long }

/-- A mismatched row (R137): every output element below N and every record word it would have changed becomes NaN; the positions N and
above are +0 as always (R135). -/
def rowMismatch (cx : DescCtx) (op : Nat) (d : RowD) (i : Nat) (rr : RowRes) : RowRes :=
  let t := rr.tile
  let k := d.q0 + i
  let p := poisonRec op d.first d.rms (t.record k)
  let m1 := (t.meter.mismatch cx.htag).words (rowLocus cx d i 0) (List.replicate p.2 (.invalid 7))
  let t1 := { t.setRec k p.1 with meter := m1 }
  if rowWrites op then
    let fmt := fmtOf cx.slotFmt d.ofmt
    (List.range d.b).foldl (fun (a : RowRes) j =>
      let live := (List.range 128).map (rowLive d.n (d.b0 + j))
      let cv := convertVec fmt false false [] (live.map (fun on => if on then Val.nan else Val.zero false))
      let cls := live.map (fun on => if on then Cls.invalid 7 else .none)
      { a with mem := writeCodes a.mem fmt (tileAddr cx.tile (d.obase + i * d.ostride + (d.b0 + j) * vecBytes fmt)) cv.codes
               tile := { a.tile with meter := a.tile.meter.vector (rowLocus cx d i j) fmt cls cv.evs } })
      { rr with tile := t1 }
  else { rr with tile := t1 }

/-- One row of operations 0 to 6 (R133, R137). An operation with FIRST = 1 whose record lacks the tag that the table requires is treated
as the rule treats one with FIRST = 0 (DESIGN CHOICE, assumption 93). -/
def rowOne (cx : DescCtx) (op : Nat) (d : RowD) (rr : RowRes) (i : Nat) : RowRes :=
  let k := d.q0 + i
  let r := rr.tile.record k
  if tagAllowed op d.first d.rms r.tag then
    let r1 := rowFirst cx op d rr.mem i r
    let cls := if op == 4 && d.first then
        [clsOf 8 [f32Val r.s1, f32Val d.eps] (f32Val r1.s1)] else []
    let t1 := { rr.tile.setRec k r1 with
      meter := (rr.tile.meter.flushes cx.htag (firstFlushes cx op d rr.mem i)).words (rowLocus cx d i 0) cls }
    (List.range d.b).foldl (rowBlock cx op d i) { rr with tile := t1 }
  else rowMismatch cx op d i rr

/-- Operations 0 to 6; nothing happens when R, B or N is zero (R134). -/
def rowEffect (cx : DescCtx) (op : Nat) (d : RowD) (mem : Memory) (t : TileState) : RowRes :=
  if d.r = 0 || d.b = 0 || d.n = 0 then { mem := mem, tile := t }
  else (List.range d.r).foldl (rowOne cx op d) { mem := mem, tile := t }

/-- REC_SAVE: records to the record area, 16 bytes each (R137, R196); with R, B or N zero nothing happens (R134). -/
def recSaveEffect (cx : DescCtx) (d : RowD) (mem : Memory) (t : TileState) : Memory :=
  if d.b = 0 || d.n = 0 then mem else (List.range d.r).foldl (fun mm i =>
    let r := t.record (d.q0 + i)
    let a := tileAddr cx.tile (d.xbase + 16 * i)
    memWriteF32 (memWriteF32 (memWriteF32 (memWriteF32 mm a r.s0) (a + 4) r.s1) (a + 8) r.s2) (a + 12) r.s3) mem

/-- REC_LOAD: records from the record area, with the descriptor's tag (R137); with R, B or N zero nothing happens (R134). The four words are kept as
loaded whatever the tag, also where R132 gives a word of that tag as +0 (DESIGN CHOICE, assumption 119). -/
def recLoadEffect (cx : DescCtx) (d : RowD) (mem : Memory) (t : TileState) : TileState :=
  if d.b = 0 || d.n = 0 then t else (List.range d.r).foldl (fun tt i =>
    let a := tileAddr cx.tile (d.xbase + 16 * i)
    tt.setRec (d.q0 + i)
      ⟨recTagOf d.rtag, memReadF32 mem a, memReadF32 mem (a + 4), memReadF32 mem (a + 8), memReadF32 mem (a + 12)⟩) t

end Sys2Proof.Machine
end

