-- ==== Sys2Proof/Machine/Descriptor.lean ====
section
/-! DEFINITION. Machine/Descriptor.lean: reading descriptors, their operands, and the queue-time checks (R177, R178, R188 to R204, R582). -/

namespace Sys2Proof.Machine

/-! ### Reading (R188 to R203) -/

/-- The bits of W0 to W15 that a kind's layout lists. -/
def usedMask (kind : Nat) : List Nat :=
  let w0 := 0x00FF01FF
  let full := 0xFFFFFFFF
  match kind with
  | 1 | 2 => [w0, 0x0FFFFFFF, 0x000FFFFF, full, 0xFFFF, full, full, full]
  | 3 => [w0, 0x0000FF1F, full]
  | 4 => [w0, 0x3]
  | 5 => [w0, 0xFFFF7FF7, 0xFFFF7FFF, full, full, full, 0xFFFF7FFF, full, full, full]
  | 6 => [w0, full, 0x0003FFFF, full, full, full, full, full, full, full]
  | 7 => [w0, 0xFFFF03FF, 0x1FFFF, 0x1FFFFFF, 0x1FFFF, 0x3FFFF, 0xFFFFFF, full, full, full, full, full, full, full, full]
  | 8 => [w0, 0x3FFF, 0xFFFFF, full, full, full, full, full, full, full, full, full, full, full, full]
  | 9 => [w0, 0x07FFFFFF, 0xFFFF, full, full]
  | 10 => [w0, 0x03FFFFFF, full, full]
  | 11 => [w0, 0x1F]
  | 12 => [w0, 0xFFFF07FF, full, 0xFFFF]
  | 13 => [w0, 0xF]
  | _ => [w0]

/-- The 16 words of a descriptor. -/
def descWords (bs : List Byte) : List Nat := (List.range 16).map (fun i => bytesAt bs (4 * i) 4)

/-- Whether every RSVD bit of a descriptor is zero (R188). -/
def rsvdClear (ws : List Nat) : Bool :=
  let m := usedMask (ws.getD 0 0 % 16)
  (List.range 16).all (fun i => Nat.land (ws.getD i 0) (Nat.xor 0xFFFFFFFF (m.getD i 0)) == 0)

/-- The rows of DRAIN and PUT (R194, R199). -/
def readRows (w : Nat) : RowsD :=
  { array := bitAt w 0, orient := bitAt w 1, s0 := bitsAt w 2 3, q0 := bitsAt w 5 7, nrows := bitsAt w 12 11, clear := bitAt w 23 }

/-- One side of a PASS from its four words (R193). -/
def readSide (w2 w3 w4 w5 : Nat) : PassSide :=
  { s0 := bitsAt w2 0 3, q0 := bitsAt w2 3 7, acc := bitAt w2 10, amode := bitsAt w2 11 2, msc := bitAt w2 13, ssc := bitAt w2 14,
    mfmt := bitsAt w2 16 8, sfmt := bitsAt w2 24 8, mbase := w3, mstride := w4, msbase := w5 }

/-- The kind of a descriptor and its fields; none for KIND 0, 14 and 15. -/
def readKind (ws : List Nat) : Option DKind :=
  let w := fun i => ws.getD i 0
  let b := fun i lo n => bitsAt (w i) lo n
  let move : MoveD := { bytes := b 1 0 26, tclass := b 1 26 2, rows := b 2 0 20, addr := w 3 + 2 ^ 32 * b 4 0 16, sstride := w 5,
                        tbase := w 6, tstride := w 7 }
  match b 0 0 4 with
  | 1 => some (.load move)
  | 2 => some (.store move)
  | 3 => some (.stage { arrays := b 1 0 2, diag := bitAt (w 1) 2, sscale := bitAt (w 1) 3, sorient := bitAt (w 1) 4, fmt := b 1 8 8, sbase := w 2 })
  | 4 => some (.swap (b 1 0 2))
  | 5 => some (.pass { arrays := b 1 0 2, orient := bitAt (w 1) 2, m := b 1 4 11, kblk := b 1 16 16,
                       a := readSide (w 2) (w 3) (w 4) (w 5), b := readSide (w 6) (w 7) (w 8) (w 9) })
  | 6 => some (.drain { src := readRows (w 1), rnd := bitAt (w 1) 24, ovf := bitAt (w 1) 25, smx := bitAt (w 1) 26, merge := bitAt (w 1) 27,
                        hist := bitAt (w 1) 28, slope := bitAt (w 1) 29, oscale := bitAt (w 1) 30, msel := bitAt (w 1) 31,
                        ofmt := b 2 0 8, act := b 2 8 4, hslot := b 2 12 6, alpha := f32 (w 3), obase := w 4, ostride := w 5,
                        slbase := w 6, slstride := w 7, stbase := w 8, scbase := w 9 })
  | 7 => some (.row (b 1 0 4) { first := bitAt (w 1) 4, rms := bitAt (w 1) 5, rebuild := bitAt (w 1) 6, rtag := b 1 7 3, q0 := b 1 16 16,
                                r := b 2 0 17, n := b 3 0 25, b0 := b 4 0 17, b := b 5 0 18, ifmt := b 6 0 8, i2fmt := b 6 8 8,
                                ofmt := b 6 16 8, eps := f32 (w 7), ibase := w 8, istride := w 9, i2base := w 10, i2stride := w 11,
                                obase := w 12, ostride := w 13, xbase := w 14 })
  | 8 => some (.lane (b 1 0 4) { act := b 1 4 4, rnd := bitAt (w 1) 8, ovf := bitAt (w 1) 9, slope := bitAt (w 1) 10, xb := bitAt (w 1) 11,
                                 yb := bitAt (w 1) 12, zb := bitAt (w 1) 13, v := b 2 0 20, xfmt := b 3 0 8, yfmt := b 3 8 8,
                                 zfmt := b 3 16 8, ofmt := b 3 24 8, xbase := w 4, xstride := w 5, ybase := w 6, ystride := w 7,
                                 zbase := w 8, zstride := w 9, obase := w 10, ostride := w 11, slbase := w 12, slstride := w 13,
                                 alpha := f32 (w 14) })
  | 9 => some (.put (b 1 24 2 == 1) { src := readRows (w 1), msel := bitAt (w 1) 26, cidx := b 2 0 16, dbase := w 3, dstride := w 4 })
  | 10 => some (.get { len := b 1 0 26, sbase := w 2, tbase := w 3 })
  | 11 => some (.mark (b 1 0 5))
  | 12 => some (.wait { mode := b 1 0 2, sem := b 1 2 4, mark := b 1 6 5, count := b 1 16 16, step := w 2 + 2 ^ 32 * b 3 0 16 })
  | 13 => some (.fence (b 1 0 4))
  | _ => none

/-- Reads a descriptor. -/
def readDescriptor (ws : List Nat) : Option Descriptor :=
  (readKind ws).map (fun k =>
    { hdr := { sigEn := bitAt (ws.getD 0 0) 4, sigSem := bitsAt (ws.getD 0 0) 5 4, htag := bitsAt (ws.getD 0 0) 16 8 }, kind := k })

/-! ### Operands -/

/-- An operand in the tile store or the reduction buffer: its base, the bytes from the base to the lowest it touches and past the highest
(`span`, 0 where a zero count sets its extent), whether it is written, the byte offset of its base field; and its stride with its unit and its byte offset, when it is read. -/
structure Opd where
  red : Bool := false
  write : Bool := false
  base : Nat
  low : Nat := 0
  span : Nat
  off : Nat
  stride : Option (Nat × Nat × Nat) := none
  deriving DecidableEq, Repr

/-- The bytes from a base to the end of block `j` of a B4 or I4 tensor (R36). -/
def blockEnd (j : Nat) : Nat := j / 64 * 1088 + 64 + 16 * (j % 64) + 16

/-- The bytes from the base to the end of the last of `n` vectors, for every format an operand may have (R36, R190). -/
def spanOf (fm : List Nat) (stride n : Nat) : Nat :=
  if n = 0 then 0
  else (fm.map (fun f => if isBlockFmt f then blockEnd ((n - 1) * stride + 3) else (n - 1) * stride + vecBytes f)).foldl max 0

/-- A strided operand of `n` vectors. -/
def vecOpd (write bcast : Bool) (fm : List Nat) (base off stride n : Nat) : Opd :=
  { write := write, base := base, off := off, span := spanOf fm (if bcast then 0 else stride) (if bcast then min n 1 else n),
    stride := if bcast then none else some (stride, if fm.any isBlockFmt then 4 else 64, off + 4) }

/-- The bytes of a stationary block (R66, R88). -/
def stageBytes (fm : List Nat) (d : StageD) : Nat :=
  if d.diag then (fm.map vecBytes).foldl max 0
  else if fm.any isBlockFmt then 8704
  else 128 * (fm.map vecBytes).foldl max 0 + (if d.sscale then 512 else 0)

/-- Whether a ROW operation reads its first input. -/
def rowInputs (op : Nat) : Bool := op ≤ 6

/-- Whether a ROW operation uses XBASE (R196). -/
def rowExtra (op : Nat) : Bool := op == 0 || op == 7 || op == 8

/-- Whether a LANE operation uses its slope plane (R197, R198). -/
def laneSlope (op : Nat) (d : LaneD) : Bool := (op == 6 && d.slope) || laneUsesS op d.act

/-- Whether a PASS uses side A: ARRAYS 1 or 3 (R193). -/
def passUsesA (d : PassD) : Bool := d.arrays == 1 || d.arrays == 3

/-- Whether a PASS uses side B: ARRAYS 2 or 3 (R193). -/
def passUsesB (d : PassD) : Bool := d.arrays == 2 || d.arrays == 3

/-- The operands of a descriptor; `fs` gives the formats that a format byte may stand for. -/
def operandsOf (fs : Nat → List Nat) : DKind → List Opd
  | .load d => [{ write := true, base := d.tbase, off := 24, stride := some (d.tstride, 64, 28),
                  span := if d.rows = 0 || d.bytes = 0 then 0 else (d.rows - 1) * d.tstride + d.bytes }]
  | .store d => [{ base := d.tbase, off := 24, stride := some (d.tstride, 64, 28),
                   span := if d.rows = 0 || d.bytes = 0 then 0 else (d.rows - 1) * d.tstride + d.bytes }]
  | .stage d => [{ base := d.sbase, off := 8, span := stageBytes (fs d.fmt) d }]
  | .swap _ => []
  | .pass d =>
    let side := fun (p : PassSide) (o : Nat) =>
      vecOpd false false (fs p.mfmt) p.mbase o p.mstride d.m :: (if p.msc then [{ base := p.msbase, off := o + 8, span := 4 * d.m }] else [])
    (if passUsesA d then side d.a 12 else []) ++ (if passUsesB d then side d.b 28 else [])
  | .drain d =>
    let n := d.src.nrows
    vecOpd true false (fs d.ofmt) d.obase 16 d.ostride n :: ((if d.slope then [vecOpd true false [4] d.slbase 24 d.slstride n] else [])
      ++ (if d.smx then [{ write := true, base := d.stbase, off := 32, span := 8 * n }] else [])
      ++ (if d.oscale then [{ write := true, base := d.scbase, off := 36, span := 4 * n }] else []))
  | .row op d =>
    let opd := fun (write : Bool) (fm base off stride : Nat) =>
      ({ write := write, base := base, off := off, stride := some (stride, 64, off + 4),
         low := d.b0 * ((fs fm).map vecBytes).foldl min 512
         span := if d.r = 0 || d.b = 0 || d.n = 0 then 0
           else (d.r - 1) * stride + (d.b0 + d.b) * ((fs fm).map vecBytes).foldl max 0 } : Opd)
    (if rowInputs op then [opd false d.ifmt d.ibase 32 d.istride] else [])
      ++ (if rowSecond op then [opd false d.i2fmt d.i2base 40 d.i2stride] else [])
      ++ (if rowWrites op then [opd true d.ofmt d.obase 48 d.ostride] else [])
      ++ (if rowExtra op then [{ write := op == 7, base := d.xbase, off := 56, span := (if op = 0 then 8 else 16) * d.r }] else [])
  | .lane op d =>
    vecOpd false d.xb (fs d.xfmt) d.xbase 16 d.xstride d.v
      :: ((if laneUsesY op d.act then [vecOpd false d.yb (fs d.yfmt) d.ybase 24 d.ystride d.v] else [])
      ++ (if laneUsesZ op then [vecOpd false d.zb (fs d.zfmt) d.zbase 32 d.zstride d.v] else [])
      ++ [vecOpd true false (fs d.ofmt) d.obase 40 d.ostride d.v]
      ++ (if laneSlope op d then [vecOpd (op == 6) false [4] d.slbase 48 d.slstride d.v] else []))
  | .put _ d => [{ red := true, write := true, base := d.dbase, off := 12, stride := some (d.dstride, 64, 16),
                   span := if d.src.nrows = 0 then 0 else (d.src.nrows - 1) * d.dstride + 512 }]
  | .get d => [{ red := true, base := d.sbase, off := 8, span := d.len }, { write := true, base := d.tbase, off := 12, span := d.len }]
  | .mark _ | .wait _ | .fence _ => []

/-! ### Checks (R178, R582) -/

/-- The formats that a format byte of field `f` may stand for: every rung from MIN_RUNG to MAX_RUNG and a pinned rung (R147). -/
def State.fmtSet (s : State) (f b : Nat) : List Nat :=
  if 128 ≤ b then
    let x := smapGet ({} : SteerSlot) (s.fld f).steer.slots (b % 64)
    ((List.range 4).filter (fun r => (x.minRung ≤ r && r ≤ x.maxRung) || (x.pinned && r == x.rung))).map rungFmt
  else [b % 8]

/-- Whether two formats form a pair of R39. -/
def pairOk (a b : Nat) : Bool :=
  (match a with
    | 0 => [0, 1, 2] | 1 | 2 => [0, 1, 2, 3, 4] | 3 | 4 => [1, 2, 3, 4, 6] | 5 => [5, 7] | 6 => [3, 4, 6] | _ => [5, 7] : List Nat).contains b

/-- Whether every pair of two sets is legal (R147). -/
def pairsOk (a b : List Nat) : Bool := a.all (fun x => b.all (pairOk x))

/-- Whether a value is finite and above zero (R126). -/
def f32Pos (x : F32) : Bool := (f32Val x).isFin && !(f32Val x).isNeg && !(f32Val x).isZero

/-- Check 1: a field that must be zero, or a field that fits its bits. -/
def dkMust (ok : Bool) (off : Nat) : Check := { order := 1, ok := ok, status := stValue, off := off }
/-- Check 2. -/
def dkZero (ok : Bool) (off : Nat) : Check := { order := 2, ok := ok, status := stZero, off := off }
/-- Check 3. -/
def dkFormat (ok : Bool) (off : Nat) : Check := { order := 3, ok := ok, status := stFormat, off := off }
/-- Check 4. -/
def dkAlign (ok : Bool) (off : Nat) : Check := { order := 4, ok := ok, status := stAlign, off := off }
/-- Check 5. -/
def dkValue (ok : Bool) (off : Nat) : Check := { order := 5, ok := ok, status := stValue, off := off }
/-- Check 6. -/
def dkTarget (ok : Bool) (off : Nat) : Check := { order := 6, ok := ok, status := stTarget, off := off }

/-- The checks an operand shares with every other: stride, alignment, range. -/
def opdChecks (o : Opd) : List Check :=
  dkAlign (o.base % 64 == 0) o.off :: dkTarget (o.span == 0 || o.base + o.span ≤ (if o.red then redBytes else tileStoreBytes)) o.off
    :: (match o.stride with
      | some (v, unit, off) => [dkZero (v != 0) off, dkAlign (v % unit == 0) off]
      | none => [])

/-- The checks of the accumulator rows of DRAIN and PUT (R75, R194, R199). -/
def rowsChecks (d : RowsD) : List Check :=
  [dkMust (d.s0 < 8 && d.q0 < 128 && d.nrows < 2048) 4, dkValue (d.s0 * 128 + d.q0 + d.nrows ≤ 1024) 5]

/-- A side of a PASS that is not used is zero (R193). -/
def sideBlank (p : PassSide) : Bool :=
  decide (p = { s0 := 0, q0 := 0, acc := false, amode := 0, msc := false, ssc := false, mfmt := 0, sfmt := 0, mbase := 0, mstride := 0,
                msbase := 0 })

/-- The checks of a side of a PASS in use; `o` is the byte offset of its first word. -/
def sideChecks (fs : Nat → List Nat) (m : Nat) (p : PassSide) (o : Nat) : List Check :=
  [dkMust (p.s0 < 8 && p.q0 < 128 && p.amode < 4 && p.mfmt < 256 && p.sfmt < 256) o, dkMust (p.msc || p.msbase == 0) (o + 12),
   dkFormat (fmtFieldOk p.mfmt) (o + 2), dkFormat (fmtFieldOk p.sfmt) (o + 3), dkFormat (pairsOk (fs p.mfmt) (fs p.sfmt)) (o + 2),
   dkFormat (!p.msc || fs p.mfmt == [5]) (o + 1), dkFormat (!p.ssc || fs p.sfmt == [5]) (o + 1),
   dkValue (p.s0 * 128 + p.q0 + m ≤ 1024) o, dkValue (p.amode < 3) (o + 1)]

/-- The operand fields of a ROW that its operation does not use are zero (R196). FIRST, MODE, REBUILD and EPS are no operands, and XBASE is
one of SMX_FWD whatever FIRST says: they carry no such ruling (DESIGN CHOICE, assumption 96). -/
def rowUnused (op : Nat) (d : RowD) : List Check :=
  (if rowInputs op then [] else [dkMust (d.ifmt == 0) 24, dkMust (d.ibase == 0) 32, dkMust (d.istride == 0) 36])
  ++ (if rowSecond op then [] else [dkMust (d.i2fmt == 0) 25, dkMust (d.i2base == 0) 40, dkMust (d.i2stride == 0) 44])
  ++ (if rowWrites op then [] else [dkMust (d.ofmt == 0) 26, dkMust (d.obase == 0) 48, dkMust (d.ostride == 0) 52])
  ++ (if rowExtra op then [] else [dkMust (d.xbase == 0) 56])

/-- Whether a format byte of a ROW names only F32, BF16, H16, E5M2 or E4M3 (R134). -/
def rowFmtOk (fs : Nat → List Nat) (b : Nat) : Bool := fmtFieldOk b && (fs b).all (fun x => decide (x ≤ 4))

/-- The checks of a ROW beside its operands (R134, R196). -/
def rowChecks (fs : Nat → List Nat) (op : Nat) (d : RowD) : List Check :=
  [dkMust (op < 16 && d.rtag < 8 && d.q0 < 65536 && d.r < 2 ^ 17 && d.n < 2 ^ 25 && d.b0 < 2 ^ 17 && d.b < 2 ^ 18) 4,
   dkFormat (!rowInputs op || rowFmtOk fs d.ifmt) 24, dkFormat (!rowSecond op || rowFmtOk fs d.i2fmt) 25,
   dkFormat (!rowWrites op || rowFmtOk fs d.ofmt) 26,
   dkFormat (!rowSecond op || pairsOk (fs d.ifmt) (fs d.i2fmt)) 25,
   dkValue (op ≤ 8) 4, dkValue (if op = 8 then d.rtag ≤ 5 else d.rtag == 0) 4, dkValue (d.q0 + d.r ≤ 65536) 8, dkValue (!(d.first && d.b0 != 0)) 4,
   dkValue (d.n ≤ 2 ^ 24) 12, dkValue (d.b ≤ 131072 && d.b0 + d.b ≤ 131072) 20,
   dkValue ((f32Val d.eps).isFin && (!(f32Val d.eps).isNeg || (f32Val d.eps).isZero)) 28]
  ++ (if op ≤ 8 then rowUnused op d else [])

/-- The fields of a LANE that its operation does not use are zero (R190, R197). -/
def laneUnused (op : Nat) (d : LaneD) : List Check :=
  (if op = 6 || op = 7 then [] else [dkMust (d.act == 0) 4])
  ++ (if laneUsesY op d.act then [] else [dkMust (!d.yb) 5, dkMust (d.yfmt == 0) 13, dkMust (d.ybase == 0) 24, dkMust (d.ystride == 0) 28])
  ++ (if laneUsesZ op then [] else [dkMust (!d.zb) 5, dkMust (d.zfmt == 0) 14, dkMust (d.zbase == 0) 32, dkMust (d.zstride == 0) 36])
  ++ (if laneSlope op d then [] else [dkMust (d.slbase == 0) 48, dkMust (d.slstride == 0) 52])

/-- The checks of a LANE beside its operands (R126, R197, R198). -/
def laneChecks (fs : Nat → List Nat) (op : Nat) (d : LaneD) : List Check :=
  [dkMust (op < 16 && d.act < 16 && d.v < 2 ^ 20 && d.xfmt < 256 && d.yfmt < 256 && d.zfmt < 256 && d.ofmt < 256) 4,
   dkFormat (fmtFieldOk d.xfmt) 12, dkFormat (!laneUsesY op d.act || (fmtFieldOk d.yfmt && pairsOk (fs d.xfmt) (fs d.yfmt))) 13,
   dkFormat (!laneUsesZ op || (fmtFieldOk d.zfmt && (fs d.zfmt).all (fun x => decide (x ≤ 2)))) 14, dkFormat (fmtFieldOk d.ofmt) 15,
   dkValue (op ≤ 10) 4, dkValue (!d.slope || (8 ≤ d.act && d.act ≤ 11)) 5,
   dkValue (!(op == 6 || op == 7) || d.act ≤ 11) 4, dkValue (op != 5 || (f32Val d.alpha).isFin) 56,
   dkValue (!((op == 6 || op == 7) && (d.act == 2 || d.act == 3)) || f32Pos d.alpha) 56]
  ++ (if op ≤ 10 then laneUnused op d else [])

/-- The checks of a DRAIN beside its operands (R126, R129, R190, R194, R582). -/
def drainChecks (fs : Nat → List Nat) (d : DrainD) : List Check :=
  rowsChecks d.src ++
  [dkMust (d.ofmt < 256 && d.act < 16 && d.hslot < 64) 8, dkMust (d.slope || d.slbase == 0) 24, dkMust (d.slope || d.slstride == 0) 28,
   dkMust (d.smx || d.stbase == 0) 32, dkMust (d.oscale || d.scbase == 0) 36,
   dkFormat (fmtFieldOk d.ofmt) 8, dkFormat (!d.oscale || fs d.ofmt == [5]) 7,
   dkValue (!d.merge || d.smx) 7, dkValue (!d.slope || (8 ≤ d.act && d.act ≤ 11)) 7, dkValue (d.act ≤ 11) 9,
   dkValue (!(d.act == 2 || d.act == 3) || f32Pos d.alpha) 12]

/-- Whether every row of a LOAD or STORE lies in the stack of a field of the tile's partition (R20, R27). -/
def State.stackRows (s : State) (f : Nat) (d : MoveD) : Bool :=
  (List.range d.rows).all (fun i =>
    let a := d.addr + i * d.sstride
    let g := a / 2 ^ 37
    a < 2 ^ 43 && (s.partOf g).isSome && s.partOf g == s.partOf f && s.stackRange g (a % 2 ^ 37) d.bytes)

/-- The checks of LOAD and STORE beside their tile-store operand (R191). -/
def State.moveChecks (s : State) (f : Nat) (d : MoveD) : List Check :=
  [dkMust (d.bytes < 2 ^ 26 && d.tclass < 4 && d.rows < 2 ^ 20 && d.addr < 2 ^ 48) 4, dkZero (d.sstride != 0) 20,
   dkAlign (d.bytes % 64 == 0) 4, dkAlign (d.addr % 64 == 0) 12, dkAlign (d.sstride % 64 == 0) 20, dkValue (d.bytes ≤ 41943040) 4,
   dkTarget (d.rows == 0 || d.bytes == 0 || s.stackRows f d) 12]

/-- The checks of a kind beside its operands. The fields of a WAIT that its MODE does not use carry no ruling and may hold any value (DESIGN
CHOICE, assumption 95). -/
def State.kindChecks (s : State) (f : Nat) : DKind → List Check
  | .load d | .store d => s.moveChecks f d
  | .stage d =>
    [dkMust (d.arrays < 4 && d.fmt < 256) 4, dkValue (d.arrays != 0) 4, dkFormat (fmtFieldOk d.fmt) 5, dkFormat (!d.sscale || s.fmtSet f d.fmt == [5]) 4,
     dkFormat (!(d.diag && (d.sscale || (s.fmtSet f d.fmt).any isBlockFmt))) 4]
  | .swap a => [dkMust (a < 4) 4, dkValue (a != 0) 4]
  | .pass d =>
    [dkMust (d.arrays < 4 && d.m < 2048 && d.kblk < 65536) 4, dkValue (d.arrays != 0) 4, dkMust (d.arrays != 3 || !d.orient) 4, dkValue (d.m ≤ 1024) 4,
     dkMust (passUsesA d || sideBlank d.a) 8, dkMust (passUsesB d || sideBlank d.b) 24]
    ++ (if passUsesA d then sideChecks (s.fmtSet f) d.m d.a 8 else []) ++ (if passUsesB d then sideChecks (s.fmtSet f) d.m d.b 24 else [])
  | .drain d => drainChecks (s.fmtSet f) d
  | .row op d => rowChecks (s.fmtSet f) op d
  | .lane op d => laneChecks (s.fmtSet f) op d
  | .put _ d => rowsChecks d.src ++ [dkMust (d.cidx < 65536) 8]
  | .get d => [dkMust (d.len < 2 ^ 26) 4, dkAlign (d.len % 64 == 0) 4]
  | .mark n => [dkMust (n < 32) 4, dkValue (s.markNamed n) 4]
  | .wait d => [dkMust (d.mode < 4 && d.sem < 16 && d.mark < 32 && d.count < 65536 && d.step < 2 ^ 48) 4, dkValue (d.mode == 0 || s.markNamed d.mark) 4]
  | .fence q => [dkMust (q < 16) 4]

/-- Every check of a descriptor for a tile. -/
def State.descChecks (s : State) (tile : Nat) (d : Descriptor) : List Check :=
  dkMust (d.hdr.sigSem < 16 && d.hdr.htag < 256) 0 :: s.kindChecks (tile / 16) d.kind
    ++ (operandsOf (s.fmtSet (tile / 16)) d.kind).flatMap opdChecks

/-- The failing check that decides: the lowest in the order of R178, within it the lowest byte offset (R501). -/
def lowestFail (cs : List Check) : Option Check :=
  cs.foldl (fun best c => if c.ok then best else match best with
    | none => some c
    | some b => if c.order < b.order || (c.order == b.order && c.off < b.off) then some c else some b) none

/-- Whether the queue-time checks pass (R177). -/
def State.descOk (s : State) (tile : Nat) (d : Descriptor) : Bool := (s.descChecks tile d).all (fun c => c.ok)

/-- The failing check of a descriptor as its words stand: KIND and RSVD bits first (R178, R188, R204). -/
def State.wordsFail (s : State) (tile : Nat) (ws : List Nat) : Option Check :=
  match readDescriptor ws with
  | none => some (dkMust false 0)
  | some d => lowestFail (dkMust (rsvdClear ws) 0 :: dkValue (ws.getD 0 0 % 16 != 9 || bitsAt (ws.getD 1 0) 24 2 < 2) 7 :: s.descChecks tile d)

/-! ### Overlap (R181) -/

/-- The 64-byte words an operand spans, lowest and highest. -/
def Opd.words (o : Opd) : Option (Nat × Nat) := if o.span = 0 then none else some ((o.base + o.low) / 64, (o.base + o.span - 1) / 64)

/-- Whether two operands touch a common word. -/
def Opd.meets (a b : Opd) : Bool :=
  a.red == b.red && match a.words, b.words with
    | some x, some y => x.1 ≤ y.2 && y.1 ≤ x.2
    | _, _ => false

/-- The operands a descriptor touches: a ROW of no rows, blocks or elements touches none, and SMX_FWD reads its statistics only with FIRST = 1
(R134, R137). -/
def touchedOf (fs : Nat → List Nat) (k : DKind) : List Opd :=
  match k with
  | .row op d =>
    if d.r = 0 || d.b = 0 || d.n = 0 then []
    else (operandsOf fs k).filter (fun o => !(op == 0 && !d.first && o.off == 56))
  | _ => operandsOf fs k

/-- Whether an earlier descriptor `a`, of the formats `fa`, writes what the next reads or writes, or reads what the next writes (R181). -/
def overlaps (fa fb : Nat → List Nat) (a b : DKind) : Bool :=
  (touchedOf fa a).any (fun x => (touchedOf fb b).any (fun y => (x.write || y.write) && x.meets y))

end Sys2Proof.Machine
end

