-- ==== Sys2Proof/Machine/Reduce.lean ====
section
/-! DEFINITION. Machine/Reduce.lean: the reduction buffer: PUT, its EXACT order and its faults, GET (R115, R116, R199, R200,
R581). -/

namespace Sys2Proof.Machine

/-- What a field keeps of its reduction buffer beside its words: the contributor index each word awaits, by offset ÷ 4. -/
abbrev AwaitMap := SMap Nat

/-- The word offsets (÷ 4) a PUT touches, in row order. With NROWS = 0 it stands for the 128 words at DBASE (R204; assumption
12). -/
def putWords (d : PutD) : List Nat :=
  (List.range (max d.src.nrows 1)).flatMap (fun q => (List.range 128).map (fun c => (d.dbase + q * d.dstride) / 4 + c))

/-- Whether EXACT holds the PUT: some word awaits a lower contributor index (R116). One of no rows is held by nothing (R204). -/
def putHeld (aw : AwaitMap) (d : PutD) : Bool := d.src.nrows != 0 && (putWords d).any (fun w => smapGet 0 aw w < d.cidx)

/-- The reduction buffer's part of the state of a field: words in memory, awaited indices, the places that PUTs of no rows have taken ahead
of their turn, the field's meter. -/
structure RedState where
  mem : Memory
  awaits : AwaitMap
  placed : List (Nat × Nat)
  meter : Meter
  deriving DecidableEq, Repr

/-- The index a word awaits from `n` on: those that PUTs of no rows have taken as their place are passed (R204). -/
def passPlaced (placed : List (Nat × Nat)) (w : Nat) : Nat → Nat → Nat
  | 0, n => n
  | k + 1, n => if placed.contains (w, n) then passPlaced placed w k (n + 1) else n

/-- A word's contribution `cidx` is in: it awaits the next index. -/
def RedState.next (s : RedState) (w cidx : Nat) : RedState :=
  { s with awaits := smapSet s.awaits w (passPlaced s.placed w s.placed.length (cidx + 1)) }

/-- A PUT of no rows counts as contributor `cidx` of a word: now, or when the word comes to that index (R204). -/
def RedState.place (s : RedState) (w cidx : Nat) : RedState :=
  let n := smapGet 0 s.awaits w
  if cidx = n then s.next w cidx else if cidx < n then s else { s with placed := s.placed ++ [(w, cidx)] }

/-- The place of an element of the field's own sources (R172). -/
def fieldLocus (step tag col source : Nat) : Locus := { col := col, source := source, tag := tag, step := step }

/-- Adds one value into a word, whose subnormal content is read as zero and counted (R61, R115, R116, R581). -/
def putAddWord (exact : Bool) (field cidx : Nat) (l : Locus) (w : Nat) (v : F32) (s : RedState) : RedState :=
  let a := redAddr field (4 * w)
  if exact && cidx < smapGet 0 s.awaits w then
    { s with mem := memWriteF32 s.mem a nanF32, meter := (s.meter.mismatch l.tag).element l (.invalid 9) }
  else
    let word := memReadF32 s.mem a
    let old := flushF32 word
    let r := fAdd old v
    let s1 := { s with mem := memWriteF32 s.mem a r
                       meter := (s.meter.flushes l.tag (b2n (f32Subnormal word))).element l (clsOf 3 [f32Val old, f32Val v] (f32Val r)) }
    if exact then s1.next w cidx else s1

/-- Replaces one word; the index it awaits returns to 0 (R199, R581). -/
def putWriteWord (field : Nat) (w : Nat) (v : F32) (s : RedState) : RedState :=
  { s with mem := memWriteF32 s.mem (redAddr field (4 * w)) v, awaits := smapErase s.awaits w,
           placed := s.placed.filter (fun p => p.1 != w) }

/-- The rows of a PUT, read and added or written; the tile's rows are cleared as CLEAR says (R105, R199). -/
def putRows (cx : DescCtx) (field : Nat) (write : Bool) (d : PutD) (s : RedState) (t : TileState) : RedState × TileState :=
  if d.src.nrows = 0 then
    (if cx.exact && !write then (putWords d).foldl (fun ss w => ss.place w d.cidx) s else s, t)
  else
    (List.range d.src.nrows).foldl (fun (st : RedState × TileState) q =>
      let k := rowsKey d.src q
      let rd := readRow cx.exact d.msel (st.2.acc k)
      let s' := (rd.zipIdx).foldl (fun ss p =>
        let w := (d.dbase + q * d.dstride) / 4 + p.2
        let l := fieldLocus cx.step cx.htag p.2 5
        let s1 := { ss with meter := ss.meter.element l p.1.2 }
        if write then putWriteWord field w p.1.1 s1 else putAddWord cx.exact field d.cidx l w p.1.1 s1) st.1
      (s', clearRow d.src.clear k st.2)) (s, t)

/-- Only the clearing of the rows read: what a discarded PUT does (R248, R468; assumption 13). -/
def putDiscard (d : PutD) (t : TileState) : TileState :=
  (List.range d.src.nrows).foldl (fun tt q => clearRow d.src.clear (rowsKey d.src q) tt) t

/-- GET: bytes from the reduction buffer to the tile store, unchanged (R200). -/
def getEffect (tile field : Nat) (d : GetD) (mem : Memory) : Memory :=
  memCopy mem (redAddr field d.sbase) (tileAddr tile d.tbase) d.len

end Sys2Proof.Machine
end

