-- ==== Sys2Proof/Machine/Completion.lean ====
section
/-! DEFINITION. Machine/Completion.lean: posting completions: entries of the completion rings, their order against events and against the postings that
a link which was down holds (R423, R424, R473, R474, R485, R486, R493). -/

namespace Sys2Proof.Machine

/-- Whether a command's work is repeated at an abort (R422): tile programs of the training partition queued in the step, except
evaluation streams, and collectives of it issued in the step. -/
def OutCmd.repeats (c : OutCmd) (train : Nat) : Bool :=
  c.part == train && c.inStep && c.phase != .waiting && match c.body with
  | .tileProgram _ => !c.hdr.eval
  | .collective _ _ => true
  | _ => false

/-- Whether a command holds an entry of its completion ring: from its start, or its rejection, until it is posted. -/
def OutCmd.holdsEntry (c : OutCmd) : Bool := c.slot && !c.posted

/-- Whether the completion ring of queue `q` has an entry free of posted and held ones. -/
def State.ringFree (s : State) (q : Nat) : Bool :=
  let ring := (s.cmdQueue q).cq
  let r := smapGet ({} : CRing) s.host.crings ring
  let held := (s.host.cmds.filter (fun c => c.holdsEntry && (s.cmdQueue c.hdr.queue).cq == ring)).length
  r.enabled && decide (r.used + held < 2 ^ r.log)

/-- The 32 bytes of a completion entry. -/
def OutCmd.entry (c : OutCmd) (phase : Bool) : List Byte :=
  leBytes 4 c.hdr.seq ++ leBytes 2 c.status ++ leBytes 1 c.hdr.queue ++ leBytes 1 (b2n phase) ++ leBytes 4 c.detail ++ leBytes 2 c.sqhead
    ++ [0, 0] ++ leBytes 4 c.r0 ++ leBytes 4 c.r1 ++ leBytes 4 c.r2 ++ leBytes 4 c.r3

/-- Whether a posted command stays in hand because a replay would repeat its work (R422, R424). -/
def State.keepsPosted (s : State) (c : OutCmd) : Bool :=
  (s.bcn.begun || s.bcn.recovering) && match s.trainPart with
    | some p => c.repeats p
    | none => false

/-- A posted command leaves those in hand, or stays for a replay. -/
def State.markPosted (s : State) (c : OutCmd) : State :=
  if s.keepsPosted c then s.modCmd c.uid (fun x => { x with posted := true })
  else s.modHost (fun h => { h with cmds := h.cmds.filter (fun x => x.uid != c.uid) })

/-- The ring after an entry has been written. -/
def CRing.posted (r : CRing) : CRing :=
  let last := r.post + 1 == 2 ^ r.log
  { r with post := if last then 0 else r.post + 1, used := r.used + 1, phase := if last then !r.phase else r.phase }

/-- The oldest completion of a queue is posted, in queue order, once the command has completed, the link is UP and its ring has room: its own entry,
or for one that was rejected while none was free an entry that nothing holds (R485); its interrupt follows when IRQ is set. -/
def State.postOne (s : State) (q : Fin 64) : State :=
  let ring := (s.cmdQueue q).cq
  let r := smapGet ({} : CRing) s.host.crings ring
  match s.host.cmds.find? (fun c => c.hdr.queue == q && !c.posted) with
  | none => s
  | some c =>
    if c.phase != .done || s.host.state != 2 || !r.enabled || r.stopped || 2 ^ r.log ≤ r.used || !(c.slot || s.ringFree q) then s
    else
      let s1 : State := { s with hostMem := memWriteBytes s.hostMem (r.base + 32 * r.post) (c.entry r.phase) }
      let s2 := (s1.modCring ring CRing.posted).markPosted c
      if c.hdr.irq then s2.emit (.irq r.vec) else s2

/-- Every completion that is ready now is posted: a command that completes together with an event goes before it (R493). -/
def State.postReady (s : State) : State := s.forAll s.host.cmds (fun s c => s.postOne c.hdr.queue)

/-- A link that returns carries what was held, by class; the completions that are ready go with the class RING, before BULK (R473, R474). -/
def State.release (s : State) : State :=
  let xs := s.linkOrder s.host.held
  let bulk := fun (x : Posting) => match x.cls with | .shutter | .bulk _ _ => true | _ => false
  ((((s.modHost (fun h => { h with held := [] })).forAll (xs.filter (fun x => !bulk x)) State.handOver).postReady).forAll (xs.filter bulk) State.handOver)

end Sys2Proof.Machine
end

