-- ==== Sys2Proof/Machine/Routing.lean ====
section
/-! DEFINITION. Machine/Routing.lean: fabric routing (R307, R319, R320) and the flare tree (R346). -/

namespace Sys2Proof.Machine

/-- What a module does with a frame (R319): keep it, drop it, or send it out of a port with new DIRLOCK and VL. `both` says that both
ring directions of the dimension are closed (R330). -/
inductive Hop where
  | deliver
  | drop (both : Bool)
  | via (port dirlock vl : Nat)
  deriving DecidableEq, Repr

/-- The distance of an offset around a ring of size `n` (R319); `x` is taken modulo `n`. -/
def ringDist (n x : Nat) : Nat := min (x % n) ((n - x % n) % n)

/-- The dimension a port runs along, if it has a role. -/
def Blob.portDim (b : Blob) (p : Nat) : Option Nat := if p < 6 then some (p / 2) else b.expressDim p

/-- The lowest open express port of a dimension. -/
def Blob.expressPort (b : Blob) (shut : Nat → Bool) (d : Nat) : Option Nat :=
  ([6, 7] : List Nat).find? (fun p => b.expressDim p == some d && !shut p)

/-- One dimension of R319 at module `h` for a frame to `t`. `shut p` says that port `p` is closed, `arr` the port of arrival. The
direction recorded at a detour is the one the frame travels in: away from its port of arrival (assumption 23). -/
def hopIn (b : Blob) (shut : Nat → Bool) (h t : MapMember) (arr : Option Nat) (lock vl d : Nat) : Hop :=
  let n := b.dim d
  let x := h.coord d
  let y := t.coord d
  let here := match arr with | some p => b.portDim p == some d | none => false
  let vl1 := if here then vl else 1
  let lock1 := if here && lock.testBit d then 2 ^ d else 0
  let lane := fun (v : Nat) => if vl = 1 || vl = 2 then v else vl
  if !b.wraps d then
    let p := if x < y then 2 * d else 2 * d + 1
    if shut p then .drop false else .via p 0 (lane 1)
  else
    let fwd := (y + n - x) % n
    let back := n - fwd
    let ring := fun (plus : Bool) (lk : Nat) =>
      let cross := if plus then x + 1 == n else x == 0
      Hop.via (if plus then 2 * d else 2 * d + 1) lk (lane (if cross then 2 else vl1))
    let shutDir := fun (plus : Bool) => shut (if plus then 2 * d else 2 * d + 1)
    if lock1 != 0 then
      let plus := arr == some (2 * d + 1)
      if shutDir plus then .drop (shutDir true && shutDir false) else ring plus lock1
    else match b.expressPort shut d with
      | some p =>
        if 1 + ringDist n (fwd + n - n / 2) < min fwd back then .via p 0 (lane 2)
        else if !shutDir (decide (fwd ≤ back)) then ring (decide (fwd ≤ back)) 0
        else if !shutDir (!decide (fwd ≤ back)) then ring (!decide (fwd ≤ back)) (2 ^ d)
        else .drop true
      | none =>
        if !shutDir (decide (fwd ≤ back)) then ring (decide (fwd ≤ back)) 0
        else if !shutDir (!decide (fwd ≤ back)) then ring (!decide (fwd ≤ back)) (2 ^ d)
        else .drop true

/-- R319: the first dimension in which the coordinates differ decides. -/
def hopOf (b : Blob) (shut : Nat → Bool) (h t : MapMember) (arr : Option Nat) (lock vl : Nat) : Hop :=
  match (List.range 3).find? (fun d => h.coord d != t.coord d) with
  | some d => hopIn b shut h t arr lock vl d
  | none => .deliver

/-! ### The flare tree (R346) -/

/-- Whether a port of a member is out of the tree: no neighbour, or a FENCE names one of its ends. -/
def shutAt (b : Blob) (fences : List (Nat × Nat)) (m : MapMember) (p : Nat) : Bool :=
  match b.neighbour m p with
  | some (n, q) => fences.contains (m.id, p) || fences.contains (n.id, q)
  | none => true

/-- A member's parent port toward the keeper. -/
def parentPort (b : Blob) (fences : List (Nat × Nat)) (keeper m : MapMember) : Option Nat :=
  match hopOf b (shutAt b fences m) m keeper none 0 0 with
  | .via p _ _ => some p
  | _ => none

/-- The ports of a member whose neighbours have it as their parent. -/
def childPorts (b : Blob) (fences : List (Nat × Nat)) (keeper m : MapMember) : List Nat :=
  (List.range 8).filter (fun p => match b.neighbour m p with
    | some (n, q) => n.id != keeper.id && parentPort b fences keeper n == some q
    | none => false)

/-- Hops from a member to another by R319, at most `fuel`. -/
def hopsTo (b : Blob) (fences : List (Nat × Nat)) (t : MapMember) : Nat → MapMember → Option Nat → Nat → Nat
  | 0, _, _, _ => 0
  | fuel + 1, m, arr, lock =>
    match hopOf b (shutAt b fences m) m t arr lock 1 with
    | .via p lk _ =>
      match b.neighbour m p with
      | some (n, q) => 1 + hopsTo b fences t fuel n (some q) lk
      | none => 0
    | _ => 0

/-- D: the largest number of hops from a member to the keeper. -/
def Blob.depthTo (b : Blob) (fences : List (Nat × Nat)) (keeper : Nat) : Nat :=
  match b.member keeper with
  | some k => b.members.foldl (fun a m => max a (hopsTo b fences k 64 m none 0)) 0
  | none => 0

/-- H: the island's diameter in hops. -/
def Blob.diameter (b : Blob) : Nat := b.members.foldl (fun a m => max a (b.depthTo [] m.id)) 0

/-- This module's own member record. -/
def State.self (s : State) : Option MapMember := if s.place.placed then s.blob.member s.place.moduleId else none

/-- This module's parent port in the flare tree. -/
def State.parent (s : State) : Option Nat :=
  match s.self, s.blob.member s.bcn.keeperId with
  | some m, some k => if m.id = k.id then none else parentPort s.blob s.bcn.fences k m
  | _, _ => none

/-- This module's child ports in the flare tree. -/
def State.children (s : State) : List Nat :=
  match s.self, s.blob.member s.bcn.keeperId with
  | some m, some k => childPorts s.blob s.bcn.fences k m
  | _, _ => []

/-- DEPTH is computed afresh when the tree changes (R346, R361). -/
def State.newDepth (s : State) : State :=
  if s.place.size = 0 then s else { s with place := { s.place with depth := s.blob.depthTo s.bcn.fences s.bcn.keeperId } }

end Sys2Proof.Machine
end

