-- ==== Sys2Proof/Machine/Link.lean ====
section
/-! DEFINITION. Machine/Link.lean: frames of the fabric and their links (R308 to R311, R345). -/

namespace Sys2Proof.Machine

/-! ### The layout of a frame (R308) -/

/-- The 28 header bytes of a frame (R308). -/
def fabHeader (f : FabFrame) : List Byte :=
  leBytes 2 (packBits [(0, f.lseq), (12, f.vl), (14, f.typ)]) ++ leBytes 2 (packBits [(0, f.ack), (12, b2n f.nak)])
    ++ leBytes 2 (packBits [(0, f.credit), (12, f.cvl)]) ++ leBytes 2 (packBits [(0, f.dest), (10, f.dirlock)]) ++ leBytes 2 f.src
    ++ leBytes 2 f.flow ++ leBytes 2 f.epoch ++ leBytes 2 (packBits [(0, f.payload.length), (10, f.kind)]) ++ leBytes 4 f.fseq ++ leBytes 8 f.arg

/-- The bytes of a frame before its CRC: header and payload. -/
def fabBytes (f : FabFrame) : List Byte := fabHeader f ++ f.payload

/-- The frame that header and payload bytes spell, if they hold as many payload bytes as LEN says and LEN is legal on its lane (R308). -/
def fabOf (bs : List Byte) : Option FabFrame :=
  let w := fun (o : Nat) => bytesAt bs o 2
  let len := w 14 % 1024
  let vl := w 0 / 2 ^ 12 % 4
  if bs.length = 28 + len && len ≤ 512 && (vl == 0 || len % 64 == 0) then
    some { lseq := w 0 % 4096, vl := vl, typ := w 0 / 2 ^ 14, ack := w 2 % 4096, nak := (w 2).testBit 12, credit := w 4 % 4096, cvl := w 4 / 2 ^ 12 % 4,
           dest := w 6 % 1024, dirlock := w 6 / 2 ^ 10 % 8, src := w 8 % 1024, flow := w 10 % 16384, epoch := w 12, kind := w 14 / 2 ^ 10,
           fseq := bytesAt bs 16 4, arg := bytesAt bs 20 8, payload := bs.drop 28 }
  else none

/-! ### Flare frames (R345) -/

/-- The ARG field of a flare frame (R345). -/
def flareArg (f : FlareFrame) : Nat :=
  packBits [(0, f.op), (8, f.key), (16, f.index), (32, f.step / 2 ^ 32), (48, f.attempt)]

/-- A flare frame as a frame of VL0 to the module at the other end of a port: the low step bits travel in FSEQ and the rest in ARG (R345). R308
leaves its TYPE, FLOW, EPOCH and KIND open: the model sends a CONTROL frame with zeros there (assumption 108). -/
def flareFab (src dest : Nat) (f : FlareFrame) : FabFrame :=
  { lseq := 0, vl := 0, typ := 1, ack := 0, nak := false, credit := 0, cvl := 0, dest := dest, dirlock := 0, src := src, flow := 0, epoch := 0, kind := 0,
    fseq := f.step % 2 ^ 32, arg := flareArg f, payload := f.payload }

/-- A member's contribution to a group's BARRIER (R324, R345): SRC stays that of the member while it passes toward the keeper and back, and EPOCH,
which R308 leaves open on VL0, carries the collective's sequence number (DESIGN CHOICE, assumptions 28, 108). -/
def barrierFab (member group seq step attempt : Nat) : FabFrame :=
  { flareFab member 0 { op := 0, key := 9, index := group, step := step, attempt := attempt, payload := [] } with epoch := seq % 65536 }

/-- The flare frame that a frame of VL0 carries (R345). -/
def flareOf (f : FabFrame) : FlareFrame :=
  { op := f.arg % 256, key := f.arg / 2 ^ 8 % 256, index := f.arg / 2 ^ 16 % 65536, step := f.fseq + 2 ^ 32 * (f.arg / 2 ^ 32 % 65536),
    attempt := f.arg / 2 ^ 48 % 256, payload := f.payload }

/-! ### Links (R309 to R311) -/

/-- The bytes of a frame on the link. -/
def frameSize (f : FabFrame) : Nat := 28 + f.payload.length + 4

/-- The 64-byte credits a frame takes (assumption 25). -/
def frameUnits (f : FabFrame) : Nat := ceilDiv (frameSize f) 64

/-- The receive buffer of a lane in 64-byte credits (R311). -/
def laneUnits (vl : Nat) : Nat := match vl with | 0 => 64 | 3 => 512 | _ => 6144

/-- Whether a frame may be sent now: replay buffer and credits (R309, R311). -/
def FabPort.room (p : FabPort) (f : FabFrame) : Bool :=
  decide (p.replay.length < 1920) && decide (p.replay.foldl (fun a x => a + frameSize x) 0 + frameSize f ≤ 2 ^ 20)
    && decide (smapGet 0 p.used f.vl + frameUnits f ≤ laneUnits f.vl)

/-- The link fields of the next frame out (R308): ACK, and the credits of the lowest lane that owes some. -/
def FabPort.stamp (p : FabPort) (f : FabFrame) (nak : Bool) : FabFrame :=
  let c := p.owed.find? (fun x => x.2 != 0)
  { f with lseq := p.txSeq, ack := (p.rxNext + 4095) % 4096, nak := nak, credit := min 4095 ((c.map Prod.snd).getD 0), cvl := (c.map Prod.fst).getD 0 }

/-- The credits that a frame carries leave those owed. -/
def FabPort.paid (p : FabPort) (f : FabFrame) : FabPort := { p with owed := smapModify 0 p.owed f.cvl (fun n => n - f.credit) }

/-- The first waiting frame of a lane, those that go ahead first (R447), if it may be sent. -/
def FabPort.firstOf (p : FabPort) (ahead : FabFrame → Bool) (vl : Nat) : Option FabFrame :=
  match (p.wait.find? (fun f => f.vl == vl && ahead f)).orElse (fun _ => p.wait.find? (fun f => f.vl == vl)) with
  | some f => if p.room f then some f else none
  | none => none

/-- Arbitration (R311): VL0, VL3, then VL1 and VL2 in turn. -/
def FabPort.pick (p : FabPort) (ahead : FabFrame → Bool) : Option FabFrame :=
  (p.firstOf ahead 0).orElse (fun _ => (p.firstOf ahead 3).orElse (fun _ =>
    (p.firstOf ahead (if p.turn then 2 else 1)).orElse (fun _ => p.firstOf ahead (if p.turn then 1 else 2))))

/-- Sends one frame of the waiting list. -/
def FabPort.sendOne (p : FabPort) (f : FabFrame) : FabPort × FabFrame :=
  let g := p.stamp f false
  ({ p.paid g with wait := p.wait.erase f, replay := p.replay ++ [g], txSeq := (p.txSeq + 1) % 4096,
                   used := smapModify 0 p.used f.vl (fun n => n + frameUnits f),
                   turn := if f.vl = 1 then true else if f.vl = 2 then false else p.turn }, g)

/-- Sends waiting frames while one may be sent. -/
def FabPort.pump (ahead : FabFrame → Bool) : Nat → FabPort → FabPort × List FabFrame
  | 0, p => (p, [])
  | fuel + 1, p =>
    match p.pick ahead with
    | some f =>
      let r := p.sendOne f
      let rest := FabPort.pump ahead fuel r.1
      (rest.1, r.2 :: rest.2)
    | none => (p, [])

/-- Sends waiting frames of VL0 while one may be sent. -/
def FabPort.pumpZero : Nat → FabPort → FabPort × List FabFrame
  | 0, p => (p, [])
  | fuel + 1, p =>
    match p.firstOf (fun _ => false) 0 with
    | some f =>
      let r := p.sendOne f
      let rest := FabPort.pumpZero fuel r.1
      (rest.1, r.2 :: rest.2)
    | none => (p, [])

/-! ### The flows of the engines (R316, R321, R383; assumption 134) -/

/-- The key of an engine's flow to a module. -/
def txKey (set peer : Nat) : Nat := 2 ^ 40 + set * 1024 + peer
/-- The key of an engine's flow from a module. -/
def rxSet (set src : Nat) : Nat := 2 ^ 41 + set * 1024 + src

/-- The ARG of an engine's packet: its set, and the collective segment index. -/
def engineArg (set i : Nat) : Nat := (set + 1) * 2 ^ 32 + i % 2 ^ 32

/-- The set that an ARG names, if any. -/
def argSet (arg : Nat) : Option Nat := if arg / 2 ^ 32 = 0 then none else some (arg / 2 ^ 32 - 1)

/-- The key of the flow of this module that a frame it sent, or an acknowledgement of one, belongs to; `peer` is the other end. -/
def flowKey (f : FabFrame) (peer : Nat) : Nat :=
  match (if f.kind = 0 then none else argSet f.arg) with
  | some set => txKey set peer
  | none => f.flow

/-- Whether a frame is this module's own bulk or collective traffic of a partition whose profile is SERVE (R447). -/
def State.servesFrame (s : State) (f : FabFrame) : Bool :=
  (f.vl == 1 || f.vl == 2) && f.src == s.place.moduleId && (smapFind s.fab.flows (flowKey f f.dest)).any (fun k => s.serves k.part)

/-- Sends what may be sent on a port; in a lane SERVE frames go ahead of others under the profile now in force (R447, R448). -/
def State.pumpPort (s : State) (p : Nat) : State :=
  let r := FabPort.pump s.servesFrame (s.port p).wait.length (s.port p)
  (s.modPort p (fun _ => r.1)).emits (r.2.map (fun f => .fabric p f))

/-- Queues a frame on a port that is UP; any other port drops it. -/
def State.linkSend (s : State) (p : Nat) (f : FabFrame) : State :=
  if (s.port p).state != 2 then s else (s.modPort p (fun x => { x with wait := x.wait ++ [f] })).pumpPort p

/-- An IDLE frame (R310). -/
def idleOf (nak : Bool) (p : FabPort) : FabFrame :=
  p.stamp { lseq := 0, vl := 0, typ := 2, ack := 0, nak := nak, credit := 0, cvl := 0, dest := 0, dirlock := 0, src := 0, flow := 0, epoch := 0,
            kind := 0, fseq := 0, arg := 0, payload := [] } nak

/-- Sends an IDLE frame. -/
def State.sendIdle (s : State) (p : Nat) (nak : Bool) : State :=
  let f := idleOf nak (s.port p)
  (s.modPort p (fun x => x.paid f)).emit (.fabric p f)

/-- A go-back-N replay of every unacknowledged frame (R309). -/
def State.replayPort (s : State) (p : Nat) : State :=
  let fs := (s.port p).replay
  if fs.isEmpty then s
  else (s.modPort p (fun x => { x with replaySeen := true, replays := satAdd 32 x.replays fs.length, tries := x.tries + 1 })).emits
    (fs.map (fun f => .fabric p f))

/-- Whether a frame is acknowledged by ACK: it precedes or is the frame of that LSEQ in the replay buffer. -/
def FabPort.acked (p : FabPort) (ack : Nat) : FabPort :=
  if p.replay.any (fun f => f.lseq == ack) then
    { p with replay := (p.replay.dropWhile (fun f => f.lseq != ack)).drop 1, tries := 0 }
  else p

/-- A port that retrained returns to routing, and into the flare tree, with the first frame it accepts (R315). -/
def State.portReturns (s : State) (p : Nat) : State :=
  let x := s.port p
  if !x.returning then s
  else ((s.modPort p (fun y => { y with returning := false })).modBcn (fun b =>
    { b with fences := b.fences.filter (fun f => f != (s.place.moduleId, p) && f != (x.peerModule, x.peerPort)) })).newDepth

/-- Sends the flare frames that may be sent on a port: they go ahead of a replay (R330). -/
def State.pumpFlare (s : State) (p : Nat) : State :=
  let r := FabPort.pumpZero (s.port p).wait.length (s.port p)
  (s.modPort p (fun _ => r.1)).emits (r.2.map (fun f => .fabric p f))

/-- ACK, NAK and credits of a frame that was received; flare frames go before the replay that a NAK asks for (R309 to R311, R330). -/
def State.linkFields (s : State) (p : Nat) (f : FabFrame) : State :=
  let s1 := (s.portReturns p).modPort p (fun x => { x.acked f.ack with used := smapModify 0 x.used f.cvl (fun n => n - f.credit) })
  if f.nak then (((s1.pumpFlare p).replayPort p).pumpPort p) else s1.pumpPort p

/-- A discarded frame: the first after an accepted one is answered with NAK (R309). -/
def State.linkDiscard (s : State) (p : Nat) (crc : Bool) : State :=
  let s1 := if crc then s.modPort p (fun x => { x with crcerr := satAdd 32 x.crcerr 1 }) else s
  if (s.port p).nakOut then s1 else (s1.sendIdle p true).modPort p (fun x => { x with nakOut := true })

/-- A DATA or CONTROL frame arrives: accepted when its LSEQ is the next expected one. Answers the state and whether it was accepted. -/
def State.linkAccept (s : State) (p : Nat) (f : FabFrame) : State × Bool :=
  if (s.port p).state != 2 then (s, false)
  else if f.typ = 3 then (s.linkDiscard p true, false)
  else if f.typ = 2 then (s.linkFields p f, false)
  else if f.lseq != (s.port p).rxNext then (s.linkDiscard p false, false)
  else ((s.linkFields p f).modPort p (fun x => { x with rxNext := (x.rxNext + 1) % 4096, nakOut := false,
                                                        owed := smapModify 0 x.owed f.vl (fun n => n + frameUnits f) }), true)

/-- Sends a flare frame to the module at the other end of a port: it waits in VL0 like any frame (R309, R311). -/
def State.flareSend (s : State) (p : Nat) (f : FlareFrame) : State :=
  s.linkSend p (flareFab s.place.moduleId (s.port p).peerModule f)

/-- A flare frame without link news has been accepted at a port as its next frame, as the flood rows bring it: RX moves on and its credits are
owed (R309, R311; assumption 108). -/
def State.flareTook (s : State) (p : Nat) (f : FlareFrame) : State :=
  (s.portReturns p).modPort p (fun x =>
    { x with rxNext := (x.rxNext + 1) % 4096, nakOut := false, owed := smapModify 0 x.owed 0 (fun n => n + frameUnits (flareFab 0 0 f)) })

/-- Sends a frame of VL0 on to the module at the other end of a port, SRC and EPOCH unchanged. -/
def State.flarePass (s : State) (p : Nat) (f : FabFrame) : State := s.linkSend p { f with dest := (s.port p).peerModule }

/-- A decision of the keeper: it is delivered here, and goes to each child, which sends it on unchanged (R345 to R347). -/
def State.broadcast (s : State) (f : FlareFrame) : State := (s.emit (.broadcast f)).forAll s.children (fun s p => s.flareSend p f)

end Sys2Proof.Machine
end

