-- ==== Sys2Proof/Machine/Recovery.lean ====
section
/-! DEFINITION. Machine/Recovery.lean: step aborts, faults and stopped partitions (chapter Failures, replay and ordering promises). -/

namespace Sys2Proof.Machine

/-! ### MOD_FAULT (R442) -/

/-- Sets a bit of MOD_FAULT. -/
def State.faultBit (s : State) (bit : Nat) : State :=
  { s with mods := { s.mods with fault := s.mods.fault ||| BitVec.ofNat 32 (2 ^ bit) } }

/-- Sets FIELD of MOD_FAULT. -/
def State.faultField (s : State) (f : Nat) : State := { s with mods := { s.mods with faultField := f } }

/-! ### What an abort clears -/

/-- The base of a field's reduction buffer in module memory (R18). -/
def redBase (f : Nat) : Nat := 0x081000000000 + f * 2 ^ 27

/-- The base of a tile's store. -/
def storeBase (t : Nat) : Nat := 0x080000000000 + t * 2 ^ 26

/-- The base of a field's stack. -/
def stackBase (f : Nat) : Nat := f * 2 ^ 37

/-- A group's gradient area set to +0 (R247). -/
def State.clearGrad (s : State) (f : Nat) (g : Group) : State :=
  { s with mem := memClear s.mem (redBase f + g.p.gbase) (4 * g.p.nelem) }

/-- A tile at a step abort: queues emptied without retiring, semaphores and lanes as at STEP_BEGIN, arrays, accumulators, side
memory, histograms and step counts cleared (R58, R92, R105, R145, R150, R161, R208). -/
def TileState.abort (t : TileState) : TileState :=
  { t with queues := smapMap (fun _ q => { q with source := [], ring := [], started := [], nextSeq := 0 }) t.queues,
           sems := t.savedSems, lanes := t.savedLanes, seedGens := [], arrA := {}, arrB := {}, accs := [], side := [], hist := [],
           meter := t.meter.zeroCounts, marks := 0, ueWords := t.ueWords }

/-- A group at a step abort (R260, R275, R282, R302, R416): what the attempt began is dropped, committed counts stay, the park of a
committed step is kept, and a write to HADDR on its way is still to be acknowledged. -/
def Group.abort (g : Group) (step : Nat) : Group :=
  { g with pendAcq := (0, 0), pendRel := (0, 0), exchanged := false, landed := [], sweep := 0, updated := false, skipped := false, borrow := 0, contribs := [],
           parks := g.parks.filter (fun p => p.step != step), wbq := g.wbq.map (fun k => if k = 0 then 2 else k), factor := 0x3F800000,
           outer := g.outer.map (fun x => { x with pend := {}, early := [], landing := smapMap (fun _ l => { l with late := false }) x.landing }) }

/-- An activation entry's progress at a step abort: transfers on their way are still to settle (R275). -/
def ActProg.abort (x : ActProg) : ActProg :=
  { offLate := x.offLate || (x.read && !x.off && !x.offFail), pfLate := x.pfLate || (x.pfRun && !x.pfDone && !x.pfFail) }

/-- A field at a step abort. -/
def Field.abort (d : Field) (step : Nat) : Field :=
  { d with meter := d.meter.zeroCounts, groups := smapMap (fun _ g => g.abort step) d.groups, sweeping := none, normWait := false,
           normSum := 0, normDone := false, refresh := false, awaits := [], placed := [] }



/-- Whether a completed command has no command before it in its queue whose completion has not been posted (R421 O1). -/
def HostLink.postable (h : HostLink) (c : OutCmd) : Bool :=
  (h.cmds.find? (fun x => x.hdr.queue == c.hdr.queue && !x.posted)).all (fun x => x.uid == c.uid)

/-- A repeated command at an abort: one that was posted, or whose completion is ready, has its work repeated without a second completion;
any other completes when the repeated work does (R423, R424, R441). -/
def OutCmd.replay (c : OutCmd) (ready : Bool) : OutCmd :=
  let d := { c with deferred := opcodeOf c.body == 0x0503 }
  if c.posted then { d with phase := .running }
  else if c.phase = .done && ready then { d with rework := true }
  else { d with phase := .running, replayed := true, status := if c.status = stReplayed then stDone else c.status, r0 := 0, r1 := 0, r2 := 0, r3 := 0 }

/-- Residue mismatches in segments that are discarded are counted in RETRIES, without a retry (R330). -/
def Fabric.lostMismatches (b : Fabric) (gs : List CollSeg) : Fabric :=
  { b with retries := satAdd 32 b.retries (gs.filter (fun g => g.bad != 0)).length }

/-- Whether a flow carries step traffic of the training partition (R329): a collective of a step, an exchange or a broadcast of a replica set. The
working copies of a committed version, and outer transfers, are no work of the step. -/
def Flow.stepTraffic (x : Flow) (train : Nat) : Bool :=
  x.part == train && x.engine.any (fun set => set < 1024 || (2 ^ 14 ≤ set && set < 2 ^ 15))

/-- A flow in its next epoch: nothing of the former one is left (R329). -/
def Flow.nextEpoch (x : Flow) : Flow :=
  { x with epoch := (x.epoch + 1) % 65536, nextTx := 0, unacked := [], queued := [], early := [], nextRx := 0, body := [], sinceAck := 0 }

/-- The training partition's step traffic moves to its next epoch (R329). -/
def Fabric.nextEpoch (b : Fabric) (train : Nat) : Fabric :=
  { b with epoch := (b.epoch + 1) % 65536,
           flows := smapMap (fun _ x => if x.stepTraffic train then x.nextEpoch else x) b.flows,
           groups := smapMap (fun _ g => if g.part == train then { g with epoch := (g.epoch + 1) % 65536 } else g) b.groups }

/-- The fabric at an abort of the training partition (R329, R330, R425). -/
def Fabric.abort (b : Fabric) (train : Nat) : Fabric :=
  let jobs := b.jobs.filter (fun j => !j.inStep)
  let goes := fun (n seq : Nat) => (match smapFind b.groups n with | some g => g.part == train | none => false)
    && !(jobs.any (fun j => j.p.group == n && j.seq % 65536 == seq % 65536))
  let b := (b.lostMismatches (b.earlySegs.filter (fun x => goes x.group x.seq))).nextEpoch train
  { b with groups := smapMap (fun _ g => if g.part == train then { g with seq := g.seqBegin } else g) b.groups,
           jobs := jobs, barriers := b.barriers.filter (fun x => !goes (x.1 / 2 ^ 48) x.1),
           earlySigs := b.earlySigs.filter (fun x => !goes x.group x.seq), earlySegs := b.earlySegs.filter (fun x => !goes x.group x.seq) }

/-- Every UP port of the fabric. -/
def State.upPorts (s : State) : List Nat := (List.range 8).filter (fun p => (s.port p).state == 2)

/-- Sends a flood on every UP port but one (R346). -/
def State.floodFrom (s : State) (except : Option Nat) (f : FlareFrame) : State :=
  s.forAll (s.upPorts.filter (fun p => some p != except)) (fun s p => s.flareSend p f)

/-- Completes the repeated commands with a status, and ends their repetition (R436, R438, R458). -/
def State.endRepeated (s : State) (train status : Nat) : State :=
  s.modHost (fun h => { h with cmds := (h.cmds.filter (fun c => !(c.repeats train && c.posted))).map (fun c =>
    if !c.repeats train then c
    else
      let d := { c with replayed := false, deferred := false, rework := false, inStep := false }
      if c.phase = .done then d else d.finish status []) })

/-- A start or a stop leaves the position at (s, STEP_BEGIN) with RECOVERING cleared (R436, R438, R458). -/
def State.abandonStep (s : State) (status : Nat) : State :=
  let s1 := match s.trainPart with | some p => s.endRepeated p status | none => s
  s1.modBcn (fun b => { b with recovering := false, running := false, hold := true, abandoned := some b.step, aborts := 0, opened := false })

/-- Whether a step is on its way: from the broadcast of its STEP_BEGIN to its EVAL_SLOT. -/
def Beacon.busy (b : Beacon) : Bool := b.opened || b.begun || b.phase == 0xF000

/-- A stop of the step line at the keeper: the next STEP_BEGIN is withheld, that of a step on its way to EVAL_SLOT after it (R344). -/
def State.haltLine (s : State) : State :=
  if s.bcn.busy then s.modBcn (fun b => { b with stopReq := true })
  else s.modBcn (fun b => { b with hold := true, running := false })

/-- Remembers an ABORT flood, so that later copies are dropped (R346). -/
def Beacon.sawFlood (b : Beacon) (step attempt : Nat) : Beacon := { b with floods := ((step, attempt) :: b.floods).take 16 }

/-- An ABORT takes effect at this module (R356, R435): ATTEMPT + 1, position (s, STEP_BEGIN), RECOVERING, and the step's work is
discarded. Past LIMIT the step is given up (R436). -/
def State.takeAbort (s : State) : State :=
  let step := s.bcn.step
  let s0 := s.modBcn (fun b =>
    { b with attempt := (b.attempt + 1) % 256, phase := 0, recovering := true, begun := false, decided := false, ready := false,
             doneSent := false, reached := 0, fieldReached := [], topMark := 0, rounds := b.rounds.filter (fun r => r.key == 5),
             waits := b.waits.filter (fun w => w.2.key == 5), overduePosted := false,
             aborts := b.aborts + 1, advance := none, opened := false })
  let s1 := { s0 with mods := { s0.mods with aborts := satAdd 16 s0.mods.aborts 1 } }
  let s2 : State := match s1.trainPart with
    | none => s1
    | some p =>
      let fs := s1.trainFields
      let a := s1.modHost (fun h => { h with cmds := h.cmds.map (fun c => if c.repeats p then c.replay (h.postable c) else c) })
      let b := a.forAll fs (fun s f => ((s.fld f).groups.foldl (fun s g => s.clearGrad f g.2) s).modFld f (fun d => d.abort step))
      let c := { b with tiles := smapMap (fun t x => if fs.contains (t / 16) then x.abort else x) b.tiles,
                        acts := b.acts.map (fun e => if e.1 / 1024 == p then (e.1, { e.2 with prog := smapMap (fun _ x => x.abort) e.2.prog }) else e),
                        fab := b.fab.abort p }
      c
  if s2.bcn.limit < s2.bcn.aborts then
    ((s2.abandonStep stAbStep).faultBit 6).postReady.event 6 4 16 0 (leBytes 8 step)
  else s2

/-- Whether an abort of the step in progress can take effect (R357, R358, R441): the step runs or is being recovered, and no COMMIT
decision is formed. -/
def State.canAbort (s : State) : Bool := (s.bcn.begun || s.bcn.recovering) && !s.bcn.decided

/-- What a module that is not the keeper and has contributed DONE takes the keeper's COMMIT decision to be when a fault or an ABORT comes before
that COMMIT: it is told of it by the delivery alone, so whether the decision was formed is a free value (R357; assumption 121). -/
def State.knowDecision (s : State) : State :=
  if s.isKeeper || !s.bcn.begun || !s.bcn.doneSent || s.bcn.decided then s
  else
    let formed := (Config.freshByte s.fresh).toNat % 2 == 1
    State.modBcn { s with fresh := s.fresh + 1 } (fun b => { b with decided := formed })

/-- A descriptor queued again for a replay. -/
def QEntry.again (e : QEntry) : QEntry := { e with dseq := 0, acted := false, held := false, waitStep := none, fenceSet := none, fmts := [] }

/-- A tile at an abort of a step that has not begun here: arrays, accumulators, side memory, histograms and step counts are cleared, and what
its queues hold runs again from the first descriptor that has not retired (R92, R105, R145, R150, R161, R208, R435). -/
def TileState.missed (t : TileState) : TileState :=
  { t with queues := smapMap (fun _ q => { q with source := (q.started ++ q.ring ++ q.source).map QEntry.again, ring := [], started := [] }) t.queues,
           seedGens := [], arrA := {}, arrB := {}, accs := [], side := [], hist := [], meter := t.meter.zeroCounts, marks := 0 }

/-- An ABORT of the step that this module is ready for and whose STEP_BEGIN has not come here takes effect (R356): the tiles of the training
partition are cleared as at every module (R435), and its STEP_BEGIN will be the first. -/
def State.takeMissed (s : State) (step : Nat) : State :=
  let s1 := s.modBcn (fun b =>
    { b with attempt := ((if b.abandoned = some step then b.attempt else 0) + 1) % 256, step := step, phase := 0, recovering := true, missed := true,
             decided := false, ready := false, doneSent := false, reached := 0, fieldReached := [], topMark := 0,
             rounds := b.rounds.filter (fun r => r.key == 5), waits := b.waits.filter (fun w => w.2.key == 5), overduePosted := false,
             aborts := 1, advance := none, opened := false })
  let fs := s.trainFields
  { s1 with mods := { s1.mods with aborts := satAdd 16 s1.mods.aborts 1 },
            fab := match s1.trainPart with | some p => s1.fab.nextEpoch p | none => s1.fab,
            fields := smapMap (fun f d => if fs.contains f then
              { d with meter := d.meter.zeroCounts, groups := smapMap (fun _ g => { g with contribs := [] }) d.groups } else d) s1.fields,
            tiles := smapMap (fun t x => if fs.contains (t / 16) then x.missed else x) s1.tiles }

/-- The flood of ABORT for an attempt of a step. -/
def abortFrame (step attempt : Nat) : FlareFrame := { op := 8, key := 7, index := 0, step := step, attempt := attempt, payload := [] }

/-- A group's emission starts again: after a fault between a COMMIT and the publication that follows it, the whole slot is written anew from
the master of bank BANK and the other ranks' shards (R261, R262). -/
def Group.restartEmission (g : Group) : Group := if g.pendingVer then { g with emitting := false, got := [] } else g

/-- Emission starts again in a field. -/
def State.restartEmission (s : State) (f : Nat) : State := s.modFld f (fun d => { d with groups := smapMap (fun _ g => g.restartEmission) d.groups })

/-- This module detects a fault that aborts the step: ABORT is flooded and takes effect here (R435; assumption 92). -/
def State.requestAbort (s : State) : State :=
  let u := s.knowDecision
  if u.canAbort && u.trainPart.isSome then
    ((u.floodFrom none (abortFrame u.bcn.step u.bcn.attempt)).modBcn (fun b =>
      { b.sawFlood b.step b.attempt with abortSeen := true })).takeAbort
  else u

/-- Emission starts again in every training field, as after a fault between a COMMIT and the publication that follows it (R261, R262). -/
def State.restartEmissions (s : State) : State :=
  if s.bcn.decided && !s.bcn.begun then s.forAll s.trainFields (fun s f => s.restartEmission f) else s

/-- A FAULT event HW_FAULT about a unit, for a partition (R430). -/
def State.hwEvent (s : State) (part unit : Nat) : State := s.event 10 1 part unit []

/-- A fault of the training partition's fabric, of a flow or of an adder lane: the HW_FAULT event, and for a training partition the abort with its
MOD_FAULT bit, or, where none can take effect, the restart of the emissions (R261, R314, R317, R328, R430, R442). -/
def State.hwFault (s : State) (bit part unit : Nat) : State :=
  let s1 := s.hwEvent part unit
  if !(s.part part).train then s1
  else
    let u := s1.knowDecision
    if u.canAbort then (u.faultBit bit).requestAbort else u.restartEmissions

/-! ### Stopped partitions (R437) -/

/-- Empties the tile queues of a partition as R208 does. -/
def State.emptyQueues (s : State) (p : Nat) : State :=
  { s with tiles := smapMap (fun t x => if (s.part p).holds (t / 16) then
      { x with queues := smapMap (fun _ q => { q with source := [], ring := [], started := [], stepLog := [] }) x.queues } else x) s.tiles }

/-- The status a STOPPED partition gives (R437). -/
def causeBit (cause : Nat) : Nat := if cause = stCapacity then 4 else if cause = stChannel then 5 else 0

/-- The event that goes with a cause: CAPACITY_LOST 3, CHANNEL_LOST 4, HW_FAULT 1 (R516). -/
def causeEvent (cause : Nat) : Nat := if cause = stCapacity then 3 else if cause = stChannel then 4 else 1

/-- Stops the training partition (R437): ABORT is flooded when it can take effect; with a decided COMMIT the stop takes effect once
that COMMIT has; queues are emptied and outstanding tile-program and collective commands complete with the cause. -/
def State.stopNow (s : State) (p cause : Nat) : State :=
  let s1 := (s.emptyQueues p).modPart p (fun x => { x with state := if x.state = 3 then 3 else 2, cause := cause })
  (s1.modHost (fun h => { h with cmds := h.cmds.map (fun c =>
    if c.part == p && c.phase != .done && (opcodeOf c.body == 0x0300 || opcodeOf c.body == 0x0503)
    then { c with replayed := false }.finish cause [] else c) })).postReady.event 10 5 p 0 []

/-- Raises a cause for a partition: event, MOD_FAULT bit, and for the training partition the stop of R437. -/
def State.raiseLost (s : State) (part f cause : Nat) : State :=
  let s1 := (if cause = stHw then s else s.faultBit (causeBit cause)).event 10 (causeEvent cause) part f []
  if part < 16 && (s.part part).train && (s.part part).state != 2 then
    let u := s1.knowDecision
    if u.bcn.decided && u.bcn.begun then u.modPart part (fun x => { x with cause := cause })
    else u.requestAbort.stopNow part cause
  else s1

/-- A stop that waited for a decided COMMIT takes effect (R437). -/
def State.lateStop (s : State) : State :=
  match s.trainPart with
  | some p => if (s.part p).cause != 0 && (s.part p).state != 2 then s.stopNow p (s.part p).cause else s
  | none => s

/-- CAPACITY_LOST of a field, once for the field and step (R16). -/
def State.loseCapacity (s : State) (f : Nat) : State :=
  if (s.fld f).capRaised then s
  else (s.modFld f (fun d => { d with capRaised := true })).raiseLost (s.evPart f) f stCapacity

/-! ### Tile failure (R15, R16, R431, R440) -/

/-- Fences physical slot `p` of a field, freezing its registers (R13, R529). -/
def State.fenceSlot (s : State) (f p : Nat) : State :=
  let x := s.physTile f p
  s.modFld f (fun d => { d with fenced := Nat.lor d.fenced (2 ^ p), frozen := smapSet d.frozen p x })

end Sys2Proof.Machine
end

