-- ==== Sys2Proof/Machine/Flare.lean ====
section
/-! DEFINITION. Machine/Flare.lean: flare rounds: contributions, combining and the keeper's broadcasts (R342 to R349). -/

namespace Sys2Proof.Machine

/-- CRC-64/XZ of a byte string (R385). -/
def crc64 (bs : List Byte) : Nat :=
  (bs.foldl ChkUnit.feed { width := 64, refin := true, refout := true, poly := 0x42F0E1EBA9EA3693, init := 2 ^ 64 - 1, xorout := 2 ^ 64 - 1,
                           reg := 2 ^ 64 - 1 }).result

/-- The 8 bytes of an entry of the mark table in force (R343). -/
def markBytes (tbl : SMap MarkEntry) (n : Nat) : List Byte :=
  if markDef tbl n then
    leBytes 2 (markPhase tbl n) ++ leBytes 1 (1 + 2 * b2n (markIsland tbl n)) ++ [0]
      ++ leBytes 2 (if n = 0 || 30 ≤ n then 0 else markTmask tbl n) ++ [0, 0]
  else List.replicate 8 0

/-- The mark-table digest (R343). -/
def markDigest (tbl : SMap MarkEntry) : Nat := crc64 ((List.range 32).flatMap (markBytes tbl))

/-- A payload as little-endian words of `k` bytes. -/
def wordsOf (k : Nat) (bs : List Byte) : List Nat := (List.range (bs.length / k)).map (fun i => bytesAt bs (k * i) k)

/-- Combines two payloads word by word; a word that one of them lacks counts as 0. -/
def zipWords (k : Nat) (g : Nat → Nat → Nat) (a b : List Byte) : List Byte :=
  let x := wordsOf k a
  let y := wordsOf k b
  (List.range (max x.length y.length)).flatMap (fun i => leBytes k (g (x.getD i 0) (y.getD i 0)))

/-- The operators of flare frames (R345, R347). -/
def flareCombine (op : Nat) (a b : List Byte) : List Byte :=
  match op with
  | 1 => zipWords 4 (fun x y => (fAdd (f32 x) (f32 y)).toNat) a b
  | 2 => zipWords 8 (fun x y => (x + y) % 2 ^ 64) a b
  | 3 => zipWords 4 (fun x y => (fMax (f32 x) (f32 y)).toNat) a b
  | 4 => zipWords 4 (fun x y => (fMin (f32 x) (f32 y)).toNat) a b
  | 5 => zipWords 8 max a b
  | 6 => zipWords 8 Nat.lor a b
  | _ => []

/-- Whether a frame or a contribution belongs to a round: it is matched by step, KEY, INDEX and ATTEMPT (R345). -/
def FlareRound.isFor (r : FlareRound) (f : FlareFrame) : Bool :=
  r.key == f.key && r.index == f.index && r.step == f.step && r.attempt == f.attempt

/-- The round of a frame, new if none is in flight. -/
def Beacon.round (b : Beacon) (f : FlareFrame) : FlareRound :=
  (b.rounds.find? (fun r => r.isFor f)).getD { op := f.op, key := f.key, index := f.index, step := f.step, attempt := f.attempt }

/-- Stores a round. -/
def Beacon.setRound (b : Beacon) (r : FlareRound) (f : FlareFrame) : Beacon :=
  { b with rounds := b.rounds.filter (fun x => !x.isFor f) ++ [r] }

/-- The result of a round whose own value and children's values are all present: own first, then children in ascending port (R347). -/
def FlareRound.total (r : FlareRound) (children : List Nat) : Option (List Byte) :=
  match r.own with
  | none => none
  | some own =>
    if children.all (fun p => (smapFind r.kids p).isSome) then
      some (children.foldl (fun a p => flareCombine r.op a (smapGet [] r.kids p)) own)
    else none

/-- The keeper broadcasts STEP_BEGIN, or waits for its HX-2's advance, for a start, or for the end of HELD (R341, R342, R344, R410). -/
def State.beginRound (s : State) (step : Nat) : State :=
  let b := s.bcn
  if b.hold || s.outer.state = 4 || 2 ^ 48 ≤ step || b.startReq.any (fun n => n != step) then s.modBcn (fun b => { b with advance := some step })
  else if b.ext then (s.modBcn (fun b => { b with advance := some step })).tell .sideband (.readyFwd step)
  else (s.modBcn (fun b => { b with running := true, opened := true })).broadcast
    ({ op := 7, key := 3, index := 0, step := step, attempt := b.attempt, payload := [] })

/-- The keeper's decision when a round completes (R342, R357). -/
def State.decideRound (s : State) (f : FlareFrame) (v : List Byte) : State :=
  let out : FlareFrame := { op := 7, key := f.key, index := f.index, step := f.step, attempt := f.attempt, payload := v }
  match f.key with
  | 1 => (s.modBcn (fun b => { b with decided := true })).broadcast out
  | 3 =>
    let hi := bytesAt v 0 8
    let lo := 2 ^ 64 - 1 - bytesAt v 8 8
    if hi != lo then s.event 6 1 16 0 (leBytes 8 hi ++ leBytes 8 lo) else s.beginRound f.step
  | 10 => s.broadcast (if f.index = 1 then { out with payload := leBytes 8 (s.outer.rhoSrc.getD 0) } else out)
  | _ => s.broadcast out

/-- A round that has all its values goes to the parent once, or is decided at the keeper and leaves the list. -/
def State.tryRound (s : State) (f : FlareFrame) : State :=
  let r := s.bcn.round f
  match r.total s.children with
  | none => s
  | some v =>
    if s.isKeeper then
      (s.modBcn (fun b => { b with rounds := b.rounds.filter (fun x => !x.isFor f), roundCount := (b.roundCount + 1) % 2 ^ 32 })).decideRound f v
    else if r.sent then s
    else match s.parent with
      | some p => (s.modBcn (fun b => b.setRound { r with sent := true } f)).flareSend p { f with payload := v }
      | none => s

/-- Whether a contribution finds a place: its round is in flight, or fewer than 16 are (R345). -/
def Beacon.roundFree (b : Beacon) (f : FlareFrame) : Bool := b.rounds.any (fun r => r.isFor f) || b.rounds.length < 16

/-- A contribution joins its round: this module's own, or a child's by its port. -/
def State.joinRound (s : State) (port : Option Nat) (f : FlareFrame) : State :=
  let r := s.bcn.round f
  let r1 := match port with
    | none => { r with op := f.op, own := some f.payload }
    | some p => { r with kids := smapSet r.kids p f.payload }
  (s.modBcn (fun b => b.setRound r1 f)).tryRound f

/-- Contributions that waited take the places that have become free, in the order in which they came. -/
def State.fillRounds (s : State) : State :=
  s.forAll s.bcn.waits (fun s w =>
    if s.bcn.waits.head? = some w && s.bcn.roundFree w.2 then
      (s.modBcn (fun b => { b with waits := b.waits.drop 1 })).joinRound w.1 w.2
    else s)

/-- A contribution joins its round, or waits for a place among the 16 rounds in flight; a round that it completes at the keeper frees a place
(R345). -/
def State.takePart (s : State) (port : Option Nat) (f : FlareFrame) : State :=
  if s.bcn.roundFree f then (s.joinRound port f).fillRounds else s.modBcn (fun b => { b with waits := b.waits ++ [(port, f)] })

/-- This module's own contribution to a round. -/
def State.contribute (s : State) (op key index step : Nat) (payload : List Byte) : State :=
  s.takePart none { op := op, key := key, index := index, step := step, attempt := s.bcn.attempt, payload := payload }

/-- The result of a round has been delivered here: the round leaves the list and is counted (R361). -/
def State.roundOver (s : State) (key index step : Nat) : State :=
  let mine := fun (r : FlareRound) => r.key == key && r.index == index && r.step == step
  if s.bcn.rounds.any mine then
    (s.modBcn (fun b => { b with rounds := b.rounds.filter (fun r => !mine r), roundCount := (b.roundCount + 1) % 2 ^ 32 })).fillRounds
  else s

/-- Whether a frame belongs to a combining round: the keys of R345 up to SCALAR, and the LASTJ and fetch rounds of OUTER (assumption
28). -/
def frameCombines (f : FlareFrame) : Bool := f.key ≤ 5 || (f.key == 10 && f.index ≤ 1)

/-- The key under which the arrivals of a group's BARRIER are kept: the group and its sequence number modulo 2^16. -/
def barrierKey (group seq : Nat) : Nat := group * 2 ^ 48 + seq % 65536

/-- A member's GROUP_BARRIER frame has been broadcast: the member has arrived at the barrier of its group, unless the group is the training
partition's and the frame of an earlier attempt (R324, R345, R349; assumption 28). A frame that was sent again adds nothing. -/
def State.barrierIn (s : State) (f : FabFrame) : State :=
  let g := flareOf f
  let stale := g.attempt != s.bcn.attempt && (match smapFind s.fab.groups g.index with | some x => (s.part x.part).train | none => false)
  if stale then s
  else { s with fab := { s.fab with barriers := smapModify [] s.fab.barriers (barrierKey g.index f.epoch) (fun l => if l.contains f.src then l else l ++ [f.src]) } }

/-- A member's GROUP_BARRIER frame goes toward the keeper unchanged, and the keeper broadcasts it: a module outside the group does not know its
members, so that none combines (assumption 28). -/
def State.barrierUp (s : State) (f : FabFrame) : State :=
  if s.isKeeper then
    let down := { f with arg := f.arg / 256 * 256 + 7 }
    (((s.emit (.broadcast (flareOf down))).forAll s.children (fun s p => s.flarePass p down))).barrierIn down
  else match s.parent with
    | some p => s.flarePass p f
    | none => s

/-- A GROUP_BARRIER frame from a neighbour: a broadcast goes on to the children, a contribution of the current attempt toward the keeper (R324,
R349). -/
def State.barrierRx (s : State) (f : FabFrame) : State :=
  let g := flareOf f
  if g.op = 7 then (s.forAll s.children (fun s p => s.flarePass p f)).barrierIn f
  else if g.op != 0 then s
  else if g.attempt != s.bcn.attempt then s.modBcn (fun b => { b with staleSeen := true })
  else s.barrierUp f

/-- The frame of a stop, which R509 forwards to the keeper over the flare path: INDEX 0 a stop, 1 one while RECOVERING (R438), 2 the ABANDON of a
shutter (R458), 3 a start at STEP. The rules name no OP and KEY for it: the model takes KEY 7, without the OP of a flood (DESIGN CHOICE, assumption
39). -/
def stopFrame (index step attempt : Nat) : FlareFrame := { op := 0, key := 7, index := index, step := step, attempt := attempt, payload := [] }

/-- The keeper's broadcast of a stop while RECOVERING, or of an ABANDON, gives the step up here (R438, R458); that of a line it has stopped makes
RUNNING read 0, after EVAL_SLOT where that is still on its way here (R344, R360). -/
def State.abandonIn (s : State) (f : FlareFrame) : State :=
  if f.key = 7 && (f.index = 1 || f.index = 2) && s.bcn.recovering && f.step = s.bcn.step then
    s.abandonStep (if f.index = 1 then stAbStep else stAbShutter)
  else if f.key = 7 && f.index = 0 then
    s.modBcn (fun b => if b.begun || b.phase = 0xF000 then { b with stopReq := true } else { b with running := false })
  else s

/-- The keeper has stopped the line and tells every module (R344, R360; assumption 39). -/
def State.sayHalted (s : State) : State := s.broadcast { stopFrame 0 s.bcn.step s.bcn.attempt with op := 7 }

/-- A start at the keeper: it goes on with the READY round of S0 (R344). -/
def State.startLine (s : State) (s0 : Nat) : State :=
  let a := s.modBcn (fun b => { b with hold := false, stopReq := false, startReq := some s0 })
  if a.bcn.advance = some s0 then (a.modBcn (fun b => { b with advance := none })).beginRound s0 else a

/-- A start or a stop at the keeper; one that gives a step up goes to every module (R344, R438, R458). -/
def State.lineOrder (s : State) (f : FlareFrame) : State :=
  if f.index = 3 then s.startLine f.step
  else if (f.index = 1 || f.index = 2) && s.bcn.recovering && !s.bcn.opened && f.step = s.bcn.step then
    (s.broadcast { f with op := 7 }).abandonIn f
  else if s.bcn.busy then s.haltLine
  else s.haltLine.sayHalted

/-- A frame that no module combines goes toward the keeper unchanged, and the keeper broadcasts it; a start or a stop it carries out itself
(assumptions 28, 39). -/
def State.flareUp (s : State) (f : FlareFrame) : State :=
  if s.isKeeper then (if f.key = 7 then s.lineOrder f else s.broadcast { f with op := 7 })
  else match s.parent with
    | some p => s.flareSend p f
    | none => s

/-- A contribution from a child (R345, R349). An attempt that is not the current one is discarded with STALE_SEEN; SCALAR, stop and
OUTER frames pass toward the keeper unchanged, and the keeper broadcasts them; a broadcast goes on to the children. -/
def State.flareRx (s : State) (port : Nat) (f : FlareFrame) : State :=
  if 8 < f.op || 10 < f.key then s
  else if f.op = 7 then (s.forAll s.children (fun s p => s.flareSend p f)).abandonIn f
  else if f.op = 8 then s
  else if f.attempt != s.bcn.attempt then s.modBcn (fun b => { b with staleSeen := true })
  else if !frameCombines f then s.flareUp f
  else if !s.children.contains port then s
  else s.takePart (some port) f

/-- The BARRIERs of this module that have started and whose result has not come are contributed again (R349). -/
def State.reissueBarriers (s : State) : State :=
  s.forAll (s.fab.jobs.filter (fun j => j.op == 6 && j.started)) (fun s j =>
    (s.modBcn (fun b => { b with reissueSeen := true })).barrierUp (barrierFab s.place.moduleId j.p.group j.seq s.bcn.step s.bcn.attempt))

/-- The flare tree as the parent port of every member under a fence state (R346). -/
def State.treeUnder (s : State) (fences : List (Nat × Nat)) : List (Option Nat) :=
  match s.blob.member s.bcn.keeperId with
  | some k => s.blob.members.map (fun m => if m.id = k.id then none else parentPort s.blob fences k m)
  | none => []

/-- The tree has changed: the children's values are taken anew, and every round that this module has contributed to and whose result has
not come is contributed again under the new tree (R349). -/
def State.reissue (s : State) : State :=
  let rs := s.bcn.rounds
  let mine := rs.filter (fun r => r.own.isSome)
  let s1 := s.modBcn (fun b => { b with reissueSeen := b.reissueSeen || !mine.isEmpty, rounds := rs.map (fun r => { r with sent := false, kids := [] }) })
  (s1.forAll mine (fun s r =>
    s.tryRound { op := r.op, key := r.key, index := r.index, step := r.step, attempt := r.attempt, payload := [] })).fillRounds.reissueBarriers

/-- A FENCE is applied to the tree; rounds are reissued where it changes the tree (R346, R349). -/
def State.applyFence (s : State) (m p : Nat) : State :=
  if s.bcn.fences.contains (m, p) then s
  else
    let s1 := (s.modBcn (fun b => { b with fences := b.fences ++ [(m, p)] })).newDepth
    if s.treeUnder s.bcn.fences == s1.treeUnder s1.bcn.fences then s1 else s1.reissue

/-- The flood of FENCE for a module and port: the module in INDEX, the port in the payload (assumption 24). -/
def fenceFrame (m p step attempt : Nat) : FlareFrame :=
  { op := 8, key := 8, index := m, step := step, attempt := attempt, payload := leBytes 8 p }

/-- FENCE_FLOOD_RX: the first copy is applied and sent on, later copies are dropped (R346). -/
def execFenceFloodRx (port : Fin 8) (module fencedPort : Nat) (s : State) : Host.Outcome State Fault Refusal :=
  if !(s.place.placed && (s.port port).state = 2) then .next s
  else
    let f := fenceFrame module fencedPort s.bcn.step s.bcn.attempt
    let s1 := s.flareTook port f
    if s.bcn.fences.contains (module, fencedPort) then .next s1
    else .next ((s1.floodFrom (some port.val) f).applyFence module fencedPort)

end Sys2Proof.Machine
end

