-- ==== Sys2Proof/Machine/FabricLink.lean ====
section
/-! DEFINITION. Machine/FabricLink.lean: fabric ports, routing of frames and flows (R313 to R320, R329 to R334). -/

namespace Sys2Proof.Machine

/-! ### Ports (R313 to R315) -/

/-- The PART an event about a fabric port names: its owner, or 16. -/
def State.portOwner (s : State) (p : Nat) : Nat :=
  ((List.range 16).find? (fun q => (s.part q).state != 0 && (s.part q).fports.testBit p)).getD 16

/-- HW_FAULT for the training partition for a fabric unit, if one is formed (R314, R330). -/
def State.fabricFault (s : State) (unit : Nat) : State :=
  match s.trainPart with
  | some t => s.hwFault 2 t unit
  | none => s

/-- A port enters FENCED (R313, R314): its frames are dropped, the tree changes, and from UP both ends are named in an event and HW_FAULT
is raised for the training partition. -/
def State.fencePort (s : State) (p : Nat) : State :=
  let x := s.port p
  let s1 := s.modPort p (fun x => { x with state := 4, fenceSeen := true, downSeen := x.downSeen || x.state == 2, replay := [], wait := [], returning := false,
                                           used := [], owed := [], tries := 0, nakOut := false })
  let m := s.place.moduleId
  let s2 := (s1.floodFrom none (fenceFrame m p s.bcn.step s.bcn.attempt)).applyFence m p
  if x.state = 2 then
    (s2.event 5 2 (s.portOwner p) p (leBytes 2 m ++ leBytes 1 p ++ [0] ++ leBytes 2 x.peerModule ++ leBytes 1 x.peerPort)).fabricFault p
  else s2

/-- Whether the other end is the one the shape names, of this island and another module (R24, R313). -/
def State.peerOk (s : State) (p module island peerPort : Nat) : Bool :=
  island == s.place.islandId && module != s.place.moduleId && match s.self with
  | some m => (match s.blob.neighbour m p with
    | some (n, q) => n.id == module && q == peerPort
    | none => false)
  | none => false

/-- FABRIC_TRAIN_DONE: training completes; the port enters UP or REFUSED (R24, R313). -/
def execFabricTrainDone (port : Fin 8) (module : Fin 1024) (island : Fin 16) (peerPort : Fin 8) (s : State) : Host.Outcome State Fault Refusal :=
  if (s.port port).state != 1 then .next s
  else
    let s1 := s.modPort port (fun x => { x with lanesOk := 24, peerModule := module.val, peerIsland := island.val, peerPort := peerPort.val })
    if s.peerOk port module.val island.val peerPort.val then
      .next (s1.modPort port (fun x => { x with state := 2, txSeq := 0, rxNext := 0 }))
    else
      .next ((s1.modPort port (fun x => { x with state := 3, refuseSeen := true })).event 5 1 (s.portOwner port) port
        (leBytes 2 module.val ++ leBytes 1 island.val))

/-- FABRIC_TRAIN_TIMEOUT: a port in TRAIN enters FENCED (R312, R313). -/
def execFabricTrainTimeout (port : Fin 8) (s : State) : Host.Outcome State Fault Refusal :=
  if (s.port port).state = 1 then .next (s.fencePort port) else .next s

/-- FABRIC_SILENCE: a port that is UP enters FENCED (R312 to R314). -/
def execFabricSilence (port : Fin 8) (s : State) : Host.Outcome State Fault Refusal :=
  if (s.port port).state = 2 then .next (s.fencePort port) else .next s

/-- FABRIC_LANE_LOCK_LOST: LANES_OK falls; a port that is UP enters FENCED (R313, R332). -/
def execFabricLaneLockLost (port : Fin 8) (lanes : Nat) (s : State) : Host.Outcome State Fault Refusal :=
  let s1 := s.modPort port (fun x => { x with lanesOk := min lanes 24 })
  if (s.port port).state = 2 then .next (s1.fencePort port) else .next s1

/-- REPLAY_TIMEOUT: a replay, or FENCED after the limit of replays without ACK advance (R309, R312). -/
def execReplayTimeout (port : Fin 8) (s : State) : Host.Outcome State Fault Refusal :=
  let x := s.port port
  if x.state != 2 || x.replay.isEmpty then .next s
  else if s.fab.set.replayLim ≤ x.tries then .next (s.fencePort port)
  else .next (s.replayPort port)

/-- IDLE_SEND: a port with nothing to send sends an IDLE frame (R310). -/
def execIdleSend (port : Fin 8) (s : State) : Host.Outcome State Fault Refusal :=
  let x := s.port port
  if x.state = 2 && (x.pick s.servesFrame).isNone then .next (s.sendIdle port false) else .next s

/-- IDLE_FRAME: ACK, NAK and credits only (R310). -/
def execIdleFrame (port : Fin 8) (f : FabFrame) (s : State) : Host.Outcome State Fault Refusal :=
  if (s.port port).state = 2 && f.typ = 2 then .next (s.linkFields port f) else .next s

/-- LINK_FRAME_DISCARD: a frame with a bad CRC or FEC or with TYPE 3 is counted, one out of order is not; the first discard is answered
with NAK (R308 to R310, R332). -/
def execLinkFrameDiscard (port : Fin 8) (outOfOrder : Bool) (s : State) : Host.Outcome State Fault Refusal :=
  if (s.port port).state = 2 then .next (s.linkDiscard port (!outOfOrder)) else .next s

/-! ### Routing (R319, R320, R330) -/

/-- Sends a frame on its way from this module (R319): out of a port in routing, or dropped as unreachable. -/
def State.routeFrame (s : State) (arr : Option Nat) (f : FabFrame) : State :=
  let lost := fun (both : Bool) =>
    let s1 := { s with fab := { s.fab with unreachSeen := true } }.event 5 3 16 (arr.getD 0) (leBytes 2 f.dest)
    if both then s1.fabricFault (arr.getD 0) else s1
  match s.self, s.blob.member f.dest with
  | some h, some t =>
    match hopOf s.blob (fun p => (s.port p).state != 2 || (s.port p).returning) h t arr f.dirlock f.vl with
    | .deliver => s
    | .drop both => lost both
    | .via p lk vl => s.linkSend p { f with dirlock := lk, vl := vl }
  | _, _ => lost false

/-- FRAME_FORWARD: a frame for another module goes onward; one for this module with a KIND outside the table is discarded (R308, R319,
R320). -/
def execFrameForward (port : Fin 8) (f : FabFrame) (s : State) : Host.Outcome State Fault Refusal :=
  let r := s.linkAccept port f
  if r.2 && f.dest != s.place.moduleId then .next (r.1.routeFrame (some port.val) f) else .next r.1

/-! ### Flows (R316, R317, R329) -/

/-- The key of a context that another module's first packet opened here. -/
def rxKey (src ctx : Nat) : Nat := 16384 * (src + 1) + ctx

/-- A flow, changed or removed. -/
def State.modFlow (s : State) (k : Nat) (g : Flow → Flow) : State :=
  { s with fab := { s.fab with flows := smapModify {} s.fab.flows k g } }

/-- Removes a flow: its context returns to the pool. -/
def State.dropFlow (s : State) (k : Nat) : State := { s with fab := { s.fab with flows := smapErase s.fab.flows k } }

/-- The lowest free context of this module. -/
def State.freeCtx (s : State) : Nat := ((List.range (s.fab.flows.length + 1)).find? (fun k => (smapFind s.fab.flows k).isNone)).getD 0

/-- A frame of a flow from this module. -/
def State.flowFrame (s : State) (fl : Flow) (vl typ kind fseq arg : Nat) (payload : List Byte) : FabFrame :=
  { lseq := 0, vl := vl, typ := typ, ack := 0, nak := false, credit := 0, cvl := 0, dest := fl.peer, dirlock := 0, src := s.place.moduleId,
    flow := fl.ctx, epoch := fl.epoch, kind := kind, fseq := fseq, arg := arg, payload := payload }

/-- Sends queued packets while the window of 1,024 has room (R312, R317); `fuel` bounds their number. -/
def State.flowPump (s : State) (k : Nat) : Nat → State
  | 0 => s
  | fuel + 1 =>
    match smapFind s.fab.flows k with
    | none => s
    | some fl =>
      match fl.queued with
      | [] => s
      | pk :: rest =>
        if 1024 ≤ fl.unacked.length then s
        else State.flowPump ((s.modFlow k (fun x => { x with queued := rest, unacked := x.unacked ++ [pk] })).routeFrame none pk.frame) k fuel

/-- Sends bytes to addresses at the far end of a flow, in packets of up to 512 bytes. -/
def State.flowSend (s : State) (k addr : Nat) (bytes : List Byte) : State :=
  let n := ceilDiv bytes.length 512
  let s1 := s.forAll (List.range n) (fun s i => s.modFlow k (fun fl =>
    { fl with nextTx := (fl.nextTx + 1) % 2 ^ 32,
              queued := fl.queued ++ [{ frame := s.flowFrame fl 1 0 0 fl.nextTx (addr + 512 * i) ((bytes.drop (512 * i)).take 512) }] }))
  s1.flowPump k n

/-- The bytes that a command has sent to the host tier land: the HX-2 has acknowledged them. Until then a failure leaves nothing moved (R475, R484). -/
def State.landWrites (s : State) (c : OutCmd) : State :=
  { s with hostMem := c.writes.foldl (fun m w => memWriteBytes m w.1 w.2) s.hostMem }

/-! ### Messages on engine flows (R317, R321, R383) -/

/-- A message as a flow carries it: a header of 64 bytes, then its data up to a multiple of 64. -/
def FabMsg.bytes (m : FabMsg) : List Byte :=
  leBytes 4 m.kind ++ leBytes 4 m.data.length ++ (List.range 7).flatMap (fun i => leBytes 8 (m.args.getD i 0))
    ++ padTo (alignUp 64 m.data.length) m.data

/-- The message that has come whole. -/
def wholeMsg (bs : List Byte) : Option FabMsg :=
  let len := bytesAt bs 4 4
  if bs.length < 64 || bs.length < 64 + alignUp 64 len then none
  else some { kind := bytesAt bs 0 4, args := (List.range 7).map (fun i => bytesAt bs (8 + 8 * i) 8), data := (bs.drop 64).take len }

/-- Sends a message on the flow of a set to another module, which its first message opens; the segment index of a collective goes along. -/
def State.sendMsg (s : State) (part epoch set peer seg : Nat) (m : FabMsg) : State :=
  let k := txKey set peer
  let s0 := if (smapFind s.fab.flows k).isSome then s
    else s.modFlow k (fun _ => { part := part, peer := peer, ctx := set % 16384, epoch := epoch, engine := some set })
  let bytes := FabMsg.bytes m
  let n := ceilDiv bytes.length 512
  let s1 := s0.forAll (List.range n) (fun s i => s.modFlow k (fun fl =>
    { fl with nextTx := (fl.nextTx + 1) % 2 ^ 32,
              queued := fl.queued ++ [{ frame := s.flowFrame fl 1 0 1 fl.nextTx (engineArg set seg) ((bytes.drop (512 * i)).take 512) }] }))
  s1.flowPump k n

/-- The partition and the epoch of a set at this module; none for a set that is not registered here. -/
def State.setHome (s : State) (set : Nat) : Option (Nat × Nat) :=
  if set < 2048 then (smapFind s.fab.groups (set % 1024)).map (fun g => (g.part, if set < 1024 then g.epoch else 0))
  else if 2 ^ 14 ≤ set && set < 2 ^ 15 then
    (s.group (set % 64) ((set - 2 ^ 14) / 64)).map (fun _ => (s.evPart (set % 64), s.fab.epoch))
  else if 2 ^ 16 ≤ set && set < 2 ^ 17 then (s.group (set % 64) ((set - 2 ^ 16) / 64)).map (fun _ => (s.evPart (set % 64), 0))
  else if set = gatewaySet || set = deliverSet then some (s.trainPart.getD 16, 0)
  else none

/-- The version that awaits publication. -/
def Group.nextVersion (g : Group) : Nat := if !g.published && g.pubOnly.isSome then 0 else (g.version + 1) % 2 ^ 32

/-- Whether the slot of the version that awaits publication is free of committed users. -/
def Group.slotFree (g : Group) : Bool := (if g.nextVersion % 2 = 0 then g.use0 else g.use1) == 0

/-- Whether the working copy of a version for a group of this module is taken: the slot it goes into is free, or it is that of the version in
force, sent again (R258, R261, R262). -/
def Group.takesVersion (g : Group) (v : Nat) : Bool :=
  (g.pendingVer && g.slotFree && v == g.nextVersion) || (g.published && v == g.version)

/-- Whether a flow takes its next packet: outer transfers to this gateway wait while a lantern port holds packets back for want of room in its
send window (R373, R383), and a working copy waits for its slot, whose version its message names (R258, R262). -/
def State.flowOpen (s : State) (fl : Flow) (f : FabFrame) : Bool :=
  match fl.engine with
  | none => true
  | some set =>
    if set = gatewaySet then s.lnt.all (fun p => p.2.flows.all (fun f => f.2.waiting.isEmpty))
    else if 2 ^ 16 ≤ set && set < 2 ^ 17 then
      (match s.group (set % 64) ((set - 2 ^ 16) / 64) with
       | some g => g.takesVersion (bytesAt (fl.body ++ f.payload) 32 8)
       | none => true)
    else true

/-- One part of a command's outside work is done; the last completes the command, a shutter excepted (R461). -/
def State.transferDone (s : State) (uid : Nat) : State :=
  let s0 := match s.cmd uid with
    | some c => if c.left ≤ 1 && c.phase != CmdPhase.done then s.landWrites c else s
    | none => s
  s0.modCmd uid (fun c =>
    let c1 := { c with left := c.left - 1 }
    if c.left ≤ 1 && opcodeOf c.body != 0x0103 && opcodeOf c.body != 0x0101 then c1.finish stDone [c.r0, c.r1, c.r2, c.r3] else c1)

/-- A cumulative acknowledgement up to the last packet delivered (R317). -/
def State.flowAckOut (s : State) (k : Nat) : State :=
  match smapFind s.fab.flows k with
  | some fl =>
    (s.modFlow k (fun x => { x with sinceAck := 0 })).routeFrame none (s.flowFrame fl 3 1 2 ((fl.nextRx + 2 ^ 32 - 1) % 2 ^ 32)
      (match fl.engine with | some set => engineArg set 0 | none => 0) [])
  | none => s

/-- The bit of ARG that tells an export of a shutter from other bulk writes (DESIGN CHOICE, assumption 64). -/
def heirMark : Nat := 2 ^ 63

/-- Whether a packet is of an export that no open heir window takes: one that names its source module and holds its range (R454, R469). -/
def State.heirShut (s : State) (f : FabFrame) : Bool :=
  let a := f.arg % heirMark
  heirMark ≤ f.arg && !(s.heirs.any (fun w => w.2.srcmod == f.src && w.2.base ≤ a && a + f.payload.length ≤ w.2.base + w.2.bytes))

/-- Whether a packet's target takes no write: outside the module's memory, or in a partition whose zeroise has begun (R330). -/
def State.writeShut (s : State) (a n : Nat) : Bool :=
  !s.moduleRange 16 a n || (match s.unitOf a with
    | some (_, _, _, f) => (match s.partOf f with
      | some p => (s.part p).state == 3 && 5 ≤ (s.part p).phase
      | none => false)
    | none => true)

/-- Bytes leave for the host tier (R266, R473). -/
def State.hostPut (s : State) (cls : ReiloClass) (a : Nat) (bytes : List Byte) : State :=
  s.post { cls := cls, data := some (a, bytes), msg := some (.hostWrite a bytes) }

/-- Bytes of a command leave for the host tier; they land with its acknowledgement (R475, R484). -/
def State.hostPutFor (s : State) (uid : Nat) (cls : ReiloClass) (a : Nat) (bytes : List Byte) : State :=
  (s.modCmd uid (fun c => { c with writes := c.writes ++ [(a, bytes)] })).post { cls := cls, msg := some (.hostWrite a bytes) }

/-- The bytes of one packet in order: into the target, to where a bulk move reads them, or into the message that an engine awaits (R317, R422). -/
def State.packetWrite (s : State) (k : Nat) (f : FabFrame) : State :=
  let fl := smapGet {} s.fab.flows k
  let n := f.payload.length
  if fl.engine.isSome then
    let body := fl.body ++ f.payload
    match wholeMsg body with
    | some m =>
      let s1 := s.modFlow k (fun x => { x with body := [] })
      { s1 with fab := { s1.fab with inbox := s1.fab.inbox ++ [(fl.peer, fl.engine.getD 0, m)] } }
    | none => s.modFlow k (fun x => { x with body := body })
  else match fl.uid, fl.reading with
  | some uid, true =>
    let s1 : State := match fl.onto with
      | some w => (s.modFlow w (fun x => { x with expect := x.expect - n })).flowSend w fl.dst f.payload
      | none => if fl.toHost then s.hostPutFor uid (.bulk fl.part 64) fl.dst f.payload
        else if s.writeShut fl.dst n then s else s.pokeBytes fl.dst f.payload
    let s2 := s1.modFlow k (fun x => { x with dst := x.dst + n, expect := x.expect - n })
    if fl.onto.isNone && fl.expect ≤ n then s2.transferDone uid else s2
  | _, _ => if s.writeShut (f.arg % heirMark) n then s else s.pokeBytes (f.arg % heirMark) f.payload

/-- Delivers the packet that is next, then the early ones that follow it (R317). -/
def State.packetDeliver (s : State) (k : Nat) : Nat → FabFrame → State
  | 0, _ => s
  | fuel + 1, f =>
    let s1 := (s.packetWrite k f).modFlow k (fun x => { x with nextRx := (f.fseq + 1) % 2 ^ 32, early := smapErase x.early f.fseq })
    match smapFind (smapGet {} s1.fab.flows k).early ((f.fseq + 1) % 2 ^ 32) with
    | some g => State.packetDeliver s1 k fuel g
    | none => s1

/-- The context that a packet belongs to: a bulk move's read of this module, or one opened by its source's packets. -/
def State.packetKey (s : State) (f : FabFrame) : Nat :=
  match smapFind s.fab.flows f.flow with
  | some fl => if fl.reading && fl.peer == f.src then f.flow else rxKey f.src f.flow
  | none => rxKey f.src f.flow

/-- A packet of a flow that stands here (R317, R329, R330): delivered in FSEQ order exactly once, held when early, discarded when its epoch or FSEQ
is old; one that the flow does not take yet is held unacknowledged (R373). -/
def State.flowTake (s : State) (k : Nat) (fl : Flow) (f : FabFrame) : State :=
  if f.epoch != fl.epoch then { s with fab := { s.fab with staleSeen := true } }
  else
    let d := (f.fseq + 2 ^ 32 - fl.nextRx) % 2 ^ 32
    if d = 0 && !s.flowOpen fl f then s.modFlow k (fun x => { x with early := smapSet x.early f.fseq f })
    else
      let s1 :=
        if d = 0 then s.packetDeliver k (fl.early.length + 1) f
        else if d < 1024 then s.modFlow k (fun x => { x with early := smapSet x.early f.fseq f })
        else s
      let s2 := s1.modFlow k (fun x => { x with sinceAck := x.sinceAck + 1 })
      if 16 ≤ fl.sinceAck + 1 || 1024 ≤ d then s2.flowAckOut k else s2

/-- A packet of an engine's flow: the first one opens the flow, in the epoch of its set; one of a set that is not registered here is discarded, one of
another epoch is stale (R316, R317, R329). A flow without step traffic whose source failed it goes on in its next epoch (DESIGN CHOICE,
assumption 134). -/
def State.enginePacket (s : State) (f : FabFrame) : State :=
  match argSet f.arg with
  | none => s
  | some set =>
    let k := rxSet set f.src
    match smapFind s.fab.flows k, s.setHome set with
    | some fl, _ =>
      if f.fseq = 0 && f.epoch = (fl.epoch + 1) % 65536 && !fl.stepTraffic fl.part then
        (s.modFlow k (fun _ => fl.nextEpoch)).flowTake k fl.nextEpoch f
      else s.flowTake k fl f
    | none, some h =>
      if f.epoch != h.2 then { s with fab := { s.fab with staleSeen := true } }
      else
        let fl : Flow := { part := h.1, peer := f.src, ctx := f.flow, epoch := h.2, engine := some set }
        (s.modFlow k (fun _ => fl)).flowTake k fl f
    | none, none => s

/-- A bulk-write packet arrives at its destination (R317, R329, R330). The first packet of a flow opens its context here (assumption 26); one of an
export that no heir window takes is neither written nor acknowledged (R454, R469). -/
def State.packetRx (s : State) (f : FabFrame) : State :=
  let k := s.packetKey f
  if s.heirShut f then s else
  match smapFind s.fab.flows k with
  | none =>
    if s.contextsFree = 0 then s
    else
      let s1 := s.modFlow k (fun _ => { part := 16, peer := f.src, ctx := f.flow, epoch := f.epoch, sinceAck := 1 })
      if f.fseq = 0 then s1.packetDeliver k 1 f else s1.modFlow k (fun x => { x with early := smapSet x.early f.fseq f })
  | some fl => s.flowTake k fl f

/-- BULK_WRITE_PACKET (R317). -/
def execBulkWritePacket (port : Fin 8) (f : FabFrame) (s : State) : Host.Outcome State Fault Refusal :=
  let r := s.linkAccept port f
  if r.2 && f.dest == s.place.moduleId && f.kind = 0 then .next (r.1.packetRx f) else .next r.1

/-- Packets up to the acknowledged FSEQ leave the source (R317); a write flow with nothing left ends its part of the command. -/
def State.flowAcked (s : State) (f : FabFrame) : State :=
  let k := flowKey f f.src
  match smapFind s.fab.flows k with
  | none => s
  | some fl =>
    if fl.peer != f.src then s
    else if f.epoch != fl.epoch then { s with fab := { s.fab with staleSeen := true } }
    else
      let keep := fl.unacked.filter (fun p => (f.fseq + 2 ^ 32 - p.frame.fseq) % 2 ^ 32 ≥ 1024)
      let s1 := (s.modFlow k (fun x => { x with unacked := keep })).flowPump k fl.queued.length
      match fl.uid with
      | some uid =>
        if !fl.reading && fl.expect = 0 && keep.isEmpty && fl.queued.isEmpty then
          ((s1.routeFrame none (s.flowFrame fl 3 1 3 fl.nextTx 0 [])).dropFlow k).transferDone uid
        else s1
      | none => s1

/-- FLOW_ACK (R317): FSEQ names the last packet delivered in order (assumption 26). -/
def execFlowAck (port : Fin 8) (f : FabFrame) (s : State) : Host.Outcome State Fault Refusal :=
  let r := s.linkAccept port f
  if r.2 && f.dest == s.place.moduleId && f.kind = 2 then .next (r.1.flowAcked f) else .next r.1

/-- FLOW_CONTROL_MESSAGE: the message on a flow that another module opened ends it, and its context returns to the pool (R316; assumption
26). -/
def execFlowControlMessage (port : Fin 8) (f : FabFrame) (s : State) : Host.Outcome State Fault Refusal :=
  let r := s.linkAccept port f
  if r.2 && f.dest == s.place.moduleId && f.kind = 3 then .next (r.1.dropFlow (r.1.packetKey f)) else .next r.1

/-- FLOW_ACK_TIMER: packets not yet acknowledged are acknowledged (R312, R317). -/
def execFlowAckTimer (ctx : Nat) (s : State) : Host.Outcome State Fault Refusal :=
  match smapFind s.fab.flows ctx with
  | some fl => if fl.sinceAck = 0 then .next s else .next (s.flowAckOut ctx)
  | none => .next s

/-- The collectives of a group outside training end with HW_FAULT: a flow of its engine has failed (R317). -/
def State.engineFail (s : State) (fl : Flow) : State :=
  match fl.engine with
  | some set =>
    if 2048 ≤ set || (s.part fl.part).train then s
    else
      let g := set % 1024
      let mine := s.fab.jobs.filter (fun j => j.p.group == g)
      (State.finishAll { s with fab := { s.fab with jobs := s.fab.jobs.filter (fun j => j.p.group != g) } }
        (fun c => mine.any (fun j => j.uid == c.uid)) stHw).postReady
  | none => s

/-- An engine's flow that failed keeps its contexts and loses its packets: step traffic goes on in the epoch of the abort that the fault causes, any
other flow in its next one (R316, R317, R329; assumption 134). -/
def Flow.failed (x : Flow) : Flow := if x.stepTraffic x.part then { x with unacked := [], queued := [] } else x.nextEpoch

/-- A flow fails (R317): FAIL_SEEN, HW_FAULT for the command it serves, the fabric event after that completion (R493), HW_FAULT for the owner. -/
def State.flowFail (s : State) (k : Nat) (fl : Flow) : State :=
  let s1 : State := { s with fab := { s.fab with failSeen := true } }
  let s2 := (match fl.uid with
    | some uid => (s1.finish uid stHw []).postReady
    | none => s1.engineFail fl).event 5 4 fl.part k (leBytes 2 fl.peer)
  let flows := if fl.engine.isSome then smapModify {} s2.fab.flows k Flow.failed
    else s2.fab.flows.filter (fun x => x.1 != k && (fl.uid.isNone || x.2.uid != fl.uid))
  State.hwFault { s2 with fab := { s2.fab with flows := flows } } 2 fl.part k

/-- Whether a flow carries a shutter's export, which retransmits on (R469), or what flow control may hold back while nothing is dropped: outer
transfers to a gateway and working copies (R262, R373; DEDUCED, assumption 134). -/
def State.exportFlow (s : State) (fl : Flow) : Bool :=
  fl.engine.any (fun set => set == gatewaySet || (2 ^ 16 ≤ set && set < 2 ^ 17)) ||
  match fl.uid with
  | some uid => (s.cmd uid).any (fun c => opcodeOf c.body == 0x0103)
  | none => false

/-- FLOW_RETRANSMIT_TIMEOUT: the packet goes again, or the flow fails at the retry limit (R312, R317, R469). -/
def execFlowRetransmitTimeout (ctx fseq : Nat) (s : State) : Host.Outcome State Fault Refusal :=
  match smapFind s.fab.flows ctx with
  | none => .next s
  | some fl =>
    match fl.unacked.find? (fun p => p.frame.fseq == fseq) with
    | none => .next s
    | some pk =>
      if s.fab.set.flowRetry ≤ pk.tries && !s.exportFlow fl then .next (s.flowFail ctx fl)
      else
        let s1 := s.modFlow ctx (fun x => { x with unacked := x.unacked.map (fun p =>
          if p.frame.fseq == fseq then { p with tries := p.tries + 1 } else p) })
        .next ({ s1 with fab := { s1.fab with retxSeen := true } }.routeFrame none pk.frame)

end Sys2Proof.Machine
end

