-- ==== Sys2Proof/Machine/StackMem.lean ====
section
/-! DEFINITION. Machine/StackMem.lean: errors met by reads, and the events of a field's own numeric sources
(R176, R216 to R223). -/

namespace Sys2Proof.Machine

/-! ### Errors (R216 to R220) -/

/-- Changes a channel. -/
def State.modChan (s : State) (f c : Nat) (g : Channel → Channel) : State :=
  s.modFld f (fun d => { d with stack := { d.stack with chans := smapModify {} d.stack.chans c g } })

/-- Whether an error leaves its word uncorrectable. -/
def EccErr.spoils (e : EccErr) : Bool := e.ue && !e.par

/-- One error met by a read: counted in its channel, and an uncorrectable one is captured and reported (R216, R217). -/
def State.countErr (s : State) (f : Nat) (e : EccErr) : State :=
  let k := (s.fld f).stack
  let c := k.chan e.off
  if k.lost.testBit c then s
  else if e.par then s.modChan f c (fun x => { x with capar := true })
  else if e.ue then
    (s.modChan f c (fun x => { x with ue := satAdd 32 x.ue 1, ueAddr := if x.ueSeen then x.ueAddr else k.chanOff e.off, ueSeen := true })).event
      3 1 (s.evPart f) f (leBytes 1 f ++ leBytes 1 c ++ [0, 0] ++ leBytes 4 (k.chanOff e.off) ++ leBytes 8 (stackBase f + e.off))
  else s.modChan f c (fun x => { x with ce := satAdd 32 x.ce 1, ceSeen := true })

/-- The errors of a read; an uncorrectable one that serves the training partition aborts the step (R218). -/
def State.readErrs (s : State) (f : Nat) (errs : List EccErr) : State :=
  let s1 := s.forAll errs (fun s e => s.countErr f e)
  if errs.any (fun e => EccErr.spoils e && !(s.fld f).stack.lost.testBit ((s.fld f).stack.chan e.off)) && s.isTrainField f then
    let u := s1.knowDecision
    if u.canAbort then (u.faultBit 3).requestAbort else u
  else s1

/-! ### Numeric events of a field (R167, R174, R176) -/

/-- The payload of a numeric event: class, field, step, health tag, and for INVALID the locator's words. -/
def State.numericPayload (s : State) (f bit : Nat) : List Byte :=
  let m := (s.fld f).meter
  let l := m.ffl
  leBytes 1 bit ++ leBytes 1 f ++ List.replicate 6 0 ++ leBytes 8 s.stepNow ++ leBytes 1 (smapGet 0 m.bitTag bit) ++ [0, 0, 0]
    ++ (if bit = 0 then [l.w0, l.w1, l.w2, l.w3, l.w4].flatMap (fun w => leBytes 4 w.toNat) else [])

/-- Posts an event for each bit that went from 0 to 1 and whose class is enabled (R174). -/
def State.numericEvents (s : State) (f : Nat) (old : Word) : State :=
  let d := s.fld f
  let new := (List.range 8).filter (fun i => d.meter.status.toNat.testBit i && !old.toNat.testBit i && d.classEn.testBit i)
  s.forAll new (fun s i => s.event 1 i (s.evPart f) f (s.numericPayload f i))

/-- Changes a field's meter by its own sources or its tiles' bits, and posts the events of the bits newly set (R167, R176). Where this arms
the field's locator while a tile's earlier capture is on its way, that capture stands in it: the first to occur, whose
tag the INVALID bit set with it carries (R171, R176). -/
def State.fieldMeter (s : State) (f : Nat) (g : Meter → Meter) : State :=
  let d := s.fld f
  let old := d.meter.status
  let s1 := match d.caps with
    | [] => s.modMeter f g
    | c :: cs =>
      if !old.toNat.testBit bitFfl && (g d.meter).status.toNat.testBit bitFfl then
        (s.modMeter f (fun m => { g m with ffl := c.2.2, bitTag := smapSet (if old.toNat.testBit bitInvalid then (g m).bitTag
          else smapSet (g m).bitTag bitInvalid c.2.1) bitFfl c.2.1 })).modFld f (fun x => { x with caps := cs })
      else s.modMeter f g
  s1.numericEvents f old

end Sys2Proof.Machine
end

