-- ==== Sys2Proof/Machine/Sequencer.lean ====
section
/-! DEFINITION. Machine/Sequencer.lean: the tile queues: refilling, starting and retiring descriptors, semaphores, and the end of a
tile program (R179 to R187, R202, R203). -/

namespace Sys2Proof.Machine

/-- A queue of a tile. -/
def TileState.queue (t : TileState) (q : Nat) : TileQueue := smapGet {} t.queues q

/-- Changes a queue of a tile. -/
def State.modTq (s : State) (t q : Nat) (g : TileQueue → TileQueue) : State :=
  s.modTile t (fun x => { x with queues := smapModify {} x.queues q g })

/-- The format of each steering slot of a field (R146). -/
def State.slotFmts (s : State) (f : Nat) : List Nat :=
  (List.range 64).map (fun k => rungFmt (smapGet ({} : SteerSlot) (s.fld f).steer.slots k).rung)

/-- The queues a FENCE covers: its own and those QMASK names (R203). -/
def fenceQueues (q mask : Nat) : List Nat := (List.range 4).filter (fun k => k == q || mask.testBit k)

/-- What is fixed when a descriptor becomes the next unstarted one: the step of a mark WAIT and what a FENCE waits for (R202, R203). -/
def State.headFix (s : State) (t q : Nat) : State :=
  match ((s.tile t).queue q).ring with
  | [] => s
  | e :: rest =>
    let e1 : QEntry := match e.desc.kind with
      | .wait d => if d.mode = 0 || e.waitStep.isSome then e
        else { e with waitStep := some (if d.mode = 1 then s.bcn.step else if d.mode = 2 then s.bcn.step + 1 else d.step) }
      | .fence m => if e.fenceSet.isSome then e
        else { e with fenceSet := some ((fenceQueues q m).flatMap (fun k => ((s.tile t).queue k).started.map (fun x => x.uid))) }
      | _ => e
    s.modTq t q (fun x => { x with ring := e1 :: rest })

/-- QUEUE_REFILL: the 64-entry ring is refilled from the stream (R180). -/
def execQueueRefill (u : Issuer) (s : State) : Host.Outcome State Fault Refusal :=
  let t := u.tile.val
  let q := u.queue.val
  let x := (s.tile t).queue q
  let n := 64 - x.ring.length
  if !s.served t then .next s
  else .next ((s.modTq t q (fun x => { x with ring := x.ring ++ x.source.take n, source := x.source.drop n })).headFix t q)

/-- Whether a kind holds its queue (R181). -/
def DKind.holds : DKind → Bool
  | .mark _ | .wait _ | .fence _ => true
  | _ => false

/-- The command number that stands for a group's borrowed stream in the tile queues. -/
def borrowCmd (f gid : Nat) : Nat := 2 ^ 64 + 256 * f + gid

/-- Whether the matrix stream of a group that borrows the tiles may end in a tile: its last sweep, which reads the scratch while the tiles are
borrowed, is behind it, or the group is skipped (R287, R295, R301). An entry that stands for no group's stream, as its FENCE, is open. -/
def State.streamOpen (s : State) (t : Nat) (e : QEntry) : Bool :=
  decide (e.desc.kind ≠ .fence 0) || ((s.fld (t / 16)).groups.find? (fun g => e.cmd == borrowCmd (t / 16) g.1)).all (fun g =>
    g.2.borrow != 1 || g.2.updated || g.2.skipped)

/-- Whether every descriptor a FENCE waits for has retired; the FENCE without queues that stands for a borrowed matrix stream waits for the
group's last sweep as well. -/
def State.fenceOpen (s : State) (t : Nat) (e : QEntry) : Bool :=
  s.streamOpen t e && (e.fenceSet.getD []).all (fun i => !((s.tile t).queues.any (fun q => q.2.started.any (fun x => x.uid == i))))

/-- Whether the condition of a WAIT holds (R187, R202). -/
def State.waitOpen (s : State) (t : Nat) (step : Nat) (d : WaitD) : Bool :=
  if d.mode = 0 then d.count ≤ smapGet 0 (s.tile t).sems d.sem else s.reachedPoint step d.mark

/-- Whether the partition of a field has passed the drain point of its shutter (R460). -/
def State.drained (s : State) (f : Nat) : Bool :=
  match s.partOf f with
  | some p => (s.part p).state == 3 && 4 ≤ (s.part p).phase
  | none => false

/-- Whether a PUT touches a group's gradient area; one of no rows touches no word (R204). -/
def Group.putTouches (g : Group) (d : PutD) : Bool :=
  d.src.nrows != 0 && (putWords d).any (fun w => g.p.gbase ≤ 4 * w && 4 * w < g.p.gbase + 4 * g.p.nelem)

/-- The groups of a field whose gradient area a PUT reaches. -/
def State.putGroups (s : State) (f : Nat) (d : PutD) : List (Nat × Group) := (s.fld f).groups.filter (fun g => g.2.putTouches d)

/-- Whether the reduction port discards a PUT: one that is late for a group's exchange (R248), or of an evaluation stream into a gradient
area (R468). -/
def State.putDrops (s : State) (f : Nat) (eval : Bool) (d : PutD) : Bool :=
  let gs := s.putGroups f d
  gs.any (fun g => g.2.exchanged) || (eval && !gs.isEmpty)

/-- Whether a descriptor of a tile runs under EXACT: under the profile in force, or outside training under the one in force when its command
started (R447, R448). -/
def State.exactEntry (s : State) (t : Nat) (e : QEntry) : Bool :=
  match s.host.cmds.find? (fun c => c.uid == e.cmd) with
  | some c => if s.isTrainField (t / 16) then s.exactOf (t / 16) else c.profile == 1
  | none => s.exactOf (t / 16)

/-- Whether a started descriptor is a PUT that EXACT holds, and its queue with it (R116). -/
def State.putWaits (s : State) (t : Nat) (e : QEntry) : Bool :=
  match e.desc.kind with
  | .put false d => !e.acted && s.exactEntry t e && !s.putDrops (t / 16) e.eval d && putHeld (s.fld (t / 16)).awaits d
  | _ => false

/-- Whether the next descriptor of a queue may start (R116, R181, R201 to R203, R460). -/
def State.mayStart (s : State) (t q : Nat) (e : QEntry) : Bool :=
  let x := (s.tile t).queue q
  let fm := fun (l : List Nat) (b : Nat) => [fmtOf l b]
  x.started.length < 8 && !s.drained (t / 16)
    && !x.started.any (fun a => DKind.holds a.desc.kind || s.putWaits t a || overlaps (fm a.fmts) (fm (s.slotFmts (t / 16))) a.desc.kind e.desc.kind) &&
    match e.desc.kind with
    | .mark _ => x.started.isEmpty
    | .wait d => s.waitOpen t (e.waitStep.getD 0) d
    | .fence _ => s.fenceOpen t e
    | _ => true

/-- DESCRIPTOR_START: the next descriptor of the ring starts unless a hold of R181 applies; its sequence number, its place in the tile's
start order and the formats of steered slots are fixed (R146, R180, R184). -/
def execDescriptorStart (u : Issuer) (s : State) : Host.Outcome State Fault Refusal :=
  let t := u.tile.val
  let q := u.queue.val
  match ((s.tile t).queue q).ring with
  | [] => .next s
  | e :: rest =>
    if s.served t && s.mayStart t q e then
      let n := (s.tile t).starts
      let s1 := s.modTq t q (fun x => { x with ring := rest, nextSeq := x.nextSeq + 1,
                                               started := x.started ++ [{ e with dseq := x.nextSeq, fmts := s.slotFmts (t / 16), startNo := n }] })
      .next ((s1.modTile t (fun x => { x with starts := n + 1 })).headFix t q)
    else .next s

/-- Adds 1 to a semaphore (R186). -/
def TileState.signal (t : TileState) (sem : Nat) : TileState :=
  let v := smapGet 0 t.sems sem
  if v = 65535 then { t with semOvf := true } else { t with sems := smapSet t.sems sem (v + 1) }

/-- Whether some tile still holds a descriptor of a command. -/
def State.programLeft (s : State) (cmd : Nat) : Bool :=
  s.tiles.any (fun t => t.2.queues.any (fun q => (q.2.source ++ q.2.ring ++ q.2.started).any (fun e => e.cmd == cmd)))

/-- Whether the FENCE of a borrowed stream still stands in some tile: the entries of the command that name every queue. -/
def State.fenceLeft (s : State) (cmd : Nat) : Bool :=
  s.tiles.any (fun t => t.2.queues.any (fun q =>
    (q.2.source ++ q.2.ring ++ q.2.started).any (fun e => e.cmd == cmd && decide (e.desc.kind = .fence 15))))

/-- Adds a field's step counts to its 64-bit counts and clears them (R161). -/
def State.foldCounts (s : State) (f : Nat) : State :=
  let add := fun (acc m : SMap Nat) => m.foldl (fun a p => smapSet a p.1 ((smapGet 0 a p.1 + p.2) % 2 ^ 64)) acc
  let own := (List.range 16).map (fun i => 16 * f + i)
  let tot := own.foldl (fun a t => add a (s.tile t).meter.cnt) (add (s.fld f).counts (s.fld f).meter.cnt)
  let s1 := s.modFld f (fun d => { d with counts := tot, meter := d.meter.zeroCounts })
  { s1 with tiles := smapMap (fun t x => if t / 16 == f then { x with meter := x.meter.zeroCounts } else x) s1.tiles }

/-- Folds and clears the step counts of a field's own sources alone (R161). -/
def State.foldOwn (s : State) (f : Nat) : State :=
  s.modFld f (fun d => { d with counts := d.meter.cnt.foldl (fun a p => smapSet a p.1 ((smapGet 0 a p.1 + p.2) % 2 ^ 64)) d.counts,
                                meter := d.meter.zeroCounts })

/-- The same at the end of a command in a field that no training job runs on (R161). -/
def State.foldDone (s : State) (f : Nat) : State := if s.isTrainField f then s else s.foldOwn f

/-- The fields that the streams of a tile program name. -/
def programFields (p : TileProgramP) : List Nat := (List.range 64).filter (fun f => p.entries.any (fun e => e.fmask.testBit f))

/-- A change of a use count: pending while a step of the training partition is in progress, at once elsewhere (R257). -/
def State.useChange (s : State) (f gid vtag : Nat) (acq : Bool) : State :=
  let bump := fun (p : Nat × Nat) => if vtag % 2 = 0 then (p.1 + 1, p.2) else (p.1, p.2 + 1)
  let put := fun (n : Nat) => if acq then n + 1 else n - 1
  s.modGroup f gid (fun g =>
    if s.isTrainField f && (s.bcn.begun || s.bcn.recovering) then (if acq then { g with pendAcq := bump g.pendAcq } else { g with pendRel := bump g.pendRel })
    else if vtag % 2 = 0 then { g with use0 := put g.use0 } else { g with use1 := put g.use1 })

/-- The transom list of a tile program, acquired when its streams are queued or released when it completes (R256). -/
def State.transom (s : State) (p : TileProgramP) (acq : Bool) : State :=
  s.forAll (programFields p) (fun s f => s.forAll (p.transom.filter (fun x => (if acq then x.acq else x.rel) == 1)) (fun s x =>
    s.useChange f x.gid x.vtag acq))

/-- The fields whose counts the end of a tile program folds: of a partition that runs no training job all that it holds, of an evaluation stream
in a training partition those that the stream ran on (R161, R467). -/
def State.programFolds (s : State) (c : OutCmd) (p : TileProgramP) : List Nat :=
  if (s.part c.part).train then (if c.hdr.eval then programFields p else [])
  else (List.range 64).filter (fun f => (s.part c.part).holds f || (programFields p).contains f)

/-- The end of a tile program with a status: releases, folding where R161 or R467 says so, and its completion (R179, R256). Of one whose work was
repeated after its completion was ready or posted, the releases take place again and no second completion follows (R424). -/
def State.programEnd (s : State) (uid status : Nat) : State :=
  match s.cmd uid with
  | none => s
  | some c =>
    match c.body with
    | .tileProgram p =>
      if c.phase = .done then (if c.rework then (s.modCmd uid (fun x => { x with rework := false })).transom p false else s)
      else ((s.transom p false).forAll (s.programFolds c p) (fun s f => s.foldCounts f)).finish uid status []
    | _ => s

/-- The end of a tile program whose descriptors have all retired: its own status, or one that the loss of a slot gave it (R16). -/
def State.programDone (s : State) (uid : Nat) : State :=
  match s.cmd uid with
  | some c => s.programEnd uid (if c.status = 0 then stDone else c.status)
  | none => s

/-- The tile ids of a field whose queues hold descriptors of commands; those commands complete with a status, and the descriptors
are not run (R440). -/
def State.dropTile (s : State) (t status : Nat) : State :=
  let x := s.tile t
  let uids := (x.queues.flatMap (fun q => (q.2.source ++ q.2.ring ++ q.2.started).map (fun e => e.cmd))).eraseDups
  let s1 := s.setTile t { x with queues := smapMap (fun _ q => { q with source := [], ring := [], started := [] }) x.queues }
  s1.forAll uids (fun s u => s.programEnd u status)

/-- The borrowing of the tiles ends with the last descriptor of the group's stream (R295). -/
def State.borrowDone (s : State) (cmd : Nat) : State :=
  { s with fields := smapMap (fun f d =>
      { d with groups := smapMap (fun i g =>
          if cmd == borrowCmd f i && g.borrows then { g with borrow := if g.borrow = 3 then 0 else 2 } else g) d.groups }) s.fields }

/-- Completes a tile program, or ends a borrowing, when its descriptors have all retired in every tile. -/
def State.checkProgram (s : State) (uid : Nat) : State :=
  if s.programLeft uid then s else if 2 ^ 64 ≤ uid then s.borrowDone uid else s.programDone uid

/-- A descriptor no longer keeps a generation of lane states alive (R57). -/
def dropGen (gens : List (List Nat × List (BitVec 64))) (uid : Nat) : List (List Nat × List (BitVec 64)) :=
  (gens.map (fun g => (g.1.filter (fun x => x != uid), g.2))).filter (fun g => !g.1.isEmpty)

/-- DESCRIPTOR_RETIRE: the oldest started descriptor, when its unit has acted, retires and signals; the last one of a program completes
its command (R179, R183, R186). -/
def execDescriptorRetire (u : Issuer) (s : State) : Host.Outcome State Fault Refusal :=
  let t := u.tile.val
  let q := u.queue.val
  match ((s.tile t).queue q).started with
  | [] => .next s
  | e :: rest =>
    if !s.served t || !e.acted then .next s
    else
      let s1 := s.modTq t q (fun x => { x with started := rest })
      let s2 := s1.modTile t (fun x => { x with seedGens := dropGen x.seedGens e.uid })
      let s3 := if e.desc.hdr.sigEn then s2.modTile t (fun x => x.signal e.desc.hdr.sigSem) else s2
      .next (s3.checkProgram e.cmd)

/-! ### What a unit acts on -/

/-- The started descriptor of a queue that a unit row names, if it has not acted. -/
def State.actEntry (s : State) (u : Issuer) (d : Descriptor) : Option QEntry :=
  ((s.tile u.tile.val).queue u.queue.val).started.find? (fun e => !e.acted && decide (e.desc = d))

/-- The unit that takes its descriptors one at a time in the order of their start: row engine, lane unit, PUT and GET side of the reduction
port, the drain port of an array (R143, R182). -/
def DKind.serial : DKind → Option Nat
  | .row _ _ => some 0
  | .lane _ _ => some 1
  | .put _ _ => some 2
  | .get _ => some 3
  | .drain d => some (4 + b2n d.src.array)
  | _ => none

/-- The shadows and the active blocks that a kind takes for itself, as masks of arrays: a STAGE shadows, a PASS active blocks, a SWAP
both (R80, R82, R86, R89, R182). -/
def DKind.blocks : DKind → Nat × Nat
  | .stage d => (d.arrays, 0)
  | .swap a => (a, a)
  | .pass d => (0, d.arrays)
  | _ => (0, 0)

/-- The accumulator rows that a PASS writes, as first key and count. -/
def passSpans (d : PassD) : List (Nat × Nat) :=
  let at_ := fun (array row : Bool) (x : PassSide) => (accKey array row (x.s0 * 128 + x.q0), d.m)
  if d.arrays = 3 then [at_ false true d.a, at_ true false d.b]
  else [at_ (d.arrays == 2) d.orient (if d.arrays = 2 then d.b else d.a)]

/-- The accumulator rows that a DRAIN or a PUT reads. -/
def DKind.readSpan : DKind → Option (Nat × Nat)
  | .drain d => some (rowsKey d.src 0, d.src.nrows)
  | .put _ d => some (rowsKey d.src 0, d.src.nrows)
  | _ => none

/-- Whether a PASS writes rows that a DRAIN or a PUT reads (R89); with M = 0 or NROWS = 0 there are none (R77, R204). -/
def rowsMeet (a b : DKind) : Bool :=
  match a, DKind.readSpan b with
  | .pass p, some y => 0 < p.m && 0 < y.2 && (passSpans p).any (fun x => x.1 < y.1 + y.2 && y.1 < x.1 + x.2)
  | _, _ => false

/-- Whether a kind belongs to the transfer engine. -/
def DKind.isMove : DKind → Bool
  | .load _ | .store _ => true
  | _ => false

/-- Whether a descriptor that started later waits for one that started earlier and has not acted: at a unit that takes one at a time, where
a held PUT leaves the port free for the tile's other queues (R116), at a block, or at accumulator rows (R89). -/
def QEntry.delays (x : QEntry) (same : Bool) (k : DKind) : Bool :=
  let a := x.desc.kind
  ((same || !x.held) && (DKind.serial a).isSome && DKind.serial a == DKind.serial k) || Nat.land (DKind.blocks a).1 (DKind.blocks k).1 != 0
    || Nat.land (DKind.blocks a).2 (DKind.blocks k).2 != 0 || rowsMeet a k || rowsMeet k a

/-- Whether it is a started descriptor's turn at its unit: a unit acts on what has been handed to it, in the order of the starts, the transfer
engine on two at once (R180, R182; assumption 19). -/
def State.unitTurn (s : State) (u : Issuer) (d : Descriptor) : Bool :=
  match s.actEntry u d with
  | none => false
  | some e =>
    let all := (s.tile u.tile.val).queues.flatMap (fun q => q.2.started.map (fun x => (q.1, x)))
    let before := all.filter (fun x => !x.2.acted && decide (x.2.startNo < e.startNo))
    !before.any (fun x => x.2.delays (x.1 == u.queue.val) d.kind)
      && (!DKind.isMove d.kind || decide ((before.filter (fun x => DKind.isMove x.2.desc.kind)).length < 2))

/-- Changes the first started descriptor that meets a test. -/
def modFirst (test : QEntry → Bool) (g : QEntry → QEntry) : List QEntry → List QEntry
  | [] => []
  | e :: es => if test e then g e :: es else e :: modFirst test g es

/-- Marks the descriptor a unit row names as acted. -/
def State.acted (s : State) (u : Issuer) (d : Descriptor) : State :=
  s.modTq u.tile.val u.queue.val (fun x =>
    { x with started := modFirst (fun e => !e.acted && decide (e.desc = d)) (fun e => { e with acted := true, held := false }) x.started })

/-- Whether the started descriptor that a row names runs under EXACT. -/
def State.exactFor (s : State) (u : Issuer) (d : Descriptor) : Bool :=
  match s.actEntry u d with
  | none => s.exactOf (u.tile.val / 16)
  | some e => s.exactEntry u.tile.val e

/-- The context in which a descriptor executes. -/
def State.descCtx (s : State) (u : Issuer) (d : Descriptor) : DescCtx :=
  let t := u.tile.val
  let e := s.actEntry u d
  { tile := t, queue := u.queue.val, exact := s.exactFor u d, step := s.stepNow, htag := d.hdr.htag,
    dseq := match e with | some x => x.dseq | none => ((s.tile t).queue u.queue.val).nextSeq,
    slotFmt := match e with | some x => x.fmts | none => s.slotFmts (t / 16) }

/-- Runs a change with the lane states that the descriptor started with (R57). -/
def State.withLanes (s : State) (u : Issuer) (d : Descriptor) (g : State → State) : State :=
  let t := u.tile.val
  match s.actEntry u d with
  | none => g s
  | some e =>
    match (s.tile t).seedGens.find? (fun x => x.1.contains e.uid) with
    | none => g s
    | some gen =>
      let now := (s.tile t).lanes
      let s1 := g (s.modTile t (fun x => { x with lanes := gen.2 }))
      let used := (s1.tile t).lanes
      s1.modTile t (fun x => { x with lanes := now, seedGens := x.seedGens.map (fun y => if y.1 == gen.1 then (y.1, used) else y) })

/-- A capture of a tile's locator is on its way to the field's (R171). -/
def State.captured (s : State) (t : Nat) (old : Word) : State :=
  let m := (s.tile t).meter
  if m.status.toNat.testBit bitFfl && !old.toNat.testBit bitFfl then
    s.modFld (t / 16) (fun d => { d with caps := d.caps ++ [(t, smapGet 0 m.bitTag bitFfl, m.ffl)] })
  else s

/-- A unit acts on a descriptor that stands started at the issuer's queue, in its turn (R180, R182); nothing happens otherwise, or where no
physical tile serves the tile id (R16). What the queue-time checks refuse is never queued (R177), and what has passed them runs. -/
def State.runUnit (s : State) (u : Issuer) (h : DHdr) (k : DKind) (eff : DescCtx → State → State) : Host.Outcome State Fault Refusal :=
  let d : Descriptor := { hdr := h, kind := k }
  if !s.served u.tile.val || !s.unitTurn u d then .next s
  else .next (((s.withLanes u d (eff (s.descCtx u d))).captured u.tile.val (s.tile u.tile.val).meter.status).acted u d)

/-- Applies a change of memory and tile. -/
def State.onTile (s : State) (t : Nat) (g : Memory × TileState → Memory × TileState) : State :=
  let r := g (s.mem, s.tile t)
  State.setTile { s with mem := r.1 } t r.2

end Sys2Proof.Machine
end

