-- ==== Sys2Proof/Machine/TileRows.lean ====
section
/-! DEFINITION. Machine/TileRows.lean: the rows of the tile units: transfers, arrays, drain, row engine, lane unit, reduction port, WAIT and
FENCE (chapter Tile programs and descriptors). -/

namespace Sys2Proof.Machine

/-! ### Transfer engine (R191, R216 to R218) -/

/-- The errors of a LOAD that lie in the words it reads, as stack offsets of the field that ADDR names. -/
def loadErrs (d : MoveD) (errs : List EccErr) : List EccErr :=
  errs.filter (fun e => (List.range d.rows).any (fun i =>
    let a := d.addr % 2 ^ 37 + i * d.sstride
    a ≤ e.off && e.off < a + d.bytes))

/-- The bytes of row `i` of a LOAD; a word with an uncorrectable error is 0xFF bytes (R217). -/
def State.loadRow (s : State) (d : MoveD) (errs : List EccErr) (i : Nat) : List Byte :=
  let a := d.addr + i * d.sstride
  (List.range d.bytes).map (fun k =>
    if errs.any (fun e => EccErr.spoils e && e.off / 64 == (a + k) % 2 ^ 37 / 64) then 0xFF else s.peek (a + k))

/-- LOAD: rows from the stack into the tile store, in ascending order: where rows overlap the later one stands (DESIGN CHOICE, assumption
97). -/
def State.loadEffect (s : State) (cx : DescCtx) (d : MoveD) (errs : List EccErr) : State :=
  let es := loadErrs d errs
  let s1 := s.forAll (List.range d.rows) (fun s i =>
    { s with mem := memWriteBytes s.mem (tileAddr cx.tile (d.tbase + i * d.tstride)) (s.loadRow d es i) })
  if d.bytes = 0 then s else s1.readErrs (d.addr / 2 ^ 37) es

/-- STORE: rows from the tile store into the stack, in ascending order (DESIGN CHOICE, assumption 97). -/
def State.storeEffect (s : State) (cx : DescCtx) (d : MoveD) : State :=
  s.forAll (List.range d.rows) (fun s i =>
    s.pokeBytes (d.addr + i * d.sstride) (memReadBytes s.mem (tileAddr cx.tile (d.tbase + i * d.tstride)) d.bytes))

/-- LOAD (R191). -/
def execLoad (u : Issuer) (h : DHdr) (d : MoveD) (errs : List EccErr) (s : State) : Host.Outcome State Fault Refusal :=
  s.runUnit u h (.load d) (fun cx s => s.loadEffect cx d errs)

/-- STORE (R191). -/
def execStore (u : Issuer) (h : DHdr) (d : MoveD) (s : State) : Host.Outcome State Fault Refusal :=
  s.runUnit u h (.store d) (fun cx s => s.storeEffect cx d)

/-! ### Arrays -/

/-- STAGE (R66, R85, R88, R192). -/
def execStage (u : Issuer) (h : DHdr) (d : StageD) (s : State) : Host.Outcome State Fault Refusal :=
  s.runUnit u h (.stage d) (fun cx s => s.modTile cx.tile (fun t => stageEffect cx s.mem d t))

/-- SWAP (R79). -/
def execSwap (u : Issuer) (h : DHdr) (arrays : Nat) (s : State) : Host.Outcome State Fault Refusal :=
  s.runUnit u h (.swap arrays) (fun cx s => s.modTile cx.tile (fun t => swapEffect arrays t))

/-- PASS on one array (R69 to R84, R90, R100); ARRAYS 3 spells PAIRED_PASS. -/
def execPass (u : Issuer) (h : DHdr) (d : PassD) (s : State) : Host.Outcome State Fault Refusal :=
  if d.arrays = 3 then .next s
  else s.runUnit u h (.pass d) (fun cx s => s.modTile cx.tile (fun t => passEffect cx s.mem d t))

/-- PAIRED_PASS: both arrays in the same issue slots (R86, R87); another ARRAYS spells PASS. -/
def execPairedPass (u : Issuer) (h : DHdr) (d : PassD) (s : State) : Host.Outcome State Fault Refusal :=
  if d.arrays != 3 then .next s
  else s.runUnit u h (.pass d) (fun cx s => s.modTile cx.tile (fun t => pairedEffect cx s.mem d t))

/-- DRAIN (R194, R195). -/
def execDrain (u : Issuer) (h : DHdr) (d : DrainD) (s : State) : Host.Outcome State Fault Refusal :=
  s.runUnit u h (.drain d) (fun cx s => s.onTile cx.tile (drainEffect cx d))

/-! ### Row engine (R132 to R145, R196) -/

/-- A ROW operation 0 to 6; a count that stops sets LONGSUM in the field summary (R121, R167). -/
def State.rowUnit (s : State) (cx : DescCtx) (op : Nat) (d : RowD) : State :=
  let r := rowEffect cx op d s.mem (s.tile cx.tile)
  let s1 := State.setTile { s with mem := r.mem } cx.tile r.tile
  if r.long then s1.fieldMeter (cx.tile / 16) (fun m => m.sticky bitLongsum cx.htag) else s1

/-- SMX_FWD (R138). -/
def execSmxFwd (u : Issuer) (h : DHdr) (d : RowD) (s : State) : Host.Outcome State Fault Refusal :=
  s.runUnit u h (.row 0 d) (fun cx s => s.rowUnit cx 0 d)

/-- SMX_DOT (R139). -/
def execSmxDot (u : Issuer) (h : DHdr) (d : RowD) (s : State) : Host.Outcome State Fault Refusal :=
  s.runUnit u h (.row 1 d) (fun cx s => s.rowUnit cx 1 d)

/-- SMX_BWD (R139). -/
def execSmxBwd (u : Issuer) (h : DHdr) (d : RowD) (s : State) : Host.Outcome State Fault Refusal :=
  s.runUnit u h (.row 2 d) (fun cx s => s.rowUnit cx 2 d)

/-- NORM_STATS (R140). -/
def execNormStats (u : Issuer) (h : DHdr) (d : RowD) (s : State) : Host.Outcome State Fault Refusal :=
  s.runUnit u h (.row 3 d) (fun cx s => s.rowUnit cx 3 d)

/-- NORM_FWD (R141). -/
def execNormFwd (u : Issuer) (h : DHdr) (d : RowD) (s : State) : Host.Outcome State Fault Refusal :=
  s.runUnit u h (.row 4 d) (fun cx s => s.rowUnit cx 4 d)

/-- NORM_DOT (R142). -/
def execNormDot (u : Issuer) (h : DHdr) (d : RowD) (s : State) : Host.Outcome State Fault Refusal :=
  s.runUnit u h (.row 5 d) (fun cx s => s.rowUnit cx 5 d)

/-- NORM_BWD (R142). -/
def execNormBwd (u : Issuer) (h : DHdr) (d : RowD) (s : State) : Host.Outcome State Fault Refusal :=
  s.runUnit u h (.row 6 d) (fun cx s => s.rowUnit cx 6 d)

/-- REC_SAVE (R137). -/
def execRecSave (u : Issuer) (h : DHdr) (d : RowD) (s : State) : Host.Outcome State Fault Refusal :=
  s.runUnit u h (.row 7 d) (fun cx s => { s with mem := recSaveEffect cx d s.mem (s.tile cx.tile) })

/-- REC_LOAD (R137). -/
def execRecLoad (u : Issuer) (h : DHdr) (d : RowD) (s : State) : Host.Outcome State Fault Refusal :=
  s.runUnit u h (.row 8 d) (fun cx s => s.modTile cx.tile (fun t => recLoadEffect cx d s.mem t))

/-! ### Lane unit (R128, R197, R198) -/

/-- A LANE operation. -/
def State.laneUnit (s : State) (u : Issuer) (h : DHdr) (op : Nat) (d : LaneD) : Host.Outcome State Fault Refusal :=
  s.runUnit u h (.lane op d) (fun cx s => s.onTile cx.tile (laneEffect cx op d))

/-- LANE CVT. -/
def execLaneCvt (u : Issuer) (h : DHdr) (d : LaneD) (s : State) : Host.Outcome State Fault Refusal := s.laneUnit u h 0 d
/-- LANE ADD. -/
def execLaneAdd (u : Issuer) (h : DHdr) (d : LaneD) (s : State) : Host.Outcome State Fault Refusal := s.laneUnit u h 1 d
/-- LANE SUB. -/
def execLaneSub (u : Issuer) (h : DHdr) (d : LaneD) (s : State) : Host.Outcome State Fault Refusal := s.laneUnit u h 2 d
/-- LANE MUL. -/
def execLaneMul (u : Issuer) (h : DHdr) (d : LaneD) (s : State) : Host.Outcome State Fault Refusal := s.laneUnit u h 3 d
/-- LANE FMA. -/
def execLaneFma (u : Issuer) (h : DHdr) (d : LaneD) (s : State) : Host.Outcome State Fault Refusal := s.laneUnit u h 4 d
/-- LANE SCALE. -/
def execLaneScale (u : Issuer) (h : DHdr) (d : LaneD) (s : State) : Host.Outcome State Fault Refusal := s.laneUnit u h 5 d
/-- LANE ACT. -/
def execLaneAct (u : Issuer) (h : DHdr) (d : LaneD) (s : State) : Host.Outcome State Fault Refusal := s.laneUnit u h 6 d
/-- LANE DACT. -/
def execLaneDact (u : Issuer) (h : DHdr) (d : LaneD) (s : State) : Host.Outcome State Fault Refusal := s.laneUnit u h 7 d
/-- LANE MAX. -/
def execLaneMax (u : Issuer) (h : DHdr) (d : LaneD) (s : State) : Host.Outcome State Fault Refusal := s.laneUnit u h 8 d
/-- LANE MIN. -/
def execLaneMin (u : Issuer) (h : DHdr) (d : LaneD) (s : State) : Host.Outcome State Fault Refusal := s.laneUnit u h 9 d
/-- LANE SUMSQ. -/
def execLaneSumsq (u : Issuer) (h : DHdr) (d : LaneD) (s : State) : Host.Outcome State Fault Refusal := s.laneUnit u h 10 d

/-! ### Reduction port (R115, R116, R199, R200, R248, R468, R581) -/

/-- Whether the started descriptor that a row names belongs to an evaluation stream. -/
def State.evalEntry (s : State) (u : Issuer) (d : Descriptor) : Bool := match s.actEntry u d with | some e => e.eval | none => false

/-- A PUT that is not held: discarded, a late one with LATEPUT and its event, or else added or written. -/
def State.putNow (s : State) (cx : DescCtx) (eval write : Bool) (d : PutD) : State :=
  let f := cx.tile / 16
  if s.putDrops f eval d then
    (s.modTile cx.tile (putDiscard d)).forAll ((s.putGroups f d).filter (fun g => g.2.exchanged)) (fun s g =>
      (s.modGroup f g.1 (fun x => { x with latePut := true })).event 4 1 (s.evPart f) f
        (leBytes 1 g.1 ++ [0] ++ leBytes 2 cx.tile ++ List.replicate 4 0 ++ leBytes 8 s.stepNow))
  else
    let fd := s.fld f
    let r := putRows cx f write d { mem := s.mem, awaits := fd.awaits, placed := fd.placed, meter := fd.meter } (s.tile cx.tile)
    let s1 := State.setTile { s with mem := r.1.mem } cx.tile r.2
    (s1.modFld f (fun x => { x with awaits := r.1.awaits, placed := r.1.placed })).fieldMeter f (fun _ => r.1.meter)

/-- PUT with OP ADD: held under EXACT until every lower-indexed contribution has been added (R116). -/
def execPutAdd (u : Issuer) (h : DHdr) (d : PutD) (s : State) : Host.Outcome State Fault Refusal :=
  let k : Descriptor := { hdr := h, kind := .put false d }
  match s.actEntry u k with
  | none => .next s
  | some e =>
    if s.putWaits u.tile.val e && s.served u.tile.val && s.unitTurn u k then
      .next (s.modTq u.tile.val u.queue.val (fun x =>
        { x with started := modFirst (fun e => !e.acted && decide (e.desc = k)) (fun e => { e with held := true }) x.started }))
    else s.runUnit u h (.put false d) (fun cx s => s.putNow cx e.eval false d)

/-- PUT with OP WRITE (R199). -/
def execPutWrite (u : Issuer) (h : DHdr) (d : PutD) (s : State) : Host.Outcome State Fault Refusal :=
  s.runUnit u h (.put true d) (fun cx s => s.putNow cx (s.evalEntry u { hdr := h, kind := .put true d }) true d)

/-- PUT_RELEASE: the held PUT of a queue acts once no lower-indexed contribution is missing (R116). -/
def execPutRelease (u : Issuer) (s : State) : Host.Outcome State Fault Refusal :=
  match ((s.tile u.tile.val).queue u.queue.val).started.find? (fun e => e.held && !e.acted) with
  | none => .next s
  | some e =>
    match e.desc.kind with
    | .put false d =>
      if s.putWaits u.tile.val e || !s.served u.tile.val then .next s
      else .next ((s.putNow (s.descCtx u e.desc) e.eval false d).acted u e.desc)
    | _ => .next s

/-- GET (R200). -/
def execGet (u : Issuer) (h : DHdr) (d : GetD) (s : State) : Host.Outcome State Fault Refusal :=
  s.runUnit u h (.get d) (fun cx s => { s with mem := getEffect cx.tile (cx.tile / 16) d s.mem })

/-! ### WAIT and FENCE (R187, R202, R203) -/

/-- WAIT on a semaphore: when it holds COUNT, COUNT is subtracted and the WAIT has acted; until then it waits. -/
def execWaitSemaphore (u : Issuer) (h : DHdr) (d : WaitD) (s : State) : Host.Outcome State Fault Refusal :=
  if d.mode = 0 && s.waitOpen u.tile.val 0 d then
    s.runUnit u h (.wait d) (fun cx s => s.modTile cx.tile (fun t => { t with sems := smapModify 0 t.sems d.sem (fun v => v - d.count) }))
  else .next s

/-- The step a mark WAIT waits for: fixed when it became the next descriptor, or as its MODE names it. -/
def State.waitStepOf (s : State) (u : Issuer) (h : DHdr) (d : WaitD) : Nat :=
  match s.actEntry u { hdr := h, kind := .wait d } with
  | some e => e.waitStep.getD d.step
  | none => if d.mode = 1 then s.bcn.step else if d.mode = 2 then s.bcn.step + 1 else d.step

/-- WAIT on a mark: has acted once the delivered position is at or past its (step, mark), whatever the mark table has become. -/
def execWaitMark (u : Issuer) (h : DHdr) (d : WaitD) (s : State) : Host.Outcome State Fault Refusal :=
  if d.mode != 0 && s.waitOpen u.tile.val (s.waitStepOf u h d) d then s.runUnit u h (.wait d) (fun _ s => s) else .next s

/-- FENCE: has acted once every descriptor it waits for has retired. -/
def execFence (u : Issuer) (h : DHdr) (qmask : Nat) (s : State) : Host.Outcome State Fault Refusal :=
  match s.actEntry u { hdr := h, kind := .fence qmask } with
  | some e => if s.fenceOpen u.tile.val e then s.runUnit u h (.fence qmask) (fun _ s => s) else .next s
  | none => s.runUnit u h (.fence qmask) (fun _ s => s)

end Sys2Proof.Machine
end

