-- ==== Sys2Proof/Machine/CmdTile.lean ====
section
/-! DEFINITION. Machine/CmdTile.lean: TILE_PROGRAM (R177, R179, R256, R264, R467, R508, R584). -/

namespace Sys2Proof.Machine

/-- The logical slots a mask of 16 names. -/
def slotsOf (m : Nat) : List Nat := onesBelow 16 m

/-- The checks of stream entry `j` (R508). -/
def State.entryChecks (s : State) (part n j : Nat) (e : StreamE) : List Check :=
  let o := itemOff 0x0300 0 n j
  let at_ := fun (c : Check) => { c with didx := j }
  [ckZero (e.fmask != 0) (o 0), ckZero (e.tmask != 0) (o 1), ckZero (e.tstride != 0) (o 5),
   ckAlign (e.soff % 64 == 0) (o 4), ckAlign (e.tstride % 64 == 0) (o 5),
   ckValue (e.queue ≤ 3) (o 2), ckValue (e.ndesc ≤ 1048576) (o 3), ckValue (64 * e.ndesc ≤ e.tstride) (o 5),
   ckTarget ((onesBelow 64 e.fmask).all (fun f => s.reach part f)) (o 0),
   ckTarget (e.ndesc == 0 || (onesBelow 64 e.fmask).all (fun f => (slotsOf e.tmask).all (fun t =>
     s.stackRange f (e.soff + t * e.tstride) (64 * e.ndesc)))) (o 4)].map at_

/-- Whether a tile program has not acquired its versions: its streams are not queued, or a replay is to queue them again (R256, R260, R584). -/
def State.unacquired (s : State) (c : OutCmd) : Bool :=
  c.phase == .waiting || c.deferred || (s.bcn.recovering && c.repeats c.part && !c.carried)

/-- What the commands on their way still take from the acquisitions of a version of a group: their releases, less those that they acquire
themselves when their streams are queued (R256). -/
def State.promised (s : State) (f gid vtag : Nat) : Nat :=
  ((s.host.cmds.filter (fun c => c.phase != .done)).map (fun c => match c.body with
    | .tileProgram p =>
      let mine := p.transom.filter (fun x => x.gid == gid && x.vtag == vtag)
      if (programFields p).contains f then
        (mine.filter (fun x => x.rel == 1)).length - (if s.unacquired c then (mine.filter (fun x => x.acq == 1)).length else 0) else 0
    | _ => 0)).foldl (· + ·) 0

/-- A component by slot. -/
def bySlot (p : Nat × Nat) (v : Nat) : Nat := if v % 2 = 0 then p.1 else p.2

/-- The acquisitions that stand on a slot of a group, pending ones included, before any release. -/
def Group.holds (g : Group) (v : Nat) : Nat := bySlot (g.use0, g.use1) v + bySlot g.pendAcq v - bySlot g.pendRel v

/-- The acquisitions of version `v` that stand: only the published version and the one before it can have any, since the slots of all others
have been written over (R255, R256, R258). -/
def Group.outstanding (g : Group) (v : Nat) : Nat := if v = g.version || (v + 1) % 2 ^ 32 = g.version then g.holds v else 0

/-- The checks of transom item `j` (R256, R264). -/
def State.transomChecks (s : State) (p : TileProgramP) (j : Nat) (x : TransomE) : List Check :=
  let o := itemOff 0x0300 1 p.entries.length j
  let gs := (programFields p).map (fun f => (f, s.group f x.gid))
  let same := (p.transom.take (j + 1)).filter (fun y => y.gid == x.gid && y.vtag == x.vtag)
  let acqs := (same.filter (fun y => y.acq == 1)).length
  let rels := (same.filter (fun y => y.rel == 1)).length
  [ckValue (x.gid ≤ 255) (o 0), ckValue (x.acq ≤ 1) (o 2), ckValue (x.rel ≤ 1) (o 3),
   ckTarget (gs.all (fun g => g.2.isSome)) (o 0),
   ckState (x.rel != 1 || gs.all (fun g => g.2.all (fun v =>
     rels + s.promised g.1 x.gid x.vtag ≤ v.outstanding x.vtag + acqs))) stState (o 3)].map (fun c => { c with didx := j })

/-- What transom item `j` meets when it acquires its version: the count's bound, and the published version of a group that no removal
waits on (R256, R264, R517). -/
def State.acquireChecks (s : State) (p : TileProgramP) (j : Nat) (x : TransomE) : List Check :=
  let o := itemOff 0x0300 1 p.entries.length j
  let gs := (programFields p).map (fun f => s.group f x.gid)
  let acqs := ((p.transom.take (j + 1)).filter (fun y => y.gid == x.gid && y.vtag == x.vtag && y.acq == 1)).length
  if x.acq != 1 then []
  else [ckValue (gs.all (fun g => g.all (fun v => v.holds x.vtag + acqs ≤ 65535))) (o 2),
        ckState (gs.all (fun g => g.any (fun v => v.published && v.version == x.vtag && v.removing.isNone))) stState (o 1)].map (fun c => { c with didx := j })

/-- The acquisition of a program that fails when its streams are queued. -/
def State.acquireFail (s : State) (p : TileProgramP) : Option Check :=
  firstFail ((p.transom.zipIdx).flatMap (fun x => s.acquireChecks p x.2 x.1))

/-- TILE_PROGRAM at submission. -/
def checksTileProgram (s : State) (h : Hdr) (part : Nat) (p : TileProgramP) : List Check :=
  let n := p.entries.length
  [ckValue (n ≤ 64) (fieldOff 0x0300 0), ckValue (p.transom.length ≤ 16) (fieldOff 0x0300 1),
   ckTarget (part < 16) 5, ckState (!h.eval || (s.part part).train) stState 2]
  ++ (p.entries.zipIdx).flatMap (fun e => s.entryChecks part n e.2 e.1)
  ++ (p.transom.zipIdx).flatMap (fun x => s.transomChecks p x.2 x.1)

/-! ### Queueing -/

/-- The words of descriptor `i` of an entry's stream for logical slot `t` of field `f`, as the stack holds them. -/
def State.streamWords (s : State) (f t : Nat) (e : StreamE) (i : Nat) : List Nat :=
  descWords (s.peekBytes (stackBase f + e.soff + t * e.tstride + 64 * i) 64)

/-- The (field, slot) pairs that an entry names, ascending. -/
def StreamE.named (e : StreamE) : List (Nat × Nat) := (onesBelow 64 e.fmask).flatMap (fun f => (slotsOf e.tmask).map (fun t => (f, t)))

/-- Those that a tile serves. -/
def State.entryTiles (s : State) (e : StreamE) : List (Nat × Nat) := (StreamE.named e).filter (fun ft => s.served (16 * ft.1 + ft.2))

/-- The first descriptor of a program that fails its checks, those for slots that no tile serves among them: the check, the entry, the tile
id, the index (R177, R501). -/
def State.programFail (s : State) (p : TileProgramP) : Option (Check × Nat × Nat × Nat) :=
  (p.entries.zipIdx).findSome? (fun e => (StreamE.named e.1).findSome? (fun ft => (List.range e.1.ndesc).findSome? (fun i =>
    (s.wordsFail (16 * ft.1 + ft.2) (s.streamWords ft.1 ft.2 e.1 i)).map (fun c => (c, e.2, 16 * ft.1 + ft.2, i)))))

/-- The queue entries of one stream for one tile. -/
def State.streamEntries (s : State) (uid : Nat) (eval : Bool) (base f t : Nat) (e : StreamE) : List QEntry :=
  (List.range e.ndesc).filterMap (fun i => (readDescriptor (s.streamWords f t e i)).map (fun d =>
    { uid := uid * 2 ^ 26 + base + i, cmd := uid, eval := eval, desc := d }))

/-- Appends descriptors to a queue; those of a step in progress are kept for its replay (R208, R422). -/
def State.queueEntries (s : State) (tile q : Nat) (log : Bool) (es : List QEntry) : State :=
  s.modTq tile q (fun x => { x with source := x.source ++ es, stepLog := if log then x.stepLog ++ es else x.stepLog })

/-- Queues every stream of a program in entry order (R179, R508). -/
def State.queueStreams (s : State) (uid : Nat) (eval log : Bool) (p : TileProgramP) : State :=
  s.forAll (p.entries.zipIdx) (fun s e =>
    let base := ((p.entries.take e.2).map (fun x => x.ndesc)).foldl (· + ·) 0
    s.forAll (s.entryTiles e.1) (fun s ft =>
      s.queueEntries (16 * ft.1 + ft.2) e.1.queue log (s.streamEntries uid eval base ft.1 ft.2 e.1)))

/-- Whether an entry addresses a slot that no tile serves (R16). -/
def State.unserved (s : State) (p : TileProgramP) : Bool :=
  p.entries.any (fun e => e.ndesc != 0 && (onesBelow 64 e.fmask).any (fun f => (slotsOf e.tmask).any (fun t => !s.served (16 * f + t))))

/-- The streams of a program are queued now: acquisitions, descriptors; a program without descriptors completes (R179, R256). -/
def State.programQueue (s : State) (uid part : Nat) (eval : Bool) (p : TileProgramP) : State :=
  let step := (s.part part).train && s.bcn.begun && !eval
  let s1 := if s.unserved p then s.modCmd uid (fun c => { c with status := stCapacity }) else s
  let s2 := (s1.transom p true).modCmd uid (fun c => { c with inStep := step })
  (s2.queueStreams uid eval step p).checkProgram uid

/-- A program whose descriptors have passed is queued, once its acquisitions pass (R256, R264). -/
def State.programAcquire (s : State) (uid part : Nat) (eval : Bool) (p : TileProgramP) : State :=
  match s.acquireFail p with
  | some c => (s.finish uid c.status []).modCmd uid (fun x => { x with detail := detailOf c.off c.didx })
  | none => s.programQueue uid part eval p

/-- TILE_PROGRAM starts: its descriptors and acquisitions are checked, then its streams are queued, or deferred to the replay while RECOVERING
(R584). -/
def startTileProgram (s : State) (uid part : Nat) (eval : Bool) (p : TileProgramP) : State :=
  match s.programFail p with
  | some (c, e, t, i) =>
    (s.finish uid c.status [e, t]).modCmd uid (fun x => { x with detail := detailOf (0x8000 + c.off) i })
  | none =>
    if (s.part part).train && s.bcn.recovering && !eval && (s.acquireFail p).isNone then s.modCmd uid (fun c => { c with deferred := true })
    else s.programAcquire uid part eval p

end Sys2Proof.Machine
end

