-- ==== Sys2Proof/Machine/Param.lean ====
section
/-! DEFINITION. Machine/Param.lean: parameter groups: planes, registration, removal, working copies and the drift audit (R242 to R246,
R253 to R255, R263 to R265, R277, R289, R290, R512). -/

namespace Sys2Proof

open Sys2Proof.Machine

/-- The blocks of a segment. -/
def GroupP.blocks (g : GroupP) : Nat := g.nelem / 128

/-- The first block of shard `j`. -/
def GroupP.shardLo (g : GroupP) (j : Nat) : Nat := j * g.blocks / g.r

/-- The number of blocks of shard `j`. -/
def GroupP.shardLen (g : GroupP) (j : Nat) : Nat := g.shardLo (j + 1) - g.shardLo j

/-- The rank of a field of a module. -/
def GroupP.rank (g : GroupP) (module field : Nat) : Nat := (g.members.findIdx? (fun m => m == (module, field))).getD 0

/-- The offsets of planes of given sizes from a base, each at the next multiple of 64. -/
def planeOffs : Nat → List Nat → List Nat
  | _, [] => []
  | p, n :: ns => alignUp 64 p :: planeOffs (alignUp 64 p + n) ns

/-- The end of such planes. -/
def planeEnd (base : Nat) (ns : List Nat) : Nat :=
  match (planeOffs base ns).getLast?, ns.getLast? with
  | some o, some n => o + n
  | _, _ => base

/-- The sizes of MST_A to SC_B for `n` blocks. -/
def GroupP.stateSizes (g : GroupP) (n : Nat) : List Nat :=
  let m2 := if g.m2fmt = 0 then 0 else 128 * n
  [512 * n, 512 * n, 128 * n, 128 * n, m2, m2, 4 * n, 4 * n]

/-- The sizes of RS_A and RS_B. -/
def GroupP.resSizes (g : GroupP) : List Nat := [256 * g.blocks, 256 * g.blocks]

/-- The sizes of a rule's own planes (R290). -/
def GroupP.ruleSizes (g : GroupP) : List Nat :=
  let p := g.rule
  match p.rcode with
  | 3 => [4 * p.rows, 4 * p.rows, 4 * p.cols, 4 * p.cols]
  | 5 => List.replicate 4 (4 * p.rows * p.rows) ++ List.replicate 4 (4 * p.cols * p.cols)
  | _ => []

/-- The planes that lie at PBASE: all of them, or MST_A to SC_B for a group whose home is the host tier (R277). -/
def GroupP.baseSizes (g : GroupP) (n : Nat) : List Nat :=
  if g.tier.home = 1 then g.stateSizes n else g.stateSizes n ++ g.resSizes ++ g.ruleSizes

/-- The stack offset of plane `kind` (0 MST, 1 M1, 2 M2, 3 SC, 4 RS, 5 on the rule's own) of a bank. -/
def GroupP.planeOff (g : GroupP) (n kind bank : Nat) : Nat :=
  if g.tier.home = 1 && kind = 4 then (planeOffs g.tier.rbase g.resSizes).getD bank 0
  else (planeOffs g.pbase (g.baseSizes n)).getD (2 * kind + bank) 0

/-- The host-tier address of plane `kind` of a bank (R277). -/
def GroupP.hostOff (g : GroupP) (n kind bank : Nat) : Nat := (planeOffs g.tier.haddr (g.stateSizes n)).getD (2 * kind + bank) 0

/-- The size of plane `kind`. -/
def GroupP.planeSize (g : GroupP) (n kind : Nat) : Nat := ((g.stateSizes n ++ g.resSizes ++ g.ruleSizes).getD (2 * kind) 0)

/-- The stack ranges of a group, as (first offset, end). -/
def GroupP.stackRanges (g : GroupP) (n : Nat) : List (Nat × Nat) :=
  (g.pbase, planeEnd g.pbase (g.baseSizes n))
    :: (if g.tier.home = 1 then [(g.tier.rbase, planeEnd g.tier.rbase g.resSizes), (g.tier.pkbase, g.tier.pkbase + 1024 * n)] else [])

/-- Whether two ranges overlap. -/
def rangesMeet (a b : Nat × Nat) : Bool := a.1 < b.2 && b.1 < a.2

/-- The tile id and the element position in its slot of element `i` of a segment. -/
def GroupP.wcPlace (g : GroupP) (i : Nat) : Nat × Nat :=
  (16 * g.field + (onesBelow 16 g.tmask).getD (i / g.telems) 0, i % g.telems)

/-- The bytes a slot takes in each tile. -/
def GroupP.slotBytes (g : GroupP) : Nat :=
  if isBlockFmt g.wcfmt then ceilDiv (g.telems / 32) 64 * 1088 else g.telems * fmtBits g.wcfmt / 8

/-- The tile-store offset of the slot of a version. -/
def GroupP.slotOf (g : GroupP) (v : Nat) : Nat := if v % 2 = 0 then g.slot0 else g.slot1

/-- One block of masters converted into WCFMT with nearest even and policy SAT. -/
def GroupP.convert (g : GroupP) (ws : List F32) : ConvVec := convertVec g.wcfmt false false [] (ws.map f32Val)

/-- The bytes of the scratch range per tile (R295). -/
def RuleP.scratchBytes (p : RuleP) (tiles : Nat) : Nat :=
  let r := min p.rows p.cols
  let c := max p.rows p.cols
  alignUp 64 (ceilDiv (if p.rcode = 4 then 4 * r * c + 4 * r * r else 8 * r * c + 16 * c * c) (max tiles 1))

end Sys2Proof

namespace Sys2Proof.Machine

/-! ### Shards and planes (R243, R244, R290) -/

/-- This module's rank in a group of a field. -/
def State.rankOf (s : State) (g : GroupP) : Nat := g.rank s.place.moduleId g.field

/-- The first block whose master and moments a member holds, and their number: all under MIRROR, its shard under OWNER. -/
def State.ownBlocks (s : State) (g : GroupP) : Nat × Nat :=
  if g.cons = 0 then (0, g.blocks) else (g.shardLo (s.rankOf g), g.shardLen (s.rankOf g))

/-- Whether the stack ranges of two groups overlap other than by coinciding landing areas of HOST groups (R277). -/
def groupsClash (a b : GroupP) (na nb : Nat) : Bool :=
  let ra := a.stackRanges na
  let rb := b.stackRanges nb
  let same := a.tier.home == 1 && b.tier.home == 1 && ra.head? == rb.head?
  (ra.zipIdx).any (fun x => (rb.zipIdx).any (fun y => !(same && x.2 == 0 && y.2 == 0) && rangesMeet x.1 y.1))

/-! ### Words of the stack and of the reduction buffer -/

/-- `n` F32 words from a module address. -/
def State.peekF32s (s : State) (a n : Nat) : List F32 := (List.range n).map (fun i => f32 (leNat (s.peekBytes (a + 4 * i) 4)))

/-- `n` F32 words from a module address as arithmetic reads them: subnormals as zero of their sign (R61). -/
def State.operF32s (s : State) (a n : Nat) : List F32 := (s.peekF32s a n).map flushF32

/-- How many of `n` F32 words from a module address arithmetic reads as zero (R61). -/
def State.subnormals (s : State) (a n : Nat) : Nat := ((s.peekF32s a n).filter f32Subnormal).length

/-- BF16 residuals from a module address, widened: a subnormal is read as zero and counted (R51, R61, R249, R398; assumption 48). -/
def State.readRes (s : State) (a n : Nat) : List (F32 × Ev) := (wordsOf 2 (s.peekBytes a (2 * n))).map (readWiden 1 0)

/-- Counts what operand elements of a group count as they are read, under its HTAG (R51, R61, R158). -/
def State.countEvs (s : State) (g : GroupP) (evs : List Ev) : State := s.fieldMeter g.field (fun m => m.reads (fieldLocus s.stepNow g.htag 0 6) evs)

/-- Counts elements that arithmetic forms and a conversion writes, under a group's HTAG (R158, R162). -/
def State.countResults (s : State) (g : GroupP) (fmt : Nat) (cls : List Cls) (evs : List Ev) : State :=
  s.fieldMeter g.field (fun m => m.vector (fieldLocus s.stepNow g.htag 0 6) fmt cls evs)

/-- Counts a conversion of elements into a format, under a group's HTAG (R158, R162). -/
def State.countConv (s : State) (g : GroupP) (fmt : Nat) (evs : List Ev) : State := s.countResults g fmt (evs.map (fun _ => .none)) evs

/-- Counts a group's operand words that were read as zero, under its HTAG (R61, R158). -/
def State.countReads (s : State) (g : GroupP) (n : Nat) : State := if n = 0 then s else s.fieldMeter g.field (fun m => m.flushes g.htag n)

/-- Writes F32 words from a module address. -/
def State.pokeF32s (s : State) (a : Nat) (ws : List F32) : State := s.pokeBytes a (ws.flatMap (fun w => leBytes 4 w.toNat))

/-- The module address of plane `kind` of a bank at byte `o`. -/
def State.planeAddr (s : State) (g : GroupP) (kind bank o : Nat) : Nat :=
  stackBase g.field + g.planeOff (s.ownBlocks g).2 kind bank + o

/-! ### Working copies (R242, R253) -/

/-- Writes a converted block into a slot: vector `p / 128` of the tile's part. -/
def State.wcWrite (s : State) (g : GroupP) (v b : Nat) (scales codes : List Nat) : State :=
  let at_ := g.wcPlace (128 * b)
  let base := tileAddr at_.1 (g.slotOf v)
  if isBlockFmt g.wcfmt then { s with mem := writeVec s.mem g.wcfmt base 4 (at_.2 / 128) scales codes }
  else { s with mem := writeVec s.mem g.wcfmt base (vecBytes g.wcfmt) (at_.2 / 128) scales codes }

/-- The padding behind TELEMS in a slot of one tile (R38). -/
def State.wcPad (s : State) (g : GroupP) (v t : Nat) : State :=
  { s with mem := padVecs s.mem g.wcfmt (tileAddr t (g.slotOf v)) (g.telems / 128) }

/-- The (scale, code) pairs of block `b` in a slot. -/
def State.wcRead (s : State) (g : GroupP) (v b : Nat) : List (Nat × Nat) :=
  let at_ := g.wcPlace (128 * b)
  readVec s.mem g.wcfmt (tileAddr at_.1 (g.slotOf v)) (if isBlockFmt g.wcfmt then 4 else vecBytes g.wcfmt) (at_.2 / 128)

/-- A converted block as bytes: scales, then codes (of 4-bit formats one per byte), as one shard message carries it. -/
def blockBytes (fmt : Nat) (scales codes : List Nat) : List Byte :=
  scales.flatMap (leBytes 1) ++ codes.flatMap (leBytes (max 1 (fmtBits fmt / 8)))

/-- The bytes of one block in a message. -/
def blockLen (fmt : Nat) : Nat := if isBlockFmt fmt then 132 else vecBytes fmt

/-- The scales and codes of a block in a message. -/
def blockParts (fmt : Nat) (bs : List Byte) : List Nat × List Nat :=
  if isBlockFmt fmt then (wordsOf 1 (bs.take 4), wordsOf 1 ((bs.drop 4).take 128)) else ([], wordsOf (fmtBits fmt / 8) bs)

/-! ### PGROUP_REG (R242, R277, R289, R512) -/

/-- Whether an F32 is finite and at least +0. -/
def f32NonNeg (x : F32) : Bool := f32IsFin x && !(f32Val x).lt (f32Val 0)

/-- Whether an F32 is finite and above 0. -/
def f32Above (x : F32) : Bool := f32IsFin x && (f32Val 0).lt (f32Val x)

/-- Whether an F32 is a zero of either sign. -/
def f32Zero (x : F32) : Bool := (f32Val x).isZero

/-- Whether 0 ≤ B < 1. -/
def f32Decay (x : F32) : Bool := f32NonNeg x && (f32Val x).lt (f32Val oneF32)

/-- The checks of the RULE block (R289); fields 4 to 26 of the record. -/
def State.ruleChecks (s : State) (g : GroupP) : List Check :=
  let p := g.rule
  let o := fieldOff 0x0700
  let is := fun (l : List Nat) => l.contains p.rcode
  let unused := fun (used : Bool) (zero : Bool) (i : Nat) => ckValue (used || zero) (o i)
  [ckValue (p.rcode ≤ 5) (o 4), ckValue (!(is [3, 4, 5] && (g.cons == 1 || g.tier.home == 1))) (o 4),
   ckFormat (if p.rcode = 1 then g.m2fmt != 0 else g.m2fmt == 0) (o 29),
   ckValue (p.nesterov ≤ 1) (o 5), unused (is [0, 4]) (p.nesterov == 0) 5, ckValue (p.biascorr ≤ 1) (o 6), unused (is [1]) (p.biascorr == 0) 6,
   ckValue (p.clip ≤ 1) (o 7), ckValue (p.lrslot ≤ 7) (o 8), ckValue (p.gslot ≤ 7) (o 9), ckValue (f32NonNeg p.lr) (o 10),
   ckValue (f32Decay p.b1) (o 11), ckValue (is [0, 4] || f32Decay p.b2) (o 12), unused (!is [0, 4]) (p.b2 == 0) 12,
   ckZero (is [0, 2] || !f32Zero p.eps) (o 13), ckValue (is [0, 2] || f32Zero p.eps || f32Above p.eps) (o 13), unused (!is [0, 2]) (p.eps == 0) 13,
   ckValue (f32NonNeg p.wd) (o 14), ckZero (p.clip != 1 || !f32Zero p.maxnorm) (o 15),
   ckValue (p.clip != 1 || f32Zero p.maxnorm || f32Above p.maxnorm) (o 15), unused (p.clip == 1) (p.maxnorm == 0) 15]
  ++ (if is [3, 4, 5] then
    [ckZero (p.rows != 0) (o 16), ckZero (p.cols != 0) (o 17), ckValue (p.rows % 128 == 0) (o 16),
     ckValue (p.cols % 128 == 0 && p.rows * p.cols == g.nelem) (o 17), ckValue (p.rcode == 3 || p.rows ≤ 4096) (o 16),
     ckValue (p.rcode == 3 || p.cols ≤ 4096) (o 17)]
    else [unused false (p.rows == 0) 16, unused false (p.cols == 0) 17])
  ++ (if p.rcode = 4 then
    [ckZero (p.nsiter != 0) (o 18), ckValue (p.nsiter ≤ 15) (o 18), ckValue (f32IsFin p.nsa) (o 19), ckValue (f32IsFin p.nsb) (o 20),
     ckValue (f32IsFin p.nsc) (o 21), ckValue (f32IsFin p.oscale) (o 22)]
    else [unused false (p.nsiter == 0) 18, unused false (p.nsa == 0) 19, unused false (p.nsb == 0) 20, unused false (p.nsc == 0) 21,
      unused false (p.oscale == 0) 22])
  ++ (if p.rcode = 5 then
    [ckZero (p.refresh != 0) (o 23), ckValue (p.refresh ≤ 65535) (o 23), ckZero (p.riter != 0) (o 24), ckValue (p.riter ≤ 31) (o 24)]
    else [unused false (p.refresh == 0) 23, unused false (p.riter == 0) 24])
  ++ (if is [4, 5] then
    [ckValue (s.markNamed p.bmark) (o 25), ckAlign (p.scratch % 64 == 0) (o 26),
     ckValue (p.scratch + p.scratchBytes (s.fld g.field).slots.length ≤ tileStoreBytes) (o 26)]
    else [unused false (p.bmark == 0) 25, unused false (p.scratch == 0) 26])

/-- The checks of the tier record (R277); fields 41 to 47. -/
def State.tierChecks (s : State) (g : GroupP) : List Check :=
  let t := g.tier
  let o := fieldOff 0x0700
  let n := (s.ownBlocks g).2
  let fits := fun (lo hi : Nat) => s.stackRange g.field lo (hi - lo)
  [ckValue (t.home ≤ 1) (o 41)]
  ++ (if t.home = 1 then
    ckHostAddr t.haddr (planeEnd t.haddr (g.stateSizes n) - t.haddr) (o 42) ++
    [ckAlign (t.rbase % 64 == 0) (o 43), ckTarget (g.nelem == 0 || fits t.rbase (planeEnd t.rbase g.resSizes)) (o 43),
     ckAlign (t.pkbase % 64 == 0) (o 44), ckTarget (g.nelem == 0 || fits t.pkbase (t.pkbase + 1024 * n)) (o 44),
     ckValue (t.late ≤ 1) (o 45), ckValue (t.smarkEn ≤ 1) (o 46), ckValue (if t.smarkEn = 1 then t.smark ≤ 31 && s.markNamed t.smark else t.smark == 0) (o 47)]
    else [ckValue (t.haddr == 0) (o 42), ckValue (t.rbase == 0) (o 43), ckValue (t.pkbase == 0) (o 44), ckValue (t.late == 0) (o 45),
      ckValue (t.smarkEn == 0) (o 46), ckValue (t.smark == 0) (o 47)])

/-- PGROUP_REG. With NELEM 0 nothing is touched or registered, so no range, no overlap and no context is asked for (R490). -/
def checksPgroupReg (s : State) (part : Nat) (g : GroupP) : List Check :=
  let o := fieldOff 0x0700
  let n := (s.ownBlocks g).2
  let d := s.fld g.field
  let wcs := [0, 1, 2, 3, 4, 6, 7]
  let none := g.nelem == 0
  [ckValue (g.field ≤ 63) (o 0), ckTarget (63 < g.field || s.reach part g.field) (o 0), ckValue (g.gid ≤ 255) (o 1),
   ckValue (g.nelem % 128 == 0 && decide (g.nelem ≤ 2 ^ 32 - 128)) (o 2), ckValue (g.cons ≤ 1) (o 3),
   ckZero (g.r != 0) (o 27), ckValue (g.r ≤ 1024) (o 27),
   ckValue (decide ((g.members.map Prod.fst).Nodup) && g.members.contains (s.place.moduleId, g.field)) (64 + layEnd (layFixed 0x0700)),
   ckFormat ([3, 4].contains g.m1fmt) (o 28), ckFormat ([0, 3, 4].contains g.m2fmt) (o 29), ckFormat ([3, 4].contains g.gxfmt) (o 30),
   ckFormat (wcs.contains g.wcfmt) (o 31), ckValue (g.htag ≤ 255) (o 32), ckValue (g.bank ≤ 1) (o 33),
   ckAlign (g.pbase % 64 == 0) (o 34), ckTarget (none || s.stackRange g.field g.pbase (planeEnd g.pbase (g.baseSizes n) - g.pbase)) (o 34),
   ckValue (none || !(d.groups.any (fun x => x.1 != g.gid && groupsClash g x.2.p n (s.ownBlocks x.2.p).2))) (o 34),
   ckAlign (g.gbase % 64 == 0) (o 35), ckTarget (none || g.gbase + 4 * g.nelem ≤ redBytes) (o 35),
   ckZero (g.tmask != 0) (o 36), ckValue (g.tmask < 65536) (o 36), ckZero (g.telems != 0) (o 37), ckValue (g.telems % 128 == 0) (o 37),
   ckValue (decide (g.nelem ≤ g.telems * (onesBelow 16 g.tmask).length)) (o 37),
   ckAlign (g.slot0 % 64 == 0) (o 38), ckAlign (g.slot1 % 64 == 0) (o 39),
   ckValue (decide (g.slot0 + g.slotBytes ≤ tileStoreBytes)) (o 38),
   ckValue (g.slot1 + g.slotBytes ≤ tileStoreBytes && !rangesMeet (g.slot0, g.slot0 + g.slotBytes) (g.slot1, g.slot1 + g.slotBytes)) (o 39),
   ckValue (g.xmark ≤ 31 && s.markNamed g.xmark) (o 40),
   ckState ((s.group g.field g.gid).isNone) stAlready (o 1),
   ckState (none || d.replicaSets.contains g.members || 8 ≤ s.contextsFree) stContext 0]
  ++ (g.members.zipIdx).map (fun m =>
      { order := 10, ok := m.1.1 ≤ 1023 && m.1.2 ≤ 63, status := stValue, off := itemOff 0x0700 0 g.members.length m.2 0, didx := m.2 })
  ++ (g.members.zipIdx).map (fun m =>
      { order := 11, ok := s.isMember m.1.1, status := stTarget, off := itemOff 0x0700 0 g.members.length m.2 0, didx := m.2 })
  ++ s.ruleChecks g ++ s.tierChecks g

/-- Sets a range of module memory to +0; a write to a LOST channel or to a stack in test mode is dropped (R223, R236). -/
def State.zeroRange (s : State) (a n : Nat) : State :=
  { s with mem := s.mem.filter (fun c => !(a ≤ c.1 && c.1 < a + n) || s.lostAt c.1) }

/-- Every moment, scale, residual and factor plane of a group set to +0 (R242, R290). The moments and scales of a HOST group have their home at
HADDR, so its landing area, which another group may be resident in, is not touched (R277, R278). -/
def State.zeroPlanes (s : State) (g : GroupP) : State :=
  let n := (s.ownBlocks g).2
  let banks := fun (ks : List Nat) => ks.flatMap (fun k => [(k, 0), (k, 1)])
  let here := fun (s : State) (ks : List Nat) => s.forAll (banks ks) (fun s p =>
    s.zeroRange (stackBase g.field + g.planeOff n p.1 p.2) (g.planeSize n p.1))
  if g.tier.home = 1 then
    (here s [4]).forAll (banks [1, 2, 3]) (fun s p =>
      s.store (s.fieldClass g.field) (g.hostOff n p.1 p.2) (List.replicate (g.planeSize n p.1) 0))
  else here s ([1, 2, 3, 4] ++ (List.range (g.ruleSizes.length / 2)).map (fun i => 5 + i))

/-- Whether a mark lies behind in the step in progress. Marks 30 and 31 come only after the step has ended, so that nothing of the step is done at
them; a mark that the table in force does not define counts as passed from STEP_BEGIN on (DESIGN CHOICE, assumptions 122, 123). -/
def State.pastMark (s : State) (m : Nat) : Bool := s.bcn.begun && decide (markPhase s.bcn.table m ≤ s.bcn.phase)

/-- PGROUP_REG: registers a group with version 0 unpublished; NELEM 0 registers nothing (R242, R247). -/
def startPgroupReg (s : State) (uid : Nat) (g : GroupP) : State :=
  if g.nelem = 0 then s.finish uid stDone []
  else
    let x : Group := { p := g, bank := g.bank, active := !(s.isTrainField g.field && s.pastMark g.xmark) }
    (((s.modFld g.field (fun d => { d with groups := smapSet d.groups g.gid x })).clearGrad g.field x).zeroPlanes g).finish uid stDone []

/-! ### PGROUP_REMOVE and PUBLISH (R255, R512) -/

/-- FIELD and GID of a command of the group. -/
def ckGroup (s : State) (part op : Nat) (p : FieldGid) : List Check :=
  let o := fieldOff op
  [ckValue (p.field ≤ 63) (o 0), ckValue (p.gid ≤ 255) (o 1), ckTarget (63 < p.field || s.reach part p.field) (o 0),
   ckTarget (63 < p.field || (s.group p.field p.gid).isSome) (o 1)]

/-- PGROUP_REMOVE. -/
def checksPgroupRemove (s : State) (part : Nat) (p : FieldGid) : List Check :=
  ckGroup s part 0x0701 p ++ [ckState (match s.group p.field p.gid with
    | some g => g.outer.isNone && g.use0 == 0 && g.use1 == 0 && g.removing.isNone
    | none => true) stState (fieldOff 0x0701 1)]

/-- The flows of a group's replica set are gone with its registration (R316). -/
def Fabric.dropReplica (b : Fabric) (g : GroupP) : Fabric :=
  { b with flows := b.flows.filter (fun x => !((g.field :: g.members.map Prod.snd).any (fun f =>
      x.2.engine == some (replicaSet f g.gid) || x.2.engine == some (ownerSet f g.gid)))) }

/-- Removes a group whose removal waits, and completes the command, once no version awaits publication. -/
def State.removeGroup (s : State) (f gid : Nat) : State :=
  match s.group f gid with
  | some g => match g.removing with
    | some uid => if g.pendingVer then s
      else
        let s1 := s.modFld f (fun d => { d with groups := smapErase d.groups gid })
        State.finish { s1 with fab := s1.fab.dropReplica g.p } uid stDone []
    | none => s
  | none => s

/-- PGROUP_REMOVE: acts after the next COMMIT and its publication; at once where no step line runs the field's partition. -/
def startPgroupRemove (s : State) (uid : Nat) (p : FieldGid) : State :=
  let s1 := s.modGroup p.field p.gid (fun g => { g with removing := some uid })
  if s.isTrainField p.field then s1 else s1.removeGroup p.field p.gid

/-- PUBLISH. -/
def checksPublish (s : State) (part : Nat) (p : FieldGid) : List Check :=
  ckGroup s part 0x0702 p ++ [ckState (match s.group p.field p.gid with
    | some g => !g.published && g.pubOnly.isNone
    | none => true) stState (fieldOff 0x0702 1)]

/-- PUBLISH: version 0 awaits its emission, and a version that a COMMIT computed before waits behind it; the command completes when
version 0 is published. -/
def startPublish (s : State) (uid : Nat) (p : FieldGid) : State :=
  s.modGroup p.field p.gid (fun g => { g with pubOnly := some uid, pendingVer := true, behind := g.pendingVer })

/-! ### The drift audit (R254) -/

/-- The ordinal of a code in value order, both zeros counting as one. -/
def ordinal (fmt code : Nat) : Int :=
  if fmt = 7 then signedOf 4 code
  else
    let w := fmtBits fmt
    let mag := code % 2 ^ (w - 1)
    if code.testBit (w - 1) then -(mag : Int) else mag

/-- Whether an element is NaN: by its code, or by its block's scale. -/
def elemNan (fmt scale code : Nat) : Bool := if isBlockFmt fmt then scale == 0xFF else (elemVal fmt 0 code).isNan

/-- The ulp distance of two elements. -/
def ulpDistance (fmt : Nat) (a b : Nat × Nat) : Nat :=
  if elemNan fmt a.1 a.2 != elemNan fmt b.1 b.2 || (isBlockFmt fmt && a.1 != b.1) then 0xFFFFFFFF
  else if elemNan fmt a.1 a.2 then 0
  else (ordinal fmt a.2 - ordinal fmt b.2).natAbs

/-- The elements of block `b` that conversion of the committed master gives, as (scale, code). -/
def State.wcExpect (s : State) (g : Group) (b : Nat) : List (Nat × Nat) :=
  let own := s.ownBlocks g.p
  let c := g.p.convert (s.operF32s (s.planeAddr g.p 0 g.bank (512 * (b - own.1))) 128)
  c.codes.zipIdx.map (fun p => (if isBlockFmt g.p.wcfmt then c.scales.getD (p.2 / 32) 0 else 0, p.1))

/-- MAXULP, NDIFF and FIRST over the blocks whose master the member holds. -/
def State.audit (s : State) (g : Group) : List Nat :=
  let own := s.ownBlocks g.p
  let ds := (List.range own.2).flatMap (fun k =>
    let b := own.1 + k
    ((s.wcRead g.p g.version b).zip (s.wcExpect g b)).zipIdx.map (fun e => (128 * b + e.2, ulpDistance g.p.wcfmt e.1.1 e.1.2)))
  let bad := ds.filter (fun d => d.2 != 0)
  [bad.foldl (fun a d => max a d.2) 0, bad.length, match bad with | d :: _ => d.1 | [] => 0xFFFFFFFF]

/-- DRIFT_AUDIT. -/
def checksAudit (s : State) (part : Nat) (p : FieldGid) : List Check :=
  ckGroup s part 0x0704 p ++ [ckState (match s.group p.field p.gid with | some g => g.published | none => true) stState (fieldOff 0x0704 1)]

/-- Whether an audit of a group can be decided: no version awaits publication, and the masters are at hand: those of a HOST group are while it
is resident (R254, R278; assumption 103). -/
def Group.auditable (g : Group) : Bool := !g.pendingVer && (g.p.tier.home != 1 || g.resident)

/-- An audit is decided; the masters that it reads as zero are counted (R61). -/
def State.doAudit (s : State) (uid : Nat) (g : Group) : State :=
  ((s.countReads g.p (s.subnormals (s.planeAddr g.p 0 g.bank 0) (128 * (s.ownBlocks g.p).2))).foldDone g.p.field).finish uid stDone (s.audit g)

/-- DRIFT_AUDIT: decided at once, or once the emission in progress has been published and the masters are at hand. -/
def startAudit (s : State) (uid : Nat) (p : FieldGid) : State :=
  match s.group p.field p.gid with
  | some g => if g.auditable then s.doAudit uid g else s
  | none => s.finish uid stTarget []

/-- The audits of a group that wait. -/
def State.auditsOf (s : State) (f gid : Nat) : List OutCmd :=
  s.host.cmds.filter (fun c => c.phase == .running && (match c.body with
    | .driftAudit p => p.field == f && p.gid == gid
    | _ => false))

/-- The audits of a group that waited are decided when they can be. -/
def State.runAudits (s : State) (f gid : Nat) : State :=
  match s.group f gid with
  | some g => if g.auditable then s.forAll (s.auditsOf f gid) (fun s c => s.doAudit c.uid g) else s
  | none => s

end Sys2Proof.Machine
end

