-- ==== Sys2Proof/Machine/Collective.lean ====
section
/-! DEFINITION. Machine/Collective.lean: collective groups and the collective engine (R118 to R121, R321 to R330, R425). -/

namespace Sys2Proof

open Sys2Proof.Machine

/-- Whether an operation reduces. -/
def CollP.reduces (_ : CollP) (op : Nat) : Bool := op == 0 || op == 1 || op == 4

/-- Whether the operator is mean and variance. -/
def CollP.mv (p : CollP) : Bool := p.opr == 4

end Sys2Proof

namespace Sys2Proof.Machine

/-! ### Layout (R324, R325) -/

/-- The bytes of a vector of `n` elements of a type, 8-bit vectors in whole groups; `mv` for MEANVAR elements of 16 bytes. -/
def collBytes (ty : Nat) (mv : Bool) (n : Nat) : Nat :=
  if mv then 16 * n
  else if ty = 0 then 4 * n
  else if ty = 1 then 2 * n
  else
    ceilDiv (n / 128) 64 * 8256

/-- The address of block `b` of a vector, and of its scale byte. -/
def collBlock (ty : Nat) (mv : Bool) (base b : Nat) : Nat × Nat :=
  if mv then (base + 2048 * b, 0)
  else if ty = 0 then (base + 512 * b, 0)
  else if ty = 1 then (base + 256 * b, 0)
  else (base + b / 64 * 8256 + 64 + 128 * (b % 64), base + b / 64 * 8256 + b % 64)

/-- The bytes of a block as a message carries it: an 8-bit block's scale byte comes first. -/
def State.collRaw (s : State) (ty : Nat) (mv : Bool) (base b : Nat) : List Byte :=
  let a := collBlock ty mv base b
  if mv then s.peekBytes a.1 2048 else if ty = 0 then s.peekBytes a.1 512 else if ty = 1 then s.peekBytes a.1 256
  else s.peek a.2 :: s.peekBytes a.1 128

/-- The length of such a block. -/
def rawLen (ty : Nat) (mv : Bool) : Nat := if mv then 2048 else if ty = 0 then 512 else if ty = 1 then 256 else 129

/-- Writes a block that a message carried. -/
def State.collPut (s : State) (ty : Nat) (mv : Bool) (base b : Nat) (raw : List Byte) : State :=
  let a := collBlock ty mv base b
  if mv || ty = 0 || ty = 1 then s.pokeBytes a.1 raw
  else (s.pokeBytes a.2 (raw.take 1)).pokeBytes a.1 (raw.drop 1)

/-- The shards and segments of a vector of `n` elements over `ranks`: shard, first block, blocks; at most 32 blocks each (R243, R324). -/
def collSegs (n ranks : Nat) : List (Nat × Nat × Nat) :=
  let b := n / 128
  (List.range ranks).flatMap (fun j =>
    let lo := j * b / ranks
    let hi := (j + 1) * b / ranks
    (List.range (ceilDiv (hi - lo) 32)).map (fun i => (j, lo + 32 * i, min 32 (hi - lo - 32 * i))))

/-- The 16 KiB chunks of a byte count: offset and length. -/
def collChunks (n : Nat) : List (Nat × Nat) := (List.range (ceilDiv n 16384)).map (fun i => (16384 * i, min 16384 (n - 16384 * i)))

/-! ### Values (R118 to R121, R325) -/

/-- The identity of an operator, as the words of one element. -/
def collIdentity (opr : Nat) : List F32 :=
  match opr with
  | 1 => [ninfF32]
  | 2 => [infF32]
  | 4 => [0, 0, 0]
  | _ => [0]

/-- The words of a raw block, widened, and the counts of each element. -/
def collWiden (p : CollP) (raw : List Byte) : List F32 × List Ev :=
  let word := fun (i k : Nat) => bytesAt raw (16 * i + 4 * k) 4
  let r := if p.mv then (List.range 128).flatMap (fun i => [(f32 (word i 0), ({} : Ev)), readWiden 0 0 (word i 1), readWiden 0 0 (word i 2)])
    else if p.itype = 0 then (wordsOf 4 raw).map (fun c => readWiden 0 0 c)
    else if p.itype = 1 then (wordsOf 2 raw).map (fun c => readWiden 1 0 c)
    else (raw.drop 1).map (fun c => widenScaled p.itype (bytesAt raw 0 1) c.toNat)
  (r.map Prod.fst, r.map Prod.snd)

/-- One member's contribution of a block: its input, squared for SUMSQ, or the identity (R120, R323). -/
def collContrib (p : CollP) (raw : List Byte) : List F32 :=
  if p.contrib = 0 then (List.replicate 128 (collIdentity p.opr)).flatten
  else if p.opr = 3 then (collWiden p raw).1.map (fun x => fMul x x)
  else (collWiden p raw).1

/-- The combine of MEANVAR words, element by element; the class of each element, and whether a count stopped (R121, R158). -/
def mvWords : List F32 → List F32 → List F32 × List Cls × Bool
  | n :: m :: v :: a, n' :: m' :: v' :: b =>
    let x : MeanVar := ⟨n.toNat, m, v⟩
    let y : MeanVar := ⟨n'.toNat, m', v'⟩
    let r := mvCombine x y
    let rest := mvWords a b
    (BitVec.ofNat 32 r.n :: r.mean :: r.m2 :: rest.1, mvCls x y :: rest.2.1, mvLong x y || rest.2.2)
  | _, _ => ([], [], false)

/-- The classes of elements after a further step: the last that met a condition stands (R158). -/
def laterCls (a b : List Cls) : List Cls :=
  if a.isEmpty then b else if b.isEmpty then a else List.zipWith (fun x y => if y = .none then x else y) a b

/-- The classes of the squares that SUMSQ forms of a contribution (R120, R158). -/
def collSquares (p : CollP) (raw : List Byte) : List Cls :=
  if p.contrib = 0 || p.opr != 3 then []
  else (collWiden p raw).1.map (fun x => exactCls 1 [x] ((f32Val x).mul (f32Val x)) (fMul x x))

/-- The combine ⊕ of two segments (R118 to R121), the class of each element, and LONGSUM. -/
def collCombine (opr : Nat) (a b : List F32) : List F32 × List Cls × Bool :=
  if opr = 4 then mvWords a b
  else
    let f := if opr = 1 then fMax else if opr = 2 then fMin else fAdd
    let rs := (a.zip b).map (fun x => (x, f x.1 x.2))
    (rs.map Prod.snd, rs.map (fun x => clsOf 3 [f32Val x.1.1, f32Val x.1.2] (f32Val x.2)), false)

/-- The counts of a MEANVAR element converted to BF16: one element, whose mean and M2 are narrowed (R162; DESIGN CHOICE, assumption 109). -/
def mvEv (mean m2 : F32) : Ev :=
  let a := (convertElem 1 false none (f32Val mean)).2
  let b := (convertElem 1 false none (f32Val m2)).2
  { sat := a.sat || b.sat, inf := a.inf || b.inf, invalid := a.invalid || b.invalid, flush := a.flush || b.flush, ovr := a.ovr || b.ovr,
    vanish := a.vanish || b.vanish }

/-- The output bytes of the words of a block (R325), with the counts of each element. -/
def collOut (p : CollP) (ws : List F32) : List Byte × List Ev :=
  if p.mv && p.otype = 1 then
    ((List.range 128).flatMap (fun i => leBytes 16 (Config.meanVarBf16 (ws.getD (3 * i) 0).toNat (ws.getD (3 * i + 1) 0).toNat (ws.getD (3 * i + 2) 0).toNat).toNat),
     (List.range 128).map (fun i => mvEv (ws.getD (3 * i + 1) 0) (ws.getD (3 * i + 2) 0)))
  else if p.mv then ((List.range 128).flatMap (fun i => (List.range 3).flatMap (fun k => leBytes 4 (ws.getD (3 * i + k) 0).toNat) ++ [0, 0, 0, 0]), [])
  else if p.otype = 0 || p.otype = 1 then
    let r := ws.map (fun w => convertElem p.otype false none (f32Val w))
    (r.flatMap (fun x => leBytes (if p.otype = 0 then 4 else 2) x.1), r.map Prod.snd)
  else
    let x := exchangeBlock8 p.otype ws
    (leBytes 1 x.1 ++ x.2.1.flatMap (leBytes 1), x.2.2)
where
  /-- An 8-bit block with its scale, as R249 converts it, without a residual. -/
  exchangeBlock8 (fmt : Nat) (xs : List F32) : Nat × List Nat × List Ev :=
    if xs.any (fun x => !f32IsFin x) then (0xFF, xs.map (fun _ => 0), xs.map (fun _ => { invalid := !(xs.any f32IsNan) }))
    else
      let q := quantise8 fmt xs
      (q.1, q.2.1, xs.map (fun x => (convertElem fmt false none (unscale (f32Val x) q.1)).2))

/-! ### The engine -/

/-- The group of a job. -/
def State.collGroup (s : State) (g : Nat) : CGroup := smapGet { members := [], part := 0 } s.fab.groups g

/-- This module's rank in a group. -/
def State.collRank (s : State) (g : Nat) : Nat := ((s.collGroup g).members.findIdx? (fun m => m == s.place.moduleId)).getD 0

/-- Changes the job of a command. -/
def State.modJob (s : State) (uid : Nat) (f : CollJob → CollJob) : State :=
  { s with fab := { s.fab with jobs := s.fab.jobs.map (fun j => if j.uid == uid then f j else j) } }

/-- The job of a command. -/
def State.collJob (s : State) (uid : Nat) : Option CollJob := s.fab.jobs.find? (fun j => j.uid == uid)

/-- The signature of a job from this module. -/
def State.ownSig (s : State) (j : CollJob) : CollSig :=
  { group := j.p.group, seq := j.seq, epoch := (s.collGroup j.p.group).epoch, rank := s.collRank j.p.group, op := j.op, opr := j.p.opr,
    itype := j.p.itype, otype := j.p.otype, count := j.p.count, root := j.p.root }

/-- Whether a signature of another rank agrees with a job (R322). -/
def CollJob.agrees (j : CollJob) (g : CollSig) : Bool :=
  g.seq == j.seq && g.op == j.op && g.opr == j.p.opr && g.itype == j.p.itype && g.otype == j.p.otype && g.count == j.p.count && g.root == j.p.root

/-- The field that a job's counts are charged to: that of its destination (R159). -/
def State.collField (s : State) (j : CollJob) : Nat := match s.unitOf j.p.dst with | some u => u.2.2.2 | none => 0

/-- Counts what the engine meets on a block (R158, R159): SOURCE 7, and health tag 0, since the command carries none. -/
def State.collMeter (s : State) (j : CollJob) (fmt : Nat) (cls : List Cls) (evs : List Ev) (long : Bool) : State :=
  s.fieldMeter (s.collField j) (fun m =>
    let m1 := m.vector (fieldLocus s.stepNow 0 0 7) fmt (if cls.isEmpty then evs.map (fun _ => .none) else cls) evs
    if long then m1.sticky bitLongsum 0 else m1)

/-- This module's contribution to a segment. -/
def State.collOwn (s : State) (j : CollJob) (seg : Nat × Nat × Nat) : List F32 :=
  (List.range seg.2.2).flatMap (fun i => collContrib j.p (s.collRaw j.p.itype j.p.mv j.p.src (seg.2.1 + i)))

/-- The classes of the elements of the own contribution as it is formed (R120, R158). -/
def State.collOwnCls (s : State) (j : CollJob) (seg : Nat × Nat × Nat) : List Cls :=
  (List.range seg.2.2).flatMap (fun i => collSquares j.p (s.collRaw j.p.itype j.p.mv j.p.src (seg.2.1 + i)))

/-- The operand elements of the own contribution that were read as zero or widened to an infinity are counted (R51, R61). -/
def State.collOwnReads (s : State) (j : CollJob) (seg : Nat × Nat × Nat) : State :=
  if j.p.contrib = 0 then s
  else s.fieldMeter (s.collField j) (fun m => (List.range seg.2.2).foldl (fun m i =>
    m.reads (fieldLocus s.stepNow 0 0 7) (collWiden j.p (s.collRaw j.p.itype j.p.mv j.p.src (seg.2.1 + i))).2) m)

/-- Segment words as message bytes. -/
def wordBytes (ws : List F32) : List Byte := ws.flatMap (fun w => leBytes 4 w.toNat)

/-- Sends a message of a job to a rank over the group's flows: those of the step's traffic, or those that no abort moves (R316, R317, R329). -/
def State.collMsg (s : State) (j : CollJob) (rank seg : Nat) (m : FabMsg) : State :=
  let g := s.collGroup j.p.group
  s.sendMsg g.part (if j.inStep then g.epoch else 0) (collSet j.p.group j.inStep) (g.members.getD rank 0) seg m

/-- A segment of a job to a rank. -/
def State.collSend (s : State) (j : CollJob) (rank seg : Nat) (final : Bool) (data : List Byte) : State :=
  s.collMsg j rank seg { kind := 1, args := [j.seq, seg, s.collRank j.p.group, b2n final], data := data }

/-- The signature of a job as a message (R322). -/
def State.sigMsg (s : State) (j : CollJob) : FabMsg :=
  let g := s.ownSig j
  { kind := 0, args := [g.seq, g.rank, packBits [(0, g.op), (8, g.opr), (16, g.itype), (24, g.otype)], g.count, g.root], data := [] }

/-- The signature of a job to a rank (R322). -/
def State.sendSig (s : State) (j : CollJob) (rank : Nat) : State := s.collMsg j rank 0 (s.sigMsg j)

/-- The signature that a message carries. -/
def sigOf (group epoch : Nat) (m : FabMsg) : CollSig :=
  let a := fun (i : Nat) => m.args.getD i 0
  { group := group, seq := a 0, epoch := epoch, rank := a 1, op := bitsAt (a 2) 0 8, opr := bitsAt (a 2) 8 8, itype := bitsAt (a 2) 16 8,
    otype := bitsAt (a 2) 24 8, count := a 3, root := a 4 }

/-- The segment that a message carries, with what the residue check met on it. -/
def segOf (group epoch bad lane : Nat) (m : FabMsg) : CollSeg :=
  let a := fun (i : Nat) => m.args.getD i 0
  { group := group, seq := a 0, epoch := epoch, seg := a 1, rank := a 2, final := a 3 != 0, data := m.data, bad := bad, lane := lane }

/-- Writes the result bytes of segment `k` at this rank. A reduce-scatter's shard is a vector of its own. -/
def State.collWrite (s : State) (j : CollJob) (k : Nat) (data : List Byte) : State :=
  let p := j.p
  let n := (s.collGroup p.group).members.length
  let me := s.collRank p.group
  let s1 : State :=
    if j.op = 3 then
      (let c := (collChunks p.count).getD k (0, 0)
       s.pokeBytes (p.dst + c.1) (data.take c.2))
    else
      let seg := (collSegs p.count n).getD k (0, 0, 0)
      let lo := if j.op = 1 then me * (p.count / 128) / n else 0
      let ty := if p.reduces j.op then p.otype else p.itype
      let len := rawLen ty p.mv
      s.forAll (List.range seg.2.2) (fun s i => s.collPut ty p.mv p.dst (seg.2.1 - lo + i) ((data.drop (len * i)).take len))
  s1.modJob j.uid (fun j => { j with done := if j.done.contains k then j.done else j.done ++ [k] })

/-- A segment holds every rank's contribution: it is converted once and goes to its destinations (R326, R327). -/
def State.collResult (s : State) (j : CollJob) (k : Nat) (ws : List F32) : State :=
  let p := j.p
  let n := (s.collGroup p.group).members.length
  let me := s.collRank p.group
  let seg := (collSegs p.count n).getD k (0, 0, 0)
  let w := if p.mv then 384 else 128
  let outs := (List.range seg.2.2).map (fun i => collOut p ((ws.drop (w * i)).take w))
  let data := outs.flatMap Prod.fst
  let cls := smapGet [] j.cls k
  let s1 := s.forAll outs.zipIdx (fun s o => s.collMeter j p.otype ((cls.drop (128 * o.2)).take 128) o.1.2 false)
  let dests := if j.op = 0 then List.range n else if j.op = 1 then [seg.1] else [p.root]
  s1.forAll dests (fun s r => if r = me then s.collWrite j k data else s.collSend j r k true data)

/-- Adds words from a rank, of the classes `own`, into a segment as the right operand (R118, R119, R327). The classes wait for the segment to
leave (R158). -/
def State.collAdd (s : State) (j : CollJob) (k rank : Nat) (ws : List F32) (own : List Cls) : State :=
  let had := smapGet [] j.added k
  let r := if had.isEmpty then (ws, [], false) else collCombine j.p.opr (smapGet [] j.partials k) ws
  let s1 := if r.2.2 then s.collMeter j 0 [] [] true else s
  s1.modJob j.uid (fun x => { x with partials := smapSet x.partials k r.1, added := smapSet x.added k (had ++ [rank]),
                                     cls := smapSet x.cls k (laterCls (laterCls (smapGet [] x.cls k) own) r.2.1) })

/-- Outside EXACT: when every rank's contribution to a segment of the own shard is in, its result goes out (R326). -/
def State.collFull (s : State) (uid k : Nat) : State :=
  match s.collJob uid with
  | some j => if (smapGet [] j.added k).length = (s.collGroup j.p.group).members.length then s.collResult j k (smapGet [] j.partials k) else s
  | none => s

/-- The chain of R327 at this rank: the own contribution is the right operand, and the segment goes on, or is the result. -/
def State.collChain (s : State) (uid k : Nat) (ws : Option (List F32)) : State :=
  match s.collJob uid with
  | none => s
  | some j =>
    let n := (s.collGroup j.p.group).members.length
    let me := s.collRank j.p.group
    let seg := (collSegs j.p.count n).getD k (0, 0, 0)
    let own := s.collOwn j seg
    let s0 := s.collOwnReads j seg
    let s1 := match ws with | some w => s0.collAdd j k (me - 1) w [] | none => s0
    let s2 := match s1.collJob uid with | some j1 => s1.collAdd j1 k me own (s0.collOwnCls j seg) | none => s1
    match s2.collJob uid with
    | none => s2
    | some j2 =>
      if me + 1 < n then (s2.collMeter j 0 (smapGet [] j2.cls k) [] false).collSend j (me + 1) k false (wordBytes (smapGet [] j2.partials k))
      else s2.collResult j2 k (smapGet [] j2.partials k)

/-- How many members have arrived at a job's BARRIER so far. -/
def State.barrierCount (s : State) (j : CollJob) : Nat := (smapGet [] s.fab.barriers (barrierKey j.p.group j.seq)).length

/-- Whether a job has done its part here. -/
def State.collReady (s : State) (j : CollJob) : Bool :=
  let p := j.p
  let n := (s.collGroup p.group).members.length
  let me := s.collRank p.group
  let segs := (collSegs p.count n).zipIdx
  let all := fun (t : Nat × Nat × Nat → Bool) => segs.all (fun x => !t x.1 || j.done.contains x.2)
  let added := segs.all (fun x => if j.exact then !(smapGet [] j.added x.2).isEmpty
    else x.1.1 != me || (smapGet [] j.added x.2).length == n)
  j.started && match j.op with
    | 0 => added && all (fun _ => true)
    | 1 => added && all (fun x => x.1 == me)
    | 4 => added && (me != p.root || all (fun _ => true))
    | 2 => all (fun _ => true)
    | 3 => (List.range (collChunks p.count).length).all (fun k => j.done.contains k)
    | 5 => (List.range n).all (fun r => (List.range (collChunks p.count).length).all (fun k => j.done.contains (r * 2 ^ 24 + k)))
    | _ => n ≤ 1 || n ≤ s.barrierCount j

/-- A job that has done its part, and is the oldest of its group here, completes its command (R322, R323). -/
def State.collFinish (s : State) (uid status : Nat) : State :=
  let s1 := match s.collJob uid with | some j => if j.op = 6 then s else s.foldDone (s.collField j) | none => s
  let rest := match s.collJob uid with | some j => smapErase s1.fab.barriers (barrierKey j.p.group j.seq) | none => s1.fab.barriers
  State.finish { s1 with fab := { s1.fab with jobs := s1.fab.jobs.filter (fun j => j.uid != uid), barriers := rest } } uid status []

/-- Completes jobs of a group in order while the oldest is ready; `fuel` bounds their number. -/
def State.collDrain (s : State) (g : Nat) : Nat → State
  | 0 => s
  | fuel + 1 =>
    match s.fab.jobs.find? (fun j => j.p.group == g) with
    | some j => if s.collReady j then State.collDrain (s.collFinish j.uid stDone) g fuel else s
    | none => s

/-- Data moves once every signature agrees (R322, R324, R326, R327). -/
def State.collStart (s : State) (uid : Nat) : State :=
  match s.collJob uid with
  | none => s
  | some j =>
    let p := j.p
    let n := (s.collGroup p.group).members.length
    let me := s.collRank p.group
    let segs := (collSegs p.count n).zipIdx
    let others := (List.range n).filter (fun r => r != me)
    let s1 := s.modJob uid (fun x => { x with started := true })
    let raw := fun (b : Nat) => if p.contrib = 0 then List.replicate (rawLen p.itype p.mv) 0 else s.collRaw p.itype p.mv p.src b
    let bytes := fun (a len : Nat) => if p.contrib = 0 then List.replicate len 0 else s.peekBytes a len
    match j.op with
    | 2 =>
      s1.forAll (segs.filter (fun x => x.1.1 == me)) (fun s x =>
        let lo := me * (p.count / 128) / n
        let data := (List.range x.1.2.2).flatMap (fun i => raw (x.1.2.1 - lo + i))
        (s.forAll others (fun s r => s.collSend j r x.2 true data)).collWrite j x.2 data)
    | 3 =>
      if me != p.root then s1
      else s1.forAll (collChunks p.count).zipIdx (fun s x =>
        let data := bytes (p.src + x.1.1) x.1.2
        (s.forAll others (fun s r => s.collSend j r x.2 true data)).collWrite j x.2 data)
    | 5 =>
      s1.forAll (List.range n) (fun s r => s.forAll (collChunks p.count).zipIdx (fun s x =>
        let data := bytes (p.src + r * p.count + x.1.1) x.1.2
        if r = me then (s.pokeBytes (p.dst + me * p.count + x.1.1) data).modJob uid (fun y => { y with done := y.done ++ [me * 2 ^ 24 + x.2] })
        else s.collSend j r x.2 true data))
    | 6 =>
      if n ≤ 1 then s1
      else s1.barrierUp (barrierFab s.place.moduleId p.group j.seq s.bcn.step s.bcn.attempt)
    | _ =>
      if j.exact then
        (if me = 0 then s1.forAll segs (fun s x => s.collChain uid x.2 none) else s1)
      else s1.forAll segs (fun s x =>
        let s2 := s.collOwnReads j x.1
        if x.1.1 = me then
          (match s2.collJob uid with
           | some j1 => (s2.collAdd j1 x.2 me (s2.collOwn j1 x.1) (s2.collOwnCls j1 x.1)).collFull uid x.2
           | none => s2)
        else (s2.collMeter j 0 (s2.collOwnCls j x.1) [] false).collSend j x.1.1 x.2 false (wordBytes (s2.collOwn j x.1)))

/-- A residue mismatch on a segment (R328): a retry; a second one fences its adder lane and raises HW_FAULT for the owner. Answers
whether the collective ended with it. -/
def State.collResidue (s : State) (j : CollJob) (g : CollSeg) : State × Bool :=
  if g.bad = 0 then (s, false)
  else
    let part := match s.cmd j.uid with | some c => c.part | none => (s.collGroup j.p.group).part
    let s1 : State := { s with fab := { s.fab with retries := satAdd 32 s.fab.retries 1, retrySeen := true } }
    if g.bad = 1 then (s1, false)
    else
      let lanes := Nat.xor s1.fab.lanes (Nat.land s1.fab.lanes (2 ^ (g.lane % 16)))
      let s2 := State.hwFault { s1 with fab := { s1.fab with lanes := lanes, resfault := true } } 2 part g.lane
      if (s.part part).train then (s2, true) else (s2.collFinish j.uid stHw, true)

/-- A segment for a job whose data moves. -/
def State.collTake (s : State) (j : CollJob) (g : CollSeg) : State :=
  let p := j.p
  let n := (s.collGroup p.group).members.length
  if g.final then
    (if j.op = 5 then
      (let c := (collChunks p.count).getD g.seg (0, 0)
       (s.pokeBytes (p.dst + g.rank * p.count + c.1) (g.data.take c.2)).modJob j.uid (fun x =>
         { x with done := if x.done.contains (g.rank * 2 ^ 24 + g.seg) then x.done else x.done ++ [g.rank * 2 ^ 24 + g.seg] }))
     else s.collWrite j g.seg g.data)
  else
    let r := s.collResidue j g
    if r.2 then r.1
    else
      let ws := (wordsOf 4 g.data).map f32
      if j.exact then (if g.rank + 1 = r.1.collRank p.group && (smapGet [] j.added g.seg).isEmpty then r.1.collChain j.uid g.seg (some ws) else r.1)
      else if g.rank < n && !(smapGet [] j.added g.seg).contains g.rank then (r.1.collAdd j g.seg g.rank ws []).collFull j.uid g.seg
      else r.1

/-- The segments that came before their job's data moved. -/
def State.collEarly (s : State) (uid : Nat) : State :=
  match s.collJob uid with
  | none => s
  | some j =>
    let mine := fun (g : CollSeg) => g.group == j.p.group && g.seq == j.seq
    let segs := s.fab.earlySegs.filter mine
    State.forAll { s with fab := { s.fab with earlySegs := s.fab.earlySegs.filter (fun g => !mine g) } } segs (fun s g =>
      match s.collJob uid with | some j => s.collTake j g | none => s)

/-- Once every rank's signature is in: the data moves, or every member completes with BAD_VALUE (R322). The module's own contribution stands
before the segments that came early, which follow in their order of arrival (R118; DESIGN CHOICE, assumption 99). -/
def State.collSigned (s : State) (uid : Nat) : State :=
  match s.collJob uid with
  | none => s
  | some j =>
    if j.started || j.sigs.length < (s.collGroup j.p.group).members.length then s
    else if j.sigs.any (fun x => !x.2) then (s.collFinish uid stValue).collDrain j.p.group (s.fab.jobs.length + 1)
    else ((s.collStart uid).collEarly uid).collDrain j.p.group (s.fab.jobs.length + 1)

/-- A rank's signature for a job. -/
def State.collSig (s : State) (uid : Nat) (g : CollSig) : State :=
  (s.modJob uid (fun j => if j.sigs.any (fun x => x.1 == g.rank) then j else { j with sigs := j.sigs ++ [(g.rank, j.agrees g)] })).collSigned uid

/-- The oldest job of a group that has no signature of a rank yet: the one that the rank's next signature is held against (R322). -/
def State.sigJob (s : State) (group rank : Nat) : Option CollJob :=
  s.fab.jobs.find? (fun j => j.p.group == group && !(j.sigs.any (fun x => x.1 == rank)))

/-- The first signature of each rank that came before its job was issued here. -/
def firstSigs : List Nat → List CollSig → List CollSig × List CollSig
  | _, [] => ([], [])
  | seen, g :: gs =>
    if seen.contains g.rank then
      let r := firstSigs seen gs
      (r.1, g :: r.2)
    else
      let r := firstSigs (g.rank :: seen) gs
      (g :: r.1, r.2)

/-- A group is gone, with its flows and what had arrived for its barriers (R316, R321). -/
def Fabric.dropGroup (b : Fabric) (id : Nat) : Fabric :=
  { b with groups := smapErase b.groups id, barriers := b.barriers.filter (fun x => x.1 / 2 ^ 48 != id),
           flows := b.flows.filter (fun x => x.2.engine != some (collSet id true) && x.2.engine != some (collSet id false)) }

/-- Whether a group has no collective in progress or waiting to be reissued. -/
def State.cgroupIdle (s : State) (id : Nat) : Bool :=
  !(s.fab.jobs.any (fun j => j.p.group == id)) && !(s.host.cmds.any (fun c => c.phase == .running && (match c.body with
    | .collective _ p => p.group == id
    | _ => false)))

/-- A removal acts once no collective of its group is in progress (R330). -/
def State.cgroupSweep (s : State) : State :=
  s.forAll (s.host.cmds.filter (fun c => c.phase == .running && opcodeOf c.body == 0x0502)) (fun s c =>
    match c.body with
    | .cgroupRemove id => if s.cgroupIdle id then
        State.finish { s with fab := s.fab.dropGroup id } c.uid stDone [] else s
    | _ => s)

/-- The next place in the order of issue. -/
def State.nextOrder (s : State) : Nat := (s.host.cmds.map (fun c => c.order)).foldl max 0 + 1

/-- Whether what starts now in a partition is work of the step in progress, or of the one that is being recovered (R422). -/
def State.inStepWork (s : State) (part : Nat) : Bool := (s.part part).train && (s.bcn.begun || (s.bcn.recovering && !s.bcn.missed))

/-- COLLECTIVE goes to the engine (R322): it takes its group's sequence number and exchanges signatures. -/
def issueCollective (s : State) (uid part op : Nat) (p : CollP) : State :=
  if (smapFind s.fab.groups p.group).isNone then s.finish uid stTarget [] else
  let g := s.collGroup p.group
  let inStep := s.inStepWork part
  let j : CollJob := { uid := uid, op := op, p := p, seq := g.seq, exact := (s.part part).profile == 1, inStep := inStep }
  let s1 : State := { s with fab := { s.fab with groups := smapSet s.fab.groups p.group { g with seq := g.seq + 1 }, jobs := s.fab.jobs ++ [j] } }
  let s2 := s1.modCmd uid (fun c =>
    { c with inStep := c.inStep || inStep, deferred := false, order := if c.order = 0 then s.nextOrder else c.order })
  let mine := s2.ownSig j
  let s3 := s2.forAll ((List.range g.members.length).filter (fun r => r != mine.rank)) (fun s r => s.sendSig j r)
  let held := s3.fab.earlySigs.filter (fun x => x.group == p.group)
  let early := firstSigs [mine.rank] held
  let s4 : State := { s3 with fab := { s3.fab with earlySigs := s3.fab.earlySigs.filter (fun x => x.group != p.group) ++ early.2 } }
  ((mine :: early.1).foldl (fun s g => s.collSig uid g) s4).cgroupSweep

/-- COLLECTIVE starts; while collectives of the step wait to be reissued it stays behind them (R425). -/
def startCollective (s : State) (uid part op : Nat) (p : CollP) : State :=
  if (s.part part).train && s.host.cmds.any (fun c => c.deferred && c.part == part && opcodeOf c.body == 0x0503) then
    s.modCmd uid (fun c => { c with deferred := true, order := s.nextOrder, inStep := c.inStep || s.inStepWork part })
  else issueCollective s uid part op p

/-- COLLECTIVE at submission (R323). -/
def checksCollective (s : State) (part op : Nat) (p : CollP) : List Check :=
  let o := fieldOff 0x0503
  let red := p.reduces op
  let n := (s.collGroup p.group).members.length
  let me := s.collRank p.group
  let known := (smapFind s.fab.groups p.group).isSome
  let elems := red || op == 2
  let oneByte := p.itype == 3 || p.itype == 4
  let own := (me + 1) * (p.count / 128) / max n 1 - me * (p.count / 128) / max n 1
  let inB := if op = 2 then collBytes p.itype false (128 * own) else if red then collBytes p.itype p.mv p.count
    else if op = 3 then (if me = p.root then p.count else 0) else if op = 5 then n * p.count else 0
  let outB := if op = 0 then collBytes p.otype p.mv p.count else if op = 1 then collBytes p.otype p.mv (128 * own)
    else if op = 2 then collBytes p.itype false p.count else if op = 4 then (if me = p.root then collBytes p.otype p.mv p.count else 0)
    else if op = 3 then p.count else if op = 5 then n * p.count else 0
  let range := fun (a b : Nat) => b == 0 || s.moduleRange part a b
  [ckValue (op ≤ 6) (o 0), ckValue (if red then p.opr ≤ 4 else p.opr == 0) (o 1),
   ckFormat (!elems || [0, 1, 3, 4].contains p.itype) (o 2), ckFormat (!(red && p.opr == 4) || p.itype == 0) (o 2), ckValue (elems || p.itype == 0) (o 2),
   ckFormat (!red || p.otype == 0 || p.otype == 1 || (oneByte && p.otype == p.itype && p.opr ≤ 2)) (o 3),
   ckValue (red || p.otype == 0) (o 3), ckTarget known (o 4),
   ckValue (if op = 3 || op = 4 then !known || p.root < n else p.root == 0) (o 5),
   ckValue (if elems then p.count % 128 == 0 else if op = 6 then p.count == 0 else p.count % 64 == 0) (o 6),
   ckValue (p.contrib ≤ 1 && (op != 6 || p.contrib == 0)) (o 7),
   ckAlign (p.src % 64 == 0) (o 8), ckAlign (p.dst % 64 == 0) (o 9), ckValue (op != 6 || p.src == 0) (o 8), ckValue (op != 6 || p.dst == 0) (o 9),
   ckTarget (p.contrib == 0 || range p.src inB) (o 8), ckTarget (range p.dst outB) (o 9), ckTarget (part < 16) 5]

/-- A signature of another rank reaches the engine (R322). -/
def State.takeSig (s : State) (g : CollSig) : State :=
  match s.sigJob g.group g.rank with
  | some j => (s.collSig j.uid g).cgroupSweep
  | none => { s with fab := { s.fab with earlySigs := s.fab.earlySigs ++ [g] } }

/-- A segment of another rank reaches the engine; one of a collective that is over is dropped (R326, R327). -/
def State.takeSeg (s : State) (g : CollSeg) : State :=
  match s.fab.jobs.find? (fun j => j.p.group == g.group && j.seq == g.seq) with
  | some j =>
    if j.started then ((s.collTake j g).collDrain g.group (s.fab.jobs.length + 1)).cgroupSweep
    else { s with fab := { s.fab with earlySegs := s.fab.earlySegs ++ [g] } }
  | none => if g.seq < (s.collGroup g.group).seq then s else { s with fab := { s.fab with earlySegs := s.fab.earlySegs ++ [g] } }

/-- FLARE_FRAME_RX: a frame of VL0 arrives; one that the link accepts is a contribution or a broadcast (R309, R345, R347, R349), and the last
arrival of a BARRIER completes it (R324). -/
def execFlareFrameRx (port : Fin 8) (f : FabFrame) (s : State) : Host.Outcome State Fault Refusal :=
  let r := s.linkAccept port f
  if r.2 && f.vl = 0 && s.place.placed then
    .next (if (flareOf f).key = 9 then
      (let s1 := r.1.barrierRx f
       (s1.collDrain (flareOf f).index (s1.fab.jobs.length + 1)).cgroupSweep)
    else r.1.flareRx port (flareOf f))
  else .next r.1

/-! ### Replay (R425) -/

/-- The repeated collectives of the step are reissued in their first order; one that carries a point waits for it, and those behind it with
it. -/
def State.reissueCollectives (s : State) : State :=
  let todo := (s.host.cmds.filter (fun c => c.deferred && opcodeOf c.body == 0x0503)).mergeSort (fun a b => a.order ≤ b.order)
  (todo.foldl (fun (r : State × Bool) c =>
    if !r.2 then r
    else if c.point.all (fun p => r.1.reachedPoint p.1 p.2) then
      (match c.body with
       | .collective op p => (issueCollective r.1 c.uid c.part op p, true)
       | _ => r)
    else (r.1, false)) (s, true)).1

/-! ### CGROUP_REG and CGROUP_REMOVE (R321, R330, R510) -/

/-- CGROUP_REG. -/
def checksCgroupReg (s : State) (part id : Nat) (ms : List Nat) : List Check :=
  let o := fieldOff 0x0501
  [ckValue (id ≤ 511) (o 0), ckZero (!ms.isEmpty) (o 1), ckValue (ms.length ≤ 1024) (o 1), ckTarget (part < 16) 5,
   ckValue (ms.isEmpty || (decide (ms.Nodup) && ms.contains s.place.moduleId)) (64 + layEnd (layFixed 0x0501)),
   ckState ((smapFind s.fab.groups id).isNone) stAlready (o 0), ckState (32 ≤ s.contextsFree) stContext 0]
  ++ (ms.zipIdx).map (fun m =>
      { order := 10, ok := s.isMember m.1, status := stValue, off := itemOff 0x0501 0 ms.length m.2 0, didx := m.2 })

/-- CGROUP_REG: the group stands with its sequence number at 0 (R321). -/
def startCgroupReg (s : State) (uid part id : Nat) (ms : List Nat) : State :=
  State.finish { s with fab := { s.fab with groups := smapSet s.fab.groups id { members := ms, part := part } } } uid stDone []

/-- CGROUP_REMOVE. -/
def checksCgroupRemove (s : State) (part id : Nat) : List Check :=
  let o := fieldOff 0x0502
  [ckValue (id ≤ 511) (o 0), ckTarget (511 < id || (match smapFind s.fab.groups id with
    | some g => part == 16 || g.part == part
    | none => false)) (o 0)]

/-- CGROUP_REMOVE. -/
def startCgroupRemove (s : State) (uid id : Nat) : State :=
  if s.cgroupIdle id then State.finish { s with fab := s.fab.dropGroup id } uid stDone [] else s

end Sys2Proof.Machine
end

