-- ==== Sys2Proof/Machine/CmdAct.lean ====
section
/-! DEFINITION. Machine/CmdAct.lean: the activation-policy commands (R268, R269, R507). -/

namespace Sys2Proof.Machine

/-- The key of an activation entry. -/
def actKey (part aid : Nat) : Nat := 1024 * part + aid

/-- ACT_REG (R268); the table belongs to the training partition (assumption 22). -/
def checksActReg (s : State) (part : Nat) (p : ActP) : List Check :=
  let o := fieldOff 0x0204
  let fs := onesBelow 64 p.fmask
  let range := fun (b : Nat) => p.bytes == 0 || fs.all (fun f => s.stackRange f b p.bytes)
  let span := (fs.length - 1) * p.hstride + p.bytes * (p.dfr + 1)
  [ckValue (p.aid ≤ 1023) (o 0), ckValue (p.policy ≤ 2) (o 1), ckAlign (p.bytes % 64 == 0) (o 2), ckValue (p.bytes < 2 ^ 37) (o 2),
   ckZero (p.fmask != 0) (o 3), ckTarget (part < 16 && (s.part part).train) (o 3),
   ckTarget (fs.all (fun f => (s.part part).holds f)) (o 3), ckAlign (p.sbase % 64 == 0) (o 4), ckTarget (range p.sbase) (o 4),
   ckState ((smapFind s.acts (actKey part p.aid)).isNone) stAlready (o 0)]
  ++ (if p.policy = 1 then
    [ckAlign (p.lbase % 64 == 0) (o 5), ckTarget (range p.lbase) (o 5)]
    ++ ckHostAddr p.hbase (if p.bytes = 0 then 0 else span) (o 6)
    ++ [ckZero (p.hstride != 0) (o 7), ckAlign (p.hstride % 64 == 0) (o 7), ckValue (p.bytes * (p.dfr + 1) ≤ p.hstride) (o 7),
        ckValue (p.dfr ≤ 1) (o 8), ckValue (s.markNamed p.outMark) (o 9), ckValue (s.markNamed p.inMark) (o 10),
        ckZero (p.tmask != 0) (o 11), ckValue (p.tmask < 65536) (o 11), ckValue (p.osem ≤ 15) (o 12), ckValue (p.isem ≤ 15) (o 13)]
  else
    ([(p.lbase, 5), (p.hbase, 6), (p.hstride, 7), (p.dfr, 8), (p.outMark, 9), (p.inMark, 10), (p.tmask, 11), (p.osem, 12), (p.isem, 13)] : List (Nat × Nat)).map
      (fun x => ckValue (x.1 == 0) (o x.2)))

/-- ACT_REG registers the entry; BYTES 0 registers nothing. -/
def startActReg (s : State) (uid part : Nat) (p : ActP) : State :=
  let s1 := if p.bytes = 0 then s else { s with acts := smapSet s.acts (actKey part p.aid) { p := p } }
  s1.finish uid stDone []

/-- ACT_REMOVE (R507). -/
def checksActRemove (s : State) (part aid : Nat) : List Check :=
  let o := fieldOff 0x0205
  [ckValue (aid ≤ 1023) (o 0), ckTarget ((smapFind s.acts (actKey part aid)).isSome) (o 0)]

/-- ACT_REMOVE acts from the next STEP_BEGIN (R507, R517). -/
def startActRemove (s : State) (uid part aid : Nat) : State :=
  let s1 : State := { s with acts := s.acts.map (fun e => if e.1 == actKey part aid then (e.1, { e.2 with removing := true }) else e) }
  s1.finish uid stDone []

/-- The entries of a partition. -/
def State.actsOf (s : State) (part : Nat) : List ActEntry := (s.acts.filter (fun e => e.1 / 1024 == part)).map (fun e => e.2)

/-- FOOTPRINT: the largest KEEP footprint of a field and the entry counts (R269, R507). -/
def startFootprint (s : State) (uid part : Nat) : State :=
  let es := s.actsOf part
  let foot := fun f => es.foldl (fun a e => a + (if e.p.policy == 0 && e.p.fmask.testBit f then e.p.bytes else 0)) 0
  let top := (List.range 64).foldl (fun a f => max a (foot f)) 0
  s.finish uid stDone [top % 2 ^ 32, top / 2 ^ 32 % 2 ^ 32, es.length, (es.filter (fun e => e.p.policy == 1)).length]

end Sys2Proof.Machine
end

