-- ==== Sys2Proof/Machine/Update.lean ====
section
/-! DEFINITION. Machine/Update.lean: the arithmetic of the exchange and of the update rules (R246, R249, R289 to R298). -/

namespace Sys2Proof.Machine

/-! ### The exchange (R249) -/

/-- One block of the exchange: what is sent and what its widening gives and counts (R51), the new residuals, and what each element counts, the class
of its sum and its two conversions. -/
structure ExBlock where
  scale : Nat
  codes : List Nat
  sent : List (F32 × Ev)
  res : List Nat
  cls : List Cls
  evs : List Ev
  resEvs : List Ev
  deriving DecidableEq, Repr

/-- A block of gradients `g` with residuals `r` quantised into `fmt` (R41, R46, R249; assumption 48). A NaN that no operand held arose in the sum. -/
def exchangeBlock (fmt : Nat) (g r : List F32) : ExBlock :=
  let us := (g.zip r).map (fun p => (uAdd (uv p.1) (uv p.2), [p.1, p.2]))
  let xs := us.map (fun u => u.1.1)
  let cls := us.map (fun u => uvCls u.2 u.1)
  if xs.any (fun x => !f32IsFin x) then
    let nan := xs.any f32IsNan
    { scale := 0xFF, codes := xs.map (fun _ => 0), sent := xs.map (fun _ => (nanF32, {})), res := xs.map (fun _ => 0),
      cls := cls, evs := xs.map (fun _ => { invalid := !nan }), resEvs := [] }
  else
    let q := quantise8 fmt xs
    let res := (xs.zip q.2.2).map (fun p => roundRes ((f32Val p.1).sub p.2))
    { scale := q.1, codes := q.2.1, sent := q.2.2.map widenF32,
      res := res.map Prod.fst, resEvs := res.map Prod.snd, cls := cls,
      evs := xs.map (fun x => (convertElem fmt false none (unscale (f32Val x) q.1)).2) }

/-! ### Moments (R246) -/

/-- A block of moments as stored: scale, codes and the counts of each element. -/
def momentBlock (fmt : Nat) (ms : List F32) : Nat × List Nat × List Ev :=
  let r := storeMoments fmt ms
  let sv := decodeFloat fmtBF16 r.1
  (r.1, r.2.1, if r.2.2 then ms.map (fun _ => { invalid := true })
    else ms.map (fun m => (convertElem fmt false none (f32Val (roundF32 ((f32Val m).div sv)))).2))

/-! ### Element-wise rules (R292 to R294) -/

/-- What the field controller forms once per group and step (R292). -/
structure RuleCtx where
  p : RuleP
  lr : F32
  k : F32
  bc1 : F32
  bc2 : F32
  c1 : F32
  c2 : F32
  deriving DecidableEq, Repr

/-- 1 ÷ (1 − pw(b, t)). -/
def biasCorr (b : F32) (t : Nat) : F32 := fDiv oneF32 (fSub oneF32 (powF32 b t))

/-- The context of an update with scalars `scal`, clip factor `f` and committed count `ucount`. -/
def ruleCtx (p : RuleP) (scal : List F32) (f : F32) (ucount : Nat) : RuleCtx :=
  let t := ucount + 1
  { p := p, lr := fMul p.lr (scal.getD p.lrslot oneF32), k := fMul (scal.getD p.gslot oneF32) f,
    bc1 := if p.biascorr = 1 then biasCorr p.b1 t else oneF32, bc2 := if p.biascorr = 1 then biasCorr p.b2 t else oneF32,
    c1 := fSub oneF32 p.b1, c2 := fSub oneF32 p.b2 }

/-- step(d) of R292. -/
def RuleCtx.step (c : RuleCtx) (w d : UV) : UV := uSub w (uMul (uv c.lr) (uAdd d (uMul (uv c.p.wd) w)))

/-- The momentum form that SGD_M and ORTHO share: mm and d. -/
def RuleCtx.momentum (c : RuleCtx) (g m1 : UV) : UV × UV :=
  let mm := uAdd (uMul (uv c.p.b1) m1) g
  (mm, if c.p.nesterov = 1 then uAdd g (uMul (uv c.p.b1) mm) else mm)

/-- The sign of LION. -/
def lionSign (c : UV) : UV :=
  if f32IsNan c.1 then (nanF32, c.2)
  else if (f32Val c.1).isZero then uv 0
  else if (f32Val c.1).isNeg then uv 0xBF800000 else uv oneF32

/-- One element of rules 0 to 3: the new master, first and second moment; `v` is the factored second moment of rule 3. -/
def RuleCtx.elem (c : RuleCtx) (v : UV) (w gr m1 m2 : F32) : UV × UV × UV :=
  let p := c.p
  let g := uMul (uv gr) (uv c.k)
  let ema := fun (b d m x : UV) => uAdd (uMul b m) (uMul d x)
  match p.rcode with
  | 0 =>
    let r := c.momentum g (uv m1)
    (c.step (uv w) r.2, r.1, uv 0)
  | 1 =>
    let mm := ema (uv p.b1) (uv c.c1) (uv m1) g
    let vv := ema (uv p.b2) (uv c.c2) (uv m2) (uMul g g)
    let mh := if p.biascorr = 1 then uMul mm (uv c.bc1) else mm
    let vh := if p.biascorr = 1 then uMul vv (uv c.bc2) else vv
    (c.step (uv w) (uDiv mh (uAdd (uSqrt vh) (uv p.eps))), mm, vv)
  | 2 =>
    (c.step (uv w) (lionSign (ema (uv p.b1) (uv c.c1) (uv m1) g)), ema (uv p.b2) (uv c.c2) (uv m1) g, uv 0)
  | _ =>
    let mm := ema (uv p.b1) (uv c.c1) (uv m1) g
    (c.step (uv w) (uDiv mm (uSqrt v)), mm, uv 0)

/-- A sum over whole blocks of 128: trees in ascending block order. -/
def blockSum (xs : List F32) : F32 :=
  match (List.range (xs.length / 128)).map (fun b => treeSum ((xs.drop (128 * b)).take 128)) with
  | [] => 0
  | t :: ts => ts.foldl fAdd t

/-- A sum in ascending order. -/
def runSum : List F32 → F32
  | [] => 0
  | x :: xs => xs.foldl fAdd x

/-- `runSum` with the cause of a NaN that arises in it. -/
def uRunSum : List UV → UV
  | [] => uv 0
  | x :: xs => xs.foldl uAdd x

/-- `blockSum` with the cause of a NaN that arises in it. -/
def uBlockSum (xs : List UV) : UV := uRunSum ((List.range (xs.length / 128)).map (fun b => uTreeSum ((xs.drop (128 * b)).take 128)))

/-- A mean of `n`, with the cause of its sum. -/
def uDivNat (x : UV) (n : Nat) : UV := (fDivNat x.1 n, x.2)

/-- The new row and column factors of FACTORED (R294) from the gradients of the segment, row-major, with the causes of NaNs that arise. -/
def factorUpdate (c : RuleCtx) (gs fr fc : List F32) : List UV × List UV :=
  let p := c.p
  let q := gs.map (fun gr => let g := uMul (uv gr) (uv c.k); uAdd (uMul g g) (uv p.eps))
  let rs := (List.range p.rows).map (fun i => uBlockSum ((q.drop (i * p.cols)).take p.cols))
  let cs := (List.range p.cols).map (fun j => uRunSum ((List.range p.rows).map (fun i => q.getD (i * p.cols + j) (uv 0))))
  let new := fun (old : F32) (x : UV) => uAdd (uMul (uv p.b2) (uv old)) (uMul (uv c.c2) x)
  ((fr.zip rs).map (fun x => new x.1 (uDivNat x.2 p.cols)), (fc.zip cs).map (fun x => new x.1 (uDivNat x.2 p.rows)))

/-! ### Matrix rules (R296 to R298) -/

/-- A matrix, row by row. -/
abbrev Mat := List (List F32)

/-- A list cut into rows. -/
def toRows (rows cols : Nat) (xs : List F32) : Mat := (List.range rows).map (fun i => (xs.drop (i * cols)).take cols)

/-- Transpose. -/
def Mat.tr (m : Mat) (cols : Nat) : Mat := (List.range cols).map (fun j => m.map (fun r => r.getD j 0))

/-! #### What the matrix rules count (R158, R159, R162, R295) -/

/-- What a sweep or a borrowed stream counts under HTAG: operand words read as zero, classes of results and conversions to BF16, each with its
SOURCE of R172 and its position in its group of 128. -/
structure Tally where
  flush : Nat := 0
  cls : List (Nat × Nat × Cls) := []
  evs : List (Nat × Nat × Cls × Ev) := []
  deriving DecidableEq, Repr

/-- One tally after another. -/
def Tally.plus (a b : Tally) : Tally := ⟨a.flush + b.flush, a.cls ++ b.cls, a.evs ++ b.evs⟩

/-- Counts a tally under a tag. -/
def Meter.tally (m : Meter) (l : Locus) (t : Tally) : Meter :=
  let at_ := fun (src col : Nat) => { l with source := src, col := col }
  let m1 := (t.cls.filter (fun c => c.2.2 != .none)).foldl (fun m c => m.element (at_ c.1 c.2.1) c.2.2) (m.flushes l.tag t.flush)
  t.evs.foldl (fun m e => m.result (at_ e.1 e.2.1) 1 e.2.2.1 e.2.2.2) m1

/-- Words with the classes of the arithmetic that formed them. -/
abbrev MatC := List (List (F32 × Cls))

/-- The words of a matrix without their classes. -/
def MatC.words (a : MatC) : Mat := a.map (fun r => r.map Prod.fst)

/-- The classes of a matrix, as a tally. -/
def MatC.tally (src : Nat) (a : MatC) : Tally := { cls := a.flatMap (fun r => r.zipIdx.map (fun x => (src, x.2 % 128, x.1.2))) }

/-- Words converted to BF16 with nearest even, as F32 values (R52), each with the class of the arithmetic before. -/
def bf16Words (src : Nat) (ws : List (F32 × Cls)) : List F32 × Tally :=
  let r := ws.map (fun w => convertElem 1 false none (f32Val w.1))
  (r.map (fun x => BitVec.ofNat 32 (x.1 * 65536)), { evs := (r.zip ws).zipIdx.map (fun x => (src, x.2 % 128, x.1.2.2, x.1.1.2)) })

/-- A matrix of words converted to BF16. -/
def matBf16 (src : Nat) (a : MatC) : Mat × Tally :=
  let rs := a.map (bf16Words src)
  (rs.map Prod.fst, rs.foldl (fun t r => t.plus r.2) {})

/-- Words whose classes have been counted. -/
def Mat.counted (a : Mat) : MatC := a.map (fun r => r.map (fun w => (w, .none)))

/-- A matrix of words drained as F32: a subnormal is written as zero and counted (R52). -/
def matF32 (a : Mat) : Mat × Tally :=
  let rs := a.map (fun r => r.map (fun w => convertElem 0 false none (f32Val w)))
  (rs.map (fun r => r.map (fun x => BitVec.ofNat 32 x.1)), { cls := rs.flatMap (fun r => r.zipIdx.map (fun x => (2, x.2 % 128, x.1.2.cls))) })

/-- One output element of a borrowed product: k-blocks ascending, one arrival each, and the read (R98 to R103, R296). -/
def matDot (exact : Bool) (a b : List F32) : F32 × List Cls :=
  let n := ceilDiv a.length 128
  let part := fun (l : List F32) k => ((l.drop (128 * k)).take 128).map (fun x => f32Val (flushF32 x))
  let r := (List.range n).foldl (fun (acc : F32 × F32 × List Cls) k =>
    let x := arriveSum (k != 0) exact (treeResult true false (part a k) (part b k)) acc.1 acc.2.1
    (x.1, x.2.1, acc.2.2 ++ [x.2.2])) (0, 0, [])
  if exact then (fAdd r.1 r.2.1, r.2.2 ++ [clsOf 3 [f32Val r.1, f32Val r.2.1] (f32Val (fAdd r.1 r.2.1))]) else (r.1, r.2.2)

/-- A · B, with B given by its columns; each operand word that is subnormal counts once (R61). -/
def matMul (exact : Bool) (a bt : Mat) : Mat × Tally :=
  let rs := a.map (fun r => bt.map (matDot exact r))
  (rs.map (fun r => r.map Prod.fst),
   { flush := ((a.flatten ++ bt.flatten).filter f32Subnormal).length,
     cls := rs.flatMap (fun r => r.zipIdx.flatMap (fun x => x.1.2.map (fun c => (0, x.2 % 128, c)))) })

/-- A change of every element. -/
def matMap (f : F32 → F32) (a : Mat) : Mat := a.map (fun r => r.map f)

/-- A combination of two matrices element by element. -/
def matZip (f : F32 → F32 → F32) (a b : Mat) : Mat := (a.zip b).map (fun p => (p.1.zip p.2).map (fun q => f q.1 q.2))

/-- A combination of two matrices element by element, with the class of each result (R158). -/
def matComb (f : UV → UV → UV) (a b : Mat) : MatC :=
  (a.zip b).map (fun p => (p.1.zip p.2).map (fun q => let r := f (uv q.1) (uv q.2); (r.1, uvCls [q.1, q.2] r)))

/-- c on the diagonal. -/
def matDiag (n : Nat) (c : F32) : Mat := (List.range n).map (fun i => (List.range n).map (fun j => if i = j then c else 0))

/-- c × u + d × v of R297 and R298, each step rounded. -/
def uComb (c d : F32) (u v : UV) : UV := uAdd (uMul (uv c) u) (uMul (uv d) v)

/-- The iterations of ORTHO on `x` (r × c, r ≤ c). -/
def orthoIter (exact : Bool) (p : RuleP) (c : Nat) : Nat → Mat × Tally → Mat × Tally
  | 0, r => r
  | n + 1, (x, t) =>
    let xx := matMul exact x x
    let a := matBf16 2 (Mat.counted xx.1)
    let aa := matMul exact a.1 (Mat.tr a.1 x.length)
    let b := matBf16 3 (matComb (uComb p.nsc p.nsb) aa.1 a.1)
    let bx := matMul exact b.1 (Mat.tr x c)
    let y := matBf16 3 (matComb (fun u v => uAdd (uMul (uv p.nsa) u) v) x bx.1)
    orthoIter exact p c n (y.1, [xx.2, a.2, aa.2, b.2, bx.2, y.2].foldl Tally.plus t)

/-- ORTHO's x from d, which the second sweep writes into the scratch, and what that sweep counts (R297). -/
def orthoX (p : RuleP) (ds : List F32) : List F32 × Tally :=
  let nrm := fSqrt (blockSum (ds.map (fun d => fMul d d)))
  let inv := fDiv oneF32 (fAdd nrm p.eps)
  bf16Words 6 (ds.map (fun d => uMulCls [d, inv] (uv d) (uv inv)))

/-- ORTHO's direction o from d (rows × cols), before OSCALE, and what its stream counts. -/
def orthoDir (exact : Bool) (p : RuleP) (ds : List F32) : List F32 × Tally :=
  let x := toRows p.rows p.cols (orthoX p ds).1
  let r := if p.cols < p.rows then orthoIter exact p p.rows p.nsiter (Mat.tr x p.cols, {}) else orthoIter exact p p.cols p.nsiter (x, {})
  ((if p.cols < p.rows then Mat.tr r.1 p.rows else r.1).flatten, r.2)

/-- The iterations of invroot4: x and m. -/
def rootIter (exact : Bool) (n : Nat) : Nat → Mat × Mat × Tally → Mat × Mat × Tally
  | 0, r => r
  | k + 1, (x, m, y) =>
    let tc := matComb (fun u v => uSub u (uMul (uv 0x3E800000) v)) (matDiag n 0x3FA00000) m
    let t := MatC.words tc
    let tt := Mat.tr t n
    let q := matMul exact t tt
    let qf := matF32 q.1
    let qq := matMul exact qf.1 (Mat.tr qf.1 n)
    let qqf := matF32 qq.1
    let x1 := matMul exact x tt
    let xf := matF32 x1.1
    let m1 := matMul exact qqf.1 (Mat.tr m n)
    let mf := matF32 m1.1
    rootIter exact n k (xf.1, mf.1, [MatC.tally 3 tc, q.2, qf.2, qq.2, qqf.2, x1.2, xf.2, m1.2, mf.2].foldl Tally.plus y)

/-- invroot4 of R298. -/
def invroot4 (exact : Bool) (p : RuleP) (n : Nat) (l : List F32) : List F32 × Tally :=
  let a := matComb uAdd (toRows n n l) (matDiag n p.eps)
  let c := fSqrt (blockSum ((MatC.words a).flatten.map (fun x => fMul x x)))
  let x := matDiag n (fDiv oneF32 (fSqrt (fSqrt c)))
  let ic := fDiv oneF32 c
  let m : MatC := (MatC.words a).map (fun r => r.map (fun v => uMulCls [v, ic] (uv v) (uv ic)))
  let r := rootIter exact n p.riter (x, MatC.words m, (MatC.tally 3 a).plus (MatC.tally 3 m))
  (r.1.flatten, r.2.2)

/-- KRON's planes and direction, and what its stream counts (R298). -/
structure KronRes where
  lf : List F32
  rf : List F32
  pl : List F32
  pr : List F32
  u : List F32
  tally : Tally
  deriving DecidableEq, Repr

/-- A factor of KRON: round_f32(round_f32(b2 × old) + round_f32(c2 × product)), with the classes of its words. -/
def kronFactor (b2 c2 : F32) (old : List F32) (m : Mat) : List F32 × Tally :=
  let rs := (old.zip m.flatten).map (fun x => (x, uAdd (uMul (uv b2) (uv x.1)) (uMul (uv c2) (uv x.2))))
  (rs.map (fun r => r.2.1), { cls := rs.zipIdx.map (fun r => (3, r.2 % 128, uvCls [r.1.1.1, r.1.1.2] r.1.2)) })

/-- Words that KRON's first sweep writes into the scratch in BF16, and what it counts (R298). -/
def kronScratch (l : List F32) : List F32 × Tally := bf16Words 6 (l.map (fun x => (x, .none)))

/-- KRON's borrowed stream (R298): gradients `g` (scaled by k), momenta `mm`, and the planes of bank BANK. -/
def kronStream (exact : Bool) (c : RuleCtx) (refresh : Bool) (g mm lf rf pl pr : List F32) : KronRes :=
  let p := c.p
  let bf := fun (l : List F32) => bf16Words 3 (l.map (fun x => (x, .none)))
  let gb := toRows p.rows p.cols (kronScratch g).1
  let gbt := Mat.tr gb p.cols
  let ll := matMul exact gb gb
  let rr := matMul exact gbt gbt
  let lf1 := kronFactor p.b2 c.c2 lf ll.1
  let rf1 := kronFactor p.b2 c.c2 rf rr.1
  let pl1 := if refresh then invroot4 exact p p.rows lf1.1 else (pl, {})
  let pr1 := if refresh then invroot4 exact p p.cols rf1.1 else (pr, {})
  let prw := bf pr1.1
  let mpw := matMul exact (toRows p.rows p.cols (kronScratch mm).1) (Mat.tr (toRows p.cols p.cols prw.1) p.cols)
  let mp := matBf16 2 (Mat.counted mpw.1)
  let plw := bf pl1.1
  let u := matMul exact (toRows p.rows p.rows plw.1) (Mat.tr mp.1 p.cols)
  let uf := matF32 u.1
  { lf := lf1.1, rf := rf1.1, pl := pl1.1, pr := pr1.1, u := uf.1.flatten,
    tally := [ll.2, rr.2, lf1.2, rf1.2, pl1.2, pr1.2, prw.2, mpw.2, mp.2, plw.2, u.2, uf.2].foldl Tally.plus {} }

end Sys2Proof.Machine
end

