-- ==== Sys2Proof/Machine/ParamRows.lean ====
section
/-! DEFINITION. Machine/ParamRows.lean: what the update unit and the field controllers do with groups in a step: exchange, landing, norm,
sweeps, borrowed tiles, emission, tiers and the commit (R245 to R262, R277 to R283, R286 to R303). -/

namespace Sys2Proof.Machine

/-! ### Landing (R249 to R251, R279, R299) -/

/-- The ranks whose shard holds blocks. -/
def shardRanks (g : GroupP) : List Nat := (List.range g.r).filter (fun j => g.shardLen j != 0)

/-- Whether a group's reduced gradient has landed: every shard under MIRROR, the own shard under OWNER. -/
def State.isLanded (s : State) (g : Group) : Bool :=
  g.exchanged && (if g.p.cons = 0 then (shardRanks g.p).all (fun j => g.landed.contains j)
    else g.p.shardLen (s.rankOf g.p) == 0 || g.landed.contains (s.rankOf g.p))

/-- The module address of block `b` of a group's gradient area. -/
def gradAddr (g : GroupP) (b : Nat) : Nat := redBase g.field + g.gbase + 512 * b

/-- The address of a park slot (R277, R279). -/
def State.parkAddr (s : State) (g : GroupP) (step : Nat) : Nat :=
  stackBase g.field + g.tier.pkbase + step % 2 * (512 * (s.ownBlocks g).2)

/-- A HOST group's landed gradient is copied into park slot s mod 2, with the step's scalars (R279). -/
def State.park (s : State) (g : Group) : State :=
  let step := s.bcn.step
  let own := s.ownBlocks g.p
  let s1 := s.pokeBytes (s.parkAddr g.p step) (s.peekBytes (gradAddr g.p own.1) (512 * own.2))
  s1.modGroup g.p.field g.p.gid (fun x =>
    { x with parks := x.parks.filter (fun k => k.step != step) ++ [{ step := step, factor := oneF32, scal := (s.fld g.p.field).scal }] })

/-- S_f of a field (R299): its CLIP groups in ascending GID, own shards, blocks ascending. -/
def State.fieldNorm (s : State) (f : Nat) : F32 :=
  let d := s.fld f
  (d.groups.filter (fun x => x.2.p.rule.clip == 1 && x.2.active)).foldl (fun a x =>
    let g := x.2.p
    let j := s.rankOf g
    let k := d.scal.getD g.rule.gslot oneF32
    (List.range (g.shardLen j)).foldl (fun a i =>
      fAdd a (treeSum ((s.operF32s (gradAddr g (g.shardLo j + i)) 128).map (fun w => let x := fMul w k; fMul x x)))) a) 0

/-- How many gradient words the sum of R299 reads as zero, of one group (R61). -/
def State.normFlushes (s : State) (g : GroupP) : Nat :=
  s.subnormals (gradAddr g (g.shardLo (s.rankOf g))) (128 * g.shardLen (s.rankOf g))

/-- What forming S_f counts, under the HTAG of each group (R61, R158; assumption 17). -/
def State.countNorm (s : State) (f : Nat) : State :=
  s.forAll ((s.fld f).groups.filter (fun x => x.2.p.rule.clip == 1 && x.2.active)) (fun s x => s.countReads x.2.p (s.normFlushes x.2.p))

/-- Whether a field has landed the gradient of every CLIP group of its own and has not yet formed S_f in this step (R299). -/
def State.formsNorm (s : State) (f : Nat) : Bool :=
  !(s.fld f).normWait && !(s.fld f).normDone && (s.fld f).groups.all (fun x => x.2.p.rule.clip != 1 || !x.2.active || s.isLanded x.2)

/-- A field forms S_f and awaits the flare sum (R299, R305). -/
def State.formNorm (s : State) (f : Nat) : State := (s.countNorm f).modFld f (fun d => { d with normWait := true, normSum := s.fieldNorm f })

/-- The norm round (R299, R300, R347): each training field forms its S_f as soon as its own CLIP groups have landed; with the last of them the module
contributes the sum of its fields in ascending number. A field, and a module, without CLIP groups contributes +0. -/
def State.checkNorm (s : State) : State :=
  let fs := s.trainFields
  let due := fs.filter (fun f => s.formsNorm f)
  if !s.bcn.begun || (due.isEmpty && !fs.isEmpty) then s
  else
    let s1 := s.forAll due (fun s f => s.formNorm f)
    if fs.all (fun f => (s1.fld f).normWait) then
      s1.contribute 1 4 0 s.bcn.step (leBytes 8 ((fs.map (fun f => (s1.fld f).normSum)).foldl fAdd 0).toNat)
    else s1

/-- What follows when a shard has landed: parking and the norm round. -/
def State.afterLanding (s : State) (f gid : Nat) : State :=
  match s.group f gid with
  | some g =>
    let s1 := if s.isLanded g && g.p.tier.home = 1 && !(g.parks.any (fun k => k.step == s.bcn.step)) then s.park g else s
    s1.checkNorm
  | none => s

/-- Sends data to a member of a replica set over a flow, or hands it on to a member of this module, which its row brings (R249, R250, R258, R409).
`kind` as FabMsg has it, `idx` the rank or shard, `step` the step or version. -/
def State.toMember (s : State) (g : GroupP) (m : Nat × Nat) (kind idx step : Nat) (bytes : List Byte) : State :=
  if m.1 = s.place.moduleId then s.emit (.shard m.1 m.2 g.gid kind idx bytes)
  else
    let set := if kind = 4 then ownerSet m.2 g.gid else replicaSet m.2 g.gid
    s.sendMsg (s.evPart g.field) (if kind = 4 then 0 else s.fab.epoch) set m.1 kind
      { kind := kind, args := [m.2, g.gid, idx, step], data := bytes }

/-- The members of a replica set but this one. -/
def State.otherMembers (s : State) (g : GroupP) : List (Nat × Nat) := g.members.filter (fun m => m != (s.place.moduleId, g.field))

/-- The reduced gradient of shard `j` is in the gradient area; under MIRROR its rank sends it to every other member (R250). -/
def State.shardLanded (s : State) (f gid j : Nat) : State :=
  match s.group f gid with
  | none => s
  | some g =>
    let bytes := memReadBytes s.mem (gradAddr g.p (g.p.shardLo j)) (512 * g.p.shardLen j)
    let s1 := s.modGroup f gid (fun x => { x with landed := if x.landed.contains j then x.landed else x.landed ++ [j] })
    let s2 := if g.p.cons = 0 && s.rankOf g.p = j then
        s1.forAll (s.otherMembers g.p) (fun s m => s.toMember g.p m 3 j s.bcn.step bytes)
      else s1
    s2.afterLanding f gid

/-- A rank's contribution to this member's shard, in the order of arrival (R118, R249). -/
def State.addContrib (s : State) (f gid step rank : Nat) (bytes : List Byte) : State :=
  s.modGroup f gid (fun g =>
    if g.p.r ≤ rank || g.contribs.any (fun c => c.1 == step && c.2.1 == rank) then g
    else { g with contribs := g.contribs ++ [(step, rank, bytes)] })

/-- The words of block `i` of a contribution, widened exactly (R249). -/
def contribWords (fmt : Nat) (bytes : List Byte) (i : Nat) : List (F32 × Ev) :=
  let raw := (bytes.drop (129 * i)).take 129
  (List.range 128).map (fun e => widenScaled fmt (bytesAt raw 0 1) (bytesAt raw (1 + e) 1))

/-- One block of the own shard: the sum of every contribution, in their order, replaces the local sum; what is read and formed is counted (R118,
R158, R249). -/
def State.reduceBlock (s : State) (g : GroupP) (cs : List (List Byte)) (i : Nat) : State :=
  let ws := cs.map (fun c => contribWords g.gxfmt c i)
  let word := fun (x : List (F32 × Ev)) (e : Nat) => (x.getD e (0, {})).1
  let sums := (List.range 128).map (fun e => uRunSum (ws.map (fun x => uv (word x e))))
  let cls := (List.range 128).map (fun e => uvCls (ws.map (fun x => word x e)) (sums.getD e (uv 0)))
  let s1 := (s.countEvs g (ws.flatMap (fun x => x.map Prod.snd))).countResults g 0 cls []
  { s1 with mem := memWriteBytes s1.mem (gradAddr g (g.shardLo (s.rankOf g) + i)) (sums.flatMap (fun u => leBytes 4 u.1.toNat)) }

/-- Once every rank's contribution to the own shard is in, they are summed: in ascending rank under EXACT, else in the order of their arrival (R118,
R119, R249). -/
def State.tryReduce (s : State) (f gid : Nat) : State :=
  match s.group f gid with
  | none => s
  | some g =>
    let j := s.rankOf g.p
    let now := g.contribs.filter (fun c => c.1 == s.bcn.step)
    if !s.bcn.begun || !g.exchanged || g.landed.contains j || g.p.r = 1 || g.p.shardLen j = 0 || now.length < g.p.r then s
    else
      let cs := if s.exactOf f then now.mergeSort (fun a b => a.2.1 ≤ b.2.1) else now
      (s.forAll (List.range (g.p.shardLen j)) (fun s i => s.reduceBlock g.p (cs.map (fun c => c.2.2)) i)).shardLanded f gid j

/-- A contribution goes to the member whose shard it is of (R249). -/
def State.sendContrib (s : State) (g : GroupP) (j : Nat) (bytes : List Byte) : State :=
  let m := g.members.getD j (0, 0)
  let me := s.rankOf g
  if m.1 = s.place.moduleId then (s.addContrib m.2 g.gid s.bcn.step me bytes).tryReduce m.2 g.gid
  else s.toMember g m 2 me s.bcn.step bytes

/-- The exchange of a group at its XMARK (R249): every block is quantised and sent to its shard's rank, the residuals go to the other bank.
With one replica the sum is the one contribution, which lands at once. -/
def State.exchange (s : State) (f gid : Nat) : State :=
  match s.group f gid with
  | none => s
  | some g =>
    if g.exchanged || !g.active then s
    else
      let res := (List.range g.p.blocks).map (fun b => s.readRes (s.planeAddr g.p 4 g.bank (256 * b)) 128)
      let blocks := res.zipIdx.map (fun r => exchangeBlock g.p.gxfmt (s.operF32s (gradAddr g.p r.2) 128) (r.1.map Prod.fst))
      let s1 := s.forAll blocks.zipIdx (fun s x => s.pokeBytes (s.planeAddr g.p 4 (1 - g.bank) (256 * x.2)) (x.1.res.flatMap (leBytes 2)))
      let sf := s1.countReads g.p (s.subnormals (gradAddr g.p 0) (128 * g.p.blocks))
      let s2 := (sf.countEvs g.p (res.flatten.map Prod.snd)).forAll blocks (fun s b => (s.countResults g.p g.p.gxfmt b.cls b.evs).countConv g.p 1 b.resEvs)
      let s3 := s2.modGroup f gid (fun x => { x with exchanged := true, landed := [] })
      if g.p.r = 1 then
        let s4 : State := { s3 with mem := memWriteBytes s3.mem (gradAddr g.p 0) (blocks.flatMap (fun b => b.sent.flatMap (fun w => leBytes 4 w.1.toNat))) }
        (s4.countEvs g.p (blocks.flatMap (fun b => b.sent.map Prod.snd))).shardLanded f gid 0
      else
        (s3.forAll (shardRanks g.p) (fun s j =>
          s.sendContrib g.p j (((blocks.drop (g.p.shardLo j)).take (g.p.shardLen j)).flatMap (fun b =>
            leBytes 1 b.scale ++ b.codes.flatMap (leBytes 1))))).afterLanding f gid

/-- SHARD_REDUCTION_LANDED: contributions to the own shard arrive, as ranks and the blocks they sent; with the last one their sum replaces the
local sum (R249, R250; assumption 134). -/
def doShardReductionLanded (field : Fin 64) (gid : Nat) (data : List (Nat × List Byte)) (s : State) : Host.Outcome State Fault Refusal :=
  if !s.bcn.begun then .next s
  else .next ((s.forAll data (fun s d => s.addContrib field gid s.bcn.step d.1 d.2)).tryReduce field gid)

/-- MIRROR_SHARD_LANDED: another rank's reduced shard is written into the gradient area (R250). -/
def doMirrorShardLanded (field : Fin 64) (gid : Nat) (shard : Nat) (data : List Byte) (s : State) : Host.Outcome State Fault Refusal :=
  match s.group field gid with
  | none => .next s
  | some g =>
    if g.p.cons != 0 || !g.exchanged || g.landed.contains shard || shard = s.rankOf g.p || g.p.r ≤ shard || g.p.shardLen shard = 0 then .next s
    else .next (State.shardLanded
      { s with mem := memWriteBytes s.mem (gradAddr g.p (g.p.shardLo shard)) (padTo (512 * g.p.shardLen shard) data) } field gid shard)

/-! ### The clip factor (R300, R301) -/

/-- f from S and MAXNORM. -/
def clipFactor (v maxnorm : F32) : F32 :=
  let norm := fSqrt v
  if (f32Val norm).le (f32Val maxnorm) then oneF32 else fDiv maxnorm norm

/-- What the island-wide S does in one field; a sum that is not finite sets NFSKIP (R301). -/
def Field.norming (d : Field) (v : F32) (step : Nat) : Field :=
  let ok := f32IsFin v
  let gs : SMap Group := d.groups.map (fun x => if x.2.p.rule.clip = 1 && x.2.active then
      (if ok then
        (let f := clipFactor v x.2.p.rule.maxnorm
         (x.1, { x.2 with factor := f, parks := x.2.parks.map (fun k => if k.step = step then { k with factor := f } else k) }))
       else (x.1, { x.2 with skipped := true, parks := x.2.parks.filter (fun k => k.step != step) }))
    else x)
  let last := (gs.filter (fun x => x.2.p.rule.clip == 1 && x.2.active)).getLast?
  { d with norm := v, normWait := false, normDone := true, groups := gs, nfskip := d.nfskip || !ok,
           clipf := match last with | some x => if ok then x.2.factor else d.clipf | none => d.clipf }

/-- NORM_RESULT: every field forms its clip factor, or its CLIP groups are skipped (R300, R301). -/
def doNormResult (step : Nat) (value : F32) (s : State) : Host.Outcome State Fault Refusal :=
  if !s.bcn.begun || step != s.bcn.step || !s.trainFields.all (fun f => (s.fld f).normWait) then .next s
  else .next ((s.roundOver 4 0 step).forAll s.trainFields (fun s f => s.modFld f (fun d => d.norming value step)))

/-! ### Sweeps (R286, R287, R292 to R298) -/

/-- The sweeps a rule lists. -/
def sweepCount (rcode : Nat) : Nat := match rcode with | 3 => 2 | 4 => 3 | 5 => 2 | _ => 1

/-- Whether a sweep reads or writes tile scratch. -/
def sweepScratch (rcode idx : Nat) : Bool := (rcode == 4 && 1 ≤ idx) || rcode == 5

/-- The park entry whose gradient a HOST group's next update applies: the step's own, or the last step's under LATE (R279, R281). -/
def State.updatePark (s : State) (g : Group) : Option Park :=
  g.parks.find? (fun k => if g.p.tier.late = 1 then k.step != s.bcn.step else k.step == s.bcn.step)

/-- Whether the group has an update to apply in the step in progress. -/
def State.mustUpdate (s : State) (g : Group) : Bool :=
  g.active && (if g.p.tier.late = 1 then (s.updatePark g).isSome else !g.skipped)

/-- Whether the field's tiles are borrowed for a group: its stream stands in them and the FENCE before it has retired everywhere (R287, R295). -/
def State.borrowAt (s : State) (g : Group) : Bool := g.borrow == 1 && !s.fenceLeft (borrowCmd g.p.field g.p.gid)

/-- Whether two groups of a field share a landing area. -/
def sharesLanding (a b : Group) : Bool := a.p.tier.home == 1 && b.p.tier.home == 1 && a.p.pbase == b.p.pbase

/-- Whether a group's landing area is its own for now: no fetch for another group writes into it (R278, R283). -/
def State.landingFree (s : State) (g : Group) : Bool :=
  !((s.fld g.p.field).groups.any (fun x => x.1 != g.p.gid && sharesLanding x.2 g && x.2.fetching))

/-- Whether a group's next sweep is ready (R287). -/
def State.sweepReady (s : State) (g : Group) : Bool :=
  let d := s.fld g.p.field
  s.mustUpdate g && !g.updated &&
    (if g.p.tier.home = 1 then (s.updatePark g).isSome && g.resident && s.landingFree g else s.isLanded g) &&
    (g.p.tier.late == 1 || g.p.rule.clip != 1 || d.normDone) &&
    (!sweepScratch g.p.rule.rcode g.sweep || s.borrowAt g)

/-- UPDATE_SWEEP_START: the update unit starts the ready sweep of the lowest GID (R286, R287). -/
def execUpdateSweepStart (field : Fin 64) (s : State) : Host.Outcome State Fault Refusal :=
  let d := s.fld field
  if d.sweeping.isSome || !s.bcn.begun || !s.isTrainField field then .next s
  else match d.groups.find? (fun g => s.sweepReady g.2) with
    | some g => .next (s.modFld field (fun d => { d with sweeping := some (g.1, g.2.sweep) }))
    | none => .next s

/-- The rule context of a group's update: the step's scalars and factor, or those kept with its park. -/
def State.groupCtx (s : State) (g : Group) : RuleCtx :=
  if g.p.tier.home = 1 then
    (match s.updatePark g with
     | some k => ruleCtx g.p.rule k.scal k.factor g.ucount
     | none => ruleCtx g.p.rule (s.fld g.p.field).scal g.factor g.ucount)
  else ruleCtx g.p.rule (s.fld g.p.field).scal (if g.p.rule.clip = 1 then g.factor else oneF32) g.ucount

/-- The gradient words of own block `i` that the update applies. -/
def State.groupGrad (s : State) (g : Group) (i : Nat) : List F32 :=
  if g.p.tier.home = 1 then
    (match s.updatePark g with
     | some k => s.operF32s (s.parkAddr g.p k.step + 512 * i) 128
     | none => [])
  else s.operF32s (gradAddr g.p ((s.ownBlocks g.p).1 + i)) 128

/-- How many gradient words of own block `i` the update reads as zero (R61). -/
def State.gradFlushes (s : State) (g : Group) (i : Nat) : Nat :=
  if g.p.tier.home = 1 then
    (match s.updatePark g with
     | some k => s.subnormals (s.parkAddr g.p k.step + 512 * i) 128
     | none => 0)
  else s.subnormals (gradAddr g.p ((s.ownBlocks g.p).1 + i)) 128

/-- How many master and gradient words of own block `i` the update reads as zero (R61). -/
def State.blockFlushes (s : State) (g : Group) (i : Nat) : Nat :=
  s.subnormals (s.planeAddr g.p 0 g.bank (512 * i)) 128 + s.gradFlushes g i

/-- The stored moments of own block `i` (plane 1 or 2) of bank BANK, read back. -/
def State.moments (s : State) (g : Group) (kind i : Nat) : List F32 :=
  let fmt := if kind = 1 then g.p.m1fmt else g.p.m2fmt
  let sc := leNat (s.peekBytes (s.planeAddr g.p 3 g.bank (4 * i + 2 * (kind - 1))) 2)
  (s.peekBytes (s.planeAddr g.p kind g.bank (128 * i)) 128).map (fun b => (readMoment fmt sc b.toNat).1)

/-- What reading back the moments of own block `i` counts (R51). -/
def State.momentEvs (s : State) (g : Group) (kind i : Nat) : List Ev :=
  let fmt := if kind = 1 then g.p.m1fmt else g.p.m2fmt
  let sc := leNat (s.peekBytes (s.planeAddr g.p 3 g.bank (4 * i + 2 * (kind - 1))) 2)
  (s.peekBytes (s.planeAddr g.p kind g.bank (128 * i)) 128).map (fun b => (readMoment fmt sc b.toNat).2)

/-- Stores the new masters of own block `i` into the other bank, counting each word. -/
def State.putMasters (s : State) (g : Group) (i : Nat) (ws : List UV) (cls : List Cls) : State :=
  (s.pokeF32s (s.planeAddr g.p 0 (1 - g.bank) (512 * i)) (ws.map Prod.fst)).fieldMeter g.p.field (fun m =>
    m.vector (fieldLocus s.stepNow g.p.htag 0 6) 0 cls [])

/-- Stores new moments of own block `i` into the other bank (R246). -/
def State.putMoments (s : State) (g : Group) (kind i : Nat) (ms : List F32) : State :=
  let fmt := if kind = 1 then g.p.m1fmt else g.p.m2fmt
  let r := momentBlock fmt ms
  let s1 := s.pokeBytes (s.planeAddr g.p kind (1 - g.bank) (128 * i)) (r.2.1.flatMap (leBytes 1))
  let s2 := s1.pokeBytes (s1.planeAddr g.p 3 (1 - g.bank) (4 * i + 2 * (kind - 1))) (leBytes 2 r.1)
  s2.fieldMeter g.p.field (fun m => m.vector (fieldLocus s.stepNow g.p.htag 0 6) fmt (r.2.2.map (fun _ => .none)) r.2.2)

/-- The element sweep of rules 0 to 3 over own block `i`; `vs` the factored second moments. -/
def State.elemBlock (s : State) (g : Group) (c : RuleCtx) (vs : List UV) (i : Nat) : State :=
  let ws := s.operF32s (s.planeAddr g.p 0 g.bank (512 * i)) 128
  let gr := s.groupGrad g i
  let m1 := s.moments g 1 i
  let m2 := if g.p.m2fmt = 0 then [] else s.moments g 2 i
  let rs := (List.range 128).map (fun e =>
    let ins := [ws.getD e 0, gr.getD e 0, m1.getD e 0, m2.getD e 0]
    (ins, c.elem (vs.getD e (uv 0)) (ws.getD e 0) (gr.getD e 0) (m1.getD e 0) (m2.getD e 0)))
  let evs := s.momentEvs g 1 i ++ (if g.p.m2fmt = 0 then [] else s.momentEvs g 2 i)
  let s1 := ((s.countReads g.p (s.blockFlushes g i)).countEvs g.p evs).putMasters g i (rs.map (fun r => r.2.1)) (rs.map (fun r => uvCls r.1 r.2.1))
  let s2 := s1.putMoments g 1 i (rs.map (fun r => r.2.2.1.1))
  if g.p.m2fmt = 0 then s2 else s2.putMoments g 2 i (rs.map (fun r => r.2.2.2.1))

/-- A plane of F32 words of a bank, as arithmetic reads it (R61). -/
def State.planeF32s (s : State) (g : Group) (kind bank n : Nat) : List F32 := s.operF32s (s.planeAddr g.p kind bank 0) n

/-- How many words of a plane are read as zero (R61). -/
def State.planeFlushes (s : State) (g : Group) (kind bank n : Nat) : Nat := s.subnormals (s.planeAddr g.p kind bank 0) n

/-- All gradients of a MIRROR segment. -/
def State.allGrads (s : State) (g : Group) : List F32 := (List.range g.p.blocks).flatMap (fun b => s.groupGrad g b)

/-- How many gradient words of a MIRROR segment the update reads as zero (R61). -/
def State.allGradFlushes (s : State) (g : Group) : Nat := ((List.range g.p.blocks).map (s.gradFlushes g)).sum

/-- What a sweep of a matrix rule counts as it reads the segment's gradients and first moments (R51, R61). -/
def State.countMomenta (s : State) (g : Group) : State :=
  (s.countReads g.p (s.allGradFlushes g)).countEvs g.p ((List.range g.p.blocks).flatMap (s.momentEvs g 1))

/-- mm and d of every element, as ORTHO forms them. -/
def State.allMomenta (s : State) (g : Group) (c : RuleCtx) : List (UV × UV) :=
  ((s.allGrads g).zip ((List.range g.p.blocks).flatMap (fun b => s.moments g 1 b))).map (fun x =>
    c.momentum (uMul (uv x.1) (uv c.k)) (uv x.2))

/-- KRON's mm: R298 names it and states no formula for it, so each is a free value of its operands (assumption 4). -/
def State.kronMomenta (s : State) (g : Group) (c : RuleCtx) : List F32 :=
  ((s.allGrads g).zip ((List.range g.p.blocks).flatMap (fun b => s.moments g 1 b))).map (fun x =>
    unstatedF32 298 [c.p.b1, c.c1, x.2, fMul x.1 c.k])

/-- Writes master words w = step(d) of a matrix rule, block by block. -/
def State.matMasters (s : State) (g : Group) (c : RuleCtx) (ds : List F32) : State :=
  s.forAll (List.range g.p.blocks) (fun s b =>
    let ws := s.operF32s (s.planeAddr g.p 0 g.bank (512 * b)) 128
    let d := (ds.drop (128 * b)).take 128
    let rs := (List.range 128).map (fun e => c.step (uv (ws.getD e 0)) (uv (d.getD e 0)))
    (s.countReads g.p (s.subnormals (s.planeAddr g.p 0 g.bank (512 * b)) 128)).putMasters g b rs ((List.range 128).map (fun e => uvCls [ws.getD e 0, d.getD e 0] (rs.getD e (uv 0)))))

/-- Stores moments of every block. -/
def State.allMoments (s : State) (g : Group) (ms : List F32) : State :=
  s.forAll (List.range g.p.blocks) (fun s b => s.putMoments g 1 b ((ms.drop (128 * b)).take 128))

/-- The scratch range of every tile holds bytes that the spec does not state, from here on. -/
def State.fillScratch (s : State) (g : Group) : State :=
  let n := g.p.rule.scratchBytes (s.fld g.p.field).slots.length
  s.forAll (s.tilesOf g.p.field) (fun s t =>
    { s with mem := memWriteBytes s.mem (storeBase t + g.p.rule.scratch) ((List.range n).map (fun i => Config.freshByte (s.fresh + i))),
             fresh := s.fresh + n })

/-- Writes a factor plane of FACTORED into the other bank, counting each word; `ins` names the words it comes from. -/
def State.putFactor (s : State) (g : Group) (kind : Nat) (ws : List UV) (ins : Nat → List F32) : State :=
  let cls := ws.zipIdx.map (fun w => uvCls (ins w.2) w.1)
  (s.pokeF32s (s.planeAddr g.p kind (1 - g.bank) 0) (ws.map Prod.fst)).fieldMeter g.p.field (fun m =>
    (List.range (ceilDiv ws.length 128)).foldl (fun m b =>
      m.vector (fieldLocus s.stepNow g.p.htag 0 6) 0 ((cls.drop (128 * b)).take 128) []) m)

/-- What a sweep of a matrix rule counts under HTAG (R159). -/
def State.countSweep (s : State) (g : Group) (t : Tally) : State :=
  s.fieldMeter g.p.field (fun m => m.tally (fieldLocus s.stepNow g.p.htag 0 6) t)

/-- What a group's borrowed stream counts under HTAG: its descriptors run on the field's tiles, and the model charges them to queue 0 of the
lowest tile that serves the field (R159, R295; DESIGN CHOICE, assumption 83). -/
def State.countStream (s : State) (g : Group) (t : Tally) : State :=
  match (s.tilesOf g.p.field).head? with
  | none => s
  | some k =>
    (s.modTile k (fun x => { x with meter := x.meter.tally { tile := k, tag := g.p.htag, step := s.stepNow } t })).captured k (s.tile k).meter.status

/-- The work of sweep `idx` of a group. -/
def State.sweepWork (s : State) (g : Group) (idx : Nat) : State :=
  let c := s.groupCtx g
  let f := g.p.field
  let p := g.p.rule
  let other := 1 - g.bank
  let each := fun (s : State) (vs : Nat → List UV) => s.forAll (List.range (s.ownBlocks g.p).2) (fun s i => s.elemBlock g c (vs i) i)
  match p.rcode, idx with
  | 3, 0 =>
    let gs := s.allGrads g
    let fr := s.planeF32s g 5 g.bank p.rows
    let fc := s.planeF32s g 6 g.bank p.cols
    let r := factorUpdate c gs fr fc
    let n := s.allGradFlushes g + s.planeFlushes g 5 g.bank p.rows + s.planeFlushes g 6 g.bank p.cols
    ((s.countReads g.p n).putFactor g 5 r.1 (fun i => fr.getD i 0 :: (gs.drop (i * p.cols)).take p.cols)).putFactor g 6 r.2
      (fun j => fc.getD j 0 :: (List.range p.rows).map (fun i => gs.getD (i * p.cols + j) 0))
  | 3, _ =>
    let fr := s.planeF32s g 5 other p.rows
    let fc := s.planeF32s g 6 other p.cols
    let mr := uDivNat (uRunSum (fr.map uv)) p.rows
    each (s.countReads g.p (s.planeFlushes g 5 other p.rows + s.planeFlushes g 6 other p.cols)) (fun b => (List.range 128).map (fun e =>
      let i := (128 * b + e) / p.cols
      let j := (128 * b + e) % p.cols
      uDiv (uMul (uv (fr.getD i 0)) (uv (fc.getD j 0))) mr))
  | 4, 0 => s.countMomenta g
  | 4, 1 => ((s.countMomenta g).countSweep g (orthoX p ((s.allMomenta g c).map (fun x => x.2.1))).2).fillScratch g
  | 4, _ =>
    let md := s.allMomenta g c
    let o := orthoDir (s.exactOf f) p (md.map (fun x => x.2.1))
    (((s.countMomenta g).countStream g o.2).matMasters g c (o.1.map (fun x => fMul p.oscale x))).allMoments g (md.map (fun x => x.1.1))
  | 5, 0 =>
    let gs := (s.allGrads g).map (fun x => fMul x c.k)
    let mm := s.kronMomenta g c
    (((s.countMomenta g).countSweep g ((kronScratch gs).2.plus (kronScratch mm).2)).allMoments g mm).fillScratch g
  | 5, _ =>
    let sq := p.rows * p.rows
    let sc := p.cols * p.cols
    let r := kronStream (s.exactOf f) c (g.ucount % p.refresh == 0) ((s.allGrads g).map (fun x => fMul x c.k)) (s.kronMomenta g c)
      (s.planeF32s g 5 g.bank sq) (s.planeF32s g 7 g.bank sc) (s.planeF32s g 6 g.bank sq) (s.planeF32s g 8 g.bank sc)
    let s1 := ((s.pokeF32s (s.planeAddr g.p 5 other 0) r.lf).pokeF32s (s.planeAddr g.p 6 other 0) r.pl)
    let s2 := ((s1.pokeF32s (s.planeAddr g.p 7 other 0) r.rf).pokeF32s (s.planeAddr g.p 8 other 0) r.pr)
    let n := s.planeFlushes g 5 g.bank sq + s.planeFlushes g 7 g.bank sc + s.planeFlushes g 6 g.bank sq + s.planeFlushes g 8 g.bank sc
    (s2.countStream g (Tally.plus { flush := n } r.tally)).matMasters g c r.u
  | _, _ => each s (fun _ => [])

/-- A HOST group's other bank is written to the same planes at HADDR (R279). -/
def State.writeBack (s : State) (g : Group) : State :=
  let n := (s.ownBlocks g.p).2
  let s1 := s.forAll [0, 1, 2, 3] (fun s k =>
    s.store (s.fieldClass g.p.field) (g.p.hostOff n k (1 - g.bank)) (s.peekBytes (s.planeAddr g.p k (1 - g.bank) 0) (g.p.planeSize n k)))
  s1.modGroup g.p.field g.p.gid (fun x => { x with wbq := x.wbq ++ [0] })

/-- A write-back of a committed step that failed is made again from the landing area (R276). -/
def State.writeAgain (s : State) (f gid : Nat) : State :=
  match s.group f gid with
  | none => s
  | some g =>
    if !g.wbq.contains 3 || !g.resident then s
    else
      let n := (s.ownBlocks g.p).2
      (s.forAll [0, 1, 2, 3] (fun s k =>
        s.store (s.fieldClass f) (g.p.hostOff n k g.bank) (s.peekBytes (s.planeAddr g.p k g.bank 0) (g.p.planeSize n k)))).modGroup f gid (fun x =>
          { x with wbq := x.wbq.map (fun k => if k = 3 then 1 else k) })

/-- Another rank's shard of masters goes into the bank other than BANK (R409). -/
def State.putShard (s : State) (g : Group) (shard : Nat) (data : List Byte) : State :=
  s.pokeBytes (s.planeAddr g.p 0 (1 - g.bank) (512 * g.p.shardLo shard)) (padTo (512 * g.p.shardLen shard) data)

/-- The masters that waited for the group's own sweep are written (R409). -/
def State.flushMasters (s : State) (f gid : Nat) : State :=
  match s.group f gid with
  | some g => match g.outer with
    | some o => (s.forAll o.early (fun s e => s.putShard g e.1 e.2)).modGroup f gid (fun x => { x with outer := some { o with early := [] } })
    | none => s
  | none => s

/-- UPDATE_SWEEP_DONE: the sweep's results are in the other bank; the last sweep ends the group's update (R286 to R288). -/
def doUpdateSweepDone (field : Fin 64) (s : State) : Host.Outcome State Fault Refusal :=
  match (s.fld field).sweeping with
  | none => .next s
  | some (gid, idx) =>
    match s.group field gid with
    | none => .next (s.modFld field (fun d => { d with sweeping := none }))
    | some g =>
      let last := decide (sweepCount g.p.rule.rcode ≤ idx + 1)
      let s1 := (s.sweepWork g idx).modGroup field gid (fun x =>
        { x with sweep := idx + 1, updated := last, wrote := x.wrote || last || g.p.rule.rcode != 4, both := x.both || (last && g.p.tier.home == 1) })
      let s2 := if last && g.p.tier.home = 1 then s1.writeBack g else s1
      .next ((if last then s2.flushMasters field gid else s2).modFld field (fun d => { d with sweeping := none }))

/-- TILE_BORROW: from BMARK and the landing on, a FENCE of every queue is appended to queue 0 of every tile that serves the field, and behind
it the group's matrix stream. The rules list none of the stream's descriptors, so one entry with its HTAG stands for them in each tile, a FENCE that names no
other queue (R295, R302; assumption 50). -/
def execTileBorrow (field : Fin 64) (gid : Nat) (s : State) : Host.Outcome State Fault Refusal :=
  match s.group field gid with
  | none => .next s
  | some g =>
    let r := g.p.rule
    let first := (s.fld field).groups.find? (fun x => (x.2.p.rule.rcode == 4 || x.2.p.rule.rcode == 5) && x.2.borrow == 0 && s.isLanded x.2
      && s.pastMark x.2.p.rule.bmark && s.mustUpdate x.2)
    if !s.isTrainField field || !(first.any (fun x => x.1 == gid)) then .next s
    else
      let uid := borrowCmd field gid
      let e := fun (i mask : Nat) => ({ uid := uid * 2 ^ 26 + i, cmd := uid, eval := false,
                                        desc := { hdr := { sigEn := false, sigSem := 0, htag := g.p.htag }, kind := .fence mask } } : QEntry)
      let s1 := s.forAll (s.tilesOf field) (fun s t => s.modTq t 0 (fun q => { q with source := q.source ++ [e 0 15, e 1 0] }))
      let s2 := s1.modGroup field gid (fun x => { x with borrow := 1 })
      .next (if r.rcode = 5 && g.ucount % r.refresh = 0 then s2.modFld field (fun d => { d with refresh := true }) else s2)

/-! ### Tiers (R277 to R284) -/

/-- Whether a group's own blocks have been emitted into the slot of the version that awaits publication. -/
def State.hasEmitted (s : State) (g : Group) : Bool := g.emitting && (g.p.cons = 0 || g.got.contains (s.rankOf g.p))

/-- Whether a HOST group's state is wanted for work of the step in progress or of a committed one: a parked gradient that is to be applied now,
its mark SMARK before its update, an emission, or an audit. -/
def State.needsState (s : State) (g : Group) : Bool :=
  (s.bcn.begun && s.mustUpdate g && !g.updated && (s.updatePark g).isSome) || g.pendingVer
    || (g.p.tier.smarkEn == 1 && s.pastMark g.p.tier.smark && !g.updated) || !(s.auditsOf g.p.field g.p.gid).isEmpty

/-- Whether a HOST group waits for its state: for such work, or ahead of it for the parked gradient that the next step applies (R279, R281). -/
def State.wantsFetch (s : State) (g : Group) : Bool :=
  g.p.tier.home == 1 && !g.resident && !g.fetching && (g.parkAwaits s.bcn.step || s.needsState g)

/-- Whether a group's work in a landing area keeps another group's fetch out: its fetch, its sweep, its write-backs, its update, emission and
audit while it is resident, and, against a fetch made only ahead of the next step, the parked gradient that it keeps the area for (R283). -/
def State.keepsLanding (s : State) (x : Group) (ahead : Bool) : Bool :=
  x.fetching || !x.wbq.isEmpty || (s.fld x.p.field).sweeping.any (fun w => w.1 == x.p.gid)
    || (x.resident && ((x.pendingVer && !s.hasEmitted x) || (s.bcn.begun && s.mustUpdate x && !x.updated && (s.updatePark x).isSome)
      || !(s.auditsOf x.p.field x.p.gid).isEmpty || (ahead && x.parkAwaits s.bcn.step)))

/-- STATE_FETCH: bank BANK's planes are asked of the host tier, unless the landing area is in use or another group that shares it goes first: one
that needs its state now before one that asks ahead, then the lower GID (R278, R279, R283; the first is a DESIGN CHOICE, assumption 124). -/
def execStateFetch (field : Fin 64) (gid : Nat) (s : State) : Host.Outcome State Fault Refusal :=
  match s.group field gid with
  | none => .next s
  | some g =>
    let now := s.needsState g
    let busy := (s.fld field).groups.any (fun x => x.1 != gid && sharesLanding x.2 g && (s.keepsLanding x.2 (!now)
      || (s.wantsFetch x.2 && (if s.needsState x.2 == now then x.1 < gid else !now))))
    if !s.wantsFetch g || busy then .next s
    else
      let n := (s.ownBlocks g.p).2
      .next ((s.modGroup field gid (fun x => { x with fetching := true, fetchBank := g.bank })).forAll ([0, 1, 2, 3].filter (fun k => g.p.planeSize n k != 0)) (fun s k =>
        s.tell (s.fieldClass field) (.hostRead (g.p.hostOff n k g.bank) (g.p.planeSize n k))))

/-- The landing area of a group holds the planes of the bank just fetched: the group is resident when that is bank BANK (R278). -/
def Group.fetched (x : Group) : Group :=
  { x with fetching := false, resident := x.resident || x.fetchBank == x.bank, both := x.both || x.fetchBank != x.bank }

/-- FETCH_LANDED: the planes of the fetched bank are in the landing area, and no other group that shares the area is resident (R278). -/
def execFetchLanded (field : Fin 64) (gid : Nat) (data : List Byte) (s : State) : Host.Outcome State Fault Refusal :=
  match s.group field gid with
  | none => .next s
  | some g =>
    if !g.fetching then .next s
    else
      let n := (s.ownBlocks g.p).2
      let kinds := [0, 1, 2, 3]
      let before := fun k => ((kinds.take k).map (g.p.planeSize n)).foldl (· + ·) 0
      let s1 := s.forAll kinds (fun s k =>
        s.pokeBytes (s.planeAddr g.p k g.fetchBank 0) (padTo (g.p.planeSize n k) (data.drop (before k))))
      .next ((s1.modFld field (fun d => { d with groups := d.groups.map (fun x =>
        if x.1 = gid then (x.1, x.2.fetched)
        else if sharesLanding x.2 g then (x.1, { x.2 with resident := false, both := false }) else x) })).runAudits field gid)

/-- Whether a group has nothing left to do before the field reports done, but for the acknowledgement of its write-back (R279, R281, R288). -/
def State.groupDoneHere (s : State) (g : Group) : Bool :=
  !g.active || (g.exchanged && s.isLanded g
    && (g.p.tier.home != 1 || g.skipped || g.parks.any (fun k => k.step == s.bcn.step))
    && (!s.mustUpdate g || g.updated)
    && (g.p.rule.clip != 1 || (s.fld g.p.field).normDone))

/-- Whether a group has nothing left to do before the field reports done (R279). -/
def State.groupDone (s : State) (g : Group) : Bool := s.groupDoneHere g && (!g.active || !g.writeback || g.p.tier.late == 1)

/-- Whether a field may report done for the step: groups, and the rungs of R153. -/
def State.fieldDone (s : State) (f : Nat) : Bool :=
  (s.fld f).groups.all (fun g => s.groupDone g.2) && (s.fld f).sweeping.isNone && (s.fld f).steer.awaited.isEmpty

/-- Whether only write-backs keep the module from reporting done, so that the COMMIT waits for them (R279, R280; assumption 104). -/
def State.waitsForTier (s : State) : Bool :=
  s.bcn.begun && !s.bcn.doneSent && ((List.range 30).drop 1).all (fun n => !markDef s.bcn.table n || s.bcn.reached.testBit n)
    && s.trainFields.all (fun f => (s.fld f).groups.all (fun g => s.groupDoneHere g.2) && (s.fld f).sweeping.isNone
      && (s.fld f).steer.awaited.isEmpty)

/-- TIER_WRITEBACK_ACK: the host tier has the oldest write-back on its way; a COMMIT that waited for it is counted, with the
whole microseconds of its wait (R279, R280, R282). -/
def execTierWritebackAck (field : Fin 64) (gid : Nat) (waitUs : Nat) (s : State) : Host.Outcome State Fault Refusal :=
  match s.group field gid with
  | none => .next s
  | some g =>
    match g.wbq.find? (fun k => k != 3) with
    | none => .next s
    | some k =>
      .next (s.modGroup field gid (fun x =>
        if k != 0 || (waitUs = 0 && !s.waitsForTier) || g.p.tier.late = 1 then { x with wbq := x.wbq.erase k }
        else { x with wbq := x.wbq.erase k, tierWait := true, tstall := satAdd 16 x.tstall 1, waitUs := satAdd 16 x.waitUs waitUs }))

/-! ### Emission and publication (R253, R255, R258, R259, R261) -/

/-- Another rank's shard is written into the slot of the version that awaits publication (R258). -/
def State.takeShard (s : State) (f gid rank : Nat) (data : List Byte) : State :=
  match s.group f gid with
  | none => s
  | some g =>
    let n := blockLen g.p.wcfmt
    (s.forAll (List.range (g.p.shardLen rank)) (fun s k =>
      let b := g.p.shardLo rank + k
      let c := blockParts g.p.wcfmt (padTo n (data.drop (n * k)))
      if s.served (g.p.wcPlace (128 * b)).1 then s.wcWrite g.p g.nextVersion b c.1 c.2 else s)).modGroup f gid (fun x =>
        { x with emitting := true, got := if x.got.contains rank then x.got else x.got ++ [rank] })

/-- The shards of the version that awaits publication which waited under flow control are written once the slot is free (R262). -/
def State.takeWaiting (s : State) (f gid : Nat) : State :=
  match s.group f gid with
  | none => s
  | some g =>
    let due := g.waiting.filter (fun e => e.1 % 2 ^ 32 == g.nextVersion)
    (s.modGroup f gid (fun x => { x with waiting := x.waiting.filter (fun e => e.1 % 2 ^ 32 != g.nextVersion) })).forAll due (fun s e =>
      s.takeShard f gid (e.1 / 2 ^ 32) e.2)

/-- Another rank's shard of a version arrives: written into the slot of that version while it awaits publication and its count is zero, kept under flow
control before that, and dropped when that version has been published here (R258, R261, R262). -/
def State.ownerShard (s : State) (f gid rank v : Nat) (data : List Byte) : State :=
  match s.group f gid with
  | none => s
  | some g =>
    if g.p.cons != 1 || rank = s.rankOf g.p || g.p.r ≤ rank || (g.published && v == g.version) then s
    else if g.takesVersion v then s.takeShard f gid rank data
    else s.modGroup f gid (fun x => { x with waiting := smapSet x.waiting (2 ^ 32 * rank + v) data })

/-- A conversion of masters into working copies is counted: the operands read as zero, and each element (R61, R158, R253). -/
def State.countEmit (s : State) (g : Group) (flushed : Nat) (evs : List (List Ev)) : State :=
  (s.countReads g.p flushed).forAll evs (fun s e => s.countConv g.p g.p.wcfmt e)

/-- WORKING_COPY_EMIT: the own blocks are converted from the master of bank BANK into the free slot; under OWNER they go to every other
member, and the shards that waited are written (R253, R258, R262). -/
def execWorkingCopyEmit (field : Fin 64) (gid : Nat) (s : State) : Host.Outcome State Fault Refusal :=
  match s.group field gid with
  | none => .next s
  | some g =>
    if !g.pendingVer || s.hasEmitted g || !g.slotFree || (g.p.tier.home = 1 && !(g.resident && s.landingFree g)) then .next s
    else
      let own := s.ownBlocks g.p
      let v := g.nextVersion
      let cs := (List.range own.2).map (fun k => (own.1 + k, g.p.convert (s.operF32s (s.planeAddr g.p 0 g.bank (512 * k)) 128)))
      let s0 := s.forAll ((onesBelow 16 g.p.tmask).map (16 * field.val + ·)) (fun s t => if s.served t then s.wcPad g.p v t else s)
      let s1 := s0.forAll cs (fun s c => if s.served (g.p.wcPlace (128 * c.1)).1 then s.wcWrite g.p v c.1 c.2.scales c.2.codes else s)
      let s2 := s1.countEmit g (s.subnormals (s.planeAddr g.p 0 g.bank 0) (128 * own.2)) (cs.map (fun c => c.2.evs))
      let bytes := cs.flatMap (fun c => blockBytes g.p.wcfmt c.2.scales c.2.codes)
      let s3 := if g.p.cons = 1 && own.2 != 0 then
          s2.forAll (s.otherMembers g.p) (fun s m => s.toMember g.p m 4 (s.rankOf g.p) v (leBytes 4 v ++ bytes))
        else s2
      .next ((s3.modGroup field gid (fun x =>
        { x with emitting := true, got := if g.p.cons = 0 then shardRanks g.p else x.got ++ [s.rankOf g.p] })).takeWaiting field gid)

/-- OWNER_SHARD_RECEIVE: another rank's shard, after the 4 bytes of its version, goes into the own slot; while that version does not await the
slot, or the slot's count is not zero, the shard waits under flow control. One that is sent again is written again, unless its version has been
published (R258, R261, R262; assumption 134). -/
def execOwnerShardReceive (field : Fin 64) (gid : Nat) (rank : Nat) (data : List Byte) (s : State) : Host.Outcome State Fault Refusal :=
  .next (s.ownerShard field gid rank (bytesAt data 0 4) (data.drop 4))

/-- VERSION_PUBLISH: the slot holds the whole segment; a version that waited behind version 0 awaits its emission, and audits and removals
that waited follow (R254, R255, R258, R512). -/
def execVersionPublish (field : Fin 64) (gid : Nat) (s : State) : Host.Outcome State Fault Refusal :=
  match s.group field gid with
  | none => .next s
  | some g =>
    if !g.pendingVer || !s.hasEmitted g || !((shardRanks g.p).all (fun j => g.got.contains j)) then .next s
    else
      let s1 := s.modGroup field gid (fun x =>
        { x with version := g.nextVersion, published := true, pendingVer := g.behind, behind := false, emitting := false, got := [], pubOnly := none })
      let s2 := match g.pubOnly with | some uid => (s1.foldDone field).finish uid stDone [] | none => s1
      .next ((s2.runAudits field gid).removeGroup field gid)

/-! ### The step's ends -/

/-- One group at COMMIT (R245, R247, R257, R259, R281, R301, R304). -/
def State.commitGroup (s : State) (f gid : Nat) : State :=
  match s.group f gid with
  | none => s
  | some g =>
    let flip := g.updated
    let add := fun (u a r : Nat) => u + a - r
    let g1 : Group :=
      { g with bank := if flip then 1 - g.bank else g.bank, ucount := if flip then (g.ucount + 1) % 2 ^ 32 else g.ucount,
               pendingVer := g.pendingVer || flip, behind := g.behind || (g.pendingVer && flip), use0 := add g.use0 g.pendAcq.1 g.pendRel.1, use1 := add g.use1 g.pendAcq.2 g.pendRel.2,
               pendAcq := (0, 0), pendRel := (0, 0), exchanged := false, landed := [], sweep := 0, updated := false, skipped := false, wrote := false,
               contribs := g.contribs.filter (fun c => s.bcn.step < c.1), resident := if flip then g.both else g.resident, both := if flip then g.resident else g.both, wbq := g.wbq.map (fun k => if k = 0 then 1 else k),
               borrow := if g.borrow = 1 then 3 else 0, active := true, factor := oneF32, parks := g.parks.filter (fun k => g.p.tier.late == 1 && k.step == s.bcn.step) }
    let held := g1.pendingVer && !g1.emitting && !g1.slotFree
    let g2 : Group := if held then { g1 with transomWait := true, stalls := satAdd 32 g1.stalls 1 } else g1
    let s1 := s.modGroup f gid (fun _ => g2)
    let s2 := if g.exchanged then s1.clearGrad f g else s1
    let s3 := if held then s2.event 4 2 (s.evPart f) f (leBytes 1 gid ++ List.replicate 7 0 ++ leBytes 8 s.stepNow) else s2
    s3.removeGroup f gid

/-- A field's update unit at COMMIT: every group, and the skip of a non-finite norm (R301). -/
def State.commitParam (s : State) (f : Nat) : State :=
  let d := s.fld f
  let s1 := s.forAll (d.groups.map Prod.fst) (fun s gid => s.commitGroup f gid)
  let bad := d.normDone && !f32IsFin d.norm
  let s2 := s1.modFld f (fun x =>
    { x with normWait := false, normDone := false, refresh := false, skips := if bad then satAdd 32 x.skips 1 else x.skips })
  if bad then s2.event 4 3 (s.evPart f) f (leBytes 8 s.stepNow) else s2

/-! ### Activation entries (R271 to R275) -/

/-- The rank of a field in FMASK. -/
def fieldRank (fmask f : Nat) : Nat := (onesBelow f fmask).length

/-- The host slot of step `step` of an entry in a field. -/
def ActP.hostSlotOf (p : ActP) (f step : Nat) : Nat :=
  p.hbase + fieldRank p.fmask f * p.hstride + (if p.dfr = 1 then step % 2 * p.bytes else 0)

/-- Adds 1 to a semaphore of each tile that serves a slot of a mask in a field (R273). -/
def State.signalTiles (s : State) (f tmask sem : Nat) : State :=
  s.forAll ((onesBelow 16 tmask).filter (fun i => s.served (16 * f + i))) (fun s i => s.modTile (16 * f + i) (fun t => t.signal sem))

/-- Changes an entry's progress in a field. -/
def State.modAct (s : State) (k f : Nat) (g : ActProg → ActProg) : State :=
  match smapFind s.acts k with
  | some e => { s with acts := smapSet s.acts k { e with prog := smapModify {} e.prog f g } }
  | none => s

/-- An OFFLOAD entry of the training partition that covers a field, in a running step; a registration acts at once, also past its OUT_MARK (DESIGN
CHOICE, assumption 135). -/
def State.offload (s : State) (part aid f : Nat) : Option (ActEntry × ActProg) :=
  match smapFind s.acts (actKey part aid) with
  | some e => if e.p.policy == 1 && e.p.fmask.testBit f && (s.part part).train && s.bcn.begun then some (e, smapGet {} e.prog f) else none
  | none => none

/-- OFFLOAD_READ_DONE: BYTES from SBASE are on their way to the step's host slot, and OSEM is signalled (R271). -/
def execOffloadReadDone (part : Fin 16) (aid : Nat) (field : Fin 64) (s : State) : Host.Outcome State Fault Refusal :=
  match s.offload part aid field with
  | none => .next s
  | some (e, pr) =>
    if pr.read || !s.pastMark e.p.outMark then .next s
    else
      let bytes := s.peekBytes (stackBase field + e.p.sbase) e.p.bytes
      let s1 : State := s.store (.bulk part field) (ActP.hostSlotOf e.p field s.bcn.step) bytes
      .next ((s1.modAct (actKey part aid) field (fun x => { x with started := true, read := true })).signalTiles field e.p.tmask e.p.osem)

/-- An entry's progress in a field, whether or not a step runs. -/
def State.actProg (s : State) (part aid f : Nat) : ActProg :=
  match smapFind s.acts (actKey part aid) with | some e => smapGet {} e.prog f | none => {}

/-- OFFLOAD_DONE: the HX-2 acknowledges the last write, of an aborted attempt first (R271, R275). -/
def execOffloadDone (part : Fin 16) (aid : Nat) (field : Fin 64) (s : State) : Host.Outcome State Fault Refusal :=
  if (s.actProg part aid field).offLate then .next (s.modAct (actKey part aid) field (fun x => { x with offLate := false }))
  else match s.offload part aid field with
  | some (_, pr) => if pr.read then .next (s.modAct (actKey part aid) field (fun x => { x with off := true })) else .next s
  | none => .next s

/-- The step whose offload a prefetch of the step in progress reads. -/
def prefetchStep (p : ActP) (step : Nat) : Nat := if p.dfr = 1 then step - 1 else step

/-- PREFETCH_START: at the later of IN_MARK and the offload's completion (R272). -/
def execPrefetchStart (part : Fin 16) (aid : Nat) (field : Fin 64) (s : State) : Host.Outcome State Fault Refusal :=
  match s.offload part aid field with
  | none => .next s
  | some (e, pr) =>
    if pr.pfRun || !s.pastMark e.p.inMark || (if e.p.dfr = 1 then e.first else !pr.off) then .next s
    else .next ((s.modAct (actKey part aid) field (fun x => { x with pfRun := true })).tell (.bulk part field)
      (.hostRead (ActP.hostSlotOf e.p field (prefetchStep e.p s.bcn.step)) e.p.bytes))

/-- The bytes of a prefetch are in the stack at LBASE. -/
def State.landAct (s : State) (p : ActP) (f : Nat) (data : List Byte) : State := s.pokeBytes (stackBase f + p.lbase) (padTo p.bytes data)

/-- PREFETCH_LANDED: the bytes are at LBASE and ISEM is signalled; for a read of an aborted attempt no semaphore is (R272, R273, R275). -/
def execPrefetchLanded (part : Fin 16) (aid : Nat) (field : Fin 64) (data : List Byte) (s : State) : Host.Outcome State Fault Refusal :=
  match smapFind s.acts (actKey part aid) with
  | none => .next s
  | some e =>
  if (s.actProg part aid field).pfLate then
    .next ((s.landAct e.p field data).modAct (actKey part aid) field (fun x => { x with pfLate := false }))
  else match s.offload part aid field with
  | none => .next s
  | some (e, pr) =>
    if !pr.pfRun || pr.pfDone then .next s
    else .next (((s.landAct e.p field data).modAct (actKey part aid) field
      (fun x => { x with pfDone := true })).signalTiles field e.p.tmask e.p.isem)

/-- Whether every transfer of the activation table that the step owes is done (R274): marks 1 to 29 all pass before a COMMIT, so an entry that
names one of them owes its transfer whether or not that mark has been delivered yet. One that names mark 30 or 31 owes none, and one that was
registered in mid-step owes its transfer in that step (DESIGN CHOICE, assumptions 122, 135). -/
def State.actsDone (s : State) : Bool :=
  s.acts.all (fun e => e.2.p.policy != 1 || !(s.part (e.1 / 1024)).train || (onesBelow 64 e.2.p.fmask).all (fun f =>
    let pr := smapGet {} e.2.prog f
    (29 < e.2.p.outMark || pr.off) && (!pr.pfRun || pr.pfDone)
      && (29 < e.2.p.inMark || (e.2.p.dfr == 1 && e.2.first) || (e.2.p.dfr == 0 && 29 < e.2.p.outMark) || pr.pfDone)))

/-- Whether every host-tier transfer that an aborted attempt issued has been acknowledged or has landed (R275, R282). -/
def State.transfersSettled (s : State) : Bool :=
  s.acts.all (fun e => e.2.prog.all (fun x => !x.2.offLate && !x.2.pfLate))
    && s.trainFields.all (fun f => (s.fld f).groups.all (fun g => !g.2.wbLate))

end Sys2Proof.Machine
end

