-- ==== Sys2Proof/Machine/Lantern.lean ====
section
/-! DEFINITION. Machine/Lantern.lean: lantern sessions: attestation reports, flows and windows, transfers and the view of partners (R362 to
R386, R389, R551). -/

namespace Sys2Proof

/-- The bytes of a manifest before its CRC (R384). -/
def Xfer.head (x : Xfer) : List Byte :=
  Machine.leBytes 2 (x.typ % 16 + 16 * (x.srcIsland % 16) + 256 * (x.dstIsland % 16)) ++ Machine.leBytes 2 x.fmt ++ Machine.leBytes 4 x.round
    ++ Machine.leBytes 4 x.base ++ Machine.leBytes 4 x.item ++ Machine.leBytes 8 x.payload.length ++ Machine.leBytes 2 (x.srcModule % 1024)
    ++ Machine.leBytes 2 x.attempt ++ List.replicate 20 0

/-- The module in the destination island: the KEEPER for a STATUS, else the module of the key (R404). -/
def Xfer.dstModule (x : Xfer) (fed : Option FedP) : Nat :=
  if x.typ = 2 then (match fed with
    | some r => ((r.members.find? (fun m => m.island == x.dstIsland)).map (fun m => m.keeper)).getD 0
    | none => 0)
  else x.item % 1024

end Sys2Proof

namespace Sys2Proof.Machine

/-! ### Attestation reports (R551) -/

/-- A report of this module. -/
def State.report (s : State) (purpose : Nat) (nonce context : List Byte) : List Byte :=
  let c := s.sec
  let body := leBytes 2 1 ++ leBytes 2 purpose ++ leBytes 4 (s.regAt 16 0) ++ leBytes 8 s.fuses.serial ++ leBytes 4 c.imageSvn
    ++ leBytes 4 c.count ++ List.replicate 8 0 ++ padTo 48 c.fwDigest ++ padTo 48 s.fuses.ownerHash ++ padTo 48 c.chain ++ padTo 64 nonce
    ++ padTo 64 context
  body ++ padTo 96 (Config.identitySign s.fuses.secret (Config.sha384 body) c.signed) ++ List.replicate 48 0

/-- A signature has been made. -/
def State.signed (s : State) : State := { s with sec := { s.sec with signed := s.sec.signed + 1 } }

/-! ### Sessions (R367 to R371) -/

/-- The partition that owns a lantern port, or 16 (R446). -/
def State.lportOwner (s : State) (p : Nat) : Nat :=
  ((List.range 16).find? (fun q => (s.part q).state != 0 && (s.part q).lports.testBit p)).getD 16

/-- A lantern event about a port. -/
def State.lntEvent (s : State) (code p : Nat) (payload : List Byte) : State := s.event 7 code (s.lportOwner p) p payload

/-- A HELLO with a fresh nonce and a fresh random value (R367). -/
def State.newHello (s : State) (p : Nat) : HelloF :=
  { island := s.place.islandId, module := s.place.moduleId, port := p, fedTag := s.blob.fedTag,
    nonce := (List.range 32).map (fun i => Config.freshByte (s.fresh + i)),
    rand := leNat [Config.freshByte (s.fresh + 32), Config.freshByte (s.fresh + 33)], flows := (s.lport p).pend.flows }

/-- The port sends a new HELLO and is in a state (R364, R367). -/
def State.sendHello (s : State) (p state : Nat) : State :=
  let h := s.newHello p
  (State.modLport { s with fresh := s.fresh + 34 } p (fun x => { x with state := state, own := some h, peer := none })).emit (.lntHello p h)

/-- SESSION (R367). -/
def sessionOf (a b : HelloF) : Nat := if a.island < b.island then a.rand % 65536 * 65536 + b.rand % 65536 else b.rand % 65536 * 65536 + a.rand % 65536

/-- One end's triple as R551 packs it. -/
def tripleWord (h : HelloF) : Nat := h.island % 16 + 16 * (h.module % 1024) + 16384 * (h.port % 4)

/-- NONCE and CONTEXT of a lantern report: the lower island id first (R551). -/
def lntContext (a b : HelloF) (session : Nat) : List Byte × List Byte :=
  let lo := if a.island < b.island then a else b
  let hi := if a.island < b.island then b else a
  (padTo 32 lo.nonce ++ padTo 32 hi.nonce,
   leBytes 4 (tripleWord lo) ++ leBytes 4 (tripleWord hi) ++ leBytes 4 a.fedTag ++ leBytes 4 session)

/-- The port refuses its peer: REFUSED, and an event with the triple and the first failing condition, numbered in the order of R369 from 0,
then 6 timeout and 7 no context. -/
def State.refuse (s : State) (p : Nat) (peer : HelloF) (cond : Nat) : State :=
  (s.modLport p (fun x => { x with state := 6, refuseSeen := true })).lntEvent 1 p
    (leBytes 1 peer.island ++ [0] ++ leBytes 2 peer.module ++ leBytes 1 peer.port ++ leBytes 1 cond)

/-- The conditions of R369 in order. -/
def State.accepts (s : State) (p : Nat) (own peer : HelloF) (session : Nat) (report : List Byte) : List Bool :=
  let key := Config.peerKey report
  let ctx := lntContext own peer session
  let body := report.take 304
  [own.fedTag == peer.fedTag, own.island != peer.island,
   s.outer.routes.any (fun r => r.island == peer.island && (r.gws.take r.ngw).contains (s.place.moduleId, p)),
   report.length == 448 && bytesAt body 0 4 == 0x10001 && decide ((body.drop 176).take 64 = ctx.1)
     && decide ((body.drop 240).take 64 = padTo 64 ctx.2) && Config.ecdsaVerify key ((report.drop 304).take 96) (Config.sha384 body),
   s.blob.trust.contains (Config.sha384 key), s.blob.meas.contains ((body.drop 32).take 48)]

/-! ### The view of partners (R380) -/

/-- Whether a partner island is DARK here: no session to it stands at any of its gateways. -/
def OuterIsland.isDark (o : OuterIsland) (i : Nat) : Bool :=
  match o.routes.find? (fun r => r.island == i) with
  | some r => !(r.gws.take r.ngw).any (fun g => o.gwUp.contains (i, g.1, g.2))
  | none => false

/-- The bits of LNT_PARTNER follow the sessions; each change is one event (R380, R392). -/
def State.refreshDark (s : State) : State :=
  let o := s.outer
  let old := fun i => o.dark.testBit i
  let new := (List.range 16).filter o.isDark
  let named := (o.routes.map (fun r => r.island))
  let gone := new.filter (fun i => !old i)
  let back := (List.range 16).filter (fun i => old i && !o.isDark i && named.contains i)
  let s1 := s.modOuter (fun o => { o with dark := new.foldl (fun a i => a + 2 ^ i) 0, returned := o.returned.filter (fun i => !gone.contains i) ++ back,
                                          asked := o.asked.filter (fun e => !gone.contains e.island) })
  let t := (s.trainPart).getD 16
  (s1.forAll gone (fun s i => s.event 8 1 t i (leBytes 1 i))).forAll back (fun s i => s.event 8 2 t i (leBytes 1 i))

/-- What a gateway tells the island over the flare path (key OUTER; assumption 28): toward the keeper, which broadcasts it. -/
def State.outerSay (s : State) (index : Nat) (payload : List Byte) : State :=
  let f : FlareFrame := { op := 6, key := 10, index := index, step := s.bcn.step, attempt := s.bcn.attempt, payload := padTo (alignUp 8 payload.length) payload }
  if s.isKeeper then s.broadcast ({ f with op := 7 })
  else match s.parent with | some p => s.flareSend p f | none => s

/-- The flood of a gateway's view of one partner (R380; assumption 28). -/
def State.partnerFrame (s : State) (island module port : Nat) (dark : Bool) : FlareFrame :=
  { op := 8, key := 10, index := 3, step := s.bcn.step, attempt := s.bcn.attempt,
    payload := padTo 8 (leBytes 1 island ++ leBytes 1 (b2n dark) ++ leBytes 2 module ++ leBytes 1 port) }

/-- A session of this gateway enters UP, or none has been UP for LOSTTOUCH: the view changes and is flooded (R380). -/
def State.gateway (s : State) (p island : Nat) (up : Bool) : State :=
  let g := (island, s.place.moduleId, p)
  let s1 := s.modOuter (fun o => { o with gwUp := if up then (if o.gwUp.contains g then o.gwUp else o.gwUp ++ [g]) else o.gwUp.filter (fun x => x != g) })
  (s1.refreshDark).floodFrom none (s1.partnerFrame island s.place.moduleId p (!up))

/-! ### Cut transfers (R379, R383, R417) -/

/-- The group that a key names here. -/
def keyField (item : Nat) : Nat := bitsAt item 10 6
/-- GID of a key. -/
def keyGid (item : Nat) : Nat := bitsAt item 16 8

/-- Changes the outer registration of a group. -/
def State.modOut (s : State) (f gid : Nat) (g : OuterGroup → OuterGroup) : State :=
  s.modGroup f gid (fun x => { x with outer := x.outer.map g })

/-- A transfer of this module completes with PARTNER_DARK: an UP item goes again at the next OUTER_APPLY, a fetch restarts (R413, R417). -/
def State.transferDark (s : State) (x : Xfer) : State :=
  if x.typ = 0 then s.modOut (keyField x.item) (keyGid x.item) (fun o => { o with again := o.again ++ [x] })
  else if x.typ = 3 && s.outer.state = 1 && s.outer.source = some x.dstIsland then s.modOuter (fun o => { o with refetch := true })
  else s

/-- A transfer is cut at a gateway: its source learns of it. -/
def State.cutTransfer (s : State) (x : Xfer) : State :=
  if x.srcIsland = s.place.islandId && x.srcModule = s.place.moduleId then s.transferDark x else s.emit (.cut x.srcIsland x.srcModule x)

/-- Ends a session (R379, R389): windows and undelivered packets go, contexts return, and every transfer on it is cut. The partner is not DARK
before LOSTTOUCH has passed without a session (R380). -/
def State.dropSession (s : State) (p : Nat) : State :=
  let x := s.lport p
  if !x.live then s
  else
    let mine := s.outer.sent.filter (fun t => t.port == p)
    let s1 := (s.modLport p (fun x => { x with live := false, flowCount := 0, flows := [], session := 0 })).modOuter (fun o =>
      { o with sent := o.sent.filter (fun t => t.port != p) })
    s1.forAll mine (fun s t => s.cutTransfer t.x)

/-- The port enters DARK: no session number is current any more, so that a frame of the old one is stale (R379, R389, R390). -/
def State.goDark (s : State) (p : Nat) : State :=
  ((s.dropSession p).modLport p (fun x =>
    { x with state := if x.state = 0 then 0 else 5, darkSeen := true, own := none, peer := none, session := 0 })).lntEvent 3 p []

/-! ### Flows (R372 to R375) -/


/-- Changes a flow of a port. -/
def LntPort.modFlow (x : LntPort) (f : Nat) (g : LntFlow → LntFlow) : LntPort := { x with flows := smapModify {} x.flows f g }

/-- The slots of a window (R372). -/
def windowSlots : Nat := 305176

/-- The module address of a slot of a port's window area in the stack of WFIELD: the send window first, then the receive window (R372; the
order of the two is assumption 66). -/
def LntPort.slotAddr (x : LntPort) (slot : Nat) : Nat := stackBase x.set.wfield + x.set.wbase + 8192 * slot

/-- The lowest slot that none of the listed ones is (assumption 66). -/
def lowestFree (used : List Nat) : Nat := ((List.range (used.length + 1)).find? (fun i => !used.contains i)).getD 0

/-- The lowest free slot of the send window. -/
def LntPort.freeSend (x : LntPort) : Nat := lowestFree (x.flows.flatMap (fun f => f.2.window.map (fun k => k.slot)))

/-- The lowest free slot of the receive window. -/
def LntPort.freeRecv (x : LntPort) : Nat := lowestFree (x.flows.flatMap (fun f => f.2.early.map (fun k => k.2.slot)))

/-- The DATA frame of a packet in the send window, read from its slot. -/
def State.dataOf (s : State) (p f : Nat) (k : LntPkt) : LntData :=
  let x := s.lport p
  { session := x.session, flow := f, man := k.man, pseq := k.pseq, payload := s.peekBytes (x.slotAddr k.slot) k.len }

/-- Waiting packets enter the send window and go out while a slot is free and fewer than 65,536 packets of their flow are unacknowledged
(R372, R373); `fuel` bounds their number. -/
def State.lntPump (s : State) (p f : Nat) : Nat → State
  | 0 => s
  | fuel + 1 =>
    let x := s.lport p
    let fl := smapGet {} x.flows f
    match fl.waiting with
    | [] => s
    | k :: rest =>
      if x.state != 4 || windowSlots ≤ x.winUse || 65536 ≤ fl.window.length then s
      else
        let w : LntPkt := { k with payload := [], slot := x.freeSend, len := k.payload.length }
        let s1 := (s.pokeBytes (x.slotAddr w.slot) k.payload).modLport p (fun y => y.modFlow f (fun g => { g with waiting := rest, window := g.window ++ [w] }))
        State.lntPump (s1.emit (.lntData p (s1.dataOf p f w))) p f fuel

/-- Every flow of a port sends what waits. -/
def State.lntPumpAll (s : State) (p : Nat) : State :=
  s.forAll (s.lport p).flows (fun s f => s.lntPump p f.1 f.2.waiting.length)

/-- The manifest packet's payload (R384, R385). -/
def manifestOf (x : Xfer) : List Byte := Xfer.head x ++ leBytes 8 (crc64 (x.payload ++ Xfer.head x)) ++ List.replicate 8 0

/-- Cuts a payload into packets of up to 8,192 bytes, and ends it with the manifest. -/
def packetsOf (x : Xfer) : List (Bool × List Byte) :=
  (List.range (ceilDiv x.payload.length 8192)).map (fun i => (false, (x.payload.drop (8192 * i)).take 8192)) ++ [(true, manifestOf x)]

/-- A transfer is queued on a port of this module, on the flow of R383. -/
def State.lntSend (s : State) (p : Nat) (x : Xfer) : State :=
  let f := (x.srcModule + Xfer.dstModule x s.outer.fed) % max 1 (s.lport p).flowCount
  let first := (smapGet {} (s.lport p).flows f).nextTx
  let ks := (packetsOf x).zipIdx.map (fun q => ({ pseq := (first + q.2) % 2 ^ 32, man := q.1.1, payload := q.1.2 } : LntPkt))
  let s1 := s.modLport p (fun y => y.modFlow f (fun g => { g with nextTx := (first + ks.length) % 2 ^ 32, waiting := g.waiting ++ ks }))
  let s2 := s1.modOuter (fun o => { o with sent := o.sent ++ [{ x := x, port := p, flow := f, lastPseq := (first + ks.length - 1) % 2 ^ 32 }] })
  s2.lntPump p f ((smapGet {} (s.lport p).flows f).waiting.length + ks.length)

/-- Whether a lantern port carries the outer loop of the training job: its partition owns it (R388). -/
def State.ownsLport (s : State) (p : Nat) : Bool := s.trainPart == some (s.lportOwner p)

/-- The gateways to a partner that are UP, in table order (R383). -/
def State.gatesUp (s : State) (island : Nat) : List (Nat × Nat) :=
  match s.outer.routes.find? (fun r => r.island == island) with
  | some r => (r.gws.take r.ngw).filter (fun g =>
      if g.1 = s.place.moduleId then (s.lport g.2).state == 4 && (s.lport g.2).peerIsland == island && s.ownsLport g.2
      else s.outer.gwUp.contains (island, g.1, g.2))
  | none => []

/-- A transfer as a message between modules (R383). -/
def relayMsg (x : Xfer) : FabMsg := { kind := 6, args := [], data := Xfer.head x ++ x.payload }

/-- Sends a transfer to its partner island (R383): over the gateway numbered by the own module id, or PARTNER_DARK when none is UP. -/
def State.sendXfer (s : State) (x : Xfer) : State :=
  let gs := s.gatesUp x.dstIsland
  match gs[s.place.moduleId % max 1 gs.length]? with
  | none => s.cutTransfer x
  | some g => if g.1 = s.place.moduleId then s.lntSend g.2 x
    else s.sendMsg (s.trainPart.getD 16) 0 gatewaySet g.1 0 (relayMsg x)

/-- A transfer that reached this gateway for another island goes onto a lantern port of its own (R383): the one that its source numbered, where
both see the same gateways UP, else its first one that is UP; with none it is cut. -/
def State.relayXfer (s : State) (x : Xfer) : State :=
  let gs := s.gatesUp x.dstIsland
  let here := fun (g : Nat × Nat) => g.1 == s.place.moduleId
  match ((gs[x.srcModule % max 1 gs.length]?).filter here).or (gs.find? here) with
  | some g => s.lntSend g.2 x
  | none => s.cutTransfer x

/-! ### Receiving (R373, R374, R384 to R386) -/

/-- A cumulative and selective acknowledgement of a flow (R365, R374). -/
def State.lntAckOut (s : State) (p f : Nat) : State :=
  let x := s.lport p
  let fl := smapGet {} x.flows f
  let sack := (List.range 64).foldl (fun a i => a + (if (smapFind fl.early ((fl.cum + 1 + i) % 2 ^ 32)).isSome then 2 ^ i else 0)) 0
  (s.modLport p (fun y => y.modFlow f (fun g => { g with fresh := 0 }))).emit (.lntAck p x.session f ((fl.cum + 2 ^ 32 - 1) % 2 ^ 32) sack)

/-- The transfer of a manifest and the payload before it. -/
def xferOf (m body : List Byte) : Xfer :=
  { typ := bitsAt (bytesAt m 0 2) 0 4, srcIsland := bitsAt (bytesAt m 0 2) 4 4, dstIsland := bitsAt (bytesAt m 0 2) 8 4, fmt := bytesAt m 2 2,
    round := bytesAt m 4 4, base := bytesAt m 8 4, item := bytesAt m 12 4, srcModule := bytesAt m 24 2 % 1024, attempt := bytesAt m 26 2,
    payload := body }

/-- A transfer of an outer loop is discarded with an event (R404). -/
def State.discardXfer (s : State) (x : Xfer) : State :=
  s.event 9 2 (s.trainPart.getD 16) (keyField x.item) (leBytes 1 x.typ ++ [0, 0, 0] ++ leBytes 4 x.item)

/-- A transfer goes on from the receiving gateway to its destination module: over a flow, or to this module, where its row delivers it (R383). -/
def State.handOn (s : State) (x : Xfer) : State :=
  let m := Xfer.dstModule x s.outer.fed
  if m = s.place.moduleId then s.emit (.relay m none x) else s.sendMsg (s.trainPart.getD 16) 0 deliverSet m 0 (relayMsg x)

/-- A manifest is delivered (R386): the whole transfer goes on to its destination module, or is discarded with a manifest reject. A TYPE
from 5 on is discarded (R404), and a port that a partition without training owns carries no outer loop: what comes on it goes no further (R388,
R446; assumption 131). -/
def State.manifestIn (s : State) (p f : Nat) (m body : List Byte) : State :=
  if bytesAt m 48 8 != crc64 (body ++ m.take 48) || bytesAt m 16 8 != body.length then
    (s.modLport p (fun x => { x with crc64Seen := true })).emit (.lntReject p (s.lport p).session f)
  else
    let x := xferOf m body
    if !s.ownsLport p then s
    else if 5 ≤ x.typ then s.discardXfer x else s.handOn x

/-- The packet that is next in its flow is delivered, then the early ones that follow it. -/
def State.lntDeliver (s : State) (p f : Nat) : Nat → LntData → State
  | 0, _ => s
  | fuel + 1, d =>
    let body := (smapGet {} (s.lport p).flows f).body
    let s1 := s.modLport p (fun y => y.modFlow f (fun g =>
      { g with cum := (d.pseq + 1) % 2 ^ 32, early := smapErase g.early d.pseq, body := if d.man then [] else body ++ d.payload }))
    let s2 := if d.man then s1.manifestIn p f d.payload body else s1
    let q := (d.pseq + 1) % 2 ^ 32
    match smapFind (smapGet {} (s2.lport p).flows f).early q with
    | some e => State.lntDeliver s2 p f fuel
        { session := d.session, flow := f, man := e.man, pseq := q, payload := s2.peekBytes ((s2.lport p).slotAddr (windowSlots + e.slot)) e.len }
    | none => s2

/-- The packets of a receive window in use. -/
def LntPort.heldIn (x : LntPort) : Nat := x.flows.foldl (fun a f => a + f.2.early.length) 0

/-- A DATA packet of the session (R373, R374): delivered, held, or a duplicate that is acknowledged again. -/
def State.lntTake (s : State) (p : Nat) (d : LntData) : State :=
  let f := d.flow
  let fl := smapGet {} (s.lport p).flows f
  let gap := (d.pseq + 2 ^ 32 - fl.cum) % 2 ^ 32
  if 2 ^ 31 ≤ gap || (smapFind fl.early d.pseq).isSome then s.lntAckOut p f
  else if gap != 0 && windowSlots ≤ (s.lport p).heldIn then s
  else
    let s1 := if gap = 0 then s.lntDeliver p f (fl.early.length + 1) d
      else
        let x := s.lport p
        let h : LntHeld := { man := d.man, slot := x.freeRecv, len := d.payload.length }
        (s.pokeBytes (x.slotAddr (windowSlots + h.slot)) d.payload).modLport p (fun y => y.modFlow f (fun g => { g with early := smapSet g.early d.pseq h }))
    let s2 := s1.modLport p (fun y => y.modFlow f (fun g => { g with fresh := g.fresh + 1 }))
    if 32 ≤ fl.fresh + 1 then s2.lntAckOut p f else s2

/-! ### Acknowledgements at the sender (R375) -/

/-- Whether an ACK with CUM and SACK reports a PSEQ as received. -/
def ackedBy (cum sack pseq : Nat) : Bool :=
  let d := (pseq + 2 ^ 32 - (cum + 1) % 2 ^ 32) % 2 ^ 32
  decide (2 ^ 31 ≤ d) || (0 < d && d ≤ 64 && sack.testBit (d - 1))

/-- How many higher packets an ACK reports. -/
def higherThan (cum sack pseq : Nat) : Nat :=
  let d := (pseq + 2 ^ 32 - (cum + 1) % 2 ^ 32) % 2 ^ 32
  ((List.range 64).filter (fun i => sack.testBit i && decide (d < i + 1))).length

/-- A packet goes again. -/
def State.lntResend (s : State) (p f : Nat) (k : LntPkt) : State :=
  (s.modLport p (fun y => { y with retx := satAdd 32 y.retx 1 })).emit (.lntData p (s.dataOf p f k))

/-- An ACK: acknowledged packets leave the window, missing ones with three higher ones reported go again once per RTO, and waiting packets
follow (R372, R373, R375). -/
def State.lntAcked (s : State) (p f cum sack : Nat) : State :=
  let fl := smapGet {} (s.lport p).flows f
  let keep := fl.window.filter (fun k => !ackedBy cum sack k.pseq)
  let fast := keep.filter (fun k => !k.fast && 3 ≤ higherThan cum sack k.pseq)
  let s1 := s.modLport p (fun y => y.modFlow f (fun g =>
    { g with window := keep.map (fun k => if fast.contains k then { k with fast := true } else k) }))
  let s2 := s1.modOuter (fun o => { o with sent := o.sent.filter (fun t => !(t.port == p && t.flow == f && ackedBy cum sack t.lastPseq)) })
  (s2.forAll fast (fun s k => s.lntResend p f k)).lntPump p f fl.waiting.length

/-- A transfer is rejected by its receiver (R386): its source sends it again, or completes it with HW_FAULT at ATTEMPT 2 and posts a lantern
event. -/
def State.rejectXfer (s : State) (x : Xfer) : State :=
  if x.srcIsland = s.place.islandId && x.srcModule = s.place.moduleId then
    (if 2 ≤ x.attempt then (s.event 7 4 (s.trainPart.getD 16) (keyField x.item) []).emit (.xferFailed x stHw) else s.sendXfer { x with attempt := x.attempt + 1 })
  else s.emit (.rejected x.srcModule x)

end Sys2Proof.Machine
end

