-- ==== Sys2Proof/Machine/LntFrame.lean ====
section
/-! DEFINITION. Machine/LntFrame.lean: the layout of a lantern frame header and the form that a receiver asks of it (R365, R366). -/

namespace Sys2Proof

/-- The fields of a lantern frame header (R365). -/
structure LntHdr where
  typ : Nat
  flow : Nat
  man : Bool
  len : Nat
  session : Nat
  pseq : Nat
  sack : Nat
  t2 : Nat
  t3 : Nat
  deriving DecidableEq, Repr

/-- Whether a LEN is legal (R365). -/
def lntLenLegal (len : Nat) : Bool := decide (len ≤ 8192) && len % 64 == 0

/-- Whether every field fits its place, TYPE is one of the eight and LEN is legal. -/
def LntHdr.wf (h : LntHdr) : Bool :=
  decide (h.typ ≤ 7) && decide (h.flow < 64) && lntLenLegal h.len && decide (h.session < 2 ^ 32) && decide (h.pseq < 2 ^ 32)
    && decide (h.sack < 2 ^ 64) && decide (h.t2 < 2 ^ 64) && decide (h.t3 < 2 ^ 64)

/-- The LEN of a DATA frame is legal (R365). -/
def LntData.legal (d : LntData) : Bool := lntLenLegal d.payload.length

end Sys2Proof

namespace Sys2Proof.Machine

/-- The 60 header bytes (R365). SACK and T1 share their place. -/
def lntHeader (h : LntHdr) : List Byte :=
  leBytes 2 (packBits [(0, h.typ), (4, h.flow), (10, b2n h.man)]) ++ leBytes 2 h.len ++ leBytes 4 h.session ++ leBytes 4 h.pseq ++ leBytes 8 h.sack
    ++ leBytes 8 h.t2 ++ leBytes 8 h.t3 ++ List.replicate 24 0

/-- The header that 60 bytes spell, or none where R366 discards the frame for its TYPE, its LEN or a reserved bit. -/
def lntHeaderOf (bs : List Byte) : Option LntHdr :=
  let w := bytesAt bs 0 2
  let len := bytesAt bs 2 2
  if bs.length = 60 && w % 16 ≤ 7 && w / 2 ^ 11 == 0 && len / 2 ^ 14 == 0 && lntLenLegal len && (bs.drop 36).all (fun b => b == 0) then
    some { typ := w % 16, flow := w / 2 ^ 4 % 64, man := w.testBit 10, len := len, session := bytesAt bs 4 4, pseq := bytesAt bs 8 4,
           sack := bytesAt bs 12 8, t2 := bytesAt bs 20 8, t3 := bytesAt bs 28 8 }
  else none

/-- The header of a frame that a port sends; every field its type does not use is zero (R365). ECHO and ECHO_REPLY carry the port's SESSION, and a
manifest reject has no TYPE of its own there (assumption 111). -/
def State.lntHdr (s : State) : OutMsg → Option LntHdr
  | .lntData _ d => some { typ := 0, flow := d.flow, man := d.man, len := d.payload.length, session := d.session, pseq := d.pseq, sack := 0, t2 := 0, t3 := 0 }
  | .lntAck _ n f cum sack => some { typ := 1, flow := f, man := false, len := 0, session := n, pseq := cum, sack := sack, t2 := 0, t3 := 0 }
  | .lntEcho p t1 => some { typ := 2, flow := 0, man := false, len := 0, session := (s.lport p).session, pseq := 0, sack := t1, t2 := 0, t3 := 0 }
  | .lntEchoReply p t1 t2 t3 =>
    some { typ := 3, flow := 0, man := false, len := 0, session := (s.lport p).session, pseq := 0, sack := t1, t2 := t2, t3 := t3 }
  | .lntHello _ _ => some { typ := 4, flow := 0, man := false, len := 64, session := 0, pseq := 0, sack := 0, t2 := 0, t3 := 0 }
  | .lntAttest _ n r => some { typ := 5, flow := 0, man := false, len := r.length, session := n, pseq := 0, sack := 0, t2 := 0, t3 := 0 }
  | .lntClose _ n => some { typ := 6, flow := 0, man := false, len := 0, session := n, pseq := 0, sack := 0, t2 := 0, t3 := 0 }
  | _ => none

end Sys2Proof.Machine
end

