-- ==== Sys2Proof/Machine/Partner.lean ====
section
/-! DEFINITION. Machine/Partner.lean: the island's outer state: STATUS exchanges, joining by fetch and the floods of key OUTER (R405, R410 to
R415). -/

namespace Sys2Proof.Machine

/-- An outer header (R405). -/
def outerHeader (mask : Nat) (catchup : Bool) (nelem rho lastj group req : Nat) : List Byte :=
  leBytes 2 mask ++ leBytes 1 (b2n catchup) ++ [0] ++ leBytes 4 nelem ++ leBytes 4 rho ++ leBytes 4 lastj ++ leBytes 1 group ++ leBytes 1 req
    ++ List.replicate 46 0

/-- The member islands other than this one. -/
def State.partners (s : State) : List Nat :=
  match s.outer.fed with
  | some r => (r.members.map (fun m => m.island)).filter (fun i => i != s.place.islandId)
  | none => []

/-- The partners that are not DARK here. -/
def State.lit (s : State) : List Nat := s.partners.filter (fun i => !s.outer.isDark i)

/-- The groups of the training fields that are registered for the outer loop, as (field, GID). -/
def State.outerGroups (s : State) : List (Nat × Nat) :=
  s.trainFields.flatMap (fun f => ((s.fld f).groups.filter (fun g => g.2.outer.isSome)).map (fun g => (f, g.1)))

/-- This island's record for a STATUS to a partner (R405). -/
def State.standing (s : State) (island : Nat) : Standing :=
  { group := 1 + (s.lit.filter (fun i => i != island)).length, rho := s.outer.rho, lastj := s.outer.lastj }

/-- Sends STATUS to a partner's keeper (R404, R412). -/
def State.sendStatus (s : State) (island : Nat) (st : Standing) (req : Nat) : State :=
  s.sendXfer { typ := 2, srcIsland := s.place.islandId, dstIsland := island, fmt := 0, round := 0, base := 0, item := 0,
               srcModule := s.place.moduleId, attempt := 0, payload := outerHeader 0 false 0 st.rho st.lastj st.group req }

/-- Starts a STATUS exchange with REQ = 1 (R412). -/
def State.ask (s : State) (island : Nat) : State :=
  let st := s.standing island
  (s.modOuter (fun o => { o with asked := o.asked.filter (fun e => e.island != island) ++ [{ island := island, own := st }] })).sendStatus island st 1

/-- Every reply of this module's fetches has landed: it says so, once in a step (R413); the keeper only when it knows the source's RHO. -/
def State.checkGathered (s : State) : State :=
  let o := s.outer
  let all := s.outerGroups.all (fun k => match (s.group k.1 k.2).bind (fun g => g.outer) with | some x => x.fetched.isSome | none => true)
  if o.state = 1 && o.source.isSome && !o.gathered && !o.refetch && all && (!s.isKeeper || o.rhoSrc.isSome) then
    (s.modOuter (fun o => { o with gathered := true })).contribute 0 10 1 s.bcn.step []
  else s

/-- The key of a group's own shard (R404). -/
def State.keyOf (s : State) (f gid : Nat) : Nat := s.place.moduleId % 1024 + 1024 * f + 65536 * gid

/-- Every owner asks its counterpart in the source island for its shard (R413). -/
def State.startFetch (s : State) (island : Nat) : State :=
  let s1 := s.modOuter (fun o => { o with source := some island, gathered := false, refetch := false, install := none })
  let s2 := s1.forAll s.outerGroups (fun s k =>
    (s.modOut k.1 k.2 (fun x => { x with fetched := none })).sendXfer
      { typ := 3, srcIsland := s.place.islandId, dstIsland := island, fmt := 0, round := 0, base := 0, item := s.keyOf k.1 k.2,
        srcModule := s.place.moduleId, attempt := 0, payload := outerHeader 0 false 0 0 0 0 0 })
  s2.checkGathered

/-- The keeper resumes with the READY round that HELD withheld; in EXT it is forwarded to the HX-2 now (R341, R410). -/
def State.resume (s : State) : State :=
  match s.bcn.advance with
  | some n => if s.isKeeper && !s.bcn.hold then s.beginRound n else s
  | none => s

/-- The outer state becomes `v` (R415, R419); leaving HELD, the keeper goes on. -/
def State.outerBecomes (s : State) (v : Nat) : State :=
  let s1 := s.modOuter (fun o => { o with state := v, holdSeen := o.holdSeen || v == 4 })
  if s.outer.state = 4 && v != 4 then s1.resume else s1

/-- The keeper changes the island's state and floods it (R415), with the joining source and whether R412 decided it. -/
def State.keeperSays (s : State) (v : Nat) (rejoin : Bool) : State :=
  let s1 := if v = 4 then s.event 9 3 (s.trainPart.getD 16) 0 [] else s
  (s1.outerBecomes v).outerSay 2 (leBytes 1 v ++ leBytes 1 (s.outer.source.getD 255) ++ leBytes 1 (b2n rejoin))

/-- The keeper changes the island's state otherwise than by R412. -/
def State.keeperState (s : State) (v : Nat) : State := s.keeperSays v false

/-- What the keeper makes of the modules that have outer groups: the first one takes the island out of OFF, the last one that has none any more
puts it there (R415). -/
def State.keeperGroups (s : State) (module : Nat) (present : Bool) : State :=
  let rest := s.outer.regs.filter (fun m => m != module)
  let regs := if present then rest ++ [module] else rest
  let s1 := s.modOuter (fun o => { o with regs := regs })
  if regs.isEmpty then (if s.outer.state = 0 then s1 else s1.keeperState 0)
  else if s.outer.state = 0 && s.outer.fed.isSome then s1.keeperState (if s.lit.isEmpty then 3 else 2)
  else s1

/-- A module has its first outer group, or no longer one: its keeper learns of it over the flare path (key OUTER; assumption 28). -/
def State.sayGroups (s : State) (present : Bool) : State :=
  if s.isKeeper then s.keeperGroups s.place.moduleId present
  else s.outerSay 4 (leBytes 1 (b2n present) ++ [0] ++ leBytes 2 s.place.moduleId)

/-- The keeper puts the island in JOINING with a source (R412). -/
def State.keeperJoins (s : State) (island rho : Nat) : State :=
  let s1 := s.modOuter (fun o => { o with rejoinSeen := true, source := some island, rhoSrc := some rho, asked := [] })
  (s1.keeperSays 1 true).startFetch island

/-- The decision of R412 for one exchange: whether this island loses with a gap above REJOIN. -/
def mustJoin (ownIsland rejoin : Nat) (e : Exchange) (got : Standing) : Bool :=
  (e.own.group < got.group || (e.own.group == got.group && e.island < ownIsland)) &&
    decide (rejoin < (if e.own.lastj = none32 then e.own.rho else e.own.rho - e.own.lastj - 1))

/-- The exchanges are evaluated in ascending island id; a JOINING decision ends the evaluation (R412, R417). -/
def State.evaluate (s : State) : Nat → State
  | 0 => s
  | fuel + 1 =>
    let rejoin := (s.outer.fed.map (fun r => r.rejoin)).getD 0
    match (s.outer.asked.mergeSort (fun a b => a.island ≤ b.island)).head? with
    | none => s
    | some e =>
      match e.got with
      | none => s
      | some got =>
        if s.outer.state ≤ 1 then s
        else if mustJoin s.place.islandId rejoin e got then s.keeperJoins e.island got.rho
        else
          let s1 := s.modOuter (fun o => { o with asked := o.asked.filter (fun x => x.island != e.island) })
          State.evaluate (if s1.outer.state = 2 then s1 else s1.keeperState 2) fuel

/-- The source after the one at hand: the first member in MEMBER order that is not DARK; after a cut by a source that is still reached, the next
one behind it, in a circle (R413, R417; assumption 132). -/
def State.nextSource (s : State) : Option Nat :=
  let ms := s.lit
  match s.outer.source.bind (fun i => ms.idxOf? i) with
  | some k => (ms.drop (k + 1) ++ ms.take (k + 1)).head?
  | none => ms.head?

/-- A fetch restarts from the next source (R413, R414, R417). -/
def State.restartFetch (s : State) : State :=
  match s.nextSource with
  | none => s.modOuter (fun o => { o with source := none, rhoSrc := none, gathered := false })
  | some i =>
    let s1 := s.modOuter (fun o => { o with source := some i, rhoSrc := none })
    let s2 := if s.isKeeper then (s1.keeperState 1).ask i else s1
    s2.startFetch i

/-- Whether a fetch needs a new source: it has none, its source is DARK, or a transfer of it was cut. -/
def OuterIsland.lostSource (o : OuterIsland) : Bool :=
  match o.source with
  | none => true
  | some i => o.refetch || o.isDark i

/-- What follows a change of the partners' view (R412 to R415): the keeper asks partners that returned, the island goes ALONE when every
partner is DARK, and a joining island looks for a source. -/
def State.outerReact (s : State) : State :=
  let back := s.outer.returned
  let s0 := s.modOuter (fun o => { o with returned := [] })
  let st := s.outer.state
  if s.outer.fed.isNone || st = 0 then s0
  else
    let s1 := if s.isKeeper then s0.forAll (back.filter (fun i => s.partners.contains i)) (fun s i => s.ask i) else s0
    if st = 1 then
      (if s1.outer.lostSource && s1.outer.install.isNone && (s.isKeeper || s1.outer.source.isSome) then s1.restartFetch else s1)
    else if s.isKeeper && s1.lit.isEmpty && st = 2 then s1.keeperState 3
    else s1

/-- STATUS_TRANSFER_RX: the keeper answers REQ = 1, keeps the record, and evaluates the decision (R412, R414). -/
def State.statusRx (s : State) (x : Xfer) : State :=
  let i := x.srcIsland
  let got : Standing := { group := bytesAt x.payload 16 1, rho := bytesAt x.payload 8 4, lastj := bytesAt x.payload 12 4 }
  let req := bytesAt x.payload 17 1
  if !s.isKeeper || !s.partners.contains i then s
  else
    let st := ((s.outer.asked.find? (fun e => e.island == i)).map (fun e => e.own)).getD (s.standing i)
    let known := s.outer.asked.any (fun e => e.island == i)
    let s1 := if known || req = 1 then
        s.modOuter (fun o => { o with asked := o.asked.filter (fun e => e.island != i) ++ [{ island := i, own := st, got := some got }] })
      else s
    let s2 := if req = 1 then s1.sendStatus i st 0 else s1
    if s.outer.state = 1 then
      (if s.outer.source = some i then
        (s2.modOuter (fun o => { o with rhoSrc := some got.rho, asked := o.asked.filter (fun e => e.island != i) })).checkGathered
       else s2.modOuter (fun o => { o with asked := o.asked.filter (fun e => e.island != i) }))
    else if s.outer.state = 0 then s2.modOuter (fun o => { o with asked := [] })
    else s2.evaluate 16

/-- What a flood of key OUTER does at a module (R380, R407, R412, R413, R415). -/
def State.outerFlood (s : State) : OuterFlood → State
  | .partner island module port dark arr =>
    let g := (island, module, port)
    let f := s.partnerFrame island module port dark
    let s := s.flareTook arr f
    if module = s.place.moduleId || s.outer.gwUp.contains g != dark then s
    else
      let s1 := (s.floodFrom (some arr.val) f).modOuter (fun o => { o with gwUp := if dark then o.gwUp.filter (fun x => x != g)
                                                      else if o.gwUp.contains g then o.gwUp else o.gwUp ++ [g] })
      s1.refreshDark.outerReact
  | .lastj v => (s.roundOver 10 0 s.bcn.step).modOuter (fun o => { o with lastj := v })
  | .state v source rejoin =>
    let src := if source = 255 then none else some source
    let o := s.outer
    if v = 1 then
      (if o.state = 1 && o.source = src then s
       else
        let s1 := (s.modOuter (fun o => { o with rejoinSeen := o.rejoinSeen || rejoin, join := false, source := src })).outerBecomes 1
        match src with | some i => s1.startFetch i | none => s1)
    else if o.state = v then s
    else s.outerBecomes v
  | .landed rho =>
    let s1 := s.roundOver 10 1 s.bcn.step
    if s.outer.state = 1 then s1.modOuter (fun o => { o with install := some rho }) else s1
  | .registered module present => if s.isKeeper && module != s.place.moduleId then s.keeperGroups module present else s

/-- OUTER_FLOOD_RX. Nothing happens at a module that is not placed, nor for a frame of a value that R10 makes illegal. -/
def doOuterFloodRx (f : OuterFlood) (s : State) : Host.Outcome State Fault Refusal :=
  if s.place.placed && OuterFlood.wf f then .next (s.outerFlood f) else .next s

/-- STATUS_TRANSFER_RX. A transfer for another island is relayed (R383). -/
def execStatusTransferRx (x : Xfer) (s : State) : Host.Outcome State Fault Refusal :=
  if x.dstIsland != s.place.islandId then .next (s.relayXfer x)
  else if x.typ = 2 then .next (s.statusRx x) else .next s

end Sys2Proof.Machine
end

