-- ==== Sys2Proof/Machine/LanternRows.lean ====
section
/-! DEFINITION. Machine/LanternRows.lean: what reaches a lantern port, and the port's commands (R362 to R391, R511). -/

namespace Sys2Proof.Machine

/-! ### Optics and the link (R363, R364) -/

/-- The link is lost: LINK, ATTEST, UP and DARK return to TRAIN; the session stays until LOSTTOUCH (R364, R379, R390). -/
def State.linkLost (s : State) (p : Nat) : State :=
  let x := s.lport p
  if 2 ≤ x.state && x.state ≤ 5 then ((s.modLport p (fun x => { x with own := none, peer := none })).trainLport p).lntEvent 5 p []
  else s.modLport p (fun x => { x with linked := false })

/-- OPTICS_POLL: lanes locked, what the transceiver reports of itself, and a sticky bit for loss of signal; a data path that is no longer active
takes the link with it (R363, R364, R391). -/
def execOpticsPoll (port : Fin 4) (los : OpticsRead) (lanes : Nat) (s : State) : Host.Outcome State Fault Refusal :=
  if (s.lport port).present then
    let s1 := s.modLport port (fun x =>
      { x with losSeen := x.losSeen || los.los, lanesOk := min lanes 4, modState := los.modState, faults := los.faults })
    .next (if (s.lport port).linked && !los.active then s1.linkLost port else s1)
  else .next s

/-- OPTICS_PRESENCE_CHANGE: without optics the port is DOWN; with them it may leave DOWN (R364). -/
def execOpticsPresenceChange (port : Fin 4) (present : Bool) (s : State) : Host.Outcome State Fault Refusal :=
  if present then .next ((s.modLport port (fun x => { x with present := true })).wakeLport port)
  else .next (s.modLport port (fun x => { x with present := false, state := 0, linked := false, lanesOk := 0, own := none, peer := none }))

/-- LANTERN_LINK_UP: all 4 lanes are locked and the optics report the data path active: TRAIN becomes LINK and a HELLO goes out (R364, R367). -/
def execLanternLinkUp (port : Fin 4) (s : State) : Host.Outcome State Fault Refusal :=
  if (s.lport port).state = 0 then .next s
  else
    let s1 := s.modLport port (fun x => { x with lanesOk := 4, linked := true })
    .next (if (s.lport port).state = 1 then s1.sendHello port 2 else s1)

/-- LANTERN_LINK_LOST: lane lock is lost. -/
def execLanternLinkLost (port : Fin 4) (lanes : Nat) (s : State) : Host.Outcome State Fault Refusal :=
  .next ((s.modLport port (fun x => { x with lanesOk := min lanes 4 })).linkLost port)

/-! ### Sessions (R364 to R371) -/

/-- A HELLO is answered (R367, R390): the session number is formed and this end's report goes out; with the peer's island id equal to the own
one the port refuses (R26). -/
def State.takeHello (s : State) (p : Nat) (own peer : HelloF) : State :=
  let x := s.lport p
  let old := x.live && (x.peerIsland != peer.island || x.peerModule != peer.module || x.peerPort != peer.port)
  let s1 := (if old then (s.dropSession p).outerReact else s).modLport p (fun x =>
    { x with peer := some peer, peerIsland := peer.island % 16, peerModule := peer.module % 1024, peerPort := peer.port % 4 })
  if own.island = peer.island then s1.refuse p peer (if own.fedTag = peer.fedTag then 1 else 0)
  else
    let n := sessionOf own peer
    let c := lntContext own peer n
    ((s1.modLport p (fun x => { x with state := 3, session := n })).emit (.lntAttest p n (s1.report 1 c.1 c.2))).signed

/-- HELLO: answered in LINK and in DARK (R364, R367). -/
def execHello (port : Fin 4) (f : HelloF) (s : State) : Host.Outcome State Fault Refusal :=
  let x := s.lport port
  if x.state = 2 then
    (match x.own with
     | some own => .next ((s.emit (.lntHello port own)).takeHello port own f)
     | none => .next s)
  else if x.state = 5 && x.linked then .next ((s.sendHello port 2).takeHello port (s.newHello port) f)
  else .next s

/-- HELLO_RETRY: DARK and REFUSED return to LINK with a new HELLO, or to TRAIN where the link has been lost; in LINK the HELLO is sent again
(R364). -/
def execHelloRetry (port : Fin 4) (s : State) : Host.Outcome State Fault Refusal :=
  let x := s.lport port
  if x.state = 5 || x.state = 6 then .next (if x.linked then s.sendHello port 2 else s.trainLport port)
  else if x.state = 2 then (match x.own with | some own => .next (s.emit (.lntHello port own)) | none => .next s)
  else .next s

/-- A frame that is discarded for its form is counted, and nothing else is done (R366). -/
def State.lntDiscard (s : State) (p : Nat) : State :=
  if 2 ≤ (s.lport p).state && (s.lport p).state ≤ 5 then s.modLport p (fun x => { x with crcerr := satAdd 32 x.crcerr 1 }) else s

/-- The window area of a port takes its new place: what the windows hold goes along (R372, R388). -/
def State.moveWindows (s : State) (p : Nat) : State :=
  let x := s.lport p
  let y := { x with set := x.pend }
  let held := x.flows.flatMap (fun f => f.2.window.map (fun k => (k.slot, k.len)) ++ f.2.early.map (fun k => (windowSlots + k.2.slot, k.2.len)))
  if y.slotAddr 0 = x.slotAddr 0 then s.modLport p (fun _ => y)
  else ((held.map (fun k => (k.1, s.peekBytes (x.slotAddr k.1) k.2))).foldl (fun s k => s.pokeBytes (y.slotAddr k.1) k.2) s).modLport p (fun _ => y)

/-- The port enters UP (R369, R371, R381, R387): the new settings act, contexts are drawn, and what a session that was not lost still holds
goes on. The session counts as one to its partner only on a port of the training job's partition (R388). -/
def State.goUp (s : State) (p : Nat) (peer : HelloF) (flows : Nat) : State :=
  let s1 := (s.moveWindows p).modLport p (fun x => { x with state := 4, live := true, flowCount := flows })
  let s2 := if s.outer.gwUp.contains (peer.island, s.place.moduleId, p) || !s.ownsLport p then s1 else s1.gateway p peer.island true
  (s2.lntPumpAll p).outerReact

/-- ATTEST_FRAME: the peer's report is judged; UP, or REFUSED with the first failing condition (R366, R368, R369, R371). A frame of an illegal
LEN is discarded (R366). -/
def execAttestFrame (port : Fin 4) (session : Nat) (report : List Byte) (s : State) : Host.Outcome State Fault Refusal :=
  let x := s.lport port
  if x.state < 2 || 5 < x.state then .next s
  else if !lntLenLegal report.length then .next (s.lntDiscard port)
  else if session != x.session then .next (s.modLport port (fun x => { x with staleSeen := true }))
  else match x.state, x.own, x.peer with
    | 3, some own, some peer =>
      let n := max 1 (min own.flows peer.flows)
      (match (s.accepts port own peer session report).findIdx? (fun ok => !ok) with
       | some c => .next (s.refuse port peer c)
       | none =>
         if s.contextsFree + (if x.live then x.flowCount else 0) < n then .next (s.refuse port peer 7)
         else .next (s.goUp port peer n))
    | _, _, _ => .next s

/-- ATTEST_TIMEOUT: an attestation not completed refuses the peer (R369). -/
def execAttestTimeout (port : Fin 4) (s : State) : Host.Outcome State Fault Refusal :=
  match (s.lport port).state, (s.lport port).peer with
  | 3, some peer => .next (s.refuse port peer 6)
  | _, _ => .next s

/-- The partners that a port still counts as reached without a session of its own standing (R380). -/
def State.staleGates (s : State) (p : Nat) : List Nat :=
  let x := s.lport p
  (s.outer.gwUp.filter (fun g => g.2.1 == s.place.moduleId && g.2.2 == p && !(x.live && x.peerIsland == g.1))).map Prod.fst

/-- LOSTTOUCH: the session that fell silent is gone, or LOSTTOUCH has passed since one that ended otherwise: its partner is no longer reached
(R379, R380). With `cut`, a gateway elsewhere names a transfer of this module that such a session took with it. -/
def execLosttouch (port : Fin 4) (cut : Option Xfer) (s : State) : Host.Outcome State Fault Refusal :=
  match cut with
  | some x => .next (s.transferDark x).outerReact
  | none =>
    let stale := s.staleGates port
    if !stale.isEmpty then .next (s.forAll stale (fun s i => s.gateway port i false)).outerReact
    else if (s.lport port).live then .next ((s.goDark port).gateway port (s.lport port).peerIsland false).outerReact
    else .next s

/-- CLOSE: the port enters DARK at once (R366, R389). -/
def execClose (port : Fin 4) (session : Nat) (s : State) : Host.Outcome State Fault Refusal :=
  let x := s.lport port
  if x.state < 2 || 5 < x.state then .next s
  else if session != x.session then .next (s.modLport port (fun x => { x with staleSeen := true }))
  else if x.state = 3 || x.state = 4 then .next (s.goDark port).outerReact
  else .next s

/-! ### Flows (R366, R373 to R375, R386) -/

/-- What a frame of a session does when the port is UP and its SESSION is current; otherwise it is stale (R366). -/
def State.inSession (s : State) (p session : Nat) (g : State) : State :=
  let x := s.lport p
  if x.state < 2 || 5 < x.state then s
  else if session != x.session then s.modLport p (fun x => { x with staleSeen := true })
  else if x.state = 4 then g
  else s

/-- LANTERN_DATA: a frame with an illegal LEN is discarded (R366, R373, R374, R386). -/
def execLanternData (port : Fin 4) (f : LntData) (s : State) : Host.Outcome State Fault Refusal :=
  if !LntData.legal f then .next (s.lntDiscard port) else
  .next (s.inSession port f.session (if f.flow < (s.lport port).flowCount then s.lntTake port f else s))

/-- LANTERN_ACK (R375). -/
def execLanternAck (port : Fin 4) (session flow cum sack : Nat) (s : State) : Host.Outcome State Fault Refusal :=
  .next (s.inSession port session (if flow < (s.lport port).flowCount then s.lntAcked port flow cum sack else s))

/-- LANTERN_ACK_TIMER (R374). -/
def execLanternAckTimer (port : Fin 4) (flow : Fin 64) (s : State) : Host.Outcome State Fault Refusal :=
  if (s.lport port).state = 4 && (smapGet {} (s.lport port).flows flow).fresh != 0 then .next (s.lntAckOut port flow) else .next s

/-- LANTERN_RTO_EXPIRY: the packet goes again (R375). -/
def execLanternRtoExpiry (port : Fin 4) (flow : Fin 64) (pseq : Nat) (s : State) : Host.Outcome State Fault Refusal :=
  let fl := smapGet {} (s.lport port).flows flow
  match fl.window.find? (fun k => k.pseq == pseq) with
  | some k =>
    if (s.lport port).state = 4 then
      .next ((s.modLport port (fun y => y.modFlow flow (fun g =>
        { g with window := g.window.map (fun e => if e.pseq = pseq then { e with fast := false } else e) }))).lntResend port flow k)
    else .next s
  | none => .next s

/-- MANIFEST_REJECT: the oldest transfer on the flow was rejected (R386). With `told`, a gateway elsewhere names a transfer of this
module. -/
def execManifestReject (port : Fin 4) (session flow : Nat) (told : Option Xfer) (s : State) : Host.Outcome State Fault Refusal :=
  match told with
  | some x => .next (s.rejectXfer x)
  | none =>
    match s.outer.sent.find? (fun t => t.port == port.val && t.flow == flow) with
    | some t => .next (s.inSession port session ((s.modOuter (fun o => { o with sent := o.sent.erase t })).rejectXfer t.x))
    | none => .next (s.inSession port session s)

/-- LANTERN_IDLE: an IDLE frame is not kept (R366). -/
def execLanternIdle (_port : Fin 4) (s : State) : Host.Outcome State Fault Refusal := .next s

/-- LANTERN_FRAME_DISCARD: a bad frame is counted (R366). -/
def execLanternFrameDiscard (port : Fin 4) (s : State) : Host.Outcome State Fault Refusal := .next (s.lntDiscard port)

/-! ### Delay (R376 to R378) -/

/-- Whether a port measures: LINK, ATTEST, UP or DARK. -/
def LntPort.measures (x : LntPort) : Bool := 2 ≤ x.state && x.state ≤ 5

/-- ECHO_TIMER: an ECHO carries T1; those older than 2 RTO are forgotten (R376). -/
def execEchoTimer (port : Fin 4) (now : Nat) (s : State) : Host.Outcome State Fault Refusal :=
  if (s.lport port).measures then
    .next ((s.modLport port (fun x =>
      { x with echoes := x.echoes.filter (fun t => !x.sampled || decide (now ≤ t + 2 * x.rto)) ++ [now] })).emit (.lntEcho port now))
  else .next s

/-- ECHO: answered with T1, T2 and T3 (R376). -/
def execEcho (port : Fin 4) (t1 now : Nat) (s : State) : Host.Outcome State Fault Refusal :=
  if (s.lport port).measures then .next (s.emit (.lntEchoReply port t1 now now)) else .next s

/-- RTO of R378. -/
def rtoOf (base var : Nat) : Nat := base + max (4 * var) 1000000

/-- VAR at a first sample and after a path change: 250 µs. -/
def varStart : Nat := 250000

/-- What a sample does to a port, and whether it is a path change (R377, R378). Quotients round toward zero. -/
def LntPort.sample (x : LntPort) (v : Int) : LntPort × Bool :=
  let b : Int := x.base
  let d : Int := v - b
  let fixed := fun (y : LntPort) => { y with rto := rtoOf y.base y.var }
  if !x.sampled then (fixed { x with sampled := true, base := v.toNat, var := varStart, shiftCount := 0 }, false)
  else if d.natAbs ≤ 1000 * x.set.shiftUs then
    (fixed { x with shiftCount := 0, base := (b + Int.tdiv d 8).toNat,
                    var := ((x.var : Int) + Int.tdiv ((d.natAbs : Int) - (x.var : Int)) 4).toNat }, false)
  else
    let up := decide (0 < d)
    let n := if x.shiftCount != 0 && x.shiftUp == up then x.shiftCount + 1 else 1
    if x.set.shiftN ≤ n then (fixed { x with pathchg := true, base := v.toNat, var := varStart, shiftCount := 0 }, true)
    else (fixed { x with shiftCount := n, shiftUp := up }, false)

/-- ECHO_REPLY: a sample from an outstanding ECHO not older than 2 RTO (R376 to R378). -/
def execEchoReply (port : Fin 4) (t1 t2 t3 now : Nat) (s : State) : Host.Outcome State Fault Refusal :=
  let x := s.lport port
  if !x.measures || !x.echoes.contains t1 then .next s
  else
    let y := { x with echoes := x.echoes.erase t1 }
    if x.sampled && decide (t1 + 2 * x.rto < now) then .next (s.modLport port (fun _ => y))
    else
      let r := y.sample (((now : Int) - t1) - ((t3 : Int) - t2))
      let s1 := s.modLport port (fun _ => r.1)
      .next (if r.2 then s1.lntEvent 2 port (leBytes 4 x.base ++ leBytes 4 r.1.base) else s1)

/-! ### Commands (R372, R382, R387, R388, R511) -/

/-- ROUTE_TABLE (R382). -/
def checksRouteTable (s : State) (items : List RouteE) : List Check :=
  let op := 0x0603
  let off := fun (j i : Nat) => itemOff op 0 items.length j i
  [ckValue (items.length ≤ 15) (fieldOff op 0), ckState s.outer.fed.isNone stState 0,
   { order := 4, ok := items.all (fun e => e.gws.length == 8), status := stLength, off := 6 }]
  ++ items.zipIdx.flatMap (fun e =>
    [{ order := 10, ok := e.1.island ≤ 15 && e.1.island != s.place.islandId && !((items.take e.2).any (fun r => r.island == e.1.island)),
       status := stValue, off := off e.2 0, didx := e.2 },
     { order := 7, ok := e.1.ngw != 0, status := stZero, off := off e.2 1, didx := e.2 },
     { order := 10, ok := e.1.ngw ≤ 8, status := stValue, off := off e.2 1, didx := e.2 }]
    ++ e.1.gws.zipIdx.flatMap (fun g =>
      [{ order := 10, ok := g.1.2 ≤ 3 && (g.2 < e.1.ngw || (g.1.1 == 0 && g.1.2 == 0)), status := stValue, off := off e.2 (2 + 2 * g.2), didx := e.2 },
       { order := 11, ok := e.1.ngw ≤ g.2 || s.isMember g.1.1, status := stTarget, off := off e.2 (2 + 2 * g.2), didx := e.2 }]))

/-- ROUTE_TABLE: the gateways to each partner; the view of partners follows. -/
def startRouteTable (s : State) (uid : Nat) (items : List RouteE) : State :=
  ((s.modOuter (fun o => { o with routes := items })).refreshDark.outerReact).finish uid stDone []

/-- LPORT_CONFIG (R372, R387). -/
def checksLportConfig (s : State) (p : LportP) : List Check :=
  let o := fieldOff 0x0604
  [ckValue (p.port ≤ 3) (o 0), ckValue (p.wfield ≤ 63) (o 1), ckTarget (63 < p.wfield || s.reach (s.lportOwner p.port) p.wfield) (o 1),
   ckAlign (p.wbase % 64 == 0) (o 2), ckTarget (63 < p.wfield || s.stackRange p.wfield p.wbase (2 * windowSlots * 8192)) (o 2),
   ckZero (p.losttouchMs != 0) (o 3), ckValue (100 ≤ p.losttouchMs && p.losttouchMs ≤ 60000) (o 3),
   ckZero (p.shiftUs != 0) (o 4), ckValue (100 ≤ p.shiftUs && p.shiftUs ≤ 10000) (o 4),
   ckZero (p.shiftN != 0) (o 5), ckValue (2 ≤ p.shiftN && p.shiftN ≤ 15) (o 5),
   ckZero (p.flows != 0) (o 6), ckValue (p.flows ≤ 64) (o 6)]

/-- LPORT_CONFIG: timers act from the next sample, the rest when the next session enters UP (R388). -/
def startLportConfig (s : State) (uid : Nat) (p : LportP) : State :=
  let new : LntSet := { wfield := p.wfield, wbase := p.wbase, losttouchMs := p.losttouchMs, shiftUs := p.shiftUs, shiftN := p.shiftN, flows := p.flows }
  let s1 := s.modLport p.port (fun x =>
    { x with configured := true, pend := new, set := { x.set with losttouchMs := p.losttouchMs, shiftUs := p.shiftUs, shiftN := p.shiftN } })
  (s1.wakeLport p.port).finish uid stDone []

/-- OPTICS (R363, R511). -/
def checksOptics (s : State) (dir : Nat) (p : OpticsP) : List Check :=
  let o := fieldOff 0x0605
  [ckValue (p.port ≤ 3) (o 0), ckValue (dir ≤ 1) (o 1), ckValue (p.bank ≤ 255) (o 2), ckValue (p.page ≤ 255) (o 3), ckValue (p.off ≤ 255) (o 4),
   ckValue (p.len ≤ 16) (o 5), ckValue (p.data.length ≤ 16 && (dir == 1 || p.data.all (fun b => b == 0))) (o 6),
   ckState (3 < p.port || (s.lport p.port).present) stState (o 0)]

/-- OPTICS: LEN 0 does nothing; a read answers up to 16 bytes in the result words, a write goes out on the two-wire bus; HW_FAULT when the
transceiver does not answer. -/
def startOptics (s : State) (uid dir : Nat) (p : OpticsP) (feed : Feed) : State :=
  if p.len = 0 then s.finish uid stDone []
  else if !feed.answered then s.finish uid stHw []
  else if dir = 0 then s.finish uid stDone (wordsOf 4 (padTo 16 (feed.data.take p.len)))
  else (s.emit (.i2cWrite p.port p.bank p.page p.off (padTo p.len p.data))).finish uid stDone []

/-- LPORT_CLEAR: a 4-bit mask. -/
def checksLportClear (pmask : Nat) : List Check := [ckValue (pmask < 16) (fieldOff 0x0606 0)]

/-- LPORT_CLEAR: zeroes LNT_RETX and LNT_CRCERR of the named ports (R391, R511). -/
def startLportClear (s : State) (uid pmask : Nat) : State :=
  (s.forAll (onesBelow 4 pmask) (fun s p => s.modLport p (fun x => { x with retx := 0, crcerr := 0 }))).finish uid stDone []

end Sys2Proof.Machine
end

