-- ==== Sys2Proof/Machine/Outer.lean ====
section
/-! DEFINITION. Machine/Outer.lean: outer groups: record and registration, landing, the sweeps at OUTER_APPLY and the commit of a round (R393 to
R409, R413, R416, R418, R511). -/

namespace Sys2Proof.Machine

/-! ### Planes (R395) -/

/-- The bytes of `n` blocks in the wire layout. -/
def wireLen (fmt n : Nat) : Nat := if fmt = 6 then ceilDiv (4 * n) 64 * 1088 else collBytes fmt false (128 * n)

/-- The sizes of OB_A to LD7. -/
def outerSizes (fmt n : Nat) : List Nat :=
  List.replicate 6 (512 * n) ++ [256 * n, 256 * n, 512 * n, 512 * n, wireLen fmt n, wireLen fmt n] ++ List.replicate 8 (64 + wireLen fmt n)

/-- The blocks of a group's own shard. -/
def State.shardBlocks (s : State) (g : GroupP) : Nat := g.shardLen (s.rankOf g)

/-- The module address of an outer plane: 0 OB, 2 OK, 4 OM, 6 OR, each plus the bank; 8 D, 10 Q, 12 LD, each plus the number. -/
def State.outAddr (s : State) (g : GroupP) (p : OuterP) (i : Nat) : Nat :=
  stackBase g.field + (planeOffs p.opbase (outerSizes p.dfmt (s.shardBlocks g))).getD i 0

/-- The F32 words of block `b` of an outer plane. -/
def State.outF32s (s : State) (g : GroupP) (p : OuterP) (i b : Nat) : List F32 := s.peekF32s (s.outAddr g p i + 512 * b) 128

/-- Words as arithmetic reads them: subnormals as zero of their sign (R61). -/
def operands (ws : List F32) : List F32 := ws.map flushF32

/-- How many words arithmetic reads as zero (R61). -/
def flushesOf (ws : List F32) : Nat := (ws.filter f32Subnormal).length

/-- The residuals of block `b`, widened, with what the reading counts (R398; assumption 48). -/
def State.outRes (s : State) (g : GroupP) (p : OuterP) (i b : Nat) : List (F32 × Ev) := s.readRes (s.outAddr g p i + 256 * b) 128

/-- The address of the masters of own block `b` in a bank (R244). -/
def State.masterAddr (s : State) (g : GroupP) (bank b : Nat) : Nat :=
  s.planeAddr g 0 bank (512 * (g.shardLo (s.rankOf g) + b - (s.ownBlocks g).1))

/-! ### The wire layout (R36, R324, R395) -/

/-- A quantised block of 128: scales, codes, the exact values, what is counted. -/
structure WireBlock where
  scales : List Nat
  codes : List Nat
  vals : List Val
  evs : List Ev
  deriving DecidableEq, Repr

/-- quantise of R398: E8M0 scales with nearest even, blocks of 128 for the 8-bit formats, of 32 for B4. -/
def wireQuant (fmt : Nat) (xs : List F32) : WireBlock :=
  if fmt = 6 then
    let parts := (List.range 4).map (fun i => convertBlock false false (fun _ => none) (((xs.drop (32 * i)).take 32).map f32Val))
    { scales := parts.map Prod.fst, codes := parts.flatMap (fun r => r.2.map Prod.fst),
      vals := parts.flatMap (fun r => r.2.map (fun c => elemVal 6 r.1 c.1)), evs := parts.flatMap (fun r => r.2.map Prod.snd) }
  else if xs.any (fun x => !f32IsFin x) then
    { scales := [0xFF], codes := xs.map (fun _ => 0), vals := xs.map (fun _ => f32Val nanF32), evs := xs.map (fun _ => { invalid := !(xs.any f32IsNan) }) }
  else
    let q := quantise8 fmt xs
    { scales := [q.1], codes := q.2.1, vals := q.2.2, evs := xs.map (fun x => (convertElem fmt false none (unscale (f32Val x) q.1)).2) }

/-- The scales and the codes of block `b` at an address. -/
def State.wireRead (s : State) (fmt base b : Nat) : List Nat × List Nat :=
  if fmt = 6 then
    let js := (List.range 4).map (fun i => 4 * b + i)
    (js.map (fun j => (s.peek (base + j / 64 * 1088 + j % 64)).toNat),
     js.flatMap (fun j => (s.peekBytes (base + j / 64 * 1088 + 64 + 16 * (j % 64)) 16).flatMap (fun x => [x.toNat % 16, x.toNat / 16])))
  else
    let raw := s.collRaw fmt false base b
    ([(raw.getD 0 0).toNat], wordsOf 1 (raw.drop 1))

/-- Writes a quantised block. -/
def State.wireWrite (s : State) (fmt base b : Nat) (scales codes : List Nat) : State :=
  if fmt = 6 then
    s.forAll (List.range 4) (fun s i =>
      let j := 4 * b + i
      let c := (codes.drop (32 * i)).take 32
      (s.pokeBytes (base + j / 64 * 1088 + j % 64) (leBytes 1 (scales.getD i 0))).pokeBytes (base + j / 64 * 1088 + 64 + 16 * (j % 64))
        ((List.range 16).flatMap (fun k => leBytes 1 (c.getD (2 * k) 0 % 16 + 16 * (c.getD (2 * k + 1) 0 % 16)))))
  else s.collPut fmt false base b (leBytes 1 (scales.getD 0 0) ++ codes.flatMap (leBytes 1))

/-- The elements of block `b` that lie in the wire layout at an address, widened, with what the reading counts (R51, R402, R407). -/
def State.wireElems (s : State) (fmt base b : Nat) : List (F32 × Ev) :=
  let w := s.wireRead fmt base b
  if fmt = 6 then w.2.zipIdx.map (fun c => readWiden 6 (w.1.getD (c.2 / 32) 0) c.1) else w.2.map (widenScaled fmt (w.1.getD 0 0))

/-- The words of block `b` that lie in the wire layout at an address. -/
def State.wireWords (s : State) (fmt base b : Nat) : List F32 := (s.wireElems fmt base b).map Prod.fst

/-- What reading block `b` of the wire layout at an address counts. -/
def State.wireEvs (s : State) (fmt base b : Nat) : List Ev := (s.wireElems fmt base b).map Prod.snd

/-- The padding of the last group of `n` blocks in the wire layout (R36, R38, R395). -/
def State.wirePad (s : State) (fmt base n : Nat) : State :=
  if fmt = 6 then s.forAll (List.range (ceilDiv n 16 * 16 - n)) (fun s i =>
    s.wireWrite fmt base (n + i) (List.replicate 4 0x7F) (List.replicate 128 0))
  else s

/-- Whether any block scale of `n` blocks at an address is 0xFF (R406). -/
def State.wireBad (s : State) (fmt base n : Nat) : Bool := (List.range n).any (fun b => (s.wireRead fmt base b).1.contains 0xFF)

/-! ### FED_RECORD (R393) -/

/-- Whether parents lead from every member to the root. -/
def FedP.reaches (ms : List FedMember) : Nat → Nat → Bool
  | 0, _ => false
  | fuel + 1, i => match ms[i]? with
    | some m => m.parent == 255 || FedP.reaches ms fuel m.parent
    | none => false

/-- FED_RECORD. -/
def checksFedRecord (s : State) (p : FedP) : List Check :=
  let op := 0x0600
  let o := fieldOff op
  let n := p.members.length
  let unit := fun (w : F32) => f32NonNeg w && (f32Val w).le (f32Val oneF32)
  let off := fun (j i : Nat) => itemOff op 0 n j i
  let own := s.place.islandId
  [ckZero (n != 0) (o 0), ckValue (n ≤ 16) (o 0), ckZero (p.h != 0) (o 1), ckValue (p.h ≤ 65535) (o 1), ckValue (p.s ≤ 4) (o 2),
   ckValue (unit p.w1) (o 3), ckValue (unit p.w2) (o 4), ckValue (unit p.w3) (o 5), ckValue (unit p.w4) (o 6),
   ckZero (p.div != 0) (o 7), ckValue (p.div ≤ 16) (o 7), ckValue (p.policy ≤ 1) (o 8),
   ckZero (p.policy != 1 || p.nhold != 0) (o 9), ckValue (p.nhold ≤ 255 && (p.policy == 1 || p.nhold == 0)) (o 9),
   ckZero (p.rejoin != 0) (o 10), ckValue (p.rejoin ≤ 65535) (o 10), ckValue (p.join ≤ 1) (o 11),
   ckValue (p.members.any (fun m => m.island == own)) (off 0 0), ckValue ((p.members.filter (fun m => m.parent == 255)).length == 1) (off 0 1),
   ckState ((List.range 64).all (fun f => (s.fld f).groups.all (fun g => g.2.outer.isNone))) stState 0]
  ++ p.members.zipIdx.flatMap (fun m =>
    [{ order := 10, ok := m.1.island ≤ 15 && !((p.members.take m.2).any (fun x => x.island == m.1.island)), status := stValue, off := off m.2 0,
       didx := m.2 },
     { order := 10, ok := (m.1.parent == 255 || m.1.parent < n) && FedP.reaches p.members (n + 1) m.2, status := stValue, off := off m.2 1,
       didx := m.2 },
     { order := 10, ok := m.1.keeper ≤ 1023, status := stValue, off := off m.2 2, didx := m.2 },
     { order := 11, ok := m.1.island == own || s.outer.routes.any (fun r => r.island == m.1.island), status := stTarget, off := off m.2 0,
       didx := m.2 }])

/-- FED_RECORD: the record stands; ρ and CSTEP start at 0 (R396). The island's state stays what its keeper says; at the keeper it leaves OFF where
another module already has an outer group (R415). -/
def startFedRecord (s : State) (uid : Nat) (p : FedP) : State :=
  let s1 := s.modOuter (fun o => { o with fed := some p, rho := 0, cstep := 0, missed := 0, lastj := none32, closing := false, join := p.join == 1,
                                          source := none, rhoSrc := none, install := none, refetch := false, gathered := false, asked := [] })
  (if s.isKeeper && s.outer.state = 0 && !s.outer.regs.isEmpty then s1.keeperState (if s1.lit.isEmpty then 3 else 2) else s1).finish uid stDone []

/-! ### OUTER_REG and OUTER_REMOVE (R394, R511) -/

/-- The outer planes of a registered group as a range of its stack. -/
def State.outRange (s : State) (g : GroupP) (p : OuterP) : Nat × Nat :=
  (p.opbase, planeEnd p.opbase (outerSizes p.dfmt (s.shardBlocks g)))

/-- OUTER_REG. -/
def checksOuterReg (s : State) (part : Nat) (p : OuterP) : List Check :=
  let o := fieldOff 0x0601
  let clash := fun (g : Group) => (s.fld p.field).groups.any (fun x => x.1 != p.gid &&
    ((x.2.p.stackRanges (s.ownBlocks x.2.p).2).any (rangesMeet (s.outRange g.p p)) || (match x.2.outer with
      | some y => rangesMeet (s.outRange g.p p) (s.outRange x.2.p y.p)
      | none => false)))
  ckGroup s part 0x0601 ⟨p.field, p.gid⟩ ++
  [ckFormat ([3, 4, 6].contains p.dfmt) (o 2), ckValue (f32NonNeg p.olr) (o 3), ckValue (f32Decay p.omom) (o 4), ckAlign (p.opbase % 64 == 0) (o 5),
   ckState s.outer.fed.isSome stState 0]
  ++ (match s.group p.field p.gid with
    | some g =>
      let r := s.outRange g.p p
      [ckValue (g.p.tier.home != 1) (o 1), ckState g.outer.isNone stAlready (o 1),
       ckTarget (s.stackRange p.field r.1 (r.2 - r.1) && !clash g) (o 5)]
    | none => [])

/-- OUTER_REG: tb and tm take the master of bank BANK in both banks, mo and res are +0 (R394). The first group of the island takes it out of OFF,
which its keeper does and floods (R415). -/
def startOuterReg (s : State) (uid : Nat) (p : OuterP) : State :=
  match s.group p.field p.gid with
  | none => s.finish uid stTarget []
  | some g =>
    let n := s.shardBlocks g.p
    let m := s.peekBytes (s.masterAddr g.p g.bank 0) (512 * n)
    let s1 := s.forAll [0, 1, 2, 3] (fun s i => s.pokeBytes (s.outAddr g.p p i) m)
    let s2 := s1.forAll [(4, 512), (5, 512), (6, 256), (7, 256)] (fun s i => s.zeroRange (s.outAddr g.p p i.1) (i.2 * n))
    let s3 := s2.modGroup p.field p.gid (fun x => { x with outer := some { p := p } })
    (if s.outerGroups.isEmpty then s3.sayGroups true else s3).finish uid stDone []

/-- OUTER_REMOVE. -/
def checksOuterRemove (s : State) (part : Nat) (p : FieldGid) : List Check :=
  ckGroup s part 0x0602 p ++ [ckTarget ((s.group p.field p.gid).all (fun g => g.outer.isSome)) (fieldOff 0x0602 1)]

/-- OUTER_REMOVE acts at the next COMMIT, where the command completes. -/
def startOuterRemove (s : State) (uid : Nat) (p : FieldGid) : State :=
  s.modOut p.field p.gid (fun x => { x with removing := some uid })

/-! ### Landing (R404 to R406) -/

/-- The outer group of a key at this module, when NELEM fits. -/
def State.keyGroup (s : State) (item : Nat) (nelem : Option Nat) : Option (Nat × Nat × Group × OuterGroup) :=
  let f := keyField item
  let gid := keyGid item
  if item % 1024 != s.place.moduleId || 2 ^ 24 ≤ item then none
  else match s.group f gid with
    | some g => match g.outer with
      | some o => if nelem.all (fun n => n == 128 * s.shardBlocks g.p) then some (f, gid, g, o) else none
      | none => none
    | none => none

/-- The bit of the member island that delivered a transfer (R402). -/
def State.senderBit (s : State) (x : Xfer) : Nat :=
  match s.outer.fed.bind (fun r => r.members.findIdx? (fun m => m.island == x.srcIsland)) with
  | some i => 2 ^ i
  | none => 0

/-- A landing slot that is free now and stays free in the step. -/
def OuterGroup.freeLanding (o : OuterGroup) : Option Nat :=
  (List.range 8).find? (fun i => (smapFind o.landing i).isNone && (smapFind o.pend.fillLand i).isNone)

/-- A delivered UP or DOWN transfer goes into a free landing slot, or waits (R406); one that names no group is discarded (R404). -/
def State.landXfer (s : State) (x : Xfer) : State :=
  match s.keyGroup x.item (some (bytesAt x.payload 4 4)) with
  | none => s.discardXfer x
  | some (f, gid, g, o) =>
    match o.freeLanding with
    | none => s.modOut f gid (fun y => { y with waiting := y.waiting ++ [x] })
    | some i =>
      let mask := bytesAt x.payload 0 2
      let late := s.bcn.begun && (smapGet 0 s.bcn.fieldReached f).testBit 28
      let l : Landing := { up := x.typ == 0, round := x.round, base := x.base, mask := mask, catchup := (x.payload.getD 2 0).toNat.testBit 0,
                           late := late }
      let s1 := s.pokeBytes (s.outAddr g.p o.p (12 + i)) (padTo (64 + wireLen o.p.dfmt (s.shardBlocks g.p)) x.payload)
      s1.modOut f gid (fun y => { y with landing := smapSet y.landing i l,
                                         heard := if x.typ = 0 then smapModify 0 y.heard x.round (fun m => Nat.lor m (s.senderBit x)) else y.heard })

/-- Transfers that waited for a landing slot of a group take the slots that a COMMIT has freed, in the order in which they came (R406). -/
def State.landWaiting (s : State) (f gid : Nat) : State :=
  match (s.group f gid).bind (fun g => g.outer) with
  | some o =>
    ((s.modOut f gid (fun y => { y with waiting := [] })).forAll o.waiting (fun s x => s.landXfer x)).modOut f gid (fun y =>
      { y with landing := y.landing.map (fun l => (l.1, { l.2 with late := false })) })
  | none => s

/-- UP_TRANSFER_DELIVERED. A transfer for another island is relayed (R383). -/
def doUpTransferDelivered (x : Xfer) (s : State) : Host.Outcome State Fault Refusal :=
  if x.dstIsland != s.place.islandId then .next (s.relayXfer x)
  else if x.typ = 0 then .next (s.landXfer x) else .next s

/-- DOWN_TRANSFER_DELIVERED. -/
def doDownTransferDelivered (x : Xfer) (s : State) : Host.Outcome State Fault Refusal :=
  if x.dstIsland != s.place.islandId then .next (s.relayXfer x)
  else if x.typ = 1 then .next (s.landXfer x) else .next s

/-! ### Fetches (R413) -/

/-- FETCH_DATA for a request: tb and mo of the committed bank. -/
def State.fetchReply (s : State) (g : Group) (o : OuterGroup) (x : Xfer) : Xfer :=
  let n := s.shardBlocks g.p
  { typ := 4, srcIsland := s.place.islandId, dstIsland := x.srcIsland, fmt := 0, round := 0, base := o.base, item := x.item,
    srcModule := s.place.moduleId, attempt := 0,
    payload := outerHeader 0 false (128 * n) s.outer.rho 0 0 0 ++ s.peekBytes (s.outAddr g.p o.p g.bank) (512 * n)
      ++ s.peekBytes (s.outAddr g.p o.p (4 + g.bank)) (512 * n) }

/-- FETCH_REQ_RX: the reply leaves after the COMMIT of the step in progress; a JOINING island cuts the request (R400, R413, R417). -/
def execFetchReqRx (x : Xfer) (s : State) : Host.Outcome State Fault Refusal :=
  if x.dstIsland != s.place.islandId then .next (s.relayXfer x)
  else if x.typ != 3 then .next s
  else match s.keyGroup x.item none with
    | none => .next (s.discardXfer x)
    | some (f, gid, g, o) =>
      if s.outer.state = 1 then .next (s.emit (.cut x.srcIsland x.srcModule x))
      else if s.bcn.begun then .next (s.modOut f gid (fun y => { y with reqs := y.reqs ++ [x] }))
      else .next (s.sendXfer (s.fetchReply g o x))

/-- FETCH_DATA_RX: the reply is held for the installation (R413). -/
def execFetchDataRx (x : Xfer) (s : State) : Host.Outcome State Fault Refusal :=
  if x.dstIsland != s.place.islandId then .next (s.relayXfer x)
  else if x.typ != 4 then .next s
  else match s.keyGroup x.item (some (bytesAt x.payload 4 4)) with
    | none => .next (s.discardXfer x)
    | some (f, gid, _, _) =>
      if s.outer.state != 1 || s.outer.source != some x.srcIsland || s.outer.install.isSome then .next s
      else .next (s.modOut f gid (fun y => { y with fetched := some (x.payload.drop 64) })).checkGathered

/-! ### Masters of other ranks (R409) -/

/-- A master of another rank has come in the step. -/
def OuterGroup.heardFrom (o : OuterGroup) (shard : Nat) : OuterGroup := { o with pend := { o.pend with come := o.pend.come ++ [shard] } }

/-- OUTER_MASTER_RECEIVE: written after the group's own inner sweep. -/
def execOuterMasterReceive (field : Fin 64) (gid : Nat) (shard : Nat) (data : List Byte) (s : State) : Host.Outcome State Fault Refusal :=
  match s.group field gid with
  | none => .next s
  | some g =>
    match g.outer with
    | none => .next s
    | some _ =>
      if g.p.cons != 0 || g.p.r ≤ shard || shard = s.rankOf g.p || !s.bcn.begun then .next s
      else
        let s1 := s.modOut field gid (fun o => o.heardFrom shard)
        if g.updated then .next (s1.putShard g shard data)
        else .next (s1.modOut field gid (fun o => { o with early := smapSet o.early shard data }))

/-- A changed own shard goes to every other member under MIRROR; another field of this module that is one awaits it before it reaches
OUTER_APPLY. -/
def State.sendMasters (s : State) (g : Group) : State :=
  if g.p.cons != 0 then s
  else
    let j := s.rankOf g.p
    let bytes := s.peekBytes (s.masterAddr g.p (1 - g.bank) 0) (512 * s.shardBlocks g.p)
    let others := s.otherMembers g.p
    (s.forAll others (fun s m => s.toMember g.p m 5 j s.bcn.step bytes)).forAll (others.filter (fun m => m.1 == s.place.moduleId)) (fun s m =>
      s.modOut m.2 g.p.gid (fun o => { o with pend := { o.pend with owed := o.pend.owed ++ [j] } }))

/-- Whether every master that is known to have been sent to a group in the step has come: those of other fields of this module, and in an
installation step those of every rank. Whether a rank elsewhere has changed its master in another step is not known here (assumption 133). -/
def State.mastersIn (s : State) (g : Group) (o : OuterGroup) : Bool :=
  let ranks := (List.range g.p.r).filter (fun j => j != s.rankOf g.p && g.p.shardLen j != 0)
  o.early.isEmpty && o.pend.owed.all o.pend.come.contains
    && (s.outer.install.isNone || g.p.cons != 0 || ranks.all o.pend.come.contains)

/-! ### Apply (R406, R407, R413) -/

/-- w(s) of the record: w(0) is 1.0. -/
def FedP.weight (r : FedP) (k : Nat) : F32 :=
  match k with | 0 => oneF32 | 1 => r.w1 | 2 => r.w2 | 3 => r.w3 | _ => r.w4

/-- This island's member index. -/
def State.memberIdx (s : State) (r : FedP) : Nat := (r.members.findIdx? (fun m => m.island == s.place.islandId)).getD 0

/-- The lowest bit of a mask. -/
def lowestBit (m : Nat) : Nat := ((List.range 16).find? (fun i => m.testBit i)).getD 16

/-- The landed aggregates in the order of R407: ascending round, then lowest mask bit. -/
def OuterGroup.landedInOrder (o : OuterGroup) : List (Nat × Landing) :=
  (o.landing.filter (fun l => !l.2.up && !l.2.late)).mergeSort (fun a b =>
    decide (a.2.round < b.2.round) || (a.2.round == b.2.round && lowestBit a.2.mask ≤ lowestBit b.2.mask))

/-- An accepted aggregate: landing slot, round, mask and weight. -/
structure Accepted where
  slot : Nat
  round : Nat
  mask : Nat
  weight : F32
  deriving DecidableEq, Repr

/-- The decisions of R406 in order: accepted ones, landing slots to free, and which sticky bits are set (DUP, NONFIN, STALE). -/
structure Decided where
  taken : List Accepted := []
  free : List Nat := []
  dup : Bool := false
  bad : Bool := false
  stale : Bool := false
  deriving DecidableEq, Repr

/-- One decision; a MASK accepted earlier in the same OUTER_APPLY counts as applied (assumption 33). -/
def State.decideOne (s : State) (r : FedP) (g : Group) (o : OuterGroup) (d : Decided) (l : Nat × Landing) : Decided :=
  let rho := s.outer.rho
  let x := l.2
  let done := (d.taken.filter (fun a => a.round == x.round)).foldl (fun m a => Nat.lor m a.mask) (smapGet 0 o.masks x.round)
  if Nat.land done x.mask != 0 then { d with free := d.free ++ [l.1], dup := true }
  else if s.wireBad o.p.dfmt (s.outAddr g.p o.p (12 + l.1) + 64) (s.shardBlocks g.p) then { d with free := d.free ++ [l.1], bad := true }
  else if rho ≤ x.round then d
  else if r.s < rho - x.round - 1 then { d with free := d.free ++ [l.1], stale := true }
  else
    let k := if x.catchup then (if x.base = none32 then r.s else min (rho - x.base - 1) r.s) else rho - x.round - 1
    { d with taken := d.taken ++ [{ slot := l.1, round := x.round, mask := x.mask, weight := FedP.weight r k }], free := d.free ++ [l.1] }

/-- The new words of one element: tb, tm, mo and tl, with their inputs (R407). -/
def applyElem (p : OuterP) (inv : F32) (vs : List (F32 × F32)) (ds tb tm mo tl : F32) : UV × UV × UV × UV :=
  let a := vs.foldl (fun a v => uAdd a (uMul (uv v.1) (uv v.2))) (uv 0)
  let aa := uMul a (uv inv)
  let mo1 := uAdd (uMul (uv p.omom) (uv mo)) aa
  let tn := uAdd (uv tb) (uMul (uv p.olr) (uAdd aa (uMul (uv p.omom) mo1)))
  let c := uSub (uSub tn (uv tb)) (uv ds)
  (tn, uAdd (uv tm) c, mo1, uAdd (uv tl) c)

/-- Stores words of an outer plane and counts them. -/
def State.putOuter (s : State) (g : Group) (a : Nat) (ins : List (List F32)) (ws : List UV) : State :=
  (s.pokeF32s a (ws.map Prod.fst)).fieldMeter g.p.field (fun m =>
    m.vector (fieldLocus s.stepNow g.p.htag 0 6) 0 (ws.zipIdx.map (fun w => uvCls (ins.map (fun i => i.getD w.2 0)) w.1)) [])

/-- The apply sweep over one block. -/
def State.applyBlock (s : State) (r : FedP) (g : Group) (o : OuterGroup) (taken : List Accepted) (own : List Nat) (b : Nat) : State :=
  let bank := 1 - g.bank
  let vals := taken.map (fun a => (a.weight, s.wireWords o.p.dfmt (s.outAddr g.p o.p (12 + a.slot) + 64) b))
  let ma := s.masterAddr g.p bank b
  let raw := own.map (fun k => s.outF32s g.p o.p (8 + k) b) ++
    [s.outF32s g.p o.p bank b, s.outF32s g.p o.p (2 + bank) b, s.outF32s g.p o.p (4 + bank) b, s.peekF32s ma 128]
  let dels := own.map (fun k => operands (s.outF32s g.p o.p (8 + k) b))
  let tb := operands (s.outF32s g.p o.p bank b)
  let tm := operands (s.outF32s g.p o.p (2 + bank) b)
  let mo := operands (s.outF32s g.p o.p (4 + bank) b)
  let tl := operands (s.peekF32s ma 128)
  let inv := fDiv oneF32 (f32OfNat r.div)
  let rs := (List.range 128).map (fun e =>
    applyElem o.p inv (vals.map (fun v => (v.1, v.2.getD e 0))) (runSum (dels.map (fun d => d.getD e 0))) (tb.getD e 0) (tm.getD e 0)
      (mo.getD e 0) (tl.getD e 0))
  let ins := vals.map Prod.snd ++ [tb, tm, mo, tl]
  let sc := s.countEvs g.p (taken.flatMap (fun a => s.wireEvs o.p.dfmt (s.outAddr g.p o.p (12 + a.slot) + 64) b))
  ((((sc.countReads g.p (flushesOf raw.flatten)).putOuter g (s.outAddr g.p o.p bank + 512 * b) ins (rs.map (fun x => x.1))).putOuter g (s.outAddr g.p o.p (2 + bank) + 512 * b) ins
    (rs.map (fun x => x.2.1))).putOuter g (s.outAddr g.p o.p (4 + bank) + 512 * b) ins (rs.map (fun x => x.2.2.1))).putOuter g ma ins
    (rs.map (fun x => x.2.2.2))

/-- The banked planes carry over into the bank other than BANK, which the sweeps of the step then change (R395; assumption 32). -/
def State.carryOuter (s : State) (g : Group) (o : OuterGroup) : State :=
  let n := s.shardBlocks g.p
  s.forAll [(0, 512), (2, 512), (4, 512), (6, 256)] (fun s i =>
    s.pokeBytes (s.outAddr g.p o.p (i.1 + (1 - g.bank))) (s.peekBytes (s.outAddr g.p o.p (i.1 + g.bank)) (i.2 * n)))

/-- The installation of fetched state (R413). -/
def State.installOuter (s : State) (g : Group) (o : OuterGroup) (data : List Byte) : State :=
  let n := s.shardBlocks g.p
  let bank := 1 - g.bank
  let tb := padTo (512 * n) data
  let s1 := s.forAll [s.masterAddr g.p bank 0, s.outAddr g.p o.p bank, s.outAddr g.p o.p (2 + bank)] (fun s a => s.pokeBytes a tb)
  ((s1.pokeBytes (s.outAddr g.p o.p (4 + bank)) (padTo (512 * n) (data.drop (512 * n)))).zeroRange (s.outAddr g.p o.p (6 + bank)) (256 * n)).sendMasters g

/-! ### Forwarding (R401 to R404) -/

/-- The nearest ancestor of a member that is not DARK here, as a member index (R401). -/
def State.effParent (s : State) (r : FedP) : Nat → Nat → Option Nat
  | 0, _ => none
  | fuel + 1, i =>
    match r.members[i]? with
    | some m =>
      if m.parent = 255 then none
      else match r.members[m.parent]? with
        | some q => if s.outer.isDark q.island then State.effParent s r fuel m.parent else some m.parent
        | none => none
    | none => none

/-- An item on its way: round, BASE, mask, CATCHUP, and its bytes after the outer header. -/
structure OuterItem where
  round : Nat
  base : Nat
  mask : Nat
  catchup : Bool
  data : List Byte
  deriving DecidableEq, Repr

/-- A transfer of an item to an island. -/
def State.itemXfer (s : State) (g : Group) (o : OuterGroup) (x : OuterItem) (typ island : Nat) : Xfer :=
  { typ := typ, srcIsland := s.place.islandId, dstIsland := island, fmt := o.p.dfmt, round := x.round, base := x.base,
    item := s.keyOf g.p.field g.p.gid, srcModule := s.place.moduleId, attempt := 0,
    payload := outerHeader x.mask x.catchup (128 * s.shardBlocks g.p) 0 0 0 0 ++ x.data }

/-- An item goes UP to the effective parent, or, from an owner acting as a root, DOWN to every member not DARK and into a landing slot of its
own (R403). -/
def State.forwardItem (s : State) (r : FedP) (g : Group) (x : OuterItem) : State :=
  let f := g.p.field
  let gid := g.p.gid
  match (s.group f gid).bind (fun y => y.outer) with
  | none => s
  | some o =>
    match s.effParent r (r.members.length + 1) (s.memberIdx r) with
    | some q =>
      let t := s.itemXfer g o x 0 ((r.members.map (fun m => m.island)).getD q 0)
      s.modOut f gid (fun y => { y with pend := { y.pend with sends := y.pend.sends ++ [t] } })
    | none =>
      let d := if x.catchup then x else { x with base := o.pend.base.getD o.base }
      let ts := s.lit.map (fun i => s.itemXfer g o d 1 i)
      match o.freeLanding with
      | none => s
      | some i =>
        let l : Landing := { up := false, round := d.round, base := d.base, mask := d.mask, catchup := d.catchup, late := false }
        let t := s.itemXfer g o d 1 s.place.islandId
        (s.pokeBytes (s.outAddr g.p o.p (12 + i)) t.payload).modOut f gid (fun y =>
          { y with pend := { y.pend with sends := y.pend.sends ++ ts, fillLand := smapSet y.pend.fillLand i l } })

/-- How many items an owner can forward now: one that acts as a root needs a free landing slot for each (R403). -/
def State.forwardRoom (s : State) (r : FedP) (o : OuterGroup) : Nat :=
  if (s.effParent r (r.members.length + 1) (s.memberIdx r)).isSome then 16
  else ((List.range 8).filter (fun i => (smapFind o.landing i).isNone && (smapFind o.pend.fillLand i).isNone)).length

/-- Whether the owner can forward one more item. -/
def State.canForward (s : State) (r : FedP) (o : OuterGroup) : Bool := s.forwardRoom r o != 0

/-- The UP items of a round in landing slots. -/
def OuterGroup.upItems (o : OuterGroup) (round : Nat) : List (Nat × Landing) :=
  o.landing.filter (fun l => l.2.up && l.2.round == round && !o.pend.freeLand.contains l.1)

/-- The own contribution to a round that has not been sent: slot and record. -/
def OuterGroup.ownItem (o : OuterGroup) (round : Nat) : Option (Nat × OutRound) :=
  ((o.slots.filter (fun k => !o.pend.freeSlot.contains k.1)) ++ o.pend.fillSlot).find? (fun k =>
    k.2.round == round && !k.2.sent && !o.pend.sentSlots.contains k.1)

/-- Whether a round's items are to be forwarded now (R402): not while JOINING, whose items go at the installation (R413, R415). -/
def State.roundReady (s : State) (r : FedP) (o : OuterGroup) (round : Nat) : Bool :=
  let closed := s.outer.rho + b2n s.outer.closing
  let me := s.memberIdx r
  let kids := (r.members.zipIdx).filter (fun m => m.1.parent == me && !s.outer.isDark m.1.island)
  let heard := smapGet 0 o.heard round
  ((o.ownItem round).isSome || !(o.upItems round).isEmpty) && s.outer.state != 1 && !o.pend.installed && decide (round < closed)
    && !o.pend.rounds.contains round
    && (decide (round + 1 < closed) || kids.all (fun m => heard.testBit m.2)) && s.canForward r o

/-- The rounds that an owner may have items of. -/
def OuterGroup.itemRounds (o : OuterGroup) : List Nat :=
  ((o.slots.map (fun k => k.2.round)) ++ o.pend.fillSlot.map (fun k => k.2.round) ++ (o.landing.filter (fun l => l.2.up)).map (fun l => l.2.round)).eraseDups

/-- An item that an owner holds of a round: where its bytes lie, and the slot of the own contribution or the landing slot that it leaves. -/
structure ItemSrc where
  addr : Nat
  mask : Nat
  catchup : Bool
  base : Nat
  slot : Option Nat := none
  land : Option Nat := none
  deriving DecidableEq, Repr

/-- The combine sweep over one block: the quantised sum, the error joining the residual (R402). -/
def State.combineBlock (s : State) (g : Group) (o : OuterGroup) (addrs : List Nat) (b : Nat) : State × WireBlock :=
  let bank := 1 - g.bank
  let vs := addrs.map (fun a => s.wireWords o.p.dfmt a b)
  let sums := (List.range 128).map (fun e => uRunSum (vs.map (fun x => uv (x.getD e 0))))
  let v := sums.map (fun u => u.1)
  let cls := (List.range 128).map (fun e => uvCls (vs.map (fun x => x.getD e 0)) (sums.getD e (uv 0)))
  let q := wireQuant o.p.dfmt v
  let res := s.outRes g.p o.p (6 + bank) b
  let new := (List.range 128).map (fun e =>
    roundRes ((f32Val (res.getD e (0, {})).1).add (f32Val (roundF32 ((f32Val (v.getD e 0)).sub (q.vals.getD e (Val.zero false)))))))
  let s1 := s.countEvs g.p (addrs.flatMap (fun a => s.wireEvs o.p.dfmt a b) ++ res.map Prod.snd)
  let s2 := s1.pokeBytes (s.outAddr g.p o.p (6 + bank) + 256 * b) (new.flatMap (fun r => leBytes 2 r.1))
  ((s2.countResults g.p o.p.dfmt cls q.evs).countConv g.p 1 (new.map Prod.snd), q)

/-- Quantised blocks as bytes of the wire layout. -/
def wireBytes (fmt : Nat) (qs : List WireBlock) : List Byte :=
  let base : State := {}
  let s := (base.wirePad fmt (2 ^ 43) qs.length).forAll qs.zipIdx (fun s q => s.wireWrite fmt (2 ^ 43) q.2 q.1.scales q.1.codes)
  memReadBytes s.mem (2 ^ 43) (wireLen fmt qs.length)

/-- OUTER_COMBINE_SWEEP: the items of a round are forwarded: each CATCHUP item alone, then those without CATCHUP as one (R402 to R404). Items
that a root has no landing slot for stay for a later OUTER_APPLY (R403). -/
def State.combineRound (s : State) (r : FedP) (g : Group) (o : OuterGroup) (round : Nat) : State :=
  let f := g.p.field
  let gid := g.p.gid
  let n := s.shardBlocks g.p
  let len := wireLen o.p.dfmt n
  let mine : List ItemSrc := match o.ownItem round with
    | some k => [{ addr := s.outAddr g.p o.p (10 + k.1), mask := 2 ^ s.memberIdx r, catchup := k.2.catchup, base := k.2.base, slot := some k.1 }]
    | none => []
  let ups : List ItemSrc := (o.upItems round).map (fun l =>
    { addr := s.outAddr g.p o.p (12 + l.1) + 64, mask := l.2.mask, catchup := l.2.catchup, base := l.2.base, land := some l.1 })
  let items := (mine ++ ups).mergeSort (fun a b => lowestBit a.mask ≤ lowestBit b.mask)
  let room := s.forwardRoom r o
  let lone := (items.filter (fun i => i.catchup)).take room
  let rest := items.filter (fun i => !i.catchup)
  let plain := if lone.length < room then rest else []
  let whole := lone ++ (if plain.length = 1 then plain else [])
  let as : List OuterItem := whole.map (fun i => { round := round, base := i.base, mask := i.mask, catchup := i.catchup, data := s.peekBytes i.addr len })
  let merged := if 2 ≤ plain.length then
      (List.range n).foldl (fun (acc : State × List WireBlock) b =>
        let x := acc.1.combineBlock g o (plain.map (fun i => i.addr)) b
        (x.1, acc.2 ++ [x.2])) (s, [])
    else (s, [])
  let all := as ++ (if 2 ≤ plain.length then
    [{ round := round, base := o.pend.base.getD o.base, mask := plain.foldl (fun m i => Nat.lor m i.mask) 0, catchup := false,
       data := wireBytes o.p.dfmt merged.2 }] else [])
  let s1 := all.foldl (fun s x => s.forwardItem r g x) merged.1
  s1.modOut f gid (fun y => { y with pend := { y.pend with
    rounds := y.pend.rounds ++ [round], freeLand := y.pend.freeLand ++ (lone ++ plain).filterMap (fun i => i.land),
    sentSlots := y.pend.sentSlots ++ (lone ++ plain).filterMap (fun i => i.slot) } })

/-! ### The sweeps (R397) -/

/-- Whether a group runs outer sweeps now: REDUCE_DONE is delivered, its own sweeps are done, and BANK will flip. -/
def State.outerRuns (s : State) (f gid : Nat) : Option (FedP × Group × OuterGroup) :=
  match s.group f gid, s.outer.fed with
  | some g, some r => match g.outer with
    | some o => if s.bcn.begun && s.isTrainField f && s.pastMark 28 && g.active && g.updated then some (r, g, o) else none
    | none => none
  | _, _ => none

/-- A sweep is done. -/
def State.outerRan (s : State) (f gid k : Nat) : State :=
  s.modOut f gid (fun y => { y with pend := { y.pend with ran := y.pend.ran ++ [k] } })

/-- OUTER_APPLY_SWEEP: landed aggregates are decided and the accepted ones applied; a fetched state is installed instead; items whose UP
transfer was cut go again (R406, R407, R413, R417). In JOINING what has landed stays for the installation, which discards it (R415, R417). -/
def doOuterApplySweep (field : Fin 64) (gid : Nat) (s : State) : Host.Outcome State Fault Refusal :=
  match s.outerRuns field gid with
  | none => .next s
  | some (r, g, o) =>
    if o.pend.ran.contains 0 then .next s
    else
      let s0 := s.carryOuter g o
      match s.outer.install, o.fetched with
      | some _, some data =>
        .next (((s0.installOuter g o data).modOut field gid (fun y => { y with pend := { y.pend with installed := true } })).outerRan field gid 0)
      | _, _ =>
        if s.outer.state = 1 then .next (s0.outerRan field gid 0) else
        let d := o.landedInOrder.foldl (s.decideOne r g o) {}
        let me := s.memberIdx r
        let mine := (o.slots.filter (fun k => d.taken.any (fun a => a.round == k.2.round && a.mask.testBit me))).mergeSort
          (fun a b => a.2.round ≤ b.2.round)
        let s1 := if d.taken.isEmpty then s0
          else (s0.forAll (List.range (s.shardBlocks g.p)) (fun s b => s.applyBlock r g o d.taken (mine.map Prod.fst) b)).sendMasters g
        let top := (d.taken.map (fun a => a.round)).foldl max 0
        let joined := (d.taken.filter (fun a => a.mask != 2 ^ me)).map (fun a => a.round)
        let s2 := s1.modOut field gid (fun y =>
          { y with dupSeen := y.dupSeen || d.dup, nonfin := y.nonfin || d.bad, staleSeen := y.staleSeen || d.stale,
                   pend := { y.pend with
                     freeLand := d.free, freeSlot := mine.map Prod.fst, masks := d.taken.map (fun a => (a.round, a.mask)),
                     base := if d.taken.isEmpty then none else some (if y.base = none32 then top else max y.base top),
                     lastj := if joined.isEmpty then none
                       else some (if y.lastj = none32 then joined.foldl max 0 else max y.lastj (joined.foldl max 0)),
                     applied := d.taken.length } })
        let s3 := s2.forAll o.again.zipIdx (fun s x => match (s.group field gid).bind (fun y => y.outer) with
          | some y =>
            if s.canForward r y && y.pend.again == x.2 then
              (s.forwardItem r g { round := x.1.round, base := x.1.base, mask := bytesAt x.1.payload 0 2,
                                   catchup := (x.1.payload.getD 2 0).toNat.testBit 0, data := x.1.payload.drop 64 }).modOut field gid
                (fun y => { y with pend := { y.pend with again := y.pend.again + 1 } })
            else s
          | none => s)
        .next (s3.outerRan field gid 0)

/-- OUTER_FOLD_SWEEP: in a closing step, own rounds older than S return to the progress that is not sent (R408); none in JOINING, whose
installation empties the slots (R413, R415). -/
def doOuterFoldSweep (field : Fin 64) (gid : Nat) (s : State) : Host.Outcome State Fault Refusal :=
  match s.outerRuns field gid with
  | none => .next s
  | some (r, g, o) =>
    if !s.outer.closing || !o.pend.ran.contains 0 || o.pend.ran.contains 1 then .next s
    else
      let bank := 1 - g.bank
      let ks := o.slots.filter (fun k => s.outer.state != 1 && !o.pend.installed && r.s < s.outer.rho - k.2.round && !o.pend.freeSlot.contains k.1)
      let s1 := s.forAll ks (fun s k => s.forAll (List.range (s.shardBlocks g.p)) (fun s b =>
        let d := operands (s.outF32s g.p o.p (8 + k.1) b)
        let q := s.wireWords o.p.dfmt (s.outAddr g.p o.p (10 + k.1)) b
        let tm := operands (s.outF32s g.p o.p (2 + bank) b)
        let n := flushesOf (s.outF32s g.p o.p (8 + k.1) b ++ s.outF32s g.p o.p (2 + bank) b)
        let res := s.outRes g.p o.p (6 + bank) b
        let new := (List.range 128).map (fun e =>
          roundRes ((f32Val (res.getD e (0, {})).1).add (f32Val (fSub (q.getD e 0) (d.getD e 0)))))
        let sc := s.countEvs g.p (s.wireEvs o.p.dfmt (s.outAddr g.p o.p (10 + k.1)) b ++ res.map Prod.snd)
        (((sc.countReads g.p n).countConv g.p 1 (new.map Prod.snd)).putOuter g (s.outAddr g.p o.p (2 + bank) + 512 * b) [tm, d] ((tm.zip d).map (fun x => uSub (uv x.1) (uv x.2)))).pokeBytes
          (s.outAddr g.p o.p (6 + bank) + 256 * b) (new.flatMap (fun r => leBytes 2 r.1))))
      .next ((s1.modOut field gid (fun y =>
        { y with foldSeen := y.foldSeen || !ks.isEmpty,
                 pend := { y.pend with freeSlot := y.pend.freeSlot ++ ks.map Prod.fst, folds := ks.length } })).outerRan field gid 1)

/-- One block of the close: d, the quantised x, and the new residuals; none when an x is not finite (R398). -/
def State.closeBlock (s : State) (g : Group) (o : OuterGroup) (b : Nat) : Option (List UV × WireBlock × List (Nat × Ev) × List F32) :=
  let bank := 1 - g.bank
  let tl := s.peekF32s (s.masterAddr g.p bank b) 128
  let tm := s.outF32s g.p o.p (2 + bank) b
  let res := s.outRes g.p o.p (6 + bank) b
  let d := ((operands tl).zip (operands tm)).map (fun x => uSub (uv x.1) (uv x.2))
  let x := (d.zip res).map (fun y => fAdd y.1.1 y.2.1)
  if x.any (fun w => !f32IsFin w) then none
  else
    let q := wireQuant o.p.dfmt x
    some (d, q, (x.zip q.vals).map (fun y => roundRes ((f32Val y.1).sub y.2)), tl)

/-- The close of the round is reached here: the state in which the island meets it decides whether the round is missed (R410). -/
def State.closeReached (s : State) : State :=
  if s.outer.closing && s.outer.closeIn.isNone then s.modOuter (fun o => { o with closeIn := some o.state }) else s

/-- OUTER_CLOSE_SWEEP: the contribution of round ρ goes into the free slot of lower number, or the close is skipped (R398, R399, R411). -/
def doOuterCloseSweep (field : Fin 64) (gid : Nat) (s : State) : Host.Outcome State Fault Refusal :=
  match s.outerRuns field gid with
  | none => .next s
  | some (_, g, o) =>
    if !s.outer.closing || !o.pend.ran.contains 1 || o.pend.ran.contains 2 then .next s
    else
      let s := s.closeReached
      let bank := 1 - g.bank
      let n := s.shardBlocks g.p
      let blocks := (List.range n).map (s.closeBlock g o)
      let bad := blocks.any (fun b => b.isNone)
      let skip := fun (s : State) => .next ((s.modOut field gid (fun y =>
        { y with pend := { y.pend with skips := y.pend.skips + 1 } })).outerRan field gid 2)
      match (List.range 2).find? (fun k => (smapFind o.slots k).isNone) with
      | none => skip s
      | some k =>
        if s.outer.state != 2 then skip s
        else if bad then
          skip ((s.modOut field gid (fun y => { y with nonfin := true })).event 9 1 (s.evPart field) field
            (leBytes 1 gid ++ [0, 0, 0] ++ leBytes 4 s.outer.rho))
        else
          let s0 := s.wirePad o.p.dfmt (s.outAddr g.p o.p (10 + k)) n
          let s1 := s0.forAll blocks.zipIdx (fun s x => match x.1 with
            | some (d, q, res, tl) =>
              let reads := (s.outRes g.p o.p (6 + bank) x.2).map Prod.snd
              let flushed := flushesOf (tl ++ s.outF32s g.p o.p (2 + bank) x.2)
              let a := ((s.countEvs g.p reads).countReads g.p flushed).pokeF32s (s.outAddr g.p o.p (8 + k) + 512 * x.2) (d.map Prod.fst)
              let a := a.wireWrite o.p.dfmt (s.outAddr g.p o.p (10 + k)) x.2 q.scales q.codes
              let a := a.pokeBytes (s.outAddr g.p o.p (6 + bank) + 256 * x.2) (res.flatMap (fun r => leBytes 2 r.1))
              let a := a.pokeF32s (s.outAddr g.p o.p (2 + bank) + 512 * x.2) tl
              (a.countConv g.p o.p.dfmt q.evs).countConv g.p 1 (res.map Prod.snd)
            | none => s)
          let rd : OutRound := { round := s.outer.rho, catchup := o.catchup, base := o.pend.base.getD o.base, sent := false }
          .next ((s1.modOut field gid (fun y => { y with pend := { y.pend with fillSlot := [(k, rd)] } })).outerRan field gid 2)

/-- OUTER_COMBINE_SWEEP: after the group's other sweeps of the step, for a round whose items are to be forwarded (R402). -/
def doOuterCombineSweep (field : Fin 64) (gid : Nat) (round : Nat) (s : State) : Host.Outcome State Fault Refusal :=
  match s.outerRuns field gid with
  | none => .next s
  | some (r, g, o) =>
    if !o.pend.ran.contains 0 || (s.outer.closing && !o.pend.ran.contains 2) || !s.roundReady r o round then .next s
    else .next (s.combineRound r g o round)

/-- Whether a field has done what OUTER_APPLY asks of it (R397, R409). -/
def State.outerFieldDone (s : State) (f : Nat) : Bool :=
  (s.fld f).groups.all (fun x => match x.2.outer, s.outer.fed with
    | some o, some r =>
      (!s.mustUpdate x.2 || (s.mastersIn x.2 o && x.2.updated && o.pend.ran.contains 0 && (!s.outer.closing || o.pend.ran.contains 2)
        && !(o.itemRounds.any (fun n => s.roundReady r o n))))
    | _, _ => true)

/-! ### The ends of a step (R396, R400, R407, R410, R413, R416) -/

/-- The closing step is known at STEP_BEGIN; a record with JOIN puts the island in JOINING, which the keeper floods; a gathering that has
not ended is said again under the new step (R345, R396, R414, R415). -/
def State.outerBegin (s : State) : State :=
  match s.outer.fed with
  | none => s
  | some r =>
    let joins := s.outer.join && s.outer.state != 0
    let s1 := s.modOuter (fun o => { o with closing := o.cstep + 1 == r.h, closeIn := none, join := o.join && !joins,
                                            state := if joins then 1 else o.state, source := if joins then none else o.source,
                                            gathered := o.gathered && o.install.isSome })
    let old := fun (x : FlareRound) => x.key == 10 && x.index == 1 && decide (x.step < s.bcn.step)
    let s2 := (if joins && s.isKeeper then s1.keeperState 1 else s1).modBcn (fun b => { b with rounds := b.rounds.filter (fun x => !old x) })
    if s2.outer.state = 1 && s2.outer.install.isNone then s2.outerReact.checkGathered else s2

/-- The island's LASTJ is formed in each DONE round as the least of the shards' (R407; assumption 28). -/
def State.outerDoneRound (s : State) : State :=
  if s.outer.fed.isNone then s
  else
    let ls := s.outerGroups.filterMap (fun k => ((s.group k.1 k.2).bind (fun g => g.outer)).map (fun o => if o.lastj = none32 then 0 else o.lastj + 1))
    s.contribute 5 10 0 s.bcn.step (leBytes 8 (2 ^ 64 - 1 - ls.foldl min (2 ^ 64 - 1)))

/-- One group at COMMIT, and what it sends. `flipped` that BANK flips in the step. -/
def OuterGroup.commit (o : OuterGroup) (rho : Nat) (closing flipped alone : Bool) (keep : Nat) (install : Option Nat) : OuterGroup :=
  let p := o.pend
  let skips := p.skips + b2n (closing && !flipped)
  let counted := { o with folds := satAdd 16 o.folds p.folds, skips := satAdd 16 o.skips skips, applied := satAdd 32 o.applied p.applied,
                          pend := {}, early := [], again := o.again.drop p.again, catchup := (o.catchup || (closing && alone)) && p.fillSlot.isEmpty }
  match install, p.installed with
  | some r, true =>
    let b := (r + 2 ^ 32 - 1) % 2 ^ 32
    { counted with slots := [], landing := [], masks := [], heard := [], base := b, lastj := b, fetched := none, again := [] }
  | _, _ =>
    let land := (o.landing.filter (fun l => !p.freeLand.contains l.1)).map (fun l => (l.1, { l.2 with late := false }))
    { counted with
      slots := p.fillSlot.foldl (fun m k => smapSet m k.1 { k.2 with sent := p.sentSlots.contains k.1 })
        ((o.slots.filter (fun k => !p.freeSlot.contains k.1)).map (fun k => (k.1, { k.2 with sent := k.2.sent || p.sentSlots.contains k.1 }))),
      landing := p.fillLand.foldl (fun m l => smapSet m l.1 l.2) land,
      masks := (p.masks.foldl (fun m x => smapModify 0 m x.1 (fun v => Nat.lor v x.2)) o.masks).filter (fun m => decide (rho ≤ m.1 + keep + 1)),
      heard := o.heard.filter (fun m => decide (rho ≤ m.1 + keep + 2)), base := p.base.getD o.base, lastj := p.lastj.getD o.lastj }

/-- The outer loop at COMMIT, before the banks flip: groups take their pending changes and their transfers leave, then the round ends. -/
def State.commitOuter (s : State) : State :=
  match s.outer.fed with
  | none => s
  | some r =>
    let x := s.outer
    let met := x.closeIn.getD x.state
    let gs := s.outerGroups
    let put := gs.all (fun k => match (s.group k.1 k.2).bind (fun g => g.outer) with | some o => o.pend.installed | none => true)
    let inst := if put then x.install else none
    let rho1 := match inst with | some v => v | none => if x.closing then (x.rho + 1) % 2 ^ 32 else x.rho
    let sends := gs.flatMap (fun k => match s.group k.1 k.2 with
      | some g => match g.outer with
        | some o => o.pend.sends ++ o.reqs.map (s.fetchReply g o)
        | none => []
      | none => [])
    let s1 := s.forAll gs (fun s k => match s.group k.1 k.2 with
      | some g => s.modOut k.1 k.2 (fun o => { o.commit rho1 x.closing g.updated (met == 3) r.s inst with reqs := [] })
      | none => s)
    let s2 := s1.modOuter (fun o => { o with
      rho := rho1, closing := false, closeIn := none, cstep := if inst.isSome || o.closing then 0 else o.cstep + 1,
      missed := if inst.isSome then 0 else if o.closing && met = 3 then satAdd 8 o.missed 1 else if o.closing && met = 2 then 0 else o.missed,
      lastj := match inst with | some v => (v + 2 ^ 32 - 1) % 2 ^ 32 | none => o.lastj,
      install := if inst.isSome then none else o.install, gathered := if inst.isSome then false else o.gathered,
      source := if inst.isSome then none else o.source, rhoSrc := if inst.isSome then none else o.rhoSrc })
    let s3 := if inst.isSome then s2.outerBecomes 2 else s2
    let s4 := s3.forAll gs (fun s k => match (s.group k.1 k.2).bind (fun g => g.outer) with
      | some o => (match o.removing with
        | some uid => (s.modGroup k.1 k.2 (fun g => { g with outer := none })).finish uid stDone []
        | none => s)
      | none => s)
    let s5 := (s4.forAll sends (fun s t => s.sendXfer t)).forAll gs (fun s k => s.landWaiting k.1 k.2)
    let s6 := if s5.outerGroups.isEmpty && !gs.isEmpty then s5.sayGroups false else s5
    if s6.isKeeper && x.closing && s6.outer.state = 3 && r.policy = 1 && r.nhold ≤ s6.outer.missed then s6.keeperState 4 else s6

end Sys2Proof.Machine
end

