-- ==== Sys2Proof/Machine/StepLine.lean ====
section
/-! DEFINITION. Machine/StepLine.lean: reaching marks, the step cycle and its deliveries, steering, step scalars, aborts, the watchdog
and site time (R335 to R360, R146 to R156, R291, R436 to R439). -/

namespace Sys2Proof.Machine

/-! ### Reaching a mark (R339, R340) -/

/-- Whether a field has reached mark `n` in the attempt; mark 0 is reached by the step's start. -/
def State.fieldAt (s : State) (f n : Nat) : Bool := n == 0 || (smapGet 0 s.bcn.fieldReached f).testBit n

/-- Whether field `f` meets every condition of mark `n` (R336, R339). -/
def State.meetsMark (s : State) (f n : Nat) : Bool :=
  let t := s.bcn.table
  markDef t n && (List.range n).all (fun k => !markDef t k || s.fieldAt f k)
    && (onesBelow 16 (markTmask t n)).all (fun i => !s.served (16 * f + i) || (s.tile (16 * f + i)).marks.testBit n)
    && (n != 28 || (s.fld f).groups.all (fun g => !g.2.active || s.isLanded g.2))
    && (n != 29 || s.outerFieldDone f)

/-- A point is delivered: the position advances, the groups whose XMARK it reaches are exchanged, and collectives that waited for it go on
(R249, R340, R425). -/
def State.deliver (s : State) (n : Nat) : State :=
  let p := markPhase s.bcn.table n
  let s1 := s.modBcn (fun b => { b with phase := p, topMark := if markIsland b.table n then n else b.topMark })
  let s2 := s1.forAll s1.trainFields (fun s f => s.forAll (s.fld f).groups (fun s g =>
    if s.pastMark g.2.p.xmark then s.exchange f g.1 else s))
  (if n = 29 then s2.closeReached else s2).reissueCollectives

/-- Whether every defined island-scope mark below `n` has been broadcast. -/
def State.islandBelow (s : State) (n : Nat) : Bool :=
  (List.range n).all (fun k => !(markDef s.bcn.table k && markIsland s.bcn.table k) || decide (markPhase s.bcn.table k ≤ s.bcn.phase))

/-- Fields, then the module, reach mark `n`; an island-scope mark is contributed, a module-scope mark is delivered when it may be. -/
def State.reachOne (s : State) (n : Nat) : State :=
  let t := s.bcn.table
  if !markDef t n then s
  else
    let fs := s.trainFields
    let s1 := s.forAll fs (fun s f => if s.fieldAt f n || !s.meetsMark f n then s
      else s.modBcn (fun b => { b with fieldReached := smapModify 0 b.fieldReached f (fun m => Nat.lor m (2 ^ n)) }))
    let s2 := if s1.bcn.reached.testBit n || !(fs.all (fun f => s1.fieldAt f n)) then s1
      else
        let a := s1.modBcn (fun b => { b with reached := Nat.lor b.reached (2 ^ n) })
        if markIsland t n then a.contribute 0 0 n a.bcn.step [] else a
    if !markIsland t n && s2.bcn.reached.testBit n && decide (s2.bcn.phase < markPhase t n) && s2.islandBelow n then s2.deliver n else s2

/-- Marks 1 to 29 in ascending order, as far as they go. -/
def State.reachMarks (s : State) : State :=
  if s.bcn.begun then s.forAll ((List.range 30).drop 1) (fun s n => s.reachOne n) else s

/-- The marks that an effect lets fields reach follow it. -/
def settle : Host.Outcome State Fault Refusal → Host.Outcome State Fault Refusal
  | .next s => .next s.reachMarks
  | o => o

/-- MARK: the tile reports the mark to its field controller (R201). -/
def execMark (u : Issuer) (h : DHdr) (n : Nat) (s : State) : Host.Outcome State Fault Refusal :=
  if (s.actEntry u { hdr := h, kind := .mark n }).isNone then .next s
  else settle (s.runUnit u h (.mark n) (fun _ s =>
    if s.isTrainField (u.tile.val / 16) then s.modTile u.tile.val (fun t => { t with marks := Nat.lor t.marks (2 ^ n) }) else s))

/-- SHARD_REDUCTION_LANDED (R249, R250). -/
def execShardReductionLanded (field : Fin 64) (gid : Nat) (data : List (Nat × List Byte)) (s : State) : Host.Outcome State Fault Refusal :=
  settle (doShardReductionLanded field gid data s)

/-- MIRROR_SHARD_LANDED (R250). -/
def execMirrorShardLanded (field : Fin 64) (gid : Nat) (shard : Nat) (data : List Byte) (s : State) : Host.Outcome State Fault Refusal :=
  settle (doMirrorShardLanded field gid shard data s)

/-- NORM_RESULT (R300, R301). -/
def execNormResult (step : Nat) (value : F32) (s : State) : Host.Outcome State Fault Refusal := settle (doNormResult step value s)

/-- UPDATE_SWEEP_DONE (R286 to R288). -/
def execUpdateSweepDone (field : Fin 64) (s : State) : Host.Outcome State Fault Refusal := settle (doUpdateSweepDone field s)

/-- OUTER_APPLY_SWEEP (R406, R407, R413). -/
def execOuterApplySweep (field : Fin 64) (gid : Nat) (s : State) : Host.Outcome State Fault Refusal := settle (doOuterApplySweep field gid s)

/-- OUTER_FOLD_SWEEP (R408). -/
def execOuterFoldSweep (field : Fin 64) (gid : Nat) (s : State) : Host.Outcome State Fault Refusal := settle (doOuterFoldSweep field gid s)

/-- OUTER_CLOSE_SWEEP (R398, R399). -/
def execOuterCloseSweep (field : Fin 64) (gid : Nat) (s : State) : Host.Outcome State Fault Refusal := settle (doOuterCloseSweep field gid s)

/-- OUTER_COMBINE_SWEEP (R402). -/
def execOuterCombineSweep (field : Fin 64) (gid : Nat) (round : Nat) (s : State) : Host.Outcome State Fault Refusal :=
  settle (doOuterCombineSweep field gid round s)

/-- UP_TRANSFER_DELIVERED (R383, R404, R406). -/
def execUpTransferDelivered (x : Xfer) (s : State) : Host.Outcome State Fault Refusal := settle (doUpTransferDelivered x s)

/-- DOWN_TRANSFER_DELIVERED (R383, R404, R406). -/
def execDownTransferDelivered (x : Xfer) (s : State) : Host.Outcome State Fault Refusal := settle (doDownTransferDelivered x s)

/-- OUTER_FLOOD_RX (R380, R401, R415). -/
def execOuterFloodRx (f : OuterFlood) (s : State) : Host.Outcome State Fault Refusal := settle (doOuterFloodRx f s)

/-! ### Numeric status (R167, R171, R174, R176) -/

/-- The bits of a tile that are due join its field's, each with its tag; FFL_VALID only while the tile's capture is still on its way. -/
def Meter.absorb (d : Meter) (due : SMap Nat) (cap : Bool) : Meter :=
  due.foldl (fun m p => if p.1 = bitFfl && (m.status.toNat.testBit bitFfl || !cap) then m else m.sticky p.1 p.2) d

/-- NSUMMARY_PROPAGATE: what is due of a tile's status reaches its field, whose armed locator takes the earliest capture on its way (R167,
R171). -/
def execNsummaryPropagate (tile : Fin 1024) (s : State) : Host.Outcome State Fault Refusal :=
  let f := tile.val / 16
  let m := (s.tile tile).meter
  if !s.served tile || m.due.isEmpty then .next s
  else
    let s1 := s.fieldMeter f (fun d => d.absorb m.due ((s.fld f).caps.any (fun c => c.1 == tile.val)))
    .next ((s1.modFld f (fun d => { d with caps := d.caps.filter (fun c => c.1 != tile.val) })).modTile tile (fun t =>
      { t with meter := { t.meter with due := [] } }))

/-! ### READY (R153, R258, R275, R342, R343, R433, R437) -/

/-- The tile id that holds block `b` of a group's working copies. -/
def blockTile (g : Group) (b : Nat) : Nat := (g.p.wcPlace (128 * b)).1

/-- The published slot of a group on tile `t`: own blocks are emitted again from the master they came from, that of bank BANK, or of the
other bank once a COMMIT has flipped it and its version is not published (R261, R433). -/
def State.reEmit (s : State) (t : Nat) (g : Group) : State :=
  let own := s.ownBlocks g.p
  if !g.published || g.p.tier.home = 1 then s
  else
    let bank := if g.pendingVer then 1 - g.bank else g.bank
    (if g.p.tmask.testBit (t % 16) then s.wcPad g.p g.version t else s).forAll ((List.range own.2).filter (fun k => blockTile g (own.1 + k) == t)) (fun s k =>
      let a := s.planeAddr g.p 0 bank (512 * k)
      let c := g.p.convert (s.operF32s a 128)
      (s.wcWrite g.p g.version (own.1 + k) c.scales c.codes).countEmit g (s.subnormals a 128) [c.evs])

/-- The refilling that a field owes before READY (R433): slot `i` as (i, 0), and as (i, 1 + GID) a group that has no source for it. -/
def State.refillField (s : State) (f : Nat) : State :=
  let todo := (s.fld f).refill
  let s1 := s.forAll (todo.filter (fun x => x.2 == 0)) (fun s x => s.forAll (s.fld f).groups (fun s g => s.reEmit (16 * f + x.1) g.2))
  let s2 := s1.modFld f (fun d => { d with refill := [] })
  let lost := todo.filter (fun x => x.2 != 0)
  let s3 := s2.forAll lost (fun s x => s.event 4 4 (s.evPart f) f (leBytes 1 (x.2 - 1) ++ List.replicate 7 0 ++ leBytes 8 s.stepNow))
  match lost, s3.partOf f with
  | _ :: _, some p => s3.stopNow p stHw
  | _, _ => s3

/-- Whether a READY for `step` is in its place: no step runs, and a replay is of the step at hand. -/
def Beacon.readyFor (b : Beacon) (step : Nat) : Bool :=
  !b.begun && b.phase != 0xF000 && (!b.recovering || step == b.step)

/-- Whether the module's own conditions of READY hold (R153, R258, R275, R342, R434, R437, R458, R467). -/
def State.readyHere (s : State) (step : Nat) : Bool :=
  let fs := s.trainFields
  (match s.trainPart with | some p => (s.part p).state != 2 && !((s.part p).state == 3 && 4 ≤ (s.part p).phase) | none => true)
    && fs.all (fun f => !(s.fld f).restarting && (s.fld f).groups.all (fun g => !g.2.pendingVer))
    && (match s.trainPart with | some p => (s.part p).cause == 0 | none => true) && s.transfersSettled
    && s.host.cmds.all (fun c => c.phase == .done || c.posted || c.point.all (fun p => !(p.1 + 1 == step && p.2 == 31)))

/-- The mark-table digest and its complement, which MAX_U64 turns into a MAX and a MIN (R342). -/
def readyPayload (t : SMap MarkEntry) : List Byte := leBytes 8 (markDigest t) ++ leBytes 8 (2 ^ 64 - 1 - markDigest t)

/-- READY for a step that is not a replay: the floods of an earlier run of it are forgotten, so that the first ABORT of this run is a first copy
(R344, R346). -/
def Beacon.forgetFloods (b : Beacon) (step : Nat) : Beacon :=
  if b.recovering || b.abandoned = some step then b else { b with floods := b.floods.filter (fun x => x.1 != step) }

/-- READY for a step has been contributed. -/
def Beacon.readied (b : Beacon) (step : Nat) : Beacon := { b with ready := true, readyStep := step }

/-- READY_CONTRIBUTE: refilling is done, then the module contributes (R342, R433). -/
def execReadyContribute (step : Nat) (s : State) : Host.Outcome State Fault Refusal :=
  if !s.place.placed || !s.bcn.readyFor step || (s.bcn.ready && s.bcn.readyStep == step) then .next s
  else
    let s1 := s.forAll s.trainFields (fun s f => s.refillField f)
    if s1.readyHere step then
      .next ((s1.modBcn (fun b => (b.forgetFloods step).readied step)).contribute 5 3 0 step (readyPayload s1.bcn.table))
    else .next s1

/-! ### STEP_BEGIN (R154, R155, R291, R337, R341, R342, R422, R432, R448, R584) -/

/-- A step line runs only in a formed island, so a module that has not formed it itself knows its shape at STEP_BEGIN (R22, R25;
assumption 39). -/
def State.learnIsland (s : State) : State :=
  if s.place.size = 0 then
    { s with place := { s.place with size := s.blob.members.length, diam := s.blob.diameter, depth := s.blob.depthTo s.bcn.fences s.bcn.keeperId } }
  else s

/-- Settings that wait for a STEP_BEGIN come into force; a module that becomes the keeper goes on with the running line (R341). -/
def State.beginSettings (s : State) : State :=
  let s1 := match s.trainPart with
    | some p => s.modPart p (fun x => { x with profile := x.pendProfile.getD x.profile, pendProfile := none })
    | none => s
  State.newDepth <| State.learnIsland <| s1.modBcn (fun b =>
    { b with hold := b.hold && s.isKeeper, keeperId := match b.pendKeeper with | some k => k.1 | none => b.keeperId,
             ext := match b.pendKeeper with | some k => k.2 == 1 | none => b.ext,
             pendKeeper := b.lateKeeper, lateKeeper := none, table := b.pendTable.getD b.table, pendTable := b.lateTable, lateTable := none,
             mult := match b.pendWdog with | some w => w.mult | none => b.mult,
             initMs := match b.pendWdog with | some w => w.initMs | none => b.initMs,
             limit := match b.pendWdog with | some w => w.limit | none => b.limit, pendWdog := none })

/-- Step scalars whose point has come are in force in every training field, in the order of their delivery (R291). A replay keeps those of the
aborted attempt (R302). -/
def State.beginScalars (s : State) (step : Nat) : State :=
  let due := s.bcn.scalNext.filter (fun x => decide (x.2.2 ≤ step))
  let s1 := s.forAll s.trainFields (fun s f => s.modFld f (fun d => { d with scal := due.foldl (fun l x => l.set x.1 x.2.1) d.scal }))
  s1.modBcn (fun b => { b with scalNext := b.scalNext.filter (fun x => !decide (x.2.2 ≤ step)) })

/-- One request of STEER_PIN or STEER_UNPIN (R154); the rung after an unpin of a slot at rung 3 is not stated (assumption 34). -/
def SteerSlot.request (x : SteerSlot) : Option Nat → SteerSlot
  | some r => { x with rung := r, pinned := true, pending := false, queued := none }
  | none => if !x.pinned then x
    else { x with pinned := false, fresh := true, rung := if x.rung = 3 then (Config.unstated 157 []).toNat % 3 else x.rung }

/-- A decided change takes effect, and the one decided after it is pending (R153). -/
def SteerSlot.change (x : SteerSlot) (step : Nat) : SteerSlot :=
  if x.pending && decide (x.pendStep ≤ step) then
    match x.queued with
    | some q => { x with rung := x.pendRung, pendRung := q.1, pendStep := q.2, queued := none }
    | none => { x with rung := x.pendRung, pending := false }
  else x

/-- A steering slot at STEP_BEGIN of `step`: requests in order, then a decided change that no pin discarded (R153, R154). -/
def SteerSlot.atBegin (x : SteerSlot) (step : Nat) : SteerSlot :=
  let due := x.reqs.filter (fun r => decide (r.1 ≤ step))
  let y := (due.foldl (fun (x : SteerSlot) r => x.request r.2) x)
  let z := y.change step
  { z with reqs := x.reqs.filter (fun r => !decide (r.1 ≤ step)), changed := x.changed || z.rung != x.rung }

/-- Steering of a field at STEP_BEGIN: a STEER_CTL takes force with empty counts, slots change, and each change posts an event when the
class is enabled (R155, R513). -/
def State.beginSteer (s : State) (f step : Nat) : State :=
  let k := (s.fld f).steer
  let k1 := match k.pendCtl with
    | some c => { k with window := c.window, active := c.active == 1, tLo := c.tLo, tHi := c.tHi, pendCtl := none, bins := [] }
    | none => k
  let s1 := s.modFld f (fun d => { d with steer := { k1 with slots := smapMap (fun _ x => x.atBegin step) k1.slots } })
  let ch := k.slots.filter (fun x => (x.2.atBegin step).rung != x.2.rung)
  if !(s.fld f).steerEn then s1
  else s1.forAll ch (fun s x => s.event 2 1 (s.evPart f) f
    (leBytes 1 x.1 ++ leBytes 1 x.2.rung ++ leBytes 1 (x.2.atBegin step).rung ++ List.replicate 5 0 ++ leBytes 8 step))

/-- A tile of the training partition at STEP_BEGIN: lanes and semaphores are saved, sequence numbers start at 0 (R184, R208, R432). In a
replay the streams of the step are queued again, else they are what is queued now. Bad words are remembered over every attempt of the step, one that
was abandoned too (R431). -/
def TileState.atBegin (t : TileState) (replay again : Bool) : TileState :=
  { t with savedLanes := t.lanes, savedSems := t.sems, marks := 0, ueWords := if again then t.ueWords else ([] : List Nat),
           queues := smapMap (fun _ q => if replay then { q with source := q.stepLog.map QEntry.again, ring := [], started := [], nextSeq := 0 }
             else { q with nextSeq := 0, stepLog := q.started ++ q.ring ++ q.source }) t.queues }

/-- Commands at the first delivery of a STEP_BEGIN (R422): tile programs with a descriptor that has not retired belong to the step. -/
def State.beginCommands (s : State) : State :=
  match s.trainPart with
  | none => s
  | some p => s.modHost (fun h => { h with cmds := (h.cmds.filter (fun c => !(c.posted && c.phase == .done))).map (fun c =>
      if c.part == p then
        (match c.body with
         | .tileProgram _ => { c with inStep := c.phase == .running && !c.deferred && s.programLeft c.uid, carried := c.phase != .waiting && !c.deferred }
         | .collective _ _ => { c with inStep := false }
         | _ => c)
      else c) })

/-- The replay's STEP_BEGIN: transoms are acquired again, then collectives are reissued (R256, R425). -/
def State.replayCommands (s : State) : State :=
  match s.trainPart with
  | none => s
  | some p =>
    let again := s.host.cmds.filter (fun c => c.repeats p && !c.carried)
    (s.forAll again (fun s c => match c.body with | .tileProgram q => s.transom q true | _ => s)).reissueCollectives

/-- The tile programs that were submitted while RECOVERING are queued behind every other stream (R584). -/
def State.lateCommands (s : State) : State :=
  match s.trainPart with
  | none => s
  | some p => s.forAll (s.host.cmds.filter (fun c => c.deferred && c.phase == .running && c.part == p)) (fun s c => match c.body with
      | .tileProgram q => (s.modCmd c.uid (fun x => { x with deferred := false })).programAcquire c.uid p c.hdr.eval q
      | _ => s)

/-- The position at STEP_BEGIN of `step`. -/
def Beacon.atBegin (b : Beacon) (step site : Nat) : Beacon :=
  { b with step := step, phase := 0, begun := true, running := true, recovering := false, missed := false, ready := false, decided := false, doneSent := false,
           reached := 0, fieldReached := [], topMark := 0, overduePosted := false,
           attempt := if b.recovering || b.abandoned = some step then b.attempt else 0, aborts := if b.recovering then b.aborts else 0,
           sinceStart := b.sinceStart && (b.recovering || step == b.step || step == b.step + 1), beginSite := site, startReq := none, advance := none,
           opened := false, abandoned := none }

/-- STEP_BEGIN at a tile outside training: lanes and semaphores are saved, its queues count their descriptors from 0 again, and a new step
forgets the words of its store that were bad (R184, R431, R432). -/
def TileState.newCount (t : TileState) (again : Bool) : TileState :=
  { t with savedLanes := t.lanes, savedSems := t.sems, queues := smapMap (fun _ q => { q with nextSeq := 0 }) t.queues,
           ueWords := if again then t.ueWords else ([] : List Nat) }

/-- STEP_BEGIN of `step` at this module. -/
def State.beginStep (s : State) (step site : Nat) : State :=
  let replay := s.bcn.recovering && !s.bcn.missed
  let again := s.bcn.recovering || s.bcn.abandoned = some step
  let fs := s.trainFields
  let s0 := (s.roundOver 3 0 step).beginSettings
  let s1 := if replay then s0 else s0.beginScalars step
  let s2 := (s1.modBcn (fun b => b.atBegin step site))
  let s3 := s2.forAll fs (fun s f => (s.beginSteer f step).modFld f (fun d =>
    { d with awaits := [], placed := [], groups := smapMap (fun _ g => { g with active := true }) d.groups }))
  let s4 := if replay then s3 else s3.beginCommands
  let s5 : State := { s4 with
    tiles := smapMap (fun t x => if fs.contains (t / 16) then x.atBegin replay again else x.newCount again) s4.tiles,
    fields := smapMap (fun _ d => { d with capRaised := replay && d.capRaised }) s4.fields,
    acts := s4.acts.filterMap (fun e => if e.2.removing && (s.part (e.1 / 1024)).train then none
      else some (if (s.part (e.1 / 1024)).train then (e.1, { e.2 with begun := true, prog := [] }) else e)),
    fab := if replay then s4.fab else { s4.fab with groups := smapMap (fun _ g => { g with seqBegin := g.seq }) s4.fab.groups } }
  let s6 := s5.outerBegin
  let s7 := (((if replay then s6.replayCommands else s6).lateCommands).forAll fs (fun s f =>
    s.forAll (s.fld f).groups (fun s g => s.writeAgain f g.1))).checkNorm
  let s8 := (s7.deliver 0).reachMarks
  if s8.isKeeper && step = 2 ^ 48 - 1 then s8.event 6 2 16 0 (leBytes 8 step) else s8

/-- STEP_BEGIN_DELIVERY: the keeper's broadcast for the step that this module is ready for. -/
def execStepBeginDelivery (step site : Nat) (s : State) : Host.Outcome State Fault Refusal :=
  if s.place.placed && s.bcn.ready && s.bcn.readyStep == step && s.bcn.readyFor step then .next (s.beginStep step site) else .next s

/-- MARK_DELIVERY: an island-scope mark is broadcast (R340). -/
def execMarkDelivery (step : Nat) (mark : Fin 32) (s : State) : Host.Outcome State Fault Refusal :=
  let b := s.bcn
  let n := mark.val
  if !b.begun || step != b.step || n = 0 || 29 < n || !markDef b.table n || !markIsland b.table n || !b.reached.testBit n
      || decide (markPhase b.table n ≤ b.phase) then .next s
  else .next (((s.roundOver 0 n step).deliver n).reachMarks)

/-! ### DONE and COMMIT (R150, R152, R153, R245, R342, R354) -/

/-- DONE_CONTRIBUTE: marks 1 to 29 are reached, every field is done, every transfer that the step owes is done (R274, R279, R288, R342). -/
def execDoneContribute (s : State) : Host.Outcome State Fault Refusal :=
  let b := s.bcn
  if !b.begun || b.doneSent || !((List.range 30).drop 1).all (fun n => !markDef b.table n || b.reached.testBit n)
      || !(s.trainFields.all (fun f => s.fieldDone f)) || !s.actsDone then .next s
  else .next (((s.modBcn (fun b => { b with doneSent := true })).contribute 0 1 0 b.step []).outerDoneRound)

/-- The bins that a rung's format loses, underflow and overflow (R151). -/
def lostBins (rung : Nat) : List Nat × List Nat :=
  match rung with
  | 0 => ([1, 2, 3, 4, 5, 6, 7, 8], [23, 24, 25, 26, 27, 28, 29, 30])
  | 1 => ([1], [30])
  | _ => ([], [])

/-- The sum of some bins of a slot. -/
def Steering.sumBins (k : Steering) (slot : Nat) (bs : List Nat) : Nat := bs.foldl (fun a b => a + smapGet 0 k.bins (32 * slot + b)) 0

/-- The five counts of a slot at a window's end (R152). -/
def Steering.windowCounts (k : Steering) (slot : Nat) : List Nat :=
  let r := (smapGet ({} : SteerSlot) k.slots slot).rung
  let cur := lostBins r
  let nar := if r = 0 then ([], []) else lostBins (r - 1)
  [k.sumBins slot ((List.range 31).drop 1), k.sumBins slot cur.1, k.sumBins slot cur.2, k.sumBins slot nar.1, k.sumBins slot nar.2]

/-- The slots that a window counts: enabled, not pinned, not waiting for the next window. -/
def Steering.windowSlots (k : Steering) : List Nat :=
  (k.slots.filter (fun x => x.2.enable && !x.2.pinned && !x.2.fresh)).map Prod.fst

/-- The histograms of a field's tiles join its window counts (R150). -/
def State.foldHist (s : State) (f : Nat) : State :=
  let own := (List.range 16).map (fun i => 16 * f + i)
  let bins := own.foldl (fun a t => (s.tile t).hist.foldl (fun a x => smapSet a x.1 ((smapGet 0 a x.1 + x.2) % 2 ^ 64)) a) (s.fld f).steer.bins
  let s1 := s.modFld f (fun d => { d with steer := { d.steer with bins := bins } })
  { s1 with tiles := smapMap (fun t x => if t / 16 == f then { x with hist := [] } else x) s1.tiles }

/-- A field ends its window: the slots whose sums it awaits, and empty counts. -/
def Steering.endWindow (k : Steering) : Steering :=
  { k with awaited := if k.active then k.windowSlots else k.awaited, bins := [], slots := smapMap (fun _ x => { x with fresh := false }) k.slots }

/-- The end of a window at the COMMIT of `step` (R152, R153): the module's fields are summed in ascending number, one round for each slot. -/
def State.endWindows (s : State) (step : Nat) : State :=
  let fs := s.trainFields.filter (fun f => (step + 1) % (s.fld f).steer.window == 0)
  let slots := (List.range 64).filter (fun n => fs.any (fun f => (s.fld f).steer.active && (s.fld f).steer.windowSlots.contains n))
  let sums := slots.map (fun n =>
    (n, (List.range 5).map (fun i => ((fs.filter (fun f => (s.fld f).steer.active && (s.fld f).steer.windowSlots.contains n)).map (fun f =>
      ((s.fld f).steer.windowCounts n).getD i 0)).foldl (· + ·) 0)))
  let s1 := s.forAll fs (fun s f => s.modFld f (fun d => { d with steer := d.steer.endWindow }))
  s1.forAll sums (fun s x => s.contribute 2 5 x.1 step (x.2.flatMap (leBytes 8) ++ List.replicate 24 0))

/-- COMMIT of the step in progress at this module, measured as `dur` CCLK. -/
def State.commitStep (s : State) (dur : Nat) : State :=
  let step := s.bcn.step
  let fs := s.trainFields
  let s1 := ((s.roundOver 1 0 step).modBcn (fun b => { b with phase := 0xF000, topMark := 30, decided := true })).commitOuter
  let s2 := s1.forAll fs (fun s f => ((s.commitParam f).foldCounts f).foldHist f)
  let s3 := s2.endWindows step
  let s4 : State := { s3 with
    acts := s3.acts.map (fun e => if (s.part (e.1 / 1024)).train then (e.1, { e.2 with first := e.2.first && !e.2.begun, prog := [] }) else e),
    shutters := s3.shutters.map (fun j => if (s.part j.1).train then (j.1, { j.2 with commit := true }) else j),
    host := { s3.host with cmds := s3.host.cmds.filter (fun c => !(c.posted && c.phase == .done)) } }
  let s5 := s4.modBcn (fun b => { b with begun := false, decided := true, sinceStart := true, durs := (b.durs ++ [dur]).drop (b.durs.length + 1 - 64) })
  (s5.lateStop.reissueCollectives).contribute 0 2 0 step []

/-- COMMIT_DELIVERY. -/
def execCommitDelivery (step dur : Nat) (s : State) : Host.Outcome State Fault Refusal :=
  if s.bcn.begun && s.bcn.doneSent && step == s.bcn.step then .next (s.commitStep dur) else .next s

/-- EVAL_SLOT_DELIVERY: every module has applied the commit; a stop that waited for it takes effect at the keeper (R342, R344). -/
def execEvalSlotDelivery (step : Nat) (s : State) : Host.Outcome State Fault Refusal :=
  if s.bcn.begun || step != s.bcn.step || s.bcn.phase != 0xF000 then .next s
  else
    let t := (s.roundOver 2 0 step).modBcn (fun b =>
      { b with phase := 0xF800, topMark := 31, hold := b.hold || b.stopReq, running := b.running && !b.stopReq, stopReq := false })
    .next (if s.bcn.stopReq && s.isKeeper then t.sayHalted else t).reissueCollectives

/-! ### Steering decisions (R152, R153) -/

/-- The rung that a decision of a slot starts from: that of the change that is pending, else the present one (assumption 105). -/
def SteerSlot.held (x : SteerSlot) : Nat := if x.pending then x.pendRung else x.rung

/-- The rung that the sums of a window give a slot: at most one rung away. -/
def SteerSlot.decide (x : SteerSlot) (k : Steering) (counts : List Nat) : Nat :=
  let t := counts.getD 0 0
  let cur := counts.getD 1 0 + counts.getD 2 0
  let nar := counts.getD 3 0 + counts.getD 4 0
  if t = 0 then x.held
  else if k.tHi * t < cur * 2 ^ 24 && x.held < x.maxRung then x.held + 1
  else if nar * 2 ^ 24 < k.tLo * t && x.minRung < x.held then x.held - 1
  else x.held

/-- The sums of a slot have come to a field that awaits them. They may come while a change of the window before is pending (R153). -/
def Steering.result (k : Steering) (slot endStep : Nat) (counts : List Nat) : Steering :=
  if !k.awaited.contains slot then k
  else
    let x := smapGet ({} : SteerSlot) k.slots slot
    let r := x.decide k counts
    { k with awaited := k.awaited.filter (fun n => n != slot),
             slots := if r = x.held || x.pinned then k.slots
               else smapSet k.slots slot (if x.pending then { x with queued := some (r, endStep + 2) }
                 else { x with pendRung := r, pending := true, pendStep := endStep + 2 }) }

/-- STEER_ROUND_RESULT: the window ended with the last COMMIT. -/
def execSteerRoundResult (slot : Fin 64) (counts : List Nat) (s : State) : Host.Outcome State Fault Refusal :=
  let endStep := if 0xF000 ≤ s.bcn.phase then s.bcn.step else s.bcn.step - 1
  .next ((s.roundOver 5 slot endStep).forAll s.trainFields (fun s f =>
    s.modFld f (fun d => { d with steer := d.steer.result slot endStep counts })))

/-- SCALAR_DELIVERY: the keeper's value for the first STEP_BEGIN at or after `step` (R291). -/
def execScalarDelivery (slot : Fin 8) (value : F32) (step : Nat) (s : State) : Host.Outcome State Fault Refusal :=
  if !s.place.placed then .next s
  else .next (s.modBcn (fun b => { b with scalNext := b.scalNext ++ [(slot.val, value, step)] }))

/-! ### Aborts and the watchdog (R346, R355 to R358, R439, R583) -/

/-- Whether an ABORT for (step, attempt) is for the step that this module is ready for and has not begun (R356). -/
def Beacon.awaitsStep (b : Beacon) (step attempt : Nat) : Bool :=
  !b.begun && !b.recovering && b.ready && b.readyStep == step && attempt == (if b.abandoned = some step then b.attempt else 0)

/-- What the first copy of an ABORT does here (R356 to R358): it takes effect on the current attempt, or on the step about to begin; after a
COMMIT it aborts nothing and emission starts again (R261). -/
def State.abortArrives (s : State) (step attempt : Nat) : State :=
  let u := if step = s.bcn.step && attempt = s.bcn.attempt then s.knowDecision else s
  if step = u.bcn.step && attempt = u.bcn.attempt && u.canAbort then u.takeAbort
  else if u.bcn.awaitsStep step attempt then u.takeMissed step
  else if step = u.bcn.step then u.restartEmissions
  else u

/-- ABORT_FLOOD_RX: the first copy goes on by every other UP port and takes effect where it can; later copies are dropped (R346). -/
def execAbortFloodRx (port : Fin 8) (step attempt : Nat) (s : State) : Host.Outcome State Fault Refusal :=
  if !(s.place.placed && (s.port port).state == 2) then .next s
  else
    let s1 := (s.flareTook port (abortFrame step attempt)).modBcn (fun b => { b with abortSeen := true })
    if s.bcn.floods.contains (step, attempt) then .next s1
    else .next (((s1.modBcn (fun b => b.sawFlood step attempt)).floodFrom (some port.val) (abortFrame step attempt)).abortArrives step attempt)

/-- The value of a field in a STEP_OVERDUE event (R583). -/
def State.overdueField (s : State) (f : Nat) : Nat :=
  if !s.isTrainField f || (s.fld f).fcFenced then 0
  else (((List.range 30).drop 1).find? (fun n => markDef s.bcn.table n && !s.fieldAt f n)).getD 30

/-- The limit of the watchdog in CCLK (R354). -/
def Beacon.overdueLimit (b : Beacon) : Nat := if b.durs.isEmpty then b.initMs * 1200000 else b.mult * medianOf b.durs

/-- STEP_OVERDUE: the attempt, or the recovery, has run for `elapsed` CCLK (R355, R439). -/
def execStepOverdue (elapsed : Nat) (s : State) : Host.Outcome State Fault Refusal :=
  let b := s.bcn
  if !(b.begun || b.recovering) || b.overduePosted || elapsed ≤ b.overdueLimit then .next s
  else
    let v := (List.range 64).foldl (fun a f => a + s.overdueField f * 2 ^ (5 * f)) 0
    .next ((s.modBcn (fun b => { b with overdue := true, overduePosted := true })).event 6 3 16 b.topMark (leBytes 40 v))

/-! ### Site time (R352) and the advance of EXT (R341) -/

/-- PPS_EDGE: the CCLK count is latched. -/
def execPpsEdge (cclk : Nat) (s : State) : Host.Outcome State Fault Refusal :=
  .next (s.modBcn (fun b => { b with prevEdge := if b.siteValid && !b.edgeSeen then some b.edgeCclk else b.prevEdge, edgeCclk := cclk, edgeSeen := true }))

/-- SITE_MESSAGE: the site time of the last edge. A value more than 1 µs from the counted one clears SITE_VALID. -/
def execSiteMessage (ns : Nat) (s : State) : Host.Outcome State Fault Refusal :=
  let b := s.bcn
  if !b.edgeSeen then .next s
  else
    let off := match b.siteValid, b.prevEdge with
      | true, some c => let counted := 6 * b.siteTime + 5 * (b.edgeCclk - c)
        decide (6000 < (if counted ≤ 6 * ns then 6 * ns - counted else counted - 6 * ns))
      | _, _ => false
    .next (s.modBcn (fun b => { b with siteTime := ns % 2 ^ 64, siteValid := !off, edgeSeen := false, prevEdge := none }))

/-- SITE_TIMEOUT: no edge for 1.5 s. -/
def execSiteTimeout (s : State) : Host.Outcome State Fault Refusal :=
  .next (s.modBcn (fun b => { b with siteValid := false, edgeSeen := false, prevEdge := none }))

/-- ADVANCE: the keeper's HX-2 lets the step of the completed READY round begin; after a start that names another step the line does not go on
with it (R341, R344). -/
def execAdvance (s : State) : Host.Outcome State Fault Refusal :=
  match s.bcn.advance with
  | some step =>
    if s.isKeeper && s.bcn.ext && !s.bcn.hold && s.outer.state != 4 && s.bcn.startReq.all (fun n => n == step) then
      .next ((s.modBcn (fun b => { b with advance := none, running := true, opened := true })).broadcast
        ({ op := 7, key := 3, index := 0, step := step, attempt := s.bcn.attempt, payload := [] }))
    else .next s
  | none => .next s

end Sys2Proof.Machine
end

