-- ==== Sys2Proof/Machine/CmdStep.lean ====
section
/-! DEFINITION. Machine/CmdStep.lean: checks and effects of the step line, step scalar, numeric health and telemetry commands (R509, R512,
R513). -/

namespace Sys2Proof.Machine

/-! ### 0x04xx (R337, R341, R344, R355, R436, R438, R509) -/

/-- STEP_START. The keeper knows whether the island is formed and whether the line runs; another module passes the start on to it (assumption
39). -/
def checksStepStart (s : State) (s0 : Nat) : List Check :=
  [ckValue (s0 ≤ 2 ^ 48 - 2) (fieldOff 0x0400 0), ckState (s.trainPart.isSome && (!s.isKeeper || s.place.size != 0)) stState 0, ckState (!(s.isKeeper && s.bcn.running)) stAlready 0]

/-- STEP_START: the keeper goes on with the READY round of S0; another module passes the start to it over the flare path (R344, R509). -/
def startStepStart (s : State) (uid s0 : Nat) : State :=
  ((s.modBcn (fun b => { b with sinceStart := false })).flareUp (stopFrame 3 s0 s.bcn.attempt)).finish uid stDone []

/-- STEP_STOP: at the keeper the next STEP_BEGIN is withheld, and while RECOVERING the step is given up in every module; another module passes the
stop to it over the flare path (R344, R438, R509). -/
def startStepStop (s : State) (uid : Nat) : State :=
  (s.flareUp (stopFrame (b2n s.bcn.recovering) s.bcn.step s.bcn.attempt)).finish uid stDone [s.bcn.step % 2 ^ 32, s.bcn.step / 2 ^ 32]

/-- The table that accepted items make: job marks that are defined, and the TMASK of marks 28 and 29. -/
def tableOf (items : List MarkItem) : SMap MarkEntry :=
  items.zipIdx.filterMap (fun x =>
    if 28 ≤ x.2 then (if x.1.tmask = 0 then none else some (x.2, { tmask := x.1.tmask }))
    else if x.1.dfn = 1 then some (x.2, { phase := x.1.phase, dfn := true, island := x.1.scope == 1, tmask := x.1.tmask })
    else none)

/-- MARK_TABLE (R337, R504, R509); of a mark that is not defined nothing else may be set (R499). -/
def checksMarkTable (items : List MarkItem) : List Check :=
  let off := fun (n i : Nat) => itemOff 0x0402 0 32 n i
  let lower := fun (n : Nat) => ((items.take n).filter (fun y => y.dfn == 1)).map (fun y => y.phase)
  { order := 4, ok := items.length == 32, status := stLength, off := 6 } :: items.zipIdx.flatMap (fun x =>
    let n := x.2
    let i := x.1
    let at_ := fun (c : Check) => { c with didx := n }
    if n = 0 || 30 ≤ n then [at_ (ckValue (i == ⟨0, 0, 0, 0⟩) (off n 0))]
    else if 28 ≤ n then [at_ (ckValue (i.dfn == 0 && i.scope == 0 && i.phase == 0 && i.tmask < 65536) (off n 0))]
    else [at_ (ckValue (i.dfn ≤ 1) (off n 0)), at_ (ckValue (i.scope ≤ 1) (off n 1)),
          at_ (ckValue (i.dfn != 0 || i.scope == 0) (off n 1)), at_ (ckValue (i.dfn != 0 || i.phase == 0) (off n 2)),
          at_ (ckValue (i.dfn != 1 || (1 ≤ i.phase && i.phase ≤ 0xDFFF && (lower n).all (fun p => decide (p < i.phase)))) (off n 2)),
          at_ (ckZero (i.dfn != 1 || i.tmask != 0) (off n 3)), at_ (ckValue (i.tmask < 65536 && (i.dfn != 0 || i.tmask == 0)) (off n 3))])

/-- MARK_TABLE takes effect at the next STEP_BEGIN, or at the one after it while the READY round runs (R337, R358). -/
def startMarkTable (s : State) (uid : Nat) (items : List MarkItem) : State :=
  (s.modBcn (fun b => if b.ready then { b with lateTable := some (tableOf items) } else { b with pendTable := some (tableOf items) })).finish uid stDone []

/-- KEEPER_SELECT (R341). -/
def checksKeeper (s : State) (keeper mode : Nat) : List Check :=
  [ckTarget (s.isMember keeper) (fieldOff 0x0403 0), ckValue (mode ≤ 1) (fieldOff 0x0403 1)]

/-- KEEPER_SELECT acts from the next STEP_BEGIN, or from the one after it while the READY round runs (R341, R358). -/
def startKeeper (s : State) (uid keeper mode : Nat) : State :=
  (s.modBcn (fun b => if b.ready then { b with lateKeeper := some (keeper, mode) } else { b with pendKeeper := some (keeper, mode) })).finish uid stDone []

/-- WATCHDOG (R355, R436). -/
def checksWatchdog (p : WatchdogP) : List Check :=
  let o := fieldOff 0x0404
  [ckZero (p.mult != 0) (o 0), ckZero (p.initMs != 0) (o 1), ckZero (p.limit != 0) (o 2), ckValue (2 ≤ p.mult && p.mult ≤ 1000) (o 0),
   ckValue (p.initMs ≤ 65535) (o 1), ckValue (p.limit ≤ 255) (o 2)]

/-- WATCHDOG acts from the next STEP_BEGIN. -/
def startWatchdog (s : State) (uid : Nat) (p : WatchdogP) : State := (s.modBcn (fun b => { b with pendWdog := some p })).finish uid stDone []

/-! ### Commands that a STEP_BEGIN at or after a point takes up (R154, R291) -/

/-- The first step whose STEP_BEGIN is at or after a point; 0 with no point. -/
def beginAt (point : Option (Nat × Nat)) : Nat :=
  match point with
  | some (step, mark) => if mark = 0 then step else step + 1
  | none => 0

/-- STEP_SCALAR (R291, R512). -/
def checksScalar (slot : Nat) (value : F32) : List Check :=
  [ckValue (slot ≤ 7) (fieldOff 0x0703 0), ckValue (f32IsFin value) (fieldOff 0x0703 1)]

/-- STEP_SCALAR: the value goes to the keeper with its point, or is sent to every module from here. -/
def State.sendScalar (s : State) (slot : Nat) (value : F32) (point : Option (Nat × Nat)) : State :=
  let step := beginAt point
  if s.isKeeper then s.broadcast ({ op := 7, key := 6, index := slot, step := step, attempt := s.bcn.attempt, payload := leBytes 8 value.toNat })
  else s.emit (.scalarFwd slot value step (match point with | some p => p.2 | none => 0))

/-- STEER_PIN and STEER_UNPIN (R157, R513). -/
def checksPin (slot rung unpin : Nat) : List Check :=
  let o := fieldOff 0x0804
  [ckValue (slot ≤ 63) (o 0), ckValue (rung ≤ 3 && (unpin != 1 || rung == 0)) (o 1), ckValue (unpin ≤ 1) (o 2)]

/-- The request of a pin or an unpin waits in every field of the partition for its STEP_BEGIN (R154). -/
def State.requestPin (s : State) (part slot rung unpin : Nat) (point : Option (Nat × Nat)) : State :=
  let r := (beginAt point, if unpin = 1 then none else some rung)
  s.forAll (s.partFields part) (fun s f => s.modFld f (fun d => { d with steer := { d.steer with
    slots := smapModify {} d.steer.slots slot (fun x => { x with reqs := x.reqs ++ [r] }) } }))

/-- What a command with a point leaves behind at its submission, so that the STEP_BEGIN at its point finds it (R154, R291). -/
def State.announce (s : State) (part : Nat) (body : Body) (point : Option (Nat × Nat)) : State :=
  match body with
  | .stepScalar slot v => s.sendScalar slot v point
  | .steerPin slot rung unpin => s.requestPin part slot rung unpin point
  | _ => s

/-- STEP_SCALAR and STEER_PIN complete when they start; without a point their value goes out now. -/
def startAnnounced (s : State) (uid part : Nat) (body : Body) (point : Option (Nat × Nat)) : State :=
  (if point.isNone then s.announce part body none else s).finish uid stDone []

/-! ### 0x08xx (R156, R157, R163, R165, R175, R513) -/

/-- The committed counts of a health tag over some fields (R163). -/
def State.healthCount (s : State) (fs : List Nat) (tag i : Nat) : Nat :=
  (fs.foldl (fun a f => a + smapGet 0 (s.fld f).counts (32 * tag + i)) 0) % 2 ^ 64

/-- A share in units of 2^-24 (R163). -/
def shareOf (n conv : Nat) : Nat := if conv = 0 then 0 else min (n * 2 ^ 24 / conv) (2 ^ 32 - 1)

/-- HEALTH_READ. -/
def checksHealth (p : HealthP) : List Check :=
  ckBuf 0x0800 2 p.buf ++ [ckValue (p.htag ≤ 255) (fieldOff 0x0800 0), ckFormat (1 ≤ p.fmt && p.fmt ≤ 7) (fieldOff 0x0800 1)]

/-- HEALTH_READ: 64 bytes of counts and shares (R163, R513). -/
def startHealth (s : State) (uid part : Nat) (p : HealthP) : State :=
  let fs := s.partFields part
  let c := fun i => s.healthCount fs p.htag i
  let b := 4 + 3 * (p.fmt - 1)
  let overflow := shareOf (c (b + 1)) (c b)
  let vanish := shareOf (c (b + 2)) (c b)
  let bytes := [c 0, c 1, c 2, c 3, c b, c (b + 1), c (b + 2)].flatMap (leBytes 8) ++ leBytes 4 overflow ++ leBytes 4 vanish
  (s.writeResult p.buf bytes).finish uid stDone [overflow, vanish]

/-- HEALTH_CLEAR: the counts of the tags it names (R165). -/
def startHealthClear (s : State) (uid part : Nat) (ts : List Nat) : State :=
  (s.forAll (s.partFields part) (fun s f => s.modFld f (fun d => { d with
    counts := d.counts.filter (fun c => !((ts.getD (c.1 / 32 / 64) 0).testBit (c.1 / 32 % 64))) }))).finish uid stDone []

/-- STEER_CTL (R156). -/
def checksSteerCtl (p : SteerCtlP) : List Check :=
  let o := fieldOff 0x0802
  [ckZero (p.window != 0) (o 0), ckValue (p.window ≤ 65535) (o 0), ckValue (p.active ≤ 1) (o 1), ckValue (p.tLo ≤ 65535 && p.tLo ≤ p.tHi) (o 2),
   ckValue (p.tHi ≤ 65535) (o 3)]

/-- STEER_CTL acts from the next STEP_BEGIN (R513). -/
def startSteerCtl (s : State) (uid part : Nat) (p : SteerCtlP) : State :=
  (s.forAll (s.partFields part) (fun s f => s.modFld f (fun d => { d with steer := { d.steer with pendCtl := some p } }))).finish uid stDone []

/-- STEER_SLOT (R157). -/
def checksSteerSlot (p : SteerSlotP) : List Check :=
  let o := fieldOff 0x0803
  [ckValue (p.slot ≤ 63) (o 0), ckValue (p.minRung ≤ p.maxRung) (o 1), ckValue (p.maxRung ≤ 2) (o 2), ckValue (p.enable ≤ 1) (o 3)]

/-- STEER_SLOT: the range of a slot; it takes part from the next window (R513). -/
def startSteerSlot (s : State) (uid part : Nat) (p : SteerSlotP) : State :=
  (s.forAll (s.partFields part) (fun s f => s.modFld f (fun d => { d with steer := { d.steer with
    slots := smapModify {} d.steer.slots p.slot (fun x =>
      { x with minRung := p.minRung, maxRung := p.maxRung, enable := p.enable == 1, fresh := true }) } }))).finish uid stDone []

/-- NEVT_EN (R175). -/
def checksNevt (classEn steerEn : Nat) : List Check :=
  [ckValue (classEn ≤ 255) (fieldOff 0x0805 0), ckValue (steerEn ≤ 1) (fieldOff 0x0805 1)]

/-- NEVT_EN: FLD_NEVT_EN of every field of the partition. -/
def startNevt (s : State) (uid part classEn steerEn : Nat) : State :=
  (s.forAll (s.partFields part) (fun s f => s.modFld f (fun d => { d with classEn := classEn, steerEn := steerEn == 1 }))).finish uid stDone []

/-- The size of a view's window (R518). -/
def windowSize (view : Nat) : Nat := if view = 16 then 0x10000000 else 0x1000000

/-- SNAPSHOT. -/
def checksSnapshot (view : Nat) (p : BufP) : List Check :=
  ckBuf 0x0806 0 p ++ [ckValue (p.len ≤ windowSize view) (fieldOff 0x0806 1)]

/-- What reading the register at an offset does beside its value: BCN_POS_LO latches BCN_POS_HI, CHK_RESULT_LO latches CHK_RESULT_HI (R360,
R560). -/
def State.readLatch (s : State) (view o : Nat) : State :=
  if !s.viewHolds view o then s
  else if o = 0x20000 then s.modBcn (fun b => { b with posHi := BitVec.ofNat 32 (packBits [(0, b.step / 2 ^ 32), (16, b.phase)]) })
  else if o / 0x10000 = 8 && o % 0x100 = 0x40 then { s with chk := smapModify {} s.chk (o % 0x10000 / 0x100) ChkUnit.latch }
  else s

/-- SNAPSHOT: the image of the issuing view from offset 0 (R513). -/
def startSnapshot (s : State) (uid view : Nat) (p : BufP) : State :=
  let r := (List.range (p.len / 4)).foldl (fun (a : State × List Byte) i =>
    let s1 := a.1.readLatch view (4 * i)
    (s1, a.2 ++ leBytes 4 (s1.readReg view (4 * i)).toNat)) (s.sampleInput, [])
  (r.1.writeResult p r.2).finish uid stDone [p.len]

end Sys2Proof.Machine
end

