-- ==== Sys2Proof/Machine/FaultRows.lean ====
section
/-! DEFINITION. Machine/FaultRows.lean: failed tiles, field controllers, channels and host-tier transfers, scrub and temperature (R12 to
R17, R216 to R223, R231 to R233, R276, R430 to R434, R440, R475, R585). -/

namespace Sys2Proof.Machine

/-! ### Slots (R12 to R17, R433) -/

/-- What failing physical slots cost a field: the failed ones that were not fenced, the logical slots they served, the one that the spare takes
over, and whether an idle spare is among them (R15, R16). -/
structure SlotLoss where
  failed : List Nat
  lost : List Nat
  take : Option Nat
  spare : Bool
  deriving DecidableEq, Repr

/-- The loss of a field when physical slots fail. -/
def Field.loss (d : Field) (ps : List Nat) : SlotLoss :=
  let failed := (List.range 17).filter (fun p => ps.contains p && !d.fenced.testBit p)
  let lost := (List.range 16).filter (fun i => match d.serves i with | some p => failed.contains p | none => false)
  { failed := failed, lost := lost, take := if d.spareUsed || d.fenced.testBit 16 || failed.contains 16 then none else lost.head?,
    spare := failed.contains 16 && !d.spareUsed }

/-- The slots that nothing serves after a loss. -/
def SlotLoss.unserved (x : SlotLoss) : List Nat := x.lost.filter (fun i => x.take != some i)

/-- Whether the slot of a version has users: its committed count, or the count with the attempt's pending changes, is not zero (R433). -/
def Group.inUse (g : Group) (v : Nat) : Bool := bySlot (g.use0, g.use1) v != 0 || g.holds v != 0

/-- The working-copy ranges of a tile that R433 refills with the bits they held: the published slot of each group, and the other slot while
its use count is not zero. -/
def State.refillRanges (s : State) (f i : Nat) : List (Nat × Nat) :=
  let at_ := fun (g : Group) (v : Nat) => let a := storeBase (16 * f + i) + g.p.slotOf v; (a, a + g.p.slotBytes)
  (s.fld f).groups.flatMap (fun g =>
    if !g.2.p.tmask.testBit i || !g.2.published then []
    else at_ g.2 g.2.version :: (if g.2.inUse (g.2.version + 1) then [at_ g.2 (g.2.version + 1)] else []))

/-- The groups whose other slot on a tile has no source: an update sweep of the attempt has written the other bank, and no other member holds
the segment (R433). -/
def State.refillLost (s : State) (f i : Nat) : List Nat :=
  ((s.fld f).groups.filter (fun g => g.2.p.tmask.testBit i && g.2.published && g.2.inUse (g.2.version + 1)
    && g.2.wrote && g.2.p.r == 1)).map Prod.fst

/-- What READY owes a tile of a training partition (R433). -/
def State.oweRefill (s : State) (f i : Nat) : State :=
  s.modFld f (fun d => { d with refill := d.refill ++ (i, 0) :: (s.refillLost f i).map (fun g => (i, g + 1)) })

/-- The spare takes logical slot `i` over: it starts at reset values, with the saved lanes and semaphores of the slot; its store has never been written but for what R433 refills (R15, R91, R432, R586). -/
def State.remap (s : State) (f i : Nat) : State :=
  let t := 16 * f + i
  let old := s.tile t
  let train := s.isTrainField f
  let keep := if train then s.refillRanges f i else []
  let saved : TileState := { lanes := old.savedLanes, sems := old.savedSems, savedLanes := old.savedLanes, savedSems := old.savedSems }
  let fresh : TileState := if train then { saved with queues := old.queues, starts := old.starts } else saved
  let s1 := (if train then s.oweRefill f i else s).modFld f (fun d => { d with spareUsed := true, spareFor := i, factory := false })
  let inStore := fun (a : Nat) => storeBase t ≤ a && a < storeBase t + 0x2800000
  { s1.setTile t fresh with mem := s1.mem.filter (fun c => !inStore c.1 || keep.any (fun r => r.1 ≤ c.1 && c.1 < r.2)) }

/-- The failed slots are fenced and the spare takes over what it can. -/
def State.applyLoss (s : State) (f : Nat) (x : SlotLoss) : State :=
  let s1 := s.forAll x.failed (fun s p => s.fenceSlot f p)
  match x.take with
  | some i => s1.remap f i
  | none => s1

/-- The events of a loss: an idle spare fenced, or the fault and the remap (R15, R430). -/
def State.lossEvents (s : State) (f : Nat) (x : SlotLoss) : State :=
  let part := s.evPart f
  let s1 := if x.spare then s.event 10 6 part f [] else s
  if x.take.isSome then (s1.hwEvent part f).event 10 2 part f [] else s1

/-- Whether the COMMIT decision of the step at hand is formed and the next STEP_BEGIN not delivered (R357, R585). -/
def State.pastDecision (s : State) : Bool := !s.canAbort && s.bcn.decided

/-- What a fault in a field lets the module know: of a training field, whether the COMMIT is decided. -/
def State.faultIn (s : State) (f : Nat) : State := if s.isTrainField f then s.knowDecision else s

/-- Tiles of a field fail (R430, R440, R585). -/
def State.failTiles (s0 : State) (f : Nat) (ps : List Nat) : State :=
  let x := (s0.fld f).loss ps
  if x.failed.isEmpty then s0 else
  let s := s0.faultIn f
  let part := s.evPart f
  let train := s.isTrainField f
  let late := train && s.pastDecision
  let s1 := (s.faultBit 0).faultField f
  let s2 := if train && !late then s1 else s1.forAll x.lost (fun s i =>
    s.dropTile (16 * f + i) (if x.take = some i || late then stHw else stCapacity))
  let s5 := (s2.applyLoss f x).lossEvents f x
  if !x.unserved.isEmpty then s5.loseCapacity f
  else if x.lost.isEmpty || !train then s5
  else if !late then s5.requestAbort
  else if s.bcn.begun then s5.modPart part (fun p => { p with cause := stHw })
  else s5.stopNow part stHw

/-- TILE_FAULT: physical slots of one field fail in one CCLK (R431). -/
def execTileFault (field : Fin 64) (slots : List (Fin 17)) (s : State) : Host.Outcome State Fault Refusal :=
  .next (s.failTiles field (slots.map (fun p => p.val)))

/-- TILE_STORE_UE: the second word of a step fails the tile; a single one sets TS_UE, aborts the step, and has the tile's working copies
restored; after a COMMIT, emission starts again (R261, R431, R433). -/
def execTileStoreUe (tile : Fin 1024) (word : Nat) (s : State) : Host.Outcome State Fault Refusal :=
  let f := tile.val / 16
  let i := tile.val % 16
  let ws := (s.tile tile).ueWords
  match (s.fld f).serves i with
  | none => .next s
  | some p =>
    let s1 := (s.modFld f (fun d => { d with tsUe := true })).faultIn f
    if !ws.isEmpty && !ws.contains word then .next (s1.failTiles f [p])
    else
      let s2 := s1.modTile tile (fun t => { t with ueWords := [word] })
      if !s.isTrainField f then .next s2
      else if s1.canAbort then .next ((s2.oweRefill f i).requestAbort)
      else .next ((s2.oweRefill f i).restartEmission f)

/-! ### Field controllers (R261, R434) -/

/-- FC_PROBE_TIMEOUT: a field controller is restarted, or at its third failure the field is fenced. -/
def execFcProbeTimeout (field : Fin 64) (s : State) : Host.Outcome State Fault Refusal :=
  let d := s.fld field
  let f := field.val
  let part := s.evPart f
  if d.fcFenced || d.restarting then .next s
  else if d.restarts < 2 then
    let s1 := (((s.faultBit 1).faultField f).hwEvent part f)
    let s2 := if s.isTrainField f then s1.requestAbort else s1
    .next (s2.modFld f (fun d => { d with restarting := true, restarts := d.restarts + 1 }))
  else
    let s1 := s.faultField f
    let s2 := if s.isTrainField f then s1 else s1.forAll d.slots (fun s i => s.dropTile (16 * f + i) stCapacity)
    let s3 := s2.forAll ((List.range 17).filter (fun p => !d.fenced.testBit p)) (fun s p => s.fenceSlot f p)
    .next ((s3.modFld f (fun d => { d with fcFenced := true, sweeping := none })).loseCapacity f)

/-- FC_RESTART_DONE: the controller runs again; an emission that it had begun starts again (R261, R434). -/
def execFcRestartDone (field : Fin 64) (s : State) : Host.Outcome State Fault Refusal :=
  if !(s.fld field).restarting then .next s
  else .next ((s.modFld field (fun d => { d with restarting := false })).restartEmission field)

/-! ### Channels (R216 to R223) -/

/-- CHANNEL_LOST: a channel in service is declared LOST (R223), after parity errors through three retries of a command, which CAPAR shows
(R225), or after uncorrectable errors: which of the two it was is a free value (assumption 107). -/
def execChannelLost (field : Fin 64) (ch : Fin 32) (s : State) : Host.Outcome State Fault Refusal :=
  let f := field.val
  if (s.fld f).stack.chanState ch != 0 then .next s
  else
    let parity := (Config.freshByte s.fresh).toNat % 2 == 1
    let s0 := State.modChan { s with fresh := s.fresh + 1 } f ch (fun c => { c with capar := c.capar || parity })
    let s1 := (s0.modFld f (fun d => { d with stack := { d.stack with lost := Nat.lor d.stack.lost (2 ^ ch.val) } })).event 3 2 (s.evPart f) f
      (leBytes 1 f ++ leBytes 1 ch)
    match s.partOf f with
    | some p => .next (s1.raiseLost p f stChannel)
    | none => .next s1

/-- SCRUB: errors that a scrub pass finds in a channel in service (R216, R217, R219). -/
def execScrub (field : Fin 64) (ch : Fin 32) (errs : List EccErr) (s : State) : Host.Outcome State Fault Refusal :=
  let k := (s.fld field).stack
  if k.chanState ch != 0 then .next s
  else .next (s.forAll (errs.filter (fun e => k.chan e.off == ch.val)) (fun s e => s.countErr field e))

/-! ### Temperature (R231 to R234) -/

/-- The highest sill whose temperature a reading has reached. -/
def sillOf (t : Nat) : Nat := if 400 ≤ t then 3 else if 380 ≤ t then 2 else if 360 ≤ t then 1 else 0

/-- The sill after a sample: entered at its temperature, left at 2 °C below it (R231). Where HOT or CRIT is left, the sill whose temperature the
reading has reached is taken, with no hysteresis of a lower one (DESIGN CHOICE, assumption 100). -/
def nextSill (old t : Nat) : Nat :=
  let e := sillOf t
  if old ≤ e then e else if t ≤ (match old with | 3 => 392 | 2 => 372 | _ => 352) then e else old

/-- A sample of a group. -/
def Stack.sample (k : Stack) (group : Nat) (temp : Option Nat) : Stack :=
  let x := k.sensors.getD group {}
  let y : Sensor := match temp with
    | some t => { temp := t, valid := true, missed := 0 }
    | none => { x with valid := false, missed := x.missed + 1 }
  let ss := k.sensors.set group y
  let top := (ss.map Sensor.reads).foldl max 0
  let n := nextSill k.sill top
  { k with sensors := ss, sill := n, warmSeen := k.warmSeen || (1 ≤ n && k.sill < n), hotSeen := k.hotSeen || (2 ≤ n && k.sill < n),
           critSeen := k.critSeen || (n == 3 && k.sill != 3), sensorBad := k.sensorBad || 3 ≤ y.missed }

/-- THERMAL_SAMPLE: a sample of one channel group, in quarters of a degree, or none; the event of CRIT names the lowest of the hottest groups
(assumption 130). -/
def execThermalSample (field : Fin 64) (group : Fin 8) (temp : Option Nat) (s : State) : Host.Outcome State Fault Refusal :=
  let old := (s.fld field).stack
  let new := old.sample group temp
  let s1 := s.modFld field (fun d => { d with stack := new })
  let hot := ((List.range 8).find? (fun i => (new.sensors.getD i {}).reads == (new.sensors.map Sensor.reads).foldl max 0)).getD 0
  let s2 := if new.sill = 3 && old.sill != 3 then s1.event 3 3 (s.evPart field) field
      (leBytes 1 field ++ leBytes 1 hot ++ leBytes 2 (new.sensors.getD hot {}).reads) else s1
  if (new.sensors.map Sensor.reads).any (fun t => 420 ≤ t) then .next { s2 with power := { s2.power with thermtrip := true } } else .next s2

/-! ### Failed host-tier transfers (R276, R475, R488) -/

/-- A transfer of a group fails (R276): the fetch when the address lies in a plane of the bank that it reads, else the oldest write-back; one of a
committed step is to be made again, and no acknowledgement of the failed one is awaited any more. -/
def State.groupFail (s : State) (g : Group) (addr : Nat) : Group :=
  let n := (s.ownBlocks g.p).2
  let inFetch := g.fetching && ([0, 1, 2, 3] : List Nat).any (fun k =>
    decide (g.p.hostOff n k g.fetchBank ≤ addr) && decide (addr < g.p.hostOff n k g.fetchBank + g.p.planeSize n k))
  if inFetch then { g with htErr := true, fetching := false }
  else match g.wbq.find? (fun k => k != 3) with
  | none => { g with htErr := true }
  | some k => { g with htErr := true, wbq := if k = 1 then g.wbq.erase 1 ++ [3] else g.wbq.erase k }

/-- A transfer of an activation entry fails (R276): one of an aborted attempt has settled, and of the attempt in progress an offload that has been
read and not acknowledged, or else the prefetch, is not awaited any more. -/
def ActProg.failed (x : ActProg) : ActProg :=
  if x.offLate then { x with offLate := false }
  else if x.pfLate then { x with pfLate := false }
  else if x.read && !x.off then { x with offFail := true }
  else if x.pfRun && !x.pfDone then { x with pfFail := true }
  else x

/-- A step's transfer fails: the field, the entry or group and the address are named, and the step is aborted (R276). -/
def State.tierFail (s : State) (f item addr : Nat) : State :=
  let s1 := s.event 3 4 (s.evPart f) f (leBytes 1 f ++ [0] ++ leBytes 2 item ++ List.replicate 4 0 ++ leBytes 8 addr)
  if !s.isTrainField f then s1
  else
    let u := s1.knowDecision
    if u.canAbort then (u.faultBit 3).requestAbort else u

/-- A command's transfer fails: a bulk move or an export ends with BAD_TARGET; an entry of a shutter fails (R469, R475). -/
def State.cmdFail (s : State) (q seq : Nat) : State :=
  match s.host.cmds.find? (fun c => c.hdr.queue.val == q && c.hdr.seq == seq && c.phase == .running && !c.posted) with
  | none => s
  | some c =>
    match c.body with
    | .bulkMove _ | .ckptExport _ =>
      (State.finish { s with fab := { s.fab with flows := s.fab.flows.filter (fun x => x.2.uid != some c.uid) } } c.uid stTarget [])
    | .shutter p => { s with shutters := s.shutters.map (fun j => if j.2.uid = c.uid && p.pid = j.1 then (j.1, { j.2 with fail := true }) else j) }
    | _ => s

/-- XFAIL: the HX-2 reports a failed transfer (R475). No rule gives its cause an effect. -/
def execXfail (x : XFail) (s : State) : Host.Outcome State Fault Refusal :=
  let s1 := s.modHost (fun h => { h with xfailSeen := true })
  match x.tag with
  | .queue q => .next (s1.modQueue q (fun x => { x with stopped := true, ringErr := true }))
  | .cring c => .next (s1.modCring c (fun x => { x with stopped := true, ringErr := true }))
  | .ering e => .next (s1.modEring e (fun x => { x with stopped := true, ringErr := true }))
  | .command q seq => .next (s1.cmdFail q seq)
  | .activation part aid field addr =>
    match smapFind s.acts (actKey part aid) with
    | some _ => .next ((s1.modAct (actKey part aid) field ActProg.failed).tierFail field aid addr)
    | none => .next s1
  | .group field gid addr =>
    match s.group field gid with
    | some g => .next ((s1.modGroup field gid (fun _ => s1.groupFail g addr)).tierFail field gid addr)
    | none => .next s1

end Sys2Proof.Machine
end

