-- ==== Sys2Proof/Machine/CmdSec.lean ====
section
/-! DEFINITION. Machine/CmdSec.lean: the security commands and the diagnostics (R236 to R240, R514, R515, R546, R548 to R551). -/

namespace Sys2Proof.Machine

/-! ### 0x09xx -/

/-- The buffer rulings of a command with a least length. -/
def ckReport (op i least : Nat) (b : BufP) : List Check := ckBuf op i b ++ [ckValue (least ≤ b.len) (fieldOff op (i + 1))]

/-- ATTEST: a report with PURPOSE 0 (R551). -/
def startAttest (s : State) (uid : Nat) (p : AttestP) : State :=
  let nonce := [p.n0, p.n1, p.n2, p.n3].flatMap (leBytes 8)
  ((s.writeResult p.buf (s.report 0 nonce [])).signed).finish uid stDone [448]

/-- LOG_READ. -/
def checksLogRead (p : LogP) : List Check :=
  ckBuf 0x0901 2 p.buf ++ [ckValue (p.first ≤ 63) (fieldOff 0x0901 0), ckValue (p.count ≤ 64) (fieldOff 0x0901 1)]

/-- LOG_READ: the stored entries FIRST to FIRST + COUNT - 1, as far as the buffer holds them (R500, R550). -/
def startLogRead (s : State) (uid : Nat) (p : LogP) : State :=
  let es := ((s.sec.entries.drop p.first).take p.count).take (p.buf.len / 64)
  (s.writeResult p.buf (es.flatMap (fun e => padTo 64 e))).finish uid stDone [es.length, s.sec.entries.length]

/-- IDKEY_READ: the public identity key (R548). -/
def startIdkey (s : State) (uid : Nat) (p : BufP) : State :=
  (s.writeResult p (padTo 97 (Config.identityKey s.fuses.secret))).finish uid stDone [97]

/-! ### Test mode (R236) -/

/-- TEST_MODE. -/
def checksTestMode (s : State) (field enter : Nat) : List Check :=
  let o := fieldOff 0x0A00
  let k := (s.fld field).stack
  [ckValue (field ≤ 63) (o 0), ckValue (enter ≤ 1) (o 1), ckState (s.partOf field).isNone stState (o 0), ckState k.testZero.isNone stState (o 0),
   ckState (k.test != (enter == 1)) stAlready (o 1)]

/-- Changes the stack of a field. -/
def State.modStack (s : State) (f : Nat) (g : Stack → Stack) : State := s.modFld f (fun d => { d with stack := g d.stack })

/-- The generator run that holds a channel, by its command. -/
def State.runCmd (s : State) (p : TgP) : Option OutCmd :=
  s.host.cmds.find? (fun c => c.phase == .running && decide (c.body = .tgRun p))

/-- The window of 31 bits of the PRBS31 sequence that starts at bit `n` (R237): bit n + 31 is the sum of bits n + 28 and n (assumption 63). -/
def prbsAt (seed : Nat) : Nat → Nat
  | 0 => seed % 2 ^ 31
  | n + 1 =>
    let w := prbsAt seed n
    w / 2 + 2 ^ 30 * ((w + w / 2 ^ 28) % 2)

/-- The 256 bytes of the burst at channel offset `a` (R237). Data line i of a transfer is bit i of its 128 bytes (assumption 63). -/
def tgBurst (p : TgP) (a : Nat) : List Byte :=
  match p.pattern with
  | 0 => (List.range 256).flatMap (fun j => leBytes 1 (prbsAt p.seed (a / 256 * 2048 + 8 * j)))
  | 1 => leBytes 128 (2 ^ (a / 128 % 1024)) ++ leBytes 128 (2 ^ ((a / 128 + 1) % 1024))
  | _ => (List.range 32).flatMap (fun j => leBytes 8 (a + 8 * j))

/-- The channel offset of burst `i` of a run: it walks from BASE and wraps (R237). -/
def TgP.burstAt (p : TgP) (i : Nat) : Nat := p.base + 256 * (i % (p.len / 256))

/-- Whether burst `i` of a run is a read: the first RDMIX of every 16 are (R237). -/
def TgP.reads (p : TgP) (i : Nat) : Bool := decide (i % 16 < p.rdmix)

/-- The lowest set bit of a number below 2^64, from bit `i` up. -/
def lowBit (x : Nat) : Nat := ((List.range 64).find? (fun i => x.testBit i)).getD 0

/-- The stack offset of an offset of a channel of the interleave list (R214). -/
def Stack.place (k : Stack) (c a : Nat) : Nat := (a / 1024 * k.good.length + k.good.idxOf c) * 1024 + a % 1024

/-- How far a run has come: memory, the mismatched codewords, the first of them as CHN_TG_FAIL0 and CHN_TG_FAIL1 name it, and whether a
mismatch has stopped it (R237 to R239). -/
structure TgWalk where
  mem : Memory
  errs : Nat := 0
  first : Option (Nat × Nat) := none
  stopped : Bool := false
  deriving DecidableEq, Repr

/-- The mismatched codewords of a read of a burst: each by its channel offset and by its lowest failing line and its transfer (R237, R239). -/
def tgCompare (m : Memory) (base : Nat → Nat) (p : TgP) (a : Nat) : List (Nat × Nat) :=
  (List.range 32).filterMap (fun j =>
    let want := leNat (((tgBurst p a).drop (8 * j)).take 8)
    let got := leNat (memReadBytes m (base (a + 8 * j)) 8)
    if got = want then none else some (a + 8 * j, 64 * (j % 16) + lowBit (Nat.xor got want) + 2 ^ 11 * (j / 16)))

/-- One burst of a run: a read that the checker compares, or a write; a run with STOP_ON_ERR stops at a burst that mismatches (R237, R238). -/
def tgStep (base : Nat → Nat) (p : TgP) (w : TgWalk) (i : Nat) : TgWalk :=
  if w.stopped then w
  else if TgP.reads p i then
    let bad := tgCompare w.mem base p (TgP.burstAt p i)
    { w with errs := w.errs + bad.length, first := w.first.or bad.head?, stopped := p.stopOnErr == 1 && !bad.isEmpty }
  else { w with mem := memWriteBytes w.mem (base (TgP.burstAt p i)) (tgBurst p (TgP.burstAt p i)) }

/-- The first `n` bursts of a run in a channel. -/
def State.tgWalk (s : State) (f ch : Nat) (p : TgP) (n : Nat) : TgWalk :=
  (List.range n).foldl (tgStep (fun a => stackBase f + (s.fld f).stack.place ch a) p) { mem := s.mem }

/-- A run ends in one channel after `n` bursts: their data, DONE, the mismatches and the first of them; the command completes with its last
channel (R237 to R239, R515). The checker's mismatches are those of the data in memory and `errs` more that the parts under test
cause, of which `first` is the first (assumption 35). -/
def State.tgEnd (s : State) (f ch errs : Nat) (first : Option (Nat × Nat)) (n : Nat) : State :=
  let c := smapGet ({} : Channel) (s.fld f).stack.chans ch
  match c.run with
  | none => s
  | some p =>
    let w := s.tgWalk f ch p n
    let found := w.errs + errs
    let total := c.tgErrs + found
    let at_ := ((if errs = 0 then none else first).or w.first).getD (0, 0)
    let s1 := State.modChan { s with mem := w.mem } f ch (fun c =>
      { c with run := none, tgDone := true, tgErrs := min total (2 ^ 32 - 1), tgErrsat := c.tgErrsat || 2 ^ 32 - 1 < total,
               tgFail := c.tgFail || found != 0,
               tgFail0 := if c.tgFail || found = 0 then c.tgFail0 else at_.1 % 2 ^ 32,
               tgFail1 := if c.tgFail || found = 0 then c.tgFail1 else at_.2 % 2 ^ 12 })
    match s1.runCmd p with
    | none => s1
    | some m =>
      let r := satAdd 32 m.r0 found
      if m.left ≤ 1 then s1.finish m.uid stDone [r] else s1.modCmd m.uid (fun x => { x with left := x.left - 1, r0 := r })

/-- The bursts after which a run that runs on by itself has nothing new to find: its count, or every offset met at every place of the mix of
reads and writes when it has none (R237, R238). -/
def TgP.span (p : TgP) : Nat := if p.cont = 1 then 16 * (p.len / 256) else p.bursts

/-- Whether a run of a channel ends by itself: one with a count does, and one without at a mismatch when it is to stop there (R238). -/
def State.tgEnds (s : State) (f ch : Nat) (p : TgP) (errs : Nat) : Bool :=
  p.cont != 1 || (p.stopOnErr == 1 && (errs != 0 || (s.tgWalk f ch p (TgP.span p)).stopped))

/-- The bursts a run has made when it ends early: at most its count when it has one. -/
def TgP.early (p : TgP) (n : Nat) : Nat := if p.cont = 1 then n else min n p.bursts

/-- A run is stopped: what its checker has found by then and how far it has come are free values (assumption 35). -/
def State.tgStop (s : State) (f ch : Nat) : State :=
  let v := Config.tgFound s.fresh
  match (smapGet ({} : Channel) (s.fld f).stack.chans ch).run with
  | none => s
  | some p => { s with fresh := s.fresh + 1 }.tgEnd f ch v.1 (some v.2) (TgP.early p (Config.tgBursts s.fresh))

/-- TEST_MODE: a stack enters test mode, or ends its runs and zeroises itself on the way out (R236). -/
def startTestMode (s : State) (uid field enter : Nat) : State :=
  if enter = 1 then (s.modStack field (fun k => { k with test := true })).finish uid stDone []
  else (s.forAll (List.range 32) (fun s c => s.tgStop field c)).modStack field (fun k => { k with testZero := some uid })

/-- TEST_ZEROISE_DONE: the stack is zero, its channels serve again, except LOST ones, whose granules are cleared with the others (R236, R240; the last
is a DESIGN CHOICE, assumption 129). -/
def execTestZeroiseDone (field : Fin 64) (s : State) : Host.Outcome State Fault Refusal :=
  match (s.fld field).stack.testZero with
  | none => .next s
  | some uid =>
    .next ((State.modStack { s with mem := memClear s.mem (stackBase field) (2 ^ 37) } field (fun k =>
      { k with test := false, testZero := none })).finish uid stDone [])

/-! ### The traffic generator (R237 to R239) -/

/-- Whether a TG_RUN moves nothing (R238). -/
def TgP.isNoop (p : TgP) : Bool := p.chmask == 0 || p.len == 0 || (p.bursts == 0 && p.cont != 1)

/-- TG_RUN. A channel named whose run is still in progress turns the whole command away with ALREADY (DESIGN CHOICE, assumption 127). -/
def checksTgRun (s : State) (p : TgP) : List Check :=
  let o := fieldOff 0x0A01
  let k := (s.fld p.field).stack
  let cs := onesBelow 32 p.chmask
  [ckValue (p.field ≤ 63) (o 0), ckValue (p.chmask < 2 ^ 32) (o 1), ckTarget (cs.all (fun c => k.good.contains c)) (o 1), ckValue (p.pattern ≤ 2) (o 2),
   ckZero (p.pattern != 0 || p.seed % 2 ^ 31 != 0) (o 3), ckValue (p.seed < 2 ^ 31 && (p.pattern == 0 || p.seed == 0)) (o 3), ckAlign (p.base % 256 == 0) (o 4),
   ckAlign (p.len % 256 == 0) (o 5), ckValue (p.base < 2 ^ 32 && p.base + p.len ≤ 2 ^ 32) (o 5), ckValue (p.rdmix ≤ 16) (o 6), ckZero (p.rate != 0) (o 7),
   ckValue (p.rate ≤ 1000) (o 7), ckValue (p.bursts < 2 ^ 32 && (p.cont != 1 || p.bursts == 0)) (o 8), ckValue (p.cont ≤ 1) (o 9), ckValue (p.stopOnErr ≤ 1) (o 10),
   ckState (k.test && k.testZero.isNone) stState (o 0),
   ckState (cs.all (fun c => (smapGet ({} : Channel) k.chans c).run.isNone)) stAlready (o 1)]

/-- TG_RUN starts the generators of the named channels. -/
def startTgRun (s : State) (uid : Nat) (p : TgP) : State :=
  if TgP.isNoop p then s.finish uid stDone []
  else
    let cs := onesBelow 32 p.chmask
    (s.forAll cs (fun s c => s.modChan p.field c (fun x => { x with run := some p, tgErrs := 0 }))).modCmd uid (fun c => { c with left := cs.length })

/-- TG_RUN_DONE: a run ends in one channel, by itself: after its count of bursts, or at a mismatch; a run without a count that nothing has
stopped runs on (R238). Where the parts under test cause the mismatch, how far the run has come is a free value (assumption 35). -/
def execTgRunDone (field : Fin 64) (ch : Fin 32) (errs : Nat) (first : Option (Nat × Nat)) (s : State) : Host.Outcome State Fault Refusal :=
  match (smapGet ({} : Channel) (s.fld field).stack.chans ch).run with
  | none => .next s
  | some p =>
    if !s.tgEnds field ch p errs then .next s
    else if p.stopOnErr = 1 && errs != 0 then
      .next ({ s with fresh := s.fresh + 1 }.tgEnd field ch errs first (TgP.early p (Config.tgBursts s.fresh)))
    else .next (s.tgEnd field ch errs first (TgP.span p))

/-- TG_STOP. -/
def checksTgStop (field chmask : Nat) : List Check := [ckValue (field ≤ 63) (fieldOff 0x0A02 0), ckValue (chmask < 2 ^ 32) (fieldOff 0x0A02 1)]

/-- TG_STOP ends the named runs. -/
def startTgStop (s : State) (uid field chmask : Nat) : State :=
  (s.forAll (onesBelow 32 chmask) (fun s c => s.tgStop field c)).finish uid stDone []

/-! ### Self-test (R515, R546) -/

/-- The loss that a self-test finds in a field, its failing tiles given by physical tile number (R529). -/
def State.testLoss (s : State) (f : Nat) (failed : List Nat) : SlotLoss :=
  (s.fld f).loss ((failed.filter (fun n => n / 17 == f)).map (fun n => n % 17))

/-- A self-test of a field: its failing tiles are fenced, counted, and remapped as R15 decides. -/
def State.testField (s : State) (f : Nat) (failed : List Nat) : State :=
  let x := s.testLoss f failed
  ((s.applyLoss f x).lossEvents f x).modFld f (fun d => { d with testFailed := d.testFailed + x.failed.length })

/-- A self-test of fields; a field that is short raises CAPACITY_LOST. -/
def State.selfTest (s : State) (fs failed : List Nat) : State :=
  s.forAll fs (fun s f =>
    let s1 := s.testField f failed
    if (s.testLoss f failed).unserved.isEmpty then s1 else s1.loseCapacity f)

/-- SELFTEST. -/
def checksSelftest (s : State) (fmask : Nat) : List Check :=
  [ckState ((onesBelow 64 fmask).all (fun f => (s.partOf f).isNone)) stState (fieldOff 0x0A03 0)]

/-- SELFTEST: the tiles of the named fields that are not fenced are tested. -/
def startSelftest (s : State) (uid fmask : Nat) (feed : Feed) : State :=
  let fs := onesBelow 64 fmask
  let bad := (fs.map (fun f => (s.testLoss f feed.failed).failed.length)).foldl (· + ·) 0
  (s.selfTest fs feed.failed).finish uid stDone [bad, fs.length]

end Sys2Proof.Machine
end

