-- ==== Sys2Proof/Machine/BootRows.lean ====
section
/-! DEFINITION. Machine/BootRows.lean: the phases of a boot (R214, R221, R222, R240, R540 to R546). -/

namespace Sys2Proof.Machine

/-- Sets the boot phase. -/
def State.bootPhase (s : State) (n : Nat) : State := { s with power := { s.power with phase := n } }

/-- LOADER_WAIT: WAITING is set and vector 0 asks for an image (R540). -/
def State.loaderWait (s : State) : State :=
  State.tell { s.bootPhase 1 with sec := { s.sec with waiting := true } } .ring (.irq 0)

/-- IMAGE_PUSH: a write of 1 to PUSH in LOADER_WAIT; the image is read in the BULK class (R541). -/
def execImagePush (view : Fin 17) (value : Word) (s : State) : Host.Outcome State Fault Refusal :=
  if view.val = 16 && value.toNat.testBit 0 && s.power.phase = 1 then
    let a := s.sec.addrLo.toNat + s.sec.addrHi.toNat * 2 ^ 32
    .next (State.tell { s.bootPhase 2 with sec := { s.sec with waiting := false } } (.bulk 16 64) (.hostRead a s.sec.len.toNat))
  else .next s

/-! ### Checking an image (R542, R543) -/

/-- Whether a range of bytes is zero. -/
def bytesZero (bs : List Byte) (lo hi : Nat) : Bool := ((bs.drop lo).take (hi - lo)).all (fun b => b == 0)

/-- Whether an owner's key is asked for. -/
def State.ownerAsked (s : State) : Bool := s.fuses.ownerHash.any (fun b => b != 0)

/-- Check 1: the header. -/
def imageHeader (bs : List Byte) (len : Nat) : Bool :=
  let body := bytesAt bs 16 8
  bytesAt bs 0 4 == 0x31465844 && 64 ≤ body && body ≤ 67108864 && body % 64 == 0 && len == 1024 + body && bytesAt bs 4 4 == 1
    && decide (bytesAt bs 12 4 < 2) && bytesZero bs 72 128 && bytesZero bs 225 256 && bytesZero bs 352 384 && bytesZero bs 481 512
    && bytesZero bs 608 1024

/-- The hash that both signatures cover. -/
def imageDigest (bs : List Byte) : List Byte := Config.sha384 (bs.take 128)

/-- A byte string of an image. -/
def bytesOf (bs : List Byte) (o n : Nat) : List Byte := (bs.drop o).take n

/-- The checks of R542 by their numbers, all but check 2. -/
def State.imageChecks (s : State) (bs : List Byte) (len : Nat) : List (Nat × Bool) :=
  [(1, imageHeader bs len),
   (3, decide (Config.sha384 (bs.drop 1024) = bytesOf bs 24 48)),
   (4, decide (Config.sha384 (bytesOf bs 128 97) = s.fuses.rootHash)),
   (5, Config.ecdsaVerify (bytesOf bs 128 97) (bytesOf bs 256 96) (imageDigest bs)),
   (6, !s.ownerAsked || ((bytesAt bs 12 4).testBit 0 && decide (Config.sha384 (bytesOf bs 384 97) = s.fuses.ownerHash))),
   (7, !s.ownerAsked || Config.ecdsaVerify (bytesOf bs 384 97) (bytesOf bs 512 96) (imageDigest bs)),
   (8, decide (s.fuses.minSvn ≤ bytesAt bs 8 4))]

/-- The code of the first failing check. -/
def State.imageFail (s : State) (bs : List Byte) (len : Nat) : Option Nat :=
  ((s.imageChecks bs len).find? (fun c => !c.2)).map Prod.fst

/-- A failed image is discarded: ATTEMPTS, FAIL, and LOADER_WAIT again (R543). -/
def State.imageBad (s : State) (code : Nat) : State :=
  State.loaderWait { s with sec := { s.sec with fail := code, attempts := satAdd 8 s.sec.attempts 1 } }

/-- The measurements after check 7 (R550). -/
def State.measureImage (s : State) (bs : List Byte) : State :=
  let s1 := s.measure 2 (imageDigest bs)
  if s.ownerAsked then s1.measure 3 s.fuses.ownerHash else s1

/-- IMAGE_READ_DONE: the image has been read, or not every byte was delivered (R542, R543). -/
def execImageReadDone (image : Option (List Byte)) (s : State) : Host.Outcome State Fault Refusal :=
  if s.power.phase != 2 then .next s
  else match image with
  | none => .next (s.imageBad 2)
  | some data =>
    let bs := padTo s.sec.len.toNat data
    match s.imageFail bs s.sec.len.toNat with
    | some 8 => .next ((s.measureImage bs).imageBad 8)
    | some c => .next (s.imageBad c)
    | none =>
      let s1 := s.measureImage bs
      .next (State.bootPhase { s1 with sec := { s1.sec with imageSvn := bytesAt bs 8 4, fwDigest := imageDigest bs,
                                                            ownerDigest := if s.ownerAsked then s.fuses.ownerHash else [] } } 3)

/-! ### LOAD to READY (R540) -/

/-- FIRMWARE_LOAD_DONE: CONFIG_WAIT. -/
def execFirmwareLoadDone (s : State) : Host.Outcome State Fault Refusal :=
  if s.power.phase = 3 then .next (s.bootPhase 4) else .next s

/-- A stack after training: channels that neither fuses nor blob map out are trained, and those that pass make the interleave list (R214,
R221). -/
def Stack.trained (k : Stack) (fuse : Nat) (failed : List Nat) : Stack :=
  let named := Nat.lor fuse k.blobMap
  let bad := failed.filter (fun c => c < 32 && !named.testBit c)
  { k with trainMap := packBits ((bad.eraseDups).map (fun c => (c, 1))),
           good := (List.range 32).filter (fun c => !named.testBit c && !bad.contains c) }

/-- DRAM_TRAIN_DONE: training has ended; the channels that failed, by field. -/
def execDramTrainDone (failed : List (Nat × Nat)) (s : State) : Host.Outcome State Fault Refusal :=
  if s.power.phase != 5 then .next s
  else .next ((s.forAll (List.range 64) (fun s f => s.modFld f (fun d =>
    { d with stack := d.stack.trained (s.fuseChans f) ((failed.filter (fun x => x.1 == f)).map Prod.snd) }))).bootPhase 6)

/-- BOOT_ZEROISE_DONE: every stack is zero (R240). -/
def execBootZeroiseDone (s : State) : Host.Outcome State Fault Refusal :=
  if s.power.phase != 6 then .next s
  else .next (State.bootPhase { s with mem := s.mem.filter (fun c => !decide (c.1 < 2 ^ 43)) } 7)

/-- A field whose stack has no channel presents no slots (R222). -/
def State.emptyStacks (s : State) : State :=
  s.forAll (List.range 64) (fun s f => if (s.fld f).stack.good.isEmpty then s.modFld f (fun d => { d with gone := true }) else s)

/-- Whether the module is on its way from RETAIN to RUN (R537). -/
def State.leavesRetain (s : State) : Bool := s.power.state == 3 && s.power.req.any (fun r => r.1 == 1)

/-- The fields in which a self-test finds a new failure. -/
def State.failingFields (s : State) (failed : List Nat) : List Nat := (List.range 64).filter (fun f => !(s.testLoss f failed).failed.isEmpty)

/-- SELFTEST_DONE: failing physical tiles are fenced and remapped. In a boot READY is reached, and every field that is short raises CAPACITY_LOST
(R15, R222, R546, R553); on the return from RETAIN the new failures post their events (R430, R546). -/
def execSelftestDone (failed : List Nat) (s : State) : Host.Outcome State Fault Refusal :=
  if s.power.phase != 7 then (if s.leavesRetain then .next (s.selfTest (s.failingFields failed) failed) else .next s)
  else
    let s1 := (s.forAll (List.range 64) (fun s f => s.testField f failed)).emptyStacks
    let s2 := State.event { s1 with power := { s1.power with phase := 8, state := 1 } } 12 3 16 0 []
    .next (s2.forAll ((List.range 64).filter (fun f => (s2.fld f).slots.length < 16)) (fun s f => s.raiseLost 16 f stCapacity))

end Sys2Proof.Machine
end

