-- ==== Sys2Proof/Machine/CmdFabric.lean ====
section
/-! DEFINITION. Machine/CmdFabric.lean: the fabric and island commands (R25, R312, R315, R318, R510). -/

namespace Sys2Proof.Machine

/-- ISLAND_FORM: at the map's keeper, when the island is not formed. -/
def checksIslandForm (s : State) : List Check :=
  [ckTarget (s.blob.keeper == s.place.moduleId) 0, ckState (s.place.size == 0) stAlready 0, ckState s.place.placed stState 0]

/-- The island is formed: size, diameter and depth (R22, R318, R346). -/
def State.form (s : State) (uid : Nat) : State :=
  let n := s.blob.members.length
  let h := s.blob.diameter
  let d := s.blob.depthTo s.bcn.fences s.bcn.keeperId
  State.finish { s with place := { s.place with size := n, diam := h, depth := d } } uid stDone [n, h, d]

/-- ISLAND_FORM: an illegal map, or two modules of one id, does not form; otherwise every listed module is asked, and the island stands when
all have answered (R25, R318). -/
def startIslandForm (s : State) (uid : Nat) (feed : Feed) : State :=
  if !s.blob.legal then s.finish uid stValue []
  else
    let s1 := s.emits ((s.blob.members.filter (fun m => m.id != s.place.moduleId)).map (fun m => .formation m.id))
    if !feed.failed.isEmpty || !decide ((s.blob.members.map (fun m => m.id)).Nodup) then s1.finish uid stValue []
    else if feed.answered then s1.form uid else s1

/-- FORMATION_NO_ANSWER: a listed module does not answer; the command completes with BAD_VALUE (R25). -/
def execFormationNoAnswer (module : Nat) (s : State) : Host.Outcome State Fault Refusal :=
  if s.isMember module then
    .next (s.finishAll (fun c => c.phase == .running && opcodeOf c.body == 0x0500) stValue)
  else .next s

/-- PORT_RETRAIN (R315, R510). -/
def checksPortRetrain (s : State) (port : Nat) : List Check :=
  [ckValue (port ≤ 7) (fieldOff 0x0504 0), ckState (7 < port || (s.port port).state == 3 || (s.port port).state == 4) stState (fieldOff 0x0504 0)]

/-- PORT_RETRAIN: the port enters TRAIN (R313). -/
def startPortRetrain (s : State) (uid port : Nat) : State := (s.modPort port (fun x => { x with state := 1, returning := true })).finish uid stDone []

/-- PORT_CLEAR: an 8-bit mask. -/
def checksPortClear (pmask : Nat) : List Check := [ckValue (pmask < 256) (fieldOff 0x0505 0)]

/-- PORT_CLEAR: zeroes CRCERR and REPLAYS of the named ports (R510). -/
def startPortClear (s : State) (uid pmask : Nat) : State :=
  (s.forAll (onesBelow 8 pmask) (fun s p => s.modPort p (fun x => { x with crcerr := 0, replays := 0 }))).finish uid stDone []

/-- FABRIC_SET (R312). -/
def checksFabricSet (p : FabricP) : List Check :=
  let o := fieldOff 0x0506
  [ckZero (p.replayUs != 0) (o 0), ckValue (p.replayUs ≤ 64) (o 0), ckZero (p.replayLim != 0) (o 1), ckValue (2 ≤ p.replayLim && p.replayLim ≤ 32) (o 1),
   ckZero (p.flowRtoUs != 0) (o 2), ckValue (10 ≤ p.flowRtoUs && p.flowRtoUs ≤ 1000) (o 2),
   ckZero (p.flowRetry != 0) (o 3), ckValue (2 ≤ p.flowRetry && p.flowRetry ≤ 15) (o 3)]

/-- FABRIC_SET. -/
def startFabricSet (s : State) (uid : Nat) (p : FabricP) : State :=
  State.finish { s with fab := { s.fab with
    set := { replayUs := p.replayUs, replayLim := p.replayLim, flowRtoUs := p.flowRtoUs, flowRetry := p.flowRetry } } } uid stDone []

end Sys2Proof.Machine
end

