-- ==== Sys2Proof/Machine/CmdMove.lean ====
section
/-! DEFINITION. Machine/CmdMove.lean: bulk moves, exports of groups and ranges, and what the host tier answers to them (R19, R21, R266, R316,
R422, R453, R461, R475, R507, R512). -/

namespace Sys2Proof.Machine

/-! ### Island addresses (R21) -/

/-- The module of an island address. -/
def islandModule (a : Nat) : Nat := a / 2 ^ 48

/-- The module address in an island address. -/
def islandAddr (a : Nat) : Nat := a % 2 ^ 48

/-- Whether an island address names this module. -/
def State.ownAddr (s : State) (a : Nat) : Bool := islandModule a == s.place.moduleId

/-- The unit an address of another module lies in: base, window and capacity, as R18 fixes them for every module. -/
def remoteUnit (a : Nat) : Option (Nat × Nat × Nat) :=
  if a < 2 ^ 43 then some (a / 2 ^ 37 * 2 ^ 37, 2 ^ 37, 2 ^ 37)
  else if a < 0x081000000000 then some (a / 2 ^ 26 * 2 ^ 26, 2 ^ 26, 0x2800000)
  else if a < 0x081200000000 then some (a / 2 ^ 27 * 2 ^ 27, 2 ^ 27, 0x6000000)
  else none

/-- Whether a range of another module touches no hole that R18 fixes; what that module has mapped out or left unserved it knows itself
(assumption 65). -/
def remoteRange : Nat → Nat → Nat → Bool
  | 0, _, n => n == 0
  | fuel + 1, a, n =>
    if n = 0 then true
    else match remoteUnit a with
      | none => false
      | some (base, size, cap) =>
        if a + n ≤ base + cap then true
        else if cap = size && a < base + size then remoteRange fuel (base + size) (a + n - (base + size))
        else false

/-! ### BULK_MOVE (R507) -/

/-- The checks of one end of a bulk move; a count of zero takes no target check (R490). -/
def State.endChecks (s : State) (part kind a n ik ia : Nat) : List Check :=
  let o := fieldOff 0x0200
  ckValue (kind ≤ 1) (o ik) ::
  (if kind = 0 then
    [ckAlign (a % 64 == 0) (o ia), ckValue (a < 2 ^ 58) (o ia), ckTarget (n == 0 || s.isMember (islandModule a)) (o ia),
     ckTarget (n == 0 || if s.ownAddr a then s.moduleRange part (islandAddr a) n else remoteRange 2112 (islandAddr a) n) (o ia)]
  else ckHostAddr a n (o ia))

/-- BULK_MOVE. -/
def checksBulk (s : State) (part : Nat) (p : BulkP) : List Check :=
  s.endChecks part p.sk p.src p.bytes 0 2 ++ s.endChecks part p.dk p.dst p.bytes 1 3 ++ [ckAlign (p.bytes % 64 == 0) (fieldOff 0x0200 4)]

/-- Opens a flow context of this module for a command (R316). -/
def State.openFlow (s : State) (k part peer uid : Nat) : State :=
  s.modFlow k (fun _ => { part := part, peer := peer, ctx := k, uid := some uid })

/-- Whether an end of a bulk move lies in another module. -/
def State.remoteEnd (s : State) (kind a : Nat) : Bool := kind == 0 && !s.ownAddr a

/-- The contexts that a bulk move holds here. -/
def State.bulkContexts (s : State) (p : BulkP) : Nat := b2n (s.remoteEnd p.sk p.src) + b2n (s.remoteEnd p.dk p.dst)

/-- The write flow that a command has open. -/
def State.writeFlow (s : State) (uid : Nat) : Option Nat :=
  (s.fab.flows.find? (fun x => x.2.uid == some uid && !x.2.reading)).map Prod.fst

/-- The class of a bulk move at its host end (R474): the field is the one whose stack its other end lies in, 64 where that is no stack of this
module. -/
def State.moveClass (s : State) (part kind a : Nat) : ReiloClass :=
  .bulk part (if kind = 0 && s.ownAddr a then min 64 (islandAddr a / 2 ^ 37) else 64)

/-- Bytes that a bulk move has read leave for its destination. -/
def State.bulkWrite (s : State) (uid part : Nat) (p : BulkP) (bytes : List Byte) : State :=
  if p.dk = 1 then s.hostPutFor uid (s.moveClass part p.sk p.src) p.dst bytes
  else if s.ownAddr p.dst then (s.pokeBytes (islandAddr p.dst) bytes).transferDone uid
  else match s.writeFlow uid with
    | some k => s.flowSend k (islandAddr p.dst) bytes
    | none => s

/-- Opens the write flow of a bulk move to another module. -/
def State.openBulk (s : State) (uid part : Nat) (p : BulkP) : State :=
  if s.remoteEnd p.dk p.dst then s.openFlow s.freeCtx part (islandModule p.dst) uid else s

/-- Asks another module for the bytes of a bulk move's source: they come on a flow of this module. -/
def State.askBulk (s : State) (uid part : Nat) (p : BulkP) : State :=
  let k := s.freeCtx
  let onto := s.writeFlow uid
  let s1 := s.modFlow k (fun _ =>
    { part := part, peer := islandModule p.src, ctx := k, uid := some uid, reading := true, toHost := p.dk == 1, onto := onto,
      dst := if p.dk = 1 then p.dst else islandAddr p.dst, expect := p.bytes })
  let s2 := match onto with
    | some w => s1.modFlow w (fun x => { x with expect := p.bytes })
    | none => s1
  s2.emit (.islandRead (islandModule p.src) (islandAddr p.src) p.bytes k)

/-- BULK_MOVE: a move inside the module completes at once; one to or from the host tier or another module when the last byte is
acknowledged or has landed (R422, R507). -/
def startBulk (s : State) (uid part : Nat) (p : BulkP) : State :=
  if p.bytes = 0 then s.finish uid stDone []
  else if s.contextsFree < s.bulkContexts p then s.finish uid stContext []
  else
    let parts := if p.dk = 1 && (p.sk = 1 || s.remoteEnd p.sk p.src) then 2 else if p.sk = 1 && s.remoteEnd p.dk p.dst then 2 else 1
    let s1 := (s.openBulk uid part p).modCmd uid (fun c => { c with left := parts })
    if p.sk = 1 then s1.tell (s.moveClass part p.dk p.dst) (.hostRead p.src p.bytes)
    else if s.ownAddr p.src then s1.bulkWrite uid part p (s.peekBytes (islandAddr p.src) p.bytes)
    else s1.askBulk uid part p

/-! ### Exports (R453, R461) -/

/-- The stack offset that an export of a HOME = 0 group copies to offset `o` of its range: the plane of the committed bank in both
positions. -/
def exportSrc (g : GroupP) (n bank o : Nat) : Nat :=
  match (List.range ((g.baseSizes n).length / 2)).find? (fun k =>
    let p := g.planeOff n k (1 - bank)
    decide (p ≤ o && o < p + g.planeSize n k)) with
  | some k => g.planeOff n k bank + (o - g.planeOff n k (1 - bank))
  | none => o

/-- The stack offsets that an export of a group reads, in the order of its bytes: the planes; for a HOST group its residual planes, then
the park slot of a pending LATE update. -/
def State.groupSource (s : State) (g : Group) : List Nat :=
  let n := (s.ownBlocks g.p).2
  if g.p.tier.home = 1 then
    (List.range (planeEnd g.p.tier.rbase g.p.resSizes - g.p.tier.rbase)).map (fun i => g.p.tier.rbase + i)
      ++ (match g.parks with
        | k :: _ => if g.p.tier.late = 1 then (List.range (512 * n)).map (fun i => s.parkAddr g.p k.step - stackBase g.p.field + i) else []
        | [] => [])
  else (List.range (planeEnd g.p.pbase (g.p.baseSizes n) - g.p.pbase)).map (fun i => exportSrc g.p n g.bank (g.p.pbase + i))

/-- The bytes per field that an entry may take of its destination. -/
def State.entryBytes (s : State) (e : ExportE) (f : Nat) : Nat :=
  if e.kind = 1 then e.bytes
  else match s.group f e.gid with
    | some g => (s.groupSource { g with parks := if g.p.tier.late = 1 then [{ step := 0, factor := 0, scal := [] }] else [] }).length
    | none => 0

/-- The rulings of an export entry; `off` the offsets of its eight fields, `part` the partition. -/
def State.exportChecks (s : State) (part : Nat) (off : Nat → Nat) (didx : Nat) (e : ExportE) : List Check :=
  let fs := onesBelow 64 e.fmask
  let per := (fs.map (fun f => s.entryBytes e f)).foldl max 0
  let span := (fs.length - 1) * e.dstride + per
  ([ckValue (e.kind ≤ 1) (off 0), ckValue (e.dkind ≤ 1) (off 1), ckZero (e.fmask != 0) (off 2),
    ckTarget (fs.all (fun f => s.reach part f)) (off 2),
    ckTarget (e.kind == 1 || fs.all (fun f => (s.group f e.gid).isSome)) (off 3), ckValue (e.kind == 0 || e.gid == 0) (off 3),
    ckAlign (e.soff % 64 == 0) (off 4), ckAlign (e.bytes % 64 == 0) (off 5),
    ckValue (e.kind == 1 || e.soff == 0) (off 4), ckValue (e.kind == 1 || e.bytes == 0) (off 5),
    ckTarget (e.kind != 1 || e.bytes == 0 || fs.all (fun f => s.stackRange f e.soff e.bytes)) (off 4),
    ckZero (e.dstride != 0) (off 7), ckAlign (e.dstride % 64 == 0) (off 7), ckValue (per ≤ e.dstride) (off 7)]
   ++ (if e.dkind = 0 then
     [ckAlign (e.dest % 64 == 0) (off 6), ckValue (e.dest < 2 ^ 58) (off 6), ckTarget (per == 0 || (s.isMember (islandModule e.dest) && !s.ownAddr e.dest)) (off 6),
      ckTarget (per == 0 || islandAddr e.dest + span ≤ 2 ^ 43) (off 6)]
   else ckHostAddr e.dest (if per = 0 then 0 else span) (off 6))).map (fun c => { c with didx := didx })

/-- The module addresses that an entry reads in a field. -/
def State.entrySource (s : State) (e : ExportE) (f : Nat) : List Nat :=
  (if e.kind = 1 then (List.range e.bytes).map (fun i => e.soff + i)
   else match s.group f e.gid with
     | some g => s.groupSource g
     | none => []).map (fun o => stackBase f + o)

/-- What an entry writes: destination and source addresses, field by field. -/
def State.entryParts (s : State) (e : ExportE) : List (Nat × List Nat) :=
  (onesBelow 64 e.fmask).zipIdx.map (fun x => (e.dest + x.2 * e.dstride, s.entrySource e x.1))

/-- The bytes of an entry, and how many of them lie in granules of LOST channels. -/
def State.entrySize (s : State) (e : ExportE) : Nat × Nat :=
  (s.entryParts e).foldl (fun a x => (a.1 + x.2.length, a.2 + x.2.countP s.lostAt)) (0, 0)

/-- Sends the bytes of an entry to a heir over the command's flow to it, or to the host tier (R461), there in the class of a shutter's export or
of a partition's own bulk traffic (R474). -/
def State.sendEntry (s : State) (uid : Nat) (part : Option Nat) (e : ExportE) : State :=
  s.forAll (s.entryParts e) (fun s x =>
    let bytes := x.2.map s.peek
    if e.dkind = 1 then
      (if bytes.isEmpty then s
       else match part with
         | some p => s.hostPutFor uid (.bulk p (min 64 (x.2.headD 0 / 2 ^ 37))) x.1 bytes
         | none => s.hostPut .shutter x.1 bytes)
    else match (s.fab.flows.find? (fun y => y.2.uid == some uid && y.2.peer == islandModule e.dest)).map Prod.fst with
      | some k => s.flowSend k (islandAddr x.1 + (if part.isNone then heirMark else 0)) bytes
      | none => s)

/-- CKPT_EXPORT as a GROUP entry. -/
def ckptEntry (p : CkptP) : ExportE :=
  { kind := 0, dkind := p.dkind, fmask := p.fmask, gid := p.gid, soff := 0, bytes := 0, dest := p.dest, dstride := p.dstride }

/-- CKPT_EXPORT. -/
def checksCkpt (s : State) (part : Nat) (p : CkptP) : List Check :=
  s.exportChecks part (fun i => fieldOff 0x0705 (match i with | 2 => 0 | 3 => 1 | 1 => 2 | 6 => 3 | 7 => 4 | _ => 0)) 0 (ckptEntry p)

/-- CKPT_EXPORT: the committed planes are read now and leave; word 0 gives the MiB written (R512). -/
def startCkpt (s : State) (uid part : Nat) (p : CkptP) : State :=
  let e := ckptEntry p
  let mib := (s.entrySize e).1 / 2 ^ 20
  if p.dkind = 0 && s.contextsFree = 0 then s.finish uid stContext []
  else
    let s1 := s.modCmd uid (fun c => { c with left := 1, r0 := mib })
    (if p.dkind = 0 then s1.openFlow s.freeCtx part (islandModule p.dest) uid else s1).sendEntry uid (some part) e

/-! ### HOST_TIER_ACK (R475) -/

/-- Whether a bulk move from the host tier still waits for its data. -/
def State.bulkAwaits (s : State) (p : BulkP) (left : Nat) : Bool :=
  p.sk == 1 && (if p.dk = 1 || s.remoteEnd p.dk p.dst then left == 2 else left == 1)

/-- HOST_TIER_ACK: the HX-2 delivers the last read, or acknowledges the last write, of a command's transfer. -/
def execHostTierAck (q : Fin 64) (seq : Nat) (data : List Byte) (s : State) : Host.Outcome State Fault Refusal :=
  match s.host.cmds.find? (fun c => c.hdr.queue.val == q.val && c.hdr.seq == seq && c.phase == .running && !c.posted) with
  | none => .next s
  | some c =>
    match c.body with
    | .bulkMove p =>
      if s.bulkAwaits p c.left then
        let s1 := if c.left = 2 then s.modCmd c.uid (fun x => { x with left := 1 }) else s
        .next (s1.bulkWrite c.uid c.part p (padTo p.bytes data))
      else if p.dk = 1 && c.left = 1 then .next (s.transferDone c.uid)
      else .next s
    | .ckptExport p => if p.dkind = 1 then .next (s.transferDone c.uid) else .next s
    | _ => .next s

end Sys2Proof.Machine
end

