-- ==== Sys2Proof/Machine/EngineRows.lean ====
section
/-! DEFINITION. Machine/EngineRows.lean: what the collective engine, the field controllers and the gateways take from their flows (R249, R250, R258,
R317, R322, R326 to R330, R383, R409). -/

namespace Sys2Proof.Machine

/-- The state after a row that answers a next state. -/
def stateAfter (o : Host.Outcome State Fault Refusal) (s : State) : State := match o with | .next t => t | _ => s

/-- A message of a collective group (R322, R326, R327): `bad` and `lane` what the residue check meets on its segment (R328). -/
def State.groupMsg (s : State) (group bad lane : Nat) (m : FabMsg) : State :=
  match smapFind s.fab.groups group with
  | none => s
  | some g => if m.kind = 0 then s.takeSig (sigOf group g.epoch m) else s.takeSeg (segOf group g.epoch bad lane m)

/-- A message of a replica set (R249, R250, R258, R409). -/
def State.memberMsg (s : State) (m : FabMsg) : State :=
  let a := fun (i : Nat) => m.args.getD i 0
  let f := Fin.ofNat 64 (a 0)
  match m.kind with
  | 2 => (s.addContrib f (a 1) (a 3) (a 2) m.data).tryReduce f (a 1)
  | 3 => if a 3 = s.bcn.step then stateAfter (doMirrorShardLanded f (a 1) (a 2) m.data s) s else s
  | 4 => s.ownerShard f (a 1) (a 2) (a 3) (m.data.drop 4)
  | _ => if a 3 = s.bcn.step then stateAfter (execOuterMasterReceive f (a 1) (a 2) m.data s) s else s

/-- A transfer that has reached its destination module (R386). -/
def State.xferHere (s : State) (x : Xfer) : State :=
  match x.typ with
  | 0 => stateAfter (doUpTransferDelivered x s) s
  | 1 => stateAfter (doDownTransferDelivered x s) s
  | 2 => stateAfter (execStatusTransferRx x s) s
  | 3 => stateAfter (execFetchReqRx x s) s
  | _ => stateAfter (execFetchDataRx x s) s

/-- A message that a flow has delivered. -/
def State.takeMsg (s : State) (set bad lane : Nat) (m : FabMsg) : State :=
  if m.kind ≤ 1 then s.groupMsg (set % 1024) bad lane m
  else if m.kind ≤ 5 then s.memberMsg m
  else
    let x := xferOf (m.data.take 48) (m.data.drop 48)
    if set = gatewaySet then s.relayXfer x else s.xferHere x

/-- Every message that flows have delivered is taken, in order. -/
def State.takeInbox (s : State) (bad lane : Nat) : State :=
  State.forAll { s with fab := { s.fab with inbox := [] } } s.fab.inbox (fun s x => s.takeMsg x.2.1 bad lane x.2.2)

/-- COLLECTIVE_SEGMENT: a packet of an engine's flow arrives, and the message that it completes is taken (R317, R322, R326 to R329); a residue mismatch
in a segment of it is R328's. A signature or a segment that comes whole names its epoch: one of another epoch is stale, and a residue mismatch in it
is counted, and that is all (R329, R330). -/
def execCollectiveSegment (m : CollMsg) (s : State) : Host.Outcome State Fault Refusal :=
  let stale : State := { s with fab := { s.fab with staleSeen := true } }
  match m with
  | .sig g =>
    match smapFind s.fab.groups g.group with
    | none => .next s
    | some grp => if grp.epoch != g.epoch then .next stale else .next (s.takeSig g)
  | .seg g =>
    match smapFind s.fab.groups g.group with
    | none => .next s
    | some grp => if grp.epoch != g.epoch then .next { stale with fab := stale.fab.lostMismatches [g] } else .next (s.takeSeg g)
  | .packet port f bad lane =>
    let r := s.linkAccept port f
    if r.2 && f.dest == s.place.moduleId && f.kind = 1 then settle (.next ((r.1.enginePacket f).takeInbox bad lane)) else .next r.1

end Sys2Proof.Machine
end

