-- ==== Sys2Proof/Machine/Shutter.lean ====
section
/-! DEFINITION. Machine/Shutter.lean: the shutter and the deletion of a partition (R452 to R469). -/

namespace Sys2Proof.Machine

/-! ### SHUTTER and PART_DELETE at submission (R452, R453, R466) -/

/-- SHUTTER. -/
def checksShutter (s : State) (p : ShutterP) : List Check :=
  let o := fieldOff 0x0103
  let n := p.entries.length
  [ckValue (p.pid ≤ 15) (o 0), ckTarget (15 < p.pid || (s.part p.pid).state != 0) (o 0), ckState ((s.part p.pid).state != 3) stAlready (o 0),
   ckValue (p.mode ≤ 1) (o 1), ckZero (p.waitMs != 0) (o 2), ckValue (p.waitMs ≤ 10000) (o 2), ckValue (p.cut ≤ 1) (o 3),
   ckValue (p.nextProfile ≤ 3) (o 4),
   ckTarget ((onesBelow 64 p.qbind).all (fun q => (s.cmdQueue q).view == 17 || (s.cmdQueue q).view == p.pid)) (o 5), ckValue (n ≤ 256) (o 6)]
  ++ (p.entries.zipIdx).flatMap (fun e => s.exportChecks p.pid (itemOff 0x0103 0 n e.2) e.2 e.1)

/-- PART_DELETE. -/
def checksPartDelete (s : State) (pid : Nat) : List Check :=
  let o := fieldOff 0x0101
  [ckValue (pid ≤ 15) (o 0), ckTarget (15 < pid || (s.part pid).state != 0) (o 0), ckState ((s.part pid).state != 3) stAlready (o 0)]

/-! ### Drain and abandon (R456 to R459) -/

/-- Changes the record of a running shutter. -/
def State.modShutter (s : State) (pid : Nat) (g : ShutterJob → ShutterJob) : State :=
  { s with shutters := s.shutters.map (fun j => if j.1 = pid then (j.1, g j.2) else j) }

/-- Sets PHASE of MOD_PART. -/
def State.shutterPhase (s : State) (pid ph : Nat) : State := s.modPart pid (fun x => { x with phase := ph })

/-- ABANDON: ABORT is flooded for an attempt in progress whose COMMIT is not decided (R457). -/
def State.enterAbandon (s : State) (pid : Nat) : State :=
  let s1 := s.shutterPhase pid 3
  if (s.part pid).train && s.bcn.begun then s1.requestAbort else s1

/-- CHECK has ended well: the partition is in SHUTTER and drains, or is abandoned (R456, R457, R459). -/
def State.enterDrain (s : State) (uid : Nat) (p : ShutterP) (del : Bool) : State :=
  let x := s.part p.pid
  let s1 := ({ s with shutters := smapSet s.shutters p.pid { uid := uid, p := p, del := del } }).modPart p.pid (fun x => { x with state := 3, phase := 2 })
  if p.mode = 1 || (x.train && (s.bcn.recovering || x.state = 2)) then s1.enterAbandon p.pid else s1

/-- The heir modules of a shutter's entries. -/
def ShutterP.heirs (p : ShutterP) : List Nat := ((p.entries.filter (fun e => e.dkind == 0)).map (fun e => islandModule e.dest)).eraseDups

/-- The ranges that a shutter asks a heir for. -/
def State.heirRanges (s : State) (p : ShutterP) (m : Nat) : List (Nat × Nat) :=
  (p.entries.filter (fun e => e.dkind == 0 && islandModule e.dest == m)).flatMap (fun e =>
    (s.entryParts e).map (fun x => (islandAddr x.1, x.2.length)))

/-- SHUTTER: CHECK, by one handshake with each heir and with the HX-2, whose answers `feed` holds: the entries that failed, or no answer at
all (R455). -/
def startShutter (s : State) (uid : Nat) (p : ShutterP) (feed : Feed) : State :=
  let hs := ShutterP.heirs p
  let s1 := s.emits (hs.map (fun m => .heirAsk m (s.heirRanges p m)))
  if !p.entries.isEmpty && (!feed.answered || !feed.failed.isEmpty) then
    let i := feed.failed.headD 0
    (s1.finish uid stTarget []).modCmd uid (fun c => { c with detail := detailOf (itemOff 0x0103 0 p.entries.length i 6) i })
  else if s.contextsFree < hs.length then s1.finish uid stContext []
  else (s1.forAll hs (fun s m => s.openFlow s.freeCtx p.pid m uid)).enterDrain uid p false

/-- PART_DELETE: a shutter with MODE ABANDON and no entries (R466). -/
def startPartDelete (s : State) (uid pid : Nat) : State :=
  s.enterDrain uid { pid := pid, mode := 1, waitMs := 1, cut := 0, nextProfile := 0, qbind := 0, entries := [] } true

/-- Whether a command belongs to a partition and is not one that shutters it. -/
def OutCmd.ofPart (c : OutCmd) (pid : Nat) : Bool := c.part == pid && opcodeOf c.body / 256 != 1

/-- Whether a group's publication has finished or is held: by its slot's own count, or, under OWNER, by a member whose slot count is not zero. That
member's count is not told to this module, so whether an OWNER emission in progress waits on one is a free value (R259, R262, R456; assumption
125). -/
def Group.settled (g : Group) : Bool :=
  !g.pendingVer || g.holds (if g.pubOnly.isSome then g.version else g.version + 1) != 0
    || (g.p.cons == 1 && g.emitting && (Config.unstated 456 [g.p.field, g.p.gid, g.version]).toNat % 2 == 1)

/-- Whether the drain point may fall now: after ABANDON once the abort's transfers have settled (R456, R457, R459). -/
def State.drainReady (s : State) (pid : Nat) (j : ShutterJob) : Bool :=
  let x := s.part pid
  if x.train then
    !s.bcn.begun && (if j.commit then x.fields.all (fun f => (s.fld f).groups.all (fun g => g.2.settled)) else x.phase == 3 && s.transfersSettled)
  else x.phase == 3 || !(s.host.cmds.any (fun c => c.ofPart pid && c.phase != .done))

/-- What the drain point of a training partition does to the step line: the keeper withholds the next STEP_BEGIN, and after ABANDON every module
gives the step up and the position stands (R344, R458). -/
def State.drainLine (s : State) (pid : Nat) (j : ShutterJob) : State :=
  if !(s.part pid).train then s
  else if j.commit || !s.bcn.recovering then
    (if j.commit then s else s.endRepeated pid stAbShutter).flareUp (stopFrame 0 s.bcn.step s.bcn.attempt)
  else (s.flareUp (stopFrame 2 s.bcn.step s.bcn.attempt)).abandonIn (stopFrame 2 s.bcn.step s.bcn.attempt)

/-- Publications that are still held are abandoned (R456). -/
def State.dropPublications (s : State) (pid : Nat) : State :=
  s.forAll (s.part pid).fields (fun s f => s.modFld f (fun d => { d with
    groups := smapMap (fun _ g => { g with pendingVer := false, emitting := false, got := [] }) d.groups }))

/-- The drain point falls, and EXPORT begins: entries in ascending index, field by field; the partition's outstanding commands await ZEROISE, and do
not complete before it (R460, R461, R502). -/
def State.drainPoint (s : State) (pid : Nat) (j : ShutterJob) : State :=
  let s0 := (s.drainLine pid j).dropPublications pid
  let s1 := (s0.modHost (fun h => { h with cmds := h.cmds.map (fun c => if c.ofPart pid && c.phase != .done then { c with drained := true } else c) })).shutterPhase pid 4
  (s1.modShutter pid (fun x => { x with sizes := j.p.entries.map s1.entrySize })).forAll j.p.entries (fun s e => s.sendEntry j.uid none e)

/-- SHUTTER_DRAIN_POINT. -/
def execShutterDrainPoint (pid : Fin 16) (s : State) : Host.Outcome State Fault Refusal :=
  match smapFind s.shutters pid with
  | some j => if (s.part pid).phase < 4 && s.drainReady pid j then .next (s.drainPoint pid j) else .next s
  | none => .next s

/-- SHUTTER_WAIT_TIMEOUT: WAIT_MS has expired: a training partition without a COMMIT goes on to ABANDON; any other has its drain point (R456,
R459, R469). -/
def execShutterWaitTimeout (pid : Fin 16) (s : State) : Host.Outcome State Fault Refusal :=
  match smapFind s.shutters pid with
  | some j =>
    if (s.part pid).phase != 2 || j.commit then .next s
    else if (s.part pid).train then .next (s.enterAbandon pid)
    else .next (s.drainPoint pid j)
  | none => .next s

/-! ### ZEROISE (R389, R420, R462) -/

/-- Closes the lantern ports of a partition (R389). -/
def State.closeLports (s : State) (pid : Nat) : State :=
  s.forAll ((List.range 4).filter (fun p => (s.part pid).lports.testBit p)) (fun s p =>
    let x := s.lport p
    let s1 := if x.live then (s.emit (.lntClose p x.session)).dropSession p else s
    let s2 := if x.state != 0 && x.present then s1.emit (.dataPath p false) else s1
    s2.modLport p (fun x => { x with state := 0, linked := false, own := none, peer := none }))

/-- A tile after ZEROISE: its seed registers, SEM_OVF and histograms are not among what R462 clears, and its queues go on counting their
descriptors, from the latest STEP_BEGIN (R184, R209). -/
def TileState.zeroise (t : TileState) : TileState :=
  { seedLo := t.seedLo, seedHi := t.seedHi, semOvf := t.semOvf, hist := t.hist, queues := smapMap (fun _ q => { nextSeq := q.nextSeq }) t.queues }

/-- A field after ZEROISE: slot map, stack settings, steering and committed counts are not among what R462 clears. -/
def Field.zeroise (d : Field) : Field :=
  { d with meter := {}, caps := [], classEn := 0x81, steerEn := false, groups := [], sweeping := none, capRaised := false, normWait := false, normSum := 0, normDone := false, refresh := false,
           nfskip := false, norm := 0, clipf := 0x3F800000, skips := 0, scal := List.replicate 8 0x3F800000, awaits := [], placed := [], refill := [] }

/-- The outer loop after ZEROISE of the training partition: record and state go, routes and the gateways' view stay (R420). -/
def OuterIsland.zeroise (o : OuterIsland) : OuterIsland := { routes := o.routes, gwUp := o.gwUp, dark := o.dark, sent := o.sent }

/-- The field of a module address below the end of memory. -/
def addrField (a : Nat) : Nat :=
  if a < 2 ^ 43 then a / 2 ^ 37 else if a < 0x081000000000 then (a - 0x080000000000) / 2 ^ 26 / 16 else (a - 0x081000000000) / 2 ^ 27

/-- The fabric after ZEROISE: the partition's groups, collectives and flows go (R334). -/
def Fabric.zeroise (b : Fabric) (pid : Nat) : Fabric :=
  let mine := fun (n : Nat) => match smapFind b.groups n with | some g => g.part == pid | none => false
  { b with groups := b.groups.filter (fun g => g.2.part != pid), flows := b.flows.filter (fun x => x.2.part != pid),
           jobs := b.jobs.filter (fun j => !mine j.p.group), barriers := b.barriers.filter (fun x => !mine (x.1 / 2 ^ 48)), earlySigs := b.earlySigs.filter (fun x => !mine x.group),
           earlySegs := b.earlySegs.filter (fun x => !mine x.group) }

/-- ZEROISE begins: the partition's outstanding commands complete with ABORTED_SHUTTER, and every trace is cleared; a LOST channel keeps its
contents (R460, R462). -/
def State.zeroise (s : State) (pid : Nat) : State :=
  let fs := (s.part pid).fields
  let s1 := ((s.shutterPhase pid 5).finishAll (fun c => c.ofPart pid) stAbShutter).closeLports pid
  let s2 : State := { s1 with
    mem := s1.mem.filter (fun c => !fs.contains (addrField c.1) || s1.lostAt c.1),
    tiles := smapMap (fun t x => if fs.contains (t / 16) then x.zeroise else x) s1.tiles,
    fields := smapMap (fun f d => if fs.contains f then d.zeroise else d) s1.fields,
    acts := s1.acts.filter (fun e => e.1 / 1024 != pid),
    fab := s1.fab.zeroise pid,
    chk := smapErase s1.chk (pid + 1) }
  if (s.part pid).train then s2.modOuter OuterIsland.zeroise else s2

/-! ### The end of EXPORT (R461, R465, R469) -/

/-- The sums over the entries that finished. -/
def ShutterJob.sums (j : ShutterJob) (done : Nat → Bool) : Nat × Nat × Nat :=
  ((j.sizes.zipIdx).filter (fun x => done x.2)).foldl (fun a x => (a.1 + 1, a.2.1 + x.1.1, a.2.2 + x.1.2)) (0, 0, 0)

/-- Whether every byte of a shutter's flows is acknowledged. -/
def State.flowsDone (s : State) (uid : Nat) : Bool := s.fab.flows.all (fun x => x.2.uid != some uid || (x.2.unacked.isEmpty && x.2.queued.isEmpty))

/-- Closes the flows of a command. -/
def State.closeFlows (s : State) (uid : Nat) : State := { s with fab := { s.fab with flows := s.fab.flows.filter (fun x => x.2.uid != some uid) } }

/-- EXPORT has ended: its sums are kept, its flows closed, and ZEROISE begins. -/
def State.exportEnd (s : State) (pid : Nat) (j : ShutterJob) (fin bytes ff : Nat) (cut fail : Bool) : State :=
  ((s.modShutter pid (fun x => { x with finished := fin, bytes := bytes, ffBytes := ff, cut := cut, fail := fail })).closeFlows j.uid).zeroise pid

/-- SHUTTER_EXPORT_DONE: every entry has finished or failed (R461, R469). -/
def execShutterExportDone (pid : Fin 16) (feed : Feed) (s : State) : Host.Outcome State Fault Refusal :=
  match smapFind s.shutters pid with
  | some j =>
    if (s.part pid).phase != 4 || !(s.flowsDone j.uid) then .next s
    else
      let r := j.sums (fun i => !feed.failed.contains i)
      .next (s.exportEnd pid j r.1 r.2.1 r.2.2 false (j.fail || !feed.failed.isEmpty))
  | none => .next s

/-- EXPORT_CUT_TIMER: 55 s after submission, with `finished` entries complete and `bytes` written (R465); when the last has finished the
export counts as finished (R469). -/
def execExportCutTimer (pid : Fin 16) (finished bytes : Nat) (s : State) : Host.Outcome State Fault Refusal :=
  match smapFind s.shutters pid with
  | some j =>
    if (s.part pid).phase != 4 || j.p.cut != 1 || j.p.entries.length ≤ finished then .next s
    else .next (s.exportEnd pid j finished bytes (j.sums (fun i => i < finished)).2.2 true j.fail)
  | none => .next s

/-! ### HANDOVER (R463, R466) -/

/-- HANDOVER of a shutter; what completes with it is posted before its event (R493). -/
def State.handover (s : State) (pid : Nat) (j : ShutterJob) : State :=
  let s1 := s.modHost (fun h => { h with queues := smapMap (fun _ q => if q.view == pid then { q with view := 17 } else q) h.queues })
  let s2 := s1.forAll (onesBelow 64 j.p.qbind) (fun s q => s.modQueue q (fun x => { x with view := pid }))
  let s3 := s2.modPart pid (fun x => { x with train := false, profile := j.p.nextProfile, pendProfile := none, cause := 0, state := 1, phase := 0,
                                              cutSeen := x.cutSeen || j.cut })
  (s3.finish j.uid (if j.cut then stCut else if j.fail then stTarget else stDone) [j.bytes / 2 ^ 20, j.finished, j.ffBytes / 2 ^ 20]).postReady.event 11 1 pid 0
    (leBytes 1 (b2n j.cut))

/-- A deleted partition: the slot is FREE, and its lantern ports keep no window of it (R364, R466). -/
def State.freePart (s : State) (pid : Nat) (j : ShutterJob) : State :=
  ((s.forAll ((List.range 4).filter (fun p => (s.part pid).lports.testBit p)) (fun s p =>
    s.modLport p (fun x => { x with configured := false, set := {}, pend := {} }))).modPart pid (fun _ => {})).finish j.uid stDone [0, 0, 0]

/-- SHUTTER_ZEROISE_DONE: HANDOVER, or the end of a deletion. -/
def execShutterZeroiseDone (pid : Fin 16) (s : State) : Host.Outcome State Fault Refusal :=
  match smapFind s.shutters pid with
  | some j =>
    if (s.part pid).phase != 5 then .next s
    else
      let s1 : State := { s with shutters := smapErase s.shutters pid }
      .next (if j.del then s1.freePart pid j else s1.handover pid j)
  | none => .next s

end Sys2Proof.Machine
end

