-- ==== Sys2Proof/Machine/PowerRows.lean ====
section
/-! DEFINITION. Machine/PowerRows.lean: reset, rails, power transitions and the Reilo link (R232, R471 to R476, R533 to R540). -/

namespace Sys2Proof.Machine

/-! ### Transitions (R536 to R539) -/

/-- POWER_STATE_REACHED: the requested transition is done: its effect, the command's completion and the event with the new state. -/
def execPowerStateReached (s : State) : Host.Outcome State Fault Refusal :=
  match s.power.req with
  | none => .next s
  | some (st, uid) =>
    let s1 := if st = 3 then s.afterRetain else s
    let s2 : State := { s1 with power := { s1.power with state := st, req := none, railoffOk := st == 3 } }
    .next ((s2.finish uid stDone []).postReady.event 12 1 16 0 (leBytes 1 st))

/-! ### Reset and rails (R533 to R536) -/

/-- The ROM phase: the ROM is measured and LOADER_WAIT begins (R540, R550). -/
def State.startBoot (s : State) : State := (s.measure 1 Config.romDigest).loaderWait

/-- RESET: MRST_N is held low and released; with the control rail good the boot starts (R534, R540). -/
def execReset (s : State) : Host.Outcome State Fault Refusal :=
  if s.power.pgCtl then .next s.afterReset.startBoot else .next s

/-- PWRFLT_N is asserted; a POWER event with code 2 goes first while PG_CTL is present (R535). -/
def State.powerFault (s : State) : State :=
  let s1 := if s.power.pgCtl then s.event 12 2 16 0 [] else s
  { s1 with power := { s1.power with pwrflt := true } }

/-- The good signal of a rail. -/
def Power.good (p : Power) (rail : Nat) : Bool := match rail with | 0 => p.pgCtl | 1 => p.pgDram | _ => p.pgCore

/-- The enable of a rail. -/
def Power.enabled (p : Power) (rail : Nat) : Bool := match rail with | 0 => p.penCtl | 1 => p.penDram | _ => p.penCore

/-- Sets the good signal of a rail. -/
def Power.setGood (p : Power) (rail : Nat) (b : Bool) : Power :=
  match rail with | 0 => { p with pgCtl := b } | 1 => { p with pgDram := b } | _ => { p with pgCore := b }

/-- Sets the enable of a rail. -/
def Power.setEnable (p : Power) (rail : Nat) (b : Bool) : Power :=
  match rail with | 0 => { p with penCtl := b } | 1 => { p with penDram := b } | _ => { p with penCore := b }

/-- Whether the power state is prepared for the removal of a rail: the core rail in RETAIN once RAILOFF_OK is set (R537). -/
def Power.prepared (p : Power) (rail : Nat) : Bool := rail == 2 && p.railoffOk

/-- RAIL_GOOD_LOST (R535): rail 0 control, 1 DRAM, 2 core. -/
def execRailGoodLost (rail : Fin 3) (s : State) : Host.Outcome State Fault Refusal :=
  let p := s.power
  let s1 : State := { s with power := p.setGood rail false }
  if p.enabled rail && p.good rail && !p.prepared rail then .next s1.powerFault else .next s1

/-- RAIL_ENABLE_REMOVED (R534, R535): the rail goes down; the core rail in RETAIN is prepared for it. With the control rail the module controller
goes, and with it everything but the fuses (R536). -/
def execRailEnableRemoved (rail : Fin 3) (s : State) : Host.Outcome State Fault Refusal :=
  let p := s.power
  let q := (p.setEnable rail false).setGood rail false
  if rail.val = 0 then
    .next { s.afterOff with power := { s.afterOff.power with penDram := p.penDram, penCore := p.penCore, pgDram := p.pgDram, pgCore := p.pgCore,
                                                             thermtrip := p.thermtrip, pwrflt := p.pwrflt } }
  else if p.enabled rail && !p.prepared rail then .next { s.powerFault with power := { q with pwrflt := true } }
  else .next { s with power := q }

/-- RAIL_ENABLE_ASSERTED (R534): the module brings the rail up and drives its good signal. -/
def execRailEnableAsserted (rail : Fin 3) (s : State) : Host.Outcome State Fault Refusal :=
  let q := (s.power.setEnable rail true).setGood rail true
  .next (State.sampleInput { s with power := { q with on := q.on || rail == 0, railoffOk := q.railoffOk && rail != 2 } })

/-- INPUT_OUT_OF_RANGE: the input has left 42 to 58 V for longer than 1 ms (R535). -/
def execInputOutOfRange (s : State) : Host.Outcome State Fault Refusal := .next (s.sampleInput).powerFault

/-- PG_CORE_RETURN: PG_CORE returns, and RAILOFF_OK is cleared (R537). -/
def execPgCoreReturn (s : State) : Host.Outcome State Fault Refusal :=
  if s.power.penCore then .next { s with power := { s.power with pgCore := true, railoffOk := false } } else .next s

/-- POWER_REMOVED: the module is OFF (R535, R536). -/
def execPowerRemoved (s : State) : Host.Outcome State Fault Refusal := .next s.afterOff

/-- PSTAT: what the HX-2 reports of the rails' enables and the power state it requests (R476); it changes no state of the module by itself. -/
def execPstat (rails : Nat) (req : Nat) (s : State) : Host.Outcome State Fault Refusal :=
  .next { s with power := { s.power with railsHx2 := rails, reqHx2 := req } }

/-! ### The Reilo link (R471 to R473) -/

/-- REILO_SILENCE: no valid frame for 10 µs, and an end retrains the link. -/
def execReiloSilence (s : State) : Host.Outcome State Fault Refusal :=
  if s.host.state = 2 then .next (s.modHost (fun h => { h with state := 1, downSeen := true })) else .next s

/-- REILO_LINK_UP: the link is UP with `lanes` lanes locked, and the postings that it held go out (R473, R474). -/
def execReiloLinkUp (lanes : Nat) (s : State) : Host.Outcome State Fault Refusal :=
  if s.power.pgCtl then .next (s.modHost (fun h => { h with state := 2, lanesOk := min lanes 16 })).release else .next s

end Sys2Proof.Machine
end

