-- ==== Sys2Proof/Machine/Submit.lean ====
section
/-! DEFINITION. Machine/Submit.lean: the submission of a command: checks, violations, the point, the start (R350, R353, R421, R437, R450, R460,
R480 to R485). -/

namespace Sys2Proof.Machine

/-! ### Checks and effects by opcode -/

/-- The checks of a command's parameters; `view` the queue's view, `part` the partition the header names. -/
def State.bodyChecks (s : State) (view : Nat) (h : Hdr) (part : Nat) : Body → List Check
  | .nop => []
  | .config p => checksConfig s p
  | .inventory p => checksInventory p
  | .power st => checksPower s st
  | .queueSetup p => checksQueueSetup s p
  | .cringSetup p => checksCring s p
  | .eringSetup p => checksEring p
  | .partCreate p => checksPartCreate s p
  | .partDelete pid => checksPartDelete s pid
  | .profile pid prof => checksProfile s pid prof
  | .shutter p => checksShutter s p
  | .heirWindow opn p => checksHeir s opn p
  | .queueBind q v => checksBind s q v
  | .bulkMove p => checksBulk s part p
  | .regulator p => checksRegulator s part p
  | .regulatorSys p => checksRegulatorSys s part p
  | .errClear fm cm => checksErrClear s part fm cm
  | .actReg p => checksActReg s part p
  | .actRemove aid => checksActRemove s part aid
  | .footprint => []
  | .tileProgram p => checksTileProgram s h part p
  | .stepStart s0 => checksStepStart s s0
  | .stepStop => []
  | .markTable items => checksMarkTable items
  | .keeperSelect k m => checksKeeper s k m
  | .watchdog p => checksWatchdog p
  | .islandForm => checksIslandForm s
  | .cgroupReg id ms => checksCgroupReg s part id ms
  | .cgroupRemove id => checksCgroupRemove s part id
  | .collective op p => checksCollective s part op p
  | .portRetrain p => checksPortRetrain s p
  | .portClear m => checksPortClear m
  | .fabricSet p => checksFabricSet p
  | .fedRecord p => checksFedRecord s p
  | .outerReg p => checksOuterReg s part p
  | .outerRemove p => checksOuterRemove s part p
  | .routeTable items => checksRouteTable s items
  | .lportConfig p => checksLportConfig s p
  | .optics dir p => checksOptics s dir p
  | .lportClear m => checksLportClear m
  | .pgroupReg p => checksPgroupReg s part p
  | .pgroupRemove p => checksPgroupRemove s part p
  | .publish p => checksPublish s part p
  | .stepScalar slot v => checksScalar slot v
  | .driftAudit p => checksAudit s part p
  | .ckptExport p => checksCkpt s part p
  | .healthRead p => checksHealth p
  | .healthClear _ _ _ _ => []
  | .steerCtl p => checksSteerCtl p
  | .steerSlot p => checksSteerSlot p
  | .steerPin slot rung unpin => checksPin slot rung unpin
  | .nevtEn c e => checksNevt c e
  | .snapshot p => checksSnapshot view p
  | .attest p => ckReport 0x0900 4 448 p.buf
  | .logRead p => checksLogRead p
  | .idkeyRead p => ckReport 0x0902 0 97 p
  | .testMode f e => checksTestMode s f e
  | .tgRun p => checksTgRun s p
  | .tgStop f m => checksTgStop f m
  | .selftest m => checksSelftest s m

/-- The effect of a command that starts. -/
def State.bodyStart (s : State) (view uid : Nat) (h : Hdr) (part : Nat) (point : Option (Nat × Nat)) (feed : Feed) : Body → State
  | .nop => startNop s uid
  | .config p => startConfig s uid p feed
  | .inventory p => startInventory s uid p
  | .power st => startPower s uid st
  | .queueSetup p => startQueueSetup s uid p
  | .cringSetup p => startCring s uid p
  | .eringSetup p => startEring s uid p
  | .partCreate p => startPartCreate s uid p
  | .partDelete pid => startPartDelete s uid pid
  | .profile pid prof => startProfile s uid pid prof
  | .shutter p => startShutter s uid p feed
  | .heirWindow opn p => if opn = 1 then startHeirOpen s uid p else startHeirClose s uid p
  | .queueBind q v => startBind s uid q v
  | .bulkMove p => startBulk s uid part p
  | .regulator p => startRegulator s uid part p
  | .regulatorSys p => startRegulatorSys s uid p
  | .errClear fm cm => startErrClear s uid fm cm
  | .actReg p => startActReg s uid part p
  | .actRemove aid => startActRemove s uid part aid
  | .footprint => startFootprint s uid part
  | .tileProgram p => startTileProgram s uid part h.eval p
  | .stepStart s0 => startStepStart s uid s0
  | .stepStop => startStepStop s uid
  | .markTable items => startMarkTable s uid items
  | .keeperSelect k m => startKeeper s uid k m
  | .watchdog p => startWatchdog s uid p
  | .islandForm => startIslandForm s uid feed
  | .cgroupReg id ms => startCgroupReg s uid part id ms
  | .cgroupRemove id => startCgroupRemove s uid id
  | .collective op p => startCollective s uid part op p
  | .portRetrain p => startPortRetrain s uid p
  | .portClear m => startPortClear s uid m
  | .fabricSet p => startFabricSet s uid p
  | .fedRecord p => startFedRecord s uid p
  | .outerReg p => startOuterReg s uid p
  | .outerRemove p => startOuterRemove s uid p
  | .routeTable items => startRouteTable s uid items
  | .lportConfig p => startLportConfig s uid p
  | .optics dir p => startOptics s uid dir p feed
  | .lportClear m => startLportClear s uid m
  | .pgroupReg p => startPgroupReg s uid p
  | .pgroupRemove p => startPgroupRemove s uid p
  | .publish p => startPublish s uid p
  | .stepScalar slot v => startAnnounced s uid part (.stepScalar slot v) point
  | .driftAudit p => startAudit s uid p
  | .ckptExport p => startCkpt s uid part p
  | .healthRead p => startHealth s uid part p
  | .healthClear t0 t1 t2 t3 => startHealthClear s uid part [t0, t1, t2, t3]
  | .steerCtl p => startSteerCtl s uid part p
  | .steerSlot p => startSteerSlot s uid part p
  | .steerPin slot rung unpin => startAnnounced s uid part (.steerPin slot rung unpin) point
  | .nevtEn c e => startNevt s uid part c e
  | .snapshot p => startSnapshot s uid view p
  | .attest p => startAttest s uid p
  | .logRead p => startLogRead s uid p
  | .idkeyRead p => startIdkey s uid p
  | .testMode f e => startTestMode s uid f e
  | .tgRun p => startTgRun s uid p
  | .tgStop f m => startTgStop s uid f m
  | .selftest m => startSelftest s uid m feed

/-! ### Violations (R331, R388, R450, R526) -/

/-- The fabric ports and the lantern ports that a command names, as masks. -/
def portsNamed : Body → Nat × Nat
  | .portRetrain p => (if p < 8 then 2 ^ p else 0, 0)
  | .portClear m => (m % 256, 0)
  | .lportConfig p => (0, if p.port < 4 then 2 ^ p.port else 0)
  | .optics _ p => (0, if p.port < 4 then 2 ^ p.port else 0)
  | .lportClear m => (0, m % 16)
  | _ => (0, 0)

/-- Whether a partition owns every port that a command names. -/
def Partition.ownsPorts (p : Partition) (b : Body) : Bool :=
  let n := portsNamed b
  Nat.land n.1 p.fports == n.1 && Nat.land n.2 p.lports == n.2

/-- The cause of a violation by a command on a partition's queue (check 3 of R483): 0 privileged opcode, 1 another partition, 2 another's
port. STEP_START and STEP_STOP are for the training partition (R509). -/
def State.violation (s : State) (view : Nat) (h : Hdr) (b : Body) : Option Nat :=
  let op := opcodeOf b
  if 16 ≤ view then none
  else if opPriv op || ((op == 0x0400 || op == 0x0401) && !(s.part view).train) then some 0
  else if h.part != view || (match b with | .profile pid _ => pid != view | _ => false) then some 1
  else if !(s.part view).ownsPorts b then some 2
  else none

/-- VIOL_COUNT and MOD_VIOL_LAST (R526). -/
def State.countViolation (s : State) (q view cause op : Nat) : State :=
  { s with mods := { s.mods with violCount := satAdd 32 s.mods.violCount 1,
                                 violLast := BitVec.ofNat 32 (packBits [(0, q), (6, view), (11, cause), (15, 1), (16, op)]) } }

/-! ### The gates of a start (R350, R421, R485) -/

/-- Whether a command has started and not completed (R480). -/
def OutCmd.started (c : OutCmd) : Bool := c.phase == .running && !c.posted

/-- Whether the limits of started commands leave room in queue `q`: 256 in it, 4,096 in all (R480). -/
def State.startRoom (s : State) (q : Fin 64) : Bool :=
  let live := s.host.cmds.filter (fun c => c.started)
  decide ((live.filter (fun c => c.hdr.queue == q)).length < 256) && decide (live.length < 4096)

/-- Whether a waiting command may start: nothing earlier in its queue waits to start or for an entry, FENCE is met, its point is reached, an
entry is free and the limits leave room (R350, R421, R480, R485). -/
def State.mayBegin (s : State) (c : OutCmd) : Bool :=
  let before := s.host.cmds.filter (fun x => x.hdr.queue == c.hdr.queue && decide (x.uid < c.uid) && !x.posted)
  before.all (fun x => x.phase != .waiting && x.slot && (!c.hdr.fence || x.phase == .done))
    && c.point.all (fun p => s.reachedPoint p.1 p.2) && s.ringFree c.hdr.queue && s.startRoom c.hdr.queue

/-- What a command of a partition meets in place of its own effect: ABORTED_SHUTTER after the drain point (R460), the cause of a STOPPED
partition for tile programs and collectives (R437). -/
def State.turnedAway (s : State) (part op : Nat) : Option Nat :=
  let p := s.part part
  if part = 16 || op / 256 = 1 then none
  else if p.state = 3 && 4 ≤ p.phase then some stAbShutter
  else if p.state = 2 && (op = 0x0300 || op = 0x0503) then some p.cause
  else none

/-- A command starts. -/
def State.begin (s : State) (c : OutCmd) (feed : Feed) : State :=
  let view := (s.cmdQueue c.hdr.queue).view
  let s1 := s.modCmd c.uid (fun x => { x with phase := .running, slot := true, profile := (s.part c.part).profile })
  match s.turnedAway c.part (opcodeOf c.body) with
  | some st => s1.finish c.uid st []
  | none => s1.bodyStart view c.uid c.hdr c.part c.point feed c.body

/-- A command starts if it may; one that may not, of a partition past its drain point, completes with ABORTED_SHUTTER (R460). -/
def State.tryBegin (s : State) (c : OutCmd) (feed : Feed) : State :=
  if s.mayBegin c then s.begin c feed
  else match s.turnedAway c.part (opcodeOf c.body) with
    | some st => if st = stAbShutter then s.finish c.uid st [] else s
    | none => s

/-! ### Submission (R480, R483, R484) -/

/-- Whether queue `q` takes a packet: over a link that is UP (R473), from phase CONFIG_WAIT on, set up, bound, not stopped, and below the limits of
R480 and R540. -/
def State.queueOpen (s : State) (q : Nat) : Bool :=
  let x := s.cmdQueue q
  s.host.state == 2 && 4 ≤ s.power.phase && x.enabled && !x.stopped && x.view != 17 && s.startRoom (Fin.ofNat 64 q)

/-- The entry of a new command. -/
def State.newCmd (s : State) (h : Hdr) (b : Body) : OutCmd :=
  { uid := s.host.nextUid, hdr := h, body := b, part := h.part, sqhead := (s.cmdQueue h.queue).head }

/-- Adds a command to those in hand. -/
def State.addCmd (s : State) (c : OutCmd) : State :=
  s.modHost (fun x => { x with cmds := x.cmds ++ [c], nextUid := x.nextUid + 1 })

/-- A rejected command (R484): it takes its completion entry at submission, or where none is free waits for one (R485). -/
def State.reject (s : State) (c : OutCmd) (k : Check) : State :=
  s.addCmd { c with phase := .done, slot := s.ringFree c.hdr.queue, status := k.status, detail := detailOf k.off k.didx, r0 := k.r0, r1 := k.r1 }

/-- The point of a command: the one it carries, or the one that its deadline is given (R350, R353). -/
def State.pointOf (s : State) (h : Hdr) : Option (Nat × Nat) :=
  if h.sched then some (h.step, h.mark) else if h.dl then some (s.deadlinePoint h.deadline h.mark) else none

/-- Every check of a command in the order of R483, check 3 apart; `pre` those of its packet. -/
def State.allChecks (s : State) (h : Hdr) (b : Body) (pre : List Check) : List Check :=
  pre ++ s.headerChecks h (opcodeOf b) ++ s.stateChecks h (opcodeOf b) ++ s.bodyChecks (s.cmdQueue h.queue).view h h.part b

/-- An accepted command: it has its point, and starts if it may. -/
def State.accept (s : State) (h : Hdr) (b : Body) (feed : Feed) : State :=
  let c := { s.newCmd h b with point := s.pointOf h }
  ((if c.point.isSome then s.announce h.part b c.point else s).addCmd c).tryBegin c feed

/-- The submission of a command. -/
def State.submitWith (s : State) (h : Hdr) (b : Body) (pre : List Check) (feed : Feed) : State :=
  let all := s.allChecks h b pre
  let view := (s.cmdQueue h.queue).view
  match firstFail (all.filter (fun c => c.order ≤ 2)), s.violation view h b, firstFail all with
  | some k, _, _ => s.reject (s.newCmd h b) k
  | none, some cause, _ =>
    (s.countViolation h.queue view cause (opcodeOf b)).addCmd { s.newCmd h b with phase := .done, status := stDone, slot := s.ringFree h.queue }
  | none, none, some k => s.reject (s.newCmd h b) k
  | none, none, none => s.accept h b feed

/-- A command of a row of the table: its packet has been fetched and read. -/
def State.submit (s : State) (h : Hdr) (b : Body) (feed : Feed) : State :=
  if s.queueOpen h.queue then s.submitWith h b [] feed else s

/-- Whether a command sets guaranteed shares: their sum is judged again when it starts, since one that waited with it may have changed the
others (R229). -/
def setsRates : Body → Bool
  | .regulator _ | .regulatorSys _ => true
  | _ => false

/-- The oldest waiting command of a queue. -/
def State.nextWaiting (s : State) (q : Fin 64) : Option OutCmd := s.host.cmds.find? (fun c => c.hdr.queue == q && c.phase == .waiting)

/-- Whether a ready command of another partition stands behind a ready one of a SERVE partition, whose start comes first (R447). -/
def State.servedFirst (s : State) (c : OutCmd) : Bool :=
  !s.serves c.part && (List.finRange 64).any (fun q => (s.nextWaiting q).any (fun d => d.part != c.part && s.serves d.part && s.mayBegin d))

/-- SCHEDULED_START: the oldest waiting command of a queue starts if it may and none of a SERVE partition stands before it; its targets and states, and the shares' sum of a regulator
command, are checked again (R229, R350, R447, R517). -/
def execScheduledStart (q : Fin 64) (feed : Feed) (s : State) : Host.Outcome State Fault Refusal :=
  match s.nextWaiting q with
  | none => .next s
  | some c =>
    if !s.mayBegin c || s.servedFirst c then .next s
    else
      let view := (s.cmdQueue q).view
      let others := s.modHost (fun h => { h with cmds := h.cmds.filter (fun x => x.uid != c.uid) })
      let again := fun (k : Check) => 11 ≤ k.order || (setsRates c.body && k.status == stValue)
      let late := firstFail ((others.bodyChecks view c.hdr c.part c.body).filter again)
      match s.turnedAway c.part (opcodeOf c.body), late with
      | none, some k => .next ((s.finish c.uid k.status []).modCmd c.uid (fun x => { x with detail := detailOf k.off k.didx }))
      | _, _ => .next (s.begin c feed)

end Sys2Proof.Machine
end

