-- ==== Sys2Proof/Machine/HostRing.lean ====
section
/-! DEFINITION. Machine/HostRing.lean: doorbells, the fetch of packets, the posting of completions and the setup of queue 0 (R449, R477 to R488,
R493 to R495, R530, R540). -/

namespace Sys2Proof.Machine

/-! ### Doorbells (R478, R479, R494, R495, R530) -/

/-- Queue 0 and completion ring 0 start afresh with the values of their setup registers. -/
def State.enableQ0 (s : State) : State :=
  let h := s.host
  (s.modQueue 0 (fun q => { q with base := h.q0Base, log := h.qlog, cq := 0, head := 0, tail := 0, enabled := true, stopped := false, seq := 0 })).modCring 0
    (fun r => { r with base := h.c0Base, log := h.clog, vec := 1, post := 0, head := 0, used := 0, phase := true, enabled := true, stopped := false })

/-- Entries from index `a` up to index `b` of a ring. -/
def ringAhead (log a b : Nat) : Nat := (b + 2 ^ log - a) % 2 ^ log

/-- A tail for a queue: taken, or ignored with DB_ERR (R479). -/
def CmdQueue.doorbell (q : CmdQueue) (tail : Nat) : CmdQueue :=
  if !q.enabled || 2 ^ q.log ≤ tail || ringAhead q.log q.head tail < ringAhead q.log q.head q.tail then { q with dbErr := true }
  else { q with tail := tail }

/-- SQ_DOORBELL: a doorbell of an unbound queue is ignored (R449); queue 0 is enabled by the first after its setup (R494). -/
def execSqDoorbell (view : Fin 17) (idx : Fin 64) (value : Word) (s : State) : Host.Outcome State Fault Refusal :=
  let q := s.cmdQueue idx
  if !(s.viewHolds view (0x10200 + 4 * idx)) || q.view = 17 then .next s
  else
    let s1 := if idx.val = 0 && !q.enabled then s.enableQ0 else s
    .next (s1.modQueue idx (fun x => x.doorbell (value.toNat % 65536)))

/-- A head for a completion ring. -/
def CRing.doorbell (r : CRing) (head : Nat) : CRing :=
  let n := ringAhead r.log r.head head
  if !r.enabled || 2 ^ r.log ≤ head || r.used < n then { r with dbErr := true }
  else { r with head := head, used := r.used - n }

/-- CQ_DOORBELL. -/
def execCqDoorbell (view : Fin 17) (idx : Fin 64) (value : Word) (s : State) : Host.Outcome State Fault Refusal :=
  if s.viewHolds view (0x10300 + 4 * idx) then .next (s.modCring idx (fun r => r.doorbell (value.toNat % 65536))) else .next s

/-- A head for an event ring: an invalid one has no effect (R530). -/
def ERing.doorbell (r : ERing) (head : Nat) : ERing :=
  let n := ringAhead r.log r.head head
  if !r.enabled || 2 ^ r.log ≤ head || r.used < n then r else { r with head := head, used := r.used - n }

/-- EQ_DOORBELL: when an entry is free after events were dropped, the OVERFLOW record is written first (R488). -/
def execEqDoorbell (view : Fin 17) (idx : Fin 17) (value : Word) (s : State) : Host.Outcome State Fault Refusal :=
  if !(s.viewHolds view (0x10500 + 4 * idx)) then .next s
  else
    let s1 := s.modEring idx (fun r => r.doorbell (value.toNat % 65536))
    let r := smapGet ({} : ERing) s1.host.erings idx
    if r.enabled && !r.stopped && r.fresh != 0 && decide (r.used < 2 ^ r.log) then
      .next ((s1.eventWrite idx 13 1 idx 0 (leBytes 4 r.fresh)).modEring idx (fun x => { x with fresh := 0 }))
    else .next s1

/-! ### Setup of queue 0 (R494) -/

/-- Replaces the low or the high word of an address. -/
def setBaseHalf (a : Nat) (hi : Bool) (v : Word) : Nat := if hi then a % 2 ^ 32 + v.toNat * 2 ^ 32 else a / 2 ^ 32 * 2 ^ 32 + v.toNat

/-- Whether a setup value is in range: ring addresses are multiples of 4 KiB, sizes 2^10 to 2^16 and 2^8 to 2^16 entries. -/
def setupLegal (reg : Nat) (v : Word) : Bool :=
  let n := v.toNat
  match reg with
  | 0 | 2 => n % 4096 == 0
  | 4 => 10 ≤ n % 32 && n % 32 ≤ 16 && 8 ≤ n / 256 % 32 && n / 256 % 32 ≤ 16
  | _ => true

/-- A setup register takes a value. -/
def HostLink.setup (h : HostLink) (reg : Nat) (v : Word) : HostLink :=
  match reg with
  | 0 => { h with q0Base := setBaseHalf h.q0Base false v }
  | 1 => { h with q0Base := setBaseHalf h.q0Base true v }
  | 2 => { h with c0Base := setBaseHalf h.c0Base false v }
  | 3 => { h with c0Base := setBaseHalf h.c0Base true v }
  | _ => { h with qlog := v.toNat % 32, clog := v.toNat / 256 % 32 }

/-- Q0_SETUP_WRITE: registers HST_Q0_BASE_LO, _HI, HST_C0_BASE_LO, _HI and HST_Q0_SIZE. -/
def execQ0SetupWrite (view : Fin 17) (reg : Fin 5) (value : Word) (s : State) : Host.Outcome State Fault Refusal :=
  if !(s.viewHolds view (0x10010 + 4 * reg)) then .next s
  else if s.queueBusy 0 || !setupLegal reg value then .next (s.modQueue 0 (fun q => { q with dbErr := true }))
  else .next (((s.modHost (fun h => h.setup reg value)).modQueue 0 (fun q => { q with enabled := false })).modCring 0 (fun r => { r with enabled := false }))

/-! ### Fetching a packet (R478, R481 to R483, R498) -/

/-- The entries that a packet fills. -/
def packetEntries (plen : Nat) : Nat := 1 + (plen + 63) / 64

/-- The lowest offset in the header that check 1 of R483 faults. -/
def headerFault (q : Nat) (bs : List Byte) (r : RawHdr) : Option Nat :=
  let at_ := fun (bad : Bool) (o : Nat) => if bad then [o] else []
  (((headerRsvd bs).toList ++ at_ (r.queue % 64 != q) 4 ++ at_ (16 < r.part % 32) 5).mergeSort).head?

/-- The checks of a packet beside those of its command: sequence number, header, opcode, length, padding (R482, R483, R498). -/
def packetChecks (q seq : Nat) (bs : List Byte) (known : Bool) : List Check :=
  let r := parseHdr bs
  let body := bs.drop 64
  let v := readLay body 0 (layFixed r.opcode)
  let want := packedLen r.opcode v
  let pad := firstPad r.opcode v (body.take want)
  [{ order := 0, ok := r.seq == seq, status := stValue, off := 8 },
   { order := 1, ok := (headerFault q bs r).isNone, status := stValue, off := (headerFault q bs r).getD 0 },
   { order := 2, ok := known, status := stOpcode, off := 0 },
   { order := 4, ok := r.plen == want && r.plen ≤ 32768, status := stLength, off := 6 },
   { order := 6, ok := r.plen != want || pad.isNone, status := stValue, off := 64 + pad.getD 0 }]

/-- The queue after a packet has been fetched: its head is past the packet, one sequence number on. -/
def CmdQueue.fetched (q : CmdQueue) (n seq : Nat) : CmdQueue :=
  { q with head := (q.head + n) % 2 ^ q.log, seq := (q.seq + 1) % 2 ^ 32, seqErr := q.seqErr || seq != q.seq }

/-- PACKET_FETCH: the next packet of a queue, its entries' bytes in order; `feed` what the host tier or a peer answers while the command
runs. -/
def execPacketFetch (q : Fin 64) (bytes : List Byte) (feed : Feed) (s : State) : Host.Outcome State Fault Refusal :=
  let x := s.cmdQueue q
  let r := parseHdr bytes
  let n := packetEntries r.plen
  if s.host.state != 2 || !(s.queueOpen q) || ringAhead x.log x.head x.tail < n then .next s
  else
    let bs := padTo (64 * n) bytes
    let b := parseBody r.opcode (padTo (max (64 * n) 4096) (bs.drop 64))
    let h := { r.toHdr with queue := q }
    .next ((s.modQueue q (fun x => x.fetched n r.seq)).submitWith h (b.getD .nop) (packetChecks q x.seq bs b.isSome) feed)

/-! ### Posting a completion (R424, R486) -/

/-- COMPLETION_POST (R424, R485, R486). -/
def execCompletionPost (q : Fin 64) (s : State) : Host.Outcome State Fault Refusal := .next (s.postOne q)

end Sys2Proof.Machine
end

