-- ==== Sys2Proof/Machine/HostCommands.lean ====
section
/-! DEFINITION. Machine/HostCommands.lean: the rows of the host's commands, each submitted with its parameters (R483, R505 to R515). -/

namespace Sys2Proof.Machine

/-- NOP (R505). -/
def execNop (h : Hdr) (s : State) : Host.Outcome State Fault Refusal := .next (s.submit h .nop {})

/-- CONFIG (R544). -/
def execConfig (h : Hdr) (p : BufP) (feed : Feed) (s : State) : Host.Outcome State Fault Refusal := .next (s.submit h (.config p) feed)

/-- INVENTORY (R547). -/
def execInventory (h : Hdr) (p : BufP) (s : State) : Host.Outcome State Fault Refusal := .next (s.submit h (.inventory p) {})

/-- POWER_RUN (R537). -/
def execPowerRun (h : Hdr) (s : State) : Host.Outcome State Fault Refusal := .next (s.submit h (.power 0) {})

/-- POWER_PARK (R537). -/
def execPowerPark (h : Hdr) (s : State) : Host.Outcome State Fault Refusal := .next (s.submit h (.power 1) {})

/-- POWER_RETAIN (R537). -/
def execPowerRetain (h : Hdr) (s : State) : Host.Outcome State Fault Refusal := .next (s.submit h (.power 2) {})

/-- QUEUE_SETUP (R505). -/
def execQueueSetup (h : Hdr) (p : QueueSetupP) (s : State) : Host.Outcome State Fault Refusal := .next (s.submit h (.queueSetup p) {})

/-- CRING_SETUP (R505). -/
def execCringSetup (h : Hdr) (p : RingP) (s : State) : Host.Outcome State Fault Refusal := .next (s.submit h (.cringSetup p) {})

/-- ERING_SETUP (R505). -/
def execEringSetup (h : Hdr) (p : RingP) (s : State) : Host.Outcome State Fault Refusal := .next (s.submit h (.eringSetup p) {})

/-- PART_CREATE (R444). -/
def execPartCreate (h : Hdr) (p : PartP) (s : State) : Host.Outcome State Fault Refusal := .next (s.submit h (.partCreate p) {})

/-- PART_DELETE (R466). -/
def execPartDelete (h : Hdr) (pid : Nat) (s : State) : Host.Outcome State Fault Refusal := .next (s.submit h (.partDelete pid) {})

/-- PROFILE (R448). -/
def execProfile (h : Hdr) (pid prof : Nat) (s : State) : Host.Outcome State Fault Refusal := .next (s.submit h (.profile pid prof) {})

/-- SHUTTER (R452). -/
def execShutter (h : Hdr) (p : ShutterP) (feed : Feed) (s : State) : Host.Outcome State Fault Refusal := .next (s.submit h (.shutter p) feed)

/-- HEIR_WINDOW_OPEN (R454). -/
def execHeirWindowOpen (h : Hdr) (p : HeirP) (s : State) : Host.Outcome State Fault Refusal := .next (s.submit h (.heirWindow 1 p) {})

/-- HEIR_WINDOW_CLOSE (R454). -/
def execHeirWindowClose (h : Hdr) (p : HeirP) (s : State) : Host.Outcome State Fault Refusal := .next (s.submit h (.heirWindow 0 p) {})

/-- QUEUE_BIND (R449). -/
def execQueueBind (h : Hdr) (q view : Nat) (s : State) : Host.Outcome State Fault Refusal := .next (s.submit h (.queueBind q view) {})

/-- BULK_MOVE (R507). -/
def execBulkMove (h : Hdr) (p : BulkP) (s : State) : Host.Outcome State Fault Refusal := .next (s.submit h (.bulkMove p) {})

/-- REGULATOR (R229). -/
def execRegulator (h : Hdr) (p : RegulatorP) (s : State) : Host.Outcome State Fault Refusal := .next (s.submit h (.regulator p) {})

/-- REGULATOR_SYS (R229). -/
def execRegulatorSys (h : Hdr) (p : RegulatorSysP) (s : State) : Host.Outcome State Fault Refusal := .next (s.submit h (.regulatorSys p) {})

/-- ERR_CLEAR (R225). -/
def execErrClear (h : Hdr) (fmask chmask : Nat) (s : State) : Host.Outcome State Fault Refusal := .next (s.submit h (.errClear fmask chmask) {})

/-- ACT_REG (R268). -/
def execActReg (h : Hdr) (p : ActP) (s : State) : Host.Outcome State Fault Refusal := .next (s.submit h (.actReg p) {})

/-- ACT_REMOVE (R507). -/
def execActRemove (h : Hdr) (aid : Nat) (s : State) : Host.Outcome State Fault Refusal := .next (s.submit h (.actRemove aid) {})

/-- FOOTPRINT (R269). -/
def execFootprint (h : Hdr) (s : State) : Host.Outcome State Fault Refusal := .next (s.submit h .footprint {})

/-- TILE_PROGRAM (R508). -/
def execTileProgram (h : Hdr) (p : TileProgramP) (s : State) : Host.Outcome State Fault Refusal := .next (s.submit h (.tileProgram p) {})

/-- STEP_START (R344). -/
def execStepStart (h : Hdr) (s0 : Nat) (s : State) : Host.Outcome State Fault Refusal := .next (s.submit h (.stepStart s0) {})

/-- STEP_STOP (R344). -/
def execStepStop (h : Hdr) (s : State) : Host.Outcome State Fault Refusal := .next (s.submit h .stepStop {})

/-- MARK_TABLE (R337). -/
def execMarkTable (h : Hdr) (items : List MarkItem) (s : State) : Host.Outcome State Fault Refusal := .next (s.submit h (.markTable items) {})

/-- KEEPER_SELECT (R341). -/
def execKeeperSelect (h : Hdr) (keeper mode : Nat) (s : State) : Host.Outcome State Fault Refusal := .next (s.submit h (.keeperSelect keeper mode) {})

/-- WATCHDOG (R355). -/
def execWatchdog (h : Hdr) (p : WatchdogP) (s : State) : Host.Outcome State Fault Refusal := .next (s.submit h (.watchdog p) {})

/-- ISLAND_FORM (R25). -/
def execIslandForm (h : Hdr) (feed : Feed) (s : State) : Host.Outcome State Fault Refusal := .next (s.submit h .islandForm feed)

/-- CGROUP_REG (R321). -/
def execCgroupReg (h : Hdr) (id : Nat) (members : List Nat) (s : State) : Host.Outcome State Fault Refusal := .next (s.submit h (.cgroupReg id members) {})

/-- CGROUP_REMOVE (R510). -/
def execCgroupRemove (h : Hdr) (id : Nat) (s : State) : Host.Outcome State Fault Refusal := .next (s.submit h (.cgroupRemove id) {})

/-- ALL_REDUCE (R326). -/
def execAllReduce (h : Hdr) (p : CollP) (s : State) : Host.Outcome State Fault Refusal := .next (s.submit h (.collective 0 p) {})

/-- REDUCE_SCATTER (R326). -/
def execReduceScatter (h : Hdr) (p : CollP) (s : State) : Host.Outcome State Fault Refusal := .next (s.submit h (.collective 1 p) {})

/-- ALL_GATHER (R324). -/
def execAllGather (h : Hdr) (p : CollP) (s : State) : Host.Outcome State Fault Refusal := .next (s.submit h (.collective 2 p) {})

/-- BROADCAST (R324). -/
def execBroadcast (h : Hdr) (p : CollP) (s : State) : Host.Outcome State Fault Refusal := .next (s.submit h (.collective 3 p) {})

/-- REDUCE (R326). -/
def execReduce (h : Hdr) (p : CollP) (s : State) : Host.Outcome State Fault Refusal := .next (s.submit h (.collective 4 p) {})

/-- ALL_TO_ALL (R324). -/
def execAllToAll (h : Hdr) (p : CollP) (s : State) : Host.Outcome State Fault Refusal := .next (s.submit h (.collective 5 p) {})

/-- BARRIER (R324). -/
def execBarrier (h : Hdr) (p : CollP) (s : State) : Host.Outcome State Fault Refusal := .next (s.submit h (.collective 6 p) {})

/-- PORT_RETRAIN (R315). -/
def execPortRetrain (h : Hdr) (port : Nat) (s : State) : Host.Outcome State Fault Refusal := .next (s.submit h (.portRetrain port) {})

/-- PORT_CLEAR (R510). -/
def execPortClear (h : Hdr) (pmask : Nat) (s : State) : Host.Outcome State Fault Refusal := .next (s.submit h (.portClear pmask) {})

/-- FABRIC_SET (R312). -/
def execFabricSet (h : Hdr) (p : FabricP) (s : State) : Host.Outcome State Fault Refusal := .next (s.submit h (.fabricSet p) {})

/-- FED_RECORD (R393). -/
def execFedRecord (h : Hdr) (p : FedP) (s : State) : Host.Outcome State Fault Refusal := .next (s.submit h (.fedRecord p) {})

/-- OUTER_REG (R394). -/
def execOuterReg (h : Hdr) (p : OuterP) (s : State) : Host.Outcome State Fault Refusal := .next (s.submit h (.outerReg p) {})

/-- OUTER_REMOVE (R511). -/
def execOuterRemove (h : Hdr) (p : FieldGid) (s : State) : Host.Outcome State Fault Refusal := .next (s.submit h (.outerRemove p) {})

/-- ROUTE_TABLE (R382). -/
def execRouteTable (h : Hdr) (items : List RouteE) (s : State) : Host.Outcome State Fault Refusal := .next (s.submit h (.routeTable items) {})

/-- LPORT_CONFIG (R387). -/
def execLportConfig (h : Hdr) (p : LportP) (s : State) : Host.Outcome State Fault Refusal := .next (s.submit h (.lportConfig p) {})

/-- OPTICS_READ (R363). -/
def execOpticsRead (h : Hdr) (p : OpticsP) (feed : Feed) (s : State) : Host.Outcome State Fault Refusal := .next (s.submit h (.optics 0 p) feed)

/-- OPTICS_WRITE (R363). -/
def execOpticsWrite (h : Hdr) (p : OpticsP) (feed : Feed) (s : State) : Host.Outcome State Fault Refusal := .next (s.submit h (.optics 1 p) feed)

/-- LPORT_CLEAR (R511). -/
def execLportClear (h : Hdr) (pmask : Nat) (s : State) : Host.Outcome State Fault Refusal := .next (s.submit h (.lportClear pmask) {})

/-- PGROUP_REG (R242). -/
def execPgroupReg (h : Hdr) (p : GroupP) (s : State) : Host.Outcome State Fault Refusal := .next (s.submit h (.pgroupReg p) {})

/-- PGROUP_REMOVE (R512). -/
def execPgroupRemove (h : Hdr) (p : FieldGid) (s : State) : Host.Outcome State Fault Refusal := .next (s.submit h (.pgroupRemove p) {})

/-- PUBLISH (R255). -/
def execPublish (h : Hdr) (p : FieldGid) (s : State) : Host.Outcome State Fault Refusal := .next (s.submit h (.publish p) {})

/-- STEP_SCALAR (R291). -/
def execStepScalar (h : Hdr) (slot : Nat) (value : F32) (s : State) : Host.Outcome State Fault Refusal := .next (s.submit h (.stepScalar slot value) {})

/-- DRIFT_AUDIT (R254). -/
def execDriftAudit (h : Hdr) (p : FieldGid) (s : State) : Host.Outcome State Fault Refusal := .next (s.submit h (.driftAudit p) {})

/-- CKPT_EXPORT (R512). -/
def execCkptExport (h : Hdr) (p : CkptP) (s : State) : Host.Outcome State Fault Refusal := .next (s.submit h (.ckptExport p) {})

/-- HEALTH_READ (R163). -/
def execHealthRead (h : Hdr) (p : HealthP) (s : State) : Host.Outcome State Fault Refusal := .next (s.submit h (.healthRead p) {})

/-- HEALTH_CLEAR (R165). -/
def execHealthClear (h : Hdr) (t0 t1 t2 t3 : Nat) (s : State) : Host.Outcome State Fault Refusal := .next (s.submit h (.healthClear t0 t1 t2 t3) {})

/-- STEER_CTL (R156). -/
def execSteerCtl (h : Hdr) (p : SteerCtlP) (s : State) : Host.Outcome State Fault Refusal := .next (s.submit h (.steerCtl p) {})

/-- STEER_SLOT (R157). -/
def execSteerSlot (h : Hdr) (p : SteerSlotP) (s : State) : Host.Outcome State Fault Refusal := .next (s.submit h (.steerSlot p) {})

/-- STEER_PIN (R154). -/
def execSteerPin (h : Hdr) (slot rung : Nat) (s : State) : Host.Outcome State Fault Refusal := .next (s.submit h (.steerPin slot rung 0) {})

/-- STEER_UNPIN (R154). -/
def execSteerUnpin (h : Hdr) (slot rung : Nat) (s : State) : Host.Outcome State Fault Refusal := .next (s.submit h (.steerPin slot rung 1) {})

/-- NEVT_EN (R175). -/
def execNevtEn (h : Hdr) (classEn steerEn : Nat) (s : State) : Host.Outcome State Fault Refusal := .next (s.submit h (.nevtEn classEn steerEn) {})

/-- SNAPSHOT (R513). -/
def execSnapshot (h : Hdr) (p : BufP) (s : State) : Host.Outcome State Fault Refusal := .next (s.submit h (.snapshot p) {})

/-- ATTEST (R551). -/
def execAttest (h : Hdr) (p : AttestP) (s : State) : Host.Outcome State Fault Refusal := .next (s.submit h (.attest p) {})

/-- LOG_READ (R550). -/
def execLogRead (h : Hdr) (p : LogP) (s : State) : Host.Outcome State Fault Refusal := .next (s.submit h (.logRead p) {})

/-- IDKEY_READ (R548). -/
def execIdkeyRead (h : Hdr) (p : BufP) (s : State) : Host.Outcome State Fault Refusal := .next (s.submit h (.idkeyRead p) {})

/-- TEST_MODE_ENTER (R236). -/
def execTestModeEnter (h : Hdr) (field : Nat) (s : State) : Host.Outcome State Fault Refusal := .next (s.submit h (.testMode field 1) {})

/-- TEST_MODE_LEAVE (R236). -/
def execTestModeLeave (h : Hdr) (field : Nat) (s : State) : Host.Outcome State Fault Refusal := .next (s.submit h (.testMode field 0) {})

/-- TG_RUN (R238). -/
def execTgRun (h : Hdr) (p : TgP) (s : State) : Host.Outcome State Fault Refusal := .next (s.submit h (.tgRun p) {})

/-- TG_STOP (R515). -/
def execTgStop (h : Hdr) (field chmask : Nat) (s : State) : Host.Outcome State Fault Refusal := .next (s.submit h (.tgStop field chmask) {})

/-- SELFTEST (R546). -/
def execSelftest (h : Hdr) (fmask : Nat) (feed : Feed) (s : State) : Host.Outcome State Fault Refusal := .next (s.submit h (.selftest fmask) feed)

end Sys2Proof.Machine
end

