-- ==== Sys2Proof/Machine/Dispatch.lean ====
section
/-! DEFINITION. Machine/Dispatch.lean: one arm for each constructor of `Instr`. -/

namespace Sys2Proof.Machine

/-- What a command does to everything but the queue. -/
def exec (i : Instr) (s : State) : Host.Outcome State Fault Refusal :=
  match i with
  | .nop h => Sys2Proof.Machine.execNop h s
  | .config h p feed => Sys2Proof.Machine.execConfig h p feed s
  | .inventory h p => Sys2Proof.Machine.execInventory h p s
  | .powerRun h => Sys2Proof.Machine.execPowerRun h s
  | .powerPark h => Sys2Proof.Machine.execPowerPark h s
  | .powerRetain h => Sys2Proof.Machine.execPowerRetain h s
  | .powerStateReached => Sys2Proof.Machine.execPowerStateReached s
  | .queueSetup h p => Sys2Proof.Machine.execQueueSetup h p s
  | .cringSetup h p => Sys2Proof.Machine.execCringSetup h p s
  | .eringSetup h p => Sys2Proof.Machine.execEringSetup h p s
  | .partCreate h p => Sys2Proof.Machine.execPartCreate h p s
  | .partDelete h pid => Sys2Proof.Machine.execPartDelete h pid s
  | .profile h pid prof => Sys2Proof.Machine.execProfile h pid prof s
  | .shutter h p feed => Sys2Proof.Machine.execShutter h p feed s
  | .shutterDrainPoint pid => Sys2Proof.Machine.execShutterDrainPoint pid s
  | .shutterWaitTimeout pid => Sys2Proof.Machine.execShutterWaitTimeout pid s
  | .shutterExportDone pid feed => Sys2Proof.Machine.execShutterExportDone pid feed s
  | .exportCutTimer pid finished bytes => Sys2Proof.Machine.execExportCutTimer pid finished bytes s
  | .shutterZeroiseDone pid => Sys2Proof.Machine.execShutterZeroiseDone pid s
  | .heirWindowOpen h p => Sys2Proof.Machine.execHeirWindowOpen h p s
  | .heirWindowClose h p => Sys2Proof.Machine.execHeirWindowClose h p s
  | .queueBind h q view => Sys2Proof.Machine.execQueueBind h q view s
  | .bulkMove h p => Sys2Proof.Machine.execBulkMove h p s
  | .regulator h p => Sys2Proof.Machine.execRegulator h p s
  | .regulatorSys h p => Sys2Proof.Machine.execRegulatorSys h p s
  | .errClear h fmask chmask => Sys2Proof.Machine.execErrClear h fmask chmask s
  | .actReg h p => Sys2Proof.Machine.execActReg h p s
  | .actRemove h aid => Sys2Proof.Machine.execActRemove h aid s
  | .footprint h => Sys2Proof.Machine.execFootprint h s
  | .tileProgram h p => Sys2Proof.Machine.execTileProgram h p s
  | .stepStart h s0 => Sys2Proof.Machine.execStepStart h s0 s
  | .stepStop h => Sys2Proof.Machine.execStepStop h s
  | .markTable h items => Sys2Proof.Machine.execMarkTable h items s
  | .keeperSelect h keeper mode => Sys2Proof.Machine.execKeeperSelect h keeper mode s
  | .watchdog h p => Sys2Proof.Machine.execWatchdog h p s
  | .islandForm h feed => Sys2Proof.Machine.execIslandForm h feed s
  | .cgroupReg h id members => Sys2Proof.Machine.execCgroupReg h id members s
  | .cgroupRemove h id => Sys2Proof.Machine.execCgroupRemove h id s
  | .allReduce h p => Sys2Proof.Machine.execAllReduce h p s
  | .reduceScatter h p => Sys2Proof.Machine.execReduceScatter h p s
  | .allGather h p => Sys2Proof.Machine.execAllGather h p s
  | .broadcast h p => Sys2Proof.Machine.execBroadcast h p s
  | .reduce h p => Sys2Proof.Machine.execReduce h p s
  | .allToAll h p => Sys2Proof.Machine.execAllToAll h p s
  | .barrier h p => Sys2Proof.Machine.execBarrier h p s
  | .portRetrain h port => Sys2Proof.Machine.execPortRetrain h port s
  | .portClear h pmask => Sys2Proof.Machine.execPortClear h pmask s
  | .fabricSet h p => Sys2Proof.Machine.execFabricSet h p s
  | .fedRecord h p => Sys2Proof.Machine.execFedRecord h p s
  | .outerReg h p => Sys2Proof.Machine.execOuterReg h p s
  | .outerRemove h p => Sys2Proof.Machine.execOuterRemove h p s
  | .routeTable h items => Sys2Proof.Machine.execRouteTable h items s
  | .lportConfig h p => Sys2Proof.Machine.execLportConfig h p s
  | .opticsRead h p feed => Sys2Proof.Machine.execOpticsRead h p feed s
  | .opticsWrite h p feed => Sys2Proof.Machine.execOpticsWrite h p feed s
  | .lportClear h pmask => Sys2Proof.Machine.execLportClear h pmask s
  | .pgroupReg h p => Sys2Proof.Machine.execPgroupReg h p s
  | .pgroupRemove h p => Sys2Proof.Machine.execPgroupRemove h p s
  | .publish h p => Sys2Proof.Machine.execPublish h p s
  | .stepScalar h slot value => Sys2Proof.Machine.execStepScalar h slot value s
  | .driftAudit h p => Sys2Proof.Machine.execDriftAudit h p s
  | .ckptExport h p => Sys2Proof.Machine.execCkptExport h p s
  | .healthRead h p => Sys2Proof.Machine.execHealthRead h p s
  | .healthClear h t0 t1 t2 t3 => Sys2Proof.Machine.execHealthClear h t0 t1 t2 t3 s
  | .steerCtl h p => Sys2Proof.Machine.execSteerCtl h p s
  | .steerSlot h p => Sys2Proof.Machine.execSteerSlot h p s
  | .steerPin h slot rung => Sys2Proof.Machine.execSteerPin h slot rung s
  | .steerUnpin h slot rung => Sys2Proof.Machine.execSteerUnpin h slot rung s
  | .nevtEn h classEn steerEn => Sys2Proof.Machine.execNevtEn h classEn steerEn s
  | .snapshot h p => Sys2Proof.Machine.execSnapshot h p s
  | .attest h p => Sys2Proof.Machine.execAttest h p s
  | .logRead h p => Sys2Proof.Machine.execLogRead h p s
  | .idkeyRead h p => Sys2Proof.Machine.execIdkeyRead h p s
  | .testModeEnter h field => Sys2Proof.Machine.execTestModeEnter h field s
  | .testModeLeave h field => Sys2Proof.Machine.execTestModeLeave h field s
  | .tgRun h p => Sys2Proof.Machine.execTgRun h p s
  | .tgRunDone field ch errs first => Sys2Proof.Machine.execTgRunDone field ch errs first s
  | .tgStop h field chmask => Sys2Proof.Machine.execTgStop h field chmask s
  | .selftest h fmask feed => Sys2Proof.Machine.execSelftest h fmask feed s
  | .sqDoorbell view idx value => Sys2Proof.Machine.execSqDoorbell view idx value s
  | .packetFetch q bytes feed => Sys2Proof.Machine.execPacketFetch q bytes feed s
  | .scheduledStart q feed => Sys2Proof.Machine.execScheduledStart q feed s
  | .completionPost q => Sys2Proof.Machine.execCompletionPost q s
  | .cqDoorbell view idx value => Sys2Proof.Machine.execCqDoorbell view idx value s
  | .eqDoorbell view idx value => Sys2Proof.Machine.execEqDoorbell view idx value s
  | .q0SetupWrite view reg value => Sys2Proof.Machine.execQ0SetupWrite view reg value s
  | .rngSeedLoad view tile value => Sys2Proof.Machine.execRngSeedLoad view tile value s
  | .fflRearm view target value => Sys2Proof.Machine.execFflRearm view target value s
  | .clrViol view value => Sys2Proof.Machine.execClrViol view value s
  | .bcnPosRead view => Sys2Proof.Machine.execBcnPosRead view s
  | .registerWrite view off value => Sys2Proof.Machine.execRegisterWrite view off value s
  | .imagePush view value => Sys2Proof.Machine.execImagePush view value s
  | .imageReadDone image => Sys2Proof.Machine.execImageReadDone image s
  | .firmwareLoadDone => Sys2Proof.Machine.execFirmwareLoadDone s
  | .dramTrainDone failed => Sys2Proof.Machine.execDramTrainDone failed s
  | .bootZeroiseDone => Sys2Proof.Machine.execBootZeroiseDone s
  | .selftestDone failed => Sys2Proof.Machine.execSelftestDone failed s
  | .chkCfgWrite view unit value => Sys2Proof.Machine.execChkCfgWrite view unit value s
  | .chkParamWrite view unit reg value => Sys2Proof.Machine.execChkParamWrite view unit reg value s
  | .chkRestart view unit value => Sys2Proof.Machine.execChkRestart view unit value s
  | .chkData8 view unit value => Sys2Proof.Machine.execChkData8 view unit value s
  | .chkData16 view unit value => Sys2Proof.Machine.execChkData16 view unit value s
  | .chkData32 view unit value => Sys2Proof.Machine.execChkData32 view unit value s
  | .chkFeedDone unit => Sys2Proof.Machine.execChkFeedDone unit s
  | .chkResultRead view unit hi => Sys2Proof.Machine.execChkResultRead view unit hi s
  | .queueRefill u => Sys2Proof.Machine.execQueueRefill u s
  | .descriptorStart u => Sys2Proof.Machine.execDescriptorStart u s
  | .descriptorRetire u => Sys2Proof.Machine.execDescriptorRetire u s
  | .load u h d errs => Sys2Proof.Machine.execLoad u h d errs s
  | .store u h d => Sys2Proof.Machine.execStore u h d s
  | .stage u h d => Sys2Proof.Machine.execStage u h d s
  | .swap u h arrays => Sys2Proof.Machine.execSwap u h arrays s
  | .pass u h d => Sys2Proof.Machine.execPass u h d s
  | .pairedPass u h d => Sys2Proof.Machine.execPairedPass u h d s
  | .drain u h d => Sys2Proof.Machine.execDrain u h d s
  | .smxFwd u h d => Sys2Proof.Machine.execSmxFwd u h d s
  | .smxDot u h d => Sys2Proof.Machine.execSmxDot u h d s
  | .smxBwd u h d => Sys2Proof.Machine.execSmxBwd u h d s
  | .normStats u h d => Sys2Proof.Machine.execNormStats u h d s
  | .normFwd u h d => Sys2Proof.Machine.execNormFwd u h d s
  | .normDot u h d => Sys2Proof.Machine.execNormDot u h d s
  | .normBwd u h d => Sys2Proof.Machine.execNormBwd u h d s
  | .recSave u h d => Sys2Proof.Machine.execRecSave u h d s
  | .recLoad u h d => Sys2Proof.Machine.execRecLoad u h d s
  | .laneCvt u h d => Sys2Proof.Machine.execLaneCvt u h d s
  | .laneAdd u h d => Sys2Proof.Machine.execLaneAdd u h d s
  | .laneSub u h d => Sys2Proof.Machine.execLaneSub u h d s
  | .laneMul u h d => Sys2Proof.Machine.execLaneMul u h d s
  | .laneFma u h d => Sys2Proof.Machine.execLaneFma u h d s
  | .laneScale u h d => Sys2Proof.Machine.execLaneScale u h d s
  | .laneAct u h d => Sys2Proof.Machine.execLaneAct u h d s
  | .laneDact u h d => Sys2Proof.Machine.execLaneDact u h d s
  | .laneMax u h d => Sys2Proof.Machine.execLaneMax u h d s
  | .laneMin u h d => Sys2Proof.Machine.execLaneMin u h d s
  | .laneSumsq u h d => Sys2Proof.Machine.execLaneSumsq u h d s
  | .putAdd u h d => Sys2Proof.Machine.execPutAdd u h d s
  | .putWrite u h d => Sys2Proof.Machine.execPutWrite u h d s
  | .putRelease u => Sys2Proof.Machine.execPutRelease u s
  | .get u h d => Sys2Proof.Machine.execGet u h d s
  | .mark u h n => Sys2Proof.Machine.execMark u h n s
  | .waitSemaphore u h d => Sys2Proof.Machine.execWaitSemaphore u h d s
  | .waitMark u h d => Sys2Proof.Machine.execWaitMark u h d s
  | .fence u h qmask => Sys2Proof.Machine.execFence u h qmask s
  | .nsummaryPropagate tile => Sys2Proof.Machine.execNsummaryPropagate tile s
  | .readyContribute step => Sys2Proof.Machine.execReadyContribute step s
  | .doneContribute => Sys2Proof.Machine.execDoneContribute s
  | .flareFrameRx port f => Sys2Proof.Machine.execFlareFrameRx port f s
  | .stepBeginDelivery step site => Sys2Proof.Machine.execStepBeginDelivery step site s
  | .markDelivery step mark => Sys2Proof.Machine.execMarkDelivery step mark s
  | .commitDelivery step dur => Sys2Proof.Machine.execCommitDelivery step dur s
  | .evalSlotDelivery step => Sys2Proof.Machine.execEvalSlotDelivery step s
  | .normResult step value => Sys2Proof.Machine.execNormResult step value s
  | .steerRoundResult slot counts => Sys2Proof.Machine.execSteerRoundResult slot counts s
  | .scalarDelivery slot value step => Sys2Proof.Machine.execScalarDelivery slot value step s
  | .outerFloodRx f => Sys2Proof.Machine.execOuterFloodRx f s
  | .abortFloodRx port step attempt => Sys2Proof.Machine.execAbortFloodRx port step attempt s
  | .fenceFloodRx port module fencedPort => Sys2Proof.Machine.execFenceFloodRx port module fencedPort s
  | .stepOverdue elapsed => Sys2Proof.Machine.execStepOverdue elapsed s
  | .ppsEdge cclk => Sys2Proof.Machine.execPpsEdge cclk s
  | .siteMessage ns => Sys2Proof.Machine.execSiteMessage ns s
  | .siteTimeout => Sys2Proof.Machine.execSiteTimeout s
  | .advance => Sys2Proof.Machine.execAdvance s
  | .pstat rails req => Sys2Proof.Machine.execPstat rails req s
  | .xfail x => Sys2Proof.Machine.execXfail x s
  | .tileFault field slots => Sys2Proof.Machine.execTileFault field slots s
  | .tileStoreUe tile word => Sys2Proof.Machine.execTileStoreUe tile word s
  | .fcProbeTimeout field => Sys2Proof.Machine.execFcProbeTimeout field s
  | .channelLost field ch => Sys2Proof.Machine.execChannelLost field ch s
  | .scrub field ch errs => Sys2Proof.Machine.execScrub field ch errs s
  | .thermalSample field group temp => Sys2Proof.Machine.execThermalSample field group temp s
  | .updateSweepStart field => Sys2Proof.Machine.execUpdateSweepStart field s
  | .updateSweepDone field => Sys2Proof.Machine.execUpdateSweepDone field s
  | .tileBorrow field gid => Sys2Proof.Machine.execTileBorrow field gid s
  | .shardReductionLanded field gid data => Sys2Proof.Machine.execShardReductionLanded field gid data s
  | .mirrorShardLanded field gid shard data => Sys2Proof.Machine.execMirrorShardLanded field gid shard data s
  | .workingCopyEmit field gid => Sys2Proof.Machine.execWorkingCopyEmit field gid s
  | .ownerShardReceive field gid rank data => Sys2Proof.Machine.execOwnerShardReceive field gid rank data s
  | .versionPublish field gid => Sys2Proof.Machine.execVersionPublish field gid s
  | .offloadReadDone part aid field => Sys2Proof.Machine.execOffloadReadDone part aid field s
  | .offloadDone part aid field => Sys2Proof.Machine.execOffloadDone part aid field s
  | .prefetchStart part aid field => Sys2Proof.Machine.execPrefetchStart part aid field s
  | .prefetchLanded part aid field data => Sys2Proof.Machine.execPrefetchLanded part aid field data s
  | .stateFetch field gid => Sys2Proof.Machine.execStateFetch field gid s
  | .fetchLanded field gid data => Sys2Proof.Machine.execFetchLanded field gid data s
  | .tierWritebackAck field gid waitUs => Sys2Proof.Machine.execTierWritebackAck field gid waitUs s
  | .outerApplySweep field gid => Sys2Proof.Machine.execOuterApplySweep field gid s
  | .outerFoldSweep field gid => Sys2Proof.Machine.execOuterFoldSweep field gid s
  | .outerCloseSweep field gid => Sys2Proof.Machine.execOuterCloseSweep field gid s
  | .outerCombineSweep field gid round => Sys2Proof.Machine.execOuterCombineSweep field gid round s
  | .outerMasterReceive field gid shard data => Sys2Proof.Machine.execOuterMasterReceive field gid shard data s
  | .upTransferDelivered x => Sys2Proof.Machine.execUpTransferDelivered x s
  | .downTransferDelivered x => Sys2Proof.Machine.execDownTransferDelivered x s
  | .statusTransferRx x => Sys2Proof.Machine.execStatusTransferRx x s
  | .fetchReqRx x => Sys2Proof.Machine.execFetchReqRx x s
  | .fetchDataRx x => Sys2Proof.Machine.execFetchDataRx x s
  | .fabricTrainDone port module island peerPort => Sys2Proof.Machine.execFabricTrainDone port module island peerPort s
  | .fabricTrainTimeout port => Sys2Proof.Machine.execFabricTrainTimeout port s
  | .fabricSilence port => Sys2Proof.Machine.execFabricSilence port s
  | .fabricLaneLockLost port lanes => Sys2Proof.Machine.execFabricLaneLockLost port lanes s
  | .replayTimeout port => Sys2Proof.Machine.execReplayTimeout port s
  | .idleSend port => Sys2Proof.Machine.execIdleSend port s
  | .idleFrame port f => Sys2Proof.Machine.execIdleFrame port f s
  | .frameForward port f => Sys2Proof.Machine.execFrameForward port f s
  | .bulkWritePacket port f => Sys2Proof.Machine.execBulkWritePacket port f s
  | .collectiveSegment m => Sys2Proof.Machine.execCollectiveSegment m s
  | .flowAck port f => Sys2Proof.Machine.execFlowAck port f s
  | .flowControlMessage port f => Sys2Proof.Machine.execFlowControlMessage port f s
  | .flowAckTimer ctx => Sys2Proof.Machine.execFlowAckTimer ctx s
  | .flowRetransmitTimeout ctx fseq => Sys2Proof.Machine.execFlowRetransmitTimeout ctx fseq s
  | .opticsPoll port los lanes => Sys2Proof.Machine.execOpticsPoll port los lanes s
  | .opticsPresenceChange port present => Sys2Proof.Machine.execOpticsPresenceChange port present s
  | .lanternLinkUp port => Sys2Proof.Machine.execLanternLinkUp port s
  | .lanternLinkLost port lanes => Sys2Proof.Machine.execLanternLinkLost port lanes s
  | .hello port f => Sys2Proof.Machine.execHello port f s
  | .helloRetry port => Sys2Proof.Machine.execHelloRetry port s
  | .attestFrame port session report => Sys2Proof.Machine.execAttestFrame port session report s
  | .attestTimeout port => Sys2Proof.Machine.execAttestTimeout port s
  | .lanternData port f => Sys2Proof.Machine.execLanternData port f s
  | .manifestReject port session flow told => Sys2Proof.Machine.execManifestReject port session flow told s
  | .lanternAck port session flow cum sack => Sys2Proof.Machine.execLanternAck port session flow cum sack s
  | .lanternAckTimer port flow => Sys2Proof.Machine.execLanternAckTimer port flow s
  | .lanternRtoExpiry port flow pseq => Sys2Proof.Machine.execLanternRtoExpiry port flow pseq s
  | .echoTimer port now => Sys2Proof.Machine.execEchoTimer port now s
  | .echo port t1 now => Sys2Proof.Machine.execEcho port t1 now s
  | .echoReply port t1 t2 t3 now => Sys2Proof.Machine.execEchoReply port t1 t2 t3 now s
  | .losttouch port cut => Sys2Proof.Machine.execLosttouch port cut s
  | .close port session => Sys2Proof.Machine.execClose port session s
  | .lanternIdle port => Sys2Proof.Machine.execLanternIdle port s
  | .reiloSilence => Sys2Proof.Machine.execReiloSilence s
  | .reiloLinkUp lanes => Sys2Proof.Machine.execReiloLinkUp lanes s
  | .reset => Sys2Proof.Machine.execReset s
  | .railGoodLost rail => Sys2Proof.Machine.execRailGoodLost rail s
  | .railEnableRemoved rail => Sys2Proof.Machine.execRailEnableRemoved rail s
  | .inputOutOfRange => Sys2Proof.Machine.execInputOutOfRange s
  | .pgCoreReturn => Sys2Proof.Machine.execPgCoreReturn s
  | .powerRemoved => Sys2Proof.Machine.execPowerRemoved s
  | .railEnableAsserted rail => Sys2Proof.Machine.execRailEnableAsserted rail s
  | .testZeroiseDone field => Sys2Proof.Machine.execTestZeroiseDone field s
  | .hostTierAck q seq data => Sys2Proof.Machine.execHostTierAck q seq data s
  | .fcRestartDone field => Sys2Proof.Machine.execFcRestartDone field s
  | .linkFrameDiscard port outOfOrder => Sys2Proof.Machine.execLinkFrameDiscard port outOfOrder s
  | .lanternFrameDiscard port => Sys2Proof.Machine.execLanternFrameDiscard port s
  | .formationNoAnswer module => Sys2Proof.Machine.execFormationNoAnswer module s

end Sys2Proof.Machine
end

