-- ==== Sys2Proof/Machine/Encode.lean ====
section
/-! DEFINITION. Machine/Encode.lean: the bytes of a command packet, written from the layouts that the reader of packets uses (R481, R497). -/

namespace Sys2Proof.Machine

/-- The bytes of containers laid out from position `p` with their values, padded with zeros to a multiple of 8 at the end (R497). -/
def layBytes : Nat → List Nat → List Nat → List Byte
  | p, [], _ => List.replicate (alignUp 8 p - p) 0
  | p, n :: ns, vs =>
    if n = 0 then List.replicate (alignUp 8 p - p) 0 ++ layBytes (alignUp 8 p) ns vs
    else
      let o := alignUp (if 8 < n then 8 else n) p
      List.replicate (o - p) 0 ++ leBytes n (vs.headD 0) ++ layBytes (o + n) ns vs.tail

/-- The values of an export entry in the order of its containers (R453). -/
def exportValues (e : ExportE) : List Nat := [e.kind, e.dkind, e.fmask, e.gid, e.soff, e.bytes, e.dest, e.dstride]

/-- The values of a group's RULE block (R289). -/
def ruleValues (r : RuleP) : List Nat :=
  [r.rcode, r.nesterov, r.biascorr, r.clip, r.lrslot, r.gslot, r.lr.toNat, r.b1.toNat, r.b2.toNat, r.eps.toNat, r.wd.toNat, r.maxnorm.toNat,
    r.rows, r.cols, r.nsiter, r.nsa.toNat, r.nsb.toNat, r.nsc.toNat, r.oscale.toNat, r.refresh, r.riter, r.bmark, r.scratch]

/-- The values of a group's fixed fields (R242, R277, R512). -/
def groupValues (g : GroupP) : List Nat :=
  [g.field, g.gid, g.nelem, g.cons] ++ ruleValues g.rule
    ++ [g.r, g.m1fmt, g.m2fmt, g.gxfmt, g.wcfmt, g.htag, g.bank, g.pbase, g.gbase, g.tmask, g.telems, g.slot0, g.slot1, g.xmark]
    ++ [g.tier.home, g.tier.haddr, g.tier.rbase, g.tier.pkbase, g.tier.late, g.tier.smarkEn, g.tier.smark]

/-- The values of a command's fixed fields in the order of its containers. -/
def fixedValues : Body → List Nat
  | .nop => []
  | .config p => [p.addr, p.len]
  | .inventory p => [p.addr, p.len]
  | .power st => [st]
  | .queueSetup p => [p.q, p.base, p.log, p.cq, p.seq0]
  | .cringSetup p => [p.ring, p.base, p.log, p.vec]
  | .eringSetup p => [p.ring, p.base, p.log, p.vec]
  | .partCreate p => [p.pid, p.fx0, p.fy0, p.w, p.h, p.train, p.profile, p.fports, p.lports]
  | .partDelete pid => [pid]
  | .profile pid prof => [pid, prof]
  | .shutter p => [p.pid, p.mode, p.waitMs, p.cut, p.nextProfile, p.qbind, p.entries.length]
  | .heirWindow opn p => [p.w, opn, p.srcmod, p.base, p.bytes]
  | .queueBind q v => [q, v]
  | .bulkMove p => [p.sk, p.dk, p.src, p.dst, p.bytes]
  | .regulator p => [p.cls, p.rate, p.burst, p.borrow]
  | .regulatorSys p => [p.fmask, p.srate, p.sburst, p.sborrow, p.opceil]
  | .errClear fm cm => [fm, cm]
  | .actReg p => [p.aid, p.policy, p.bytes, p.fmask, p.sbase, p.lbase, p.hbase, p.hstride, p.dfr, p.outMark, p.inMark, p.tmask, p.osem, p.isem]
  | .actRemove aid => [aid]
  | .footprint => []
  | .tileProgram p => [p.entries.length, p.transom.length]
  | .stepStart s0 => [s0]
  | .stepStop => []
  | .markTable _ => []
  | .keeperSelect k m => [k, m]
  | .watchdog p => [p.mult, p.initMs, p.limit]
  | .islandForm => []
  | .cgroupReg id ms => [id, ms.length]
  | .cgroupRemove id => [id]
  | .collective op p => [op, p.opr, p.itype, p.otype, p.group, p.root, p.count, p.contrib, p.src, p.dst]
  | .portRetrain p => [p]
  | .portClear m => [m]
  | .fabricSet p => [p.replayUs, p.replayLim, p.flowRtoUs, p.flowRetry]
  | .fedRecord p => [p.members.length, p.h, p.s, p.w1.toNat, p.w2.toNat, p.w3.toNat, p.w4.toNat, p.div, p.policy, p.nhold, p.rejoin, p.join]
  | .outerReg p => [p.field, p.gid, p.dfmt, p.olr.toNat, p.omom.toNat, p.opbase]
  | .outerRemove p => [p.field, p.gid]
  | .routeTable items => [items.length]
  | .lportConfig p => [p.port, p.wfield, p.wbase, p.losttouchMs, p.shiftUs, p.shiftN, p.flows]
  | .optics dir p => [p.port, dir, p.bank, p.page, p.off, p.len, leNat p.data]
  | .lportClear m => [m]
  | .pgroupReg g => groupValues g
  | .pgroupRemove p => [p.field, p.gid]
  | .publish p => [p.field, p.gid]
  | .stepScalar slot v => [slot, v.toNat]
  | .driftAudit p => [p.field, p.gid]
  | .ckptExport p => [p.fmask, p.gid, p.dkind, p.dest, p.dstride]
  | .healthRead p => [p.htag, p.fmt, p.buf.addr, p.buf.len]
  | .healthClear t0 t1 t2 t3 => [t0, t1, t2, t3]
  | .steerCtl p => [p.window, p.active, p.tLo, p.tHi]
  | .steerSlot p => [p.slot, p.minRung, p.maxRung, p.enable]
  | .steerPin slot rung unpin => [slot, rung, unpin]
  | .nevtEn c e => [c, e]
  | .snapshot p => [p.addr, p.len]
  | .attest p => [p.n0, p.n1, p.n2, p.n3, p.buf.addr, p.buf.len]
  | .logRead p => [p.first, p.count, p.buf.addr, p.buf.len]
  | .idkeyRead p => [p.addr, p.len]
  | .testMode f e => [f, e]
  | .tgRun p => [p.field, p.chmask, p.pattern, p.seed, p.base, p.len, p.rdmix, p.rate, p.bursts, p.cont, p.stopOnErr]
  | .tgStop f m => [f, m]
  | .selftest m => [m]

/-- The values of the items of a command's first list, and of TILE_PROGRAM's second. -/
def itemValues : Body → List (List Nat) × List (List Nat)
  | .shutter p => (p.entries.map exportValues, [])
  | .tileProgram p => (p.entries.map (fun e => [e.fmask, e.tmask, e.queue, e.ndesc, e.soff, e.tstride]),
      p.transom.map (fun e => [e.gid, e.vtag, e.acq, e.rel]))
  | .markTable items => (items.map (fun i => [i.dfn, i.scope, i.phase, i.tmask]), [])
  | .cgroupReg _ ms => (ms.map (fun m => [m]), [])
  | .fedRecord p => (p.members.map (fun m => [m.island, m.parent, m.keeper]), [])
  | .routeTable items => (items.map (fun e => [e.island, e.ngw] ++ e.gws.flatMap (fun g => [g.1, g.2])), [])
  | .pgroupReg g => (g.members.map (fun m => [m.1, m.2]), [])
  | _ => ([], [])

/-- The parameter block of a command. -/
def encodeBody (b : Body) : List Byte :=
  let op := opcodeOf b
  layBytes 0 (layFixed op) (fixedValues b) ++ (itemValues b).1.flatMap (layBytes 0 (layItem op 0)) ++ (itemValues b).2.flatMap (layBytes 0 (layItem op 1))

/-- Whether values fit the containers that hold values, one for one. -/
def fitLay (ns vs : List Nat) : Bool :=
  let cs := ns.filter (fun n => n != 0)
  cs.length == vs.length && (cs.zip vs).all (fun x => decide (x.2 < 256 ^ x.1))

/-- Whether a command's values fit its packet: every value its container, every count its list, eight gateway pairs an entry and 16 bytes of
DATA (R497, R511, R512). -/
def bodyFits (b : Body) : Bool :=
  let op := opcodeOf b
  fitLay (layFixed op) (fixedValues b) && (itemValues b).1.all (fitLay (layItem op 0)) && (itemValues b).2.all (fitLay (layItem op 1))
    && layCounts op (fixedValues b) == ((itemValues b).1.length, (itemValues b).2.length)
    && match b with
      | .routeTable items => items.all (fun e => e.gws.length == 8)
      | .optics _ p => p.data.length == 16
      | _ => true

/-- The FLAGS of a header (R481). -/
def hdrFlags (h : Hdr) : Nat :=
  (if h.sched then 1 else 0) + (if h.dl then 2 else 0) + (if h.eval then 4 else 0) + (if h.irq then 8 else 0) + (if h.fence then 16 else 0)

/-- The 64 bytes of a packet header (R481). -/
def encodeHdr (h : Hdr) (op plen : Nat) : List Byte :=
  leBytes 2 op ++ leBytes 2 (hdrFlags h) ++ leBytes 1 h.queue ++ leBytes 1 h.part ++ leBytes 2 plen ++ leBytes 4 h.seq ++ List.replicate 4 0
    ++ leBytes 6 h.step ++ leBytes 1 h.mark ++ [0] ++ leBytes 8 h.deadline ++ List.replicate 32 0

/-- Whether a header's values fit its fields. -/
def hdrFits (h : Hdr) : Bool :=
  decide (h.part < 32) && decide (h.seq < 2 ^ 32) && decide (h.step < 2 ^ 48) && decide (h.mark < 32) && decide (h.deadline < 2 ^ 64)

/-- The packet of a command. -/
def encodePacket (h : Hdr) (b : Body) : List Byte := encodeHdr h (opcodeOf b) (encodeBody b).length ++ encodeBody b

end Sys2Proof.Machine
end

