-- ==== Sys2Proof/Safety.lean ====
section
/-! DEFINITION. Safety.lean: what a safe run is, and the terms in which the statements speak. -/

namespace Sys2Proof

open Sys2Proof.Machine

/-- Both memories are in canonical form: rising addresses, no blank byte listed. -/
abbrev MemInv (s : State) : Prop := Memory.wf s.mem = true ∧ Memory.wf s.hostMem = true

/-- The commands in hand carry numbers below the next one to be given. -/
abbrev UidInv (s : State) : Prop := ∀ c ∈ s.host.cmds, c.uid < s.host.nextUid

/-- The next state of an outcome, if it is one. -/
def nextOf {φ ρ : Type} (o : Host.Outcome State φ ρ) : Option State :=
  match o with
  | .next s => some s
  | .fault _ => none
  | .refused _ => none

/-- A run of `n` steps that neither faults nor is refused. -/
def safeRun : Nat → State → Bool
  | 0, _ => true
  | n + 1, s =>
    match step s with
    | .next s' => safeRun n s'
    | .fault _ => false
    | .refused _ => false

/-! ### A host command that starts at its submission -/

/-- The entry of a command as it is accepted. -/
def entryOf (s : State) (h : Hdr) (b : Body) : OutCmd := { s.newCmd h b with point := s.pointOf h }

/-- The state with a command accepted and not yet started. -/
def offered (s : State) (h : Hdr) (b : Body) : State :=
  (if (s.pointOf h).isSome then s.announce h.part b (s.pointOf h) else s).addCmd (entryOf s h b)

/-- Whether a command passes every check of R483, is no violation of R450, is met by no shutter and no stopped partition, and may start at
once: nothing earlier waits, FENCE and its point are met, and its completion ring has an entry (R421, R485). -/
def starts (s : State) (h : Hdr) (b : Body) : Bool :=
  s.queueOpen h.queue && (firstFail (s.allChecks h b [])).isNone && (s.violation (s.cmdQueue h.queue).view h b).isNone
    && (s.turnedAway h.part (opcodeOf b)).isNone && (offered s h b).mayBegin (entryOf s h b)

/-- The state in which a command that starts at its submission takes its effect: it is in hand and running. -/
def inHand (s : State) (h : Hdr) (b : Body) : State :=
  (offered s h b).modCmd s.host.nextUid
    (fun x => { x with phase := .running, slot := true, profile := ((offered s h b).part h.part).profile })

/-- The host link is `hl` with one more command in hand, the header and the parameters those given, which has completed with a status and
four result words; a site-time deadline puts its point in the first two (R353). -/
def Completed (hl : HostLink) (t : State) (h : Hdr) (b : Body) (status : Nat) (r : List Nat) : Prop :=
  ∃ c : OutCmd, t.host = { hl with cmds := hl.cmds ++ [c], nextUid := hl.nextUid + 1 } ∧
    c.uid = hl.nextUid ∧ c.hdr = h ∧ c.body = b ∧ c.phase = .done ∧ c.status = status ∧ c.posted = false ∧
    (h.dl = false → [c.r0, c.r1, c.r2, c.r3] = r)

/-- The host link is `hl` with one more command in hand, which runs. -/
def Running (hl : HostLink) (t : State) (h : Hdr) (b : Body) : Prop :=
  ∃ c : OutCmd, t.host = { hl with cmds := hl.cmds ++ [c], nextUid := hl.nextUid + 1 } ∧
    c.uid = hl.nextUid ∧ c.hdr = h ∧ c.body = b ∧ c.phase = .running ∧ c.posted = false

/-- A frame of VL1 from this module to a module has a port to leave by (R319). -/
def inReach (s : State) (m : Nat) : Prop :=
  ∃ h t p lk vl, s.self = some h ∧ s.blob.member m = some t ∧
    hopOf s.blob (fun p => (s.port p).state != 2 || (s.port p).returning) h t none 0 1 = .via p lk vl

/-- No frame of this module to a member finds both ways of a ring shut, which would be a fault (R320). -/
def joined (s : State) : Prop :=
  ∀ m h t lk vl, s.self = some h → s.blob.member m = some t →
    hopOf s.blob (fun p => (s.port p).state != 2 || (s.port p).returning) h t none lk vl ≠ .drop true

/-- The row of a collective operation (R323). -/
def collRow (op : Nat) (h : Hdr) (p : CollP) : Instr :=
  match op with
  | 0 => .allReduce h p
  | 1 => .reduceScatter h p
  | 2 => .allGather h p
  | 3 => .broadcast h p
  | 4 => .reduce h p
  | 5 => .allToAll h p
  | _ => .barrier h p

/-! ### A descriptor that a unit acts on -/

/-- Whether a unit row's descriptor passes the queue-time checks, a physical tile serves its tile id, it has started and not acted, it is its
turn at its unit, and no descriptor of the tile draws from lane states older than a seed load (R16, R57, R177, R182). -/
def unitReady (s : State) (u : Issuer) (k : DKind) (h : DHdr) : Bool :=
  s.descOk u.tile.val { hdr := h, kind := k } && s.served u.tile.val && (s.actEntry u { hdr := h, kind := k }).isSome
    && s.unitTurn u { hdr := h, kind := k }
    && (s.tile u.tile.val).seedGens.isEmpty

/-- The tile of a row's issuer. -/
def tileOf (s : State) (u : Issuer) : TileState := s.tile u.tile.val

/-- No field changes but in the list of tile captures on their way to its locator (R171). -/
def CapsOnly (s t : State) : Prop := ∀ f, { t.fld f with caps := (s.fld f).caps } = s.fld f

/-- The row's descriptor, the first started one that is equal to it and has not acted, has acted; the queues are otherwise the same. -/
def ActedOnce (s t : State) (u : Issuer) (k : DKind) (h : DHdr) : Prop :=
  (tileOf t u).queues = smapModify {} (tileOf s u).queues u.queue.val (fun x =>
    { x with started :=
               modFirst (fun e => !e.acted && decide (e.desc = ({ hdr := h, kind := k } : Descriptor))) (fun e => { e with acted := true, held := false }) x.started }) ∧
  (∀ n, n ≠ u.tile.val → t.tile n = s.tile n)

/-- Every byte outside `n` rows of `len` bytes from `base` at a stride reads as before. -/
def OutsideRows (m m' : Memory) (base stride n len : Nat) : Prop :=
  ∀ a : Nat, (∀ i, i < n → a < base + i * stride ∨ base + i * stride + len ≤ a) → memRead m' a = memRead m a

/-! ### Parameter groups -/

/-- No channel of a field's stack is lost, and it is not in test mode: what is written to it can be read back (R227, R236). -/
abbrev stackWhole (s : State) (f : Nat) : Prop := (s.fld f).stack.lost = 0 ∧ (s.fld f).stack.test = false

/-- A group of a field stands as `g`, every other group as before, and so does the rest of every field. -/
def GroupStep (s t : State) (f gid : Nat) (g : Group) : Prop :=
  t.group f gid = some g ∧ (∀ f' k, (f', k) ≠ (f, gid) → t.group f' k = s.group f' k) ∧
    ∀ f', { t.fld f' with groups := (s.fld f').groups } = s.fld f'

/-- `t` is `s` but for memory, the field controllers, the step line, the fabric, event records and what goes out. -/
abbrev ParamFrame (s t : State) : Prop :=
  t = { s with mem := t.mem, hostMem := t.hostMem, fields := t.fields, bcn := t.bcn, fab := t.fab, outbox := t.outbox,
               host := { s.host with erings := t.host.erings, held := t.host.held } }

/-- A reduced shard `j` of a group has landed in `u`: it is in the gradient area and marked; a HOST group whose gradient is then complete and not
yet parked is parked with the step's scalars; every other group and the rest of every field but its norm and its counts stand (R250, R279). -/
def ShardLanded (s u : State) (f gid j : Nat) (g : Group) (data : List Byte) : Prop :=
  let v : State := { s with mem := memWriteBytes s.mem (gradAddr g.p (g.p.shardLo j)) (padTo (512 * g.p.shardLen j) data) }
  let g1 : Group := { g with landed := g.landed ++ [j] }
  let own := s.ownBlocks g.p
  let parks := s.isLanded g1 && g.p.tier.home == 1 && !(g.parks.any (fun k => k.step == s.bcn.step))
  ParamFrame s u ∧
    u.mem = (if parks then v.pokeBytes (s.parkAddr g.p s.bcn.step) (v.peekBytes (gradAddr g.p own.1) (512 * own.2)) else v).mem ∧
    u.group f gid = some (if parks then
      { g1 with parks := g.parks ++ [{ step := s.bcn.step, factor := oneF32, scal := (s.fld g.p.field).scal }] } else g1) ∧
    (∀ f' k, (f', k) ≠ (f, gid) → u.group f' k = s.group f' k) ∧
    ∀ f', { u.fld f' with
      groups := (s.fld f').groups, normWait := (s.fld f').normWait, normSum := (s.fld f').normSum, meter := (s.fld f').meter, caps := (s.fld f').caps } = s.fld f'

/-- A group's contributions to the own shard with those of a row behind them: one of a rank that it has, the first of each rank in a step (R249). -/
def gathered (s : State) (g : Group) (data : List (Nat × List Byte)) : List (Nat × Nat × List Byte) :=
  data.foldl (fun l d => if g.p.r ≤ d.1 || l.any (fun c => c.1 == s.bcn.step && c.2.1 == d.1) then l else l ++ [(s.bcn.step, d.1, d.2)]) g.contribs

/-- The words of the own shard as the sum of the step's contributions, in their order of arrival, or in ascending rank under EXACT (R118, R119, R249). -/
def reducedShard (s : State) (f : Nat) (g : Group) (cs : List (Nat × Nat × List Byte)) : List Byte :=
  let now := cs.filter (fun c => c.1 == s.bcn.step)
  let xs := if s.exactOf f then now.mergeSort (fun a b => a.2.1 ≤ b.2.1) else now
  (List.range (g.p.shardLen (s.rankOf g.p))).flatMap (fun i => (List.range 128).flatMap (fun e =>
    leBytes 4 (uRunSum (xs.map (fun c => uv ((contribWords g.p.gxfmt c.2.2 i).getD e (0, {})).1))).1.toNat))

/-- Only working-copy slots of version `v` in the field's own tile stores have changed. -/
def OutsideSlots (s t : State) (g : GroupP) (v : Nat) : Prop :=
  ∀ a : Nat, (∀ i, i < 16 → a < storeBase (16 * g.field + i) + g.slotOf v ∨ storeBase (16 * g.field + i) + g.slotOf v + g.slotBytes ≤ a) →
    memRead t.mem a = memRead s.mem a

/-- The shape that registration gives a group's slots (R242): whole vectors, enough of them, inside the tile store, and a rank it has. -/
abbrev slotFits (s : State) (g : GroupP) (v : Nat) : Prop :=
  g.telems % 128 = 0 ∧ g.telems ≠ 0 ∧ g.nelem % 128 = 0 ∧ g.nelem ≤ g.telems * (onesBelow 16 g.tmask).length ∧
    g.slotOf v + g.slotBytes ≤ tileStoreBytes ∧ g.wcfmt ∈ [0, 1, 2, 3, 4, 6, 7] ∧ s.rankOf g < g.r

/-! ### The outer loop -/

/-- A group's outer sweeps may run now: it is registered, REDUCE_DONE is delivered in the running step and its own sweeps are done (R397). -/
abbrev OuterTurn (s : State) (f gid : Nat) (r : FedP) (g : Group) (o : OuterGroup) : Prop :=
  s.group f gid = some g ∧ g.outer = some o ∧ s.outer.fed = some r ∧ s.bcn.begun = true ∧ s.isTrainField f = true ∧ s.pastMark 28 = true ∧
    g.active = true ∧ g.updated = true ∧ g.p.field = f ∧ g.p.gid = gid ∧ g.bank ≤ 1

/-- A group's outer record stands as `o`; every other group and the rest of every field but its counts stand as before, but that a member of the
same replica set in another field of this module may come to await a shard this one sent it (R413). -/
def OuterStep (s u : State) (f gid : Nat) (g : Group) (o : OuterGroup) : Prop :=
  u.group f gid = some { g with outer := some o } ∧
    (∀ f' k, (f', k) ≠ (f, gid) → k ≠ g.p.gid ∨ (s.place.moduleId, f') ∉ s.otherMembers g.p → u.group f' k = s.group f' k) ∧
    (∀ f' h h', (f', g.p.gid) ≠ (f, gid) → s.group f' g.p.gid = some h → u.group f' g.p.gid = some h' →
      { h' with outer := h.outer } = h ∧ h'.outer.isSome = h.outer.isSome ∧ ∀ o1 o2, h.outer = some o1 → h'.outer = some o2 →
        { o2 with pend := { o2.pend with owed := o1.pend.owed } } = o1) ∧
    (∀ f' k, (u.group f' k).isSome = (s.group f' k).isSome) ∧
    ∀ f', { u.fld f' with groups := (s.fld f').groups, meter := (s.fld f').meter, caps := (s.fld f').caps } = s.fld f'

/-- The planes of a group lie where registration checks that they do, its outer planes apart from its own ones, and no channel of its field is
lost (R277, R394). -/
abbrev OuterPlaced (s : State) (g : Group) (o : OuterGroup) : Prop :=
  MemInv s ∧ stackWhole s g.p.field ∧ s.rankOf g.p < g.p.r ∧ g.p.tier.home ≠ 1 ∧ (s.outRange g.p o.p).2 ≤ 2 ^ 37 ∧
    planeEnd g.p.pbase (g.p.baseSizes (s.ownBlocks g.p).2) ≤ 2 ^ 37 ∧
    ∀ x ∈ g.p.stackRanges (s.ownBlocks g.p).2, rangesMeet (s.outRange g.p o.p) x = false

end Sys2Proof
end

