-- ==== Sys2Proof/WellFormed.lean ====
section
/-! DEFINITION. WellFormed.lean: the checks that every command's operands fit the fields that carry them. -/

namespace Sys2Proof

/-- The header's fields fit the packet (R481). -/
def Hdr.wf (h : Hdr) : Bool :=
  h.part < 32 && h.seq < 2 ^ 32 && h.step < 2 ^ 48 && h.mark < 32 && h.deadline < 2 ^ 64

/-- W0 fits its fields (R188). -/
def DHdr.wf (h : DHdr) : Bool := h.sigSem < 16 && h.htag < 256

/-- The header of a fabric frame fits R308. -/
def FabFrame.wf (f : FabFrame) : Bool :=
  f.lseq < 4096 && f.vl < 4 && f.typ < 4 && f.ack < 4096 && f.credit < 4096 && f.cvl < 4 && f.dest < 1024 && f.dirlock < 8
    && f.src < 1024 && f.flow < 16384 && f.epoch < 65536 && f.kind < 64 && f.fseq < 2 ^ 32 && f.arg < 2 ^ 64
    && f.payload.length ≤ 512 && (if f.vl = 0 then f.payload.length ≤ 64 && f.payload.length % 8 == 0 else f.payload.length % 64 == 0)

/-- A flare frame fits R345. -/
def FlareFrame.wf (f : FlareFrame) : Bool :=
  f.op < 256 && f.key < 256 && f.index < 65536 && f.step < 2 ^ 48 && f.attempt < 256 && f.payload.length ≤ 64 && f.payload.length % 8 == 0

/-- A lantern DATA frame fits R365. -/
def LntData.wf (d : LntData) : Bool := d.session < 2 ^ 32 && d.flow < 64 && d.pseq < 2 ^ 32 && d.payload.length < 2 ^ 14

/-- A HELLO fits R367. -/
def HelloF.wf (h : HelloF) : Bool :=
  h.island < 16 && h.module < 1024 && h.port < 4 && h.fedTag < 2 ^ 32 && h.nonce.length == 32 && h.rand < 65536

/-- An outer transfer fits R384. -/
def Xfer.wf (x : Xfer) : Bool :=
  x.typ < 16 && x.srcIsland < 16 && x.dstIsland < 16 && x.fmt < 65536 && x.round < 2 ^ 32 && x.base < 2 ^ 32
    && x.item < 2 ^ 32 && x.srcModule < 1024 && x.attempt < 65536

/-- The operands of a command fit the fields that carry them. A command that breaks a ruling of the spec is still well formed: the
module answers it with a status. -/
def Instr.wf : Instr → Bool
  | .routeTable h items => h.wf && items.all (fun e => e.gws.length == 8)
  | .packetFetch _ bytes _ => 64 ≤ bytes.length
  | .readyContribute step => step < 2 ^ 48
  | .flareFrameRx _ f => f.wf
  | .stepBeginDelivery step site => step < 2 ^ 48 && site < 2 ^ 64
  | .markDelivery step _ => step < 2 ^ 48
  | .commitDelivery step dur => step < 2 ^ 48 && dur < 2 ^ 64
  | .evalSlotDelivery step => step < 2 ^ 48
  | .normResult step _ => step < 2 ^ 48
  | .scalarDelivery _ _ step => step < 2 ^ 48
  | .abortFloodRx _ step attempt => step < 2 ^ 48 && attempt < 256
  | .fenceFloodRx _ module port => module < 1024 && port < 8
  | .collectiveSegment (.packet _ f _ _) => f.wf
  | .collectiveSegment (.sig _) | .collectiveSegment (.seg _) => true
  | .outerFloodRx f => OuterFlood.wf f
  | .siteMessage ns => ns < 2 ^ 64
  | .hello _ f => f.wf
  | .lanternData _ f => f.wf
  | .manifestReject _ session flow told => session < 2 ^ 32 && flow < 64 && told.all Xfer.wf
  | .lanternAck _ session flow cum sack => session < 2 ^ 32 && flow < 64 && cum < 2 ^ 32 && sack < 2 ^ 64
  | .losttouch _ cut => cut.all Xfer.wf
  | .close _ session => session < 2 ^ 32
  | .nop h | .config h _ _ | .inventory h _ | .powerRun h | .powerPark h | .powerRetain h | .queueSetup h _ | .cringSetup h _
  | .eringSetup h _ | .partCreate h _ | .partDelete h _ | .profile h _ _ | .shutter h _ _ | .heirWindowOpen h _ | .heirWindowClose h _
  | .queueBind h _ _ | .bulkMove h _ | .regulator h _ | .regulatorSys h _ | .errClear h _ _ | .actReg h _ | .actRemove h _
  | .footprint h | .tileProgram h _ | .stepStart h _ | .stepStop h | .markTable h _ | .keeperSelect h _ _ | .watchdog h _
  | .islandForm h _ | .cgroupReg h _ _ | .cgroupRemove h _ | .allReduce h _ | .reduceScatter h _ | .allGather h _ | .broadcast h _
  | .reduce h _ | .allToAll h _ | .barrier h _ | .portRetrain h _ | .portClear h _ | .fabricSet h _ | .fedRecord h _ | .outerReg h _
  | .outerRemove h _ | .lportConfig h _ | .opticsRead h _ _ | .opticsWrite h _ _ | .lportClear h _ | .pgroupReg h _
  | .pgroupRemove h _ | .publish h _ | .stepScalar h _ _ | .driftAudit h _ | .ckptExport h _ | .healthRead h _
  | .healthClear h _ _ _ _ | .steerCtl h _ | .steerSlot h _ | .steerPin h _ _ | .steerUnpin h _ _ | .nevtEn h _ _ | .snapshot h _
  | .attest h _ | .logRead h _ | .idkeyRead h _ | .testModeEnter h _ | .testModeLeave h _ | .tgRun h _ | .tgStop h _ _
  | .selftest h _ _ => h.wf
  | .load _ h _ _ | .store _ h _ | .stage _ h _ | .swap _ h _ | .pass _ h _ | .pairedPass _ h _ | .drain _ h _ | .smxFwd _ h _
  | .smxDot _ h _ | .smxBwd _ h _ | .normStats _ h _ | .normFwd _ h _ | .normDot _ h _ | .normBwd _ h _ | .recSave _ h _
  | .recLoad _ h _ | .laneCvt _ h _ | .laneAdd _ h _ | .laneSub _ h _ | .laneMul _ h _ | .laneFma _ h _ | .laneScale _ h _
  | .laneAct _ h _ | .laneDact _ h _ | .laneMax _ h _ | .laneMin _ h _ | .laneSumsq _ h _ | .putAdd _ h _ | .putWrite _ h _
  | .get _ h _ | .mark _ h _ | .waitSemaphore _ h _ | .waitMark _ h _ | .fence _ h _ => h.wf
  | .idleFrame _ f | .frameForward _ f | .bulkWritePacket _ f | .flowAck _ f | .flowControlMessage _ f => f.wf
  | .upTransferDelivered x | .downTransferDelivered x | .statusTransferRx x | .fetchReqRx x | .fetchDataRx x => x.wf
  | .powerStateReached | .shutterDrainPoint _ | .shutterWaitTimeout _ | .shutterExportDone _ _ | .exportCutTimer _ _ _
  | .shutterZeroiseDone _ | .tgRunDone _ _ _ _ | .sqDoorbell _ _ _ | .scheduledStart _ _ | .completionPost _ | .cqDoorbell _ _ _
  | .eqDoorbell _ _ _ | .q0SetupWrite _ _ _ | .rngSeedLoad _ _ _ | .fflRearm _ _ _ | .clrViol _ _ | .bcnPosRead _
  | .registerWrite _ _ _ | .imagePush _ _ | .imageReadDone _ | .firmwareLoadDone | .dramTrainDone _ | .bootZeroiseDone
  | .selftestDone _ | .chkCfgWrite _ _ _ | .chkParamWrite _ _ _ _ | .chkRestart _ _ _ | .chkData8 _ _ _ | .chkData16 _ _ _
  | .chkData32 _ _ _ | .chkFeedDone _ | .chkResultRead _ _ _ | .queueRefill _ | .descriptorStart _ | .descriptorRetire _
  | .putRelease _ | .nsummaryPropagate _ | .doneContribute | .steerRoundResult _ _ | .stepOverdue _ | .ppsEdge _
  | .siteTimeout | .advance | .pstat _ _ | .xfail _ | .tileFault _ _ | .tileStoreUe _ _ | .fcProbeTimeout _ | .channelLost _ _
  | .scrub _ _ _ | .thermalSample _ _ _ | .updateSweepStart _ | .updateSweepDone _ | .tileBorrow _ _ | .shardReductionLanded _ _ _
  | .mirrorShardLanded _ _ _ _ | .workingCopyEmit _ _ | .ownerShardReceive _ _ _ _ | .versionPublish _ _ | .offloadReadDone _ _ _
  | .offloadDone _ _ _ | .prefetchStart _ _ _ | .prefetchLanded _ _ _ _ | .stateFetch _ _ | .fetchLanded _ _ _
  | .tierWritebackAck _ _ _ | .outerApplySweep _ _ | .outerFoldSweep _ _ | .outerCloseSweep _ _ | .outerCombineSweep _ _ _
  | .outerMasterReceive _ _ _ _ | .fabricTrainDone _ _ _ _ | .fabricTrainTimeout _ | .fabricSilence _ | .fabricLaneLockLost _ _
  | .replayTimeout _ | .idleSend _ | .flowAckTimer _ | .flowRetransmitTimeout _ _ | .opticsPoll _ _ _
  | .opticsPresenceChange _ _ | .lanternLinkUp _ | .lanternLinkLost _ _ | .helloRetry _ | .attestFrame _ _ _ | .attestTimeout _
  | .lanternAckTimer _ _ | .lanternRtoExpiry _ _ _ | .echoTimer _ _ | .echo _ _ _ | .echoReply _ _ _ _ _ | .lanternIdle _
  | .reiloSilence | .reiloLinkUp _ | .reset | .railGoodLost _ | .railEnableRemoved _ | .inputOutOfRange | .pgCoreReturn
  | .powerRemoved | .railEnableAsserted _ | .testZeroiseDone _ | .hostTierAck _ _ _ | .fcRestartDone _ | .linkFrameDiscard _ _
  | .lanternFrameDiscard _ | .formationNoAnswer _ => true

end Sys2Proof
end

