-- ==== Sys2Proof/Certificates/Slice0/Obligations.lean ====
section
/-! DEFINITION. Certificates/Slice0/Obligations.lean: the statements about the module. -/

open Sys2Proof Sys2Proof.Machine

/-- A step runs the command at the front of the queue on the state with the rest of the queue; an empty queue idles. For
every state and every command c: if c stands at the front of the queue, step answers what exec of c answers on the
state with the queue's rest; with no command waiting, step answers the same state. The queue and the idling are the
model's own (assumption 1). -/
def Obligations.StepRunsFrontCommand : Prop :=
  (∀ (s : State) (c : Instr) (rest : List Instr), s.pending = c :: rest → step s = exec c { s with pending := rest }) ∧
  (∀ s : State, s.pending = [] → step s = .next s)

/-- The registers that the spec gives a reset value hold it at reset. At reset, for every field f below 64, the privileged
view's register values are: steering window 100 and inactive, thresholds 256 and 16384, every steering slot at RUNG 1
with MAX_RUNG 2, the five class rates 400, 200, 200, 100, 100 with BORROW 1 and BURST 1024, OPCEIL and C 1000, NORM 0
and CLIPF 1.0, the eight step scalars 1.0. The flow contexts free are 16384, the watchdog holds MULT 10 and INIT_MS
10000, LIMIT is 4, every check-value unit holds width 32 with both reflections and polynomial 0x04C11DB7, and the
violation registers are 0. The fabric timers hold 4, 8, 40 and 6. Both memories list nothing, no command is in hand,
and the queue is empty. -/
def Obligations.ResetRegisterValues : Prop :=
  (∀ f : Nat, f < 64 →
    State.reset.fldReg f 0x0040 = 100 ∧ State.reset.fldReg f 0x0044 = 256 + 16384 * 2 ^ 16 ∧
    (∀ n : Nat, n < 64 → State.reset.fldReg f (0x0100 + 4 * n) = 1 + 2 * 2 ^ 4) ∧
    (∀ k : Nat, k < 5 → State.reset.fldReg f (0x8020 + 4 * k) = [400, 200, 200, 100, 100].getD k 0 + 2 ^ 10 + 1024 * 2 ^ 16) ∧
    State.reset.fldReg f 0x8014 = 1000 + 1000 * 2 ^ 10 ∧
    State.reset.fldReg f 0x5C04 = 0 ∧ State.reset.fldReg f 0x5C08 = 0x3F800000 ∧
    (∀ k : Nat, k < 8 → State.reset.fldReg f (0x5C20 + 4 * k) = 0x3F800000)) ∧
  State.reset.fabReg 0x800 = 16384 ∧ State.reset.bcnReg 0x010 = 10 + 10000 * 2 ^ 16 ∧ State.reset.modReg 16 0x024 = 4 * 2 ^ 16 ∧
  (∀ u : Nat, u < 65 → (State.reset.chkUnit u).get 0x00 = 32 + 2 ^ 7 + 2 ^ 8 ∧ (State.reset.chkUnit u).get 0x10 = 0x04C11DB7 ∧
    (State.reset.chkUnit u).reg = (State.reset.chkUnit u).init) ∧
  State.reset.modReg 16 0x030 = 0 ∧ State.reset.modReg 16 0x034 = 0 ∧
  State.reset.fab.set = { replayUs := 4, replayLim := 8, flowRtoUs := 40, flowRetry := 6 } ∧
  State.reset.mem = [] ∧ State.reset.hostMem = [] ∧ State.reset.host.cmds = [] ∧ State.reset.pending = []

/-- The state after reset has both memories in canonical form and its command numbers in order. State.reset meets MemInv
and UidInv. -/
def Obligations.ResetHoldsInvariants : Prop :=
  MemInv State.reset ∧ UidInv State.reset

/-- Every step keeps the memories canonical, the command numbers in order, and the fuses, and takes one command off the
queue. For every state s in which both memories are in canonical form and every command in hand has a number below the
next one: if step answers next t, then t has the same two properties, t's fuses are those of s, and t's queue is that
of s without its front. -/
def Obligations.EveryStepKeepsInvariants : Prop :=
  ∀ s t : State, MemInv s → UidInv s → step s = .next t →
    MemInv t ∧ UidInv t ∧ t.fuses = s.fuses ∧ t.pending = s.pending.tail

/-- A command that a check of R483 refuses changes no state beyond its completion entry. When a queue takes packets, the
command is no violation, and some check fails, the row's command completes at once with the status of the failing
check that comes first in the order of R483 (the lowest order number, the first listed among equals), its offset and
item index in the detail; the state is otherwise unchanged. It does not wait for FENCE: the statement holds for every
header. NOP stands for the rows, and every row of the host's commands submits its parameters in the same way. -/
def Obligations.RejectedCommandDoesNothing : Prop :=
  ∀ (s : State) (h : Hdr) (b : Body) (feed : Feed) (k : Check), UidInv s → s.queueOpen h.queue = true →
    s.violation (s.cmdQueue h.queue).view h b = none → firstFail (s.allChecks h b []) = some k →
    k ∈ s.allChecks h b [] ∧ k.ok = false ∧ (∀ c ∈ s.allChecks h b [], c.ok = false → k.order ≤ c.order) ∧
    (∃ c : OutCmd, s.submit h b feed =
        { s with host := { s.host with cmds := s.host.cmds ++ [c], nextUid := s.host.nextUid + 1 } } ∧
      c.hdr = h ∧ c.body = b ∧ c.phase = .done ∧ c.status = k.status ∧ c.detail = detailOf k.off k.didx)

/-- A privileged opcode or a foreign PART on a partition's queue completes as DONE with no effect and counts one
violation. For a queue of a partition that takes packets, and a command whose header names a PART of at most 16: if
its opcode is privileged or its PART is not the queue's own, the command completes as DONE, VIOL_COUNT rises by 1 up
to 2^32 - 1, VALID, QUEUE, VIEW and OPCODE of MOD_VIOL_LAST are written, and nothing else changes but the completion
entry. The opcodes named privileged include groups 0x00xx and 0x0Axx, the partition commands but PROFILE,
REGULATOR_SYS and FABRIC_SET. -/
def Obligations.ViolationCompletesWithNoEffect : Prop :=
  (∀ (s : State) (h : Hdr) (b : Body) (feed : Feed), s.queueOpen h.queue = true → (s.cmdQueue h.queue).view < 16 → h.part ≤ 16 →
    opPriv (opcodeOf b) = true ∨ h.part ≠ (s.cmdQueue h.queue).view →
    ∃ c : OutCmd, ∃ cause : Nat, cause < 2 ∧ c.hdr = h ∧ c.body = b ∧ c.phase = .done ∧ c.status = stDone ∧
      s.submit h b feed =
        { s with
          host := { s.host with cmds := s.host.cmds ++ [c], nextUid := s.host.nextUid + 1 },
          mods := { s.mods with
            violCount := min (s.mods.violCount + 1) (2 ^ 32 - 1),
            violLast := BitVec.ofNat 32 (h.queue.val + (s.cmdQueue h.queue).view * 2 ^ 6 + cause * 2 ^ 11 + 2 ^ 15 + opcodeOf b * 2 ^ 16) } }) ∧
  (∀ op ∈ [0x0000, 0x0001, 0x0002, 0x0003, 0x0010, 0x0011, 0x0012], opPriv op = true) ∧
  (∀ op ∈ [0x0A00, 0x0A01, 0x0A02, 0x0A03, 0x0100, 0x0101, 0x0103, 0x0104, 0x0105, 0x0202, 0x0506], opPriv op = true) ∧ opPriv 0x0102 = false

/-- NOP, CONFIG and INVENTORY complete when they start, with the effects of the command reference. For a command that
starts at its submission (passes every check, nothing earlier waits, its point is reached): NOP completes DONE and
changes nothing but the completion entry. CONFIG with BYTES 0 does the same; with a blob that breaks a ruling it
completes BAD_VALUE with the byte offset of the first failing field as result word 0 and DOFF naming BLOB, and changes
nothing else; with a good blob it completes DONE, PLACED becomes 1, the module and island ids are those of the blob,
the island map and the trust list are the blob's, in a boot the phase becomes DRAM_TRAIN, and both memories,
partitions, tiles and check-value units stay. INVENTORY completes DONE with the slots presented, the spares in use and
the channels in service and mapped out as its result words, and writes at most RLEN bytes at RBUF and nothing else. -/
def Obligations.ModuleControlCommandsComplete : Prop :=
  (∀ (s : State) (h : Hdr), UidInv s → starts s h .nop = true →
    ∃ t, exec (.nop h) s = .next t ∧ Completed s.host t h .nop stDone [0, 0, 0, 0] ∧ t = { s with host := t.host }) ∧
  (∀ (s : State) (h : Hdr) (p : BufP) (feed : Feed), UidInv s → starts s h (.config p) = true →
    (p.len = 0 → ∃ t, exec (.config h p feed) s = .next t ∧ Completed s.host t h (.config p) stDone [0, 0, 0, 0] ∧
      t = { s with host := t.host }) ∧
    (∀ o, 0 < p.len → blobFail (padTo p.len feed.data) (if s.power.phase = 4 then none else some s.blob.mapBytes) = some o →
      ∃ t, exec (.config h p feed) s = .next t ∧ Completed s.host t h (.config p) stValue [o, 0, 0, 0] ∧
        t = { s with host := t.host } ∧ (∀ c, t.host.cmds.getLast? = some c → c.detail = 64)) ∧
    (0 < p.len → blobFail (padTo p.len feed.data) (if s.power.phase = 4 then none else some s.blob.mapBytes) = none →
      ∃ t, exec (.config h p feed) s = .next t ∧ Completed s.host t h (.config p) stDone [0, 0, 0, 0] ∧
        t.place.placed = true ∧ t.place.moduleId = bytesAt (padTo p.len feed.data) 6 2 ∧
        t.place.islandId = bytesAt (padTo p.len feed.data) 8 1 ∧ t.blob = parseBlob (padTo p.len feed.data) ∧
        t.power = (if s.power.phase = 4 then { s.power with phase := 5 } else s.power) ∧
        t.mem = s.mem ∧ t.hostMem = s.hostMem ∧ t.parts = s.parts ∧ t.tiles = s.tiles ∧ t.chk = s.chk ∧ t.fuses = s.fuses)) ∧
  (∀ (s : State) (h : Hdr) (p : BufP), UidInv s → starts s h (.inventory p) = true →
    ∃ t, exec (.inventory h p) s = .next t ∧
      Completed s.host t h (.inventory p) stDone [s.slotsAll, s.sparesUsed, s.countChans 0, s.countChans 1] ∧
      t = { s with host := t.host, hostMem := t.hostMem } ∧
      (∀ a : Nat, a < p.addr ∨ p.addr + p.len ≤ a → memRead t.hostMem a = memRead s.hostMem a) ∧
      (MemInv s → 16 ≤ p.len → memReadNat t.hostMem p.addr 4 = s.slotsAll % 2 ^ 32 ∧ memReadNat t.hostMem (p.addr + 12) 4 = 1040))

/-- POWER begins a listed transition, and POWER_STATE_REACHED completes it. A POWER command to RUN, PARK or RETAIN that
starts leaves the requested state and its command waiting, runs on, and changes nothing else; a POWER_STATE_REACHED
that follows it at once makes the power state RUN, PARK or RETAIN, clears the request, and the command, if it is still
in hand, has completed DONE. POWER to a state that the table does not list from the present one fails its state check
with WRONG_STATE: RUN from RUN, and anything from a boot. From every state, POWER_STATE_REACHED with a request to
state v by a command u that runs makes the power state v, clears the request, sets RAILOFF_OK exactly for RETAIN,
completes u with DONE (its entry may be posted at once), keeps the fuses and the violation registers, and, for PARK
and RUN, changes nothing but the host link, the host tier and what goes out; in RETAIN module memory below 2^43 (the
stacks) stands, while tiles, placement and the bytes above are gone. With no request it changes nothing. -/
def Obligations.PowerTransitions : Prop :=
  (∀ (s : State) (h : Hdr), UidInv s → starts s h (.power 0) = true →
    (∃ t, exec (.powerRun h) s = .next t ∧ Running s.host t h (.power 0) ∧
      t = { s with host := t.host, power := { s.power with req := some (1, s.host.nextUid) } }) ∧
    (∃ t u, exec (.powerRun h) s = .next t ∧ exec .powerStateReached t = .next u ∧ u.power.state = 1 ∧ u.power.req = none ∧
      u.power.railoffOk = false ∧ u.tiles = s.tiles ∧ u.mem = s.mem ∧
      (∀ c ∈ u.host.cmds, c.uid = s.host.nextUid → c.phase = .done ∧ c.status = stDone))) ∧
  (∀ (s : State) (h : Hdr), UidInv s → starts s h (.power 1) = true →
    (∃ t, exec (.powerPark h) s = .next t ∧ Running s.host t h (.power 1) ∧
      t = { s with host := t.host, power := { s.power with req := some (2, s.host.nextUid) } }) ∧
    (∃ t u, exec (.powerPark h) s = .next t ∧ exec .powerStateReached t = .next u ∧ u.power.state = 2 ∧ u.power.req = none ∧
      u.power.railoffOk = false ∧ u.tiles = s.tiles ∧ u.mem = s.mem ∧
      (∀ c ∈ u.host.cmds, c.uid = s.host.nextUid → c.phase = .done ∧ c.status = stDone))) ∧
  (∀ (s : State) (h : Hdr), UidInv s → starts s h (.power 2) = true →
    (∃ t, exec (.powerRetain h) s = .next t ∧ Running s.host t h (.power 2) ∧
      t = { s with host := t.host, power := { s.power with req := some (3, s.host.nextUid) } }) ∧
    (∃ t u, exec (.powerRetain h) s = .next t ∧ exec .powerStateReached t = .next u ∧ u.power.state = 3 ∧ u.power.req = none ∧
      u.power.railoffOk = true ∧ u.tiles = [] ∧
      (∀ c ∈ u.host.cmds, c.uid = s.host.nextUid → c.phase = .done ∧ c.status = stDone))) ∧
  (∀ (s : State) (h : Hdr) (st : Nat), (s.power.state = 0 ∨ (s.power.state = 1 ∧ st = 0) ∨ (s.power.state = 3 ∧ s.power.pgCore = false)) →
    starts s h (.power st) = false) ∧
  (∀ (s : State) (v u : Nat) (cs ds : List OutCmd) (c : OutCmd), s.power.req = some (v, u) → s.host.cmds = cs ++ c :: ds →
    c.uid = u → c.phase = .running → c.replayed = false → c.drained = false → (∀ x ∈ cs ++ ds, x.uid ≠ u) →
    ∃ t, exec .powerStateReached s = .next t ∧ t.power = { s.power with state := v, req := none, railoffOk := v == 3 } ∧
      (∀ x ∈ t.host.cmds, x.uid = u → x.phase = .done ∧ x.status = stDone) ∧
      t.fuses = s.fuses ∧ t.mods.violCount = s.mods.violCount ∧ t.mods.violLast = s.mods.violLast ∧
      (v ≠ 3 → t = { s with host := t.host, hostMem := t.hostMem, power := t.power, outbox := t.outbox }) ∧
      (v = 3 → t.tiles = [] ∧ t.place = {} ∧ (∀ a : Nat, a < 2 ^ 43 → memRead t.mem a = memRead s.mem a) ∧
        (∀ a : Nat, 2 ^ 43 ≤ a → memRead t.mem a = blankByte))) ∧
  (∀ s : State, s.power.req = none → exec .powerStateReached s = .next s)

/-- QUEUE_SETUP, CRING_SETUP, ERING_SETUP and QUEUE_BIND set what they name and nothing else. For each command that
starts: QUEUE_SETUP with LOG not 0 makes queue Q start from its first entry with BASE, LOG, CQ and SEQ0, enabled, its
binding and its sticky error bits kept; with LOG 0 it disables it. CRING_SETUP makes ring C start from entry 0 with
PHASE 1, or disables it, its sticky bits kept. ERING_SETUP makes ring E start from entry 0 with PHASE 1, DROPPED 0 and
RING_ERR clear. QUEUE_BIND gives queue Q its new binding and leaves the rest of the queue. Each completes DONE; no
other queue, ring or part of the state changes. -/
def Obligations.RingSetupCommands : Prop :=
  (∀ (s : State) (h : Hdr) (p : QueueSetupP), UidInv s → starts s h (.queueSetup p) = true →
    ∃ t hl, exec (.queueSetup h p) s = .next t ∧ Completed hl t h (.queueSetup p) stDone [0, 0, 0, 0] ∧ t = { s with host := t.host } ∧
      hl = { s.host with queues := hl.queues } ∧
      t.cmdQueue p.q = (let keep : CmdQueue :=
          { view := (s.cmdQueue p.q).view, dbErr := (s.cmdQueue p.q).dbErr,
            seqErr := (s.cmdQueue p.q).seqErr, ringErr := (s.cmdQueue p.q).ringErr }
        if p.log = 0 then keep else { keep with base := p.base, log := p.log, cq := p.cq, seq := p.seq0, enabled := true }) ∧
      (∀ q, q ≠ p.q → t.cmdQueue q = s.cmdQueue q)) ∧
  (∀ (s : State) (h : Hdr) (p : RingP), UidInv s → starts s h (.cringSetup p) = true →
    ∃ t hl, exec (.cringSetup h p) s = .next t ∧ Completed hl t h (.cringSetup p) stDone [0, 0, 0, 0] ∧ t = { s with host := t.host } ∧
      hl = { s.host with crings := hl.crings } ∧
      smapGet {} t.host.crings p.ring = (let keep : CRing :=
          { dbErr := (smapGet ({} : CRing) s.host.crings p.ring).dbErr,
            ringErr := (smapGet ({} : CRing) s.host.crings p.ring).ringErr }
        if p.log = 0 then keep else { keep with base := p.base, log := p.log, vec := p.vec, phase := true, enabled := true }) ∧
      (∀ c, c ≠ p.ring → smapGet {} t.host.crings c = smapGet ({} : CRing) s.host.crings c)) ∧
  (∀ (s : State) (h : Hdr) (p : RingP), UidInv s → starts s h (.eringSetup p) = true →
    ∃ t hl, exec (.eringSetup h p) s = .next t ∧ Completed hl t h (.eringSetup p) stDone [0, 0, 0, 0] ∧ t = { s with host := t.host } ∧
      hl = { s.host with erings := hl.erings } ∧
      (let e := smapGet ({} : ERing) t.host.erings p.ring
       e.enabled = (p.log != 0) ∧ e.idx = 0 ∧ e.used = 0 ∧ e.phase = true ∧ e.dropped = 0 ∧ e.ringErr = false ∧ e.stopped = false ∧
       (p.log ≠ 0 → e.base = p.base ∧ e.log = p.log ∧ e.vec = p.vec)) ∧
      (∀ c, c ≠ p.ring → smapGet {} t.host.erings c = smapGet ({} : ERing) s.host.erings c)) ∧
  (∀ (s : State) (h : Hdr) (q view : Nat), UidInv s → starts s h (.queueBind q view) = true →
    ∃ t hl, exec (.queueBind h q view) s = .next t ∧ Completed hl t h (.queueBind q view) stDone [0, 0, 0, 0] ∧ t = { s with host := t.host } ∧
      hl = { s.host with queues := hl.queues } ∧ t.cmdQueue q = { s.cmdQueue q with view := view } ∧
      (∀ x, x ≠ q → t.cmdQueue x = s.cmdQueue x))

/-- PART_CREATE makes a FREE slot ACTIVE with its rectangle; PROFILE sets a partition's profile. PART_CREATE that starts
completes DONE; slot PID was FREE and becomes ACTIVE with the rectangle, TRAIN, PROFILE and ports of the command,
every field of the rectangle belonged to no partition and belongs to PID afterwards, every other slot is unchanged,
and nothing but the partition table, the completion entry, the states of the lantern ports and what goes out to their
optics changes. PROFILE that starts completes DONE: in a training partition the profile in force stays and the new one
waits for the next STEP_BEGIN, in any other it is in force at once, and during a shutter of the partition nothing
changes; no other slot and nothing else changes. -/
def Obligations.PartitionCreateAndProfile : Prop :=
  (∀ (s : State) (h : Hdr) (p : PartP), UidInv s → starts s h (.partCreate p) = true →
    ∃ t, exec (.partCreate h p) s = .next t ∧ Completed s.host t h (.partCreate p) stDone [0, 0, 0, 0] ∧
      (s.part p.pid).state = 0 ∧
      t.part p.pid = { fx0 := p.fx0, fy0 := p.fy0, w := p.w, h := p.h, state := 1, profile := p.profile, train := p.train == 1,
                       fports := p.fports, lports := p.lports } ∧
      (∀ q, q ≠ p.pid → t.part q = s.part q) ∧
      (∀ f, f < 64 → p.fx0 ≤ f % 8 → f % 8 < p.fx0 + p.w → p.fy0 ≤ f / 8 → f / 8 < p.fy0 + p.h →
        s.partOf f = none ∧ (t.part p.pid).holds f = true) ∧
      t = { s with host := t.host, parts := t.parts, lnt := t.lnt, outbox := t.outbox } ∧
      (∀ q, { t.lport q with state := (s.lport q).state, linked := (s.lport q).linked } = s.lport q)) ∧
  (∀ (s : State) (h : Hdr) (pid prof : Nat), UidInv s → starts s h (.profile pid prof) = true →
    ∃ t, exec (.profile h pid prof) s = .next t ∧ Completed s.host t h (.profile pid prof) stDone [0, 0, 0, 0] ∧
      t = { s with host := t.host, parts := t.parts } ∧ (∀ q, q ≠ pid → t.part q = s.part q) ∧
      t.part pid = (if (s.part pid).state = 3 then s.part pid
        else if (s.part pid).train then { s.part pid with pendProfile := some prof } else { s.part pid with profile := prof }))

/-- REGULATOR, REGULATOR_SYS and ERR_CLEAR change the buckets and counters they name in every named stack. Each command
that starts completes DONE and changes nothing but the completion entry and the named registers of the named fields:
REGULATOR sets RATE, BURST and BORROW of its class in every field of the partition; REGULATOR_SYS sets those of SYSTEM
and OPCEIL in every field of FMASK; ERR_CLEAR zeroes CE and UE of the named channels in the named fields and leaves
their sticky bits and CHN_UE_ADDR. The five RATE values of a stack that REGULATOR changes do not sum above 1000
afterwards. -/
def Obligations.MemorySettings : Prop :=
  (∀ (s : State) (h : Hdr) (p : RegulatorP), UidInv s → starts s h (.regulator p) = true →
    ∃ t, exec (.regulator h p) s = .next t ∧ Completed s.host t h (.regulator p) stDone [0, 0, 0, 0] ∧
      t = { s with host := t.host, fields := t.fields } ∧
      (∀ f, t.fld f = if f ∈ s.partFields h.part then
        { s.fld f with stack := { (s.fld f).stack with
            rates := (s.fld f).stack.rates.set p.cls { rate := p.rate, burst := p.burst, borrow := p.borrow == 1 } } } else s.fld f) ∧
      (∀ f, f ∈ s.partFields h.part → (((t.fld f).stack.rates.map (fun r => r.rate)).foldl (· + ·) 0) ≤ 1000)) ∧
  (∀ (s : State) (h : Hdr) (p : RegulatorSysP), UidInv s → starts s h (.regulatorSys p) = true →
    ∃ t, exec (.regulatorSys h p) s = .next t ∧ Completed s.host t h (.regulatorSys p) stDone [0, 0, 0, 0] ∧
      t = { s with host := t.host, fields := t.fields } ∧
      (∀ f, t.fld f = if f < 64 ∧ p.fmask.testBit f = true then
        { s.fld f with stack := { (s.fld f).stack with
            rates := (s.fld f).stack.rates.set 4 { rate := p.srate, burst := p.sburst, borrow := p.sborrow == 1 }, opceil := p.opceil } } else s.fld f)) ∧
  (∀ (s : State) (h : Hdr) (fmask chmask : Nat), UidInv s → starts s h (.errClear fmask chmask) = true →
    ∃ t, exec (.errClear h fmask chmask) s = .next t ∧ Completed s.host t h (.errClear fmask chmask) stDone [0, 0, 0, 0] ∧
      t = { s with host := t.host, fields := t.fields } ∧
      (∀ f, { t.fld f with stack := { (t.fld f).stack with chans := (s.fld f).stack.chans } } = s.fld f) ∧
      (∀ f c, smapGet ({} : Channel) (t.fld f).stack.chans c =
        if f < 64 ∧ fmask.testBit f = true ∧ c < 32 ∧ chmask.testBit c = true then
          { smapGet ({} : Channel) (s.fld f).stack.chans c with ce := 0, ue := 0 } else smapGet ({} : Channel) (s.fld f).stack.chans c))

/-- ACT_REG registers an entry, ACT_REMOVE marks one for the next STEP_BEGIN, FOOTPRINT counts them. Each command that
starts completes DONE. ACT_REG with BYTES not 0 registers the entry under its AID, which was free, and leaves every
other entry; with BYTES 0 it registers nothing. ACT_REMOVE marks exactly its entry. FOOTPRINT changes nothing but the
completion entry, which holds the largest KEEP footprint of a field in two words, the number of entries, and the
number of OFFLOAD entries of the partition. Nothing else changes. The STEP_BEGIN at which a marked entry goes is
stated with STEP_BEGIN_DELIVERY. -/
def Obligations.ActivationEntryCommands : Prop :=
  (∀ (s : State) (h : Hdr) (p : ActP), UidInv s → starts s h (.actReg p) = true →
    ∃ t, exec (.actReg h p) s = .next t ∧ Completed s.host t h (.actReg p) stDone [0, 0, 0, 0] ∧
      t = { s with host := t.host, acts := t.acts } ∧ smapFind s.acts (actKey h.part p.aid) = none ∧
      (∀ k, smapFind t.acts k = if k = actKey h.part p.aid ∧ p.bytes ≠ 0 then some { p := p } else smapFind s.acts k)) ∧
  (∀ (s : State) (h : Hdr) (aid : Nat), UidInv s → starts s h (.actRemove aid) = true →
    ∃ t, exec (.actRemove h aid) s = .next t ∧ Completed s.host t h (.actRemove aid) stDone [0, 0, 0, 0] ∧
      t = { s with host := t.host, acts := t.acts } ∧
      (∀ k, smapFind t.acts k = if k = actKey h.part aid then (smapFind s.acts k).map (fun e => { e with removing := true })
        else smapFind s.acts k)) ∧
  (∀ (s : State) (h : Hdr), UidInv s → starts s h .footprint = true →
    ∃ t top, exec (.footprint h) s = .next t ∧
      Completed s.host t h .footprint stDone [top % 2 ^ 32, top / 2 ^ 32 % 2 ^ 32, (s.actsOf h.part).length,
        ((s.actsOf h.part).filter (fun e => e.p.policy == 1)).length] ∧ t = { s with host := t.host } ∧
      (∀ f, f < 64 → (((s.actsOf h.part).filter (fun e => e.p.policy == 0 && e.p.fmask.testBit f)).map (fun e => e.p.bytes)).sum ≤ top) ∧
      (top = 0 ∨ ∃ f, f < 64 ∧ (((s.actsOf h.part).filter (fun e => e.p.policy == 0 && e.p.fmask.testBit f)).map (fun e => e.p.bytes)).sum = top))

/-- HEIR_WINDOW opens and closes windows; BULK_MOVE moves its bytes inside the module or asks for them. Each command that
starts completes DONE unless stated: HEIR_WINDOW with OPEN 1 and BYTES not 0 opens window W, which was closed, with
its source module and range; with BYTES 0 it changes nothing; with OPEN 0 it closes window W. No other window changes.
BULK_MOVE with BYTES 0 completes DONE and moves nothing. A move inside the module between bytes of no LOST channel
completes DONE with every byte of the destination range equal to the source byte before the move and every other byte
unchanged. One from the host tier asks for exactly its bytes and runs on. One to the host tier from this module sends
exactly the bytes read, which land with the acknowledgement (HOST_TIER_ACK), and runs on. One that crosses modules
without a free context completes NO_CONTEXT and moves nothing. -/
def Obligations.HeirWindowsAndLocalMoves : Prop :=
  (∀ (s : State) (h : Hdr) (p : HeirP), UidInv s → starts s h (.heirWindow 1 p) = true →
    ∃ t, exec (.heirWindowOpen h p) s = .next t ∧ Completed s.host t h (.heirWindow 1 p) stDone [0, 0, 0, 0] ∧
      t = { s with host := t.host, heirs := t.heirs } ∧ smapFind s.heirs p.w = none ∧
      (∀ w, smapFind t.heirs w = if w = p.w ∧ p.bytes ≠ 0 then some { srcmod := p.srcmod, base := p.base, bytes := p.bytes } else smapFind s.heirs w)) ∧
  (∀ (s : State) (h : Hdr) (p : HeirP), UidInv s → starts s h (.heirWindow 0 p) = true →
    ∃ t, exec (.heirWindowClose h p) s = .next t ∧ Completed s.host t h (.heirWindow 0 p) stDone [0, 0, 0, 0] ∧
      t = { s with host := t.host, heirs := t.heirs } ∧ (∀ w, smapFind t.heirs w = if w = p.w then none else smapFind s.heirs w)) ∧
  (∀ (s : State) (h : Hdr) (p : BulkP), UidInv s → starts s h (.bulkMove p) = true →
    (p.bytes = 0 → ∃ t, exec (.bulkMove h p) s = .next t ∧ Completed s.host t h (.bulkMove p) stDone [0, 0, 0, 0] ∧
      t = { s with host := t.host }) ∧
    (MemInv s → 0 < p.bytes → p.sk = 0 → p.dk = 0 → s.ownAddr p.src = true → s.ownAddr p.dst = true → s.contextsUsed ≤ 16384 →
      (∀ i, i < p.bytes → s.lostAt (islandAddr p.src + i) = false ∧ s.lostAt (islandAddr p.dst + i) = false) →
      ∃ t, exec (.bulkMove h p) s = .next t ∧ Completed s.host t h (.bulkMove p) stDone [0, 0, 0, 0] ∧
        t = { s with host := t.host, mem := t.mem } ∧
        (∀ a, memRead t.mem a = if islandAddr p.dst ≤ a ∧ a < islandAddr p.dst + p.bytes then
          memRead s.mem (islandAddr p.src + (a - islandAddr p.dst)) else memRead s.mem a)) ∧
    (0 < p.bytes → p.sk = 1 → p.dk = 0 → s.ownAddr p.dst = true → s.contextsUsed ≤ 16384 →
      ∃ t, exec (.bulkMove h p) s = .next t ∧ Running s.host t h (.bulkMove p) ∧
        t = { s with host := t.host, outbox := s.outbox ++ [.hostRead p.src p.bytes] }) ∧
    (0 < p.bytes → p.sk = 0 → p.dk = 1 → s.ownAddr p.src = true → s.contextsUsed ≤ 16384 →
      ∃ t, exec (.bulkMove h p) s = .next t ∧ Running s.host t h (.bulkMove p) ∧
        t = { s with host := t.host, outbox := s.outbox ++ [.hostWrite p.dst (s.peekBytes (islandAddr p.src) p.bytes)] } ∧
        (∀ c ∈ t.host.cmds, c.uid = s.host.nextUid → c.writes = [(p.dst, s.peekBytes (islandAddr p.src) p.bytes)])) ∧
    (0 < p.bytes → s.contextsFree < s.bulkContexts p →
      ∃ t, exec (.bulkMove h p) s = .next t ∧ Completed s.host t h (.bulkMove p) stContext [0, 0, 0, 0] ∧ t = { s with host := t.host }))

/-- TILE_PROGRAM queues every descriptor of its streams in order, or none when one fails. For a TILE_PROGRAM that starts:
if some descriptor of its streams fails its check, the command completes with the status of the first failing one in
stream order, its entry and tile as result words, its word and index in the detail, and nothing else changes: no queue
receives a descriptor. If none fails, the command has one entry whose fields and slots are all served, no transom
item, and no step is being recovered, then every tile that the entry names has the entry's descriptors appended to the
named queue in ascending index, no other queue and no other tile receives one, and module memory is unchanged. A
program with no entries and no transom items completes DONE when no tile holds a descriptor of its number, and changes
nothing else but, in a partition that does not train, the step counts that it folds into the 64-bit counts. While a
step of the training partition is being recovered the streams wait: the command runs on and nothing else changes. -/
def Obligations.TileProgramQueuesItsStreams : Prop :=
  (∀ (s : State) (h : Hdr) (p : TileProgramP) (c : Check) (e ti i : Nat), UidInv s → starts s h (.tileProgram p) = true →
    s.programFail p = some (c, e, ti, i) →
    ∃ t, exec (.tileProgram h p) s = .next t ∧ Completed s.host t h (.tileProgram p) c.status [e, ti, 0, 0] ∧ t = { s with host := t.host } ∧
      (∀ c', t.host.cmds.getLast? = some c' → c'.detail = detailOf (0x8000 + c.off) i)) ∧
  (∀ (s : State) (h : Hdr) (e : StreamE), UidInv s → starts s h (.tileProgram ⟨[e], []⟩) = true →
    s.programFail ⟨[e], []⟩ = none → s.unserved ⟨[e], []⟩ = false → (s.bcn.recovering = false ∨ h.eval = true) →
    ∃ t, exec (.tileProgram h ⟨[e], []⟩) s = .next t ∧ t.mem = s.mem ∧ t.hostMem = s.hostMem ∧ t.parts = s.parts ∧
      (∀ n q, ((t.tile n).queue q).started = ((s.tile n).queue q).started ∧ ((t.tile n).queue q).ring = ((s.tile n).queue q).ring) ∧
      (∀ n q, (n / 16, n % 16) ∈ s.entryTiles e → q = e.queue →
        ((t.tile n).queue q).source = ((s.tile n).queue q).source ++ s.streamEntries s.host.nextUid h.eval 0 (n / 16) (n % 16) e) ∧
      (∀ n q, ((n / 16, n % 16) ∉ s.entryTiles e ∨ q ≠ e.queue) → ((t.tile n).queue q).source = ((s.tile n).queue q).source) ∧
      (0 < e.ndesc → s.entryTiles e ≠ [] → Running s.host t h (.tileProgram ⟨[e], []⟩))) ∧
  (∀ (s : State) (h : Hdr), UidInv s → starts s h (.tileProgram ⟨[], []⟩) = true → s.programLeft s.host.nextUid = false →
    (s.bcn.recovering = false ∨ h.eval = true ∨ (s.part h.part).train = false) →
    ∃ t, exec (.tileProgram h ⟨[], []⟩) s = .next t ∧ Completed s.host t h (.tileProgram ⟨[], []⟩) stDone [0, 0, 0, 0] ∧
      ((s.part h.part).train = true → t = { s with host := t.host }) ∧
      t = { s with host := t.host, fields := t.fields, tiles := t.tiles } ∧ (∀ n, { t.tile n with meter := (s.tile n).meter } = s.tile n) ∧
      (∀ f, { t.fld f with counts := (s.fld f).counts, meter := (s.fld f).meter } = s.fld f)) ∧
  (∀ (s : State) (h : Hdr) (p : TileProgramP), UidInv s → starts s h (.tileProgram p) = true → s.programFail p = none → s.acquireFail p = none →
    s.bcn.recovering = true → h.eval = false → (s.part h.part).train = true →
    ∃ t, exec (.tileProgram h p) s = .next t ∧ Running s.host t h (.tileProgram p) ∧ t = { s with host := t.host })

/-- A queue refills to 64, starts its next descriptor in order, and retires the oldest one that has acted, signalling
once. At a tile that a physical tile serves: QUEUE_REFILL moves descriptors from the stream to the ring in order until
the ring holds 64 or the stream is empty. DESCRIPTOR_START, when no hold of the sequencer applies, moves the ring's
first descriptor behind the started ones with the queue's next sequence number, which then rises by 1, and with the
tile's next place in the start order. DESCRIPTOR_RETIRE, when the oldest started descriptor has acted and is not the
last of its command, removes exactly it, and with SIG_EN adds 1 to its semaphore, or sets SEM_OVF and leaves the
semaphore at 65535. A unit row whose turn has not come at its unit changes nothing, stated of STAGE, SWAP, PASS,
DRAIN, LOAD and LANE ADD. No other queue and no other tile changes, memory and host link stay. A descriptor that may
not start, or has not acted, stays, and a tile id that no tile serves changes nothing. -/
def Obligations.SequencerRows : Prop :=
  (∀ (s : State) (u : Issuer), s.served u.tile.val = true →
    ∃ t, exec (.queueRefill u) s = .next t ∧
      (let a := (tileOf s u).queue u.queue.val
       let b := (tileOf t u).queue u.queue.val
       b.ring.map (fun e => (e.uid, e.cmd, e.desc)) ++ b.source.map (fun e => (e.uid, e.cmd, e.desc)) =
         a.ring.map (fun e => (e.uid, e.cmd, e.desc)) ++ a.source.map (fun e => (e.uid, e.cmd, e.desc)) ∧
       b.ring.length = max a.ring.length (min 64 (a.ring.length + a.source.length)) ∧ b.started = a.started ∧ b.nextSeq = a.nextSeq) ∧
      (∀ q, q ≠ u.queue.val → (tileOf t u).queue q = (tileOf s u).queue q) ∧ (∀ n, n ≠ u.tile.val → t.tile n = s.tile n) ∧
      t = { s with tiles := t.tiles }) ∧
  (∀ (s : State) (u : Issuer) (e : QEntry) (rest : List QEntry), s.served u.tile.val = true →
    ((tileOf s u).queue u.queue.val).ring = e :: rest → s.mayStart u.tile.val u.queue.val e = true →
    ∃ t, exec (.descriptorStart u) s = .next t ∧
      (let a := (tileOf s u).queue u.queue.val
       let b := (tileOf t u).queue u.queue.val
       b.started = a.started ++ [{ e with dseq := a.nextSeq, fmts := s.slotFmts (u.tile.val / 16), startNo := (tileOf s u).starts }] ∧ b.nextSeq = a.nextSeq + 1 ∧
       b.ring.map (fun x => (x.uid, x.desc)) = rest.map (fun x => (x.uid, x.desc)) ∧ b.source = a.source) ∧ (tileOf t u).starts = (tileOf s u).starts + 1 ∧
      (∀ q, q ≠ u.queue.val → (tileOf t u).queue q = (tileOf s u).queue q) ∧ (∀ n, n ≠ u.tile.val → t.tile n = s.tile n) ∧
      t = { s with tiles := t.tiles }) ∧
  (∀ (s : State) (u : Issuer) (e : QEntry) (rest : List QEntry), s.served u.tile.val = true →
    ((tileOf s u).queue u.queue.val).started = e :: rest → e.acted = true → rest.any (fun x => x.cmd == e.cmd) = true →
    smapGet 0 (tileOf s u).sems e.desc.hdr.sigSem ≤ 65535 →
    ∃ t, exec (.descriptorRetire u) s = .next t ∧
      (tileOf t u).queue u.queue.val = { (tileOf s u).queue u.queue.val with started := rest } ∧
      (∀ q, q ≠ u.queue.val → (tileOf t u).queue q = (tileOf s u).queue q) ∧ (∀ n, n ≠ u.tile.val → t.tile n = s.tile n) ∧
      (∀ i, smapGet 0 (tileOf t u).sems i = if e.desc.hdr.sigEn = true ∧ i = e.desc.hdr.sigSem then min 65535 (smapGet 0 (tileOf s u).sems i + 1)
        else smapGet 0 (tileOf s u).sems i) ∧
      ((tileOf t u).semOvf = ((tileOf s u).semOvf || (e.desc.hdr.sigEn && smapGet 0 (tileOf s u).sems e.desc.hdr.sigSem == 65535))) ∧
      t = { s with tiles := t.tiles }) ∧
  (∀ (s : State) (u : Issuer), s.served u.tile.val = false →
    exec (.queueRefill u) s = .next s ∧ exec (.descriptorStart u) s = .next s ∧ exec (.descriptorRetire u) s = .next s) ∧
  (∀ (s : State) (u : Issuer) (e : QEntry) (rest : List QEntry), ((tileOf s u).queue u.queue.val).started = e :: rest → e.acted = false →
    exec (.descriptorRetire u) s = .next s) ∧
  (∀ (s : State) (u : Issuer) (h : DHdr) (k : DKind), s.unitTurn u { hdr := h, kind := k } = false →
    (∀ d, k = .stage d → exec (.stage u h d) s = .next s) ∧ (∀ n, k = .swap n → exec (.swap u h n) s = .next s) ∧
    (∀ d, k = .pass d → d.arrays ≠ 3 → exec (.pass u h d) s = .next s) ∧ (∀ d, k = .drain d → exec (.drain u h d) s = .next s) ∧
    (∀ d errs, k = .load d → exec (.load u h d errs) s = .next s) ∧ (∀ d, k = .lane 1 d → exec (.laneAdd u h d) s = .next s))

/-- LOAD and STORE move ROWS rows of BYTES bytes between the stack and the tile store and touch nothing else. For a LOAD
or STORE that its unit acts on, with no error met, no LOST channel and rows of the destination that do not overlap:
the command answers a next state in which byte k of row i of the destination (tile-store offset TBASE + i x TSTRIDE,
or stack address ADDR + i x SSTRIDE) holds the source's byte k of row i as it was before, every byte outside the
destination rows reads as before, the descriptor has acted, and nothing changes but that memory and the tile's queue
entry. -/
def Obligations.TransferEngineMovesRows : Prop :=
  (∀ (s : State) (u : Issuer) (h : DHdr) (d : MoveD), MemInv s → unitReady s u (.load d) h = true → (d.bytes ≤ d.tstride ∨ d.rows ≤ 1) →
    (∀ i k, i < d.rows → k < d.bytes → s.lostAt (d.addr + i * d.sstride + k) = false) →
    ∃ t, exec (.load u h d []) s = .next t ∧
      (∀ i k, i < d.rows → k < d.bytes →
        memRead t.mem (tileAddr u.tile.val (d.tbase + i * d.tstride + k)) = memRead s.mem (d.addr + i * d.sstride + k)) ∧
      OutsideRows s.mem t.mem (tileAddr u.tile.val d.tbase) d.tstride d.rows d.bytes ∧
      ActedOnce s t u (.load d) h ∧ tileOf t u = { tileOf s u with queues := (tileOf t u).queues } ∧ t = { s with mem := t.mem, tiles := t.tiles }) ∧
  (∀ (s : State) (u : Issuer) (h : DHdr) (d : MoveD), MemInv s → unitReady s u (.store d) h = true → (d.bytes ≤ d.sstride ∨ d.rows ≤ 1) →
    (∀ i k, i < d.rows → k < d.bytes → s.lostAt (d.addr + i * d.sstride + k) = false) →
    ∃ t, exec (.store u h d) s = .next t ∧
      (∀ i k, i < d.rows → k < d.bytes →
        memRead t.mem (d.addr + i * d.sstride + k) = memRead s.mem (tileAddr u.tile.val (d.tbase + i * d.tstride + k))) ∧
      OutsideRows s.mem t.mem d.addr d.sstride d.rows d.bytes ∧
      ActedOnce s t u (.store d) h ∧ tileOf t u = { tileOf s u with queues := (tileOf t u).queues } ∧ t = { s with mem := t.mem, tiles := t.tiles })

/-- STAGE loads the named shadow blocks, SWAP exchanges stationary and shadow, and neither touches anything else of the
tile. STAGE that its unit acts on, of a full block in a plain format without scales, makes the shadow block of each
named array hold the 16384 codes that stand row-major at SBASE under the format's tag, and leaves the other array and
both stationary blocks. SWAP exchanges the stationary block and the shadow block of each named array. Each answers a
next state in which memory, accumulators, side memory, semaphores and numeric status of the tile are unchanged, other
tiles are unchanged, and the descriptor has acted. STAGE of every other form answers a next state with the same frame. -/
def Obligations.StageAndSwap : Prop :=
  (∀ (s : State) (u : Issuer) (h : DHdr) (d : StageD), unitReady s u (.stage d) h = true →
    ∃ t, exec (.stage u h d) s = .next t ∧ ActedOnce s t u (.stage d) h ∧ t = { s with tiles := t.tiles } ∧
      tileOf t u = { tileOf s u with queues := (tileOf t u).queues, arrA := (tileOf t u).arrA, arrB := (tileOf t u).arrB } ∧
      (tileOf t u).arrA.stat = (tileOf s u).arrA.stat ∧ (tileOf t u).arrB.stat = (tileOf s u).arrB.stat ∧
      (d.arrays = 1 → (tileOf t u).arrB = (tileOf s u).arrB) ∧ (d.arrays = 2 → (tileOf t u).arrA = (tileOf s u).arrA) ∧
      (d.diag = false → d.sscale = false → d.fmt < 6 → ∀ b : Bool, (if b then d.arrays = 2 ∨ d.arrays = 3 else d.arrays = 1 ∨ d.arrays = 3) →
        ((tileOf t u).arr b).shadow.tag = some ⟨d.fmt, false, none⟩ ∧
        ∀ i, i < 16384 → ((tileOf t u).arr b).shadow.codes.getD i 0 =
          memReadNat s.mem (tileAddr u.tile.val d.sbase + i * (fmtBits d.fmt / 8)) (fmtBits d.fmt / 8))) ∧
  (∀ (s : State) (u : Issuer) (h : DHdr) (n : Nat), unitReady s u (.swap n) h = true →
    ∃ t, exec (.swap u h n) s = .next t ∧ ActedOnce s t u (.swap n) h ∧ t = { s with tiles := t.tiles } ∧
      tileOf t u = { tileOf s u with queues := (tileOf t u).queues, arrA := (tileOf t u).arrA, arrB := (tileOf t u).arrB } ∧
      (tileOf t u).arrA = (if n = 1 ∨ n = 3 then ⟨(tileOf s u).arrA.shadow, (tileOf s u).arrA.stat⟩ else (tileOf s u).arrA) ∧
      (tileOf t u).arrB = (if n = 2 ∨ n = 3 then ⟨(tileOf s u).arrB.shadow, (tileOf s u).arrB.stat⟩ else (tileOf s u).arrB))

/-- PASS and PAIRED_PASS change only their M accumulator rows; a pass that does not accumulate stores the rounded tree
results. A PASS on one array that its unit acts on answers a next state in which memory, both arrays' blocks, side
memory and semaphores are unchanged, no field changes but in the list of tile captures on their way to its locator,
every accumulator row but the M rows from S0 x 128 + Q0 of its array and orientation is unchanged, and each of those
rows has an arrival count of 1 without ACC, or one more with ACC up to 2^24 + 1. With M = 0 no accumulator and no
status bit changes. For ACC 0, SUM, no scales, a stationary block of the expected format and a finite nonzero-tagged
result, word j of row m is the tree result of moving vector m against stationary line j, rounded to F32 and flushed. A
PAIRED_PASS leaves every accumulator row as a PASS of side A in the row orientation followed by a PASS of side B in
the column orientation does, with the same frame. -/
def Obligations.PassAccumulates : Prop :=
  (∀ (s : State) (u : Issuer) (h : DHdr) (d : PassD), unitReady s u (.pass d) h = true → d.arrays ≠ 3 →
    ∃ t, exec (.pass u h d) s = .next t ∧ ActedOnce s t u (.pass d) h ∧ t = { s with tiles := t.tiles, fields := t.fields } ∧ CapsOnly s t ∧
      tileOf t u = { tileOf s u with queues := (tileOf t u).queues, accs := (tileOf t u).accs, meter := (tileOf t u).meter } ∧
      (d.m = 0 → (tileOf t u).accs = (tileOf s u).accs ∧ (tileOf t u).meter = (tileOf s u).meter) ∧
      (let sd := if d.arrays = 2 then d.b else d.a
       let key := fun m => accKey (d.arrays == 2) d.orient (sd.s0 * 128 + sd.q0 + m)
       (∀ k, (∀ m, m < d.m → k ≠ key m) → (tileOf t u).acc k = (tileOf s u).acc k) ∧
       (∀ m, m < d.m → ((tileOf t u).acc (key m)).count =
         if sd.acc then min (((tileOf s u).acc (key m)).count + 1) (2 ^ 24 + 1) else 1) ∧
       (∀ m j, m < d.m → j < 128 → sd.acc = false → sd.amode = 0 → sd.msc = false → sd.ssc = false → sd.mfmt < 8 → sd.sfmt < 8 →
         (let blk := ((tileOf s u).arr (d.arrays == 2)).stat
          let v := (treeResult (wideFmt sd.mfmt || wideFmt sd.sfmt) (intFmt sd.mfmt && intFmt sd.sfmt) (blk.line d.orient j)
            (movingVec s.mem sd.mfmt (tileAddr u.tile.val sd.mbase) sd.mstride m).1).val
          blk.tag = some ⟨sd.sfmt, false, none⟩ → f32IsFin (roundF32 v) = true → v.isFin = true →
          ((tileOf t u).acc (key m)).main.getD j 0 = flushF32 (roundF32 v))))) ∧
  (∀ (s : State) (u : Issuer) (h : DHdr) (d : PassD), unitReady s u (.pass d) h = true → d.arrays = 3 →
    ∃ t, exec (.pairedPass u h d) s = .next t ∧ ActedOnce s t u (.pass d) h ∧ t = { s with tiles := t.tiles, fields := t.fields } ∧ CapsOnly s t ∧
      tileOf t u = { tileOf s u with queues := (tileOf t u).queues, accs := (tileOf t u).accs, meter := (tileOf t u).meter } ∧
      (let cx := s.descCtx u { hdr := h, kind := .pass d }
       ∀ k, (tileOf t u).acc k = (passEffect cx s.mem { d with arrays := 2, orient := false }
         (passEffect cx s.mem { d with arrays := 1, orient := true } (tileOf s u))).acc k))

/-- DRAIN writes its rows, clears them when asked, and leaves every other row and byte. A DRAIN that its unit acts on
answers a next state in which both arrays' blocks, side memory and semaphores are unchanged, no field changes but in
the list of tile captures on their way to its locator, every accumulator row that it does not read is unchanged, each
row it reads is empty afterwards with CLEAR and unchanged without, other tiles are unchanged and the descriptor has
acted. With NROWS 0 memory and status stay. For an F32 output without activation, slope, statistics, row scale or
histogram, with rows that do not overlap, word c of output row q is the F32 conversion of word c of accumulator row q
as it is read, and every byte outside the output rows reads as before. -/
def Obligations.DrainWritesItsRows : Prop :=
  ∀ (s : State) (u : Issuer) (h : DHdr) (d : DrainD), MemInv s → unitReady s u (.drain d) h = true →
    ∃ t, exec (.drain u h d) s = .next t ∧ ActedOnce s t u (.drain d) h ∧ t = { s with mem := t.mem, tiles := t.tiles, fields := t.fields } ∧ CapsOnly s t ∧
      (let a := tileOf s u
       let b := tileOf t u
       b = { a with queues := b.queues, accs := b.accs, meter := b.meter, hist := b.hist, lanes := b.lanes } ∧
       (d.src.nrows = 0 → t.mem = s.mem ∧ b.accs = a.accs ∧ b.meter = a.meter) ∧
       (∀ k, (∀ q, q < d.src.nrows → k ≠ rowsKey d.src q) ∨ d.src.clear = false → b.acc k = a.acc k) ∧
       (d.src.clear = true → ∀ q, q < d.src.nrows → b.acc (rowsKey d.src q) = {}) ∧
       (d.hist = false → b.hist = a.hist) ∧
       (d.ofmt = 0 → d.act = 0 → d.slope = false → d.smx = false → d.oscale = false → (512 ≤ d.ostride ∨ d.src.nrows ≤ 1) →
         (∀ q c, q < d.src.nrows → c < 128 → memReadNat t.mem (tileAddr u.tile.val (d.obase + q * d.ostride + 4 * c)) 4 =
           (convertElem 0 d.ovf none (f32Val (readWord (s.exactFor u { hdr := h, kind := .drain d }) d.msel (a.acc (rowsKey d.src q)) c).1)).1 % 2 ^ 32) ∧
         OutsideRows s.mem t.mem (tileAddr u.tile.val d.obase) d.ostride d.src.nrows 512))

/-- The nine ROW operations change only their records, their output rows and the record area. For each ROW operation that
its unit acts on: the command answers a next state in which accumulators, both arrays' blocks, semaphores, histograms
and lanes of the tile are unchanged, other tiles are unchanged and the descriptor has acted. Records outside the R
from Q0 are unchanged; the operations that write no output (SMX_DOT, NORM_STATS, NORM_DOT, REC_LOAD) leave memory as
it was; REC_SAVE leaves every record and, where R, B and N are not zero, writes word j of record Q0 + i at XBASE + 16
i + 4 j, and no byte outside the R records; REC_LOAD, where they are not zero, gives record Q0 + i the tag RTAG and
the four words at XBASE + 16 i. With R, B or N zero no operation changes memory, records or status. A record whose tag
the operation does not allow, in an operation that writes no output, is only poisoned: its changed words are NaN and
its tag stays. -/
def Obligations.RowEngineOperations : Prop :=
  (∀ (s : State) (u : Issuer) (h : DHdr) (op : Nat) (d : RowD), op ≤ 8 → unitReady s u (.row op d) h = true →
    ∃ t, exec (match op with
        | 0 => .smxFwd u h d | 1 => .smxDot u h d | 2 => .smxBwd u h d | 3 => .normStats u h d | 4 => .normFwd u h d
        | 5 => .normDot u h d | 6 => .normBwd u h d | 7 => .recSave u h d | _ => .recLoad u h d) s = .next t ∧
      ActedOnce s t u (.row op d) h ∧
      t = { s with mem := t.mem, tiles := t.tiles, fields := t.fields, host := t.host, hostMem := t.hostMem, outbox := t.outbox } ∧
      (let a := tileOf s u
       let b := tileOf t u
       b = { a with queues := b.queues, side := b.side, meter := b.meter } ∧
       (∀ k, k < d.q0 ∨ d.q0 + d.r ≤ k → b.record k = a.record k) ∧
       ((op = 1 ∨ op = 3 ∨ op = 5 ∨ op = 8) → t.mem = s.mem) ∧
       ((d.r = 0 ∨ d.b = 0 ∨ d.n = 0) → t.mem = s.mem ∧ b.side = a.side ∧ b.meter = a.meter) ∧
       (op = 7 → MemInv s → b.side = a.side ∧ b.meter = a.meter ∧
         (∀ i, i < d.r → d.b ≠ 0 → d.n ≠ 0 → memReadF32 t.mem (tileAddr u.tile.val (d.xbase + 16 * i)) = (a.record (d.q0 + i)).s0 ∧
           memReadF32 t.mem (tileAddr u.tile.val (d.xbase + 16 * i + 4)) = (a.record (d.q0 + i)).s1 ∧
           memReadF32 t.mem (tileAddr u.tile.val (d.xbase + 16 * i + 8)) = (a.record (d.q0 + i)).s2 ∧
           memReadF32 t.mem (tileAddr u.tile.val (d.xbase + 16 * i + 12)) = (a.record (d.q0 + i)).s3) ∧
         OutsideRows s.mem t.mem (tileAddr u.tile.val d.xbase) 16 d.r 16) ∧
       (op = 8 → d.b ≠ 0 → d.n ≠ 0 → ∀ i, i < d.r → b.record (d.q0 + i) =
         { tag := recTagOf d.rtag, s0 := memReadF32 s.mem (tileAddr u.tile.val (d.xbase + 16 * i)),
           s1 := memReadF32 s.mem (tileAddr u.tile.val (d.xbase + 16 * i + 4)), s2 := memReadF32 s.mem (tileAddr u.tile.val (d.xbase + 16 * i + 8)),
           s3 := memReadF32 s.mem (tileAddr u.tile.val (d.xbase + 16 * i + 12)) }) ∧
       ((op = 1 ∨ op = 3 ∨ op = 5) → 0 < d.r → 0 < d.b → 0 < d.n → ∀ i, i < d.r →
         tagAllowed op d.first d.rms (a.record (d.q0 + i)).tag = false →
         (b.record (d.q0 + i)).tag = (a.record (d.q0 + i)).tag ∧
         (op = 1 → (b.record (d.q0 + i)).s2 = nanF32) ∧
         (op = 3 → (b.record (d.q0 + i)).s1 = nanF32 ∧ (b.record (d.q0 + i)).s2 = nanF32) ∧
         (op = 5 → (b.record (d.q0 + i)).s3 = nanF32))))

/-- The softmax and normalisation operations write the results their rules give on one F32 block. For one row and one F32
block of N elements, N from 1 to 128, first input not rebuilt: SMX_FWD with FIRST loads the pair (m, l) at XBASE,
flushed, into a record tagged SMX and writes exp(x - m) / l at each position below N and +0 above, or +0 throughout
when m is minus infinity. SMX_BWD against a record tagged SMX writes p (dp - s2). NORM_FWD without FIRST against a
record tagged LN or RMS writes (x - s0) s1. NORM_BWD against a record tagged LN writes s1 ((dy - s2 / N) - xhat (s3 /
N)), each operation rounded as F32. NORM_STATS with FIRST and MODE RMS leaves a record tagged GATHER_RMS with the tree
sum of squares added to 0 and a count of N. Each word written is the F32 conversion of the result. -/
def Obligations.RowEngineResults : Prop :=
  ∀ (s : State) (u : Issuer) (h : DHdr) (op : Nat) (d : RowD), op < 7 → MemInv s → unitReady s u (.row op d) h = true →
    d.r = 1 → d.b = 1 → d.b0 = 0 → 1 ≤ d.n → d.n ≤ 128 → d.rebuild = false → d.ifmt = 0 → d.i2fmt = 0 → d.ofmt = 0 →
    ∃ t, exec (match op with
        | 0 => .smxFwd u h d | 1 => .smxDot u h d | 2 => .smxBwd u h d | 3 => .normStats u h d | 4 => .normFwd u h d
        | 5 => .normDot u h d | _ => .normBwd u h d) s = .next t ∧
      (let r := (tileOf s u).record d.q0
       let x := fun c => (readWiden 0 0 (readCode s.mem 0 (tileAddr u.tile.val d.ibase) c)).1
       let y := fun c => (readWiden 0 0 (readCode s.mem 0 (tileAddr u.tile.val d.i2base) c)).1
       let out := fun c => memReadNat t.mem (tileAddr u.tile.val (d.obase + 4 * c)) 4
       let put := fun (v : F32) => (convertElem 0 false none (f32Val v)).1 % 2 ^ 32
       let m := flushF32 (memReadF32 s.mem (tileAddr u.tile.val d.xbase))
       let l := flushF32 (memReadF32 s.mem (tileAddr u.tile.val (d.xbase + 4)))
       (op = 0 → d.first = true → (tileOf t u).record d.q0 = ⟨.smx, m, l, 0, 0⟩ ∧
         ∀ c, c < 128 → out c = if c < d.n ∧ m ≠ ninfF32 then put (fMul (expF32 (fSub (x c) m)) (fDiv oneF32 l)) else put 0) ∧
       (op = 2 → r.tag = .smx → ∀ c, c < d.n → out c = put (fMul (x c) (fSub (y c) r.s2))) ∧
       (op = 4 → d.first = false → (r.tag = .ln ∨ r.tag = .rms) → ∀ c, c < d.n → out c = put (fMul (fSub (x c) r.s0) r.s1)) ∧
       (op = 6 → r.tag = .ln → ∀ c, c < d.n → out c = put (fMul r.s1 (fSub
         (fSub (y c) (fMul r.s2 (fDivNat oneF32 d.n))) (fMul (x c) (fMul r.s3 (fDivNat oneF32 d.n)))))) ∧
       (op = 3 → d.first = true → d.rms = true → (tileOf t u).record d.q0 =
         { tag := .gatherRms, s0 := 0, s1 := fAdd 0 (treeSum ((List.range 128).map (fun c => if c < d.n then fMul (x c) (x c) else 0))),
           s2 := BitVec.ofNat 32 d.n, s3 := 0 }) ∧
       ((op = 0 ∨ op = 2 ∨ op = 4 ∨ op = 6) → OutsideRows s.mem t.mem (tileAddr u.tile.val d.obase) 0 1 512))

/-- The eleven LANE operations write their output vectors element by element and touch nothing else. For each LANE
operation that its unit acts on: the command answers a next state in which accumulators, both arrays' blocks, side
memory, semaphores and histograms are unchanged, no field changes but in the list of tile captures on their way to its
locator, other tiles are unchanged and the descriptor has acted; with V 0 memory and status stay. For one vector of
F32 operands, not broadcast, without a slope plane, element i of the output is the F32 conversion of: x for CVT, x + y
for ADD, x - y for SUB, x y for MUL, x y + z rounded once for FMA, x ALPHA for SCALE, the activation of x for ACT, the
larger and the smaller of x and y for MAX and MIN, x x + z rounded once for SUMSQ; for DACT with code 0 it is the
gradient, with code 1 the gradient or +0. Every byte outside the 512 output bytes reads as before. -/
def Obligations.LaneOperations : Prop :=
  ∀ (s : State) (u : Issuer) (h : DHdr) (op : Nat) (d : LaneD), op ≤ 10 → MemInv s → unitReady s u (.lane op d) h = true →
    ∃ t, exec (match op with
        | 0 => .laneCvt u h d | 1 => .laneAdd u h d | 2 => .laneSub u h d | 3 => .laneMul u h d | 4 => .laneFma u h d
        | 5 => .laneScale u h d | 6 => .laneAct u h d | 7 => .laneDact u h d | 8 => .laneMax u h d | 9 => .laneMin u h d
        | _ => .laneSumsq u h d) s = .next t ∧
      ActedOnce s t u (.lane op d) h ∧ t = { s with mem := t.mem, tiles := t.tiles, fields := t.fields } ∧ CapsOnly s t ∧
      (let a := tileOf s u
       let b := tileOf t u
       b = { a with queues := b.queues, meter := b.meter, lanes := b.lanes } ∧ (d.v = 0 → t.mem = s.mem ∧ b.meter = a.meter) ∧
       (d.v = 1 → d.xfmt = 0 → d.yfmt = 0 → d.zfmt = 0 → d.ofmt = 0 → d.xb = false → d.yb = false → d.zb = false → d.slope = false →
         (let x := fun c => (readWiden 0 0 (readCode s.mem 0 (tileAddr u.tile.val d.xbase) c)).1
          let y := fun c => (readWiden 0 0 (readCode s.mem 0 (tileAddr u.tile.val d.ybase) c)).1
          let z := fun c => (readWiden 0 0 (readCode s.mem 0 (tileAddr u.tile.val d.zbase) c)).1
          let out := fun c => memReadNat t.mem (tileAddr u.tile.val (d.obase + 4 * c)) 4
          let put := fun (v : F32) => (convertElem 0 d.ovf none (f32Val v)).1 % 2 ^ 32
          (∀ c, c < 128 →
            (op = 0 → out c = put (x c)) ∧ (op = 1 → out c = put (fAdd (x c) (y c))) ∧ (op = 2 → out c = put (fSub (x c) (y c))) ∧
            (op = 3 → out c = put (fMul (x c) (y c))) ∧ (op = 4 → out c = put (fFma (x c) (y c) (z c))) ∧
            (op = 5 → out c = put (fMul (x c) d.alpha)) ∧ (op = 6 → out c = put (actF32 d.act d.alpha (x c))) ∧
            (op = 7 → d.act = 0 → f32IsNan (x c) = false → f32IsNan (y c) = false → out c = put (x c)) ∧
            (op = 7 → d.act = 1 → f32IsNan (x c) = false → f32IsNan (y c) = false →
              out c = put (if ((f32Val (y c)).isNeg || (f32Val (y c)).isZero) = true then 0 else x c)) ∧
            (op = 8 → out c = put (fMax (x c) (y c))) ∧ (op = 9 → out c = put (fMin (x c) (y c))) ∧
            (op = 10 → out c = put (fFma (x c) (x c) (z c)))) ∧
          OutsideRows s.mem t.mem (tileAddr u.tile.val d.obase) 0 1 512)))

/-- PUT adds or writes accumulator rows into the reduction buffer, holds under EXACT, and GET copies bytes back. A PUT
that its unit acts on and that reaches no group's gradient area, of one row: with OP ADD outside EXACT each of the 128
words at DBASE becomes the F32 sum of its old value, a subnormal read as zero, and the row's word; with OP WRITE it
becomes the row's word and, under EXACT, awaits index 0 again. Every byte outside the 512 reads as before, the row is
empty afterwards with CLEAR and unchanged without. Under EXACT a PUT ADD of at least one row whose word awaits a lower
contributor index, and that is not one to be discarded, is held: the wait is that of EXACT, of the reduction port's
discards and of the awaited indices together, and a PUT that waits leaves memory and accumulators stay and nothing has
acted; PUT_RELEASE leaves it held while that is so, and performs it, as if it arrived then, once it is not. GET copies
LEN bytes from the field's reduction buffer to the tile store, and every other byte stays. -/
def Obligations.ReductionPortRows : Prop :=
  (∀ (s : State) (u : Issuer) (h : DHdr) (w : Bool) (d : PutD), MemInv s → unitReady s u (.put w d) h = true → d.src.nrows = 1 →
    s.putGroups (u.tile.val / 16) d = [] → (w = true ∨ s.exactFor u { hdr := h, kind := .put w d } = false) →
    ∃ t, exec (if w then .putWrite u h d else .putAdd u h d) s = .next t ∧ ActedOnce s t u (.put w d) h ∧
      (let v := fun c => (readWord (s.exactFor u { hdr := h, kind := .put w d }) d.msel ((tileOf s u).acc (rowsKey d.src 0)) c).1
       let a := fun c => redAddr (u.tile.val / 16) (d.dbase + 4 * c)
       (∀ c, c < 128 → memReadF32 t.mem (a c) = if w then v c else fAdd (flushF32 (memReadF32 s.mem (a c))) (v c)) ∧
       (∀ c, c < 128 → w = true → smapGet 0 (t.fld (u.tile.val / 16)).awaits (d.dbase / 4 + c) = 0) ∧
       OutsideRows s.mem t.mem (redAddr (u.tile.val / 16) d.dbase) 0 1 512) ∧
      (∀ k, k ≠ rowsKey d.src 0 ∨ d.src.clear = false → (tileOf t u).acc k = (tileOf s u).acc k) ∧
      (d.src.clear = true → (tileOf t u).acc (rowsKey d.src 0) = {})) ∧
  (∀ (s : State) (u : Issuer) (h : DHdr) (d : PutD), unitReady s u (.put false d) h = true →
    (∀ e, s.actEntry u { hdr := h, kind := .put false d } = some e → s.putWaits u.tile.val e = true) →
    ∃ t, exec (.putAdd u h d) s = .next t ∧ t = { s with tiles := t.tiles } ∧
      tileOf t u = { tileOf s u with queues := (tileOf t u).queues } ∧ (∀ n, n ≠ u.tile.val → t.tile n = s.tile n) ∧
      ((tileOf t u).queue u.queue.val).started =
        modFirst (fun e => !e.acted && decide (e.desc = ({ hdr := h, kind := .put false d } : Descriptor))) (fun e => { e with held := true })
          ((tileOf s u).queue u.queue.val).started) ∧
  (∀ (s : State) (u : Issuer) (h : DHdr) (d : PutD) (e : QEntry),
    ((tileOf s u).queue u.queue.val).started.find? (fun e => e.held && !e.acted) = some e → e.desc = { hdr := h, kind := .put false d } →
    s.putWaits u.tile.val e = true → exec (.putRelease u) s = .next s) ∧
  (∀ (s : State) (u : Issuer) (h : DHdr) (d : PutD) (e : QEntry), s.served u.tile.val = true →
    s.unitTurn u { hdr := h, kind := .put false d } = true →
    ((tileOf s u).queue u.queue.val).started.find? (fun e => e.held && !e.acted) = some e → e.desc = { hdr := h, kind := .put false d } →
    s.actEntry u e.desc = some e → (tileOf s u).seedGens = [] → s.putWaits u.tile.val e = false →
    exec (.putRelease u) s = exec (.putAdd u h d) s ∧ ∃ t, exec (.putRelease u) s = .next t ∧ ActedOnce s t u (.put false d) h) ∧
  (∀ (s : State) (u : Issuer) (h : DHdr) (d : GetD), MemInv s → unitReady s u (.get d) h = true →
    ∃ t, exec (.get u h d) s = .next t ∧ ActedOnce s t u (.get d) h ∧ t = { s with mem := t.mem, tiles := t.tiles } ∧
      tileOf t u = { tileOf s u with queues := (tileOf t u).queues } ∧
      (∀ a, memRead t.mem a = if tileAddr u.tile.val d.tbase ≤ a ∧ a < tileAddr u.tile.val d.tbase + d.len then
        memRead s.mem (redAddr (u.tile.val / 16) d.sbase + (a - tileAddr u.tile.val d.tbase)) else memRead s.mem a))

/-- MARK reports its mark, WAIT takes its semaphore or its point, FENCE acts when what it waits for has retired. A MARK
that its unit acts on in a field of no training partition, while no step is in progress, changes nothing but the queue
entry; in a training field it adds mark n to the marks that its tile has reported, and while no step is in progress
nothing else. A semaphore WAIT acts exactly when the semaphore holds at least COUNT, which it subtracts, other
semaphores staying; a mark WAIT acts exactly when the delivered position is at or past its step and mark, and changes
nothing else. A FENCE acts exactly when every descriptor it waits for has retired. A WAIT or FENCE whose condition
does not hold leaves the state as it is. -/
def Obligations.MarkWaitFence : Prop :=
  (∀ (s : State) (u : Issuer) (h : DHdr) (n : Nat), unitReady s u (.mark n) h = true → s.bcn.begun = false →
    ∃ t, exec (.mark u h n) s = .next t ∧ ActedOnce s t u (.mark n) h ∧ t = { s with tiles := t.tiles } ∧
      tileOf t u = { tileOf s u with queues := (tileOf t u).queues, marks := (tileOf t u).marks } ∧
      (tileOf t u).marks = (if s.isTrainField (u.tile.val / 16) then Nat.lor (tileOf s u).marks (2 ^ n) else (tileOf s u).marks)) ∧
  (∀ (s : State) (u : Issuer) (h : DHdr) (d : WaitD), unitReady s u (.wait d) h = true → d.mode = 0 →
    (d.count ≤ smapGet 0 (tileOf s u).sems d.sem →
      ∃ t, exec (.waitSemaphore u h d) s = .next t ∧ ActedOnce s t u (.wait d) h ∧ t = { s with tiles := t.tiles } ∧
        tileOf t u = { tileOf s u with queues := (tileOf t u).queues, sems := (tileOf t u).sems } ∧
        (∀ i, smapGet 0 (tileOf t u).sems i = if i = d.sem then smapGet 0 (tileOf s u).sems i - d.count else smapGet 0 (tileOf s u).sems i)) ∧
    (smapGet 0 (tileOf s u).sems d.sem < d.count → exec (.waitSemaphore u h d) s = .next s)) ∧
  (∀ (s : State) (u : Issuer) (h : DHdr) (d : WaitD), unitReady s u (.wait d) h = true → d.mode ≠ 0 →
    (s.reachedPoint (s.waitStepOf u h d) d.mark = true →
      ∃ t, exec (.waitMark u h d) s = .next t ∧ ActedOnce s t u (.wait d) h ∧ t = { s with tiles := t.tiles } ∧
        tileOf t u = { tileOf s u with queues := (tileOf t u).queues }) ∧
    (s.reachedPoint (s.waitStepOf u h d) d.mark = false → exec (.waitMark u h d) s = .next s)) ∧
  (∀ (s : State) (u : Issuer) (h : DHdr) (q : Nat) (e : QEntry), unitReady s u (.fence q) h = true →
    s.actEntry u { hdr := h, kind := .fence q } = some e →
    (s.fenceOpen u.tile.val e = true →
      ∃ t, exec (.fence u h q) s = .next t ∧ ActedOnce s t u (.fence q) h ∧ t = { s with tiles := t.tiles } ∧
        tileOf t u = { tileOf s u with queues := (tileOf t u).queues }) ∧
    (s.fenceOpen u.tile.val e = false → exec (.fence u h q) s = .next s))

/-- A unit row whose descriptor does not stand started at its queue changes nothing. A unit acts only on what has been
handed to it: the row of a unit whose descriptor stands at the issuer's queue neither started nor, if started, still
to act, answers the state as it was. Stated of every tile row that names a descriptor. What the checks of R178 refuse
is never queued, so no such descriptor ever stands there. -/
def Obligations.UnitRowsNeedAStartedDescriptor : Prop :=
  ∀ (s : State) (u : Issuer) (h : DHdr) (k : DKind), s.actEntry u { hdr := h, kind := k } = none →
    (∀ d errs, k = .load d → exec (.load u h d errs) s = .next s) ∧
    (∀ d, k = .store d → exec (.store u h d) s = .next s) ∧
    (∀ d, k = .stage d → exec (.stage u h d) s = .next s) ∧
    (∀ n, k = .swap n → exec (.swap u h n) s = .next s) ∧
    (∀ d, k = .pass d → exec (.pass u h d) s = .next s ∧ exec (.pairedPass u h d) s = .next s) ∧
    (∀ d, k = .drain d → exec (.drain u h d) s = .next s) ∧
    (∀ op d, k = .row op d → exec (match op with
        | 0 => .smxFwd u h d | 1 => .smxDot u h d | 2 => .smxBwd u h d | 3 => .normStats u h d | 4 => .normFwd u h d
        | 5 => .normDot u h d | 6 => .normBwd u h d | 7 => .recSave u h d | _ => .recLoad u h d) s = .next s ∨ 8 < op) ∧
    (∀ op d, k = .lane op d → exec (match op with
        | 0 => .laneCvt u h d | 1 => .laneAdd u h d | 2 => .laneSub u h d | 3 => .laneMul u h d | 4 => .laneFma u h d | 5 => .laneScale u h d
        | 6 => .laneAct u h d | 7 => .laneDact u h d | 8 => .laneMax u h d | 9 => .laneMin u h d | _ => .laneSumsq u h d) s = .next s ∨ 10 < op) ∧
    (∀ d, k = .put false d → exec (.putAdd u h d) s = .next s) ∧
    (∀ d, k = .put true d → exec (.putWrite u h d) s = .next s) ∧
    (∀ d, k = .get d → exec (.get u h d) s = .next s) ∧
    (∀ d, k = .wait d → exec (.waitSemaphore u h d) s = .next s ∧ exec (.waitMark u h d) s = .next s) ∧
    (∀ n, k = .fence n → exec (.fence u h n) s = .next s) ∧
    (∀ n, k = .mark n → exec (.mark u h n) s = .next s)

/-- STEP_START, STEP_STOP, MARK_TABLE, KEEPER_SELECT and WATCHDOG do what the step line's chapter says. Each command that
starts completes DONE. STEP_START at a module that is not the keeper sends a frame with its step toward the keeper; at
the keeper it releases the hold on STEP_BEGIN and, when the READY round of S0 is complete, goes on with it, unless the
outer loop is HELD. STEP_STOP answers the present step in two words; at the keeper, with a step in progress or on its
way it leaves the stop for that step's EVAL_SLOT, between steps it withholds the next STEP_BEGIN and tells the
modules, and while RECOVERING it gives the step up with ABORTED_STEP and tells the modules; a module that is not the
keeper sends a frame toward the keeper and changes nothing of its own step line. MARK_TABLE leaves a new table for the
next STEP_BEGIN, or for the one after it once the module is READY. KEEPER_SELECT does the same with the keeper and its
mode (R358), and WATCHDOG leaves its settings for the next STEP_BEGIN. Nothing else changes. A start at the keeper
while the step line runs fails its state check. That a module other than the keeper passes starts and stops on to it
is the model's reading (assumption 39). -/
def Obligations.StepLineCommands : Prop :=
  (∀ (s : State) (h : Hdr) (s0 : Nat), UidInv s → starts s h (.stepStart s0) = true →
    ∃ t, exec (.stepStart h s0) s = .next t ∧ Completed s.host t h (.stepStart s0) stDone [0, 0, 0, 0] ∧ (s.isKeeper = true → s.bcn.running = false) ∧
      (s.isKeeper = false →
        (let v : State := { s with bcn := { s.bcn with sinceStart := false } }
         t = { (match s.parent with | some p => v.flareSend p (stopFrame 3 s0 s.bcn.attempt) | none => v) with host := t.host })) ∧
      (s.isKeeper = true → t = { s with host := t.host, bcn := t.bcn, fab := t.fab, outbox := t.outbox } ∧
        (let b := { s.bcn with sinceStart := false, hold := false, stopReq := false, startReq := some s0 }
         let out := s.broadcast { op := 7, key := 3, index := 0, step := s0, attempt := s.bcn.attempt, payload := [] }
         (s.bcn.advance ≠ some s0 ∨ s.outer.state = 4 → t.bcn = b ∧ t.fab = s.fab ∧ t.outbox = s.outbox) ∧
         (s.bcn.advance = some s0 → s.outer.state ≠ 4 → s.bcn.ext = false →
           t.bcn = { b with advance := none, running := true, opened := true } ∧ t.fab = out.fab ∧ t.outbox = out.outbox) ∧
         (s.bcn.advance = some s0 → s.outer.state ≠ 4 → s.bcn.ext = true → t.bcn = b ∧ t.fab = s.fab ∧ t.outbox = s.outbox ++ [.readyFwd s0])))) ∧
  (∀ (s : State) (h : Hdr), UidInv s → starts s h .stepStop = true →
    ∃ t hl, exec (.stepStop h) s = .next t ∧ Completed hl t h .stepStop stDone [s.bcn.step % 2 ^ 32, s.bcn.step / 2 ^ 32, 0, 0] ∧
      t = { s with host := t.host, bcn := t.bcn, fab := t.fab, outbox := t.outbox } ∧
      (let tell := fun (i : Nat) => s.broadcast { op := 7, key := 7, index := i, step := s.bcn.step, attempt := s.bcn.attempt, payload := [] }
       (s.isKeeper = false → hl = s.host ∧
         (let v := match s.parent with | some p => s.flareSend p (stopFrame (b2n s.bcn.recovering) s.bcn.step s.bcn.attempt) | none => s
          t.bcn = s.bcn ∧ t.fab = v.fab ∧ t.outbox = v.outbox)) ∧
       (s.isKeeper = true → s.bcn.recovering = true → s.bcn.opened = false →
         t.bcn = { s.bcn with recovering := false, running := false, hold := true, abandoned := some s.bcn.step, aborts := 0, opened := false } ∧
         hl = (match s.trainPart with | some p => s.endRepeated p stAbStep | none => s).host ∧ t.fab = (tell 1).fab ∧ t.outbox = (tell 1).outbox) ∧
       (s.isKeeper = true → s.bcn.recovering = false ∨ s.bcn.opened = true → hl = s.host ∧
         (if s.bcn.opened = true ∨ s.bcn.begun = true ∨ s.bcn.phase = 0xF000 then
            t.bcn = { s.bcn with stopReq := true } ∧ t.fab = s.fab ∧ t.outbox = s.outbox
          else t.bcn = { s.bcn with hold := true, running := false } ∧ t.fab = (tell 0).fab ∧ t.outbox = (tell 0).outbox)))) ∧
  (∀ (s : State) (h : Hdr) (items : List MarkItem), UidInv s → starts s h (.markTable items) = true →
    ∃ t, exec (.markTable h items) s = .next t ∧ Completed s.host t h (.markTable items) stDone [0, 0, 0, 0] ∧ items.length = 32 ∧
      t = { s with host := t.host, bcn := t.bcn } ∧
      t.bcn = (if s.bcn.ready then { s.bcn with lateTable := some (tableOf items) } else { s.bcn with pendTable := some (tableOf items) }) ∧
      (∀ n i, 1 ≤ n → n ≤ 27 → items[n]? = some i → smapFind (tableOf items) n =
        if i.dfn = 1 then some { phase := i.phase, dfn := true, island := i.scope == 1, tmask := i.tmask } else none)) ∧
  (∀ (s : State) (h : Hdr) (k m : Nat), UidInv s → starts s h (.keeperSelect k m) = true →
    ∃ t, exec (.keeperSelect h k m) s = .next t ∧ Completed s.host t h (.keeperSelect k m) stDone [0, 0, 0, 0] ∧ s.isMember k = true ∧
      t = { s with host := t.host, bcn := if s.bcn.ready then { s.bcn with lateKeeper := some (k, m) } else { s.bcn with pendKeeper := some (k, m) } }) ∧
  (∀ (s : State) (h : Hdr) (p : WatchdogP), UidInv s → starts s h (.watchdog p) = true →
    ∃ t, exec (.watchdog h p) s = .next t ∧ Completed s.host t h (.watchdog p) stDone [0, 0, 0, 0] ∧
      t = { s with host := t.host, bcn := { s.bcn with pendWdog := some p } }) ∧
  (∀ (s : State) (h : Hdr) (s0 : Nat), s.isKeeper = true → s.bcn.running = true → starts s h (.stepStart s0) = false)

/-- ISLAND_FORM, its end without an answer, the collective group commands and the fabric settings. ISLAND_FORM that starts
asks every other listed module; with an illegal map or a repeated module id it completes BAD_VALUE and the island is
not formed; when all answer it completes DONE with size, diameter and depth, which MOD_PLACE then holds; with an
answer outstanding it runs on. FORMATION_NO_ANSWER of a listed module completes every running ISLAND_FORM with
BAD_VALUE, and changes nothing else. CGROUP_REG registers its group with sequence number 0; CGROUP_REMOVE removes an
idle group with its flows and what had arrived for its barriers, and waits for one in use. PORT_RETRAIN puts a REFUSED
or FENCED port into TRAIN, out of routing until its first accepted frame (R315); PORT_CLEAR zeroes the two counters of
the named ports; FABRIC_SET sets the four timers. Each completes DONE unless stated and changes nothing else. -/
def Obligations.IslandAndFabricCommands : Prop :=
  (∀ (s : State) (h : Hdr) (feed : Feed), UidInv s → starts s h .islandForm = true →
    ∃ t, exec (.islandForm h feed) s = .next t ∧
      (s.blob.legal = false → Completed s.host t h .islandForm stValue [0, 0, 0, 0] ∧ t = { s with host := t.host }) ∧
      (s.blob.legal = true →
        t.outbox = s.outbox ++ (s.blob.members.filter (fun m => m.id != s.place.moduleId)).map (fun m => .formation m.id) ∧
        (feed.failed ≠ [] ∨ ¬ (s.blob.members.map (fun m => m.id)).Nodup → Completed s.host t h .islandForm stValue [0, 0, 0, 0] ∧
          t = { s with host := t.host, outbox := t.outbox }) ∧
        (feed.failed = [] → (s.blob.members.map (fun m => m.id)).Nodup → feed.answered = true →
          Completed s.host t h .islandForm stDone [s.blob.members.length, s.blob.diameter, s.blob.depthTo s.bcn.fences s.bcn.keeperId, 0] ∧
          t = { s with host := t.host, outbox := t.outbox, place := t.place } ∧
          t.place = { s.place with
            size := s.blob.members.length, diam := s.blob.diameter, depth := s.blob.depthTo s.bcn.fences s.bcn.keeperId }) ∧
        (feed.failed = [] → (s.blob.members.map (fun m => m.id)).Nodup → feed.answered = false →
          Running s.host t h .islandForm ∧ t = { s with host := t.host, outbox := t.outbox }))) ∧
  (∀ (s : State) (m : Nat), s.isMember m = true →
    ∃ t, exec (.formationNoAnswer m) s = .next t ∧ t = { s with host := { s.host with cmds := t.host.cmds } } ∧
      t.host.cmds = s.host.cmds.map (fun c => if c.phase = .running ∧ opcodeOf c.body = 0x0500 then c.finish stValue [] else c)) ∧
  (∀ (s : State) (h : Hdr) (id : Nat) (ms : List Nat), UidInv s → starts s h (.cgroupReg id ms) = true →
    ∃ t, exec (.cgroupReg h id ms) s = .next t ∧ Completed s.host t h (.cgroupReg id ms) stDone [0, 0, 0, 0] ∧
      t = { s with host := t.host, fab := { s.fab with groups := t.fab.groups } } ∧ smapFind s.fab.groups id = none ∧ ms.Nodup ∧ s.place.moduleId ∈ ms ∧
      (∀ g, smapFind t.fab.groups g = if g = id then some { members := ms, part := h.part } else smapFind s.fab.groups g)) ∧
  (∀ (s : State) (h : Hdr) (id : Nat), UidInv s → starts s h (.cgroupRemove id) = true →
    (s.cgroupIdle id = true → ∃ t, exec (.cgroupRemove h id) s = .next t ∧ Completed s.host t h (.cgroupRemove id) stDone [0, 0, 0, 0] ∧
      t = { s with host := t.host, fab := { s.fab with groups := t.fab.groups, barriers := t.fab.barriers, flows := t.fab.flows } } ∧
      (∀ g, smapFind t.fab.groups g = if g = id then none else smapFind s.fab.groups g) ∧
      t.fab.flows = s.fab.flows.filter (fun x => x.2.engine != some (collSet id true) && x.2.engine != some (collSet id false)) ∧
      t.fab.barriers = s.fab.barriers.filter (fun x => x.1 / 2 ^ 48 != id)) ∧
    (s.cgroupIdle id = false → ∃ t, exec (.cgroupRemove h id) s = .next t ∧ Running s.host t h (.cgroupRemove id) ∧ t = { s with host := t.host })) ∧
  (∀ (s : State) (h : Hdr) (p : Nat), UidInv s → starts s h (.portRetrain p) = true →
    ∃ t, exec (.portRetrain h p) s = .next t ∧ Completed s.host t h (.portRetrain p) stDone [0, 0, 0, 0] ∧
      ((s.port p).state = 3 ∨ (s.port p).state = 4) ∧ t = { s with host := t.host, fab := { s.fab with ports := t.fab.ports } } ∧
      (∀ q, t.port q = if q = p then { s.port p with state := 1, returning := true } else s.port q)) ∧
  (∀ (s : State) (h : Hdr) (m : Nat), UidInv s → starts s h (.portClear m) = true →
    ∃ t, exec (.portClear h m) s = .next t ∧ Completed s.host t h (.portClear m) stDone [0, 0, 0, 0] ∧
      t = { s with host := t.host, fab := { s.fab with ports := t.fab.ports } } ∧
      (∀ q, t.port q = if q < 8 ∧ m.testBit q = true then { s.port q with crcerr := 0, replays := 0 } else s.port q)) ∧
  (∀ (s : State) (h : Hdr) (p : FabricP), UidInv s → starts s h (.fabricSet p) = true →
    ∃ t, exec (.fabricSet h p) s = .next t ∧ Completed s.host t h (.fabricSet p) stDone [0, 0, 0, 0] ∧
      t = { s with
        host := t.host, fab := { s.fab with
          set := { replayUs := p.replayUs, replayLim := p.replayLim, flowRtoUs := p.flowRtoUs, flowRetry := p.flowRetry } } })

/-- A collective that starts takes its sequence number and exchanges signatures; its segments are combined, written or
kept by epoch. For each of the seven operations: on a group of two or more ranks, with nothing kept back and no early
signature, every other member in reach over the fabric, a collective that starts puts its signature on the flow to
every other member, takes the group's next sequence number, waits for the other signatures with its own counted, and
runs on; memory stays. The layout of messages and flows is the model's (assumption 134). A BARRIER on a group of this
module alone completes DONE. COLLECTIVE_SEGMENT of another epoch sets STALE_SEEN and counts a residue mismatch in it,
and does nothing else; a packet on a port that is not UP is dropped; one for a command not yet issued here is kept; a
BROADCAST piece writes exactly its bytes at its place in DST; a contribution to a started reduction outside EXACT is
combined with the partial sum word by word with the operator, and memory stays. The combine of the four plain
operators is addition, maximum, minimum and addition. -/
def Obligations.CollectivesAreIssuedAndCombined : Prop :=
  (∀ (s : State) (h : Hdr) (op : Fin 7) (p : CollP) (j : CollJob), UidInv s → starts s h (.collective op.val p) = true →
    2 ≤ (s.collGroup p.group).members.length → (∀ x ∈ s.fab.jobs, x.uid < s.host.nextUid) →
    (∀ g ∈ s.fab.earlySigs, g.group ≠ p.group) → (∀ c ∈ s.host.cmds, c.deferred = false) →
    (∀ c ∈ s.host.cmds, c.phase = .running → opcodeOf c.body ≠ 0x0502) →
    j = { uid := s.host.nextUid, op := op.val, p := p, seq := (s.collGroup p.group).seq, exact := (s.part h.part).profile == 1,
          inStep := s.inStepWork h.part, sigs := [(s.collRank p.group, true)] } →
    (s.collGroup p.group).members.Nodup → (∀ m ∈ (s.collGroup p.group).members, m ≠ s.place.moduleId → inReach s m) →
    ∃ t, exec (collRow op.val h p) s = .next t ∧
      Running s.host t h (.collective op.val p) ∧ t = { s with host := t.host, fab := t.fab, outbox := t.outbox } ∧
      (∀ m ∈ (s.collGroup p.group).members, m ≠ s.place.moduleId →
        (let sent := fun (x : State) =>
           (let fl := smapGet {} x.fab.flows (txKey (collSet p.group j.inStep) m)
            (fl.unacked ++ fl.queued).map (fun k => k.frame.payload))
         sent t = sent s ++ [FabMsg.bytes (s.sigMsg j)])) ∧
      t.fab = { s.fab with jobs := s.fab.jobs ++ [j], groups := t.fab.groups, flows := t.fab.flows, ports := t.fab.ports } ∧
      (∀ g, t.collGroup g = if g = p.group then { s.collGroup g with seq := (s.collGroup g).seq + 1 } else s.collGroup g)) ∧
  (∀ (s : State) (h : Hdr) (p : CollP), UidInv s → starts s h (.collective 6 p) = true → (s.collGroup p.group).members = [s.place.moduleId] →
    (∀ x ∈ s.fab.jobs, x.uid < s.host.nextUid ∧ x.p.group ≠ p.group) →
    (∀ g ∈ s.fab.earlySigs, g.group ≠ p.group) → (∀ g ∈ s.fab.earlySegs, g.group ≠ p.group) → (∀ c ∈ s.host.cmds, c.deferred = false) →
    (∀ c ∈ s.host.cmds, c.phase = .running → opcodeOf c.body ≠ 0x0502) →
    ∃ t, exec (.barrier h p) s = .next t ∧ Completed s.host t h (.collective 6 p) stDone [0, 0, 0, 0] ∧
      t = { s with host := t.host, fab := { s.fab with
        groups := t.fab.groups, barriers := smapErase s.fab.barriers (barrierKey p.group (s.collGroup p.group).seq) } } ∧
      (∀ g, t.collGroup g = if g = p.group then { s.collGroup g with seq := (s.collGroup g).seq + 1 } else s.collGroup g)) ∧
  (∀ (s : State) (m : CollMsg) (g : Nat) (e : Nat) (grp : CGroup),
    (match m with | .sig x => x.group = g ∧ x.epoch = e | .seg x => x.group = g ∧ x.epoch = e | .packet _ _ _ _ => False) → smapFind s.fab.groups g = some grp → grp.epoch ≠ e →
    exec (.collectiveSegment m) s = .next { s with fab := { s.fab with
      staleSeen := true,
      retries := match m with
        | .seg x => if x.bad = 0 then satAdd 32 s.fab.retries 0 else satAdd 32 s.fab.retries 1
        | _ => s.fab.retries } }) ∧
  (∀ (s : State) (port : Fin 8) (f : FabFrame) (bad lane : Nat), (s.port port).state ≠ 2 →
    exec (.collectiveSegment (.packet port f bad lane)) s = .next s) ∧
  (∀ (s : State) (g : CollSeg) (grp : CGroup), smapFind s.fab.groups g.group = some grp → grp.epoch = g.epoch → grp.seq ≤ g.seq →
    (∀ j ∈ s.fab.jobs, j.p.group = g.group → j.seq ≠ g.seq) →
    exec (.collectiveSegment (.seg g)) s = .next { s with fab := { s.fab with earlySegs := s.fab.earlySegs ++ [g] } }) ∧
  (∀ (s : State) (g : CollSeg) (grp : CGroup) (j : CollJob), MemInv s → smapFind s.fab.groups g.group = some grp → grp.epoch = g.epoch →
    s.fab.jobs.find? (fun j => j.p.group == g.group && j.seq == g.seq) = some j → j.started = true → j.op = 3 → g.final = true →
    16384 * g.seg < j.p.count → g.data.length = min 16384 (j.p.count - 16384 * g.seg) →
    (∀ i, i < g.data.length → s.lostAt (j.p.dst + 16384 * g.seg + i) = false) →
    ∃ t, exec (.collectiveSegment (.seg g)) s = .next t ∧ t = { s with mem := t.mem, host := t.host, fab := t.fab, fields := t.fields } ∧
      (∀ f, { t.fld f with meter := (s.fld f).meter, counts := (s.fld f).counts } = s.fld f) ∧
      (∀ a, memRead t.mem a = if j.p.dst + 16384 * g.seg ≤ a ∧ a < j.p.dst + 16384 * g.seg + g.data.length then
        g.data.getD (a - (j.p.dst + 16384 * g.seg)) 0 else memRead s.mem a)) ∧
  (∀ (s : State) (g : CollSeg) (grp : CGroup) (j : CollJob) (lo n : Nat), smapFind s.fab.groups g.group = some grp → grp.epoch = g.epoch →
    s.fab.jobs.find? (fun j => j.p.group == g.group && j.seq == g.seq) = some j → (s.fab.jobs.map (fun j => j.uid)).Nodup →
    j.started = true → j.exact = false → j.op = 0 ∨ j.op = 1 ∨ j.op = 4 → g.final = false → g.bad = 0 → g.rank < grp.members.length →
    (collSegs j.p.count grp.members.length)[g.seg]? = some (s.collRank g.group, lo, n) → smapGet [] j.added g.seg ≠ [] →
    g.rank ∉ smapGet [] j.added g.seg → (smapGet [] j.added g.seg).length + 1 < grp.members.length →
    ∃ t j', exec (.collectiveSegment (.seg g)) s = .next t ∧ t.collJob j.uid = some j' ∧
      j' = { j with partials := j'.partials, added := j'.added, cls := j'.cls } ∧
      smapGet [] j'.partials g.seg = (collCombine j.p.opr (smapGet [] j.partials g.seg) ((wordsOf 4 g.data).map f32)).1 ∧
      smapGet [] j'.added g.seg = smapGet [] j.added g.seg ++ [g.rank] ∧
      t = { s with fab := t.fab, fields := t.fields, host := t.host, hostMem := t.hostMem, outbox := t.outbox }) ∧
  (∀ as bs : List F32, (collCombine 0 as bs).1 = List.zipWith fAdd as bs ∧ (collCombine 1 as bs).1 = List.zipWith fMax as bs ∧
    (collCombine 2 as bs).1 = List.zipWith fMin as bs ∧ (collCombine 3 as bs).1 = List.zipWith fAdd as bs)

/-- SHUTTER and PART_DELETE start a shutter; the drain point, its time limit, the end of EXPORT and the cut move it on. A
SHUTTER with no entries that starts puts its partition into SHUTTER and runs: phase DRAIN, or ABANDON at once with
MODE 1 where no step is in progress; one with entries that its handshake refuses completes BAD_TARGET and changes no
partition. PART_DELETE starts a shutter with MODE ABANDON. In a partition without a training job, the drain point
falls when no command of it is outstanding, or when WAIT_MS has run out; a training partition without a COMMIT then
goes on to ABANDON. The commands still outstanding at the drain point can from then on only complete ABORTED_SHUTTER.
SHUTTER_EXPORT_DONE, once every flow is acknowledged, and EXPORT_CUT_TIMER with CUT 1 and an unfinished entry, begin
ZEROISE: every command of the partition is done, every byte of its fields outside LOST channels reads as blank, its
tiles hold only what R462 leaves, groups, flows and activation entries are gone, its lantern ports are DOWN, its
check-value unit is reset, and no other partition's field, tile or byte changes. What R462 does not name stays (seed
registers, SEM_OVF, histograms): the model's reading. -/
def Obligations.ShutterTakesAPartitionDown : Prop :=
  (∀ (s : State) (h : Hdr) (p : ShutterP) (feed : Feed), UidInv s → starts s h (.shutter p) = true →
    (p.entries = [] → (p.mode = 0 → (s.part p.pid).train = false ∨ (s.bcn.recovering = false ∧ (s.part p.pid).state ≠ 2)) →
      (p.mode = 1 → (s.part p.pid).train = false ∨ s.bcn.begun = false) →
      ∃ t, exec (.shutter h p feed) s = .next t ∧ Running s.host t h (.shutter p) ∧ t = { s with host := t.host, parts := t.parts, shutters := t.shutters } ∧
        (s.part p.pid).state ≠ 0 ∧ (s.part p.pid).state ≠ 3 ∧
        t.part p.pid = { s.part p.pid with state := 3, phase := 2 + p.mode } ∧ (∀ q, q ≠ p.pid → t.part q = s.part q) ∧
        smapFind t.shutters p.pid = some { uid := s.host.nextUid, p := p, del := false }) ∧
    (p.entries ≠ [] → feed.answered = false ∨ feed.failed ≠ [] →
      ∃ t, exec (.shutter h p feed) s = .next t ∧ Completed s.host t h (.shutter p) stTarget [0, 0, 0, 0] ∧ t = { s with host := t.host, outbox := t.outbox })) ∧
  (∀ (s : State) (h : Hdr) (pid : Nat), UidInv s → starts s h (.partDelete pid) = true → (s.part pid).train = false ∨ s.bcn.begun = false →
    ∃ t, exec (.partDelete h pid) s = .next t ∧ Running s.host t h (.partDelete pid) ∧ t = { s with host := t.host, parts := t.parts, shutters := t.shutters } ∧
      t.part pid = { s.part pid with state := 3, phase := 3 } ∧ (∀ q, q ≠ pid → t.part q = s.part q) ∧
      (∃ j, smapFind t.shutters pid = some j ∧ j.uid = s.host.nextUid ∧ j.del = true ∧ j.p.entries = [])) ∧
  (∀ (s : State) (pid : Fin 16) (j : ShutterJob), smapFind s.shutters pid.val = some j → j.p.entries = [] → (s.part pid.val).train = false →
    (s.part pid.val).phase < 4 →
    ((s.part pid.val).phase = 3 ∨ (∀ c ∈ s.host.cmds, c.part = pid.val → opcodeOf c.body / 256 ≠ 1 → c.phase = .done) →
      ∃ t, exec (.shutterDrainPoint pid) s = .next t ∧ t = { s with parts := t.parts, shutters := t.shutters, fields := t.fields, host := t.host } ∧
        t.host = { s.host with cmds := s.host.cmds.map (fun c => if c.ofPart pid && c.phase != .done then { c with drained := true } else c) } ∧
        t.part pid.val = { s.part pid.val with phase := 4 } ∧ (∀ q, q ≠ pid.val → t.part q = s.part q) ∧
        (∀ f, (s.part pid.val).holds f = false → t.fld f = s.fld f) ∧
        ((s.part pid.val).phase = 2 → j.commit = false → exec (.shutterWaitTimeout pid) s = .next t)) ∧
    (∀ c ∈ s.host.cmds, c.part = pid.val → opcodeOf c.body / 256 ≠ 1 → c.phase ≠ .done → (s.part pid.val).phase ≠ 3 →
      exec (.shutterDrainPoint pid) s = .next s)) ∧
  (∀ (s : State) (pid : Fin 16) (j : ShutterJob), smapFind s.shutters pid.val = some j → (s.part pid.val).phase = 2 → j.commit = false →
    (s.part pid.val).train = true → s.bcn.begun = false →
    ∃ t, exec (.shutterWaitTimeout pid) s = .next t ∧ t = { s with parts := t.parts } ∧ t.part pid.val = { s.part pid.val with phase := 3 } ∧
      (∀ q, q ≠ pid.val → t.part q = s.part q)) ∧
  (∀ (s : State) (pid : Fin 16) (j : ShutterJob) (feed : Feed) (n b : Nat), smapFind s.shutters pid.val = some j → (s.part pid.val).phase = 4 →
    (∀ q, q < 4 → (s.part pid.val).lports.testBit q = true → (s.lport q).live = false) →
    ∀ ev, (ev = .shutterExportDone pid feed ∧ s.flowsDone j.uid = true ∨ ev = .exportCutTimer pid n b ∧ j.p.cut = 1 ∧ n < j.p.entries.length) →
    ∃ t, exec ev s = .next t ∧ t = { s with
          shutters := t.shutters, fab := t.fab, parts := t.parts, host := t.host, lnt := t.lnt, mem := t.mem, tiles := t.tiles,
          fields := t.fields, acts := t.acts, chk := t.chk, outer := t.outer, outbox := t.outbox } ∧
      t.part pid.val = { s.part pid.val with phase := 5 } ∧ (∀ q, q ≠ pid.val → t.part q = s.part q) ∧
      (∃ j', smapFind t.shutters pid.val = some j' ∧ j'.uid = j.uid ∧ j'.p = j.p ∧ j'.del = j.del ∧
        (ev = .exportCutTimer pid n b → j'.cut = true ∧ j'.finished = n ∧ j'.bytes = b)) ∧
      (∀ c ∈ t.host.cmds, c.part = pid.val → opcodeOf c.body / 256 ≠ 1 → c.phase = .done) ∧
      (∀ a, memRead t.mem a = if addrField a ∈ (s.part pid.val).fields ∧ s.lostAt a = false then blankByte else memRead s.mem a) ∧
      (∀ n, t.tile n = if n / 16 ∈ (s.part pid.val).fields then (s.tile n).zeroise else s.tile n) ∧
      (∀ f, t.fld f = if f ∈ (s.part pid.val).fields then (s.fld f).zeroise else s.fld f) ∧
      (∀ x ∈ t.fab.groups, x.2.part ≠ pid.val) ∧ (∀ x ∈ t.fab.flows, x.2.part ≠ pid.val) ∧ (∀ e ∈ t.acts, e.1 / 1024 ≠ pid.val) ∧
      (∀ q, q < 4 → t.lport q = if (s.part pid.val).lports.testBit q = true then { s.lport q with state := 0, linked := false, own := none, peer := none } else s.lport q) ∧
      (∀ u, t.chkUnit u = if u = pid.val + 1 then {} else s.chkUnit u))

/-- SHUTTER_ZEROISE_DONE hands the partition over. For a shutter whose ZEROISE runs: every queue bound to the partition is
unbound and the queues of QBIND are bound to it, TRAIN is cleared and NEXT_PROFILE set, the partition is ACTIVE with
its rectangle and ports, the shutter's command completes with the exported MiB, the entries finished and the MiB
written as 0xFF as its result words, the completions then ready are posted and after them SHUTTER_DONE for the
partition, and nothing else changes. The status is DONE, EXPORT_CUT where R465 cut the export, or BAD_TARGET where
R469 saw an entry fail. A partition delete ends with its slot FREE, the settings of its lantern ports dropped and its
command DONE. -/
def Obligations.HandoverAfterZeroise : Prop :=
  ∀ (s : State) (pid : Fin 16) (j : ShutterJob) (cs ds : List OutCmd) (c : OutCmd), smapFind s.shutters pid.val = some j → (s.part pid.val).phase = 5 →
    s.host.cmds = cs ++ c :: ds → c.uid = j.uid → (∀ x ∈ cs ++ ds, x.uid ≠ j.uid) → c.phase = .running → c.replayed = false → c.drained = false → c.chosen = none →
    (j.del = false → ∃ qs ps, exec (.shutterZeroiseDone pid) s = .next (State.event (State.postReady { s with
            shutters := smapErase s.shutters pid.val, parts := ps,
            host := { s.host with
              queues := qs, cmds := cs ++ { c with
                phase := .done, status := if j.cut = true then stCut else if j.fail = true then stTarget else stDone,
                r0 := j.bytes / 2 ^ 20, r1 := j.finished, r2 := j.ffBytes / 2 ^ 20, r3 := 0 } :: ds } }) 11 1 pid.val 0 (leBytes 1 (if j.cut = true then 1 else 0))) ∧
        (∀ q, q < 64 → smapGet ({} : CmdQueue) qs q = { s.cmdQueue q with
          view := if j.p.qbind.testBit q = true then pid.val else if (s.cmdQueue q).view = pid.val then 17 else (s.cmdQueue q).view }) ∧
        smapGet ({} : Partition) ps pid.val = { s.part pid.val with
          train := false, profile := j.p.nextProfile, pendProfile := none, cause := 0, state := 1, phase := 0,
          cutSeen := (s.part pid.val).cutSeen || j.cut } ∧
        (∀ q, q ≠ pid.val → smapGet ({} : Partition) ps q = s.part q)) ∧
    (j.del = true → ∃ t, exec (.shutterZeroiseDone pid) s = .next t ∧
        t = { s with shutters := smapErase s.shutters pid.val, parts := t.parts, lnt := t.lnt, host := { s.host with cmds := t.host.cmds } } ∧
        (∀ q, q < 4 → t.lport q = if (s.part pid.val).lports.testBit q = true then { s.lport q with configured := false, set := {}, pend := {} } else s.lport q) ∧
        t.part pid.val = {} ∧ (∀ q, q ≠ pid.val → t.part q = s.part q) ∧
        t.host.cmds = cs ++ { c with phase := .done, status := stDone, r0 := 0, r1 := 0, r2 := 0, r3 := 0 } :: ds)

/-- FED_RECORD, ROUTE_TABLE, OUTER_REG, OUTER_REMOVE and the lantern port commands. Each command that starts completes
DONE unless stated. FED_RECORD puts its record in force with RHO, the counted step and the missed rounds 0 and LASTJ
none; the outer state stays, but that a keeper in NONE that knows of registered groups leaves it. ROUTE_TABLE replaces
the table, and every island's DARK state follows it. OUTER_REG registers the group with empty slots, BASE none and,
outside LOST channels, the planes of momentum and residual +0 in both banks; with no LOST channel, tb and tm of both
banks hold the master of bank BANK; a keeper's first registration is noted and takes the outer state out of NONE,
another module's leaves its outer state. OUTER_REMOVE marks its group and runs until the next COMMIT. LPORT_CONFIG
sets the port's settings, the session settings from the next session on, and a port that is then ready enters TRAIN
and brings the data path up. OPTICS_READ answers the bytes read as words, OPTICS_WRITE sends its bytes; LEN 0 does
nothing; no answer completes HW_FAULT. LPORT_CLEAR zeroes two counters of the named ports. Nothing else changes. -/
def Obligations.LanternAndOuterCommands : Prop :=
  (∀ (s : State) (h : Hdr) (p : FedP), UidInv s → starts s h (.fedRecord p) = true →
    ∃ t, exec (.fedRecord h p) s = .next t ∧ Completed s.host t h (.fedRecord p) stDone [0, 0, 0, 0] ∧
      t = { s with host := t.host, outer := t.outer, fab := { s.fab with ports := t.fab.ports }, outbox := t.outbox } ∧
      t.outer.fed = some p ∧ t.outer.rho = 0 ∧ t.outer.cstep = 0 ∧ t.outer.missed = 0 ∧ t.outer.lastj = none32 ∧
      t.outer.join = (p.join == 1) ∧ t.outer.routes = s.outer.routes ∧ t.outer.gwUp = s.outer.gwUp ∧ t.outer.dark = s.outer.dark ∧
      (s.isKeeper = true ∧ s.outer.state = 0 ∧ s.outer.regs ≠ [] → t.outer.state = if t.lit.isEmpty = true then 3 else 2) ∧
      (s.isKeeper = false ∨ s.outer.state ≠ 0 ∨ s.outer.regs = [] → t.outer.state = s.outer.state ∧ t.fab = s.fab ∧ t.outbox = s.outbox)) ∧
  (∀ (s : State) (h : Hdr) (items : List RouteE), UidInv s → starts s h (.routeTable items) = true →
    ∃ t hl, exec (.routeTable h items) s = .next t ∧ Completed hl t h (.routeTable items) stDone [0, 0, 0, 0] ∧ s.outer.fed = none ∧
      t = { s with host := t.host, hostMem := t.hostMem, outer := t.outer, outbox := t.outbox } ∧ hl = { s.host with erings := hl.erings } ∧
      t.outer.routes = items ∧ t.outer.gwUp = s.outer.gwUp ∧ (∀ i, i < 16 → t.outer.dark.testBit i = t.outer.isDark i)) ∧
  (∀ (s : State) (h : Hdr) (p : OuterP) (g : Group), UidInv s → starts s h (.outerReg p) = true → s.group p.field p.gid = some g →
    ∃ t, exec (.outerReg h p) s = .next t ∧ Completed s.host t h (.outerReg p) stDone [0, 0, 0, 0] ∧
      t = { s with host := t.host, mem := t.mem, fields := t.fields, outer := t.outer, fab := { s.fab with ports := t.fab.ports }, outbox := t.outbox } ∧
      t.group p.field p.gid = some { g with outer := some { p := p } } ∧
      (∀ f k, (f, k) ≠ (p.field, p.gid) → t.group f k = s.group f k) ∧ (∀ f, { t.fld f with groups := (s.fld f).groups } = s.fld f) ∧
      (s.outerGroups ≠ [] → t.outer = s.outer ∧ t.outbox = s.outbox ∧ t.fab = s.fab) ∧
      (s.outerGroups = [] → s.isKeeper = false → t.outer = s.outer) ∧
      (s.outerGroups = [] → s.isKeeper = true → t.outer = { s.outer with
          regs := s.outer.regs.filter (fun m => m != s.place.moduleId) ++ [s.place.moduleId],
          state := if s.outer.state = 0 then (if s.lit.isEmpty = true then 3 else 2) else s.outer.state }) ∧
      (∀ i k, (i = 4 ∨ i = 5) ∧ k < 512 * s.shardBlocks g.p ∨ (i = 6 ∨ i = 7) ∧ k < 256 * s.shardBlocks g.p →
        s.lostAt (s.outAddr g.p p i + k) = false → memRead t.mem (s.outAddr g.p p i + k) = blankByte) ∧
      (MemInv s → stackWhole s p.field → g.p.field = p.field →
        (∀ k, k < 512 * s.shardBlocks g.p → s.lostAt (s.masterAddr g.p g.bank 0 + k) = false) →
        ∀ i k, i < 4 → k < 512 * s.shardBlocks g.p →
          memRead t.mem (s.outAddr g.p p i + k) = memRead s.mem (s.masterAddr g.p g.bank 0 + k))) ∧
  (∀ (s : State) (h : Hdr) (p : FieldGid), UidInv s → starts s h (.outerRemove p) = true →
    ∃ t, exec (.outerRemove h p) s = .next t ∧ Running s.host t h (.outerRemove p) ∧ t = { s with host := t.host, fields := t.fields } ∧
      t.group p.field p.gid = (s.group p.field p.gid).map (fun g => { g with outer := g.outer.map (fun x => { x with removing := some s.host.nextUid }) }) ∧
      (∀ f k, (f, k) ≠ (p.field, p.gid) → t.group f k = s.group f k) ∧ (∀ f, { t.fld f with groups := (s.fld f).groups } = s.fld f)) ∧
  (∀ (s : State) (h : Hdr) (p : LportP), UidInv s → starts s h (.lportConfig p) = true →
    ∃ t, exec (.lportConfig h p) s = .next t ∧ Completed s.host t h (.lportConfig p) stDone [0, 0, 0, 0] ∧ t = { s with host := t.host, lnt := t.lnt, outbox := t.outbox } ∧
      (∀ q, q ≠ p.port → t.lport q = s.lport q) ∧
      (let x := { s.lport p.port with
          configured := true,
          pend := { wfield := p.wfield, wbase := p.wbase, losttouchMs := p.losttouchMs, shiftUs := p.shiftUs, shiftN := p.shiftN, flows := p.flows },
          set := { (s.lport p.port).set with losttouchMs := p.losttouchMs, shiftUs := p.shiftUs, shiftN := p.shiftN } }
       if x.state = 0 ∧ x.present = true ∧ s.place.placed = true ∧ s.lportOwner p.port < 16 then
         t.lport p.port = { x with state := 1, linked := false } ∧ t.outbox = s.outbox ++ [.dataPath p.port true]
       else t.lport p.port = x ∧ t.outbox = s.outbox)) ∧
  (∀ (s : State) (h : Hdr) (p : OpticsP) (feed : Feed), UidInv s →
    (starts s h (.optics 0 p) = true → ∃ t r, exec (.opticsRead h p feed) s = .next t ∧ t = { s with host := t.host } ∧
      Completed s.host t h (.optics 0 p) (if p.len = 0 ∨ feed.answered = true then stDone else stHw) r ∧
      r = if p.len = 0 ∨ feed.answered = false then [0, 0, 0, 0] else wordsOf 4 (padTo 16 (feed.data.take p.len))) ∧
    (starts s h (.optics 1 p) = true → ∃ t, exec (.opticsWrite h p feed) s = .next t ∧ t = { s with host := t.host, outbox := t.outbox } ∧
      Completed s.host t h (.optics 1 p) (if p.len = 0 ∨ feed.answered = true then stDone else stHw) [0, 0, 0, 0] ∧
      t.outbox = s.outbox ++ (if p.len = 0 ∨ feed.answered = false then [] else [.i2cWrite p.port p.bank p.page p.off (padTo p.len p.data)]))) ∧
  (∀ (s : State) (h : Hdr) (m : Nat), UidInv s → starts s h (.lportClear m) = true →
    ∃ t, exec (.lportClear h m) s = .next t ∧ Completed s.host t h (.lportClear m) stDone [0, 0, 0, 0] ∧ t = { s with host := t.host, lnt := t.lnt } ∧
      (∀ q, t.lport q = if q < 4 ∧ m.testBit q = true then { s.lport q with retx := 0, crcerr := 0 } else s.lport q))

/-- PGROUP_REG, PGROUP_REMOVE, PUBLISH, DRIFT_AUDIT and CKPT_EXPORT. PGROUP_REG with NELEM not 0 that starts completes
DONE: the group stands in its field with bank BANK and nothing published, its gradient area and the planes beside the
master read as blank, and every byte outside these areas stays; with NELEM 0 it registers nothing. For a HOST group
the moments and scales are cleared in the host tier. What lies in LOST channels stays. PGROUP_REMOVE in a field
without a training job removes its group and its replica set's flows at once, and in a training field marks it and
waits. PUBLISH marks its group and runs until the version is published. DRIFT_AUDIT of a group with no version
awaiting publication, its masters at hand (a HOST group's are while it is resident, assumption 103), answers the
greatest distance in units of the last place, the number of differing elements and the first of them, and counts the
masters it reads as zero (R61; folded at once in a field without a training job); of another group it waits.
CKPT_EXPORT of one field to the host tier sends its bytes for DEST, in the order the chapter lays down, and runs until
the host tier has acknowledged them (HOST_TIER_ACK: they land then). Nothing else changes. A group that a point
reaches after its XMARK takes no part before the next step: the model's reading. -/
def Obligations.ParameterCommands : Prop :=
  (∀ (s : State) (h : Hdr) (g : GroupP), UidInv s → starts s h (.pgroupReg g) = true →
    (g.nelem = 0 → ∃ t, exec (.pgroupReg h g) s = .next t ∧ Completed s.host t h (.pgroupReg g) stDone [0, 0, 0, 0] ∧ t = { s with host := t.host }) ∧
    (g.nelem ≠ 0 → ∃ t x, exec (.pgroupReg h g) s = .next t ∧ Completed s.host t h (.pgroupReg g) stDone [0, 0, 0, 0] ∧
      t = { s with host := t.host, mem := t.mem, hostMem := t.hostMem, fields := t.fields } ∧ (g.tier.home ≠ 1 → t.hostMem = s.hostMem) ∧
      s.group g.field g.gid = none ∧ t.group g.field g.gid = some x ∧ x = { ({ p := g, bank := g.bank } : Group) with active := x.active } ∧
      (s.isTrainField g.field = false → x.active = true) ∧
      (∀ f k, (f, k) ≠ (g.field, g.gid) → t.group f k = s.group f k) ∧ (∀ f, { t.fld f with groups := (s.fld f).groups } = s.fld f) ∧
      (∀ i, i < 4 * g.nelem → memRead t.mem (redBase g.field + g.gbase + i) = blankByte) ∧
      (g.tier.home = 1 → ∀ k b i, 1 ≤ k → k ≤ 3 → b < 2 → i < g.planeSize (s.ownBlocks g).2 k →
        memRead t.hostMem (g.hostOff (s.ownBlocks g).2 k b + i) = blankByte) ∧
      (∀ k b i, 1 ≤ k → k ≤ 4 → (g.tier.home = 1 → k = 4) → b < 2 → i < g.planeSize (s.ownBlocks g).2 k →
        s.lostAt (stackBase g.field + g.planeOff (s.ownBlocks g).2 k b + i) = false →
        memRead t.mem (stackBase g.field + g.planeOff (s.ownBlocks g).2 k b + i) = blankByte) ∧
      (∀ a, (a < redBase g.field + g.gbase ∨ redBase g.field + g.gbase + 4 * g.nelem ≤ a) →
        (∀ k b, 1 ≤ k → b < 2 → a < stackBase g.field + g.planeOff (s.ownBlocks g).2 k b ∨
          stackBase g.field + g.planeOff (s.ownBlocks g).2 k b + g.planeSize (s.ownBlocks g).2 k ≤ a) →
        memRead t.mem a = memRead s.mem a))) ∧
  (∀ (s : State) (h : Hdr) (p : FieldGid) (g : Group), UidInv s → starts s h (.pgroupRemove p) = true → s.group p.field p.gid = some g →
    (s.isTrainField p.field = true → ∃ t, exec (.pgroupRemove h p) s = .next t ∧ Running s.host t h (.pgroupRemove p) ∧
      t = { s with host := t.host, fields := t.fields } ∧ t.group p.field p.gid = some { g with removing := some s.host.nextUid } ∧
      (∀ f k, (f, k) ≠ (p.field, p.gid) → t.group f k = s.group f k)) ∧
    (s.isTrainField p.field = false → g.pendingVer = false → ∃ t, exec (.pgroupRemove h p) s = .next t ∧
      Completed s.host t h (.pgroupRemove p) stDone [0, 0, 0, 0] ∧
      t = { s with host := t.host, fields := t.fields, fab := s.fab.dropReplica g.p } ∧ t.group p.field p.gid = none ∧
      (∀ f k, (f, k) ≠ (p.field, p.gid) → t.group f k = s.group f k))) ∧
  (∀ (s : State) (h : Hdr) (p : FieldGid) (g : Group), UidInv s → starts s h (.publish p) = true → s.group p.field p.gid = some g →
    ∃ t, exec (.publish h p) s = .next t ∧ Running s.host t h (.publish p) ∧ t = { s with host := t.host, fields := t.fields } ∧ g.published = false ∧
      t.group p.field p.gid = some { g with pubOnly := some s.host.nextUid, pendingVer := true, behind := g.pendingVer } ∧
      (∀ f k, (f, k) ≠ (p.field, p.gid) → t.group f k = s.group f k)) ∧
  (∀ (s : State) (h : Hdr) (p : FieldGid) (g : Group), UidInv s → starts s h (.driftAudit p) = true → s.group p.field p.gid = some g →
    (g.auditable = false → ∃ t, exec (.driftAudit h p) s = .next t ∧ Running s.host t h (.driftAudit p) ∧ t = { s with host := t.host }) ∧
    (g.auditable = true → ∃ t hl m n f, exec (.driftAudit h p) s = .next t ∧ hl = { s.host with erings := hl.erings } ∧
      t = { s with host := t.host, hostMem := t.hostMem, outbox := t.outbox, fields := t.fields } ∧
      (∀ k, { t.fld k with meter := (s.fld k).meter, caps := (s.fld k).caps, counts := (s.fld k).counts } = s.fld k) ∧ (∀ k, k ≠ g.p.field → t.fld k = s.fld k) ∧
      (s.isTrainField g.p.field = true → ∀ k, (t.fld k).counts = (s.fld k).counts) ∧
      (s.subnormals (s.planeAddr g.p 0 g.bank 0) (128 * (s.ownBlocks g.p).2) = 0 → s.isTrainField g.p.field = true → t = { s with host := t.host }) ∧
      Completed hl t h (.driftAudit p) stDone [m, n, f, 0] ∧ [m, n, f] = s.audit g ∧ (n = 0 → m = 0 ∧ f = 0xFFFFFFFF))) ∧
  (∀ g : Group, g.auditable = (!g.pendingVer && (g.p.tier.home != 1 || g.resident))) ∧
  (∀ (s : State) (h : Hdr) (p : CkptP) (f : Nat), UidInv s → starts s h (.ckptExport p) = true → p.dkind = 1 → f < 64 → p.fmask = 2 ^ f →
    s.entrySource (ckptEntry p) f ≠ [] →
    ∃ t, exec (.ckptExport h p) s = .next t ∧ Running s.host t h (.ckptExport p) ∧ t = { s with host := t.host, outbox := t.outbox } ∧
      t.outbox = s.outbox ++ [.hostWrite p.dest ((s.entrySource (ckptEntry p) f).map s.peek)])

/-- A command before its point waits; STEP_SCALAR and the pins announce themselves; SCHEDULED_START starts what may start.
A command that passes every check but may not start yet, its partition in no shutter past the drain point, is kept
waiting with its point and changes nothing else, except that STEP_SCALAR has by then told the keeper its value and
STEER_PIN or STEER_UNPIN has left its request in every field of the partition. STEP_SCALAR that starts at its
submission completes DONE and has sent its value for the first STEP_BEGIN at or after its point: the keeper broadcasts
it, any other module forwards it. STEER_PIN and STEER_UNPIN that start leave one request in each field of the
partition and change nothing else. SCHEDULED_START starts the oldest waiting command of a queue when it may start, no
ready command of another, SERVE partition stands first (R447, assumption 113), and its targets and states still hold:
a NOP then completes DONE and nothing else changes; with nothing to start it changes nothing. -/
def Obligations.ScheduledCommandsWaitAndAnnounce : Prop :=
  (∀ (s : State) (h : Hdr) (b : Body) (feed : Feed), s.queueOpen h.queue = true → firstFail (s.allChecks h b []) = none →
    s.violation (s.cmdQueue h.queue).view h b = none → (offered s h b).mayBegin (entryOf s h b) = false →
    s.turnedAway h.part (opcodeOf b) ≠ some stAbShutter → s.submit h b feed = offered s h b ∧
    (offered s h b).host = { s.host with cmds := s.host.cmds ++ [entryOf s h b], nextUid := s.host.nextUid + 1 } ∧
    (entryOf s h b).phase = .waiting ∧ (entryOf s h b).point = s.pointOf h ∧
    (opcodeOf b ≠ 0x0703 → opcodeOf b ≠ 0x0804 → offered s h b = { s with host := (offered s h b).host })) ∧
  (∀ (s : State) (h : Hdr) (slot : Nat) (v : F32), UidInv s → starts s h (.stepScalar slot v) = true →
    ∃ t, exec (.stepScalar h slot v) s = .next t ∧ Completed s.host t h (.stepScalar slot v) stDone [0, 0, 0, 0] ∧
      t = { s with host := t.host, fab := t.fab, outbox := t.outbox } ∧
      (let out := if s.isKeeper then
          s.broadcast { op := 7, key := 6, index := slot, step := beginAt (s.pointOf h), attempt := s.bcn.attempt, payload := leBytes 8 v.toNat }
        else s.emit (.scalarFwd slot v (beginAt (s.pointOf h)) (match s.pointOf h with | some p => p.2 | none => 0))
       t.fab = out.fab ∧ t.outbox = out.outbox)) ∧
  (∀ (s : State) (h : Hdr) (slot rung : Nat) (un : Bool), UidInv s → starts s h (.steerPin slot rung (if un then 1 else 0)) = true →
    ∃ t, exec (if un then .steerUnpin h slot rung else .steerPin h slot rung) s = .next t ∧
      Completed s.host t h (.steerPin slot rung (if un then 1 else 0)) stDone [0, 0, 0, 0] ∧ t = { s with host := t.host, fields := t.fields } ∧
      (∀ f, { t.fld f with steer := { (t.fld f).steer with slots := (s.fld f).steer.slots } } = s.fld f) ∧
      (∀ f n, smapGet ({} : SteerSlot) (t.fld f).steer.slots n =
        let x := smapGet ({} : SteerSlot) (s.fld f).steer.slots n
        if f ∈ s.partFields h.part ∧ n = slot then { x with reqs := x.reqs ++ [(beginAt (s.pointOf h), if un then none else some rung)] } else x)) ∧
  (∀ p, beginAt none = 0 ∧ beginAt (some (p, 0)) = p ∧ ∀ m, 0 < m → beginAt (some (p, m)) = p + 1) ∧
  (∀ (s : State) (q : Fin 64) (feed : Feed) (cs ds : List OutCmd) (c : OutCmd), s.host.cmds = cs ++ c :: ds →
    (∀ x ∈ cs, x.hdr.queue = q → x.phase ≠ .waiting) → (∀ x ∈ cs ++ ds, x.uid ≠ c.uid) → c.hdr.queue = q → c.phase = .waiting → c.body = .nop →
    s.mayBegin c = true → s.servedFirst c = false → s.turnedAway c.part 0 = none → c.replayed = false → c.drained = false → c.hdr.dl = false →
    ∃ t, exec (.scheduledStart q feed) s = .next t ∧ t = { s with host := { s.host with cmds := t.host.cmds } } ∧
      t.host.cmds = cs ++ { c with
        phase := .done, slot := true, profile := (s.part c.part).profile, status := stDone, r0 := 0, r1 := 0, r2 := 0, r3 := 0 } :: ds) ∧
  (∀ (s : State) (q : Fin 64) (feed : Feed), (∀ c ∈ s.host.cmds, c.hdr.queue = q → c.phase = .waiting → s.mayBegin c = false ∨ s.servedFirst c = true) →
    exec (.scheduledStart q feed) s = .next s)

/-- HEALTH_READ, HEALTH_CLEAR, STEER_CTL, STEER_SLOT, NEVT_EN and SNAPSHOT. Each command that starts completes DONE.
HEALTH_READ writes at most RLEN bytes at RBUF, the seven sums of the committed counts of its tag over the fields of
the partition first, and answers the two shares. HEALTH_CLEAR zeroes the committed counts of exactly the named tags in
the fields of the partition. STEER_CTL leaves its settings for the next STEP_BEGIN in every field of the partition;
STEER_SLOT sets the range and the enable of one slot there, which takes part from the next window; NEVT_EN sets the
event enables there. SNAPSHOT writes the registers of the issuing view from offset 0, at most RLEN bytes, its first
word the register at offset 0, and answers the bytes. Nothing else changes, but for the sample of the input and the
latches that a register read makes. -/
def Obligations.HealthAndSteeringCommands : Prop :=
  (∀ (s : State) (h : Hdr) (p : HealthP), UidInv s → starts s h (.healthRead p) = true →
    ∃ t o v, exec (.healthRead h p) s = .next t ∧ Completed s.host t h (.healthRead p) stDone [o, v, 0, 0] ∧ t = { s with host := t.host, hostMem := t.hostMem } ∧
      (let c := fun i => s.healthCount (s.partFields h.part) p.htag i
       let b := 3 * p.fmt + 1
       o = shareOf (c (b + 1)) (c b) ∧ v = shareOf (c (b + 2)) (c b) ∧
       (MemInv s → 64 ≤ p.buf.len → memReadNat t.hostMem p.buf.addr 8 = c 0 ∧ memReadNat t.hostMem (p.buf.addr + 24) 8 = c 3 ∧
         memReadNat t.hostMem (p.buf.addr + 32) 8 = c b ∧ memReadNat t.hostMem (p.buf.addr + 48) 8 = c (b + 2) ∧
         memReadNat t.hostMem (p.buf.addr + 56) 4 = o ∧ memReadNat t.hostMem (p.buf.addr + 60) 4 = v)) ∧
      (∀ a, a < p.buf.addr ∨ p.buf.addr + p.buf.len ≤ a → memRead t.hostMem a = memRead s.hostMem a)) ∧
  (∀ (s : State) (h : Hdr) (t0 t1 t2 t3 : Nat), UidInv s → starts s h (.healthClear t0 t1 t2 t3) = true →
    ∃ t, exec (.healthClear h t0 t1 t2 t3) s = .next t ∧ Completed s.host t h (.healthClear t0 t1 t2 t3) stDone [0, 0, 0, 0] ∧
      t = { s with host := t.host, fields := t.fields } ∧ (∀ f, { t.fld f with counts := (s.fld f).counts } = s.fld f) ∧
      (∀ f tag i, i < 32 → smapGet 0 (t.fld f).counts (32 * tag + i) =
        if f ∈ s.partFields h.part ∧ ([t0, t1, t2, t3].getD (tag / 64) 0).testBit (tag % 64) = true then 0
        else smapGet 0 (s.fld f).counts (32 * tag + i))) ∧
  (∀ (s : State) (h : Hdr) (p : SteerCtlP), UidInv s → starts s h (.steerCtl p) = true →
    ∃ t, exec (.steerCtl h p) s = .next t ∧ Completed s.host t h (.steerCtl p) stDone [0, 0, 0, 0] ∧ t = { s with host := t.host, fields := t.fields } ∧
      (∀ f, t.fld f = if f ∈ s.partFields h.part then { s.fld f with steer := { (s.fld f).steer with pendCtl := some p } } else s.fld f)) ∧
  (∀ (s : State) (h : Hdr) (p : SteerSlotP), UidInv s → starts s h (.steerSlot p) = true →
    ∃ t, exec (.steerSlot h p) s = .next t ∧ Completed s.host t h (.steerSlot p) stDone [0, 0, 0, 0] ∧ t = { s with host := t.host, fields := t.fields } ∧
      (∀ f, { t.fld f with steer := { (t.fld f).steer with slots := (s.fld f).steer.slots } } = s.fld f) ∧
      (∀ f n, smapGet ({} : SteerSlot) (t.fld f).steer.slots n =
        let x := smapGet ({} : SteerSlot) (s.fld f).steer.slots n
        if f ∈ s.partFields h.part ∧ n = p.slot then
          { x with minRung := p.minRung, maxRung := p.maxRung, enable := p.enable == 1, fresh := true } else x)) ∧
  (∀ (s : State) (h : Hdr) (c e : Nat), UidInv s → starts s h (.nevtEn c e) = true →
    ∃ t, exec (.nevtEn h c e) s = .next t ∧ Completed s.host t h (.nevtEn c e) stDone [0, 0, 0, 0] ∧ t = { s with host := t.host, fields := t.fields } ∧
      (∀ f, t.fld f = if f ∈ s.partFields h.part then { s.fld f with classEn := c, steerEn := e == 1 } else s.fld f)) ∧
  (∀ (s : State) (h : Hdr) (p : BufP), UidInv s → starts s h (.snapshot p) = true →
    ∃ t, exec (.snapshot h p) s = .next t ∧ Completed s.host t h (.snapshot p) stDone [p.len, 0, 0, 0] ∧
      t = { s with host := t.host, hostMem := t.hostMem, power := t.power, fresh := s.fresh + 1, bcn := t.bcn, chk := t.chk } ∧
      t.power = { s.power with vin := t.power.vin, pin := t.power.pin } ∧ t.bcn = { s.bcn with posHi := t.bcn.posHi } ∧
      (∀ a, a < p.addr ∨ p.addr + p.len ≤ a → memRead t.hostMem a = memRead s.hostMem a) ∧
      (MemInv s → 4 ≤ p.len → memReadNat t.hostMem p.addr 4 = (s.readReg (s.cmdQueue h.queue).view 0).toNat))

/-- ATTEST, LOG_READ, IDKEY_READ, TEST_MODE, the traffic generator and SELFTEST. Each command that starts completes DONE
unless stated, and changes nothing but what is named. ATTEST writes a report of PURPOSE 0 over its nonce at RBUF and
answers 448. LOG_READ writes the stored entries from FIRST on that fit and answers how many and how many are stored.
IDKEY_READ answers 97. TEST_MODE_ENTER puts its stack into test mode; TEST_MODE_LEAVE with no generator at work waits
for the stack's zeroise; TEST_ZEROISE_DONE then reads the whole stack as blank, every other byte stays, and completes
the command. TG_RUN that moves nothing completes at once; any other starts a run in exactly the named channels and
goes on. TG_RUN_DONE ends the run of one channel with DONE, with the mismatches that its reads meet in memory and
those that the parts cause, with where the first was met on a first failure, and with the bytes its bursts wrote, all
in its own stack; a run without a count that nothing stops runs on; without a run it changes nothing. TG_STOP ends the
run of every named channel that has one, with DONE, and completes; of channels without a run it changes nothing else.
SELFTEST without a failing tile answers 0 and the number of fields. Reports and keys are free values (assumption 5),
and so is how far a run came that ended early (35). -/
def Obligations.SecurityAndDiagnosticCommands : Prop :=
  (∀ (s : State) (h : Hdr) (p : AttestP), UidInv s → starts s h (.attest p) = true →
    ∃ t, exec (.attest h p) s = .next t ∧ Completed s.host t h (.attest p) stDone [448, 0, 0, 0] ∧
      t = { s with host := t.host, hostMem := t.hostMem, sec := { s.sec with signed := s.sec.signed + 1 } } ∧
      t.hostMem = memWriteBytes s.hostMem p.buf.addr ((s.report 0 ([p.n0, p.n1, p.n2, p.n3].flatMap (leBytes 8)) []).take p.buf.len)) ∧
  (∀ (s : State) (h : Hdr) (p : LogP), UidInv s → starts s h (.logRead p) = true →
    ∃ t, exec (.logRead h p) s = .next t ∧ t = { s with host := t.host, hostMem := t.hostMem } ∧
      Completed s.host t h (.logRead p) stDone [(((s.sec.entries.drop p.first).take p.count).take (p.buf.len / 64)).length, s.sec.entries.length, 0, 0] ∧
      (∀ a, a < p.buf.addr ∨ p.buf.addr + p.buf.len ≤ a → memRead t.hostMem a = memRead s.hostMem a) ∧
      (MemInv s → ∀ i e k, i < p.count → i < p.buf.len / 64 → s.sec.entries[p.first + i]? = some e → k < 64 →
        memRead t.hostMem (p.buf.addr + 64 * i + k) = (padTo 64 e).getD k 0)) ∧
  (∀ (s : State) (h : Hdr) (p : BufP), UidInv s → starts s h (.idkeyRead p) = true →
    ∃ t, exec (.idkeyRead h p) s = .next t ∧ Completed s.host t h (.idkeyRead p) stDone [97, 0, 0, 0] ∧ t = { s with host := t.host, hostMem := t.hostMem } ∧
      t.hostMem = memWriteBytes s.hostMem p.addr ((padTo 97 (Config.identityKey s.fuses.secret)).take p.len)) ∧
  (∀ (s : State) (h : Hdr) (f : Nat), UidInv s →
    (starts s h (.testMode f 1) = true → ∃ t, exec (.testModeEnter h f) s = .next t ∧ Completed s.host t h (.testMode f 1) stDone [0, 0, 0, 0] ∧
      t = { s with host := t.host, fields := t.fields } ∧ s.partOf f = none ∧
      (∀ g, t.fld g = if g = f then { s.fld f with stack := { (s.fld f).stack with test := true } } else s.fld g)) ∧
    (starts s h (.testMode f 0) = true → (∀ c, c < 32 → (smapGet ({} : Channel) (s.fld f).stack.chans c).run = none) →
      ∃ t, exec (.testModeLeave h f) s = .next t ∧ Running s.host t h (.testMode f 0) ∧ t = { s with host := t.host, fields := t.fields } ∧
        (∀ g, t.fld g = if g = f then { s.fld f with stack := { (s.fld f).stack with testZero := some s.host.nextUid } } else s.fld g))) ∧
  (∀ (s : State) (f : Fin 64) (u : Nat) (cs ds : List OutCmd) (c : OutCmd), (s.fld f).stack.testZero = some u → s.host.cmds = cs ++ c :: ds → c.uid = u →
    (∀ x ∈ cs ++ ds, x.uid ≠ u) → c.phase = .running → c.replayed = false → c.drained = false →
    ∃ t, exec (.testZeroiseDone f) s = .next t ∧ t = { s with mem := t.mem, fields := t.fields, host := { s.host with cmds := t.host.cmds } } ∧
      (∃ c', t.host.cmds = cs ++ c' :: ds ∧ c'.uid = u ∧ c'.phase = .done ∧ c'.status = stDone) ∧
      (∀ a, memRead t.mem a = if stackBase f ≤ a ∧ a < stackBase f + 2 ^ 37 then blankByte else memRead s.mem a) ∧
      (∀ g, t.fld g = if g = f.val then { s.fld f with stack := { (s.fld f).stack with test := false, testZero := none } } else s.fld g)) ∧
  (∀ (s : State) (h : Hdr) (p : TgP), UidInv s → starts s h (.tgRun p) = true → (s.fld p.field).stack.test = true ∧
    (TgP.isNoop p = true → ∃ t, exec (.tgRun h p) s = .next t ∧ Completed s.host t h (.tgRun p) stDone [0, 0, 0, 0] ∧ t = { s with host := t.host }) ∧
    (TgP.isNoop p = false → ∃ t, exec (.tgRun h p) s = .next t ∧ Running s.host t h (.tgRun p) ∧ t = { s with host := t.host, fields := t.fields } ∧
      (∀ f c, smapGet ({} : Channel) (t.fld f).stack.chans c =
        let x := smapGet ({} : Channel) (s.fld f).stack.chans c
        if f = p.field ∧ c < 32 ∧ p.chmask.testBit c = true then { x with run := some p, tgErrs := 0 } else x))) ∧
  (∀ (s : State) (f : Fin 64) (c : Fin 32) (n : Nat) (first : Option (Nat × Nat)),
    ((smapGet ({} : Channel) (s.fld f).stack.chans c).run = none → exec (.tgRunDone f c n first) s = .next s) ∧
    (∀ p, (smapGet ({} : Channel) (s.fld f).stack.chans c).run = some p → (∀ x ∈ s.host.cmds, x.phase = .running → x.body ≠ .tgRun p) →
      (s.tgEnds f c p n = false → exec (.tgRunDone f c n first) s = .next s) ∧
      (s.tgEnds f c p n = true → ∃ t, exec (.tgRunDone f c n first) s = .next t ∧ t = { s with fields := t.fields, mem := t.mem, fresh := t.fresh } ∧
        (p.stopOnErr ≠ 1 ∨ n = 0 → t.mem = (s.tgWalk f c p (TgP.span p)).mem) ∧
        (p.base % 256 = 0 → p.len % 256 = 0 → 0 < p.len → p.base + p.len ≤ 2 ^ 32 → c.val ∈ (s.fld f).stack.good → (s.fld f).stack.good.length ≤ 32 →
          ∀ a, a < stackBase f ∨ stackBase f + 2 ^ 37 ≤ a → memRead t.mem a = memRead s.mem a) ∧
        (let x := smapGet ({} : Channel) (s.fld f).stack.chans c
         let y := smapGet ({} : Channel) (t.fld f).stack.chans c
         let w := s.tgWalk f c p (TgP.span p)
         y.run = none ∧ y.tgDone = true ∧
         (p.stopOnErr ≠ 1 ∨ n = 0 → y.tgErrs = min (x.tgErrs + (w.errs + n)) (2 ^ 32 - 1) ∧ y.tgFail = (x.tgFail || w.errs + n != 0)) ∧
         (p.stopOnErr ≠ 1 ∨ n = 0 → x.tgFail = false → w.errs + n ≠ 0 →
           ∀ a b, (if n = 0 then w.first else first) = some (a, b) → y.tgFail0 = a % 2 ^ 32 ∧ y.tgFail1 = b % 2 ^ 12) ∧
         (x.tgFail = true → y.tgFail0 = x.tgFail0 ∧ y.tgFail1 = x.tgFail1) ∧ (n ≠ 0 → y.tgFail = true)) ∧
        (∀ g d, (g, d) ≠ (f.val, c.val) → smapGet ({} : Channel) (t.fld g).stack.chans d = smapGet ({} : Channel) (s.fld g).stack.chans d)))) ∧
  (∀ (s : State) (h : Hdr) (f m : Nat), UidInv s → starts s h (.tgStop f m) = true →
    ∃ t, exec (.tgStop h f m) s = .next t ∧ t = { s with host := t.host, fields := t.fields, mem := t.mem, fresh := t.fresh } ∧
      (∃ c ∈ t.host.cmds, c.uid = s.host.nextUid ∧ c.hdr = h ∧ c.phase = .done ∧ c.status = stDone) ∧
      (∀ d, d < 32 → m.testBit d = true →
        let x := smapGet ({} : Channel) (s.fld f).stack.chans d
        let y := smapGet ({} : Channel) (t.fld f).stack.chans d
        y.run = none ∧ (x.run ≠ none → y.tgDone = true) ∧ (x.run = none → y = x)) ∧
      (∀ g d, g ≠ f ∨ m.testBit d = false → smapGet ({} : Channel) (t.fld g).stack.chans d = smapGet ({} : Channel) (s.fld g).stack.chans d)) ∧
  (∀ (s : State) (h : Hdr) (f m : Nat), UidInv s → starts s h (.tgStop f m) = true →
    (∀ c, c < 32 → m.testBit c = true → (smapGet ({} : Channel) (s.fld f).stack.chans c).run = none) →
    ∃ t, exec (.tgStop h f m) s = .next t ∧ Completed s.host t h (.tgStop f m) stDone [0, 0, 0, 0] ∧ t = { s with host := t.host }) ∧
  (∀ (s : State) (h : Hdr) (m : Nat) (feed : Feed), UidInv s → starts s h (.selftest m) = true → feed.failed = [] →
    ∃ t, exec (.selftest h m feed) s = .next t ∧ Completed s.host t h (.selftest m) stDone [0, (onesBelow 64 m).length, 0, 0] ∧
      t = { s with host := t.host, fields := t.fields } ∧ (∀ f, t.fld f = s.fld f))

/-- Reading the packet of any command gives the command back, and fetching it submits exactly that command. For every
command of the host whose values fit their containers: the parameter block written for it has the packed length of
R497, no byte of padding that is not zero, and reads back as the same command; a header written for any of its values
reads back the same, with its opcode and length and no reserved bit set. PACKET_FETCH of such a packet, whose entries
are all announced, with the sequence number its queue expects, PART at most 16 and at most 32,768 bytes of parameters,
moves the head past its entries and the expected sequence number on by one, and submits exactly that command. -/
def Obligations.PacketRoundTrip : Prop :=
  (∀ b : Body, bodyFits b = true →
    parseBody (opcodeOf b) (encodeBody b) = some b ∧ (encodeBody b).length = packedLen (opcodeOf b) (fixedValues b) ∧
    firstPad (opcodeOf b) (fixedValues b) (encodeBody b) = none) ∧
  (∀ (h : Hdr) (op n : Nat), hdrFits h = true → op < 2 ^ 16 → n < 2 ^ 16 →
    (parseHdr (encodeHdr h op n)).toHdr = h ∧ (parseHdr (encodeHdr h op n)).opcode = op ∧ (parseHdr (encodeHdr h op n)).plen = n ∧
    (encodeHdr h op n).length = 64 ∧ headerRsvd (encodeHdr h op n) = none) ∧
  (∀ (s : State) (h : Hdr) (b : Body) (feed : Feed), bodyFits b = true → hdrFits h = true → h.part ≤ 16 → (encodeBody b).length ≤ 32768 →
    s.host.state = 2 → s.queueOpen h.queue = true → h.seq = (s.cmdQueue h.queue).seq →
    packetEntries (encodeBody b).length ≤ ringAhead (s.cmdQueue h.queue).log (s.cmdQueue h.queue).head (s.cmdQueue h.queue).tail →
    ∃ s' : State, exec (.packetFetch h.queue (encodePacket h b) feed) s = .next (s'.submit h b feed) ∧
      s' = { s with host := { s.host with queues := s'.host.queues } } ∧ (∀ q, q ≠ h.queue.val → s'.cmdQueue q = s.cmdQueue q) ∧
      s'.cmdQueue h.queue = { s.cmdQueue h.queue with
        head := ((s.cmdQueue h.queue).head + packetEntries (encodeBody b).length) % 2 ^ (s.cmdQueue h.queue).log,
        seq := (h.seq + 1) % 2 ^ 32 })

/-- A doorbell's tail at or above the ring size, or that draws the unread range across the head, is ignored with DB_ERR;
another is taken. SQ_DOORBELL of an enabled, bound queue that the view holds: a tail at or above the ring size, or one
that would leave fewer unread entries than the present tail announces (the unread range would cross the head), only
sets DB_ERR of the queue; the present tail has no effect; any other becomes the tail. No other queue and nothing else
changes. A doorbell of an unbound queue changes nothing. -/
def Obligations.DoorbellTakesOrRefusesATail : Prop :=
  (∀ (s : State) (view : Fin 17) (q : Fin 64) (v : Word), s.viewHolds view (0x10200 + 4 * q) = true → (s.cmdQueue q).view ≠ 17 →
    (s.cmdQueue q).enabled = true →
    ∃ t, exec (.sqDoorbell view q v) s = .next t ∧ t = { s with host := { s.host with queues := t.host.queues } } ∧
      (∀ x, x ≠ q.val → t.cmdQueue x = s.cmdQueue x) ∧
      (let x := s.cmdQueue q
       let tail := v.toNat % 65536
       (2 ^ x.log ≤ tail ∨ ringAhead x.log x.head tail < ringAhead x.log x.head x.tail → t.cmdQueue q = { x with dbErr := true }) ∧
       (tail < 2 ^ x.log → tail = x.tail → t.cmdQueue q = x) ∧
       (tail < 2 ^ x.log → ringAhead x.log x.head x.tail ≤ ringAhead x.log x.head tail → t.cmdQueue q = { x with tail := tail }))) ∧
  (∀ (s : State) (view : Fin 17) (q : Fin 64) (v : Word), (s.cmdQueue q).view = 17 → exec (.sqDoorbell view q v) s = .next s)

/-- The first doorbell of queue 0, the ring heads, the setup registers of queue 0, and COMPLETION_POST. The first doorbell
of queue 0 after its setup enables queue 0 and completion ring 0 afresh with the setup values and takes its tail.
CQ_DOORBELL frees the entries up to a head that names posted ones, and sets DB_ERR for any other; EQ_DOORBELL frees
likewise, ignores any other head, and writes the OVERFLOW record first when events were dropped (over a link that is
not UP it is held, R473). An accepted Q0_SETUP_WRITE sets its register and disables queue 0 and its ring; while queue
0 is busy or for a value out of range it only sets DB_ERR. COMPLETION_POST writes the 32 bytes of the oldest command
of its queue, once it has completed and holds an entry or one is free, at the ring's next entry with the ring's phase,
moves the ring on, sends the interrupt when IRQ asks for it, and takes the command out of hand when no step could
repeat it; with nothing ready it changes nothing. -/
def Obligations.RingRowsMoveTheRings : Prop :=
  (∀ (s : State) (view : Fin 17) (v : Word), s.viewHolds view 0x10200 = true → (s.cmdQueue 0).view ≠ 17 → (s.cmdQueue 0).enabled = false →
    v.toNat % 65536 < 2 ^ s.host.qlog →
    ∃ t, exec (.sqDoorbell view 0 v) s = .next t ∧ t = { s with host := { s.host with queues := t.host.queues, crings := t.host.crings } } ∧
      t.cmdQueue 0 = { s.cmdQueue 0 with
        base := s.host.q0Base, log := s.host.qlog, cq := 0, head := 0, tail := v.toNat % 65536, enabled := true, stopped := false, seq := 0 } ∧
      (let r := smapGet ({} : CRing) t.host.crings 0
       r.base = s.host.c0Base ∧ r.log = s.host.clog ∧ r.post = 0 ∧ r.head = 0 ∧ r.used = 0 ∧ r.phase = true ∧ r.enabled = true ∧ r.stopped = false) ∧
      (∀ x, x ≠ 0 → t.cmdQueue x = s.cmdQueue x ∧ smapGet ({} : CRing) t.host.crings x = smapGet {} s.host.crings x)) ∧
  (∀ (s : State) (view : Fin 17) (c : Fin 64) (v : Word), s.viewHolds view (0x10300 + 4 * c) = true →
    ∃ t, exec (.cqDoorbell view c v) s = .next t ∧ t = { s with host := { s.host with crings := t.host.crings } } ∧
      (let r := smapGet ({} : CRing) s.host.crings c
       let n := ringAhead r.log r.head (v.toNat % 65536)
       smapGet {} t.host.crings c = if r.enabled = true ∧ v.toNat % 65536 < 2 ^ r.log ∧ n ≤ r.used then
         { r with head := v.toNat % 65536, used := r.used - n } else { r with dbErr := true }) ∧
      (∀ x, x ≠ c.val → smapGet ({} : CRing) t.host.crings x = smapGet {} s.host.crings x)) ∧
  (∀ (s : State) (view : Fin 17) (e : Fin 17) (v : Word), s.viewHolds view (0x10500 + 4 * e) = true →
    let r := smapGet ({} : ERing) s.host.erings e
    let n := ringAhead r.log r.head (v.toNat % 65536)
    ∃ t, exec (.eqDoorbell view e v) s = .next t ∧
      (r.enabled = false ∨ 2 ^ r.log ≤ v.toNat % 65536 ∨ r.used < n → r.fresh = 0 → t = { s with host := { s.host with erings := t.host.erings } } ∧
        smapGet {} t.host.erings e = r) ∧
      (r.enabled = true → v.toNat % 65536 < 2 ^ r.log → n ≤ r.used → r.fresh = 0 → t = { s with host := { s.host with erings := t.host.erings } } ∧
        smapGet {} t.host.erings e = { r with head := v.toNat % 65536, used := r.used - n }) ∧
      (r.enabled = true → v.toNat % 65536 < 2 ^ r.log → 0 < n → n ≤ r.used → r.used ≤ 2 ^ r.log → r.fresh ≠ 0 → r.stopped = false →
        t = { s with host := { s.host with erings := t.host.erings, held := t.host.held }, hostMem := t.hostMem, outbox := t.outbox } ∧
        t.hostMem = (if s.host.state = 2 then memWriteBytes s.hostMem (r.base + 64 * r.idx) (s.eventRec 13 1 e 0 r.phase (leBytes 4 r.fresh))
          else s.hostMem) ∧
        (smapGet ({} : ERing) t.host.erings e).fresh = 0 ∧ (smapGet ({} : ERing) t.host.erings e).used = r.used - n + 1) ∧
      (∀ x, x ≠ e.val → smapGet ({} : ERing) t.host.erings x = smapGet {} s.host.erings x)) ∧
  (∀ (s : State) (view : Fin 17) (reg : Fin 5) (v : Word), s.viewHolds view (0x10010 + 4 * reg) = true →
    (s.queueBusy 0 = true ∨ setupLegal reg v = false → ∃ t, exec (.q0SetupWrite view reg v) s = .next t ∧
      t = { s with host := { s.host with queues := t.host.queues } } ∧ t.cmdQueue 0 = { s.cmdQueue 0 with dbErr := true } ∧
      (∀ x, x ≠ 0 → t.cmdQueue x = s.cmdQueue x)) ∧
    (s.queueBusy 0 = false → setupLegal reg v = true → ∃ t, exec (.q0SetupWrite view reg v) s = .next t ∧
      t = { s with host := { s.host.setup reg v with queues := t.host.queues, crings := t.host.crings } } ∧
      t.cmdQueue 0 = { s.cmdQueue 0 with enabled := false } ∧
      smapGet {} t.host.crings 0 = { smapGet ({} : CRing) s.host.crings 0 with enabled := false } ∧
      (∀ x, x ≠ 0 → t.cmdQueue x = s.cmdQueue x ∧ smapGet ({} : CRing) t.host.crings x = smapGet {} s.host.crings x))) ∧
  (∀ (s : State) (q : Fin 64) (c : OutCmd), s.host.cmds.find? (fun c => c.hdr.queue == q && !c.posted) = some c → c.phase = .done → s.host.state = 2 →
    let ring := (s.cmdQueue q).cq
    let r := smapGet ({} : CRing) s.host.crings ring
    r.enabled = true → r.stopped = false → r.used < 2 ^ r.log → c.slot = true ∨ s.ringFree q = true → s.keepsPosted c = false →
    ∃ t, exec (.completionPost q) s = .next t ∧
      t = { s with host := { s.host with crings := t.host.crings, cmds := t.host.cmds }, hostMem := t.hostMem, outbox := t.outbox } ∧
      t.hostMem = memWriteBytes s.hostMem (r.base + 32 * r.post) (c.entry r.phase) ∧ (c.entry r.phase).length = 32 ∧
      t.host.cmds = s.host.cmds.filter (fun x => x.uid != c.uid) ∧
      t.outbox = s.outbox ++ (if c.hdr.irq then [.irq r.vec] else []) ∧
      smapGet {} t.host.crings ring = { r with
        post := if r.post + 1 = 2 ^ r.log then 0 else r.post + 1, used := r.used + 1, phase := if r.post + 1 = 2 ^ r.log then !r.phase else r.phase } ∧
      (∀ x, x ≠ ring → smapGet ({} : CRing) t.host.crings x = smapGet {} s.host.crings x)) ∧
  (∀ (s : State) (q : Fin 64), (∀ c, s.host.cmds.find? (fun c => c.hdr.queue == q && !c.posted) = some c → c.phase ≠ .done) →
    exec (.completionPost q) s = .next s)

/-- A register that a partition's view does not hold reads as zero, and a write to it is ignored. For every partition view
and every offset that the view does not hold: the register reads as zero, and each row that writes it leaves the state
as it is: the doorbells, the setup registers of queue 0, REGISTER_WRITE, the seed load, the locator re-arm, CLR_VIOL,
the check-value unit rows and IMAGE_PUSH. The two rows that read return zero to the host over Reilo and change nothing
else. -/
def Obligations.UnheldRegistersReadZeroAndIgnoreWrites : Prop :=
  ∀ (s : State) (view : Fin 17) (v : Word), view.val < 16 →
    (∀ o, s.viewHolds view o = false → s.readReg view o = 0 ∧ exec (.registerWrite view o v) s = .next s) ∧
    (∀ q : Fin 64, s.viewHolds view (0x10200 + 4 * q) = false → exec (.sqDoorbell view q v) s = .next s) ∧
    (∀ c : Fin 64, s.viewHolds view (0x10300 + 4 * c) = false → exec (.cqDoorbell view c v) s = .next s) ∧
    (∀ e : Fin 17, s.viewHolds view (0x10500 + 4 * e) = false → exec (.eqDoorbell view e v) s = .next s) ∧
    (∀ r : Fin 5, s.viewHolds view (0x10010 + 4 * r) = false → exec (.q0SetupWrite view r v) s = .next s) ∧
    (∀ t : Fin 1024, s.viewHolds view (tileOffset t 0x00C) = false → exec (.rngSeedLoad view t v) s = .next s) ∧
    (∀ t : Fin 1024, s.viewHolds view (tileOffset t 0x000) = false → exec (.fflRearm view (.tile t) v) s = .next s) ∧
    (∀ f : Fin 64, s.viewHolds view (fieldOffset f 0x0004) = false → exec (.fflRearm view (.field f) v) s = .next s) ∧
    (s.viewHolds view 0x03C = false → exec (.clrViol view v) s = .next s) ∧
    (s.viewHolds view 0x70010 = false → exec (.imagePush view v) s = .next s) ∧
    (∀ u : Fin 65, (s.viewHolds view (chkOffset u 0x00) = false → exec (.chkCfgWrite view u v) s = .next s) ∧
      (∀ r : Fin 6, s.viewHolds view (chkOffset u (0x10 + 4 * r)) = false → exec (.chkParamWrite view u r v) s = .next s) ∧
      (s.viewHolds view (chkOffset u 0x04) = false → exec (.chkRestart view u v) s = .next s) ∧
      (s.viewHolds view (chkOffset u 0x30) = false → exec (.chkData8 view u v) s = .next s) ∧
      (s.viewHolds view (chkOffset u 0x34) = false → exec (.chkData16 view u v) s = .next s) ∧
      (s.viewHolds view (chkOffset u 0x38) = false → exec (.chkData32 view u v) s = .next s) ∧
      (∀ hi : Bool, s.viewHolds view (chkOffset u (if hi then 0x44 else 0x40)) = false →
        exec (.chkResultRead view u hi) s = .next (s.tell .register (.regRead view (chkOffset u (if hi then 0x44 else 0x40)) 0)))) ∧
    (s.viewHolds view 0x20000 = false → exec (.bcnPosRead view) s = .next (s.tell .register (.regRead view 0x20000 0)))

/-- Loading a seed sets lane i to the seed XOR i times the golden constant, or to that constant when the result is zero.
RNG_SEED_LOAD from a view that holds the register, with a seed that is not zero, formed of the written high word and
the low word held: each of the 128 lanes takes the seed XOR ((i x 0x9E3779B97F4A7C15) mod 2^64), or 0x9E3779B97F4A7C15
when that is zero. SEED_HI takes the word, descriptors that have started keep the lanes they started with, and nothing
else changes. A zero seed changes nothing. -/
def Obligations.SeedLoadSetsEveryLane : Prop :=
  ∀ (s : State) (view : Fin 17) (tile : Fin 1024) (v : Word), s.viewHolds view (tileOffset tile 0x00C) = true →
    let seed : BitVec 64 := v ++ (s.tile tile).seedLo
    (seed = 0 → exec (.rngSeedLoad view tile v) s = .next s) ∧
    (seed ≠ 0 → ∃ t, exec (.rngSeedLoad view tile v) s = .next t ∧ t = { s with tiles := t.tiles } ∧ (∀ n, n ≠ tile.val → t.tile n = s.tile n) ∧
      t.tile tile = { s.tile tile with seedHi := v, lanes := (t.tile tile).lanes, seedGens := (t.tile tile).seedGens } ∧
      (t.tile tile).lanes.length = 128 ∧
      (∀ i, i < 128 → (t.tile tile).lanes.getD i 0 =
        let x := seed ^^^ BitVec.ofNat 64 (i * 0x9E3779B97F4A7C15)
        if x = 0 then 0x9E3779B97F4A7C15 else x) ∧
      (∃ live, (t.tile tile).seedGens = (s.tile tile).seedGens ++ [(live, lanesOr (s.tile tile).lanes)]))

/-- FFL_REARM, CLR_VIOL, BCN_POS_READ and REGISTER_WRITE. From a view that holds the register: FFL_REARM clears in the
named tile's or field's status exactly the bits written as one, and zeroes the locator when FFL_VALID was set and is
written, and changes nothing else. CLR_VIOL with its bit set zeroes VIOL_COUNT. BCN_POS_READ returns BCN_POS_LO and
latches step [47:32] and the phase into BCN_POS_HI. REGISTER_WRITE clears sticky bits only where a one is written
(MOD_FAULT, the seen bits of the fabric's flow errors), sets the low word of a tile's seed, and changes nothing at a
read-only register such as MOD_ID. -/
def Obligations.RegisterRowsThatActOnState : Prop :=
  (∀ (s : State) (view : Fin 17) (n : Fin 1024) (v : Word), s.viewHolds view (tileOffset n 0x000) = true →
    ∃ t, exec (.fflRearm view (.tile n) v) s = .next t ∧ t = { s with tiles := t.tiles } ∧ (∀ k, k ≠ n.val → t.tile k = s.tile k) ∧
      t.tile n = { s.tile n with meter := (t.tile n).meter } ∧
      (∀ i, i < 32 → (t.tile n).meter.status.getLsbD i = ((s.tile n).meter.status.getLsbD i && !(v.getLsbD i && decide (i < 9)))) ∧
      (t.tile n).meter.ffl = (if v.getLsbD bitFfl = true ∧ (s.tile n).meter.status.getLsbD bitFfl = true then {} else (s.tile n).meter.ffl) ∧
      (t.tile n).meter.cnt = (s.tile n).meter.cnt) ∧
  (∀ (s : State) (view : Fin 17) (f : Fin 64) (v : Word), s.viewHolds view (fieldOffset f 0x0004) = true →
    ∃ t, exec (.fflRearm view (.field f) v) s = .next t ∧ t = { s with fields := t.fields } ∧ (∀ k, k ≠ f.val → t.fld k = s.fld k) ∧
      t.fld f = { s.fld f with meter := (t.fld f).meter } ∧
      (∀ i, i < 32 → (t.fld f).meter.status.getLsbD i = ((s.fld f).meter.status.getLsbD i && !(v.getLsbD i && decide (i < 9)))) ∧
      (t.fld f).meter.ffl = (if v.getLsbD bitFfl = true ∧ (s.fld f).meter.status.getLsbD bitFfl = true then {} else (s.fld f).meter.ffl)) ∧
  (∀ (s : State) (view : Fin 17) (v : Word), s.viewHolds view 0x03C = true →
    exec (.clrViol view v) s = .next (if v.getLsbD 0 = true then { s with mods := { s.mods with violCount := 0 } } else s)) ∧
  (∀ (s : State) (view : Fin 17), s.viewHolds view 0x20000 = true →
    exec (.bcnPosRead view) s = .next (State.tell { s with bcn := { s.bcn with
      posHi := BitVec.ofNat 32 (s.bcn.step / 2 ^ 32 + s.bcn.phase * 2 ^ 16) } } .register (.regRead view 0x20000 (s.readReg view 0x20000)))) ∧
  (∀ (s : State) (view : Fin 17) (v : Word), s.viewHolds view 0x20 = true →
    ∃ t, exec (.registerWrite view 0x20 v) s = .next t ∧ t = { s with mods := { s.mods with fault := t.mods.fault } } ∧
      (∀ i, i < 32 → t.mods.fault.getLsbD i = (s.mods.fault.getLsbD i && !(v.getLsbD i && decide (i < 7))))) ∧
  (∀ (s : State) (view : Fin 17) (v : Word), s.viewHolds view 0x40804 = true →
    ∃ t, exec (.registerWrite view 0x40804 v) s = .next t ∧ t = { s with fab := { s.fab with
        retxSeen := s.fab.retxSeen && !v.getLsbD 0, failSeen := s.fab.failSeen && !v.getLsbD 1,
        staleSeen := s.fab.staleSeen && !v.getLsbD 2, unreachSeen := s.fab.unreachSeen && !v.getLsbD 3 } }) ∧
  (∀ (s : State) (view : Fin 17) (n : Fin 1024) (v : Word), s.viewHolds view (tileOffset n 0x008) = true → s.served n = true →
    ∃ t, exec (.registerWrite view (tileOffset n 0x008) v) s = .next t ∧ t = { s with tiles := t.tiles } ∧
      (∀ k, t.tile k = if k = n.val then { s.tile n with seedLo := v } else s.tile k)) ∧
  (∀ (s : State) (view : Fin 17) (v : Word), exec (.registerWrite view 0x000 v) s = .next s)

/-- A write to CHK_CFG with WIDTH 0 or above 64 is ignored as a whole and sets BADCFG. CHK_CFG_WRITE of such a WIDTH (the
low seven bits) to an idle unit that the view holds sets BADCFG of the unit and keeps the rest of it, its
configuration and REG included; no other unit and nothing else changes. Such a write that was held takes effect in the
same way, from any state of the unit. -/
def Obligations.BadCheckConfigurationIsIgnored : Prop :=
  ∀ (v : Word), (v.toNat % 128 = 0 ∨ 64 < v.toNat % 128) →
    (∀ (s : State) (view : Fin 17) (u : Fin 65), s.viewHolds view (chkOffset u 0x00) = true → (s.chkUnit u).busy = false →
      ∃ t, exec (.chkCfgWrite view u v) s = .next t ∧ t = { s with chk := t.chk } ∧
        (∀ x, t.chkUnit x = if x = u.val then { s.chkUnit u with badcfg := true } else s.chkUnit x)) ∧
    (∀ x : ChkUnit, x.apply 0x00 v = { x with badcfg := true })

/-- A write to the configuration, the polynomial, INIT, XOROUT, or of 1 to RESTART sets REG to INIT cut to the width. To
an idle unit that the view holds: CHK_CFG_WRITE of a legal WIDTH, each CHK_PARAM_WRITE, and CHK_RESTART with bit 0 set
leave REG equal to INIT mod 2^W of the configuration after the write. The CFG write sets WIDTH, REFIN and REFOUT and
keeps POLY, INIT and XOROUT; a parameter write replaces its half of its register and keeps the rest; a restart keeps
the configuration. Other units and the rest of the state stay. Writing INIT_LO and then INIT_HI ends with the full
64-bit INIT. -/
def Obligations.CheckValueWritesRestart : Prop :=
  ∀ (s : State) (view : Fin 17) (u : Fin 65) (v : Word), (s.chkUnit u).busy = false →
    (s.viewHolds view (chkOffset u 0x00) = true → v.toNat % 128 ≠ 0 → v.toNat % 128 ≤ 64 →
      ∃ t, exec (.chkCfgWrite view u v) s = .next t ∧ t = { s with chk := t.chk } ∧ (∀ x, x ≠ u.val → t.chkUnit x = s.chkUnit x) ∧
        t.chkUnit u = { s.chkUnit u with
          width := v.toNat % 128, refin := v.getLsbD 7, refout := v.getLsbD 8, reg := (s.chkUnit u).init % 2 ^ (v.toNat % 128) }) ∧
    (∀ r : Fin 6, s.viewHolds view (chkOffset u (0x10 + 4 * r)) = true →
      ∃ t, exec (.chkParamWrite view u r v) s = .next t ∧ t = { s with chk := t.chk } ∧ (∀ x, x ≠ u.val → t.chkUnit x = s.chkUnit x) ∧
        t.chkUnit u = { s.chkUnit u with
          poly := if r.val = 0 ∨ r.val = 1 then setHalf (s.chkUnit u).poly (r.val == 1) v else (s.chkUnit u).poly,
          init := if r.val = 2 ∨ r.val = 3 then setHalf (s.chkUnit u).init (r.val == 3) v else (s.chkUnit u).init,
          xorout := if r.val = 4 ∨ r.val = 5 then setHalf (s.chkUnit u).xorout (r.val == 5) v else (s.chkUnit u).xorout,
          reg := (t.chkUnit u).init % 2 ^ (s.chkUnit u).width }) ∧
    (s.viewHolds view (chkOffset u 0x04) = true → v.getLsbD 0 = true →
      ∃ t, exec (.chkRestart view u v) s = .next t ∧ t = { s with chk := t.chk } ∧ (∀ x, x ≠ u.val → t.chkUnit x = s.chkUnit x) ∧
        t.chkUnit u = { s.chkUnit u with reg := (s.chkUnit u).init % 2 ^ (s.chkUnit u).width }) ∧
    (∀ lo hi : Word, setHalf (setHalf (s.chkUnit u).init false lo) true hi = lo.toNat + hi.toNat * 2 ^ 32)

/-- The data rows begin to feed their bytes, CHK_FEED_DONE feeds them, a busy unit holds writes and stalls reads, and a
read answers the result. To a unit that the view holds: CHK_DATA8, CHK_DATA16 and CHK_DATA32 make an idle unit feed
one, two or four bytes, least significant first, and REG stays until they are fed; a write to a busy unit is held
behind those already held. CHK_FEED_DONE of a unit that holds no write and no read feeds its bytes in order and leaves
it idle. CHK_RESULT_READ of an idle unit answers the named half of the result, and a read of the low half latches the
high half; of a busy unit it is stalled. Other units and the rest of the state stay. Feeding bytes one after the other
divides as one message: the bits of a message enter REG most significant bit first. -/
def Obligations.CheckValueUnitsFeedAndAnswer : Prop :=
  (∀ (s : State) (view : Fin 17) (u : Fin 65) (v : Word) (k : Fin 3),
    let row := if k.val = 0 then Instr.chkData8 view u v else if k.val = 1 then .chkData16 view u v else .chkData32 view u v
    s.viewHolds view (chkOffset u (0x30 + 4 * k)) = true →
    ∃ t, exec row s = .next t ∧ t = { s with chk := t.chk } ∧ (∀ x, x ≠ u.val → t.chkUnit x = s.chkUnit x) ∧
      ((s.chkUnit u).busy = false → t.chkUnit u = { s.chkUnit u with feeding := (leBytes 4 v.toNat).take (2 ^ k.val) }) ∧
      ((s.chkUnit u).busy = true → t.chkUnit u = { s.chkUnit u with held := (s.chkUnit u).held ++ [(0x30 + 4 * k.val, v)] })) ∧
  (∀ (s : State) (u : Fin 65), (s.chkUnit u).held = [] → (s.chkUnit u).stalled = [] →
    ∃ t, exec (.chkFeedDone u) s = .next t ∧ t = { s with chk := t.chk } ∧ (∀ x, x ≠ u.val → t.chkUnit x = s.chkUnit x) ∧
      t.chkUnit u = { (s.chkUnit u).feeding.foldl ChkUnit.feed (s.chkUnit u) with feeding := [] } ∧ (t.chkUnit u).busy = false) ∧
  (∀ (s : State) (view : Fin 17) (u : Fin 65) (hi : Bool), s.viewHolds view (chkOffset u (if hi then 0x44 else 0x40)) = true →
    ((s.chkUnit u).busy = true → ∃ t, exec (.chkResultRead view u hi) s = .next t ∧ t = { s with chk := t.chk } ∧
      (∀ x, t.chkUnit x = if x = u.val then { s.chkUnit u with stalled := (s.chkUnit u).stalled ++ [(view.val, hi)] } else s.chkUnit x)) ∧
    ((s.chkUnit u).busy = false → ∃ t : State, t = { s with chk := t.chk } ∧
      (∀ x, t.chkUnit x = if x = u.val ∧ hi = false then { s.chkUnit u with resultHi := BitVec.ofNat 32 ((s.chkUnit u).result / 2 ^ 32) } else s.chkUnit x) ∧
      exec (.chkResultRead view u hi) s = .next (t.tell .register (.regRead view (chkOffset u (if hi then 0x44 else 0x40))
        (if hi then (s.chkUnit u).resultHi else BitVec.ofNat 32 (s.chkUnit u).result))))) ∧
  (∀ (x : ChkUnit) (b : Byte), x.refin = false → x.feed b =
    ((((((((x.feedBit (b.getLsbD 7)).feedBit (b.getLsbD 6)).feedBit (b.getLsbD 5)).feedBit (b.getLsbD 4)).feedBit (b.getLsbD 3)).feedBit
      (b.getLsbD 2)).feedBit (b.getLsbD 1)).feedBit (b.getLsbD 0))) ∧
  (∀ (x : ChkUnit) (b : Byte), x.refin = true → x.feed b =
    ((((((((x.feedBit (b.getLsbD 0)).feedBit (b.getLsbD 1)).feedBit (b.getLsbD 2)).feedBit (b.getLsbD 3)).feedBit (b.getLsbD 4)).feedBit
      (b.getLsbD 5)).feedBit (b.getLsbD 6)).feedBit (b.getLsbD 7)))

/-- The boot goes from LOADER_WAIT to READY by its six rows, each in its own phase only. IMAGE_PUSH of a one from the
privileged view in LOADER_WAIT asks in class BULK for the bytes that the three registers name, clears WAITING and
enters VERIFY. IMAGE_READ_DONE without every byte, or with a failing check, sets FAIL to the lowest failing check (2
for missing bytes), adds 1 to ATTEMPTS and waits for an image again; with every check good it keeps the image's SVN
and enters LOAD. FIRMWARE_LOAD_DONE enters CONFIG_WAIT. DRAM_TRAIN_DONE leaves each stack in service exactly the
channels that neither fuse, blob nor training takes out. BOOT_ZEROISE_DONE leaves every stack byte blank and every
other byte as it was. SELFTEST_DONE without a failing tile, with channels in every stack and 16 slots in every field,
reaches READY in RUN with its POWER event. Each changes nothing in any other phase, but that SELFTEST_DONE on the way
from RETAIN to RUN without a failing tile leaves the state as it is too, and with one whose field's spare is idle
gives its slot to the spare. What the hash and the signature answer are fixed functions that the spec leaves to a
standard (assumption 5). -/
def Obligations.BootRunsThroughItsPhases : Prop :=
  (∀ (s : State) (v : Word), s.power.phase = 1 → v.getLsbD 0 = true →
    exec (.imagePush 16 v) s = .next (State.tell { s with power := { s.power with phase := 2 }, sec := { s.sec with waiting := false } } (.bulk 16 64)
      (.hostRead (s.sec.addrLo.toNat + s.sec.addrHi.toNat * 2 ^ 32) s.sec.len.toNat))) ∧
  (∀ (s : State) (view : Fin 17) (v : Word), s.power.phase ≠ 1 ∨ v.getLsbD 0 = false ∨ view.val ≠ 16 → exec (.imagePush view v) s = .next s) ∧
  (∀ s : State, s.power.phase = 2 →
    exec (.imageReadDone none) s = .next (State.tell { s with
        power := { s.power with phase := 1 }, sec := { s.sec with fail := 2, attempts := min (s.sec.attempts + 1) 255, waiting := true } }
        .ring (.irq 0)) ∧
    (∀ data : List Byte, let bs := padTo s.sec.len.toNat data
      (∀ c, s.imageFail bs s.sec.len.toNat = some c → ∃ t, exec (.imageReadDone (some data)) s = .next t ∧
        t = State.tell { s with power := { s.power with phase := 1 }, sec := t.sec } .ring (.irq 0) ∧
        t.sec.fail = c ∧ t.sec.attempts = min (s.sec.attempts + 1) 255 ∧ t.sec.waiting = true ∧ t.sec.imageSvn = s.sec.imageSvn ∧
        (c ≠ 8 → t.sec.entries = s.sec.entries) ∧ (imageHeader bs s.sec.len.toNat = false → c = 1)) ∧
      (s.imageFail bs s.sec.len.toNat = none → ∃ t, exec (.imageReadDone (some data)) s = .next t ∧
        t = { s with power := { s.power with phase := 3 }, sec := t.sec } ∧ t.sec.imageSvn = bytesAt bs 8 4 ∧ t.sec.fail = s.sec.fail ∧
        s.fuses.minSvn ≤ bytesAt bs 8 4 ∧ imageHeader bs s.sec.len.toNat = true))) ∧
  (∀ s : State, exec .firmwareLoadDone s = .next (if s.power.phase = 3 then { s with power := { s.power with phase := 4 } } else s)) ∧
  (∀ (s : State) (failed : List (Nat × Nat)), s.power.phase = 5 →
    ∃ t, exec (.dramTrainDone failed) s = .next t ∧ t = { s with fields := t.fields, power := { s.power with phase := 6 } } ∧
      (∀ f c, f < 64 → (c ∈ (t.fld f).stack.good ↔
        c < 32 ∧ (s.fuseChans f).testBit c = false ∧ (s.fld f).stack.blobMap.testBit c = false ∧ (f, c) ∉ failed)) ∧
      (∀ f, { t.fld f with stack := (s.fld f).stack } = s.fld f)) ∧
  (∀ s : State, s.power.phase = 6 → ∃ t, exec .bootZeroiseDone s = .next t ∧ t = { s with mem := t.mem, power := { s.power with phase := 7 } } ∧
    (∀ a, memRead t.mem a = if a < 2 ^ 43 then blankByte else memRead s.mem a)) ∧
  (∀ s : State, s.power.phase = 7 → (∀ f, f < 64 → (s.fld f).stack.good ≠ [] ∧ (s.fld f).slots.length = 16) →
    ∃ t, exec (.selftestDone []) s = .next t ∧ t = { s with host := t.host, hostMem := t.hostMem, outbox := t.outbox, power := t.power, fields := t.fields } ∧
      t.power = { s.power with phase := 8, state := 1 } ∧ (∀ f, t.fld f = s.fld f)) ∧
  (∀ s : State, (∀ i, s.power.phase ≠ 2 → exec (.imageReadDone i) s = .next s) ∧ (∀ l, s.power.phase ≠ 5 → exec (.dramTrainDone l) s = .next s) ∧
    (s.power.phase ≠ 6 → exec .bootZeroiseDone s = .next s) ∧ (∀ l, s.power.phase ≠ 7 → s.leavesRetain = false ∨ l = [] → exec (.selftestDone l) s = .next s)) ∧
  (∀ (s : State) (f : Fin 64) (p : Fin 16), s.power.phase ≠ 7 → s.leavesRetain = true → (s.fld f).fenced = 0 → (s.fld f).spareUsed = false →
    (s.fld f).gone = false → (s.fld f).fcFenced = false →
    ∃ t, exec (.selftestDone [17 * f + p]) s = .next t ∧ t.power = s.power ∧ (t.fld f).fenced = 2 ^ p.val ∧ (t.fld f).serves p = some 16 ∧
      (t.fld f).factory = false ∧ (∀ g : Fin 64, g ≠ f → t.fld g = s.fld g))

/-- RESET, the rails and the input, POWER_REMOVED, the Reilo link's loss and return, and PSTAT. RESET with the control
rail good keeps the fuses, the stacks' bytes and the rails, starts the boot in LOADER_WAIT, and leaves no command,
partition or placement; the link is DOWN and holds the request for an image (R473). RAIL_GOOD_LOST of a rail that is
enabled and good sets PWRFLT, unless the core rail goes in RETAIN with RAILOFF_OK; RAIL_ENABLE_REMOVED of the core
rail in that state only takes the rail down, and of the DRAM rail sets PWRFLT; of the control rail it leaves the fuses
and what is outside the module. RAIL_ENABLE_ASSERTED brings the rail up. INPUT_OUT_OF_RANGE sets PWRFLT.
PG_CORE_RETURN clears RAILOFF_OK. POWER_REMOVED leaves the fuses. REILO_SILENCE of an UP link retrains it with
DOWN_SEEN; REILO_LINK_UP with the control rail good makes it UP with its lanes, at most 16, and sends every posting
that it held, once (R473), in an order (R474): SIDEBAND, REGISTER, RING, the completions that are ready with them,
BULK, and within BULK a shutter's export, then the moves of SERVE partitions, then the rest. Those of one class and
field keep their order, and among the last the fields take turns; that each turn begins at field 0 is the model's
choice (assumption 112). PSTAT stores what the HX-2 reports. The input's readings are free values (assumption 36), and
which registers a lost control rail keeps is the spec's R536. -/
def Obligations.RailsResetAndTheReiloLink : Prop :=
  (∀ s : State, s.power.pgCtl = true → ∃ t, exec .reset s = .next t ∧ t.fuses = s.fuses ∧ t.power.phase = 1 ∧ t.power.state = 0 ∧ t.power.req = none ∧
    t.power.pgCtl = true ∧ t.power.pgDram = s.power.pgDram ∧ t.power.pgCore = s.power.pgCore ∧ t.sec.waiting = true ∧ t.sec.count = 1 ∧
    (∀ a, memRead t.mem a = if a < 2 ^ 43 then memRead s.mem a else blankByte) ∧ t.hostMem = s.hostMem ∧ t.host = { held := [{ cls := .ring, msg := some (.irq 0) }] } ∧ t.parts = [] ∧
    t.place = {} ∧ t.tiles = [] ∧ t.chk = [] ∧ t.fab = {} ∧ t.bcn = {} ∧ t.outer = {} ∧ t.mods = {} ∧ t.outbox = s.outbox ∧ t.pending = s.pending) ∧
  (∀ s : State, s.power.pgCtl = false → exec .reset s = .next s) ∧
  (∀ (s : State) (r : Fin 3), let p := s.power
    ∃ t, exec (.railGoodLost r) s = .next t ∧ t = { s with host := t.host, hostMem := t.hostMem, outbox := t.outbox, power := t.power } ∧
      t.power.good r = false ∧ (∀ x : Fin 3, x ≠ r → t.power.good x = p.good x) ∧ (∀ x : Fin 3, t.power.enabled x = p.enabled x) ∧
      (p.enabled r = true → p.good r = true → ¬ (r = 2 ∧ p.railoffOk = true) → t.power.pwrflt = true) ∧
      (p.enabled r = false ∨ p.good r = false ∨ r = 2 ∧ p.railoffOk = true → t = { s with power := p.setGood r false })) ∧
  (∀ (s : State), let p := s.power
    (p.railoffOk = true → exec (.railEnableRemoved 2) s = .next { s with power := { p with penCore := false, pgCore := false } }) ∧
    (p.penDram = true → ∃ t, exec (.railEnableRemoved 1) s = .next t ∧ t = { s with host := t.host, hostMem := t.hostMem, outbox := t.outbox, power := t.power } ∧
      t.power = { p with penDram := false, pgDram := false, pwrflt := true }) ∧
    (∃ t, exec (.railEnableRemoved 0) s = .next t ∧ t.fuses = s.fuses ∧ t.mem = [] ∧ t.hostMem = s.hostMem ∧ t.host = {} ∧ t.parts = [] ∧ t.tiles = [] ∧
      t.chk = [] ∧ t.power.penCtl = false ∧ t.power.pgCtl = false ∧ t.power.on = false ∧ t.power.pgDram = p.pgDram ∧ t.power.pgCore = p.pgCore)) ∧
  (∀ (s : State) (r : Fin 3), ∃ t, exec (.railEnableAsserted r) s = .next t ∧ t = { s with power := t.power, fresh := s.fresh + 1 } ∧
    t.power.enabled r = true ∧ t.power.good r = true ∧ (∀ x : Fin 3, x ≠ r → t.power.enabled x = s.power.enabled x ∧ t.power.good x = s.power.good x) ∧
    (r = 2 → t.power.railoffOk = false) ∧ (r = 0 → t.power.on = true)) ∧
  (∀ s : State, ∃ t, exec .inputOutOfRange s = .next t ∧ t.power.pwrflt = true ∧
    t = { s with host := t.host, hostMem := t.hostMem, outbox := t.outbox, power := t.power, fresh := s.fresh + 1 } ∧
    t.power = { s.power with pwrflt := true, vin := t.power.vin, pin := t.power.pin }) ∧
  (∀ s : State, s.power.penCore = true → exec .pgCoreReturn s = .next { s with power := { s.power with pgCore := true, railoffOk := false } }) ∧
  (∀ s : State, ∃ t, exec .powerRemoved s = .next t ∧ t.fuses = s.fuses ∧ t.mem = [] ∧ t.hostMem = s.hostMem ∧ t.host = {} ∧ t.parts = [] ∧ t.tiles = [] ∧
    t.chk = [] ∧ t.power.on = false ∧ t.power.pgCtl = false ∧ t.power.pgDram = false ∧ t.power.pgCore = false ∧ t.power.pwrflt = false) ∧
  (∀ s : State, exec .reiloSilence s = .next (if s.host.state = 2 then { s with host := { s.host with state := 1, downSeen := true } } else s)) ∧
  (∀ (s : State) (n : Nat), s.power.pgCtl = true →
    exec (.reiloLinkUp n) s = .next (State.release { s with host := { s.host with state := 2, lanesOk := min n 16 } })) ∧
  (∀ (s : State) (x : Posting), s.post x =
    if s.host.state = 2 then s.handOver x else { s with host := { s.host with held := s.host.held ++ [x] } }) ∧
  (∀ (s : State) (a b : Nat), exec (.pstat a b) s = .next { s with power := { s.power with railsHx2 := a, reqHx2 := b } }) ∧
  (∀ (s : State) (n : Nat), s.power.pgCtl = true →
    let rank := fun (x : Posting) => match x.cls with
      | .sideband => 0 | .register => 1 | .ring => 2 | .shutter => 3 | .bulk p _ => if s.serves p then 4 else 5
    let ofField := fun (f : Nat) (x : Posting) => match x.cls with | .bulk p g => !s.serves p && g == f | _ => false
    let laid := fun (m : Memory) (ys : List Posting) => ys.foldl (fun m y => match y.data with | some d => memWriteBytes m d.1 d.2 | none => m) m
    ∃ (t u : State) (xs ys zs : List Posting), exec (.reiloLinkUp n) s = .next t ∧ xs = ys ++ zs ∧ xs.Perm s.host.held ∧
      (∀ y ∈ ys, rank y ≤ 2) ∧ (∀ z ∈ zs, 3 ≤ rank z) ∧
      u = State.postReady { s with
        host := { s.host with state := 2, lanesOk := min n 16, held := [] }, hostMem := laid s.hostMem ys, outbox := s.outbox ++ ys.filterMap (fun y => y.msg) } ∧
      t = { u with hostMem := laid u.hostMem zs, outbox := u.outbox ++ zs.filterMap (fun z => z.msg) } ∧
      xs.Pairwise (fun x y => rank x ≤ rank y) ∧ (∀ c, xs.filter (fun x => x.cls == c) = s.host.held.filter (fun x => x.cls == c)) ∧
      (∀ pre x post, xs = pre ++ x :: post → ∀ f, ofField f x = true →
        ∀ g, pre.countP (ofField g) ≤ pre.countP (ofField f) + 1 ∧ (post.any (ofField g) = true → pre.countP (ofField f) ≤ pre.countP (ofField g))))

/-- Reset, ZEROISE, RETAIN and OFF empty the tile queues and the semaphores; reset, OFF and ZEROISE reset the check-value
units, RETAIN keeps them. After RESET with the control rail good, after POWER_REMOVED, and after POWER_STATE_REACHED
into RETAIN, all four queues of every tile are empty and every semaphore is 0; so they are in every tile of the
partition when SHUTTER_EXPORT_DONE or EXPORT_CUT_TIMER begins ZEROISE, where the queues' DSEQ goes on counting (R184).
Reset and OFF return every check-value unit to its reset configuration, with REG equal to INIT and BADCFG 0; RETAIN
keeps every unit; ZEROISE resets the unit of the partition, held writes included, and no other. -/
def Obligations.ResetsEmptyQueuesAndUnits : Prop :=
  (∀ s t : State, (exec .reset s = .next t ∧ s.power.pgCtl = true) ∨ exec .powerRemoved s = .next t →
    (∀ n q i, (t.tile n).queue q = {} ∧ smapGet 0 (t.tile n).sems i = 0) ∧
    (∀ u, t.chkUnit u = {} ∧ (t.chkUnit u).reg = (t.chkUnit u).init ∧ (t.chkUnit u).badcfg = false)) ∧
  (∀ (s t : State) (uid : Nat), s.power.req = some (3, uid) → exec .powerStateReached s = .next t →
    (∀ n q i, (t.tile n).queue q = {} ∧ smapGet 0 (t.tile n).sems i = 0) ∧ (∀ u, t.chkUnit u = s.chkUnit u)) ∧
  (∀ (s t : State) (pid : Fin 16) (j : ShutterJob) (feed : Feed) (n b : Nat) (ev : Instr), smapFind s.shutters pid.val = some j → (s.part pid.val).phase = 4 →
    (ev = .shutterExportDone pid feed ∧ s.flowsDone j.uid = true ∨ ev = .exportCutTimer pid n b ∧ j.p.cut = 1 ∧ n < j.p.entries.length) →
    exec ev s = .next t →
    (∀ k q i, k / 16 ∈ (s.part pid.val).fields → (t.tile k).queue q = { nextSeq := ((s.tile k).queue q).nextSeq } ∧ smapGet 0 (t.tile k).sems i = 0) ∧
    (∀ u, t.chkUnit u = if u = pid.val + 1 then {} else s.chkUnit u)) ∧
  (∀ s : State, (s.power.pgCtl = true → ∃ t, exec .reset s = .next t) ∧ (∃ t, exec .powerRemoved s = .next t) ∧ (∃ t, exec .powerStateReached s = .next t))

/-- READY, STEP_BEGIN, the marks, DONE, COMMIT and EVAL_SLOT advance the position and nothing out of turn does.
READY_CONTRIBUTE of a placed module in place for the step, with nothing to refill and its own conditions met, marks it
READY for the step and contributes the digest of its mark table; where the step does not fit, or it has already done
so, it changes nothing. STEP_BEGIN_DELIVERY of the step a module is READY for puts it at that step, begun and running,
RECOVERING cleared, with waiting settings in force and every activation entry marked for removal in a training
partition gone; ATTEMPT goes on after an abort and starts at 0 otherwise. MARK_DELIVERY of a reached island-scope mark
of the step moves the position to its phase or past it. DONE_CONTRIBUTE with every mark reached and every field done
marks the contribution. COMMIT_DELIVERY puts the position at 0xF000 and adds the duration to the last 64.
EVAL_SLOT_DELIVERY puts it at 0xF800 and lets a waiting stop take effect. What would abort the step is left out: a
second residue mismatch in a segment kept for a collective, and a ring shut both ways towards a member. Out of turn
each changes nothing. -/
def Obligations.StepCycleRowsAdvanceTheStep : Prop :=
  (∀ (s : State) (step : Nat), s.place.placed = true → s.bcn.readyFor step = true → (s.bcn.ready = false ∨ s.bcn.readyStep ≠ step) →
    (∀ f, f ∈ s.trainFields → (s.fld f).refill = []) → s.readyHere step = true →
    ∃ t, exec (.readyContribute step) s = .next t ∧ t.bcn.ready = true ∧ t.bcn.readyStep = step ∧ t.bcn.step = s.bcn.step ∧ t.mem = s.mem ∧
      t.tiles = s.tiles ∧ t.fuses = s.fuses ∧
      (s.isKeeper = false → s.children = [] → ∀ p, s.parent = some p → (∀ r ∈ s.bcn.rounds, r.key ≠ 3) → s.bcn.rounds.length < 16 → s.bcn.waits = [] →
        let out := s.flareSend p { op := 5, key := 3, index := 0, step := step, attempt := s.bcn.attempt, payload := readyPayload s.bcn.table }
        t.fab = out.fab ∧ t.outbox = out.outbox) ∧
      (s.isKeeper = true → s.children = [] → s.bcn.rounds.length < 16 → s.bcn.waits = [] → s.bcn.hold = false → s.outer.state ≠ 4 → step < 2 ^ 48 → s.bcn.startReq = none → s.bcn.ext = false →
        t.bcn.running = true ∧
        t.outbox = s.outbox ++ [.broadcast { op := 7, key := 3, index := 0, step := step, attempt := s.bcn.attempt, payload := [] }])) ∧
  (∀ (s : State) (step : Nat), s.place.placed = false ∨ s.bcn.readyFor step = false ∨ (s.bcn.ready = true ∧ s.bcn.readyStep = step) →
    exec (.readyContribute step) s = .next s) ∧
  (∀ (s : State) (step site : Nat), s.place.placed = true → s.bcn.ready = true → s.bcn.readyStep = step → s.bcn.readyFor step = true →
    (∀ g ∈ s.fab.earlySegs, g.bad < 2) → joined s →
    ∃ t, exec (.stepBeginDelivery step site) s = .next t ∧ t.bcn.step = step ∧ t.bcn.begun = true ∧ t.bcn.running = true ∧ t.bcn.recovering = false ∧
      t.bcn.ready = false ∧ t.bcn.doneSent = false ∧ t.bcn.beginSite = site ∧
      t.bcn.attempt = (if s.bcn.recovering = true ∨ s.bcn.abandoned = some step then s.bcn.attempt else 0) ∧
      t.bcn.table = s.bcn.pendTable.getD s.bcn.table ∧ t.bcn.pendTable = s.bcn.lateTable ∧ t.bcn.lateTable = none ∧
      t.bcn.keeperId = (match s.bcn.pendKeeper with | some k => k.1 | none => s.bcn.keeperId) ∧ t.bcn.pendKeeper = s.bcn.lateKeeper ∧ t.bcn.lateKeeper = none ∧ t.bcn.pendWdog = none ∧
      (∀ w, s.bcn.pendWdog = some w → t.bcn.mult = w.mult ∧ t.bcn.initMs = w.initMs ∧ t.bcn.limit = w.limit) ∧
      (∀ e ∈ t.acts, ¬ (e.2.removing = true ∧ (s.part (e.1 / 1024)).train = true)) ∧
      t.place.size = (if s.place.size = 0 then s.blob.members.length else s.place.size) ∧ t.fuses = s.fuses) ∧
  (∀ (s : State) (step site : Nat), s.place.placed = false ∨ s.bcn.ready = false ∨ s.bcn.readyStep ≠ step ∨ s.bcn.begun = true →
    exec (.stepBeginDelivery step site) s = .next s) ∧
  (∀ (s : State) (n : Fin 32), let b := s.bcn
    (b.begun = true → 1 ≤ n.val → n.val ≤ 29 → markDef b.table n = true → markIsland b.table n = true → b.reached.testBit n = true →
      b.phase < markPhase b.table n → (∀ g ∈ s.fab.earlySegs, g.bad < 2) → joined s →
      ∃ t, exec (.markDelivery b.step n) s = .next t ∧ markPhase b.table n ≤ t.bcn.phase ∧ t.bcn.step = b.step ∧ t.bcn.begun = true ∧ t.fuses = s.fuses) ∧
    (∀ step, b.begun = false ∨ step ≠ b.step ∨ n.val = 0 ∨ 29 < n.val ∨ markIsland b.table n = false ∨ b.reached.testBit n = false ∨
      markPhase b.table n ≤ b.phase → exec (.markDelivery step n) s = .next s)) ∧
  (∀ s : State, s.bcn.begun = true → s.bcn.doneSent = false → (∀ n, 1 ≤ n → n ≤ 29 → markDef s.bcn.table n = true → s.bcn.reached.testBit n = true) →
    (∀ f ∈ s.trainFields, s.fieldDone f = true) → s.actsDone = true →
    ∃ t, exec .doneContribute s = .next t ∧ t.bcn.doneSent = true ∧ t.bcn.step = s.bcn.step ∧ t.bcn.phase = s.bcn.phase ∧ t.mem = s.mem ∧ t.tiles = s.tiles ∧
      t.fields = s.fields ∧ (s.isKeeper = false → s.children = [] → s.outer.fed = none → (∀ r ∈ s.bcn.rounds, r.key ≠ 1) → s.bcn.rounds.length < 16 → s.bcn.waits = [] →
        ∀ p, s.parent = some p →
        let out := s.flareSend p { op := 0, key := 1, index := 0, step := s.bcn.step, attempt := s.bcn.attempt, payload := [] }
        t.fab = out.fab ∧ t.outbox = out.outbox)) ∧
  (∀ s : State, s.bcn.begun = false ∨ s.bcn.doneSent = true → exec .doneContribute s = .next s) ∧
  (∀ (s : State) (dur : Nat), s.bcn.begun = true → s.bcn.doneSent = true →
    ∃ t, exec (.commitDelivery s.bcn.step dur) s = .next t ∧ t.bcn.step = s.bcn.step ∧ t.bcn.phase = 0xF000 ∧ t.bcn.topMark = 30 ∧ t.bcn.begun = false ∧
      t.bcn.decided = true ∧ t.bcn.sinceStart = true ∧ t.bcn.durs = (s.bcn.durs ++ [dur]).drop (s.bcn.durs.length + 1 - 64) ∧ t.fuses = s.fuses) ∧
  (∀ (s : State) (step dur : Nat), s.bcn.begun = false ∨ s.bcn.doneSent = false ∨ step ≠ s.bcn.step → exec (.commitDelivery step dur) s = .next s) ∧
  (∀ s : State, s.bcn.begun = false → s.bcn.phase = 0xF000 → (∀ g ∈ s.fab.earlySegs, g.bad < 2) →
    ∃ t, exec (.evalSlotDelivery s.bcn.step) s = .next t ∧ t.bcn.phase = 0xF800 ∧ t.bcn.topMark = 31 ∧ t.bcn.step = s.bcn.step ∧
      t.bcn.hold = (s.bcn.hold || s.bcn.stopReq) ∧ (s.bcn.waits = [] → t.bcn.running = (s.bcn.running && !s.bcn.stopReq)) ∧ t.bcn.stopReq = false ∧ t.fuses = s.fuses) ∧
  (∀ (s : State) (step : Nat), s.bcn.begun = true ∨ step ≠ s.bcn.step ∨ s.bcn.phase ≠ 0xF000 → exec (.evalSlotDelivery step) s = .next s)

/-- Frames and flare frames are laid out as their tables say; flare frames combine or pass on; the floods of ABORT and
FENCE take effect once. Every frame that fits R308 reads back from its bytes, whose header has 28, and every flare
frame that fits R345 from the frame of VL0 that carries it. FLARE_FRAME_RX on a port that is not UP changes nothing; a
frame that the link does not accept has the link's effect alone (R309); one that it accepts moves the expected LSEQ
on, and in a placed module a broadcast goes to every child; one that stops or abandons the step acts, one for a
BARRIER is kept under the rank that sent it, a rank's goes on to the parent; a contribution of another attempt sets
STALE_SEEN and is dropped, and the last child's contribution to a round whose own value is present goes to the parent
combined with it, the own value as the left operand. ABORT_FLOOD_RX, its first copy, goes on over every other UP port;
for the present step and attempt, when an abort can take effect, no COMMIT can be under way (assumption 121) and LIMIT
is not passed, it adds 1 to ATTEMPT and to the abort counts, puts the position at (s, STEP_BEGIN) RECOVERING, empties
the queues of the training partition's tiles with semaphores and lanes as saved, and clears its gradient areas; every
other tile stays. For the step that the module is READY for and has not begun it enters RECOVERING with ATTEMPT one
up, its tiles' arrays, rows, records and counts gone; for another it does nothing more; a later copy only sets
ABORT_SEEN. FENCE_FLOOD_RX of a new pair is kept and goes on over every other UP port; a known pair changes nothing
but the link. How VL0 frames and floods fill the header is the model's (assumptions 24, 28, 108). -/
def Obligations.FlareFramesAndFloods : Prop :=
  (∀ f : FabFrame, FabFrame.wf f = true → fabOf (fabBytes f) = some f ∧ (fabHeader f).length = 28) ∧
  (∀ (f : FlareFrame) (a b : Nat), FlareFrame.wf f = true → flareOf (flareFab a b f) = f ∧ flareArg f < 2 ^ 64 ∧ (flareFab a b f).vl = 0 ∧
    (a < 1024 → b < 1024 → FabFrame.wf (flareFab a b f) = true)) ∧
  (∀ (s : State) (port : Fin 8) (f : FabFrame), (s.port port).state ≠ 2 → exec (.flareFrameRx port f) s = .next s) ∧
  (∀ (s : State) (port : Fin 8) (f : FabFrame), f.lseq ≠ (s.port port).rxNext ∨ f.typ = 2 ∨ f.typ = 3 ∨ s.place.placed = false ∨ f.vl ≠ 0 →
    exec (.flareFrameRx port f) s = .next (s.linkAccept port f).1) ∧
  (∀ (s : State) (port : Fin 8) (f : FabFrame), s.place.placed = true → (s.port port).state = 2 → f.typ < 2 → f.vl = 0 → f.lseq = (s.port port).rxNext →
    let r := (s.linkAccept port f).1
    let g := flareOf f
    let down := r.forAll r.children (fun s p => s.flareSend p g)
    (r.port port).rxNext = (f.lseq + 1) % 4096 ∧ (r.port port).nakOut = false ∧ r.bcn.attempt = s.bcn.attempt ∧
    (g.op = 7 → g.key ≤ 10 → g.key ≠ 9 → g.key ≠ 7 → exec (.flareFrameRx port f) s = .next down) ∧
    (g.op = 7 → g.key = 7 → g.index = 0 → exec (.flareFrameRx port f) s = .next { down with
      bcn := if down.bcn.begun = true ∨ down.bcn.phase = 0xF000 then { down.bcn with stopReq := true } else { down.bcn with running := false } }) ∧
    (g.op = 7 → g.key = 7 → g.index = 1 ∨ g.index = 2 → exec (.flareFrameRx port f) s = .next (
      if down.bcn.recovering = true ∧ g.step = down.bcn.step then down.abandonStep (if g.index = 1 then stAbStep else stAbShutter) else down)) ∧
    (g.key = 9 → g.attempt = s.bcn.attempt → (∀ j ∈ r.fab.jobs, j.p.group ≠ g.index) →
      (∀ c ∈ r.host.cmds, c.phase = .running → opcodeOf c.body ≠ 0x0502) →
      (g.op = 7 → let pass := r.forAll r.children (fun s p => s.flarePass p f)
        exec (.flareFrameRx port f) s = .next { pass with fab := { pass.fab with
          barriers := smapModify [] pass.fab.barriers (barrierKey g.index f.epoch) (fun l => if l.contains f.src then l else l ++ [f.src]) } }) ∧
      (g.op = 0 → r.isKeeper = false → ∀ p, r.parent = some p → exec (.flareFrameRx port f) s = .next (r.flarePass p f))) ∧
    (g.op ≤ 6 → g.key ≤ 8 → g.attempt ≠ s.bcn.attempt → exec (.flareFrameRx port f) s = .next { r with bcn := { r.bcn with staleSeen := true } }) ∧
    (∀ (rd : FlareRound) (own : List Byte) (p : Nat), g.op ≤ 6 → g.key ≤ 5 → g.attempt = s.bcn.attempt → r.children = [port.val] → r.isKeeper = false →
      r.parent = some p → r.bcn.rounds = [rd] → r.bcn.waits = [] → rd.isFor g = true → rd.own = some own → rd.kids = [] → rd.sent = false →
      ∃ rs, exec (.flareFrameRx port f) s = .next (State.flareSend { r with bcn := { r.bcn with rounds := rs } } p
        { g with payload := flareCombine rd.op own g.payload }))) ∧
  (∀ (s : State) (port : Fin 8) (step att m p : Nat), s.place.placed = false ∨ (s.port port).state ≠ 2 →
    exec (.abortFloodRx port step att) s = .next s ∧ exec (.fenceFloodRx port m p) s = .next s) ∧
  (∀ (s : State) (port : Fin 8) (p : Nat), s.place.placed = true → (s.port port).state = 2 → s.canAbort = true → s.trainPart = some p →
    s.bcn.aborts + 1 ≤ s.bcn.limit → (s.bcn.step, s.bcn.attempt) ∉ s.bcn.floods → s.isKeeper = true ∨ s.bcn.begun = false ∨ s.bcn.doneSent = false →
    let f := abortFrame s.bcn.step s.bcn.attempt
    let out := (s.flareTook port f).floodFrom (some port.val) f
    ∃ t, exec (.abortFloodRx port s.bcn.step s.bcn.attempt) s = .next t ∧ t.outbox = out.outbox ∧ t.fab.ports = out.fab.ports ∧
      t.bcn.step = s.bcn.step ∧ t.bcn.attempt = (s.bcn.attempt + 1) % 256 ∧ t.bcn.phase = 0 ∧ t.bcn.recovering = true ∧ t.bcn.begun = false ∧
      t.bcn.abortSeen = true ∧ t.bcn.aborts = s.bcn.aborts + 1 ∧ t.mods.aborts = min (s.mods.aborts + 1) 65535 ∧
      (∀ n q, n / 16 ∈ s.trainFields → ((t.tile n).queue q).source = [] ∧ ((t.tile n).queue q).ring = [] ∧ ((t.tile n).queue q).started = []) ∧
      (∀ n, n / 16 ∈ s.trainFields → (t.tile n).sems = (s.tile n).savedSems ∧ (t.tile n).lanes = (s.tile n).savedLanes) ∧
      (∀ n, n / 16 ∉ s.trainFields → t.tile n = s.tile n) ∧
      (∀ f g i, f ∈ s.trainFields → g ∈ (s.fld f).groups → i < 4 * g.2.p.nelem → memRead t.mem (redBase f + g.2.p.gbase + i) = blankByte) ∧
      (∀ a, (∀ f g, f ∈ s.trainFields → g ∈ (s.fld f).groups → a < redBase f + g.2.p.gbase ∨ redBase f + g.2.p.gbase + 4 * g.2.p.nelem ≤ a) →
        memRead t.mem a = memRead s.mem a) ∧ t.fuses = s.fuses) ∧
  (∀ (s : State) (port : Fin 8) (step att : Nat), s.place.placed = true → (s.port port).state = 2 →
    let f := abortFrame step att
    let took := (s.flareTook port f).modBcn (fun b => { b with abortSeen := true })
    let on := (took.modBcn (fun b => b.sawFlood step att)).floodFrom (some port.val) f
    ((step, att) ∈ s.bcn.floods → exec (.abortFloodRx port step att) s = .next took) ∧
    ((step, att) ∉ s.bcn.floods → step ≠ s.bcn.step → s.bcn.awaitsStep step att = false → exec (.abortFloodRx port step att) s = .next on) ∧
    ((step, att) ∉ s.bcn.floods → step ≠ s.bcn.step → s.bcn.awaitsStep step att = true →
      ∃ t, exec (.abortFloodRx port step att) s = .next t ∧ t = { on with
            bcn := t.bcn, mods := { s.mods with aborts := min (s.mods.aborts + 1) 65535 }, fab := t.fab, fields := t.fields, tiles := t.tiles } ∧
        t.fab.ports = on.fab.ports ∧ (∀ n, t.tile n = if n / 16 ∈ s.trainFields then (s.tile n).missed else s.tile n) ∧
        (∀ f, f ∉ s.trainFields → t.fld f = s.fld f) ∧
        t.bcn.step = step ∧ t.bcn.attempt = (att + 1) % 256 ∧ t.bcn.phase = 0 ∧ t.bcn.recovering = true ∧ t.bcn.missed = true ∧ t.bcn.begun = false ∧
        t.bcn.ready = false ∧ t.bcn.aborts = 1)) ∧
  (∀ (s : State) (port : Fin 8) (m p : Nat), s.place.placed = true → (s.port port).state = 2 →
    let f := fenceFrame m p s.bcn.step s.bcn.attempt
    let took := s.flareTook port f
    let on := took.floodFrom (some port.val) f
    ((m, p) ∈ s.bcn.fences → exec (.fenceFloodRx port m p) s = .next took) ∧
    ((m, p) ∉ s.bcn.fences → ∃ t, exec (.fenceFloodRx port m p) s = .next t ∧ t.bcn.fences = on.bcn.fences ++ [(m, p)] ∧
        (on.bcn.rounds = [] → on.bcn.waits = [] → (∀ j ∈ on.fab.jobs, j.op = 6 → j.started = false) → t = { on with bcn := { on.bcn with fences := on.bcn.fences ++ [(m, p)] }, place := t.place })))

/-- SCALAR_DELIVERY, STEER_ROUND_RESULT, NSUMMARY_PROPAGATE, STEP_OVERDUE, site time and ADVANCE. SCALAR_DELIVERY at a
placed module keeps the value for its step behind those already kept. STEER_ROUND_RESULT gives the decided rung to
exactly the awaiting slot of every training field, one rung up when the losses of the present format pass T_HI, one
down when those of the narrower format are below T_LO, within the slot's range, from the second STEP_BEGIN after the
window. NSUMMARY_PROPAGATE joins the bits that the tile has not passed on to those of its field, and marks them told.
STEP_OVERDUE past the limit sets OVERDUE once; below it, or outside a step, it changes nothing. PPS_EDGE latches the
count; SITE_MESSAGE after an edge sets the time, valid unless it is off by more than 1 microsecond; SITE_TIMEOUT makes
it invalid. ADVANCE of the keeper in EXT mode broadcasts the STEP_BEGIN that waits. Nothing else changes. The rung of
an unpinned slot at rung 3 is a free value (assumption 34). -/
def Obligations.StepLineEvents : Prop :=
  (∀ (s : State) (slot : Fin 8) (v : F32) (step : Nat), exec (.scalarDelivery slot v step) s =
    .next (if s.place.placed = true then { s with bcn := { s.bcn with scalNext := s.bcn.scalNext ++ [(slot.val, v, step)] } } else s)) ∧
  (∀ (s : State) (slot : Fin 64) (counts : List Nat),
    ∃ t, exec (.steerRoundResult slot counts) s = .next t ∧
      (let e := if 0xF000 ≤ s.bcn.phase then s.bcn.step else s.bcn.step - 1
       let u := s.roundOver 5 slot e
       t = { u with fields := t.fields } ∧ u.fields = s.fields ∧
       (s.bcn.waits = [] → u = { s with bcn := { s.bcn with rounds := u.bcn.rounds, roundCount := u.bcn.roundCount } })) ∧
      (∀ f, { t.fld f with steer := (s.fld f).steer } = s.fld f) ∧ (∀ f, f ∉ s.trainFields → t.fld f = s.fld f) ∧
      (∀ f, f ∈ s.trainFields → slot.val ∉ (s.fld f).steer.awaited → t.fld f = s.fld f) ∧
      (∀ f, f ∈ s.trainFields → slot.val ∈ (s.fld f).steer.awaited →
        let k := (s.fld f).steer
        let x := smapGet ({} : SteerSlot) k.slots slot
        let y := smapGet ({} : SteerSlot) (t.fld f).steer.slots slot
        let lost := (counts.getD 1 0 + counts.getD 2 0) * 2 ^ 24
        let narrow := (counts.getD 3 0 + counts.getD 4 0) * 2 ^ 24
        let e := if 0xF000 ≤ s.bcn.phase then s.bcn.step else s.bcn.step - 1
        (t.fld f).steer.awaited = k.awaited.filter (fun n => n != slot.val) ∧
        (∀ n, n ≠ slot.val → smapGet ({} : SteerSlot) (t.fld f).steer.slots n = smapGet ({} : SteerSlot) k.slots n) ∧
        (x.pinned = true ∨ counts.getD 0 0 = 0 → y = x) ∧
        let r := if x.pending = true then x.pendRung else x.rung
        let moved := fun (n : Nat) => if x.pending = true then { x with queued := some (n, e + 2) }
          else { x with pendRung := n, pending := true, pendStep := e + 2 }
        (x.pinned = false → counts.getD 0 0 ≠ 0 → k.tHi * counts.getD 0 0 < lost → r < x.maxRung → y = moved (r + 1)) ∧
        (x.pinned = false → counts.getD 0 0 ≠ 0 → lost ≤ k.tHi * counts.getD 0 0 → narrow < k.tLo * counts.getD 0 0 → x.minRung < r → y = moved (r - 1)) ∧
        (lost ≤ k.tHi * counts.getD 0 0 ∨ x.maxRung ≤ r → k.tLo * counts.getD 0 0 ≤ narrow ∨ r ≤ x.minRung → y = x))) ∧
  (∀ (s : State) (n : Fin 1024), s.served n = true →
    ∃ t, exec (.nsummaryPropagate n) s = .next t ∧ t = { s with tiles := t.tiles, fields := t.fields, host := t.host, hostMem := t.hostMem, outbox := t.outbox } ∧
      (∀ k, t.tile k = if k = n.val then { s.tile n with meter := { (s.tile n).meter with due := [] } } else s.tile k) ∧
      (∀ f, { t.fld f with meter := (s.fld f).meter, caps := (s.fld f).caps } = s.fld f) ∧ (∀ f, f ≠ n.val / 16 → t.fld f = s.fld f) ∧
      (∀ i, i < 9 → (t.fld (n.val / 16)).meter.status.getLsbD i = ((s.fld (n.val / 16)).meter.status.getLsbD i ||
        ((smapFind (s.tile n).meter.due i).isSome && (i != 8 || (s.fld (n.val / 16)).caps.any (fun c => c.1 == n.val)))))) ∧
  (∀ (s : State) (n : Fin 1024), s.served n = false → exec (.nsummaryPropagate n) s = .next s) ∧
  (∀ (s : State) (d : Nat),
    ((s.bcn.begun = false ∧ s.bcn.recovering = false) ∨ s.bcn.overduePosted = true ∨ d ≤ s.bcn.overdueLimit → exec (.stepOverdue d) s = .next s) ∧
    ((s.bcn.begun = true ∨ s.bcn.recovering = true) → s.bcn.overduePosted = false → s.bcn.overdueLimit < d →
      ∃ t, exec (.stepOverdue d) s = .next t ∧ t = { s with bcn := t.bcn, host := t.host, hostMem := t.hostMem, outbox := t.outbox } ∧
        t.bcn = { s.bcn with overdue := true, overduePosted := true } ∧ t.host.cmds = s.host.cmds) ∧
    (s.bcn.durs = [] → s.bcn.overdueLimit = s.bcn.initMs * 1200000) ∧ (s.bcn.durs = [d] → s.bcn.overdueLimit = s.bcn.mult * d)) ∧
  (∀ (s : State) (c : Nat), ∃ t, exec (.ppsEdge c) s = .next t ∧ t = { s with bcn := { s.bcn with edgeCclk := c, edgeSeen := true, prevEdge := t.bcn.prevEdge } }) ∧
  (∀ (s : State) (ns : Nat), (s.bcn.edgeSeen = false → exec (.siteMessage ns) s = .next s) ∧
    (s.bcn.edgeSeen = true → ∃ t, exec (.siteMessage ns) s = .next t ∧
      t = { s with bcn := { s.bcn with siteTime := ns % 2 ^ 64, siteValid := t.bcn.siteValid, edgeSeen := false, prevEdge := none } } ∧
      (s.bcn.siteValid = false ∨ s.bcn.prevEdge = none → t.bcn.siteValid = true) ∧
      (∀ c, s.bcn.siteValid = true → s.bcn.prevEdge = some c →
        let counted := 6 * s.bcn.siteTime + 5 * (s.bcn.edgeCclk - c)
        (t.bcn.siteValid = true ↔ 6 * ns ≤ counted + 6000 ∧ counted ≤ 6 * ns + 6000)))) ∧
  (∀ s : State, exec .siteTimeout s = .next { s with bcn := { s.bcn with siteValid := false, edgeSeen := false, prevEdge := none } }) ∧
  (∀ (s : State) (n : Nat), s.bcn.advance = some n →
    (s.isKeeper = true → s.bcn.ext = true → s.bcn.hold = false → s.outer.state ≠ 4 → s.bcn.startReq = none ∨ s.bcn.startReq = some n →
      exec .advance s = .next (State.broadcast { s with bcn := { s.bcn with advance := none, running := true, opened := true } }
        { op := 7, key := 3, index := 0, step := n, attempt := s.bcn.attempt, payload := [] })) ∧
    (s.isKeeper = false ∨ s.bcn.ext = false ∨ s.bcn.hold = true ∨ s.outer.state = 4 ∨ (∃ k, s.bcn.startReq = some k ∧ k ≠ n) → exec .advance s = .next s)) ∧
  (∀ s : State, s.bcn.advance = none → exec .advance s = .next s)

/-- TILE_FAULT, TILE_STORE_UE, FC_PROBE_TIMEOUT, FC_RESTART_DONE and CHANNEL_LOST. TILE_FAULT of a tile that serves a
slot, with the spare free, fences the tile with its registers frozen, gives its slot to the spare and names the field
in MOD_FAULT; outside a training partition, with nothing in the tile's queues, the slot's tile starts at its reset
values, the saved lanes and semaphores apart, with a blank store, and no other tile or byte changes; in a training
partition with a step in progress, no COMMIT under way (assumption 121) and LIMIT not passed, the step is aborted. A
fenced tile failing again changes nothing. TILE_STORE_UE of a first word sets TS_UE and keeps the word; outside a
training partition nothing else changes. FC_PROBE_TIMEOUT restarts a controller, twice; the third time the field
presents no slot and every tile of it is fenced. FC_RESTART_DONE ends the restart. CHANNEL_LOST of a channel in
service marks it lost: in a field of no partition nothing else but the event and its CAPAR, which is set or not with
the cause (assumption 107); of any other channel it changes nothing. -/
def Obligations.FailedUnitsAreFencedAndReplaced : Prop :=
  (∀ (s : State) (f : Fin 64) (p : Fin 17) (i : Nat), (s.fld f).serves i = some p.val → i < 16 → p.val < 16 → (s.fld f).spareUsed = false →
    (s.fld f).fenced.testBit 16 = false →
    ∃ t, exec (.tileFault f [p]) s = .next t ∧ (t.fld f).fenced = Nat.lor (s.fld f).fenced (2 ^ p.val) ∧ (t.fld f).spareUsed = true ∧ (t.fld f).spareFor = i ∧
      (t.fld f).serves i = some 16 ∧ (t.fld f).factory = false ∧ t.mods.fault.getLsbD 0 = true ∧ t.mods.faultField = f.val ∧ t.fuses = s.fuses ∧
      (s.isTrainField f = false → (∀ q ∈ (s.tile (16 * f.val + i)).queues, q.2.source = [] ∧ q.2.ring = [] ∧ q.2.started = []) → t = { s with
          mods := t.mods, host := t.host, hostMem := t.hostMem, outbox := t.outbox, tiles := t.tiles, fields := t.fields, mem := t.mem } ∧
        (let old := s.tile (16 * f.val + i)
         t.tile (16 * f.val + i) = { lanes := old.savedLanes, sems := old.savedSems, savedLanes := old.savedLanes, savedSems := old.savedSems }) ∧ (∀ n, n ≠ 16 * f.val + i → t.tile n = s.tile n) ∧ (∀ g, g ≠ f.val → t.fld g = s.fld g) ∧
        (∀ a, memRead t.mem a = if storeBase (16 * f.val + i) ≤ a ∧ a < storeBase (16 * f.val + i) + 0x2800000 then blankByte else memRead s.mem a)) ∧
      (s.isTrainField f = true → s.canAbort = true → s.isKeeper = true ∨ s.bcn.begun = false ∨ s.bcn.doneSent = false → s.bcn.aborts + 1 ≤ s.bcn.limit → t.bcn.recovering = true ∧ t.bcn.begun = false ∧
        t.bcn.attempt = (s.bcn.attempt + 1) % 256)) ∧
  (∀ (s : State) (f : Fin 64) (ps : List (Fin 17)), (∀ p ∈ ps, (s.fld f).fenced.testBit p.val = true) → exec (.tileFault f ps) s = .next s) ∧
  (∀ (s : State) (n : Fin 1024) (w : Nat), s.served n = true → (s.tile n).ueWords = [] ∨ w ∈ (s.tile n).ueWords →
    ∃ t, exec (.tileStoreUe n w) s = .next t ∧ (t.fld (n.val / 16)).tsUe = true ∧
      (s.isTrainField (n.val / 16) = false → t = { s with tiles := t.tiles, fields := t.fields } ∧
        (∀ k, t.tile k = if k = n.val then { s.tile n with ueWords := [w] } else s.tile k) ∧
        (∀ g, t.fld g = if g = n.val / 16 then { s.fld g with tsUe := true } else s.fld g))) ∧
  (∀ (s : State) (f : Fin 64), (s.fld f).fcFenced = false → (s.fld f).restarting = false →
    ((s.fld f).restarts < 2 → ∃ t, exec (.fcProbeTimeout f) s = .next t ∧ (t.fld f).restarting = true ∧ (t.fld f).restarts = (s.fld f).restarts + 1 ∧
      t.mods.fault.getLsbD 1 = true ∧ (t.fld f).fenced = (s.fld f).fenced ∧
      (s.isTrainField f = false → t = { s with mods := t.mods, host := t.host, hostMem := t.hostMem, outbox := t.outbox, fields := t.fields })) ∧
    (2 ≤ (s.fld f).restarts → ∃ t, exec (.fcProbeTimeout f) s = .next t ∧ (t.fld f).fcFenced = true ∧ (t.fld f).slots = [] ∧
      (∀ p, p < 17 → (t.fld f).fenced.testBit p = true) ∧ t.mods.faultField = f.val)) ∧
  (∀ (s : State) (f : Fin 64), ((s.fld f).restarting = false → exec (.fcRestartDone f) s = .next s) ∧
    ((s.fld f).restarting = true → ∃ t, exec (.fcRestartDone f) s = .next t ∧ t = { s with fields := t.fields } ∧ (∀ g, g ≠ f.val → t.fld g = s.fld g) ∧
      { t.fld f with groups := (s.fld f).groups } = { s.fld f with restarting := false } ∧
      (∀ g, t.group f g = (s.group f g).map (fun x => if x.pendingVer then { x with emitting := false, got := [] } else x)))) ∧
  (∀ (s : State) (f : Fin 64) (c : Fin 32), ((s.fld f).stack.chanState c ≠ 0 → exec (.channelLost f c) s = .next s) ∧
    ((s.fld f).stack.chanState c = 0 → ∃ t, exec (.channelLost f c) s = .next t ∧ (t.fld f).stack.lost.testBit c = true) ∧
    ((s.fld f).stack.chanState c = 0 → s.partOf f = none → ∃ t, exec (.channelLost f c) s = .next t ∧
      t = { s with host := t.host, hostMem := t.hostMem, outbox := t.outbox, fields := t.fields, fresh := s.fresh + 1 } ∧
      (∀ g, g ≠ f.val → t.fld g = s.fld g) ∧
      t.fld f = { s.fld f with stack := { (s.fld f).stack with lost := Nat.lor (s.fld f).stack.lost (2 ^ c.val), chans := (t.fld f).stack.chans } } ∧
      (∀ d, smapGet ({} : Channel) (t.fld f).stack.chans d =
        let x := smapGet ({} : Channel) (s.fld f).stack.chans d
        if d = c.val then { x with capar := x.capar || (Config.freshByte s.fresh).toNat % 2 == 1 } else x)))

/-- SCRUB counts errors, THERMAL_SAMPLE moves the sill, XFAIL stops what failed, HOST_TIER_ACK completes a move. SCRUB of
a channel in service adds one to its correctable count for a corrected error and one to its uncorrectable count for
any other, which also keeps the first address, and sets CAPAR for a parity error that a retry put right; other
channels and memory stay. THERMAL_SAMPLE stores the sample, moves the sill to the one that the hottest group has
reached, which it leaves only 2 degrees below its entry, asserts THERMTRIP_N from 105 degrees on, and never changes
memory. XFAIL sets XFAIL_SEEN; a failed queue or ring stops with RING_ERR; a failed bulk move completes BAD_TARGET
with its flows gone; a failed transfer of a group sets HTERR; a command that nothing matches changes nothing else.
HOST_TIER_ACK of the last transfer of a bulk move to the host tier lands its bytes and completes its command DONE; of
one from the host tier it writes the bytes delivered at the destination and completes it; with no such command it
changes nothing. -/
def Obligations.ScrubTemperatureAndTransfers : Prop :=
  (∀ (s : State) (f : Fin 64) (c : Fin 32) (e : EccErr), (s.fld f).stack.chanState c = 0 → (s.fld f).stack.chan e.off = c.val →
    ∃ t, exec (.scrub f c [e]) s = .next t ∧ t = { s with fields := t.fields, host := t.host, hostMem := t.hostMem, outbox := t.outbox } ∧
      (let x := smapGet ({} : Channel) (s.fld f).stack.chans c
       smapGet ({} : Channel) (t.fld f).stack.chans c = if e.par = true then { x with capar := true } else if e.ue = true then
         { x with ue := min (x.ue + 1) (2 ^ 32 - 1), ueAddr := if x.ueSeen then x.ueAddr else (s.fld f).stack.chanOff e.off, ueSeen := true }
         else { x with ce := min (x.ce + 1) (2 ^ 32 - 1), ceSeen := true }) ∧
      (∀ g d, (g, d) ≠ (f.val, c.val) → smapGet ({} : Channel) (t.fld g).stack.chans d = smapGet ({} : Channel) (s.fld g).stack.chans d) ∧
      (e.ue = false ∨ e.par = true → t = { s with fields := t.fields })) ∧
  (∀ (s : State) (f : Fin 64) (c : Fin 32) (es : List EccErr), (s.fld f).stack.chanState c ≠ 0 → exec (.scrub f c es) s = .next s) ∧
  (∀ (s : State) (f : Fin 64) (n : Fin 8) (temp : Option Nat),
    ∃ t, exec (.thermalSample f n temp) s = .next t ∧
      t = { s with fields := t.fields, host := t.host, hostMem := t.hostMem, outbox := t.outbox, power := t.power } ∧ (∀ g, g ≠ f.val → t.fld g = s.fld g) ∧
      (let x := (s.fld f).stack
       let y := (t.fld f).stack
       let top := (y.sensors.map Sensor.reads).foldl max 0
       y.sensors = x.sensors.set n (temp.elim { x.sensors.getD n {} with valid := false, missed := (x.sensors.getD n {}).missed + 1 }
         (fun q => { temp := q, valid := true, missed := 0 })) ∧
       (360 ≤ top → top < 380 → x.sill ≤ 1 → y.sill = 1) ∧ (380 ≤ top → top < 400 → x.sill ≤ 2 → y.sill = 2) ∧ (400 ≤ top → x.sill ≤ 3 → y.sill = 3) ∧
       (top ≤ 352 → x.sill ≤ 1 → y.sill = 0) ∧ (352 < top → top < 360 → x.sill = 1 → y.sill = 1) ∧ (372 < top → top < 380 → x.sill = 2 → y.sill = 2) ∧
       (392 < top → top < 400 → x.sill = 3 → y.sill = 3) ∧ y.lost = x.lost ∧ y.good = x.good ∧ y.chans = x.chans) ∧
      t.power = { s.power with thermtrip := s.power.thermtrip || decide (420 ≤ (((t.fld f).stack.sensors.map Sensor.reads).foldl max 0)) }) ∧
  (∀ (s : State),
    (∀ (q : Fin 64) (why : Nat), ∃ t, exec (.xfail ⟨.queue q, why⟩) s = .next t ∧ t = { s with host := { s.host with xfailSeen := true, queues := t.host.queues } } ∧
      (∀ x, t.cmdQueue x = if x = q.val then { s.cmdQueue q with stopped := true, ringErr := true } else s.cmdQueue x)) ∧
    (∀ (c : Fin 64) (why : Nat), ∃ t, exec (.xfail ⟨.cring c, why⟩) s = .next t ∧ t = { s with host := { s.host with xfailSeen := true, crings := t.host.crings } } ∧
      (∀ x, smapGet {} t.host.crings x = if x = c.val then { smapGet ({} : CRing) s.host.crings c with stopped := true, ringErr := true }
        else smapGet ({} : CRing) s.host.crings x)) ∧
    (∀ (e : Fin 17) (why : Nat), ∃ t, exec (.xfail ⟨.ering e, why⟩) s = .next t ∧ t = { s with host := { s.host with xfailSeen := true, erings := t.host.erings } } ∧
      (∀ x, smapGet {} t.host.erings x = if x = e.val then { smapGet ({} : ERing) s.host.erings e with stopped := true, ringErr := true }
        else smapGet ({} : ERing) s.host.erings x)) ∧
    (∀ (q : Fin 64) (seq why : Nat), (∀ c ∈ s.host.cmds, c.hdr.queue = q → c.hdr.seq = seq → c.phase ≠ .running ∨ c.posted = true) →
      exec (.xfail ⟨.command q seq, why⟩) s = .next { s with host := { s.host with xfailSeen := true } }) ∧
    (∀ (f : Fin 64) (gid a why : Nat) (g : Group), s.group f gid = some g → s.isTrainField f = false →
      ∃ t x, exec (.xfail ⟨.group f gid a, why⟩) s = .next t ∧ t = { s with host := t.host, hostMem := t.hostMem, outbox := t.outbox, fields := t.fields } ∧
        t.host.xfailSeen = true ∧ t.group f gid = some x ∧ x = { g with htErr := true, fetching := x.fetching, wbq := x.wbq })) ∧
  (∀ (s : State) (q : Fin 64) (cs ds : List OutCmd) (c : OutCmd) (p : BulkP), s.host.cmds = cs ++ c :: ds →
    (∀ x ∈ cs, x.hdr.queue = q → x.hdr.seq = c.hdr.seq → x.phase ≠ .running ∨ x.posted = true) → (∀ x ∈ cs ++ ds, x.uid ≠ c.uid) →
    c.hdr.queue = q → c.phase = .running → c.posted = false → c.replayed = false → c.drained = false → c.body = .bulkMove p →
    (∀ why, ∃ t, exec (.xfail ⟨.command q c.hdr.seq, why⟩) s = .next t ∧
      t = { s with fab := { s.fab with flows := t.fab.flows }, host := { s.host with xfailSeen := true, cmds := t.host.cmds } } ∧
      t.fab.flows = s.fab.flows.filter (fun x => x.2.uid != some c.uid) ∧
      (∃ c', t.host.cmds = cs ++ c' :: ds ∧ c'.uid = c.uid ∧ c'.phase = .done ∧ c'.status = stTarget)) ∧
    (p.sk = 0 → p.dk = 1 → c.left = 1 → ∀ data, ∃ t, exec (.hostTierAck q c.hdr.seq data) s = .next t ∧
      t = { s with host := { s.host with cmds := t.host.cmds }, hostMem := c.writes.foldl (fun m w => memWriteBytes m w.1 w.2) s.hostMem } ∧
      (∃ c', t.host.cmds = cs ++ c' :: ds ∧ c'.uid = c.uid ∧ c'.phase = .done ∧ c'.status = stDone)) ∧
    (MemInv s → p.sk = 1 → p.dk = 0 → s.ownAddr p.dst = true → c.left = 1 → c.writes = [] → (∀ i, i < p.bytes → s.lostAt (islandAddr p.dst + i) = false) → ∀ data,
      ∃ t, exec (.hostTierAck q c.hdr.seq data) s = .next t ∧ t = { s with mem := t.mem, host := { s.host with cmds := t.host.cmds } } ∧
        (∀ a, memRead t.mem a = if islandAddr p.dst ≤ a ∧ a < islandAddr p.dst + p.bytes then (padTo p.bytes data).getD (a - islandAddr p.dst) 0
          else memRead s.mem a) ∧
        (∃ c', t.host.cmds = cs ++ c' :: ds ∧ c'.uid = c.uid ∧ c'.phase = .done ∧ c'.status = stDone))) ∧
  (∀ (s : State) (q : Fin 64) (seq : Nat) (data : List Byte), (∀ c ∈ s.host.cmds, c.hdr.queue = q → c.hdr.seq = seq → c.phase ≠ .running ∨ c.posted = true) →
    exec (.hostTierAck q seq data) s = .next s)

/-- Training, silence, lost lanes, replay, IDLE frames and discarded frames on a fabric port. FABRIC_TRAIN_DONE of a port
in TRAIN makes it UP with its peer when the peer is the one that the shape names, with link numbers from 0, and
REFUSED with its event otherwise. With no flare round open or waiting, no barrier under way and no training partition,
FABRIC_TRAIN_TIMEOUT of a port in TRAIN, FABRIC_SILENCE and FABRIC_LANE_LOCK_LOST of an UP port, and REPLAY_TIMEOUT at
its limit fence it: its frames and credits are dropped and FENCE goes out on every other UP port. Below the limit
REPLAY_TIMEOUT of an UP port with frames unacknowledged sends them all again in order and counts them. IDLE_SEND of an
UP port with nothing that may be sent sends one IDLE frame; IDLE_FRAME takes ACK and credits, and as the first frame
that a retrained port accepts lifts its fences (R315, assumption 108). LINK_FRAME_DISCARD counts a frame that a check
refuses, and the first of a gap is answered with NAK. In any other state of the port each changes nothing, but that
FABRIC_LANE_LOCK_LOST keeps the lane count. No other port changes, but that an UP one sends the FENCE. -/
def Obligations.FabricPortsTrainFailAndFence : Prop :=
  (∀ (s : State) (p : Fin 8) (m : Fin 1024) (i : Fin 16) (q : Fin 8), (s.port p).state = 1 →
    (s.peerOk p m i q = true → ∃ t, exec (.fabricTrainDone p m i q) s = .next t ∧
      t = { s with fab := { s.fab with ports := t.fab.ports } } ∧
      (∀ k, t.port k = if k = p.val then { s.port p with
        state := 2, lanesOk := 24, peerModule := m.val, peerIsland := i.val, peerPort := q.val, txSeq := 0, rxNext := 0 } else s.port k)) ∧
    (s.peerOk p m i q = false → ∃ t, exec (.fabricTrainDone p m i q) s = .next t ∧
      t = { s with fab := { s.fab with ports := t.fab.ports }, host := t.host, hostMem := t.hostMem, outbox := t.outbox } ∧
      (∀ k, t.port k = if k = p.val then { s.port p with
        state := 3, refuseSeen := true, lanesOk := 24, peerModule := m.val, peerIsland := i.val, peerPort := q.val } else s.port k))) ∧
  (∀ (s : State) (p : Fin 8) (m : Fin 1024) (i : Fin 16) (q : Fin 8), (s.port p).state ≠ 1 → exec (.fabricTrainDone p m i q) s = .next s ∧ exec (.fabricTrainTimeout p) s = .next s) ∧
  (∀ (s : State) (p : Fin 8) (ev : Instr) (n : Nat), s.bcn.rounds = [] → s.bcn.waits = [] → (∀ j ∈ s.fab.jobs, j.op = 6 → j.started = false) → s.trainPart = none →
    (ev = .fabricTrainTimeout p ∧ (s.port p).state = 1) ∨ ((ev = .fabricSilence p ∨ ev = .fabricLaneLockLost p n) ∧ (s.port p).state = 2) ∨
      (ev = .replayTimeout p ∧ (s.port p).state = 2 ∧ (s.port p).replay ≠ [] ∧ s.fab.set.replayLim ≤ (s.port p).tries) →
    let shut := s.modPort p (fun x => { x with
      state := 4, fenceSeen := true, downSeen := x.downSeen || x.state == 2, replay := [], wait := [], returning := false, used := [], owed := [], tries := 0,
      nakOut := false, lanesOk := if ev = .fabricLaneLockLost p n then min n 24 else x.lanesOk })
    let told := shut.floodFrom none (fenceFrame s.place.moduleId p s.bcn.step s.bcn.attempt)
    ∃ t, exec ev s = .next t ∧ t = { told with
        bcn := { s.bcn with fences := t.bcn.fences }, place := t.place, host := t.host, hostMem := t.hostMem, outbox := t.outbox } ∧
      told.outbox <+: t.outbox ∧ t.port p = shut.port p ∧ (∀ k, k ≠ p.val → (s.port k).state ≠ 2 → t.port k = s.port k) ∧
      (s.place.moduleId, p.val) ∈ t.bcn.fences) ∧
  (∀ (s : State) (p : Fin 8) (n : Nat), (s.port p).state ≠ 2 → ∃ t, exec (.fabricLaneLockLost p n) s = .next t ∧
    t = { s with fab := { s.fab with ports := t.fab.ports } } ∧
    (∀ k, t.port k = if k = p.val then { s.port p with lanesOk := min n 24 } else s.port k)) ∧
  (∀ (s : State) (p : Fin 8), (s.port p).state ≠ 2 → exec (.fabricSilence p) s = .next s ∧ exec (.replayTimeout p) s = .next s ∧
    exec (.idleSend p) s = .next s ∧ (∀ f, exec (.idleFrame p f) s = .next s) ∧ (∀ b, exec (.linkFrameDiscard p b) s = .next s)) ∧
  (∀ (s : State) (p : Fin 8), (s.port p).state = 2 → (s.port p).replay ≠ [] →
    ((s.port p).tries < s.fab.set.replayLim → ∃ t, exec (.replayTimeout p) s = .next t ∧
      t = { s with fab := { s.fab with ports := t.fab.ports }, outbox := s.outbox ++ (s.port p).replay.map (fun f => .fabric p f) } ∧
      (∀ k, t.port k = if k = p.val then { s.port p with
        replaySeen := true, replays := min ((s.port p).replays + (s.port p).replay.length) (2 ^ 32 - 1), tries := (s.port p).tries + 1 } else s.port k))) ∧
  (∀ (s : State) (p : Fin 8), (s.port p).state = 2 → (s.port p).pick s.servesFrame = none →
    ∃ t f, exec (.idleSend p) s = .next t ∧ t = { s with fab := { s.fab with ports := t.fab.ports }, outbox := s.outbox ++ [.fabric p f] } ∧
      f.typ = 2 ∧ f.payload = [] ∧ f.ack = ((s.port p).rxNext + 4095) % 4096 ∧ f.nak = false ∧
      (∀ k, t.port k = if k = p.val then { s.port p with owed := (t.port p).owed } else s.port k)) ∧
  (∀ (s : State) (p : Fin 8) (f : FabFrame), (s.port p).state = 2 → f.typ = 2 → f.nak = false → (s.port p).wait = [] →
    let u := s.portReturns p
    ∃ t, exec (.idleFrame p f) s = .next t ∧ t = { u with fab := { u.fab with ports := t.fab.ports } } ∧ (∀ k, k ≠ p.val → t.port k = s.port k) ∧
      t.port p = { s.port p with replay := (t.port p).replay, tries := (t.port p).tries, used := (t.port p).used, returning := false } ∧
      ((s.port p).returning = false → u = s) ∧
      ((s.port p).returning = true → u = { s with fab := u.fab, bcn := { s.bcn with fences := u.bcn.fences }, place := u.place } ∧
        u.bcn.fences = s.bcn.fences.filter (fun f => f != (s.place.moduleId, p.val) && f != ((s.port p).peerModule, (s.port p).peerPort))) ∧
      (∀ v, smapGet 0 (t.port p).used v = if v = f.cvl then smapGet 0 (s.port p).used v - f.credit else smapGet 0 (s.port p).used v) ∧
      ((∀ g ∈ (s.port p).replay, g.lseq ≠ f.ack) → (t.port p).replay = (s.port p).replay) ∧
      (∀ as bs g, (s.port p).replay = as ++ g :: bs → g.lseq = f.ack → (∀ x ∈ as, x.lseq ≠ f.ack) → (t.port p).replay = bs ∧ (t.port p).tries = 0)) ∧
  (∀ (s : State) (p : Fin 8) (late : Bool), (s.port p).state = 2 →
    ∃ t, exec (.linkFrameDiscard p late) s = .next t ∧ t = { s with fab := { s.fab with ports := t.fab.ports }, outbox := t.outbox } ∧
      (t.port p).crcerr = (if late = true then (s.port p).crcerr else min ((s.port p).crcerr + 1) (2 ^ 32 - 1)) ∧ (t.port p).nakOut = true ∧
      ((s.port p).nakOut = true → t.outbox = s.outbox) ∧
      ((s.port p).nakOut = false → ∃ f, t.outbox = s.outbox ++ [.fabric p f] ∧ f.nak = true ∧ f.typ = 2 ∧ f.ack = ((s.port p).rxNext + 4095) % 4096) ∧
      (t.port p).rxNext = (s.port p).rxNext ∧ (∀ k, k ≠ p.val → t.port k = s.port k))

/-- Frames go onward, bulk writes land once and in order, acknowledgements free packets, and timeouts send them again. A
frame whose LSEQ is the next expected one on an UP port moves RX on by one. FRAME_FORWARD of one for this module does
nothing more. BULK_WRITE_PACKET that opens a flow with FSEQ 0 writes exactly its payload at its address when no
zeroise shuts it out, and opens the context; an export that no heir window takes changes no memory; one that is early
is held, and one of another epoch sets STALE_SEEN, with memory as it was. FLOW_ACK of the last outstanding packet of a
command's write flow, with nothing left to send, ends the flow and completes the command DONE. FLOW_CONTROL_MESSAGE
ends the flow that its source opened. FLOW_RETRANSMIT_TIMEOUT of an unacknowledged packet below the limit counts the
try and sets RETX_SEEN; at the limit the flow fails, its command completes HW_FAULT (its entry may be posted at once)
and FAIL_SEEN is set; an engine's flow stands, its packets lost (assumption 134). FLOW_ACK_TIMER of a flow with
nothing to acknowledge changes nothing. The premises hold ACK, credits and waiting frames still, so that the link's
own part is the RX number and the credits owed. How a frame carries the end of a flow is the model's (assumption 26). -/
def Obligations.FlowsCarryBulkWrites : Prop :=
  (∀ (s : State) (p : Fin 8) (f : FabFrame), (s.port p).state = 2 → f.typ < 2 → f.lseq = (s.port p).rxNext → f.nak = false → f.credit = 0 → (s.port p).returning = false →
    (s.port p).replay = [] → (s.port p).wait = [] →
    ∃ s', (s.linkAccept p f) = (s', true) ∧ s' = { s with fab := { s.fab with ports := s'.fab.ports } } ∧
      (∀ k, k ≠ p.val → s'.port k = s.port k) ∧ (s'.port p).rxNext = ((s.port p).rxNext + 1) % 4096 ∧ (s'.port p).nakOut = false ∧
      (s'.port p).state = 2 ∧
      smapGet 0 (s'.port p).owed f.vl = smapGet 0 (s.port p).owed f.vl + (f.payload.length + 95) / 64 ∧
      (f.dest = s.place.moduleId → exec (.frameForward p f) s = .next s') ∧
      (f.dest ≠ s.place.moduleId → exec (.frameForward p f) s = .next (s'.routeFrame (some p.val) f)) ∧
      (f.dest = s.place.moduleId → f.kind = 0 → smapFind s.fab.flows f.flow = none → smapFind s.fab.flows (rxKey f.src f.flow) = none → f.fseq = 0 →
        f.arg < heirMark → 0 < s.contextsFree →
        ∃ t, exec (.bulkWritePacket p f) s = .next t ∧ t = { s' with mem := t.mem, fab := { s'.fab with flows := t.fab.flows } } ∧
          t.mem = (if s.writeShut f.arg f.payload.length = true then s.mem else (s.pokeBytes f.arg f.payload).mem) ∧
          (∃ fl, smapFind t.fab.flows (rxKey f.src f.flow) = some fl ∧ fl.peer = f.src ∧ fl.ctx = f.flow ∧ fl.epoch = f.epoch ∧ fl.nextRx = 1)) ∧
      (f.dest = s.place.moduleId → f.kind = 0 → s.heirShut f = true → exec (.bulkWritePacket p f) s = .next s') ∧
      (∀ fl, f.dest = s.place.moduleId → f.kind = 0 → f.arg < heirMark → smapFind s.fab.flows f.flow = none → smapFind s.fab.flows (rxKey f.src f.flow) = some fl →
        (f.epoch ≠ fl.epoch → exec (.bulkWritePacket p f) s = .next { s' with fab := { s'.fab with staleSeen := true } }) ∧
        (f.epoch = fl.epoch → fl.nextRx < f.fseq → f.fseq < fl.nextRx + 1024 → f.fseq < 2 ^ 32 → fl.sinceAck < 15 →
          ∃ t, exec (.bulkWritePacket p f) s = .next t ∧ t = { s' with fab := { s'.fab with flows := t.fab.flows } } ∧
            (∃ fl', smapFind t.fab.flows (rxKey f.src f.flow) = some fl' ∧ smapFind fl'.early f.fseq = some f ∧ fl'.nextRx = fl.nextRx))) ∧
      (f.dest = s.place.moduleId → f.kind = 3 → exec (.flowControlMessage p f) s = .next (s'.dropFlow (s.packetKey f))) ∧
      (∀ fl uid cs ds c, f.dest = s.place.moduleId → f.kind = 2 → f.arg < 2 ^ 32 → smapFind s.fab.flows f.flow = some fl → fl.peer = f.src → fl.epoch = f.epoch →
        fl.uid = some uid → fl.reading = false → fl.expect = 0 → fl.queued = [] → (∀ k ∈ fl.unacked, k.frame.fseq ≤ f.fseq ∧ f.fseq < k.frame.fseq + 1024) →
        f.fseq < 2 ^ 32 → s.trainPart = none →
        s.host.cmds = cs ++ c :: ds → c.uid = uid → (∀ x ∈ cs ++ ds, x.uid ≠ uid) → c.phase = .running → c.replayed = false → c.drained = false → c.left ≤ 1 →
        opcodeOf c.body ≠ 0x0103 → opcodeOf c.body ≠ 0x0101 →
        ∃ t, exec (.flowAck p f) s = .next t ∧ smapFind t.fab.flows f.flow = none ∧ t.mem = s.mem ∧
          (∃ c', t.host.cmds = cs ++ c' :: ds ∧ c'.uid = uid ∧ c'.phase = .done ∧ c'.status = stDone))) ∧
  (∀ (s : State) (k n : Nat) (fl : Flow) (pk : FlowPkt), smapFind s.fab.flows k = some fl → fl.unacked.find? (fun p => p.frame.fseq == n) = some pk →
    s.trainPart = none →
    (pk.tries < s.fab.set.flowRetry ∨ s.exportFlow fl = true → ∃ t, exec (.flowRetransmitTimeout k n) s = .next t ∧
      t = { s with fab := t.fab, host := t.host, hostMem := t.hostMem, outbox := t.outbox } ∧ t.host.cmds = s.host.cmds ∧ t.fab.retxSeen = true ∧
      smapFind t.fab.flows k = some { fl with unacked := fl.unacked.map (fun p => if p.frame.fseq = n then { p with tries := p.tries + 1 } else p) }) ∧
    (s.fab.set.flowRetry ≤ pk.tries → s.exportFlow fl = false → (s.part fl.part).train = false → ∃ t, exec (.flowRetransmitTimeout k n) s = .next t ∧
      t = { s with fab := t.fab, host := t.host, hostMem := t.hostMem, outbox := t.outbox, mods := t.mods } ∧ t.fab.failSeen = true ∧
      smapFind t.fab.flows k = (if fl.engine.isSome = true then some fl.failed else none) ∧
      (∀ uid, fl.uid = some uid → ∀ x ∈ t.host.cmds, x.uid = uid →
        ∃ c ∈ s.host.cmds, c.uid = uid ∧ x = { c.finish stHw [] with posted := x.posted }))) ∧
  (∀ (s : State) (k n : Nat), smapFind s.fab.flows k = none → exec (.flowRetransmitTimeout k n) s = .next s ∧ exec (.flowAckTimer k) s = .next s) ∧
  (∀ (s : State) (k : Nat) (fl : Flow), smapFind s.fab.flows k = some fl → (fl.sinceAck = 0 → exec (.flowAckTimer k) s = .next s) ∧
    (fl.sinceAck ≠ 0 → s.trainPart = none → ∃ t, exec (.flowAckTimer k) s = .next t ∧ smapFind t.fab.flows k = some { fl with sinceAck := 0 } ∧ t.mem = s.mem))

/-- Landing, norm, sweeps, borrowed tiles, emission and publication of a parameter group. SHARD_REDUCTION_LANDED keeps
contributions to the own shard; with every rank's in, their sum lands as the own shard, and under MIRROR goes to every
other member. MIRROR_SHARD_LANDED of an exchanged group lands another shard. A HOST group whose gradient is then
complete is parked. NORM_RESULT of the step gives each CLIP group its factor; a norm that is not finite skips it and
sets NFSKIP. UPDATE_SWEEP_START starts the first ready group's next sweep. UPDATE_SWEEP_DONE ends it, and with the
last sweep the group is updated; an element-wise rule (0 to 2) has then written each new master from the old word and
its gradient, subnormals read as zero, and its moments, and only planes of the other bank. TILE_BORROW appends a FENCE
of every queue and one entry for the group's stream to queue 0 of each tile that serves the field. WORKING_COPY_EMIT
and OWNER_SHARD_RECEIVE write only slots of the next version; an emitted block is what conversion of its master gives;
a shard names its version, and one that comes before that version awaits its free slot waits and is written with the
emission. VERSION_PUBLISH with every shard in place publishes it. Out of place each of these changes nothing, but that
marks already due are reached (reachMarks), as after each of the first four. Premises say that planes and slots lie
where registration checks that they do, that the field's stack is whole and that no ring is shut both ways. -/
def Obligations.UpdateUnitRows : Prop :=
  (∀ (s : State) (field : Fin 64) (gid : Nat) (g : Group) (data : List (Nat × List Byte)), s.group field gid = some g → g.p.field = field.val → g.p.gid = gid →
    let j := s.rankOf g.p
    let cs := gathered s g data
    let whole := g.p.r ≤ (cs.filter (fun c => c.1 == s.bcn.step)).length
    (s.bcn.begun = false → exec (.shardReductionLanded field gid data) s = .next s.reachMarks) ∧
    (s.bcn.begun = true → g.exchanged = false ∨ g.landed.contains j = true ∨ g.p.r = 1 ∨ g.p.shardLen j = 0 ∨ ¬ whole →
      ∃ u : State, exec (.shardReductionLanded field gid data) s = .next u.reachMarks ∧ u = { s with fields := u.fields } ∧
        GroupStep s u field gid { g with contribs := cs }) ∧
    (s.bcn.begun = true → g.exchanged = true → g.landed.contains j = false → g.p.r ≠ 1 → g.p.shardLen j ≠ 0 → whole → g.p.cons = 0 → joined s →
      ∃ u v : State, exec (.shardReductionLanded field gid data) s = .next u.reachMarks ∧
        u = (v.forAll (s.otherMembers g.p) (fun x m => x.toMember g.p m 3 j s.bcn.step (reducedShard s field g cs))).afterLanding field gid ∧
        v = { s with mem := v.mem, hostMem := v.hostMem, fields := v.fields, outbox := v.outbox, host := { s.host with erings := v.host.erings, held := v.host.held } } ∧
        ShardLanded s u field gid j { g with contribs := cs } (reducedShard s field g cs)) ∧
    (s.bcn.begun = true → g.exchanged = true → g.landed.contains j = false → g.p.r ≠ 1 → g.p.shardLen j ≠ 0 → whole → g.p.cons ≠ 0 →
      ∃ u : State, exec (.shardReductionLanded field gid data) s = .next u.reachMarks ∧
        ShardLanded s u field gid j { g with contribs := cs } (reducedShard s field g cs))) ∧
  (∀ (s : State) (field : Fin 64) (gid j : Nat) (g : Group) (data : List Byte), s.group field gid = some g → g.p.field = field.val → g.p.gid = gid →
    (g.p.cons ≠ 0 ∨ g.exchanged = false ∨ g.landed.contains j = true ∨ j = s.rankOf g.p ∨ g.p.r ≤ j ∨ g.p.shardLen j = 0 →
      exec (.mirrorShardLanded field gid j data) s = .next s.reachMarks) ∧
    (g.p.cons = 0 → g.exchanged = true → g.landed.contains j = false → j ≠ s.rankOf g.p → j < g.p.r → g.p.shardLen j ≠ 0 →
      ∃ u : State, exec (.mirrorShardLanded field gid j data) s = .next u.reachMarks ∧ ShardLanded s u field gid j g data)) ∧
  (∀ (s : State) (step : Nat) (v : F32),
    (s.bcn.begun = false ∨ step ≠ s.bcn.step ∨ (∃ f ∈ s.trainFields, (s.fld f).normWait = false) →
      exec (.normResult step v) s = .next s.reachMarks) ∧
    (s.bcn.begun = true → (∀ f ∈ s.trainFields, (s.fld f).normWait = true) →
      let w := s.roundOver 4 0 s.bcn.step
      ∃ u : State, exec (.normResult s.bcn.step v) s = .next u.reachMarks ∧ u = { w with fields := u.fields } ∧
      (s.bcn.waits = [] → w = { s with bcn := { s.bcn with rounds := w.bcn.rounds, roundCount := w.bcn.roundCount } }) ∧
      (∀ f, f ∉ s.trainFields → u.fld f = w.fld f) ∧
      (∀ f ∈ s.trainFields, (u.fld f).norm = v ∧ (u.fld f).normWait = false ∧ (u.fld f).normDone = true ∧
        (u.fld f).nfskip = ((w.fld f).nfskip || !f32IsFin v) ∧ (u.fld f).stack = (w.fld f).stack ∧
        (u.fld f).meter = (w.fld f).meter ∧ ∀ gid g, w.group f gid = some g →
          (g.p.rule.clip ≠ 1 ∨ g.active = false → u.group f gid = some g) ∧
          (g.p.rule.clip = 1 → g.active = true → f32IsFin v = false →
            u.group f gid = some { g with skipped := true, parks := g.parks.filter (fun k => k.step != s.bcn.step) }) ∧
          (g.p.rule.clip = 1 → g.active = true → f32IsFin v = true → ∃ ps, u.group f gid = some { g with
            factor := if (f32Val (fSqrt v)).le (f32Val g.p.rule.maxnorm) = true then oneF32 else fDiv g.p.rule.maxnorm (fSqrt v), parks := ps })))) ∧
  (∀ (s : State) (field : Fin 64), (s.bcn.begun = false ∨ s.isTrainField field = false ∨ (s.fld field).sweeping ≠ none ∨
      (∀ x ∈ (s.fld field).groups, s.sweepReady x.2 = false) → exec (.updateSweepStart field) s = .next s) ∧
    (∀ as bs gid g, s.bcn.begun = true → s.isTrainField field = true → (s.fld field).sweeping = none → (s.fld field).groups = as ++ (gid, g) :: bs →
      (∀ x ∈ as, s.sweepReady x.2 = false) → s.sweepReady g = true → ∃ t : State, exec (.updateSweepStart field) s = .next t ∧
        t = { s with fields := t.fields } ∧ (∀ f, t.fld f = if f = field.val then { s.fld field with sweeping := some (gid, g.sweep) } else s.fld f))) ∧
  (∀ (s : State) (field : Fin 64), (s.fld field).sweeping = none → exec (.updateSweepDone field) s = .next s.reachMarks) ∧
  (∀ (s : State) (field : Fin 64) (gid idx : Nat) (g : Group), (s.fld field).sweeping = some (gid, idx) → s.group field gid = some g →
    g.p.field = field.val → g.p.gid = gid →
    let last := decide (sweepCount g.p.rule.rcode ≤ idx + 1)
    ∃ u : State, exec (.updateSweepDone field) s = .next u.reachMarks ∧
      u = { s with mem := u.mem, hostMem := u.hostMem, fields := u.fields, tiles := u.tiles, outbox := u.outbox, fresh := u.fresh,
                   host := { s.host with erings := u.host.erings, held := u.host.held } } ∧
      (u.fld field).sweeping = none ∧
      u.group field gid = some { g with
        sweep := idx + 1, updated := last, wrote := g.wrote || last || g.p.rule.rcode != 4, both := g.both || (last && g.p.tier.home == 1),
        wbq := if last = true ∧ g.p.tier.home = 1 then g.wbq ++ [0] else g.wbq, outer := if last = true then g.outer.map (fun o => { o with early := [] }) else g.outer } ∧
      (∀ f k, (f, k) ≠ (field.val, gid) → u.group f k = s.group f k) ∧ (∀ f, f ≠ field.val → u.fld f = s.fld f) ∧ (g.p.rule.rcode < 4 → u.tiles = s.tiles) ∧
      (g.p.rule.rcode ≤ 2 → MemInv s → g.p.tier.home ≠ 1 → g.outer = none → g.bank ≤ 1 → stackWhole s field →
        let n := (s.ownBlocks g.p).2
        let word := fun (t : State) (kind bank i e : Nat) => (t.peekF32s (t.planeAddr g.p kind bank (512 * i)) 128).getD e 0
        planeEnd g.p.pbase (g.p.baseSizes n) ≤ 2 ^ 37 →
        (∀ i e, i < n → e < 128 → word u 0 (1 - g.bank) i e =
          ((ruleCtx g.p.rule (s.fld field).scal (if g.p.rule.clip = 1 then g.factor else oneF32) g.ucount).elem (uv 0) (flushF32 (word s 0 g.bank i e))
            ((s.operF32s (gradAddr g.p ((s.ownBlocks g.p).1 + i)) 128).getD e 0) ((s.moments g 1 i).getD e 0)
            (if g.p.m2fmt = 0 then 0 else (s.moments g 2 i).getD e 0)).1.1) ∧
        (∀ a, (∀ k, k < 4 → a < s.planeAddr g.p k (1 - g.bank) 0 ∨ s.planeAddr g.p k (1 - g.bank) 0 + g.p.planeSize n k ≤ a) →
          memRead u.mem a = memRead s.mem a))) ∧
  (∀ (s : State) (field : Fin 64) (gid : Nat),
    let due := fun (x : Group) => (x.p.rule.rcode == 4 || x.p.rule.rcode == 5) && x.borrow == 0 && s.isLanded x && s.pastMark x.p.rule.bmark && s.mustUpdate x
    (s.isTrainField field = false ∨ s.group field gid = none ∨ (∀ x ∈ (s.fld field).groups, due x.2 = false) → exec (.tileBorrow field gid) s = .next s) ∧
    (∀ as bs g, s.isTrainField field = true → s.group field gid = some g → (s.fld field).groups = as ++ (gid, g) :: bs → (∀ x ∈ as, due x.2 = false) →
      due g = true → ∃ t : State, exec (.tileBorrow field gid) s = .next t ∧ t = { s with tiles := t.tiles, fields := t.fields } ∧
        t.group field gid = some { g with borrow := 1 } ∧ (∀ f k, (f, k) ≠ (field.val, gid) → t.group f k = s.group f k) ∧
        (∀ f, { t.fld f with groups := (s.fld f).groups, refresh := (s.fld f).refresh } = s.fld f) ∧
        (t.fld field).refresh = ((s.fld field).refresh || (g.p.rule.rcode == 5 && g.ucount % g.p.rule.refresh == 0)) ∧
        (∀ n, n ∉ s.tilesOf field → t.tile n = s.tile n) ∧
        (∀ n ∈ s.tilesOf field, t.tile n = { s.tile n with queues := (t.tile n).queues } ∧
          (∀ q, q ≠ 0 → smapGet {} (t.tile n).queues q = smapGet ({} : TileQueue) (s.tile n).queues q) ∧
          ∃ e e' : QEntry, e.desc.kind = .fence 15 ∧ e'.desc.kind = .fence 0 ∧ e.desc.hdr.htag = g.p.htag ∧ e'.desc.hdr.htag = g.p.htag ∧
            e.cmd = e'.cmd ∧ e.eval = false ∧ e'.eval = false ∧ smapGet {} (t.tile n).queues 0 =
            { smapGet ({} : TileQueue) (s.tile n).queues 0 with source := (smapGet ({} : TileQueue) (s.tile n).queues 0).source ++ [e, e'] }))) ∧
  (∀ (s : State) (field : Fin 64) (gid : Nat) (g : Group), s.group field gid = some g →
    (g.pendingVer = false ∨ s.hasEmitted g = true ∨ g.slotFree = false ∨ (g.p.tier.home = 1 ∧ (g.resident = false ∨ s.landingFree g = false)) →
      exec (.workingCopyEmit field gid) s = .next s) ∧
    (g.pendingVer = true → s.hasEmitted g = false → g.slotFree = true → (g.p.tier.home = 1 → g.resident = true ∧ s.landingFree g = true) →
      g.p.field = field.val → g.p.cons = 0 ∨ joined s →
      ∃ t : State, exec (.workingCopyEmit field gid) s = .next (t.takeWaiting field gid) ∧ (g.p.cons = 0 → t.fab = s.fab) ∧
        t = { s with mem := t.mem, hostMem := t.hostMem, fields := t.fields, fab := t.fab, outbox := t.outbox,
                     host := { s.host with erings := t.host.erings, held := t.host.held } } ∧
        t.group field gid = some { g with emitting := true, got := if g.p.cons = 0 then shardRanks g.p else g.got ++ [s.rankOf g.p] } ∧
        (∀ f k, (f, k) ≠ (field.val, gid) → t.group f k = s.group f k) ∧ (∀ f, f ≠ field.val → t.fld f = s.fld f) ∧
        (slotFits s g.p g.nextVersion → OutsideSlots s t g.p g.nextVersion ∧
          (MemInv s → ∀ k, k < (s.ownBlocks g.p).2 → let b := (s.ownBlocks g.p).1 + k
            s.served (g.p.wcPlace (128 * b)).1 = true → t.wcRead g.p g.nextVersion b = s.wcExpect g b)))) ∧
  (∀ (s : State) (f gid : Nat) (g : Group), s.group f gid = some g →
    s.takeWaiting f gid = { s with mem := (s.takeWaiting f gid).mem, fields := (s.takeWaiting f gid).fields } ∧
    ((∀ e ∈ g.waiting, e.1 % 2 ^ 32 ≠ g.nextVersion) → (s.takeWaiting f gid).mem = s.mem) ∧
    ∃ x, GroupStep s (s.takeWaiting f gid) f gid x ∧ x.waiting = g.waiting.filter (fun e => e.1 % 2 ^ 32 != g.nextVersion) ∧
      (∀ e ∈ g.waiting, e.1 % 2 ^ 32 = g.nextVersion → x.got.contains (e.1 / 2 ^ 32) = true) ∧
      x = { g with waiting := x.waiting, got := x.got, emitting := x.emitting } ∧
      ((∀ e ∈ g.waiting, e.1 % 2 ^ 32 ≠ g.nextVersion) → x = g)) ∧
  (∀ (s : State) (field : Fin 64) (gid rank : Nat) (raw : List Byte) (g : Group), s.group field gid = some g →
    let v := bytesAt raw 0 4
    let data := raw.drop 4
    (g.p.cons ≠ 1 ∨ rank = s.rankOf g.p ∨ g.p.r ≤ rank ∨ (g.published = true ∧ v = g.version) →
      exec (.ownerShardReceive field gid rank raw) s = .next s) ∧
    (g.p.cons = 1 → rank ≠ s.rankOf g.p → rank < g.p.r → ¬ (g.published = true ∧ v = g.version) →
      g.pendingVer = false ∨ g.slotFree = false ∨ v ≠ g.nextVersion → ∃ t : State, exec (.ownerShardReceive field gid rank raw) s = .next t ∧ t = { s with fields := t.fields } ∧
        GroupStep s t field gid { g with waiting := smapSet g.waiting (2 ^ 32 * rank + v) data }) ∧
    (g.p.cons = 1 → g.pendingVer = true → g.slotFree = true → v = g.nextVersion → ¬ (g.published = true ∧ v = g.version) →
      rank ≠ s.rankOf g.p → rank < g.p.r → g.p.field = field.val →
      ∃ t : State, exec (.ownerShardReceive field gid rank raw) s = .next t ∧ t = { s with mem := t.mem, fields := t.fields } ∧
        GroupStep s t field gid { g with emitting := true, got := if g.got.contains rank = true then g.got else g.got ++ [rank] } ∧
        (slotFits s g.p g.nextVersion → OutsideSlots s t g.p g.nextVersion ∧
          (MemInv s → isBlockFmt g.p.wcfmt = false → ∀ k, k < g.p.shardLen rank → let b := g.p.shardLo rank + k
            let n := blockLen g.p.wcfmt
            s.served (g.p.wcPlace (128 * b)).1 = true →
            t.wcRead g.p g.nextVersion b = (wordsOf (fmtBits g.p.wcfmt / 8) (padTo n (data.drop (n * k)))).map (fun c => (0, c)))))) ∧
  (∀ (s : State) (field : Fin 64) (gid : Nat) (g : Group), s.group field gid = some g →
    (g.pendingVer = false ∨ s.hasEmitted g = false ∨ (∃ j ∈ shardRanks g.p, g.got.contains j = false) → exec (.versionPublish field gid) s = .next s) ∧
    (g.pendingVer = true → s.hasEmitted g = true → (∀ j ∈ shardRanks g.p, g.got.contains j = true) → g.removing = none →
      (∀ c ∈ s.host.cmds, ∀ p, c.body = .driftAudit p → c.phase ≠ .running) →
      ∃ t : State, exec (.versionPublish field gid) s = .next t ∧
        t = { s with fields := t.fields, host := { s.host with cmds := t.host.cmds } } ∧
        t.group field gid = some { g with
          version := g.nextVersion, published := true, pendingVer := g.behind, behind := false, emitting := false, got := [], pubOnly := none } ∧
        (∀ f k, (f, k) ≠ (field.val, gid) → t.group f k = s.group f k) ∧
        (∀ f, { t.fld f with groups := (s.fld f).groups } = (if g.pubOnly = none then s else s.foldDone field).fld f) ∧
        t.host.cmds = s.host.cmds.map (fun c => if g.pubOnly = some c.uid then c.finish stDone [] else c))) ∧
  (∀ (s : State) (field : Fin 64) (gid j : Nat) (d : List Byte), s.group field gid = none →
    exec (.workingCopyEmit field gid) s = .next s ∧ exec (.ownerShardReceive field gid j d) s = .next s ∧ exec (.versionPublish field gid) s = .next s ∧
    exec (.shardReductionLanded field gid [(j, d)]) s = .next s.reachMarks ∧ exec (.mirrorShardLanded field gid j d) s = .next s.reachMarks)

/-- Offload, prefetch, fetch of a group's state and acknowledgement of its write-back. For an OFFLOAD entry of the
training partition that covers the field, in a running step: OFFLOAD_READ_DONE after OUT_MARK writes the entry's bytes
from SBASE to the step's host slot and adds 1 to OSEM of each served tile of TMASK; OFFLOAD_DONE after it marks the
offload complete; PREFETCH_START after IN_MARK, once the offload that it needs is complete, asks the host tier for the
bytes; PREFETCH_LANDED writes them at LBASE and adds 1 to ISEM; a transfer of an aborted attempt ends first, with no
semaphore. STATE_FETCH of a HOST group that wants its state and shares its landing area with no other asks for the
planes of bank BANK; one whose area is in use, or goes to another group first (assumption 124), waits. FETCH_LANDED
writes them and makes the group resident, where BANK has not moved on, and no other that shares the area, and audits
that waited run. TIER_WRITEBACK_ACK ends the oldest write-back that has not failed; of the step in progress, unless
LATE, a COMMIT that waited is counted. Twice or out of place each changes nothing. Everything not named stays. -/
def Obligations.TierRows : Prop :=
  (∀ (s : State) (part : Fin 16) (aid : Nat) (f : Fin 64) (d : List Byte), (∀ e, smapFind s.acts (actKey part aid) = some e → e.p.policy ≠ 1 ∨
      e.p.fmask.testBit f = false) ∨ (s.part part).train = false ∨ s.bcn.begun = false →
    exec (.offloadReadDone part aid f) s = .next s ∧ exec (.prefetchStart part aid f) s = .next s ∧
    ((s.actProg part aid f).offLate = false → exec (.offloadDone part aid f) s = .next s) ∧
    ((s.actProg part aid f).pfLate = false → exec (.prefetchLanded part aid f d) s = .next s)) ∧
  (∀ (s : State) (part : Fin 16) (aid : Nat) (f : Fin 64) (e : ActEntry) (data : List Byte), smapFind s.acts (actKey part aid) = some e →
    let pr := smapGet {} e.prog f
    let moved := fun (t : State) (x : ActProg) => ∃ ps, smapFind t.acts (actKey part aid) = some { e with prog := ps } ∧
      (∀ k, smapGet {} ps k = if k = f.val then x else smapGet {} e.prog k) ∧ (∀ k, k ≠ actKey part aid → smapFind t.acts k = smapFind s.acts k)
    (pr.offLate = true → ∃ t : State, exec (.offloadDone part aid f) s = .next t ∧ t = { s with acts := t.acts } ∧ moved t { pr with offLate := false }) ∧
    (pr.pfLate = true → ∃ t : State, exec (.prefetchLanded part aid f data) s = .next t ∧ t = { s with mem := t.mem, acts := t.acts } ∧
      moved t { pr with pfLate := false } ∧ t.mem = (s.pokeBytes (stackBase f + e.p.lbase) (padTo e.p.bytes data)).mem)) ∧
  (∀ (s : State) (part : Fin 16) (aid : Nat) (f : Fin 64) (e : ActEntry), smapFind s.acts (actKey part aid) = some e → e.p.policy = 1 →
    e.p.fmask.testBit f = true → (s.part part).train = true → s.bcn.begun = true →
    let pr := smapGet {} e.prog f
    let moved := fun (t : State) (x : ActProg) => ∃ ps, smapFind t.acts (actKey part aid) = some { e with prog := ps } ∧
      (∀ k, smapGet {} ps k = if k = f.val then x else smapGet {} e.prog k) ∧ (∀ k, k ≠ actKey part aid → smapFind t.acts k = smapFind s.acts k)
    let told := fun (t : State) (sem : Nat) => ∀ n, t.tile n =
      if n / 16 = f.val ∧ e.p.tmask.testBit (n % 16) = true ∧ s.served n = true then (s.tile n).signal sem else s.tile n
    (pr.read = true ∨ s.pastMark e.p.outMark = false → exec (.offloadReadDone part aid f) s = .next s) ∧
    (pr.read = false → s.pastMark e.p.outMark = true → ∃ t : State, exec (.offloadReadDone part aid f) s = .next t ∧
      t = { s.store (.bulk part f) (ActP.hostSlotOf e.p f s.bcn.step) (s.peekBytes (stackBase f + e.p.sbase) e.p.bytes) with
        acts := t.acts, tiles := t.tiles } ∧ moved t { pr with started := true, read := true } ∧ told t e.p.osem) ∧
    (pr.read = false → pr.offLate = false → exec (.offloadDone part aid f) s = .next s) ∧
    (pr.read = true → pr.offLate = false → ∃ t : State, exec (.offloadDone part aid f) s = .next t ∧ t = { s with acts := t.acts } ∧ moved t { pr with off := true }) ∧
    (pr.pfRun = true ∨ s.pastMark e.p.inMark = false ∨ (e.p.dfr = 1 ∧ e.first = true) ∨ (e.p.dfr ≠ 1 ∧ pr.off = false) →
      exec (.prefetchStart part aid f) s = .next s) ∧
    (pr.pfRun = false → s.pastMark e.p.inMark = true → (e.p.dfr = 1 ∧ e.first = false) ∨ (e.p.dfr ≠ 1 ∧ pr.off = true) →
      ∃ t : State, exec (.prefetchStart part aid f) s = .next t ∧ moved t { pr with pfRun := true } ∧
        t = { s.tell (.bulk part f) (.hostRead (ActP.hostSlotOf e.p f (if e.p.dfr = 1 then s.bcn.step - 1 else s.bcn.step)) e.p.bytes) with
          acts := t.acts }) ∧
    (pr.pfLate = false → ∀ data, (pr.pfRun = false ∨ pr.pfDone = true → exec (.prefetchLanded part aid f data) s = .next s) ∧
      (pr.pfRun = true → pr.pfDone = false → ∃ t : State, exec (.prefetchLanded part aid f data) s = .next t ∧
        t = { s with mem := t.mem, acts := t.acts, tiles := t.tiles } ∧ moved t { pr with pfDone := true } ∧ told t e.p.isem ∧
        (∀ a, a < stackBase f + e.p.lbase ∨ stackBase f + e.p.lbase + e.p.bytes ≤ a → memRead t.mem a = memRead s.mem a) ∧
        (MemInv s → stackWhole s f → e.p.lbase + e.p.bytes ≤ 2 ^ 37 → ∀ i, i < e.p.bytes →
          memRead t.mem (stackBase f + e.p.lbase + i) = (padTo e.p.bytes data).getD i 0)))) ∧
  (∀ (s : State) (f : Fin 64) (gid w : Nat) (d : List Byte), s.group f gid = none →
    exec (.stateFetch f gid) s = .next s ∧ exec (.fetchLanded f gid d) s = .next s ∧ exec (.tierWritebackAck f gid w) s = .next s) ∧
  (∀ (s : State) (f : Fin 64) (gid : Nat) (g : Group), s.group f gid = some g →
    (s.wantsFetch g = false ∨ (∃ x ∈ (s.fld f).groups, x.1 ≠ gid ∧ sharesLanding x.2 g = true ∧
        (x.2.fetching = true ∨ x.2.wbq ≠ [] ∨ (x.2.resident = true ∧ x.2.pendingVer = true ∧ s.hasEmitted x.2 = false) ∨
          (s.wantsFetch x.2 = true ∧ (s.needsState x.2 = s.needsState g ∧ x.1 < gid ∨ s.needsState x.2 = true ∧ s.needsState g = false)))) →
      exec (.stateFetch f gid) s = .next s) ∧
    (s.wantsFetch g = true → (∀ x ∈ (s.fld f).groups, x.1 ≠ gid → sharesLanding x.2 g = false) → ∃ t : State, exec (.stateFetch f gid) s = .next t ∧
      GroupStep s t f gid { g with fetching := true, fetchBank := g.bank } ∧
      t = { s.forAll ([0, 1, 2, 3].filter (fun k => g.p.planeSize (s.ownBlocks g.p).2 k != 0)) (fun s k => s.tell (s.fieldClass f)
        (.hostRead (g.p.hostOff (s.ownBlocks g.p).2 k g.bank) (g.p.planeSize (s.ownBlocks g.p).2 k))) with fields := t.fields }) ∧
    (∀ data, (g.fetching = false → exec (.fetchLanded f gid data) s = .next s) ∧
      (g.fetching = true → g.p.field = f.val → g.fetchBank ≤ 1 → let n := (s.ownBlocks g.p).2
        let place := fun k => s.planeAddr g.p k g.fetchBank 0
        ∃ t : State, exec (.fetchLanded f gid data) s = .next (t.runAudits f gid) ∧ (s.auditsOf f gid = [] → t.runAudits f gid = t) ∧ t = { s with mem := t.mem, fields := t.fields } ∧
          t.group f gid = some { g with fetching := false, resident := g.resident || g.fetchBank == g.bank, both := g.both || g.fetchBank != g.bank } ∧ (∀ h k, h ≠ f.val → t.group h k = s.group h k) ∧
          (∀ k x, k ≠ gid → s.group f k = some x → t.group f k = some (if sharesLanding x g = true then { x with resident := false, both := false } else x)) ∧
          (∀ h, { t.fld h with groups := (s.fld h).groups } = s.fld h) ∧
          (∀ a, (∀ k, k < 4 → a < place k ∨ place k + g.p.planeSize n k ≤ a) → memRead t.mem a = memRead s.mem a) ∧
          (MemInv s → stackWhole s f → planeEnd g.p.pbase (g.p.baseSizes n) ≤ 2 ^ 37 →
            ∀ k i, k < 4 → i < g.p.planeSize n k → memRead t.mem (place k + i) =
              (padTo (g.p.planeSize n k) (data.drop (((List.range k).map (g.p.planeSize n)).foldl (· + ·) 0))).getD i 0))) ∧
    (∀ w, ((∀ k ∈ g.wbq, k = 3) → exec (.tierWritebackAck f gid w) s = .next s) ∧
      (∀ as k bs, g.wbq = as ++ k :: bs → (∀ x ∈ as, x = 3) → k ≠ 3 → ∃ t : State, exec (.tierWritebackAck f gid w) s = .next t ∧ t = { s with fields := t.fields } ∧
        GroupStep s t f gid (if k ≠ 0 ∨ (w = 0 ∧ s.waitsForTier = false) ∨ g.p.tier.late = 1 then { g with wbq := as ++ bs } else { g with
          wbq := as ++ bs, tierWait := true, tstall := min (g.tstall + 1) 65535, waitUs := min (g.waitUs + w) 65535 }))))

/-- OUTER_APPLY_SWEEP, OUTER_FOLD_SWEEP, OUTER_CLOSE_SWEEP, OUTER_COMBINE_SWEEP and OUTER_MASTER_RECEIVE. For a group
whose outer sweeps may run: the apply sweep installs a fetched state; in JOINING, and with nothing landed, it decides
nothing; one landed aggregate is a duplicate, is not finite, waits, is stale or is taken, in that order, and taking it
gives each word of tb and mo the value of the rule from the old word, the weight and DIV. The fold sweep of a closing
step returns the slots older than S, but in JOINING or after an installation. The close sweep puts the contribution
into the free slot of lower number (D the difference of master and tm, tm the master), or counts a skip when both
slots are in use, the island is not LINKED or a word is not finite; it notes the state in which the island meets the
close. The combine sweep of an owner that has an effective parent and only its own contribution sends it UP. Each
sweep runs once; out of turn it changes nothing but that marks already due are reached. OUTER_MASTER_RECEIVE under
MIRROR writes another rank's shard of the other bank, or keeps it until the group's own sweeps are done. Changes of
slots and landing slots wait for COMMIT. Operand words are read with subnormals as zero. Premises say where planes
lie, that the stack is whole and that no ring is shut both ways. That banked planes are carried over first is the
model's (assumption 32). -/
def Obligations.OuterSweeps : Prop :=
  (∀ (s : State) (f : Fin 64) (gid n : Nat), s.outerRuns f gid = none →
    exec (.outerApplySweep f gid) s = .next s.reachMarks ∧ exec (.outerFoldSweep f gid) s = .next s.reachMarks ∧
    exec (.outerCloseSweep f gid) s = .next s.reachMarks ∧ exec (.outerCombineSweep f gid n) s = .next s.reachMarks) ∧
  (∀ (s : State) (f : Fin 64) (gid : Nat) (r : FedP) (g : Group) (o : OuterGroup), OuterTurn s f gid r g o →
    (o.pend.ran.contains 0 = true → exec (.outerApplySweep f gid) s = .next s.reachMarks) ∧
    (s.outer.closing = false ∨ o.pend.ran.contains 0 = false ∨ o.pend.ran.contains 1 = true → exec (.outerFoldSweep f gid) s = .next s.reachMarks) ∧
    (s.outer.closing = false ∨ o.pend.ran.contains 1 = false ∨ o.pend.ran.contains 2 = true → exec (.outerCloseSweep f gid) s = .next s.reachMarks) ∧
    (∀ n, o.pend.ran.contains 0 = false ∨ (s.outer.closing = true ∧ o.pend.ran.contains 2 = false) ∨ s.roundReady r o n = false →
      exec (.outerCombineSweep f gid n) s = .next s.reachMarks)) ∧
  (∀ (s : State) (f : Fin 64) (gid : Nat) (r : FedP) (g : Group) (o : OuterGroup) (v : Nat) (data : List Byte), OuterTurn s f gid r g o →
    o.pend.ran.contains 0 = false → s.outer.install = some v → o.fetched = some data → (g.p.cons = 0 → joined s) →
    ∃ u : State, exec (.outerApplySweep f gid) s = .next u.reachMarks ∧ (g.p.cons ≠ 0 → u.fab = s.fab) ∧
      u = { s with mem := u.mem, fields := u.fields, fab := u.fab, outbox := u.outbox } ∧
      OuterStep s u f gid g { o with pend := { o.pend with installed := true, ran := o.pend.ran ++ [0] } } ∧
      (OuterPlaced s g o → let n := s.shardBlocks g.p
        ∀ k, k < 512 * n → memRead u.mem (s.masterAddr g.p (1 - g.bank) 0 + k) = (padTo (512 * n) data).getD k 0 ∧
          memRead u.mem (s.outAddr g.p o.p (1 - g.bank) + k) = (padTo (512 * n) data).getD k 0 ∧
          memRead u.mem (s.outAddr g.p o.p (2 + (1 - g.bank)) + k) = (padTo (512 * n) data).getD k 0 ∧
          memRead u.mem (s.outAddr g.p o.p (4 + (1 - g.bank)) + k) = (padTo (512 * n) (data.drop (512 * n))).getD k 0 ∧
          (k < 256 * n → memRead u.mem (s.outAddr g.p o.p (6 + (1 - g.bank)) + k) = 0))) ∧
  (∀ (s : State) (f : Fin 64) (gid : Nat) (r : FedP) (g : Group) (o : OuterGroup), OuterTurn s f gid r g o → o.pend.ran.contains 0 = false →
    s.outer.install = none ∨ o.fetched = none → let n := s.shardBlocks g.p
    (s.outer.state = 1 ∨ (o.again = [] ∧ o.landedInOrder = []) → ∃ u : State, exec (.outerApplySweep f gid) s = .next u.reachMarks ∧ u = { s with mem := u.mem, fields := u.fields } ∧
      OuterStep s u f gid g { o with pend := if s.outer.state = 1 then { o.pend with ran := o.pend.ran ++ [0] } else { o.pend with
        ran := o.pend.ran ++ [0], freeLand := [], freeSlot := [], masks := [], base := none, lastj := none, applied := 0 } } ∧
      (OuterPlaced s g o → ∀ i len k, (i, len) ∈ [(0, 512), (2, 512), (4, 512), (6, 256)] → k < len * n →
        memRead u.mem (s.outAddr g.p o.p (i + (1 - g.bank)) + k) = memRead s.mem (s.outAddr g.p o.p (i + g.bank) + k))) ∧
    (∀ i l, s.outer.state ≠ 1 → o.again = [] → o.slots = [] → o.landedInOrder = [(i, l)] → (g.p.cons = 0 → joined s) → let rho := s.outer.rho
      let dup := decide (Nat.land (smapGet 0 o.masks l.round) l.mask ≠ 0)
      let bad := !dup && s.wireBad o.p.dfmt (s.outAddr g.p o.p (12 + i) + 64) n
      let wait := !dup && !bad && decide (rho ≤ l.round)
      let stale := !dup && !bad && !wait && decide (r.s < rho - l.round - 1)
      let take := !dup && !bad && !wait && !stale
      ∃ u : State, exec (.outerApplySweep f gid) s = .next u.reachMarks ∧ (g.p.cons ≠ 0 → u.fab = s.fab) ∧
        u = { s with mem := u.mem, hostMem := u.hostMem, fields := u.fields, host := u.host, fab := u.fab, outbox := u.outbox } ∧
        OuterStep s u f gid g { o with
          dupSeen := o.dupSeen || dup, nonfin := o.nonfin || bad, staleSeen := o.staleSeen || stale,
          pend := { o.pend with
            ran := o.pend.ran ++ [0], freeLand := if wait = true then [] else [i], freeSlot := [],
            masks := if take = true then [(l.round, l.mask)] else [], applied := if take = true then 1 else 0,
            base := if take = true then some (if o.base = none32 then l.round else max o.base l.round) else none,
            lastj := if take = true ∧ l.mask ≠ 2 ^ s.memberIdx r then some (if o.lastj = none32 then l.round else max o.lastj l.round) else none } } ∧
        (take = true → i < 8 → OuterPlaced s g o →
          let w := FedP.weight r (if l.catchup = true then (if l.base = none32 then r.s else min (rho - l.base - 1) r.s) else rho - l.round - 1)
          ∀ b e, b < n → e < 128 →
            let tb := flushF32 ((s.outF32s g.p o.p g.bank b).getD e 0)
            let mo := flushF32 ((s.outF32s g.p o.p (4 + g.bank) b).getD e 0)
            let aa := fMul (fAdd 0 (fMul w ((s.wireWords o.p.dfmt (s.outAddr g.p o.p (12 + i) + 64) b).getD e 0))) (fDiv oneF32 (f32OfNat r.div))
            let mo1 := fAdd (fMul o.p.omom mo) aa
            (u.outF32s g.p o.p (4 + (1 - g.bank)) b).getD e 0 = mo1 ∧
            (u.outF32s g.p o.p (1 - g.bank) b).getD e 0 = fAdd tb (fMul o.p.olr (fAdd aa (fMul o.p.omom mo1)))))) ∧
  (∀ (s : State) (f : Fin 64) (gid : Nat) (r : FedP) (g : Group) (o : OuterGroup), OuterTurn s f gid r g o → s.outer.closing = true →
    o.pend.ran.contains 0 = true → o.pend.ran.contains 1 = false →
    let ks := o.slots.filter (fun k => s.outer.state != 1 && !o.pend.installed && r.s < s.outer.rho - k.2.round && !o.pend.freeSlot.contains k.1)
    ∃ u : State, exec (.outerFoldSweep f gid) s = .next u.reachMarks ∧
      u = { s with mem := u.mem, hostMem := u.hostMem, fields := u.fields, host := u.host, outbox := u.outbox } ∧
      OuterStep s u f gid g { o with
        foldSeen := o.foldSeen || !ks.isEmpty,
        pend := { o.pend with freeSlot := o.pend.freeSlot ++ ks.map Prod.fst, folds := ks.length, ran := o.pend.ran ++ [1] } } ∧
      (ks = [] → u.mem = s.mem) ∧
      (∀ k x, ks = [(k, x)] → k < 2 → OuterPlaced s g o → ∀ b e, b < s.shardBlocks g.p → e < 128 →
        (u.outF32s g.p o.p (2 + (1 - g.bank)) b).getD e 0 =
          fSub (flushF32 ((s.outF32s g.p o.p (2 + (1 - g.bank)) b).getD e 0)) (flushF32 ((s.outF32s g.p o.p (8 + k) b).getD e 0)))) ∧
  (∀ (s : State) (f : Fin 64) (gid : Nat) (r : FedP) (g : Group) (o : OuterGroup), OuterTurn s f gid r g o → s.outer.closing = true →
    o.pend.ran.contains 1 = true → o.pend.ran.contains 2 = false →
    let other := 1 - g.bank
    let bad := ∃ b, b < s.shardBlocks g.p ∧ s.closeBlock g o b = none
    let full := smapFind o.slots 0 ≠ none ∧ smapFind o.slots 1 ≠ none
    ((full ∨ s.outer.state ≠ 2) → ∃ u : State, exec (.outerCloseSweep f gid) s = .next u.reachMarks ∧ u = { s.closeReached with fields := u.fields } ∧
      OuterStep s u f gid g { o with pend := { o.pend with skips := o.pend.skips + 1, ran := o.pend.ran ++ [2] } }) ∧
    (¬ full → s.outer.state = 2 → bad → ∃ u : State, exec (.outerCloseSweep f gid) s = .next u.reachMarks ∧
      u = { s.closeReached with hostMem := u.hostMem, fields := u.fields, host := u.host, outbox := u.outbox } ∧
      OuterStep s u f gid g { o with nonfin := true, pend := { o.pend with skips := o.pend.skips + 1, ran := o.pend.ran ++ [2] } }) ∧
    (∀ k, k = (if smapFind o.slots 0 = none then 0 else 1) → ¬ full → s.outer.state = 2 → ¬ bad →
      ∃ u : State, exec (.outerCloseSweep f gid) s = .next u.reachMarks ∧
        u = { s.closeReached with mem := u.mem, hostMem := u.hostMem, fields := u.fields, host := u.host, outbox := u.outbox } ∧
        OuterStep s u f gid g { o with pend := { o.pend with
          fillSlot := [(k, { round := s.outer.rho, catchup := o.catchup, base := o.pend.base.getD o.base, sent := false })], ran := o.pend.ran ++ [2] } } ∧
        (OuterPlaced s g o → ∀ b e, b < s.shardBlocks g.p → e < 128 →
          let tl := (s.peekF32s (s.masterAddr g.p other b) 128).getD e 0
          (u.outF32s g.p o.p (8 + k) b).getD e 0 = fSub (flushF32 tl) (flushF32 ((s.outF32s g.p o.p (2 + other) b).getD e 0)) ∧
          (u.outF32s g.p o.p (2 + other) b).getD e 0 = tl))) ∧
  (∀ s : State, s.closeReached = { s with outer := { s.outer with
    closeIn := if s.outer.closing = true ∧ s.outer.closeIn = none then some s.outer.state else s.outer.closeIn } }) ∧
  (∀ (s : State) (f : Fin 64) (gid n k q : Nat) (r : FedP) (g : Group) (o : OuterGroup) (x : OutRound), OuterTurn s f gid r g o →
    o.pend.ran.contains 0 = true → (s.outer.closing = true → o.pend.ran.contains 2 = true) → s.roundReady r o n = true → o.upItems n = [] →
    o.ownItem n = some (k, x) → s.effParent r (r.members.length + 1) (s.memberIdx r) = some q →
    let item : Xfer :=
      { typ := 0, srcIsland := s.place.islandId, dstIsland := (r.members.map (fun m => m.island)).getD q 0, fmt := o.p.dfmt,
        round := n, base := x.base, item := s.keyOf f gid, srcModule := s.place.moduleId, attempt := 0,
        payload := outerHeader (2 ^ s.memberIdx r) x.catchup (128 * s.shardBlocks g.p) 0 0 0 0 ++
          s.peekBytes (s.outAddr g.p o.p (10 + k)) (wireLen o.p.dfmt (s.shardBlocks g.p)) }
    ∃ u : State, exec (.outerCombineSweep f gid n) s = .next u.reachMarks ∧ u = { s with fields := u.fields } ∧
      OuterStep s u f gid g { o with pend := { o.pend with
        rounds := o.pend.rounds ++ [n], sentSlots := o.pend.sentSlots ++ [k],
        sends := o.pend.sends ++ [item] } }) ∧
  (∀ (s : State) (f : Fin 64) (gid j : Nat) (g : Group) (o : OuterGroup) (data : List Byte), s.group f gid = some g →
    (g.outer = none ∨ g.p.cons ≠ 0 ∨ g.p.r ≤ j ∨ j = s.rankOf g.p ∨ s.bcn.begun = false → exec (.outerMasterReceive f gid j data) s = .next s) ∧
    (g.outer = some o → g.p.cons = 0 → j < g.p.r → j ≠ s.rankOf g.p → s.bcn.begun = true →
      (g.updated = true → ∃ t : State, exec (.outerMasterReceive f gid j data) s = .next t ∧ t = { s with mem := t.mem, fields := t.fields } ∧ GroupStep s t f gid { g with outer := some (o.heardFrom j) } ∧
        let base := s.planeAddr g.p 0 (1 - g.bank) (512 * g.p.shardLo j)
        (∀ a, a < base ∨ base + 512 * g.p.shardLen j ≤ a → memRead t.mem a = memRead s.mem a) ∧
        (MemInv s → (∀ i, i < 512 * g.p.shardLen j → s.lostAt (base + i) = false) → ∀ i, i < 512 * g.p.shardLen j →
          memRead t.mem (base + i) = (padTo (512 * g.p.shardLen j) data).getD i 0)) ∧
      (g.updated = false → ∃ t : State, exec (.outerMasterReceive f gid j data) s = .next t ∧ t = { s with fields := t.fields } ∧
        GroupStep s t f gid { g with outer := some { o.heardFrom j with early := smapSet o.early j data } }))) ∧
  (∀ (s : State) (f : Fin 64) (gid j : Nat) (d : List Byte), s.group f gid = none → exec (.outerMasterReceive f gid j d) s = .next s)

/-- UP and DOWN transfers, STATUS, fetches and the outer loop's floods. A transfer for another island leaves here by the
lantern port that its source chose, or by another of this gateway's that is UP; with none, a transfer of another
module is cut and its source told. A transfer of the module's own goes to a gateway that is UP, numbered by the module
id. UP_TRANSFER_DELIVERED and DOWN_TRANSFER_DELIVERED for a registered group of matching NELEM fill the first free
landing slot with header and data; with none free they wait at the group; for no such group they are discarded with
the outer event. A keeper takes STATUS of a partner: with REQ 1, no other exchange, no gather frame waiting and the
island LINKED or ALONE, it becomes JOINING with that source when the decision says so and LINKED otherwise; an unasked
one with REQ 0, or at any other module, changes nothing. FETCH_REQ_RX is answered at once outside a step, kept for the
COMMIT within one, and cut by a JOINING island. FETCH_DATA_RX from the source of a JOINING island is kept for
installation. OUTER_FLOOD_RX changes the island's view, LASTJ, state or readiness to install as it names them, tells
the keeper which modules hold outer groups (with none left the island is OFF) and lets a held step begin when HELD
ends; a partner flood that says nothing new goes no further, and one with an id out of its range is dropped. The
delivered UP and DOWN transfers and the flood are followed by the marks already due. Premises say that no ring is shut
both ways. Which payload a flood has is the model's (assumption 28). -/
def Obligations.OuterTransfersAndFloods : Prop :=
  (∀ (s : State) (x : Xfer), x.dstIsland ≠ s.place.islandId →
    exec (.upTransferDelivered x) s = .next (s.relayXfer x).reachMarks ∧ exec (.downTransferDelivered x) s = .next (s.relayXfer x).reachMarks ∧
    exec (.statusTransferRx x) s = .next (s.relayXfer x) ∧ exec (.fetchReqRx x) s = .next (s.relayXfer x) ∧
    exec (.fetchDataRx x) s = .next (s.relayXfer x) ∧
    ((∀ y ∈ s.gatesUp x.dstIsland, y.1 ≠ s.place.moduleId) → x.srcIsland ≠ s.place.islandId ∨ x.srcModule ≠ s.place.moduleId →
      s.relayXfer x = { s with outbox := s.outbox ++ [.cut x.srcIsland x.srcModule x] }) ∧
    (∀ p, (s.gatesUp x.dstIsland)[x.srcModule % (s.gatesUp x.dstIsland).length]? = some (s.place.moduleId, p) → s.relayXfer x = s.lntSend p x) ∧
    (∀ m q p, (s.gatesUp x.dstIsland)[x.srcModule % (s.gatesUp x.dstIsland).length]? = some (m, q) → m ≠ s.place.moduleId →
      (s.gatesUp x.dstIsland).find? (fun y => y.1 == s.place.moduleId) = some (s.place.moduleId, p) → s.relayXfer x = s.lntSend p x) ∧
    (s.gatesUp x.dstIsland = [] → x.srcIsland ≠ s.place.islandId ∨ x.srcModule ≠ s.place.moduleId →
      s.sendXfer x = { s with outbox := s.outbox ++ [.cut x.srcIsland x.srcModule x] }) ∧
    (∀ m p, (s.gatesUp x.dstIsland)[s.place.moduleId % (s.gatesUp x.dstIsland).length]? = some (m, p) → m ≠ s.place.moduleId →
      s.sendXfer x = s.sendMsg (s.trainPart.getD 16) 0 gatewaySet m 0 (relayMsg x))) ∧
  (∀ (s : State) (x : Xfer), x.dstIsland = s.place.islandId →
    (x.typ ≠ 0 → exec (.upTransferDelivered x) s = .next s.reachMarks) ∧ (x.typ ≠ 1 → exec (.downTransferDelivered x) s = .next s.reachMarks) ∧
    (x.typ ≠ 2 → exec (.statusTransferRx x) s = .next s) ∧ (x.typ ≠ 3 → exec (.fetchReqRx x) s = .next s) ∧
    (x.typ ≠ 4 → exec (.fetchDataRx x) s = .next s) ∧
    (x.item % 1024 ≠ s.place.moduleId ∨ s.group (keyField x.item) (keyGid x.item) = none → ∀ ev : Instr,
      (x.typ = 3 ∧ ev = .fetchReqRx x) ∨ (x.typ = 4 ∧ ev = .fetchDataRx x) →
      ∃ t : State, exec ev s = .next t ∧ t = { s with host := t.host, hostMem := t.hostMem, outbox := t.outbox }) ∧
    (x.item % 1024 ≠ s.place.moduleId ∨ s.group (keyField x.item) (keyGid x.item) = none → ∀ ev : Instr,
      (x.typ = 0 ∧ ev = .upTransferDelivered x) ∨ (x.typ = 1 ∧ ev = .downTransferDelivered x) →
      ∃ t : State, exec ev s = .next t.reachMarks ∧ t = { s with host := t.host, hostMem := t.hostMem, outbox := t.outbox })) ∧
  (∀ (s : State) (x : Xfer) (g : Group) (o : OuterGroup) (ev : Instr), x.dstIsland = s.place.islandId →
    (x.typ = 0 ∧ ev = .upTransferDelivered x) ∨ (x.typ = 1 ∧ ev = .downTransferDelivered x) → x.item % 1024 = s.place.moduleId → x.item < 2 ^ 24 →
    s.group (keyField x.item) (keyGid x.item) = some g → g.outer = some o → bytesAt x.payload 4 4 = 128 * s.shardBlocks g.p →
    (o.freeLanding = none → ∃ u : State, exec ev s = .next u.reachMarks ∧ u = { s with fields := u.fields } ∧
      GroupStep s u (keyField x.item) (keyGid x.item) { g with outer := some { o with waiting := o.waiting ++ [x] } }) ∧
    (∀ i, o.freeLanding = some i → let n := 64 + wireLen o.p.dfmt (s.shardBlocks g.p)
      let base := s.outAddr g.p o.p (12 + i)
      let item : Landing :=
        { up := x.typ == 0, round := x.round, base := x.base, mask := bytesAt x.payload 0 2, catchup := (x.payload.getD 2 0).toNat.testBit 0,
          late := s.bcn.begun && (smapGet 0 s.bcn.fieldReached (keyField x.item)).testBit 28 }
      ∃ u : State, exec ev s = .next u.reachMarks ∧ u = { s with mem := u.mem, fields := u.fields } ∧
        GroupStep s u (keyField x.item) (keyGid x.item) { g with outer := some { o with
          landing := smapSet o.landing i item,
          heard := if x.typ = 0 then smapModify 0 o.heard x.round (fun m => Nat.lor m (s.senderBit x)) else o.heard } } ∧
        (∀ a, a < base ∨ base + n ≤ a → memRead u.mem a = memRead s.mem a) ∧
        (MemInv s → (∀ k, k < n → s.lostAt (base + k) = false) → ∀ k, k < n → memRead u.mem (base + k) = (padTo n x.payload).getD k 0))) ∧
  (∀ (s : State) (x : Xfer), x.dstIsland = s.place.islandId → x.typ = 2 → let i := x.srcIsland
    let got : Standing := { group := bytesAt x.payload 16 1, rho := bytesAt x.payload 8 4, lastj := bytesAt x.payload 12 4 }
    (s.isKeeper = false ∨ s.partners.contains i = false → exec (.statusTransferRx x) s = .next s) ∧
    (bytesAt x.payload 17 1 ≠ 1 → s.outer.asked = [] → 2 ≤ s.outer.state → exec (.statusTransferRx x) s = .next s) ∧
    (s.isKeeper = true → s.partners.contains i = true → bytesAt x.payload 17 1 = 1 → s.outer.asked = [] → s.outer.state = 2 ∨ s.outer.state = 3 →
      joined s → s.bcn.waits = [] →
      let joins := mustJoin s.place.islandId ((s.outer.fed.map (fun r => r.rejoin)).getD 0) { island := i, own := s.standing i, got := some got } got
      ∃ t : State, exec (.statusTransferRx x) s = .next t ∧ t.outer.state = (if joins = true then 1 else 2) ∧ t.tiles = s.tiles ∧
        ((∀ y ∈ s.gatesUp i, y.1 ≠ s.place.moduleId) → t.mem = s.mem) ∧
        t.outer.rho = s.outer.rho ∧ t.outer.lastj = s.outer.lastj ∧ t.outer.asked = [] ∧
        (joins = true → t.outer.source = some i ∧ t.outer.rhoSrc = some got.rho ∧ t.outer.rejoinSeen = true) ∧
        (joins = false → t.fields = s.fields ∧ t.outer.source = s.outer.source))) ∧
  (∀ (s : State) (x : Xfer) (g : Group) (o : OuterGroup), x.dstIsland = s.place.islandId → x.item % 1024 = s.place.moduleId → x.item < 2 ^ 24 →
    s.group (keyField x.item) (keyGid x.item) = some g → g.outer = some o →
    (x.typ = 3 → s.outer.state = 1 → exec (.fetchReqRx x) s = .next { s with outbox := s.outbox ++ [.cut x.srcIsland x.srcModule x] }) ∧
    (x.typ = 3 → s.outer.state ≠ 1 → s.bcn.begun = true → ∃ t : State, exec (.fetchReqRx x) s = .next t ∧ t = { s with fields := t.fields } ∧
      GroupStep s t (keyField x.item) (keyGid x.item) { g with outer := some { o with reqs := o.reqs ++ [x] } }) ∧
    (x.typ = 3 → s.outer.state ≠ 1 → s.bcn.begun = false → exec (.fetchReqRx x) s = .next (s.sendXfer (s.fetchReply g o x)) ∧
      (s.fetchReply g o x).typ = 4 ∧ (s.fetchReply g o x).dstIsland = x.srcIsland ∧ (s.fetchReply g o x).payload.drop 64 =
        s.peekBytes (s.outAddr g.p o.p g.bank) (512 * s.shardBlocks g.p) ++ s.peekBytes (s.outAddr g.p o.p (4 + g.bank)) (512 * s.shardBlocks g.p)) ∧
    (x.typ = 4 → bytesAt x.payload 4 4 = 128 * s.shardBlocks g.p →
      (s.outer.state ≠ 1 ∨ s.outer.source ≠ some x.srcIsland ∨ s.outer.install ≠ none → exec (.fetchDataRx x) s = .next s) ∧
      (s.outer.state = 1 → s.outer.source = some x.srcIsland → s.outer.install = none → s.bcn.waits = [] → ∃ t : State, exec (.fetchDataRx x) s = .next t ∧
        t = { s with fields := t.fields, outer := { s.outer with gathered := t.outer.gathered }, bcn := t.bcn, fab := t.fab,
                     outbox := t.outbox } ∧
        GroupStep s t (keyField x.item) (keyGid x.item) { g with outer := some { o with fetched := some (x.payload.drop 64) } }))) ∧
  (∀ (s : State) (w : OuterFlood), s.place.placed = false ∨ OuterFlood.wf w = false → exec (.outerFloodRx w) s = .next s.reachMarks) ∧
  (∀ s : State, s.place.placed = true →
    (∀ v, v < 2 ^ 32 → let w := s.roundOver 10 0 s.bcn.step
      exec (.outerFloodRx (.lastj v)) s = .next (State.reachMarks { w with outer := { w.outer with lastj := v } }) ∧
      (s.bcn.waits = [] → w = { s with bcn := { s.bcn with rounds := w.bcn.rounds, roundCount := w.bcn.roundCount } })) ∧
    (∀ v, v < 2 ^ 32 → let w := s.roundOver 10 1 s.bcn.step
      exec (.outerFloodRx (.landed v)) s =
        .next (State.reachMarks { w with outer := { w.outer with install := if s.outer.state = 1 then some v else w.outer.install } }) ∧
      (s.bcn.waits = [] → w = { s with bcn := { s.bcn with rounds := w.bcn.rounds, roundCount := w.bcn.roundCount } })) ∧
    (∀ v src rejoin, v ≤ 4 → src < 16 ∨ src = 255 → let from1 := if src = 255 then none else some src
      let said : State := { s with outer := { s.outer with state := v, holdSeen := s.outer.holdSeen || v == 4 } }
      let join : State := { s with outer := { s.outer with state := 1, rejoinSeen := s.outer.rejoinSeen || rejoin, join := false, source := from1 } }
      (v ≠ 1 → s.outer.state = v → exec (.outerFloodRx (.state v src rejoin)) s = .next s.reachMarks) ∧
      (v ≠ 1 → s.outer.state ≠ v → s.outer.state ≠ 4 ∨ s.bcn.advance = none ∨ s.isKeeper = false ∨ s.bcn.hold = true →
        exec (.outerFloodRx (.state v src rejoin)) s = .next said.reachMarks) ∧
      (∀ n, v ≠ 1 → s.outer.state = 4 → v ≠ 4 → s.bcn.advance = some n → s.isKeeper = true → s.bcn.hold = false →
        exec (.outerFloodRx (.state v src rejoin)) s = .next (said.beginRound n).reachMarks) ∧
      (s.outer.state = 1 → s.outer.source = from1 → exec (.outerFloodRx (.state 1 src rejoin)) s = .next s.reachMarks) ∧
      (s.outer.state ≠ 4 → s.outer.state ≠ 1 ∨ s.outer.source ≠ from1 →
        (src = 255 → exec (.outerFloodRx (.state 1 src rejoin)) s = .next join.reachMarks) ∧
        (src < 16 → exec (.outerFloodRx (.state 1 src rejoin)) s = .next (join.startFetch src).reachMarks))) ∧
    (∀ m here, m < 1024 →
      (s.isKeeper = false ∨ m = s.place.moduleId → exec (.outerFloodRx (.registered m here)) s = .next s.reachMarks) ∧
      (s.isKeeper = true → m ≠ s.place.moduleId → s.outer.state ≠ 4 → let others := s.outer.regs.filter (fun k => k != m)
        ∃ u : State, exec (.outerFloodRx (.registered m here)) s = .next u.reachMarks ∧ u.tiles = s.tiles ∧ u.mem = s.mem ∧ u.fields = s.fields ∧
          u.outer.regs = (if here = true then others ++ [m] else others) ∧
          u.outer.state = (if here = false ∧ others = [] then 0 else if s.outer.state = 0 ∧ s.outer.fed ≠ none then (if s.lit = [] then 3 else 2)
            else s.outer.state))) ∧
    (∀ i m p dark arr, i < 16 → m < 1024 → p < 4 → m = s.place.moduleId ∨ s.outer.gwUp.contains (i, m, p) ≠ dark →
      exec (.outerFloodRx (.partner i m p dark arr)) s = .next (s.flareTook arr (s.partnerFrame i m p dark)).reachMarks) ∧
    (∀ i m p dark arr, i < 16 → m < 1024 → p < 4 → m ≠ s.place.moduleId → s.outer.gwUp.contains (i, m, p) = dark → joined s → s.bcn.waits = [] →
      ∃ u : State, exec (.outerFloodRx (.partner i m p dark arr)) s = .next u.reachMarks ∧ u.outer.routes = s.outer.routes ∧ u.tiles = s.tiles ∧
      (dark = true → u.outer.gwUp = s.outer.gwUp.filter (fun x => x != (i, m, p))) ∧
      (dark = false → ∀ x, x ∈ u.outer.gwUp ↔ (x = (i, m, p) ∨ x ∈ s.outer.gwUp)) ∧
      ((∀ r ∈ s.outer.routes, ∀ y ∈ r.gws.take r.ngw, y.1 ≠ s.place.moduleId) → u.mem = s.mem) ∧
      (∀ k, k < 16 → u.outer.dark.testBit k = u.outer.isDark k)))

/-- Optics, link state, HELLO, attestation, loss and close of a lantern session. OPTICS_POLL keeps lanes, loss of signal
and what the transceiver reports; a data path no longer active takes the link with it. Without optics a port is DOWN;
a port that enters TRAIN initialises the data path. LANTERN_LINK_UP takes TRAIN to LINK with a new HELLO;
LANTERN_LINK_LOST takes LINK, ATTEST, UP and DARK back to TRAIN and keeps the session. HELLO in LINK of another island
is answered with the own HELLO and a signed report, the session number formed of both random values, and the port is
in ATTEST; of the own island the port is REFUSED; in DARK a new HELLO goes out first. HELLO_RETRY sends a HELLO from
LINK, and from DARK or REFUSED while the link stands, else trains again. ATTEST_FRAME of a length no frame has is
discarded and counted; of the session in ATTEST it makes the port UP with its waiting settings in force and the lesser
number of flows when every condition passes and contexts are free (a gateway if the port is the training partition's),
else REFUSED; of another session it sets STALE. ATTEST_TIMEOUT refuses. LOSTTOUCH of a session that stands, and CLOSE
of the session, take the port to DARK: windows, flows and what was sent on it are gone. The gateway counts as no
longer up after LOSTTOUCH, not at CLOSE. LOSTTOUCH that names a cut UP transfer keeps it to go again. HELLO of a new
peer ends an old session. In any other state each changes nothing, or as stated. Premises: no ring is shut both ways,
no gather frame waits. -/
def Obligations.LanternPortsAndSessions : Prop :=
  (∀ (s : State) (p : Fin 4) (r : OpticsRead) (n : Nat), let x := s.lport p
    let y : LntPort := { x with losSeen := x.losSeen || r.los, lanesOk := min n 4, modState := r.modState, faults := r.faults }
    let runs := decide (2 ≤ x.state ∧ x.state ≤ 5)
    let wakes := decide (x.state = 0 ∧ s.place.placed = true ∧ x.configured = true ∧
      (List.range 16).any (fun q => (s.part q).state != 0 && (s.part q).lports.testBit p) = true)
    (x.present = false → exec (.opticsPoll p r n) s = .next s) ∧
    (x.present = true → x.linked = false ∨ r.active = true → ∃ t : State, exec (.opticsPoll p r n) s = .next t ∧ t = { s with lnt := t.lnt } ∧
      (∀ k, t.lport k = if k = p.val then y else s.lport k)) ∧
    (x.present = true → x.linked = true → r.active = false → ∃ t : State, exec (.opticsPoll p r n) s = .next t ∧
      t = { s with lnt := t.lnt, host := t.host, hostMem := t.hostMem, outbox := t.outbox } ∧ (∀ k, t.lport k = if k = p.val then
        { y with linked := false, state := if runs then 1 else y.state, own := if runs then none else y.own, peer := if runs then none else y.peer }
        else s.lport k)) ∧
    (∃ t : State, exec (.opticsPresenceChange p false) s = .next t ∧ t = { s with lnt := t.lnt } ∧ (∀ k, t.lport k = if k = p.val then
      { x with present := false, state := 0, linked := false, lanesOk := 0, own := none, peer := none } else s.lport k)) ∧
    (∃ t : State, exec (.opticsPresenceChange p true) s = .next t ∧
      t = { s with lnt := t.lnt, outbox := s.outbox ++ (if wakes then [.dataPath p true] else []) } ∧ (∀ k, t.lport k = if k = p.val then
        { x with present := true, state := if wakes then 1 else x.state, linked := x.linked && !wakes } else s.lport k))) ∧
  (∀ (s : State) (p : Fin 4) (n : Nat), let x := s.lport p
    (x.state = 0 → exec (.lanternLinkUp p) s = .next s) ∧
    (2 ≤ x.state → ∃ t : State, exec (.lanternLinkUp p) s = .next t ∧ t = { s with lnt := t.lnt } ∧
      (∀ k, t.lport k = if k = p.val then { x with lanesOk := 4, linked := true } else s.lport k)) ∧
    (∀ ev : Instr, (ev = .lanternLinkUp p ∧ x.state = 1) ∨ (ev = .helloRetry p ∧ (x.state = 5 ∨ x.state = 6) ∧ x.linked = true) → ∃ (t : State) (h : HelloF),
      exec ev s = .next t ∧ t = { s with lnt := t.lnt, fresh := s.fresh + 34, outbox := s.outbox ++ [.lntHello p h] } ∧
      h.island = s.place.islandId ∧ h.module = s.place.moduleId ∧ h.port = p.val ∧ h.fedTag = s.blob.fedTag ∧ h.flows = x.pend.flows ∧
      (∀ k, t.lport k = if k = p.val then
        { x with state := 2, own := some h, peer := none, lanesOk := if x.state = 1 then 4 else x.lanesOk, linked := true } else s.lport k)) ∧
    (x.state = 5 ∨ x.state = 6 → x.linked = false → ∃ t : State, exec (.helloRetry p) s = .next t ∧
      t = { s with lnt := t.lnt, outbox := s.outbox ++ [.dataPath p true] } ∧
      (∀ k, t.lport k = if k = p.val then { x with state := 1, linked := false } else s.lport k)) ∧
    (x.state = 2 → ∀ own, x.own = some own → exec (.helloRetry p) s = .next { s with outbox := s.outbox ++ [.lntHello p own] }) ∧
    (x.state ≠ 2 → x.state ≠ 5 → x.state ≠ 6 → exec (.helloRetry p) s = .next s) ∧
    (2 ≤ x.state → x.state ≤ 5 → ∃ t : State, exec (.lanternLinkLost p n) s = .next t ∧
      t = { s with lnt := t.lnt, host := t.host, hostMem := t.hostMem, outbox := t.outbox } ∧
      (∀ k, t.lport k = if k = p.val then { x with state := 1, linked := false, lanesOk := min n 4, own := none, peer := none } else s.lport k)) ∧
    (x.state < 2 ∨ 5 < x.state → ∃ t : State, exec (.lanternLinkLost p n) s = .next t ∧ t = { s with lnt := t.lnt } ∧
      (∀ k, t.lport k = if k = p.val then { x with lanesOk := min n 4, linked := false } else s.lport k))) ∧
  (∀ (s : State) (p : Fin 4) (f : HelloF), (s.lport p).state ≠ 2 → (s.lport p).state ≠ 5 ∨ (s.lport p).linked = false → exec (.hello p f) s = .next s) ∧
  (∀ (s : State) (p : Fin 4) (f own : HelloF), let x := s.lport p
    (x.state = 2 ∧ x.own = some own) ∨ (x.state = 5 ∧ x.linked = true ∧ own = s.newHello p) →
    x.live = false ∨ (x.peerIsland = f.island ∧ x.peerModule = f.module ∧ x.peerPort = f.port) →
    (own.island ≠ f.island → let n := if own.island < f.island then own.rand % 65536 * 65536 + f.rand % 65536
        else f.rand % 65536 * 65536 + own.rand % 65536
      ∃ (t : State) (report : List Byte), exec (.hello p f) s = .next t ∧
        t = { s with lnt := t.lnt, fresh := if x.state = 5 then s.fresh + 34 else s.fresh, sec := { s.sec with signed := s.sec.signed + 1 },
                     outbox := s.outbox ++ [.lntHello p own, .lntAttest p n report] } ∧ report.length = 448 ∧
        (∀ k, t.lport k = if k = p.val then { x with
          state := 3, session := n, own := some own, peer := some f, peerIsland := f.island % 16, peerModule := f.module % 1024, peerPort := f.port % 4 }
          else s.lport k)) ∧
    (own.island = f.island → ∃ t : State, exec (.hello p f) s = .next t ∧ (t.lport p).state = 6 ∧ (t.lport p).refuseSeen = true ∧
      t = { s with lnt := t.lnt, fresh := t.fresh, host := t.host, hostMem := t.hostMem, outbox := t.outbox } ∧ (∀ k, k ≠ p.val → t.lport k = s.lport k))) ∧
  (∀ (s : State) (p : Fin 4) (f own : HelloF), let x := s.lport p
    x.state = 2 → x.own = some own → x.live = true → ¬ (x.peerIsland = f.island ∧ x.peerModule = f.module ∧ x.peerPort = f.port) →
    own.island ≠ f.island → joined s → s.bcn.waits = [] → ∃ t : State, exec (.hello p f) s = .next t ∧ t.tiles = s.tiles ∧
      (t.lport p).state = 3 ∧ (t.lport p).live = false ∧ (t.lport p).flows = [] ∧ (t.lport p).own = some own ∧ (t.lport p).peer = some f ∧
      (∀ e ∈ t.outer.sent, e.port ≠ p.val)) ∧
  (∀ (s : State) (p : Fin 4) (n : Nat) (report : List Byte), let x := s.lport p
    (2 ≤ x.state → x.state ≤ 5 → lntLenLegal report.length = false → ∃ t : State, exec (.attestFrame p n report) s = .next t ∧
      t = { s with lnt := t.lnt } ∧ (∀ k, t.lport k = if k = p.val then { x with crcerr := satAdd 32 x.crcerr 1 } else s.lport k)) ∧
    (x.state < 2 ∨ 5 < x.state → exec (.attestFrame p n report) s = .next s ∧ exec (.close p n) s = .next s) ∧
    (2 ≤ x.state → x.state ≤ 5 → n ≠ x.session → ∀ ev : Instr, (ev = .attestFrame p n report ∧ lntLenLegal report.length = true) ∨ ev = .close p n →
      ∃ t : State, exec ev s = .next t ∧ t = { s with lnt := t.lnt } ∧ (∀ k, t.lport k = if k = p.val then { x with staleSeen := true } else s.lport k)) ∧
    (x.state = 2 ∨ x.state = 4 ∨ x.state = 5 → n = x.session → lntLenLegal report.length = true → exec (.attestFrame p n report) s = .next s) ∧
    (x.state = 2 ∨ x.state = 5 → n = x.session → exec (.close p n) s = .next s) ∧
    (∀ own peer, x.state = 3 → n = x.session → x.own = some own → x.peer = some peer → let flows := max 1 (min own.flows peer.flows)
      let room := decide (flows ≤ s.contextsFree + (if x.live = true then x.flowCount else 0))
      let refused := fun (t : State) => t = { s with lnt := t.lnt, host := t.host, hostMem := t.hostMem, outbox := t.outbox } ∧
        (∀ k, t.lport k = if k = p.val then { x with state := 6, refuseSeen := true } else s.lport k)
      (lntLenLegal report.length = true → (s.accepts p own peer n report).contains false = true ∨ room = false → ∃ t : State, exec (.attestFrame p n report) s = .next t ∧ refused t) ∧
      ((s.accepts p own peer n report).contains false = false → room = true → joined s → s.bcn.waits = [] → ∃ t : State, exec (.attestFrame p n report) s = .next t ∧
        (t.lport p).state = 4 ∧ (t.lport p).live = true ∧ (t.lport p).flowCount = flows ∧ (t.lport p).set = x.pend ∧ (t.lport p).session = n ∧
        (s.ownsLport p = true → (peer.island, s.place.moduleId, p.val) ∈ t.outer.gwUp) ∧
        (s.ownsLport p = false → t.outer.gwUp = s.outer.gwUp) ∧ t.tiles = s.tiles) ∧
      (∃ t : State, exec (.attestTimeout p) s = .next t ∧ refused t)) ∧
    (x.state ≠ 3 ∨ x.peer = none → exec (.attestTimeout p) s = .next s)) ∧
  (∀ (s : State) (p : Fin 4), (s.lport p).live = false → s.staleGates p = [] → exec (.losttouch p none) s = .next s) ∧
  (∀ (s : State) (p : Fin 4), s.staleGates p ≠ [] → joined s → s.bcn.waits = [] → ∃ t : State, exec (.losttouch p none) s = .next t ∧
    (∀ i ∈ s.staleGates p, (i, s.place.moduleId, p.val) ∉ t.outer.gwUp) ∧ t.tiles = s.tiles) ∧
  (∀ (s : State) (p : Fin 4) (n : Nat) (ev : Instr), let x := s.lport p
    x.live = true → (ev = .losttouch p none ∧ s.staleGates p = []) ∨ (ev = .close p n ∧ n = x.session ∧ (x.state = 3 ∨ x.state = 4)) →
    joined s → s.bcn.waits = [] → ∃ t : State, exec ev s = .next t ∧
      t.lport p = { x with
        state := if x.state = 0 then 0 else 5, darkSeen := true, own := none, peer := none, live := false, flowCount := 0, flows := [], session := 0 } ∧
      (ev = .losttouch p none → (x.peerIsland, s.place.moduleId, p.val) ∉ t.outer.gwUp) ∧ (ev = .close p n → t.outer.gwUp = s.outer.gwUp) ∧
      (∀ e ∈ t.outer.sent, e.port ≠ p.val) ∧ t.tiles = s.tiles) ∧
  (∀ (s : State) (p : Fin 4), let x := s.lport p
    x.live = false → x.state = 3 ∨ x.state = 4 → joined s → s.bcn.waits = [] → ∃ t : State, exec (.close p x.session) s = .next t ∧
      t.lport p = { x with state := 5, darkSeen := true, own := none, peer := none, session := 0 } ∧ t.outer.gwUp = s.outer.gwUp ∧ t.tiles = s.tiles) ∧
  (∀ (s : State) (p : Fin 4) (x : Xfer) (g : Group) (o : OuterGroup), x.typ = 0 → s.outer.state ≠ 1 →
    s.group (keyField x.item) (keyGid x.item) = some g → g.outer = some o → joined s → ∃ t : State, exec (.losttouch p (some x)) s = .next t ∧
      GroupStep s t (keyField x.item) (keyGid x.item) { g with outer := some { o with again := o.again ++ [x] } } ∧
      (s.outer.returned = [] → t.mem = s.mem) ∧ t.tiles = s.tiles) ∧
  (∀ (s : State) (p : Fin 4) (x : Xfer), x.typ ≠ 0 → x.typ ≠ 3 ∨ s.outer.state ≠ 1 ∨ s.outer.source ≠ some x.dstIsland →
    exec (.losttouch p (some x)) s = .next s.outerReact) ∧
  (∀ s : State, s.outer.fed = none ∨ s.outer.state = 0 ∨ s.outer.state = 3 ∧ s.outer.returned = [] →
    s.outerReact = { s with outer := { s.outer with returned := [] } })

/-- DATA, manifests, acknowledgements, timers and delay of a lantern session. In an UP session a next DATA packet adds its
payload to the transfer and moves CUM on; an early one is held in the receive window in memory; a received one is
acknowledged again. A manifest packet whose CRC-64 and length fit hands the transfer to its module (on a port that the
training partition owns; else it is dropped); one that does not sets CRC64 and is rejected. LANTERN_ACK takes packets
that it reports out of the window. LANTERN_ACK_TIMER sends CUM and SACK when packets are unacknowledged.
LANTERN_RTO_EXPIRY sends its packet again and counts it. MANIFEST_REJECT of a transfer of this module sends it again
with the next ATTEMPT, or at ATTEMPT 2 fails it with an event and HW_FAULT; of another module it tells that module. A
frame of another session sets STALE. ECHO_TIMER sends T1 and keeps it; ECHO is answered. ECHO_REPLY of a kept T1 not
older than 2 RTO gives a sample: the first sets BASE and 250 us; one within SHIFT moves BASE by 1/8 and VAR by 1/4;
SHIFT_N shifted ones of one direction are a path change. LANTERN_IDLE does nothing and LANTERN_FRAME_DISCARD counts. A
frame of illegal LEN is discarded and counted. The 60 header bytes spell the header's fields, and bytes that set a
reserved bit, an illegal TYPE or LEN spell none. Where the port is in no such state each changes nothing. -/
def Obligations.LanternFlowsAndDelay : Prop :=
  (∀ (s : State) (p : Fin 4) (d : LntData) (n fl cum sack : Nat), let x := s.lport p
    (x.state < 2 ∨ 5 < x.state → exec (.lanternData p d) s = .next s ∧ exec (.lanternAck p n fl cum sack) s = .next s) ∧
    (2 ≤ x.state → x.state ≤ 5 → ∀ ev : Instr, (ev = .lanternData p d ∧ LntData.legal d = true ∧ d.session ≠ x.session) ∨ (ev = .lanternAck p n fl cum sack ∧ n ≠ x.session) →
      ∃ t : State, exec ev s = .next t ∧ t = { s with lnt := t.lnt } ∧ (∀ k, t.lport k = if k = p.val then { x with staleSeen := true } else s.lport k)) ∧
    (2 ≤ x.state → x.state ≤ 5 → LntData.legal d = false → ∃ t : State, exec (.lanternData p d) s = .next t ∧ t = { s with lnt := t.lnt } ∧
      (∀ k, t.lport k = if k = p.val then { x with crcerr := min (x.crcerr + 1) (2 ^ 32 - 1) } else s.lport k)) ∧
    (x.state = 4 → LntData.legal d = true → d.session = x.session → x.flowCount ≤ d.flow → exec (.lanternData p d) s = .next s)) ∧
  (∀ (s : State) (p : Fin 4) (d : LntData), let x := s.lport p
    let fl := smapGet {} x.flows d.flow
    let gap := (d.pseq + 2 ^ 32 - fl.cum) % 2 ^ 32
    let only := fun (t : State) (y : LntFlow) => (∀ k, k ≠ p.val → t.lport k = s.lport k) ∧ t.lport p = { x with flows := (t.lport p).flows } ∧
      (∀ k, smapGet {} (t.lport p).flows k = if k = d.flow then y else smapGet {} x.flows k)
    x.state = 4 → LntData.legal d = true → d.session = x.session → d.flow < x.flowCount → fl.cum < 2 ^ 32 → d.pseq < 2 ^ 32 →
    (gap = 0 → d.man = false → fl.early = [] → fl.fresh < 31 → ∃ t : State, exec (.lanternData p d) s = .next t ∧ t = { s with lnt := t.lnt } ∧
      only t { fl with cum := (d.pseq + 1) % 2 ^ 32, body := fl.body ++ d.payload, fresh := fl.fresh + 1 }) ∧
    (0 < gap → gap < 2 ^ 31 → smapFind fl.early d.pseq = none → x.heldIn < windowSlots → fl.fresh < 31 →
      ∃ t : State, exec (.lanternData p d) s = .next t ∧ t = { s with lnt := t.lnt, mem := t.mem } ∧
        t.mem = (s.pokeBytes (x.slotAddr (windowSlots + x.freeRecv)) d.payload).mem ∧
        only t { fl with early := smapSet fl.early d.pseq { man := d.man, slot := x.freeRecv, len := d.payload.length }, fresh := fl.fresh + 1 }) ∧
    (2 ^ 31 ≤ gap ∨ smapFind fl.early d.pseq ≠ none → ∃ (t : State) (sack : Nat), exec (.lanternData p d) s = .next t ∧
      t = { s with lnt := t.lnt, outbox := s.outbox ++ [.lntAck p x.session d.flow ((fl.cum + 2 ^ 32 - 1) % 2 ^ 32) sack] } ∧
      only t { fl with fresh := 0 } ∧
      (∀ i, i < 64 → sack.testBit i = (smapFind fl.early ((fl.cum + 1 + i) % 2 ^ 32)).isSome)) ∧
    (gap = 0 → d.man = true → fl.early = [] → fl.fresh < 31 →
      let fits := bytesAt d.payload 48 8 == crc64 (fl.body ++ d.payload.take 48) && bytesAt d.payload 16 8 == fl.body.length
      let x1 := xferOf d.payload fl.body
      let m := x1.dstModule s.outer.fed
      let after := { fl with cum := (d.pseq + 1) % 2 ^ 32, body := [], fresh := fl.fresh + 1 }
      (fits = true → s.ownsLport p = false → ∃ t : State, exec (.lanternData p d) s = .next t ∧ t = { s with lnt := t.lnt } ∧ only t after) ∧
      (fits = true → s.ownsLport p = true → x1.typ < 5 →
        (m = s.place.moduleId → ∃ t : State, exec (.lanternData p d) s = .next t ∧
          t = { s with lnt := t.lnt, outbox := s.outbox ++ [.relay m none x1] } ∧ only t after) ∧
        (m ≠ s.place.moduleId → ∃ t w : State, exec (.lanternData p d) s = .next t ∧ w = { s with lnt := w.lnt } ∧
          t = { w.sendMsg (s.trainPart.getD 16) 0 deliverSet m 0 (relayMsg x1) with lnt := t.lnt } ∧ only t after)) ∧
      (fits = false → ∃ t : State, exec (.lanternData p d) s = .next t ∧
        t = { s with lnt := t.lnt, outbox := s.outbox ++ [.lntReject p x.session d.flow] } ∧ (t.lport p).crc64Seen = true ∧
        smapGet {} (t.lport p).flows d.flow = { fl with cum := (d.pseq + 1) % 2 ^ 32, body := [], fresh := fl.fresh + 1 }))) ∧
  (∀ (s : State) (p : Fin 4) (f cum : Nat), let x := s.lport p
    x.state = 4 → f < x.flowCount → (smapGet {} x.flows f).waiting = [] → ∃ t : State, exec (.lanternAck p x.session f cum 0) s = .next t ∧
      t = { s with lnt := t.lnt, outer := { s.outer with sent := t.outer.sent } } ∧ (∀ k, k ≠ p.val → t.lport k = s.lport k) ∧
      t.lport p = { x with flows := (t.lport p).flows } ∧
      (∀ k, smapGet {} (t.lport p).flows k = if k = f then { smapGet ({} : LntFlow) x.flows f with
        window := (smapGet ({} : LntFlow) x.flows f).window.filter (fun k => !ackedBy cum 0 k.pseq) } else smapGet {} x.flows k) ∧
      t.outer.sent = s.outer.sent.filter (fun e => !(e.port == p.val && e.flow == f && ackedBy cum 0 e.lastPseq)) ∧
      (∀ q, q < 2 ^ 32 → cum < 2 ^ 32 → (ackedBy cum 0 q = true ↔ (cum + 2 ^ 32 - q) % 2 ^ 32 < 2 ^ 31))) ∧
  (∀ (s : State) (p : Fin 4) (f : Fin 64) (q : Nat), let x := s.lport p
    let fl := smapGet ({} : LntFlow) x.flows f
    (x.state ≠ 4 ∨ fl.fresh = 0 → exec (.lanternAckTimer p f) s = .next s) ∧
    (x.state = 4 → fl.fresh ≠ 0 → ∃ (t : State) (sack : Nat), exec (.lanternAckTimer p f) s = .next t ∧
      t = { s with lnt := t.lnt, outbox := s.outbox ++ [.lntAck p x.session f ((fl.cum + 2 ^ 32 - 1) % 2 ^ 32) sack] } ∧
      (∀ k, k ≠ p.val → t.lport k = s.lport k) ∧ smapGet {} (t.lport p).flows f = { fl with fresh := 0 }) ∧
    (x.state ≠ 4 ∨ (∀ k ∈ fl.window, k.pseq ≠ q) → exec (.lanternRtoExpiry p f q) s = .next s) ∧
    (∀ as k bs, x.state = 4 → fl.window = as ++ k :: bs → (∀ e ∈ as, e.pseq ≠ q) → k.pseq = q → ∃ t : State, exec (.lanternRtoExpiry p f q) s = .next t ∧
      t = { s with lnt := t.lnt, outbox := s.outbox ++
        [.lntData p { session := x.session, flow := f, man := k.man, pseq := q, payload := s.peekBytes (x.slotAddr k.slot) k.len }] } ∧
      (∀ j, j ≠ p.val → t.lport j = s.lport j) ∧ t.lport p = { x with flows := (t.lport p).flows, retx := min (x.retx + 1) (2 ^ 32 - 1) } ∧
      (smapGet {} (t.lport p).flows f).window.map (fun e => ({ e with fast := false } : LntPkt)) = fl.window.map (fun e => { e with fast := false }))) ∧
  (∀ (s : State) (p : Fin 4) (n f : Nat) (x : Xfer), let own := decide (x.srcIsland = s.place.islandId ∧ x.srcModule = s.place.moduleId)
    (own = true → x.attempt < 2 → exec (.manifestReject p n f (some x)) s = .next (s.sendXfer { x with attempt := x.attempt + 1 })) ∧
    (own = true → 2 ≤ x.attempt → ∃ t : State, exec (.manifestReject p n f (some x)) s = .next t ∧
      t = { s with host := t.host, hostMem := t.hostMem, outbox := t.outbox } ∧ .xferFailed x stHw ∈ t.outbox) ∧
    (own = false → exec (.manifestReject p n f (some x)) s = .next { s with outbox := s.outbox ++ [.rejected x.srcModule x] }) ∧
    (∀ as e bs, s.outer.sent = as ++ e :: bs → (∀ w ∈ as, ¬ (w.port = p.val ∧ w.flow = f)) → e.port = p.val → e.flow = f → e.x = x → own = false →
      (s.lport p).state = 4 → n = (s.lport p).session → exec (.manifestReject p n f none) s =
        .next { s with outer := { s.outer with sent := as ++ bs }, outbox := s.outbox ++ [.rejected x.srcModule x] })) ∧
  (∀ (s : State) (p : Fin 4) (t1 t2 t3 now : Nat), (s.lport p).measures = false → exec (.echoTimer p now) s = .next s ∧ exec (.echo p t1 now) s = .next s ∧
    exec (.echoReply p t1 t2 t3 now) s = .next s ∧ exec (.lanternFrameDiscard p) s = .next s) ∧
  (∀ (s : State) (p : Fin 4) (t1 t2 t3 now : Nat), (s.lport p).measures = true → let x := s.lport p
    let port := fun (t : State) (y : LntPort) => ∀ k, t.lport k = if k = p.val then y else s.lport k
    (∃ t : State, exec (.echoTimer p now) s = .next t ∧ t = { s with lnt := t.lnt, outbox := s.outbox ++ [.lntEcho p now] } ∧
      port t { x with echoes := (t.lport p).echoes } ∧ now ∈ (t.lport p).echoes) ∧
    exec (.echo p t1 now) s = .next { s with outbox := s.outbox ++ [.lntEchoReply p t1 now now] } ∧
    (∃ t : State, exec (.lanternFrameDiscard p) s = .next t ∧ t = { s with lnt := t.lnt } ∧ port t { x with crcerr := min (x.crcerr + 1) (2 ^ 32 - 1) }) ∧
    (t1 ∉ x.echoes → exec (.echoReply p t1 t2 t3 now) s = .next s) ∧
    (t1 ∈ x.echoes → x.sampled = true → t1 + 2 * x.rto < now → ∃ t : State, exec (.echoReply p t1 t2 t3 now) s = .next t ∧ t = { s with lnt := t.lnt } ∧
      port t { x with echoes := x.echoes.erase t1 }) ∧
    (∀ v : Int, v = ((now : Int) - t1) - ((t3 : Int) - t2) → t1 ∈ x.echoes → x.sampled = false ∨ now ≤ t1 + 2 * x.rto →
      let y := { x with echoes := x.echoes.erase t1 }
      let d := v - (x.base : Int)
      let run := if x.shiftCount ≠ 0 ∧ x.shiftUp = decide (0 < d) then x.shiftCount + 1 else 1
      (x.sampled = false → ∃ t : State, exec (.echoReply p t1 t2 t3 now) s = .next t ∧ t = { s with lnt := t.lnt } ∧
        port t { y with sampled := true, base := v.toNat, var := 250000, shiftCount := 0, rto := v.toNat + 1000000 }) ∧
      (x.sampled = true → d.natAbs ≤ 1000 * x.set.shiftUs → ∃ t : State, exec (.echoReply p t1 t2 t3 now) s = .next t ∧ t = { s with lnt := t.lnt } ∧
        port t { y with
          shiftCount := 0, base := ((x.base : Int) + Int.tdiv d 8).toNat, var := ((x.var : Int) + Int.tdiv ((d.natAbs : Int) - (x.var : Int)) 4).toNat,
          rto := ((x.base : Int) + Int.tdiv d 8).toNat + max (4 * ((x.var : Int) + Int.tdiv ((d.natAbs : Int) - (x.var : Int)) 4).toNat) 1000000 }) ∧
      (x.sampled = true → 1000 * x.set.shiftUs < d.natAbs → run < x.set.shiftN → ∃ t : State, exec (.echoReply p t1 t2 t3 now) s = .next t ∧
        t = { s with lnt := t.lnt } ∧
        port t { y with shiftCount := run, shiftUp := decide (0 < d), rto := x.base + max (4 * x.var) 1000000 }) ∧
      (x.sampled = true → 1000 * x.set.shiftUs < d.natAbs → x.set.shiftN ≤ run → ∃ t : State, exec (.echoReply p t1 t2 t3 now) s = .next t ∧
        t = { s with lnt := t.lnt, host := t.host, hostMem := t.hostMem, outbox := t.outbox } ∧
        port t { y with pathchg := true, base := v.toNat, var := 250000, shiftCount := 0, rto := v.toNat + 1000000 }))) ∧
  (∀ (s : State) (p : Fin 4), exec (.lanternIdle p) s = .next s) ∧
  (∀ h : LntHdr, h.wf = true → (lntHeader h).length = 60 ∧ lntHeaderOf (lntHeader h) = some h) ∧
  (∀ (bs : List Byte) (h : LntHdr), lntHeaderOf bs = some h → h.wf = true ∧ lntHeader h = bs)
end

