-- ==== Sys2Proof/Laws/Num.lean ====
section
/-! SUPPORT. Laws/Num.lean: F32 words that carry the cause of a NaN have the plain words as their values (R173). -/

namespace Sys2Proof.Machine

@[simp] theorem uvOp_fst (c : Nat) (ins : List UV) (r : F32) : (uvOp c ins r).1 = r := by unfold uvOp; split <;> rfl
@[simp] theorem uAdd_fst (a b : UV) : (uAdd a b).1 = fAdd a.1 b.1 := uvOp_fst _ _ _
@[simp] theorem uSub_fst (a b : UV) : (uSub a b).1 = fSub a.1 b.1 := uvOp_fst _ _ _
@[simp] theorem uMul_fst (a b : UV) : (uMul a b).1 = fMul a.1 b.1 := uvOp_fst _ _ _
@[simp] theorem uDiv_fst (a b : UV) : (uDiv a b).1 = fDiv a.1 b.1 := uvOp_fst _ _ _
@[simp] theorem uv_fst (x : F32) : (uv x).1 = x := rfl
@[simp] theorem uMulCls_fst (ins : List F32) (a b : UV) : (uMulCls ins a b).1 = fMul a.1 b.1 := uMul_fst a b
@[simp] theorem fmaWord_fst (x y z : F32) : (fmaWord x y z).1 = fFma x y z := rfl

/-- A level of the tree with causes adds the plain words. -/
theorem pairUp_uAdd : ∀ l : List UV, (pairUp uAdd l).map Prod.fst = pairUp fAdd (l.map Prod.fst)
  | [] => rfl
  | [_] => rfl
  | a :: b :: l => by simp [pairUp, pairUp_uAdd l]

/-- The tree with causes is the plain tree on the words. -/
theorem treeFold_uAdd (z : UV) : ∀ (n : Nat) (l : List UV), (treeFold uAdd z n l).1 = treeFold fAdd z.1 n (l.map Prod.fst)
  | 0, [] => rfl
  | 0, _ :: _ => rfl
  | n + 1, l => by simp only [treeFold, treeFold_uAdd z n, pairUp_uAdd]

/-- The balanced sum with causes has the plain balanced sum as its value. -/
@[simp] theorem uTreeSum_fst (l : List UV) : (uTreeSum l).1 = treeSum (l.map Prod.fst) := treeFold_uAdd _ 7 l

/-- A block's sum over its live positions. -/
@[simp] theorem liveSum_fst (n b : Nat) (l : List UV) : (liveSum n b l).1 = treeSum (liveList n b (l.map Prod.fst)) := by
  simp only [liveSum, uTreeSum_fst, liveList]
  congr 1
  apply List.ext_getElem
  · simp
  · intro i h1 h2
    simp only [List.getElem_map, List.getElem_zipIdx, Nat.zero_add]
    split <;> rfl

/-- A block's dot product over its live positions. -/
@[simp] theorem liveDot_fst (n b : Nat) (xs ys : List UV) :
    (liveDot n b xs ys).1 = treeSum (liveList n b (List.zipWith fMul (xs.map Prod.fst) (ys.map Prod.fst))) := by
  have h : ((xs.zip ys).map (fun p => uMul p.1 p.2)).map Prod.fst = List.zipWith fMul (xs.map Prod.fst) (ys.map Prod.fst) := by
    rw [List.map_map, List.zipWith_map_left, List.zipWith_map_right, List.map_zip_eq_zipWith]; simp [Function.comp_def]; rfl
  rw [← h, ← liveSum_fst]; rfl

end Sys2Proof.Machine
end

