-- ==== Sys2Proof/Laws/Store.lean ====
section
/-! SUPPORT. Laws/Store.lean: reading a map or a memory after a write, and the canonical form that every memory operation keeps. -/

namespace Sys2Proof.Laws

open Sys2Proof.Machine

/-! ### Maps -/

/-- A key that was set reads as set, any other as before. -/
theorem smapGet_smapSet {α : Type} (d : α) (m : SMap α) (k j : Nat) (v : α) :
    smapGet d (smapSet m k v) j = if j = k then v else smapGet d m j := by
  induction m with
  | nil => by_cases h : k = j <;> simp [smapSet, smapGet, h, eq_comm]
  | cons p m ih =>
    obtain ⟨k', v'⟩ := p
    unfold smapSet
    by_cases h1 : k = k'
    · subst h1; by_cases h2 : k = j <;> simp [smapGet, h2, eq_comm]
    · by_cases h2 : k < k'
      · rw [if_neg h1, if_pos h2]; by_cases h3 : k = j <;> simp [smapGet, h3, eq_comm]
      · rw [if_neg h1, if_neg h2]
        by_cases h3 : k' = j
        · subst h3; simp [smapGet, Ne.symm h1]
        · simp [smapGet, h3, ih]

/-- The same for a lookup that may fail. -/
theorem smapFind_smapSet {α : Type} (m : SMap α) (k j : Nat) (v : α) :
    smapFind (smapSet m k v) j = if j = k then some v else smapFind m j := by
  induction m with
  | nil => by_cases h : k = j <;> simp [smapSet, smapFind, h, eq_comm]
  | cons p m ih =>
    obtain ⟨k', v'⟩ := p
    unfold smapSet
    by_cases h1 : k = k'
    · subst h1; by_cases h2 : k = j <;> simp [smapFind, h2, eq_comm]
    · by_cases h2 : k < k'
      · rw [if_neg h1, if_pos h2]; by_cases h3 : k = j <;> simp [smapFind, h3, eq_comm]
      · rw [if_neg h1, if_neg h2]
        by_cases h3 : k' = j
        · subst h3; simp [smapFind, Ne.symm h1]
        · simp [smapFind, h3, ih]

theorem smapGet_smapModify {α : Type} (d : α) (m : SMap α) (k j : Nat) (f : α → α) :
    smapGet d (smapModify d m k f) j = if j = k then f (smapGet d m k) else smapGet d m j := smapGet_smapSet d m k j _

theorem smapFind_smapErase {α : Type} (m : SMap α) (k j : Nat) :
    smapFind (smapErase m k) j = if j = k then none else smapFind m j := by
  induction m with
  | nil => simp [smapErase, smapFind]
  | cons p m ih =>
    obtain ⟨k', v'⟩ := p
    by_cases h1 : k' = k
    · subst h1
      by_cases h2 : k' = j
      · subst h2; simp [smapErase, ih]
      · simp [smapErase, smapFind, h2, ih, Ne.symm h2]
    · by_cases h2 : k' = j
      · subst h2; simp [smapErase, smapFind, h1]
      · simp [smapErase, smapFind, h1, h2, ih]

theorem smapFind_smapMap {α β : Type} (f : Nat → α → β) (m : SMap α) (j : Nat) :
    smapFind (smapMap f m) j = (smapFind m j).map (f j) := by
  induction m with
  | nil => rfl
  | cons p m ih =>
    obtain ⟨k', v'⟩ := p
    by_cases h : k' = j
    · subst h; simp [smapMap, smapFind]
    · simpa [smapMap, smapFind, h] using ih

theorem smapGet_eq_find {α : Type} (d : α) (m : SMap α) (j : Nat) : smapGet d m j = (smapFind m j).getD d := by
  induction m with
  | nil => rfl
  | cons p m ih =>
    obtain ⟨k', v'⟩ := p
    by_cases h : k' = j <;> simp [smapGet, smapFind, h, ih]

/-! ### Bytes: what every memory, in canonical form or not, keeps -/

/-- A write leaves every other address alone. -/
theorem memRead_memWrite_ne (m : Memory) (a x : Nat) (v : Byte) (h : x ≠ a) : memRead (memWrite m a v) x = memRead m x := by
  induction m with
  | nil =>
    unfold memWrite
    by_cases hv : v = blankByte
    · simp [hv]
    · simp [hv, memRead, Ne.symm h]
  | cons c m ih =>
    obtain ⟨k, w⟩ := c
    unfold memWrite
    by_cases h1 : a = k
    · subst h1; by_cases hv : v = blankByte <;> simp [hv, memRead, Ne.symm h]
    · by_cases h2 : a < k
      · by_cases hv : v = blankByte <;> simp [h1, h2, hv, memRead, Ne.symm h]
      · simp only [h1, h2, if_false, memRead, ih]

/-- A run of writes leaves every address outside it alone. -/
theorem memRead_memWriteBytes_outside (bs : List Byte) (m : Memory) (a x : Nat) (h : x < a ∨ a + bs.length ≤ x) :
    memRead (memWriteBytes m a bs) x = memRead m x := by
  induction bs generalizing m a with
  | nil => rfl
  | cons b bs ih =>
    rw [List.length_cons] at h
    unfold memWriteBytes
    rw [ih _ _ (by omega), memRead_memWrite_ne _ _ _ _ (by omega)]

/-- A kept address reads as before, a dropped one as blank. -/
theorem memRead_filter (m : Memory) (p : Nat → Bool) (x : Nat) :
    memRead (m.filter (fun c => p c.1)) x = if p x = true then memRead m x else blankByte := by
  induction m with
  | nil => simp [memRead]
  | cons c m ih =>
    obtain ⟨k, w⟩ := c
    by_cases hk : p k = true
    · by_cases hx : k = x
      · subst hx; simp [hk, memRead]
      · simp [hk, memRead, hx, ih]
    · by_cases hx : k = x
      · subst hx; simp [hk, ih]
      · simp [hk, memRead, hx, ih]

/-- A cleared range reads as blank and the rest as before. -/
theorem memRead_memClear (m : Memory) (a n x : Nat) :
    memRead (memClear m a n) x = if a ≤ x ∧ x < a + n then blankByte else memRead m x := by
  unfold memClear
  rw [memRead_filter m (fun k => !(a ≤ k && k < a + n)) x]
  by_cases h : a ≤ x ∧ x < a + n
  · simp [h.1, h.2]
  · rw [if_neg h]; simp only [Bool.not_eq_true', Bool.and_eq_false_iff, decide_eq_false_iff_not]
    rw [if_pos (by omega)]

/-! ### The canonical form -/

/-- The canonical form as an induction uses it: every later address is higher and no byte is blank. -/
theorem wf_cons_iff (k : Nat) (v : Byte) (m : Memory) :
    Memory.wf ((k, v) :: m) = true ↔ v ≠ blankByte ∧ (∀ c ∈ m, k < c.1) ∧ Memory.wf m = true := by
  induction m generalizing k v with
  | nil => simp [Memory.wf]
  | cons c m ih =>
    obtain ⟨k', v'⟩ := c
    have h := ih k' v'
    simp only [Memory.wf, Bool.and_eq_true, bne_iff_ne, ne_eq, decide_eq_true_eq]
    constructor
    · rintro ⟨⟨h1, h2⟩, h3⟩
      refine ⟨h1, ?_, h3⟩
      intro c hc
      rcases List.mem_cons.mp hc with rfl | hc
      · exact h2
      · exact lt_trans h2 ((h.mp h3).2.1 c hc)
    · rintro ⟨h1, h2, h3⟩
      exact ⟨⟨h1, h2 _ (List.mem_cons_self ..)⟩, h3⟩

theorem memRead_of_lt (m : Memory) (x : Nat) (h : ∀ c ∈ m, x < c.1) : memRead m x = blankByte := by
  induction m with
  | nil => rfl
  | cons c m ih =>
    obtain ⟨k, w⟩ := c
    have hk : k ≠ x := by have := h (k, w) (List.mem_cons_self ..); simp at this; omega
    simp [memRead, hk, ih (fun c hc => h c (List.mem_cons_of_mem _ hc))]

/-- A written address reads as written. -/
theorem memRead_memWrite_eq (m : Memory) (a : Nat) (v : Byte) (h : Memory.wf m = true) : memRead (memWrite m a v) a = v := by
  induction m with
  | nil => unfold memWrite; by_cases hv : v = blankByte <;> simp [hv, memRead]
  | cons c m ih =>
    obtain ⟨k, w⟩ := c
    obtain ⟨_, hlt, hm⟩ := (wf_cons_iff k w m).mp h
    unfold memWrite
    by_cases h1 : a = k
    · subst h1
      by_cases hv : v = blankByte
      · simp [hv, memRead_of_lt m a hlt]
      · simp [hv, memRead]
    · by_cases h2 : a < k
      · by_cases hv : v = blankByte
        · have : memRead ((k, w) :: m) a = blankByte := memRead_of_lt _ _ (by
            intro c hc; rcases List.mem_cons.mp hc with rfl | hc
            · exact h2
            · exact lt_trans h2 (hlt c hc))
          simp [h1, h2, hv, this]
        · simp [h1, h2, hv, memRead]
      · simp only [h1, h2, if_false, memRead, Ne.symm h1, ih hm]

theorem mem_memWrite (m : Memory) (a : Nat) (v : Byte) (c : Host.Cell) (h : c ∈ memWrite m a v) : c = (a, v) ∧ v ≠ blankByte ∨ c ∈ m := by
  induction m with
  | nil => unfold memWrite at h; by_cases hv : v = blankByte <;> simp_all
  | cons d m ih =>
    obtain ⟨k, w⟩ := d
    unfold memWrite at h
    by_cases h1 : a = k
    · by_cases hv : v = blankByte
      · simp [h1, hv] at h; exact .inr (List.mem_cons_of_mem _ h)
      · simp [h1, hv] at h; rcases h with h | h
        · exact .inl ⟨by rw [h, h1], hv⟩
        · exact .inr (List.mem_cons_of_mem _ h)
    · by_cases h2 : a < k
      · by_cases hv : v = blankByte
        · simp [h1, h2, hv] at h; exact .inr (List.mem_cons.mpr h)
        · simp [h1, h2, hv] at h; rcases h with h | h | h
          · exact .inl ⟨h, hv⟩
          · exact .inr (by rw [h]; exact List.mem_cons_self ..)
          · exact .inr (List.mem_cons_of_mem _ h)
      · simp only [h1, h2, if_false] at h
        rcases List.mem_cons.mp h with h | h
        · exact .inr (by rw [h]; exact List.mem_cons_self ..)
        · rcases ih h with h | h
          · exact .inl h
          · exact .inr (List.mem_cons_of_mem _ h)

/-- Writing a byte keeps the canonical form. -/
theorem wf_memWrite (m : Memory) (a : Nat) (v : Byte) (h : Memory.wf m = true) : Memory.wf (memWrite m a v) = true := by
  induction m with
  | nil => unfold memWrite; by_cases hv : v = blankByte <;> simp [hv, Memory.wf]
  | cons c m ih =>
    obtain ⟨k, w⟩ := c
    obtain ⟨hw, hlt, hm⟩ := (wf_cons_iff k w m).mp h
    unfold memWrite
    by_cases h1 : a = k
    · subst h1
      by_cases hv : v = blankByte
      · simp [hv, hm]
      · rw [if_pos rfl, if_neg hv]; exact (wf_cons_iff a v m).mpr ⟨hv, hlt, hm⟩
    · by_cases h2 : a < k
      · by_cases hv : v = blankByte
        · simp [h1, h2, hv, h]
        · rw [if_neg h1, if_pos h2, if_neg hv]
          refine (wf_cons_iff a v _).mpr ⟨hv, ?_, h⟩
          intro c hc
          rcases List.mem_cons.mp hc with rfl | hc
          · exact h2
          · exact lt_trans h2 (hlt c hc)
      · rw [if_neg h1, if_neg h2]
        refine (wf_cons_iff k w _).mpr ⟨hw, ?_, ih hm⟩
        intro c hc
        rcases mem_memWrite m a v c hc with h3 | h3
        · rw [h3.1]; show k < a; omega
        · exact hlt c h3

theorem wf_memWriteBytes (bs : List Byte) (m : Memory) (a : Nat) (h : Memory.wf m = true) : Memory.wf (memWriteBytes m a bs) = true := by
  induction bs generalizing m a with
  | nil => exact h
  | cons b bs ih => exact ih _ _ (wf_memWrite m a b h)

theorem wf_filter (m : Memory) (p : Host.Cell → Bool) (h : Memory.wf m = true) : Memory.wf (m.filter p) = true := by
  induction m with
  | nil => exact h
  | cons c m ih =>
    obtain ⟨k, w⟩ := c
    obtain ⟨hw, hlt, hm⟩ := (wf_cons_iff k w m).mp h
    rw [List.filter_cons]
    split
    · exact (wf_cons_iff k w _).mpr ⟨hw, fun c hc => hlt c (List.mem_filter.mp hc).1, ih hm⟩
    · exact ih hm

theorem wf_memClear (m : Memory) (a n : Nat) (h : Memory.wf m = true) : Memory.wf (memClear m a n) = true := wf_filter _ _ h

theorem wf_memCopy (m : Memory) (src dst n : Nat) (h : Memory.wf m = true) : Memory.wf (memCopy m src dst n) = true := wf_memWriteBytes _ _ _ h

theorem wf_memWriteNat (m : Memory) (a n v : Nat) (h : Memory.wf m = true) : Memory.wf (memWriteNat m a n v) = true := wf_memWriteBytes _ _ _ h

/-- A written range reads as written. -/
theorem memRead_memWriteBytes (bs : List Byte) (m : Memory) (a i : Nat) (h : Memory.wf m = true) (hi : i < bs.length) :
    memRead (memWriteBytes m a bs) (a + i) = bs.getD i 0 := by
  induction bs generalizing m a i with
  | nil => simp at hi
  | cons b bs ih =>
    unfold memWriteBytes
    cases i with
    | zero => rw [memRead_memWriteBytes_outside _ _ _ _ (by omega)]; simp [memRead_memWrite_eq m a b h]
    | succ i =>
      have := ih (memWrite m a b) (a + 1) i (wf_memWrite m a b h) (by simpa using hi)
      rw [show a + (i + 1) = a + 1 + i by omega, this]; rfl

theorem length_padTo (n : Nat) (bs : List Byte) : (padTo n bs).length = n := by
  unfold padTo; rw [List.length_take, List.length_append, List.length_replicate]; omega

theorem length_leBytes (n v : Nat) : (leBytes n v).length = n := by
  induction n generalizing v with
  | zero => rfl
  | succ n ih => simp [leBytes, ih]

/-- A number that fits reads back from its bytes. -/
theorem leNat_leBytes (n v : Nat) (h : v < 256 ^ n) : leNat (leBytes n v) = v := by
  induction n generalizing v with
  | zero => simp at h; simp [leBytes, leNat, h]
  | succ n ih =>
    have hd : v / 256 < 256 ^ n := by rw [Nat.div_lt_iff_lt_mul (by norm_num)]; rwa [← pow_succ]
    simp only [leBytes, leNat, ih _ hd, BitVec.toNat_ofNat]
    omega

end Sys2Proof.Laws
end

