-- ==== Sys2Proof/Laws/State.lean ====
section
/-! SUPPORT. Laws/State.lean: what each update of the state leaves in each field, so that no proof unfolds a record update. -/

namespace Sys2Proof.Laws

open Sys2Proof.Machine

variable (s : State)

/-! ### setTile -/

@[simp] theorem setTile_mem (t : Nat) (x : TileState) : (s.setTile t x).mem = s.mem := rfl
@[simp] theorem setTile_hostMem (t : Nat) (x : TileState) : (s.setTile t x).hostMem = s.hostMem := rfl
@[simp] theorem setTile_host (t : Nat) (x : TileState) : (s.setTile t x).host = s.host := rfl
@[simp] theorem setTile_parts (t : Nat) (x : TileState) : (s.setTile t x).parts = s.parts := rfl
@[simp] theorem setTile_shutters (t : Nat) (x : TileState) : (s.setTile t x).shutters = s.shutters := rfl
@[simp] theorem setTile_heirs (t : Nat) (x : TileState) : (s.setTile t x).heirs = s.heirs := rfl
@[simp] theorem setTile_tiles (t : Nat) (x : TileState) : (s.setTile t x).tiles = smapSet s.tiles t x := rfl
@[simp] theorem setTile_fields (t : Nat) (x : TileState) : (s.setTile t x).fields = s.fields := rfl
@[simp] theorem setTile_acts (t : Nat) (x : TileState) : (s.setTile t x).acts = s.acts := rfl
@[simp] theorem setTile_fab (t : Nat) (x : TileState) : (s.setTile t x).fab = s.fab := rfl
@[simp] theorem setTile_lnt (t : Nat) (x : TileState) : (s.setTile t x).lnt = s.lnt := rfl
@[simp] theorem setTile_outer (t : Nat) (x : TileState) : (s.setTile t x).outer = s.outer := rfl
@[simp] theorem setTile_bcn (t : Nat) (x : TileState) : (s.setTile t x).bcn = s.bcn := rfl
@[simp] theorem setTile_mods (t : Nat) (x : TileState) : (s.setTile t x).mods = s.mods := rfl
@[simp] theorem setTile_power (t : Nat) (x : TileState) : (s.setTile t x).power = s.power := rfl
@[simp] theorem setTile_fuses (t : Nat) (x : TileState) : (s.setTile t x).fuses = s.fuses := rfl
@[simp] theorem setTile_sec (t : Nat) (x : TileState) : (s.setTile t x).sec = s.sec := rfl
@[simp] theorem setTile_blob (t : Nat) (x : TileState) : (s.setTile t x).blob = s.blob := rfl
@[simp] theorem setTile_place (t : Nat) (x : TileState) : (s.setTile t x).place = s.place := rfl
@[simp] theorem setTile_chk (t : Nat) (x : TileState) : (s.setTile t x).chk = s.chk := rfl
@[simp] theorem setTile_outbox (t : Nat) (x : TileState) : (s.setTile t x).outbox = s.outbox := rfl
@[simp] theorem setTile_fresh (t : Nat) (x : TileState) : (s.setTile t x).fresh = s.fresh := rfl
@[simp] theorem setTile_pending (t : Nat) (x : TileState) : (s.setTile t x).pending = s.pending := rfl

/-! ### modTile -/

@[simp] theorem modTile_mem (t : Nat) (g : TileState → TileState) : (s.modTile t g).mem = s.mem := rfl
@[simp] theorem modTile_hostMem (t : Nat) (g : TileState → TileState) : (s.modTile t g).hostMem = s.hostMem := rfl
@[simp] theorem modTile_host (t : Nat) (g : TileState → TileState) : (s.modTile t g).host = s.host := rfl
@[simp] theorem modTile_parts (t : Nat) (g : TileState → TileState) : (s.modTile t g).parts = s.parts := rfl
@[simp] theorem modTile_shutters (t : Nat) (g : TileState → TileState) : (s.modTile t g).shutters = s.shutters := rfl
@[simp] theorem modTile_heirs (t : Nat) (g : TileState → TileState) : (s.modTile t g).heirs = s.heirs := rfl
@[simp] theorem modTile_tiles (t : Nat) (g : TileState → TileState) : (s.modTile t g).tiles = smapSet s.tiles t (g (s.tile t)) := rfl
@[simp] theorem modTile_fields (t : Nat) (g : TileState → TileState) : (s.modTile t g).fields = s.fields := rfl
@[simp] theorem modTile_acts (t : Nat) (g : TileState → TileState) : (s.modTile t g).acts = s.acts := rfl
@[simp] theorem modTile_fab (t : Nat) (g : TileState → TileState) : (s.modTile t g).fab = s.fab := rfl
@[simp] theorem modTile_lnt (t : Nat) (g : TileState → TileState) : (s.modTile t g).lnt = s.lnt := rfl
@[simp] theorem modTile_outer (t : Nat) (g : TileState → TileState) : (s.modTile t g).outer = s.outer := rfl
@[simp] theorem modTile_bcn (t : Nat) (g : TileState → TileState) : (s.modTile t g).bcn = s.bcn := rfl
@[simp] theorem modTile_mods (t : Nat) (g : TileState → TileState) : (s.modTile t g).mods = s.mods := rfl
@[simp] theorem modTile_power (t : Nat) (g : TileState → TileState) : (s.modTile t g).power = s.power := rfl
@[simp] theorem modTile_fuses (t : Nat) (g : TileState → TileState) : (s.modTile t g).fuses = s.fuses := rfl
@[simp] theorem modTile_sec (t : Nat) (g : TileState → TileState) : (s.modTile t g).sec = s.sec := rfl
@[simp] theorem modTile_blob (t : Nat) (g : TileState → TileState) : (s.modTile t g).blob = s.blob := rfl
@[simp] theorem modTile_place (t : Nat) (g : TileState → TileState) : (s.modTile t g).place = s.place := rfl
@[simp] theorem modTile_chk (t : Nat) (g : TileState → TileState) : (s.modTile t g).chk = s.chk := rfl
@[simp] theorem modTile_outbox (t : Nat) (g : TileState → TileState) : (s.modTile t g).outbox = s.outbox := rfl
@[simp] theorem modTile_fresh (t : Nat) (g : TileState → TileState) : (s.modTile t g).fresh = s.fresh := rfl
@[simp] theorem modTile_pending (t : Nat) (g : TileState → TileState) : (s.modTile t g).pending = s.pending := rfl

/-! ### modFld -/

@[simp] theorem modFld_mem (f : Nat) (g : Field → Field) : (s.modFld f g).mem = s.mem := rfl
@[simp] theorem modFld_hostMem (f : Nat) (g : Field → Field) : (s.modFld f g).hostMem = s.hostMem := rfl
@[simp] theorem modFld_host (f : Nat) (g : Field → Field) : (s.modFld f g).host = s.host := rfl
@[simp] theorem modFld_parts (f : Nat) (g : Field → Field) : (s.modFld f g).parts = s.parts := rfl
@[simp] theorem modFld_shutters (f : Nat) (g : Field → Field) : (s.modFld f g).shutters = s.shutters := rfl
@[simp] theorem modFld_heirs (f : Nat) (g : Field → Field) : (s.modFld f g).heirs = s.heirs := rfl
@[simp] theorem modFld_tiles (f : Nat) (g : Field → Field) : (s.modFld f g).tiles = s.tiles := rfl
@[simp] theorem modFld_fields (f : Nat) (g : Field → Field) : (s.modFld f g).fields = smapSet s.fields f (g (s.fld f)) := rfl
@[simp] theorem modFld_acts (f : Nat) (g : Field → Field) : (s.modFld f g).acts = s.acts := rfl
@[simp] theorem modFld_fab (f : Nat) (g : Field → Field) : (s.modFld f g).fab = s.fab := rfl
@[simp] theorem modFld_lnt (f : Nat) (g : Field → Field) : (s.modFld f g).lnt = s.lnt := rfl
@[simp] theorem modFld_outer (f : Nat) (g : Field → Field) : (s.modFld f g).outer = s.outer := rfl
@[simp] theorem modFld_bcn (f : Nat) (g : Field → Field) : (s.modFld f g).bcn = s.bcn := rfl
@[simp] theorem modFld_mods (f : Nat) (g : Field → Field) : (s.modFld f g).mods = s.mods := rfl
@[simp] theorem modFld_power (f : Nat) (g : Field → Field) : (s.modFld f g).power = s.power := rfl
@[simp] theorem modFld_fuses (f : Nat) (g : Field → Field) : (s.modFld f g).fuses = s.fuses := rfl
@[simp] theorem modFld_sec (f : Nat) (g : Field → Field) : (s.modFld f g).sec = s.sec := rfl
@[simp] theorem modFld_blob (f : Nat) (g : Field → Field) : (s.modFld f g).blob = s.blob := rfl
@[simp] theorem modFld_place (f : Nat) (g : Field → Field) : (s.modFld f g).place = s.place := rfl
@[simp] theorem modFld_chk (f : Nat) (g : Field → Field) : (s.modFld f g).chk = s.chk := rfl
@[simp] theorem modFld_outbox (f : Nat) (g : Field → Field) : (s.modFld f g).outbox = s.outbox := rfl
@[simp] theorem modFld_fresh (f : Nat) (g : Field → Field) : (s.modFld f g).fresh = s.fresh := rfl
@[simp] theorem modFld_pending (f : Nat) (g : Field → Field) : (s.modFld f g).pending = s.pending := rfl

/-! ### modMeter -/

@[simp] theorem modMeter_mem (f : Nat) (g : Meter → Meter) : (s.modMeter f g).mem = s.mem := rfl
@[simp] theorem modMeter_hostMem (f : Nat) (g : Meter → Meter) : (s.modMeter f g).hostMem = s.hostMem := rfl
@[simp] theorem modMeter_host (f : Nat) (g : Meter → Meter) : (s.modMeter f g).host = s.host := rfl
@[simp] theorem modMeter_parts (f : Nat) (g : Meter → Meter) : (s.modMeter f g).parts = s.parts := rfl
@[simp] theorem modMeter_shutters (f : Nat) (g : Meter → Meter) : (s.modMeter f g).shutters = s.shutters := rfl
@[simp] theorem modMeter_heirs (f : Nat) (g : Meter → Meter) : (s.modMeter f g).heirs = s.heirs := rfl
@[simp] theorem modMeter_tiles (f : Nat) (g : Meter → Meter) : (s.modMeter f g).tiles = s.tiles := rfl
@[simp] theorem modMeter_fields (f : Nat) (g : Meter → Meter) : (s.modMeter f g).fields = smapSet s.fields f ({ s.fld f with meter := { g (s.fld f).meter with due := [] } }) := rfl
@[simp] theorem modMeter_acts (f : Nat) (g : Meter → Meter) : (s.modMeter f g).acts = s.acts := rfl
@[simp] theorem modMeter_fab (f : Nat) (g : Meter → Meter) : (s.modMeter f g).fab = s.fab := rfl
@[simp] theorem modMeter_lnt (f : Nat) (g : Meter → Meter) : (s.modMeter f g).lnt = s.lnt := rfl
@[simp] theorem modMeter_outer (f : Nat) (g : Meter → Meter) : (s.modMeter f g).outer = s.outer := rfl
@[simp] theorem modMeter_bcn (f : Nat) (g : Meter → Meter) : (s.modMeter f g).bcn = s.bcn := rfl
@[simp] theorem modMeter_mods (f : Nat) (g : Meter → Meter) : (s.modMeter f g).mods = s.mods := rfl
@[simp] theorem modMeter_power (f : Nat) (g : Meter → Meter) : (s.modMeter f g).power = s.power := rfl
@[simp] theorem modMeter_fuses (f : Nat) (g : Meter → Meter) : (s.modMeter f g).fuses = s.fuses := rfl
@[simp] theorem modMeter_sec (f : Nat) (g : Meter → Meter) : (s.modMeter f g).sec = s.sec := rfl
@[simp] theorem modMeter_blob (f : Nat) (g : Meter → Meter) : (s.modMeter f g).blob = s.blob := rfl
@[simp] theorem modMeter_place (f : Nat) (g : Meter → Meter) : (s.modMeter f g).place = s.place := rfl
@[simp] theorem modMeter_chk (f : Nat) (g : Meter → Meter) : (s.modMeter f g).chk = s.chk := rfl
@[simp] theorem modMeter_outbox (f : Nat) (g : Meter → Meter) : (s.modMeter f g).outbox = s.outbox := rfl
@[simp] theorem modMeter_fresh (f : Nat) (g : Meter → Meter) : (s.modMeter f g).fresh = s.fresh := rfl
@[simp] theorem modMeter_pending (f : Nat) (g : Meter → Meter) : (s.modMeter f g).pending = s.pending := rfl

/-! ### modPart -/

@[simp] theorem modPart_mem (p : Nat) (g : Partition → Partition) : (s.modPart p g).mem = s.mem := rfl
@[simp] theorem modPart_hostMem (p : Nat) (g : Partition → Partition) : (s.modPart p g).hostMem = s.hostMem := rfl
@[simp] theorem modPart_host (p : Nat) (g : Partition → Partition) : (s.modPart p g).host = s.host := rfl
@[simp] theorem modPart_parts (p : Nat) (g : Partition → Partition) : (s.modPart p g).parts = smapSet s.parts p (g (s.part p)) := rfl
@[simp] theorem modPart_shutters (p : Nat) (g : Partition → Partition) : (s.modPart p g).shutters = s.shutters := rfl
@[simp] theorem modPart_heirs (p : Nat) (g : Partition → Partition) : (s.modPart p g).heirs = s.heirs := rfl
@[simp] theorem modPart_tiles (p : Nat) (g : Partition → Partition) : (s.modPart p g).tiles = s.tiles := rfl
@[simp] theorem modPart_fields (p : Nat) (g : Partition → Partition) : (s.modPart p g).fields = s.fields := rfl
@[simp] theorem modPart_acts (p : Nat) (g : Partition → Partition) : (s.modPart p g).acts = s.acts := rfl
@[simp] theorem modPart_fab (p : Nat) (g : Partition → Partition) : (s.modPart p g).fab = s.fab := rfl
@[simp] theorem modPart_lnt (p : Nat) (g : Partition → Partition) : (s.modPart p g).lnt = s.lnt := rfl
@[simp] theorem modPart_outer (p : Nat) (g : Partition → Partition) : (s.modPart p g).outer = s.outer := rfl
@[simp] theorem modPart_bcn (p : Nat) (g : Partition → Partition) : (s.modPart p g).bcn = s.bcn := rfl
@[simp] theorem modPart_mods (p : Nat) (g : Partition → Partition) : (s.modPart p g).mods = s.mods := rfl
@[simp] theorem modPart_power (p : Nat) (g : Partition → Partition) : (s.modPart p g).power = s.power := rfl
@[simp] theorem modPart_fuses (p : Nat) (g : Partition → Partition) : (s.modPart p g).fuses = s.fuses := rfl
@[simp] theorem modPart_sec (p : Nat) (g : Partition → Partition) : (s.modPart p g).sec = s.sec := rfl
@[simp] theorem modPart_blob (p : Nat) (g : Partition → Partition) : (s.modPart p g).blob = s.blob := rfl
@[simp] theorem modPart_place (p : Nat) (g : Partition → Partition) : (s.modPart p g).place = s.place := rfl
@[simp] theorem modPart_chk (p : Nat) (g : Partition → Partition) : (s.modPart p g).chk = s.chk := rfl
@[simp] theorem modPart_outbox (p : Nat) (g : Partition → Partition) : (s.modPart p g).outbox = s.outbox := rfl
@[simp] theorem modPart_fresh (p : Nat) (g : Partition → Partition) : (s.modPart p g).fresh = s.fresh := rfl
@[simp] theorem modPart_pending (p : Nat) (g : Partition → Partition) : (s.modPart p g).pending = s.pending := rfl

/-! ### modPort -/

@[simp] theorem modPort_mem (p : Nat) (g : FabPort → FabPort) : (s.modPort p g).mem = s.mem := rfl
@[simp] theorem modPort_hostMem (p : Nat) (g : FabPort → FabPort) : (s.modPort p g).hostMem = s.hostMem := rfl
@[simp] theorem modPort_host (p : Nat) (g : FabPort → FabPort) : (s.modPort p g).host = s.host := rfl
@[simp] theorem modPort_parts (p : Nat) (g : FabPort → FabPort) : (s.modPort p g).parts = s.parts := rfl
@[simp] theorem modPort_shutters (p : Nat) (g : FabPort → FabPort) : (s.modPort p g).shutters = s.shutters := rfl
@[simp] theorem modPort_heirs (p : Nat) (g : FabPort → FabPort) : (s.modPort p g).heirs = s.heirs := rfl
@[simp] theorem modPort_tiles (p : Nat) (g : FabPort → FabPort) : (s.modPort p g).tiles = s.tiles := rfl
@[simp] theorem modPort_fields (p : Nat) (g : FabPort → FabPort) : (s.modPort p g).fields = s.fields := rfl
@[simp] theorem modPort_acts (p : Nat) (g : FabPort → FabPort) : (s.modPort p g).acts = s.acts := rfl
@[simp] theorem modPort_fab (p : Nat) (g : FabPort → FabPort) : (s.modPort p g).fab = { s.fab with ports := smapSet s.fab.ports p (g (s.port p)) } := rfl
@[simp] theorem modPort_lnt (p : Nat) (g : FabPort → FabPort) : (s.modPort p g).lnt = s.lnt := rfl
@[simp] theorem modPort_outer (p : Nat) (g : FabPort → FabPort) : (s.modPort p g).outer = s.outer := rfl
@[simp] theorem modPort_bcn (p : Nat) (g : FabPort → FabPort) : (s.modPort p g).bcn = s.bcn := rfl
@[simp] theorem modPort_mods (p : Nat) (g : FabPort → FabPort) : (s.modPort p g).mods = s.mods := rfl
@[simp] theorem modPort_power (p : Nat) (g : FabPort → FabPort) : (s.modPort p g).power = s.power := rfl
@[simp] theorem modPort_fuses (p : Nat) (g : FabPort → FabPort) : (s.modPort p g).fuses = s.fuses := rfl
@[simp] theorem modPort_sec (p : Nat) (g : FabPort → FabPort) : (s.modPort p g).sec = s.sec := rfl
@[simp] theorem modPort_blob (p : Nat) (g : FabPort → FabPort) : (s.modPort p g).blob = s.blob := rfl
@[simp] theorem modPort_place (p : Nat) (g : FabPort → FabPort) : (s.modPort p g).place = s.place := rfl
@[simp] theorem modPort_chk (p : Nat) (g : FabPort → FabPort) : (s.modPort p g).chk = s.chk := rfl
@[simp] theorem modPort_outbox (p : Nat) (g : FabPort → FabPort) : (s.modPort p g).outbox = s.outbox := rfl
@[simp] theorem modPort_fresh (p : Nat) (g : FabPort → FabPort) : (s.modPort p g).fresh = s.fresh := rfl
@[simp] theorem modPort_pending (p : Nat) (g : FabPort → FabPort) : (s.modPort p g).pending = s.pending := rfl

/-! ### modFlow -/

@[simp] theorem modFlow_mem (k : Nat) (g : Flow → Flow) : (s.modFlow k g).mem = s.mem := rfl
@[simp] theorem modFlow_hostMem (k : Nat) (g : Flow → Flow) : (s.modFlow k g).hostMem = s.hostMem := rfl
@[simp] theorem modFlow_host (k : Nat) (g : Flow → Flow) : (s.modFlow k g).host = s.host := rfl
@[simp] theorem modFlow_parts (k : Nat) (g : Flow → Flow) : (s.modFlow k g).parts = s.parts := rfl
@[simp] theorem modFlow_shutters (k : Nat) (g : Flow → Flow) : (s.modFlow k g).shutters = s.shutters := rfl
@[simp] theorem modFlow_heirs (k : Nat) (g : Flow → Flow) : (s.modFlow k g).heirs = s.heirs := rfl
@[simp] theorem modFlow_tiles (k : Nat) (g : Flow → Flow) : (s.modFlow k g).tiles = s.tiles := rfl
@[simp] theorem modFlow_fields (k : Nat) (g : Flow → Flow) : (s.modFlow k g).fields = s.fields := rfl
@[simp] theorem modFlow_acts (k : Nat) (g : Flow → Flow) : (s.modFlow k g).acts = s.acts := rfl
@[simp] theorem modFlow_fab (k : Nat) (g : Flow → Flow) : (s.modFlow k g).fab = { s.fab with flows := smapModify {} s.fab.flows k g } := rfl
@[simp] theorem modFlow_lnt (k : Nat) (g : Flow → Flow) : (s.modFlow k g).lnt = s.lnt := rfl
@[simp] theorem modFlow_outer (k : Nat) (g : Flow → Flow) : (s.modFlow k g).outer = s.outer := rfl
@[simp] theorem modFlow_bcn (k : Nat) (g : Flow → Flow) : (s.modFlow k g).bcn = s.bcn := rfl
@[simp] theorem modFlow_mods (k : Nat) (g : Flow → Flow) : (s.modFlow k g).mods = s.mods := rfl
@[simp] theorem modFlow_power (k : Nat) (g : Flow → Flow) : (s.modFlow k g).power = s.power := rfl
@[simp] theorem modFlow_fuses (k : Nat) (g : Flow → Flow) : (s.modFlow k g).fuses = s.fuses := rfl
@[simp] theorem modFlow_sec (k : Nat) (g : Flow → Flow) : (s.modFlow k g).sec = s.sec := rfl
@[simp] theorem modFlow_blob (k : Nat) (g : Flow → Flow) : (s.modFlow k g).blob = s.blob := rfl
@[simp] theorem modFlow_place (k : Nat) (g : Flow → Flow) : (s.modFlow k g).place = s.place := rfl
@[simp] theorem modFlow_chk (k : Nat) (g : Flow → Flow) : (s.modFlow k g).chk = s.chk := rfl
@[simp] theorem modFlow_outbox (k : Nat) (g : Flow → Flow) : (s.modFlow k g).outbox = s.outbox := rfl
@[simp] theorem modFlow_fresh (k : Nat) (g : Flow → Flow) : (s.modFlow k g).fresh = s.fresh := rfl
@[simp] theorem modFlow_pending (k : Nat) (g : Flow → Flow) : (s.modFlow k g).pending = s.pending := rfl

/-! ### modLport -/

@[simp] theorem modLport_mem (p : Nat) (g : LntPort → LntPort) : (s.modLport p g).mem = s.mem := rfl
@[simp] theorem modLport_hostMem (p : Nat) (g : LntPort → LntPort) : (s.modLport p g).hostMem = s.hostMem := rfl
@[simp] theorem modLport_host (p : Nat) (g : LntPort → LntPort) : (s.modLport p g).host = s.host := rfl
@[simp] theorem modLport_parts (p : Nat) (g : LntPort → LntPort) : (s.modLport p g).parts = s.parts := rfl
@[simp] theorem modLport_shutters (p : Nat) (g : LntPort → LntPort) : (s.modLport p g).shutters = s.shutters := rfl
@[simp] theorem modLport_heirs (p : Nat) (g : LntPort → LntPort) : (s.modLport p g).heirs = s.heirs := rfl
@[simp] theorem modLport_tiles (p : Nat) (g : LntPort → LntPort) : (s.modLport p g).tiles = s.tiles := rfl
@[simp] theorem modLport_fields (p : Nat) (g : LntPort → LntPort) : (s.modLport p g).fields = s.fields := rfl
@[simp] theorem modLport_acts (p : Nat) (g : LntPort → LntPort) : (s.modLport p g).acts = s.acts := rfl
@[simp] theorem modLport_fab (p : Nat) (g : LntPort → LntPort) : (s.modLport p g).fab = s.fab := rfl
@[simp] theorem modLport_lnt (p : Nat) (g : LntPort → LntPort) : (s.modLport p g).lnt = smapSet s.lnt p (g (s.lport p)) := rfl
@[simp] theorem modLport_outer (p : Nat) (g : LntPort → LntPort) : (s.modLport p g).outer = s.outer := rfl
@[simp] theorem modLport_bcn (p : Nat) (g : LntPort → LntPort) : (s.modLport p g).bcn = s.bcn := rfl
@[simp] theorem modLport_mods (p : Nat) (g : LntPort → LntPort) : (s.modLport p g).mods = s.mods := rfl
@[simp] theorem modLport_power (p : Nat) (g : LntPort → LntPort) : (s.modLport p g).power = s.power := rfl
@[simp] theorem modLport_fuses (p : Nat) (g : LntPort → LntPort) : (s.modLport p g).fuses = s.fuses := rfl
@[simp] theorem modLport_sec (p : Nat) (g : LntPort → LntPort) : (s.modLport p g).sec = s.sec := rfl
@[simp] theorem modLport_blob (p : Nat) (g : LntPort → LntPort) : (s.modLport p g).blob = s.blob := rfl
@[simp] theorem modLport_place (p : Nat) (g : LntPort → LntPort) : (s.modLport p g).place = s.place := rfl
@[simp] theorem modLport_chk (p : Nat) (g : LntPort → LntPort) : (s.modLport p g).chk = s.chk := rfl
@[simp] theorem modLport_outbox (p : Nat) (g : LntPort → LntPort) : (s.modLport p g).outbox = s.outbox := rfl
@[simp] theorem modLport_fresh (p : Nat) (g : LntPort → LntPort) : (s.modLport p g).fresh = s.fresh := rfl
@[simp] theorem modLport_pending (p : Nat) (g : LntPort → LntPort) : (s.modLport p g).pending = s.pending := rfl

/-! ### modHost -/

@[simp] theorem modHost_mem (g : HostLink → HostLink) : (s.modHost g).mem = s.mem := rfl
@[simp] theorem modHost_hostMem (g : HostLink → HostLink) : (s.modHost g).hostMem = s.hostMem := rfl
@[simp] theorem modHost_host (g : HostLink → HostLink) : (s.modHost g).host = g s.host := rfl
@[simp] theorem modHost_parts (g : HostLink → HostLink) : (s.modHost g).parts = s.parts := rfl
@[simp] theorem modHost_shutters (g : HostLink → HostLink) : (s.modHost g).shutters = s.shutters := rfl
@[simp] theorem modHost_heirs (g : HostLink → HostLink) : (s.modHost g).heirs = s.heirs := rfl
@[simp] theorem modHost_tiles (g : HostLink → HostLink) : (s.modHost g).tiles = s.tiles := rfl
@[simp] theorem modHost_fields (g : HostLink → HostLink) : (s.modHost g).fields = s.fields := rfl
@[simp] theorem modHost_acts (g : HostLink → HostLink) : (s.modHost g).acts = s.acts := rfl
@[simp] theorem modHost_fab (g : HostLink → HostLink) : (s.modHost g).fab = s.fab := rfl
@[simp] theorem modHost_lnt (g : HostLink → HostLink) : (s.modHost g).lnt = s.lnt := rfl
@[simp] theorem modHost_outer (g : HostLink → HostLink) : (s.modHost g).outer = s.outer := rfl
@[simp] theorem modHost_bcn (g : HostLink → HostLink) : (s.modHost g).bcn = s.bcn := rfl
@[simp] theorem modHost_mods (g : HostLink → HostLink) : (s.modHost g).mods = s.mods := rfl
@[simp] theorem modHost_power (g : HostLink → HostLink) : (s.modHost g).power = s.power := rfl
@[simp] theorem modHost_fuses (g : HostLink → HostLink) : (s.modHost g).fuses = s.fuses := rfl
@[simp] theorem modHost_sec (g : HostLink → HostLink) : (s.modHost g).sec = s.sec := rfl
@[simp] theorem modHost_blob (g : HostLink → HostLink) : (s.modHost g).blob = s.blob := rfl
@[simp] theorem modHost_place (g : HostLink → HostLink) : (s.modHost g).place = s.place := rfl
@[simp] theorem modHost_chk (g : HostLink → HostLink) : (s.modHost g).chk = s.chk := rfl
@[simp] theorem modHost_outbox (g : HostLink → HostLink) : (s.modHost g).outbox = s.outbox := rfl
@[simp] theorem modHost_fresh (g : HostLink → HostLink) : (s.modHost g).fresh = s.fresh := rfl
@[simp] theorem modHost_pending (g : HostLink → HostLink) : (s.modHost g).pending = s.pending := rfl

/-! ### modQueue -/

@[simp] theorem modQueue_mem (q : Nat) (g : CmdQueue → CmdQueue) : (s.modQueue q g).mem = s.mem := rfl
@[simp] theorem modQueue_hostMem (q : Nat) (g : CmdQueue → CmdQueue) : (s.modQueue q g).hostMem = s.hostMem := rfl
@[simp] theorem modQueue_host (q : Nat) (g : CmdQueue → CmdQueue) : (s.modQueue q g).host = { s.host with queues := smapModify {} s.host.queues q g } := rfl
@[simp] theorem modQueue_parts (q : Nat) (g : CmdQueue → CmdQueue) : (s.modQueue q g).parts = s.parts := rfl
@[simp] theorem modQueue_shutters (q : Nat) (g : CmdQueue → CmdQueue) : (s.modQueue q g).shutters = s.shutters := rfl
@[simp] theorem modQueue_heirs (q : Nat) (g : CmdQueue → CmdQueue) : (s.modQueue q g).heirs = s.heirs := rfl
@[simp] theorem modQueue_tiles (q : Nat) (g : CmdQueue → CmdQueue) : (s.modQueue q g).tiles = s.tiles := rfl
@[simp] theorem modQueue_fields (q : Nat) (g : CmdQueue → CmdQueue) : (s.modQueue q g).fields = s.fields := rfl
@[simp] theorem modQueue_acts (q : Nat) (g : CmdQueue → CmdQueue) : (s.modQueue q g).acts = s.acts := rfl
@[simp] theorem modQueue_fab (q : Nat) (g : CmdQueue → CmdQueue) : (s.modQueue q g).fab = s.fab := rfl
@[simp] theorem modQueue_lnt (q : Nat) (g : CmdQueue → CmdQueue) : (s.modQueue q g).lnt = s.lnt := rfl
@[simp] theorem modQueue_outer (q : Nat) (g : CmdQueue → CmdQueue) : (s.modQueue q g).outer = s.outer := rfl
@[simp] theorem modQueue_bcn (q : Nat) (g : CmdQueue → CmdQueue) : (s.modQueue q g).bcn = s.bcn := rfl
@[simp] theorem modQueue_mods (q : Nat) (g : CmdQueue → CmdQueue) : (s.modQueue q g).mods = s.mods := rfl
@[simp] theorem modQueue_power (q : Nat) (g : CmdQueue → CmdQueue) : (s.modQueue q g).power = s.power := rfl
@[simp] theorem modQueue_fuses (q : Nat) (g : CmdQueue → CmdQueue) : (s.modQueue q g).fuses = s.fuses := rfl
@[simp] theorem modQueue_sec (q : Nat) (g : CmdQueue → CmdQueue) : (s.modQueue q g).sec = s.sec := rfl
@[simp] theorem modQueue_blob (q : Nat) (g : CmdQueue → CmdQueue) : (s.modQueue q g).blob = s.blob := rfl
@[simp] theorem modQueue_place (q : Nat) (g : CmdQueue → CmdQueue) : (s.modQueue q g).place = s.place := rfl
@[simp] theorem modQueue_chk (q : Nat) (g : CmdQueue → CmdQueue) : (s.modQueue q g).chk = s.chk := rfl
@[simp] theorem modQueue_outbox (q : Nat) (g : CmdQueue → CmdQueue) : (s.modQueue q g).outbox = s.outbox := rfl
@[simp] theorem modQueue_fresh (q : Nat) (g : CmdQueue → CmdQueue) : (s.modQueue q g).fresh = s.fresh := rfl
@[simp] theorem modQueue_pending (q : Nat) (g : CmdQueue → CmdQueue) : (s.modQueue q g).pending = s.pending := rfl

/-! ### modCring -/

@[simp] theorem modCring_mem (c : Nat) (g : CRing → CRing) : (s.modCring c g).mem = s.mem := rfl
@[simp] theorem modCring_hostMem (c : Nat) (g : CRing → CRing) : (s.modCring c g).hostMem = s.hostMem := rfl
@[simp] theorem modCring_host (c : Nat) (g : CRing → CRing) : (s.modCring c g).host = { s.host with crings := smapModify {} s.host.crings c g } := rfl
@[simp] theorem modCring_parts (c : Nat) (g : CRing → CRing) : (s.modCring c g).parts = s.parts := rfl
@[simp] theorem modCring_shutters (c : Nat) (g : CRing → CRing) : (s.modCring c g).shutters = s.shutters := rfl
@[simp] theorem modCring_heirs (c : Nat) (g : CRing → CRing) : (s.modCring c g).heirs = s.heirs := rfl
@[simp] theorem modCring_tiles (c : Nat) (g : CRing → CRing) : (s.modCring c g).tiles = s.tiles := rfl
@[simp] theorem modCring_fields (c : Nat) (g : CRing → CRing) : (s.modCring c g).fields = s.fields := rfl
@[simp] theorem modCring_acts (c : Nat) (g : CRing → CRing) : (s.modCring c g).acts = s.acts := rfl
@[simp] theorem modCring_fab (c : Nat) (g : CRing → CRing) : (s.modCring c g).fab = s.fab := rfl
@[simp] theorem modCring_lnt (c : Nat) (g : CRing → CRing) : (s.modCring c g).lnt = s.lnt := rfl
@[simp] theorem modCring_outer (c : Nat) (g : CRing → CRing) : (s.modCring c g).outer = s.outer := rfl
@[simp] theorem modCring_bcn (c : Nat) (g : CRing → CRing) : (s.modCring c g).bcn = s.bcn := rfl
@[simp] theorem modCring_mods (c : Nat) (g : CRing → CRing) : (s.modCring c g).mods = s.mods := rfl
@[simp] theorem modCring_power (c : Nat) (g : CRing → CRing) : (s.modCring c g).power = s.power := rfl
@[simp] theorem modCring_fuses (c : Nat) (g : CRing → CRing) : (s.modCring c g).fuses = s.fuses := rfl
@[simp] theorem modCring_sec (c : Nat) (g : CRing → CRing) : (s.modCring c g).sec = s.sec := rfl
@[simp] theorem modCring_blob (c : Nat) (g : CRing → CRing) : (s.modCring c g).blob = s.blob := rfl
@[simp] theorem modCring_place (c : Nat) (g : CRing → CRing) : (s.modCring c g).place = s.place := rfl
@[simp] theorem modCring_chk (c : Nat) (g : CRing → CRing) : (s.modCring c g).chk = s.chk := rfl
@[simp] theorem modCring_outbox (c : Nat) (g : CRing → CRing) : (s.modCring c g).outbox = s.outbox := rfl
@[simp] theorem modCring_fresh (c : Nat) (g : CRing → CRing) : (s.modCring c g).fresh = s.fresh := rfl
@[simp] theorem modCring_pending (c : Nat) (g : CRing → CRing) : (s.modCring c g).pending = s.pending := rfl

/-! ### modEring -/

@[simp] theorem modEring_mem (e : Nat) (g : ERing → ERing) : (s.modEring e g).mem = s.mem := rfl
@[simp] theorem modEring_hostMem (e : Nat) (g : ERing → ERing) : (s.modEring e g).hostMem = s.hostMem := rfl
@[simp] theorem modEring_host (e : Nat) (g : ERing → ERing) : (s.modEring e g).host = { s.host with erings := smapModify {} s.host.erings e g } := rfl
@[simp] theorem modEring_parts (e : Nat) (g : ERing → ERing) : (s.modEring e g).parts = s.parts := rfl
@[simp] theorem modEring_shutters (e : Nat) (g : ERing → ERing) : (s.modEring e g).shutters = s.shutters := rfl
@[simp] theorem modEring_heirs (e : Nat) (g : ERing → ERing) : (s.modEring e g).heirs = s.heirs := rfl
@[simp] theorem modEring_tiles (e : Nat) (g : ERing → ERing) : (s.modEring e g).tiles = s.tiles := rfl
@[simp] theorem modEring_fields (e : Nat) (g : ERing → ERing) : (s.modEring e g).fields = s.fields := rfl
@[simp] theorem modEring_acts (e : Nat) (g : ERing → ERing) : (s.modEring e g).acts = s.acts := rfl
@[simp] theorem modEring_fab (e : Nat) (g : ERing → ERing) : (s.modEring e g).fab = s.fab := rfl
@[simp] theorem modEring_lnt (e : Nat) (g : ERing → ERing) : (s.modEring e g).lnt = s.lnt := rfl
@[simp] theorem modEring_outer (e : Nat) (g : ERing → ERing) : (s.modEring e g).outer = s.outer := rfl
@[simp] theorem modEring_bcn (e : Nat) (g : ERing → ERing) : (s.modEring e g).bcn = s.bcn := rfl
@[simp] theorem modEring_mods (e : Nat) (g : ERing → ERing) : (s.modEring e g).mods = s.mods := rfl
@[simp] theorem modEring_power (e : Nat) (g : ERing → ERing) : (s.modEring e g).power = s.power := rfl
@[simp] theorem modEring_fuses (e : Nat) (g : ERing → ERing) : (s.modEring e g).fuses = s.fuses := rfl
@[simp] theorem modEring_sec (e : Nat) (g : ERing → ERing) : (s.modEring e g).sec = s.sec := rfl
@[simp] theorem modEring_blob (e : Nat) (g : ERing → ERing) : (s.modEring e g).blob = s.blob := rfl
@[simp] theorem modEring_place (e : Nat) (g : ERing → ERing) : (s.modEring e g).place = s.place := rfl
@[simp] theorem modEring_chk (e : Nat) (g : ERing → ERing) : (s.modEring e g).chk = s.chk := rfl
@[simp] theorem modEring_outbox (e : Nat) (g : ERing → ERing) : (s.modEring e g).outbox = s.outbox := rfl
@[simp] theorem modEring_fresh (e : Nat) (g : ERing → ERing) : (s.modEring e g).fresh = s.fresh := rfl
@[simp] theorem modEring_pending (e : Nat) (g : ERing → ERing) : (s.modEring e g).pending = s.pending := rfl

/-! ### modCmd -/

@[simp] theorem modCmd_mem (u : Nat) (g : OutCmd → OutCmd) : (s.modCmd u g).mem = s.mem := rfl
@[simp] theorem modCmd_hostMem (u : Nat) (g : OutCmd → OutCmd) : (s.modCmd u g).hostMem = s.hostMem := rfl
@[simp] theorem modCmd_host (u : Nat) (g : OutCmd → OutCmd) : (s.modCmd u g).host = { s.host with cmds := s.host.cmds.map (fun c => if c.uid == u then g c else c) } := rfl
@[simp] theorem modCmd_parts (u : Nat) (g : OutCmd → OutCmd) : (s.modCmd u g).parts = s.parts := rfl
@[simp] theorem modCmd_shutters (u : Nat) (g : OutCmd → OutCmd) : (s.modCmd u g).shutters = s.shutters := rfl
@[simp] theorem modCmd_heirs (u : Nat) (g : OutCmd → OutCmd) : (s.modCmd u g).heirs = s.heirs := rfl
@[simp] theorem modCmd_tiles (u : Nat) (g : OutCmd → OutCmd) : (s.modCmd u g).tiles = s.tiles := rfl
@[simp] theorem modCmd_fields (u : Nat) (g : OutCmd → OutCmd) : (s.modCmd u g).fields = s.fields := rfl
@[simp] theorem modCmd_acts (u : Nat) (g : OutCmd → OutCmd) : (s.modCmd u g).acts = s.acts := rfl
@[simp] theorem modCmd_fab (u : Nat) (g : OutCmd → OutCmd) : (s.modCmd u g).fab = s.fab := rfl
@[simp] theorem modCmd_lnt (u : Nat) (g : OutCmd → OutCmd) : (s.modCmd u g).lnt = s.lnt := rfl
@[simp] theorem modCmd_outer (u : Nat) (g : OutCmd → OutCmd) : (s.modCmd u g).outer = s.outer := rfl
@[simp] theorem modCmd_bcn (u : Nat) (g : OutCmd → OutCmd) : (s.modCmd u g).bcn = s.bcn := rfl
@[simp] theorem modCmd_mods (u : Nat) (g : OutCmd → OutCmd) : (s.modCmd u g).mods = s.mods := rfl
@[simp] theorem modCmd_power (u : Nat) (g : OutCmd → OutCmd) : (s.modCmd u g).power = s.power := rfl
@[simp] theorem modCmd_fuses (u : Nat) (g : OutCmd → OutCmd) : (s.modCmd u g).fuses = s.fuses := rfl
@[simp] theorem modCmd_sec (u : Nat) (g : OutCmd → OutCmd) : (s.modCmd u g).sec = s.sec := rfl
@[simp] theorem modCmd_blob (u : Nat) (g : OutCmd → OutCmd) : (s.modCmd u g).blob = s.blob := rfl
@[simp] theorem modCmd_place (u : Nat) (g : OutCmd → OutCmd) : (s.modCmd u g).place = s.place := rfl
@[simp] theorem modCmd_chk (u : Nat) (g : OutCmd → OutCmd) : (s.modCmd u g).chk = s.chk := rfl
@[simp] theorem modCmd_outbox (u : Nat) (g : OutCmd → OutCmd) : (s.modCmd u g).outbox = s.outbox := rfl
@[simp] theorem modCmd_fresh (u : Nat) (g : OutCmd → OutCmd) : (s.modCmd u g).fresh = s.fresh := rfl
@[simp] theorem modCmd_pending (u : Nat) (g : OutCmd → OutCmd) : (s.modCmd u g).pending = s.pending := rfl

/-! ### addCmd -/

@[simp] theorem addCmd_mem (c : OutCmd) : (s.addCmd c).mem = s.mem := rfl
@[simp] theorem addCmd_hostMem (c : OutCmd) : (s.addCmd c).hostMem = s.hostMem := rfl
@[simp] theorem addCmd_host (c : OutCmd) : (s.addCmd c).host = { s.host with cmds := s.host.cmds ++ [c], nextUid := s.host.nextUid + 1 } := rfl
@[simp] theorem addCmd_parts (c : OutCmd) : (s.addCmd c).parts = s.parts := rfl
@[simp] theorem addCmd_shutters (c : OutCmd) : (s.addCmd c).shutters = s.shutters := rfl
@[simp] theorem addCmd_heirs (c : OutCmd) : (s.addCmd c).heirs = s.heirs := rfl
@[simp] theorem addCmd_tiles (c : OutCmd) : (s.addCmd c).tiles = s.tiles := rfl
@[simp] theorem addCmd_fields (c : OutCmd) : (s.addCmd c).fields = s.fields := rfl
@[simp] theorem addCmd_acts (c : OutCmd) : (s.addCmd c).acts = s.acts := rfl
@[simp] theorem addCmd_fab (c : OutCmd) : (s.addCmd c).fab = s.fab := rfl
@[simp] theorem addCmd_lnt (c : OutCmd) : (s.addCmd c).lnt = s.lnt := rfl
@[simp] theorem addCmd_outer (c : OutCmd) : (s.addCmd c).outer = s.outer := rfl
@[simp] theorem addCmd_bcn (c : OutCmd) : (s.addCmd c).bcn = s.bcn := rfl
@[simp] theorem addCmd_mods (c : OutCmd) : (s.addCmd c).mods = s.mods := rfl
@[simp] theorem addCmd_power (c : OutCmd) : (s.addCmd c).power = s.power := rfl
@[simp] theorem addCmd_fuses (c : OutCmd) : (s.addCmd c).fuses = s.fuses := rfl
@[simp] theorem addCmd_sec (c : OutCmd) : (s.addCmd c).sec = s.sec := rfl
@[simp] theorem addCmd_blob (c : OutCmd) : (s.addCmd c).blob = s.blob := rfl
@[simp] theorem addCmd_place (c : OutCmd) : (s.addCmd c).place = s.place := rfl
@[simp] theorem addCmd_chk (c : OutCmd) : (s.addCmd c).chk = s.chk := rfl
@[simp] theorem addCmd_outbox (c : OutCmd) : (s.addCmd c).outbox = s.outbox := rfl
@[simp] theorem addCmd_fresh (c : OutCmd) : (s.addCmd c).fresh = s.fresh := rfl
@[simp] theorem addCmd_pending (c : OutCmd) : (s.addCmd c).pending = s.pending := rfl

/-! ### modBcn -/

@[simp] theorem modBcn_mem (g : Beacon → Beacon) : (s.modBcn g).mem = s.mem := rfl
@[simp] theorem modBcn_hostMem (g : Beacon → Beacon) : (s.modBcn g).hostMem = s.hostMem := rfl
@[simp] theorem modBcn_host (g : Beacon → Beacon) : (s.modBcn g).host = s.host := rfl
@[simp] theorem modBcn_parts (g : Beacon → Beacon) : (s.modBcn g).parts = s.parts := rfl
@[simp] theorem modBcn_shutters (g : Beacon → Beacon) : (s.modBcn g).shutters = s.shutters := rfl
@[simp] theorem modBcn_heirs (g : Beacon → Beacon) : (s.modBcn g).heirs = s.heirs := rfl
@[simp] theorem modBcn_tiles (g : Beacon → Beacon) : (s.modBcn g).tiles = s.tiles := rfl
@[simp] theorem modBcn_fields (g : Beacon → Beacon) : (s.modBcn g).fields = s.fields := rfl
@[simp] theorem modBcn_acts (g : Beacon → Beacon) : (s.modBcn g).acts = s.acts := rfl
@[simp] theorem modBcn_fab (g : Beacon → Beacon) : (s.modBcn g).fab = s.fab := rfl
@[simp] theorem modBcn_lnt (g : Beacon → Beacon) : (s.modBcn g).lnt = s.lnt := rfl
@[simp] theorem modBcn_outer (g : Beacon → Beacon) : (s.modBcn g).outer = s.outer := rfl
@[simp] theorem modBcn_bcn (g : Beacon → Beacon) : (s.modBcn g).bcn = g s.bcn := rfl
@[simp] theorem modBcn_mods (g : Beacon → Beacon) : (s.modBcn g).mods = s.mods := rfl
@[simp] theorem modBcn_power (g : Beacon → Beacon) : (s.modBcn g).power = s.power := rfl
@[simp] theorem modBcn_fuses (g : Beacon → Beacon) : (s.modBcn g).fuses = s.fuses := rfl
@[simp] theorem modBcn_sec (g : Beacon → Beacon) : (s.modBcn g).sec = s.sec := rfl
@[simp] theorem modBcn_blob (g : Beacon → Beacon) : (s.modBcn g).blob = s.blob := rfl
@[simp] theorem modBcn_place (g : Beacon → Beacon) : (s.modBcn g).place = s.place := rfl
@[simp] theorem modBcn_chk (g : Beacon → Beacon) : (s.modBcn g).chk = s.chk := rfl
@[simp] theorem modBcn_outbox (g : Beacon → Beacon) : (s.modBcn g).outbox = s.outbox := rfl
@[simp] theorem modBcn_fresh (g : Beacon → Beacon) : (s.modBcn g).fresh = s.fresh := rfl
@[simp] theorem modBcn_pending (g : Beacon → Beacon) : (s.modBcn g).pending = s.pending := rfl

/-! ### modOuter -/

@[simp] theorem modOuter_mem (g : OuterIsland → OuterIsland) : (s.modOuter g).mem = s.mem := rfl
@[simp] theorem modOuter_hostMem (g : OuterIsland → OuterIsland) : (s.modOuter g).hostMem = s.hostMem := rfl
@[simp] theorem modOuter_host (g : OuterIsland → OuterIsland) : (s.modOuter g).host = s.host := rfl
@[simp] theorem modOuter_parts (g : OuterIsland → OuterIsland) : (s.modOuter g).parts = s.parts := rfl
@[simp] theorem modOuter_shutters (g : OuterIsland → OuterIsland) : (s.modOuter g).shutters = s.shutters := rfl
@[simp] theorem modOuter_heirs (g : OuterIsland → OuterIsland) : (s.modOuter g).heirs = s.heirs := rfl
@[simp] theorem modOuter_tiles (g : OuterIsland → OuterIsland) : (s.modOuter g).tiles = s.tiles := rfl
@[simp] theorem modOuter_fields (g : OuterIsland → OuterIsland) : (s.modOuter g).fields = s.fields := rfl
@[simp] theorem modOuter_acts (g : OuterIsland → OuterIsland) : (s.modOuter g).acts = s.acts := rfl
@[simp] theorem modOuter_fab (g : OuterIsland → OuterIsland) : (s.modOuter g).fab = s.fab := rfl
@[simp] theorem modOuter_lnt (g : OuterIsland → OuterIsland) : (s.modOuter g).lnt = s.lnt := rfl
@[simp] theorem modOuter_outer (g : OuterIsland → OuterIsland) : (s.modOuter g).outer = g s.outer := rfl
@[simp] theorem modOuter_bcn (g : OuterIsland → OuterIsland) : (s.modOuter g).bcn = s.bcn := rfl
@[simp] theorem modOuter_mods (g : OuterIsland → OuterIsland) : (s.modOuter g).mods = s.mods := rfl
@[simp] theorem modOuter_power (g : OuterIsland → OuterIsland) : (s.modOuter g).power = s.power := rfl
@[simp] theorem modOuter_fuses (g : OuterIsland → OuterIsland) : (s.modOuter g).fuses = s.fuses := rfl
@[simp] theorem modOuter_sec (g : OuterIsland → OuterIsland) : (s.modOuter g).sec = s.sec := rfl
@[simp] theorem modOuter_blob (g : OuterIsland → OuterIsland) : (s.modOuter g).blob = s.blob := rfl
@[simp] theorem modOuter_place (g : OuterIsland → OuterIsland) : (s.modOuter g).place = s.place := rfl
@[simp] theorem modOuter_chk (g : OuterIsland → OuterIsland) : (s.modOuter g).chk = s.chk := rfl
@[simp] theorem modOuter_outbox (g : OuterIsland → OuterIsland) : (s.modOuter g).outbox = s.outbox := rfl
@[simp] theorem modOuter_fresh (g : OuterIsland → OuterIsland) : (s.modOuter g).fresh = s.fresh := rfl
@[simp] theorem modOuter_pending (g : OuterIsland → OuterIsland) : (s.modOuter g).pending = s.pending := rfl

/-! ### emit -/

@[simp] theorem emit_mem (m : OutMsg) : (s.emit m).mem = s.mem := rfl
@[simp] theorem emit_hostMem (m : OutMsg) : (s.emit m).hostMem = s.hostMem := rfl
@[simp] theorem emit_host (m : OutMsg) : (s.emit m).host = s.host := rfl
@[simp] theorem emit_parts (m : OutMsg) : (s.emit m).parts = s.parts := rfl
@[simp] theorem emit_shutters (m : OutMsg) : (s.emit m).shutters = s.shutters := rfl
@[simp] theorem emit_heirs (m : OutMsg) : (s.emit m).heirs = s.heirs := rfl
@[simp] theorem emit_tiles (m : OutMsg) : (s.emit m).tiles = s.tiles := rfl
@[simp] theorem emit_fields (m : OutMsg) : (s.emit m).fields = s.fields := rfl
@[simp] theorem emit_acts (m : OutMsg) : (s.emit m).acts = s.acts := rfl
@[simp] theorem emit_fab (m : OutMsg) : (s.emit m).fab = s.fab := rfl
@[simp] theorem emit_lnt (m : OutMsg) : (s.emit m).lnt = s.lnt := rfl
@[simp] theorem emit_outer (m : OutMsg) : (s.emit m).outer = s.outer := rfl
@[simp] theorem emit_bcn (m : OutMsg) : (s.emit m).bcn = s.bcn := rfl
@[simp] theorem emit_mods (m : OutMsg) : (s.emit m).mods = s.mods := rfl
@[simp] theorem emit_power (m : OutMsg) : (s.emit m).power = s.power := rfl
@[simp] theorem emit_fuses (m : OutMsg) : (s.emit m).fuses = s.fuses := rfl
@[simp] theorem emit_sec (m : OutMsg) : (s.emit m).sec = s.sec := rfl
@[simp] theorem emit_blob (m : OutMsg) : (s.emit m).blob = s.blob := rfl
@[simp] theorem emit_place (m : OutMsg) : (s.emit m).place = s.place := rfl
@[simp] theorem emit_chk (m : OutMsg) : (s.emit m).chk = s.chk := rfl
@[simp] theorem emit_outbox (m : OutMsg) : (s.emit m).outbox = s.outbox ++ [m] := rfl
@[simp] theorem emit_fresh (m : OutMsg) : (s.emit m).fresh = s.fresh := rfl
@[simp] theorem emit_pending (m : OutMsg) : (s.emit m).pending = s.pending := rfl

/-! ### emits -/

@[simp] theorem emits_mem (ms : List OutMsg) : (s.emits ms).mem = s.mem := rfl
@[simp] theorem emits_hostMem (ms : List OutMsg) : (s.emits ms).hostMem = s.hostMem := rfl
@[simp] theorem emits_host (ms : List OutMsg) : (s.emits ms).host = s.host := rfl
@[simp] theorem emits_parts (ms : List OutMsg) : (s.emits ms).parts = s.parts := rfl
@[simp] theorem emits_shutters (ms : List OutMsg) : (s.emits ms).shutters = s.shutters := rfl
@[simp] theorem emits_heirs (ms : List OutMsg) : (s.emits ms).heirs = s.heirs := rfl
@[simp] theorem emits_tiles (ms : List OutMsg) : (s.emits ms).tiles = s.tiles := rfl
@[simp] theorem emits_fields (ms : List OutMsg) : (s.emits ms).fields = s.fields := rfl
@[simp] theorem emits_acts (ms : List OutMsg) : (s.emits ms).acts = s.acts := rfl
@[simp] theorem emits_fab (ms : List OutMsg) : (s.emits ms).fab = s.fab := rfl
@[simp] theorem emits_lnt (ms : List OutMsg) : (s.emits ms).lnt = s.lnt := rfl
@[simp] theorem emits_outer (ms : List OutMsg) : (s.emits ms).outer = s.outer := rfl
@[simp] theorem emits_bcn (ms : List OutMsg) : (s.emits ms).bcn = s.bcn := rfl
@[simp] theorem emits_mods (ms : List OutMsg) : (s.emits ms).mods = s.mods := rfl
@[simp] theorem emits_power (ms : List OutMsg) : (s.emits ms).power = s.power := rfl
@[simp] theorem emits_fuses (ms : List OutMsg) : (s.emits ms).fuses = s.fuses := rfl
@[simp] theorem emits_sec (ms : List OutMsg) : (s.emits ms).sec = s.sec := rfl
@[simp] theorem emits_blob (ms : List OutMsg) : (s.emits ms).blob = s.blob := rfl
@[simp] theorem emits_place (ms : List OutMsg) : (s.emits ms).place = s.place := rfl
@[simp] theorem emits_chk (ms : List OutMsg) : (s.emits ms).chk = s.chk := rfl
@[simp] theorem emits_outbox (ms : List OutMsg) : (s.emits ms).outbox = s.outbox ++ ms := rfl
@[simp] theorem emits_fresh (ms : List OutMsg) : (s.emits ms).fresh = s.fresh := rfl
@[simp] theorem emits_pending (ms : List OutMsg) : (s.emits ms).pending = s.pending := rfl

/-! ### faultField -/

@[simp] theorem faultField_mem (f : Nat) : (s.faultField f).mem = s.mem := rfl
@[simp] theorem faultField_hostMem (f : Nat) : (s.faultField f).hostMem = s.hostMem := rfl
@[simp] theorem faultField_host (f : Nat) : (s.faultField f).host = s.host := rfl
@[simp] theorem faultField_parts (f : Nat) : (s.faultField f).parts = s.parts := rfl
@[simp] theorem faultField_shutters (f : Nat) : (s.faultField f).shutters = s.shutters := rfl
@[simp] theorem faultField_heirs (f : Nat) : (s.faultField f).heirs = s.heirs := rfl
@[simp] theorem faultField_tiles (f : Nat) : (s.faultField f).tiles = s.tiles := rfl
@[simp] theorem faultField_fields (f : Nat) : (s.faultField f).fields = s.fields := rfl
@[simp] theorem faultField_acts (f : Nat) : (s.faultField f).acts = s.acts := rfl
@[simp] theorem faultField_fab (f : Nat) : (s.faultField f).fab = s.fab := rfl
@[simp] theorem faultField_lnt (f : Nat) : (s.faultField f).lnt = s.lnt := rfl
@[simp] theorem faultField_outer (f : Nat) : (s.faultField f).outer = s.outer := rfl
@[simp] theorem faultField_bcn (f : Nat) : (s.faultField f).bcn = s.bcn := rfl
@[simp] theorem faultField_mods (f : Nat) : (s.faultField f).mods = { s.mods with faultField := f } := rfl
@[simp] theorem faultField_power (f : Nat) : (s.faultField f).power = s.power := rfl
@[simp] theorem faultField_fuses (f : Nat) : (s.faultField f).fuses = s.fuses := rfl
@[simp] theorem faultField_sec (f : Nat) : (s.faultField f).sec = s.sec := rfl
@[simp] theorem faultField_blob (f : Nat) : (s.faultField f).blob = s.blob := rfl
@[simp] theorem faultField_place (f : Nat) : (s.faultField f).place = s.place := rfl
@[simp] theorem faultField_chk (f : Nat) : (s.faultField f).chk = s.chk := rfl
@[simp] theorem faultField_outbox (f : Nat) : (s.faultField f).outbox = s.outbox := rfl
@[simp] theorem faultField_fresh (f : Nat) : (s.faultField f).fresh = s.fresh := rfl
@[simp] theorem faultField_pending (f : Nat) : (s.faultField f).pending = s.pending := rfl

/-! ### Lookups -/

@[simp] theorem setTile_tile (t : Nat) (x : TileState) (k : Nat) : (s.setTile t x).tile k = if k = t then x else s.tile k := smapGet_smapSet _ _ _ _ _
@[simp] theorem modTile_tile (t : Nat) (g : TileState → TileState) (k : Nat) : (s.modTile t g).tile k = if k = t then g (s.tile t) else s.tile k := smapGet_smapSet _ _ _ _ _
@[simp] theorem modFld_fld (f : Nat) (g : Field → Field) (k : Nat) : (s.modFld f g).fld k = if k = f then g (s.fld f) else s.fld k := smapGet_smapSet _ _ _ _ _
@[simp] theorem modPart_part (p : Nat) (g : Partition → Partition) (k : Nat) : (s.modPart p g).part k = if k = p then g (s.part p) else s.part k := smapGet_smapSet _ _ _ _ _
@[simp] theorem modPort_port (p : Nat) (g : FabPort → FabPort) (k : Nat) : (s.modPort p g).port k = if k = p then g (s.port p) else s.port k := smapGet_smapSet _ _ _ _ _
@[simp] theorem modLport_lport (p : Nat) (g : LntPort → LntPort) (k : Nat) : (s.modLport p g).lport k = if k = p then g (s.lport p) else s.lport k := smapGet_smapSet _ _ _ _ _
@[simp] theorem modQueue_cmdQueue (q : Nat) (g : CmdQueue → CmdQueue) (k : Nat) : (s.modQueue q g).cmdQueue k = if k = q then g (s.cmdQueue q) else s.cmdQueue k := smapGet_smapSet _ _ _ _ _

end Sys2Proof.Laws
end

