-- ==== Sys2Proof/Laws/Submit.lean ====
section
/-! SUPPORT. Laws/Submit.lean: what a host command that starts at its submission does, and how it completes. -/

namespace Sys2Proof.Laws

open Sys2Proof.Machine

theorem forAll_host {α : Type} (xs : List α) (g : State → α → State) (hg : ∀ s x, (g s x).host = s.host) (s : State) :
    (s.forAll xs g).host = s.host := by
  unfold State.forAll
  induction xs generalizing s with
  | nil => rfl
  | cons x xs ih => rw [List.foldl_cons, ih, hg]

theorem forAll_parts {α : Type} (xs : List α) (g : State → α → State) (hg : ∀ s x, (g s x).parts = s.parts) (s : State) :
    (s.forAll xs g).parts = s.parts := by
  unfold State.forAll
  induction xs generalizing s with
  | nil => rfl
  | cons x xs ih => rw [List.foldl_cons, ih, hg]

/-- All that a frame queued on a port can change: the ports and the outbox. -/
theorem linkSend_eq (s : State) (p : Nat) (f : FabFrame) :
    ∃ ps ob, s.linkSend p f = { s with fab := { s.fab with ports := ps }, outbox := ob } := by
  unfold State.linkSend
  split
  · exact ⟨s.fab.ports, s.outbox, rfl⟩
  · exact ⟨_, _, rfl⟩

/-- All that a decision of the keeper can change as it goes out: the ports and the outbox. -/
theorem broadcast_eq (s : State) (f : FlareFrame) :
    ∃ ps ob, s.broadcast f = { s with fab := { s.fab with ports := ps }, outbox := ob } := by
  have key : ∀ (xs : List Nat) (t : State),
      ∃ ps ob, t.forAll xs (fun s p => s.flareSend p f) = { t with fab := { t.fab with ports := ps }, outbox := ob } := by
    intro xs
    induction xs with
    | nil => exact fun t => ⟨t.fab.ports, t.outbox, rfl⟩
    | cons x xs ih =>
      intro t
      obtain ⟨ps, ob, h⟩ := linkSend_eq t x (flareFab t.place.moduleId (t.port x).peerModule f)
      obtain ⟨ps', ob', h'⟩ := ih (t.flareSend x f)
      refine ⟨ps', ob', h'.trans ?_⟩
      unfold State.flareSend; rw [h]
  exact key s.children (s.emit (.broadcast f))

/-- A scalar on its way changes the ports and the outbox at most. -/
theorem sendScalar_eq (s : State) (slot : Nat) (v : F32) (p : Option (Nat × Nat)) :
    ∃ ps ob, s.sendScalar slot v p = { s with fab := { s.fab with ports := ps }, outbox := ob } := by
  unfold State.sendScalar
  dsimp only
  split
  · exact broadcast_eq _ _
  · exact ⟨s.fab.ports, _, rfl⟩

/-- What a command announces at its submission leaves the host link as it is. -/
theorem announce_host (s : State) (part : Nat) (b : Body) (p : Option (Nat × Nat)) : (s.announce part b p).host = s.host := by
  unfold State.announce
  split
  · obtain ⟨ps, ob, e⟩ := sendScalar_eq s ‹_› ‹_› p; rw [e]
  · apply forAll_host; intros; rfl
  · rfl

/-- An accepted command is the last in hand. -/
theorem offered_host (s : State) (h : Hdr) (b : Body) :
    (offered s h b).host = { s.host with cmds := s.host.cmds ++ [entryOf s h b], nextUid := s.host.nextUid + 1 } := by
  unfold offered State.addCmd State.modHost
  split <;> simp [announce_host]

theorem offered_cmdQueue (s : State) (h : Hdr) (b : Body) (q : Nat) : (offered s h b).cmdQueue q = s.cmdQueue q := by
  unfold State.cmdQueue; rw [offered_host]

theorem announce_parts (s : State) (part : Nat) (b : Body) (p : Option (Nat × Nat)) : (s.announce part b p).parts = s.parts := by
  unfold State.announce
  split
  · obtain ⟨ps, ob, e⟩ := sendScalar_eq s ‹_› ‹_› p; rw [e]
  · apply forAll_parts; intros; rfl
  · rfl

theorem offered_parts (s : State) (h : Hdr) (b : Body) : (offered s h b).parts = s.parts := by
  unfold offered State.addCmd State.modHost
  split <;> simp [announce_parts]

theorem turnedAway_offered (s : State) (h : Hdr) (b : Body) (p op : Nat) : (offered s h b).turnedAway p op = s.turnedAway p op := by
  unfold State.turnedAway State.part; rw [offered_parts]

/-- Once a check has failed, the fold over the rest names some check. -/
theorem firstFail_fold (cs : List Check) (x : Check) :
    ∃ y, cs.foldl (fun best c => if c.ok then best else match best with
      | none => some c
      | some b => if c.order < b.order then some c else some b) (some x) = some y := by
  induction cs generalizing x with
  | nil => exact ⟨x, rfl⟩
  | cons c cs ih =>
    rw [List.foldl_cons]
    by_cases hc : c.ok = true
    · simp only [hc, if_true]; exact ih x
    · simp only [hc]
      by_cases ho : c.order < x.order
      · simp only [ho, if_true]; exact ih c
      · simp only [ho]; exact ih x

/-- No check fails exactly when every check holds. -/
theorem firstFail_none (cs : List Check) : firstFail cs = none ↔ ∀ c ∈ cs, c.ok = true := by
  unfold firstFail
  induction cs with
  | nil => simp
  | cons c cs ih =>
    rw [List.foldl_cons]
    by_cases hc : c.ok = true
    · simp [hc, ih]
    · obtain ⟨y, hy⟩ := firstFail_fold cs c
      simp only [hc]
      constructor
      · intro h; exact absurd (hy.symm.trans h) (by simp)
      · intro h; exact absurd (h c (by simp)) hc

/-- What the fold of `firstFail` keeps: the first of the failing checks with the lowest order. -/
theorem firstFail_spec_fold (cs : List Check) (b : Option Check) (k : Check)
   (h : cs.foldl (fun best c => if c.ok then best else match best with
      | none => some c
      | some b => if c.order < b.order then some c else some b) b = some k) :
   (b = some k ∨ (k ∈ cs ∧ k.ok = false)) ∧ (∀ x, b = some x → k.order ≤ x.order) ∧ ∀ c ∈ cs, c.ok = false → k.order ≤ c.order := by
  induction cs generalizing b with
  | nil => simp at h; subst h; simp
  | cons c cs ih =>
    rw [List.foldl_cons] at h
    have := ih _ h
    by_cases hc : c.ok = true
    · simp only [hc, if_true] at this
      obtain ⟨h1, h2, h3⟩ := this
      refine ⟨?_, h2, ?_⟩
      · rcases h1 with h1 | h1
        · exact .inl h1
        · exact .inr ⟨List.mem_cons_of_mem _ h1.1, h1.2⟩
      · intro d hd hdo
        rcases List.mem_cons.mp hd with rfl | hd
        · simp [hc] at hdo
        · exact h3 d hd hdo
    · simp only [hc] at this
      obtain ⟨h1, h2, h3⟩ := this
      have hc' : c.ok = false := by simpa using hc
      cases b with
      | none =>
        simp at h1 h2
        refine ⟨?_, by simp, ?_⟩
        · rcases h1 with h1 | h1
          · subst h1; exact .inr ⟨by simp, hc'⟩
          · exact .inr ⟨List.mem_cons_of_mem _ h1.1, h1.2⟩
        · intro d hd hdo
          rcases List.mem_cons.mp hd with rfl | hd
          · exact h2
          · exact h3 d hd hdo
      | some x =>
        by_cases ho : c.order < x.order
        · simp [ho] at h1 h2
          refine ⟨?_, ?_, ?_⟩
          · rcases h1 with h1 | h1
            · subst h1; exact .inr ⟨by simp, hc'⟩
            · exact .inr ⟨List.mem_cons_of_mem _ h1.1, h1.2⟩
          · intro y hy; cases hy; omega
          · intro d hd hdo
            rcases List.mem_cons.mp hd with rfl | hd
            · exact h2
            · exact h3 d hd hdo
        · simp [ho] at h1 h2
          refine ⟨?_, ?_, ?_⟩
          · rcases h1 with h1 | h1
            · subst h1; exact .inl rfl
            · exact .inr ⟨List.mem_cons_of_mem _ h1.1, h1.2⟩
          · intro y hy; cases hy; exact h2
          · intro d hd hdo
            rcases List.mem_cons.mp hd with rfl | hd
            · omega
            · exact h3 d hd hdo

/-- The check that decides is a failing one, and none that fails has a lower order (R483). -/
theorem firstFail_spec (cs : List Check) (k : Check) (h : firstFail cs = some k) :
   k ∈ cs ∧ k.ok = false ∧ ∀ c ∈ cs, c.ok = false → k.order ≤ c.order := by
  have := firstFail_spec_fold cs none k h
  simp at this
  exact ⟨this.1.1, this.1.2, this.2⟩

/-- A command that starts at its submission takes its effect on the state that has it in hand. -/
theorem submit_of_starts (s : State) (h : Hdr) (b : Body) (feed : Feed) (hs : starts s h b = true) :
    s.submit h b feed = (inHand s h b).bodyStart (s.cmdQueue h.queue).view s.host.nextUid h h.part (s.pointOf h) feed b := by
  unfold starts at hs
  simp only [Bool.and_eq_true, Option.isNone_iff_eq_none] at hs
  obtain ⟨⟨⟨⟨ho, hf⟩, hv⟩, ht⟩, hb⟩ := hs
  have hf2 : firstFail ((s.allChecks h b []).filter (fun c => c.order ≤ 2)) = none := by
    rw [firstFail_none] at hf ⊢
    intro c hc
    exact hf c (List.mem_filter.mp hc).1
  have hsub : s.submit h b feed = s.accept h b feed := by
    unfold State.submit State.submitWith
    simp only [ho, if_true, hf2, hf, hv]
  rw [hsub]
  show (offered s h b).tryBegin (entryOf s h b) feed = _
  unfold State.tryBegin
  rw [if_pos hb]
  unfold State.begin
  dsimp only
  rw [show (offered s h b).turnedAway (entryOf s h b).part (opcodeOf (entryOf s h b).body) = none from
    (turnedAway_offered s h b h.part (opcodeOf b)).trans ht]
  rw [offered_cmdQueue]
  rfl

/-! ### The command in hand -/

/-- The entry of a command that runs. -/
def runningEntry (s : State) (h : Hdr) (b : Body) : OutCmd :=
  { entryOf s h b with phase := .running, slot := true, profile := ((offered s h b).part h.part).profile }

/-- Changing the last command leaves the others, whose numbers are lower. -/
theorem map_last (cs : List OutCmd) (c : OutCmd) (g : OutCmd → OutCmd) (hu : ∀ x ∈ cs, x.uid < c.uid) :
    (cs ++ [c]).map (fun x => if x.uid == c.uid then g x else x) = cs ++ [g c] := by
  rw [List.map_append]
  congr 1
  · rw [List.map_congr_left (g := id)]
    · simp
    · intro x hx
      have := hu x hx
      simp [Nat.ne_of_lt this]
  · simp

/-- The host link while a command that starts at its submission runs. -/
theorem inHand_host (s : State) (h : Hdr) (b : Body) (hu : UidInv s) :
    (inHand s h b).host = { s.host with cmds := s.host.cmds ++ [runningEntry s h b], nextUid := s.host.nextUid + 1 } := by
  unfold inHand State.modCmd State.modHost
  simp only [offered_host]
  congr 1
  exact map_last s.host.cmds (entryOf s h b) _ hu

/-- A state whose host link is `hl` with a running command completes it. -/
theorem completed_finish (s X : State) (hl : HostLink) (h : Hdr) (b : Body) (st r0 r1 r2 r3 : Nat) (r : List Nat)
    (hc : hl.cmds = s.host.cmds) (hn : hl.nextUid = s.host.nextUid) (hu : UidInv s)
    (hX : X.host = { hl with cmds := hl.cmds ++ [runningEntry s h b], nextUid := hl.nextUid + 1 })
    (hr : [r.getD 0 0, r.getD 1 0, r.getD 2 0, r.getD 3 0] = [r0, r1, r2, r3]) :
    Completed hl (X.finish s.host.nextUid st r) h b st [r0, r1, r2, r3] := by
  refine ⟨(runningEntry s h b).finish st r, ?_, hn.symm, rfl, rfl, rfl, ?_, rfl, ?_⟩
  · unfold State.finish State.modCmd State.modHost
    simp only [hX]
    congr 1
    exact map_last hl.cmds (runningEntry s h b) _ (by rw [hc]; exact hu)
  · show (if st = stDone && false then stReplayed else st) = st
    simp
  · intro hd
    rw [← hr]
    have : (runningEntry s h b).chosen = none := by
      unfold OutCmd.chosen
      rw [show (runningEntry s h b).hdr = h from rfl, hd]; rfl
    unfold OutCmd.finish
    rw [if_neg (by show ¬ (decide (CmdPhase.running = CmdPhase.done) || false && st != stAbShutter) = true; simp)]
    simp [this]

/-- Completing a command changes nothing but the host link. -/
theorem finish_frame (s : State) (uid st : Nat) (r : List Nat) : s.finish uid st r = { s with host := (s.finish uid st r).host } := rfl

/-- Taking a command in hand changes nothing but the host link, but for what it announces. -/
theorem inHand_frame (s : State) (h : Hdr) (b : Body) (hp : (s.pointOf h).isSome = false) :
    inHand s h b = { s with host := (inHand s h b).host } := by
  unfold inHand offered
  simp only [hp]
  rfl

/-- Every check of a command that starts holds. -/
theorem starts_checks {s : State} {h : Hdr} {b : Body} (hs : starts s h b = true) : ∀ c ∈ s.allChecks h b [], c.ok = true := by
  unfold starts at hs
  simp only [Bool.and_eq_true, Option.isNone_iff_eq_none] at hs
  exact (firstFail_none _).mp hs.1.1.1.2

/-- The parameter checks of a command that starts hold. -/
theorem starts_bodyChecks {s : State} {h : Hdr} {b : Body} (hs : starts s h b = true) :
    ∀ c ∈ s.bodyChecks (s.cmdQueue h.queue).view h h.part b, c.ok = true := by
  intro c hc
  exact starts_checks hs c (by unfold State.allChecks; exact List.mem_append_right _ hc)

/-- A command that is not marked S carries no point (R483). -/
theorem starts_no_point {s : State} {h : Hdr} {b : Body} (hs : starts s h b = true) (ho : opSched (opcodeOf b) = false) :
    s.pointOf h = none ∧ h.dl = false := by
  have hc := starts_checks hs { order := 5, ok := !(h.sched || h.dl) || opSched (opcodeOf b), status := stValue, off := 2 }
    (by unfold State.allChecks State.headerChecks; simp)
  simp only [ho, Bool.or_false, Bool.not_eq_true', Bool.or_eq_false_iff] at hc
  unfold State.pointOf
  simp [hc.1, hc.2]

/-- A command that is not marked S: the state it runs in differs from the one before in the host link alone. -/
theorem inHand_plain {s : State} {h : Hdr} {b : Body} (hs : starts s h b = true) (ho : opSched (opcodeOf b) = false) (hu : UidInv s) :
    inHand s h b = { s with host :=
      { s.host with cmds := s.host.cmds ++ [runningEntry s h b], nextUid := s.host.nextUid + 1 } } := by
  rw [inHand_frame s h b (by rw [(starts_no_point hs ho).1]; rfl), inHand_host s h b hu]

/-- A command that announces nothing: the state it runs in differs from the one before in the host link alone. -/
theorem inHand_quiet (s : State) (h : Hdr) (b : Body) (hq : ∀ p, s.announce h.part b p = s) (hu : UidInv s) :
    inHand s h b = { s with host :=
      { s.host with cmds := s.host.cmds ++ [runningEntry s h b], nextUid := s.host.nextUid + 1 } } := by
  have hf : inHand s h b = { s with host := (inHand s h b).host } := by
    unfold inHand offered
    simp only [hq, ite_self]
    rfl
  rw [hf, inHand_host s h b hu]

/-- The completion of a command whose effect left the commands in hand alone. -/
theorem completed_of (s X t : State) (h : Hdr) (b : Body) (st r0 r1 r2 r3 : Nat) (r : List Nat) (hu : UidInv s)
    (ht : t = X.finish s.host.nextUid st r)
    (hX : X.host = { s.host with cmds := s.host.cmds ++ [runningEntry s h b], nextUid := s.host.nextUid + 1 })
    (hr : [r.getD 0 0, r.getD 1 0, r.getD 2 0, r.getD 3 0] = [r0, r1, r2, r3]) :
    Completed s.host t h b st [r0, r1, r2, r3] := by
  subst ht
  exact completed_finish s X s.host h b st r0 r1 r2 r3 r rfl rfl hu hX hr

end Sys2Proof.Laws
end

