-- ==== Sys2Proof/Laws/Ops.lean ====
section
/-! SUPPORT. Laws/Ops.lean: what each shared operation can do, said once. -/

namespace Sys2Proof.Laws

open Sys2Proof.Machine

/-! ### Repetition -/

/-- A property that each turn keeps holds at the end. -/
theorem forAll_keeps {α : Type} (P : State → Prop) (xs : List α) (g : State → α → State) (hg : ∀ s, ∀ x ∈ xs, P s → P (g s x)) (s : State)
    (hs : P s) : P (s.forAll xs g) := by
  unfold State.forAll
  induction xs generalizing s with
  | nil => exact hs
  | cons x xs ih =>
    exact ih (fun s y hy => hg s y (List.mem_cons_of_mem _ hy)) _ (hg s x (List.mem_cons_self ..) hs)

/-- A field that no turn changes is the same at the end. -/
theorem forAll_same {α β : Type} (q : State → β) (xs : List α) (g : State → α → State) (hg : ∀ s x, q (g s x) = q s) (s : State) :
    q (s.forAll xs g) = q s := by
  unfold State.forAll
  induction xs generalizing s with
  | nil => rfl
  | cons x xs ih => rw [List.foldl_cons, ih, hg]

/-! ### Events (R488, R516) -/

/-- An event changes event rings, the host's memory, what is sent and what the link holds. -/
def OnlyEvents (s t : State) : Prop :=
  t = { s with host := { s.host with erings := t.host.erings, held := t.host.held }, hostMem := t.hostMem, outbox := t.outbox } ∧
    (Memory.wf s.hostMem = true → Memory.wf t.hostMem = true)

theorem OnlyEvents.refl (s : State) : OnlyEvents s s := ⟨rfl, id⟩

theorem OnlyEvents.trans {s t u : State} (h : OnlyEvents s t) (k : OnlyEvents t u) : OnlyEvents s u := by
  obtain ⟨h1, h2⟩ := h
  obtain ⟨k1, k2⟩ := k
  refine ⟨?_, fun x => k2 (h2 x)⟩
  rw [k1, h1]

/-- What a posting can do: over a link that is UP it goes out at once, and any other link holds it. -/
theorem post_cases (s : State) (x : Posting) :
    (s.host.state = 2 ∧ s.post x = s.handOver x) ∨ (s.host.state ≠ 2 ∧ s.post x = s.modHost (fun h => { h with held := h.held ++ [x] })) := by
  by_cases h : s.host.state = 2
  · exact Or.inl ⟨h, if_pos h⟩
  · exact Or.inr ⟨h, if_neg h⟩

theorem onlyEvents_handOver (s : State) (x : Posting) : OnlyEvents s (s.handOver x) := by
  refine ⟨rfl, fun h => ?_⟩
  show Memory.wf (match x.data with | some d => memWriteBytes s.hostMem d.1 d.2 | none => s.hostMem) = true
  cases x.data with
  | none => exact h
  | some d => exact wf_memWriteBytes _ _ _ h

/-- A posting changes the host's memory, what is sent and what the link holds. -/
theorem onlyEvents_post (s : State) (x : Posting) : OnlyEvents s (s.post x) := by
  rcases post_cases s x with ⟨_, h⟩ | ⟨_, h⟩ <;> rw [h]
  · exact onlyEvents_handOver s x
  · exact ⟨rfl, id⟩

theorem onlyEvents_modEring (s : State) (e : Nat) (g : ERing → ERing) : OnlyEvents s (s.modEring e g) := ⟨rfl, id⟩

theorem onlyEvents_emit (s : State) (m : OutMsg) : OnlyEvents s (s.emit m) := ⟨rfl, id⟩

theorem onlyEvents_eventWrite (s : State) (e cls code part unit : Nat) (payload : List Byte) :
    OnlyEvents s (s.eventWrite e cls code part unit payload) := by
  unfold State.eventWrite
  dsimp only
  split
  · exact ((onlyEvents_post s _).trans (onlyEvents_modEring _ _ _)).trans (onlyEvents_post _ _)
  · exact (onlyEvents_post s _).trans (onlyEvents_modEring _ _ _)

theorem onlyEvents_ringEvent (s : State) (e cls code part unit : Nat) (payload : List Byte) :
    OnlyEvents s (s.ringEvent e cls code part unit payload) := by
  unfold State.ringEvent
  dsimp only
  split
  · exact OnlyEvents.refl s
  · split
    · exact ⟨rfl, id⟩
    · exact onlyEvents_eventWrite s e cls code part unit payload

/-- What an event can do. -/
theorem onlyEvents_event (s : State) (cls code part unit : Nat) (payload : List Byte) : OnlyEvents s (s.event cls code part unit payload) := by
  unfold State.event
  dsimp only
  split
  · exact (onlyEvents_ringEvent s 16 cls code part unit payload).trans (onlyEvents_ringEvent _ part cls code part unit payload)
  · exact onlyEvents_ringEvent s 16 cls code part unit payload

theorem onlyEvents_forAll {α : Type} (xs : List α) (g : State → α → State) (hg : ∀ s x, OnlyEvents s (g s x)) (s : State) :
    OnlyEvents s (s.forAll xs g) :=
  forAll_keeps (OnlyEvents s) xs g (fun t x _ h => h.trans (hg t x)) s (OnlyEvents.refl s)

theorem onlyEvents_numericEvents (s : State) (f : Nat) (old : Word) : OnlyEvents s (s.numericEvents f old) :=
  onlyEvents_forAll _ _ (fun t _ => onlyEvents_event t _ _ _ _ _) s

/-- An event keeps both memories in canonical form. -/
theorem OnlyEvents.memInv {s t : State} (h : OnlyEvents s t) (hs : MemInv s) : MemInv t := by
  refine ⟨?_, h.2 hs.2⟩
  rw [h.1]; exact hs.1

/-- An event leaves the commands in hand alone. -/
theorem OnlyEvents.uidInv {s t : State} (h : OnlyEvents s t) (hs : UidInv s) : UidInv t := by
  intro c hc
  rw [h.1] at hc ⊢
  exact hs c hc

/-! ### Commands in hand -/

/-- Completing a command changes the commands in hand alone. -/
theorem finish_only (s : State) (uid status : Nat) (r : List Nat) :
    s.finish uid status r = { s with host := { s.host with cmds := (s.finish uid status r).host.cmds } } := rfl

/-- A change that keeps a command's number keeps the invariant of numbers. -/
theorem uidInv_modCmd (s : State) (uid : Nat) (g : OutCmd → OutCmd) (hg : ∀ c, (g c).uid = c.uid) (hs : UidInv s) : UidInv (s.modCmd uid g) := by
  intro c hc
  simp only [modCmd_host, List.mem_map] at hc
  obtain ⟨d, hd, rfl⟩ := hc
  show (if (d.uid == uid) = true then g d else d).uid < s.host.nextUid
  split
  · rw [hg]; exact hs d hd
  · exact hs d hd

theorem uid_finish (c : OutCmd) (status : Nat) (r : List Nat) : (c.finish status r).uid = c.uid := by
  unfold OutCmd.finish; split <;> rfl

theorem uidInv_finish (s : State) (uid status : Nat) (r : List Nat) (hs : UidInv s) : UidInv (s.finish uid status r) :=
  uidInv_modCmd s uid _ (fun c => uid_finish c status r) hs

/-! ### Bytes of a stack (R223) -/

/-- Writing bytes changes memory alone. -/
theorem pokeBytes_only (s : State) (a : Nat) (bs : List Byte) : s.pokeBytes a bs = { s with mem := (s.pokeBytes a bs).mem } := by
  induction bs generalizing s a with
  | nil => rfl
  | cons b bs ih =>
    unfold State.pokeBytes
    rw [ih]
    by_cases h : s.lostAt a = true
    · simp [h]
    · simp [h]

theorem lostAt_mem (s : State) (m : Memory) (a : Nat) : ({ s with mem := m } : State).lostAt a = s.lostAt a := rfl

theorem wf_pokeBytes (s : State) (a : Nat) (bs : List Byte) (h : Memory.wf s.mem = true) : Memory.wf (s.pokeBytes a bs).mem = true := by
  induction bs generalizing s a with
  | nil => exact h
  | cons b bs ih =>
    unfold State.pokeBytes
    apply ih
    split
    · exact h
    · exact wf_memWrite _ _ _ h

/-- Bytes outside the written range read as before. -/
theorem memRead_pokeBytes_outside (s : State) (a : Nat) (bs : List Byte) (x : Nat) (h : x < a ∨ a + bs.length ≤ x) :
    memRead (s.pokeBytes a bs).mem x = memRead s.mem x := by
  induction bs generalizing s a with
  | nil => rfl
  | cons b bs ih =>
    rw [List.length_cons] at h
    unfold State.pokeBytes
    rw [ih _ _ (by omega)]
    split
    · rfl
    · exact memRead_memWrite_ne _ _ _ _ (by omega)

/-- A byte of the written range that lies on no lost channel reads as written. -/
theorem memRead_pokeBytes (s : State) (a : Nat) (bs : List Byte) (i : Nat) (hw : Memory.wf s.mem = true) (hi : i < bs.length)
    (hl : s.lostAt (a + i) = false) : memRead (s.pokeBytes a bs).mem (a + i) = bs.getD i 0 := by
  induction bs generalizing s a i with
  | nil => simp at hi
  | cons b bs ih =>
    unfold State.pokeBytes
    cases i with
    | zero =>
      rw [Nat.add_zero] at hl ⊢
      rw [memRead_pokeBytes_outside _ _ _ _ (by omega), hl]
      simp [memRead_memWrite_eq _ _ _ hw]
    | succ i =>
      rw [show a + (i + 1) = a + 1 + i by omega] at hl ⊢
      split
      · exact ih s (a + 1) i hw (by simpa using hi) hl
      · exact ih _ (a + 1) i (wf_memWrite _ _ _ hw) (by simpa using hi) hl

/-! ### Parameter groups -/

/-- Changing a group changes that group alone. -/
theorem groupStep_modGroup (s : State) (f gid : Nat) (g : Group) (h : Group → Group) (hg : s.group f gid = some g) :
    GroupStep s (s.modGroup f gid h) f gid (h g) := by
  unfold State.modGroup
  rw [hg]
  refine ⟨?_, ?_, ?_⟩
  · simp [State.group, smapFind_smapSet]
  · intro f' k hk
    by_cases hf : f' = f
    · subst hf
      have : k ≠ gid := fun e => hk (by rw [e])
      simp [State.group, smapFind_smapSet, this]
    · simp [State.group, hf]
  · intro f'
    by_cases hf : f' = f
    · subst hf; simp
    · simp [hf]

theorem modGroup_only (s : State) (f gid : Nat) (h : Group → Group) : s.modGroup f gid h = { s with fields := (s.modGroup f gid h).fields } := by
  unfold State.modGroup
  split <;> rfl

end Sys2Proof.Laws
end

