-- ==== Sys2Proof/Tests/Slice0.lean ====
section
/-! SUPPORT. Tests/Slice0.lean: an ill-formed term for each check, values of the spec's own examples, and for each statement states and operands
that meet its hypotheses. -/

namespace Sys2Proof.Tests

open Sys2Proof.Machine

set_option Elab.async false

/-! ### Small states -/

/-- A field whose 32 channels are good. -/
def fld0 : Field := { stack := { good := List.range 32 } }

/-- A module in RUN: queue 0 is the operator's, queue 1 partition 0's, and completion ring 0 is enabled. -/
def up : State := { State.reset with
  power := { phase := 8, state := 1 },
  fields := (List.range 64).map (fun f => (f, fld0)),
  host := { ({} : HostLink) with
    state := 2, queues := [(0, { view := 16, log := 10, enabled := true }), (1, { view := 0, log := 10, enabled := true, cq := 0 })],
    crings := [(0, { base := 0x10000, log := 8, vec := 1, enabled := true })] } }

/-- A plain header. -/
def hd (q : Fin 64) (p : Nat) : Hdr :=
  { queue := q, part := p, seq := 7, sched := false, dl := false, eval := false, irq := true, fence := false, step := 0, mark := 0, deadline := 0 }

/-- The training partition 0 holds fields 0 and 1. -/
def part0 : Partition := { w := 2, h := 1, state := 1, train := true, fports := 1, lports := 1 }

/-- A module placed as id 0 of an island of one, with its training partition. -/
def placed : State := { up with
  parts := [(0, part0)],
  place := { moduleId := 0, islandId := 3, placed := true, size := 1 },
  blob := { dimX := 1, dimY := 1, dimZ := 1, members := [{ id := 0, x := 0, y := 0, z := 0 }] } }

/-- Whether an outcome is a next state. -/
def goes {φ ρ : Type} (o : Host.Outcome State φ ρ) : Bool := (nextOf o).isSome

/-- What a witness of a command that starts shows: the numbers are in order and the command starts. -/
def ok (s : State) (h : Hdr) (b : Body) : Bool := decide (UidInv s) && starts s h b

/-- A command of `op` in hand as number 0, running. -/
def running (b : Body) : OutCmd := { uid := 0, hdr := hd 0 16, body := b, part := 16, phase := .running }

/-- A module state with one more command in hand. -/
def withCmd (s : State) (c : OutCmd) : State := { s with host := { s.host with cmds := s.host.cmds ++ [c], nextUid := c.uid + 1 } }

/-- The smallest legal configuration blob (R544): module 0 of island 3, one member at the origin of a 1 x 1 x 1 map. -/
def blob0 : List Byte :=
  [0x44, 0x58, 0x42, 0x31, 1, 0, 0, 0, 3] ++ List.replicate 7 0 ++ [1] ++ List.replicate 303 0 ++ [1, 1, 1] ++ List.replicate 61 0

/-- The module in CONFIG_WAIT. -/
def up4 : State := { up with power := { up.power with phase := 4, state := 0 } }

/-- The module in PARK. -/
def upPark : State := { up with power := { up.power with state := 2 } }

/-- A POWER command to RETAIN is running. -/
def upReq : State := { withCmd up (running (.power 2)) with power := { up.power with req := some (3, 0) } }

/-- An activation entry of fields 0 and 1. -/
def act0 : ActP :=
  { aid := 5, policy := 0, bytes := 128, fmask := 3, sbase := 0, lbase := 0, hbase := 0, hstride := 0, dfr := 0, outMark := 0, inMark := 0,
    tmask := 0, osem := 0, isem := 0 }

/-- The entry of `act0` is registered. -/
def withAct : State := { placed with acts := [(5, { p := act0 })] }

/-- Window 15 is open. -/
def withHeir : State := { placed with heirs := [(15, { srcmod := 0, base := 0, bytes := 64 })] }

/-- An island of two modules with every context taken. -/
def two : State := { placed with blob := { placed.blob with dimX := 2, members := [{ id := 0, x := 0, y := 0, z := 0 }, { id := 1, x := 1, y := 0, z := 0 }] } }
def fullCtx : State := { two with fab := { two.fab with groups := (List.range 512).map (fun i => (i, { members := [], part := 0 })) } }

/-- Queue 0 of tile 0, and its plain header word. -/
def iss : Issuer := ⟨0, 0⟩
def dh : DHdr := { sigEn := true, sigSem := 3, htag := 9 }
def entry (k : DKind) : QEntry := { uid := 0, cmd := 0, eval := false, desc := { hdr := dh, kind := k } }

/-- Queue 0 of tile 0 has started one descriptor; its side memory and its block A hold something. -/
def started (k : DKind) : State := { placed with
  tiles := [(0, { queues := [(0, { started := [entry k], nextSeq := 1 })], side := [(5, { tag := .smx })],
                  arrA := { stat := { tag := some ⟨0, false, none⟩ } }, sems := [(2, 4)] })] }

/-- What a witness of a unit row shows. -/
def ready (k : DKind) : Bool := unitReady (started k) iss k dh

def side0 : PassSide := { s0 := 0, q0 := 0, acc := false, amode := 0, msc := false, ssc := false, mfmt := 0, sfmt := 0, mbase := 0, mstride := 0, msbase := 0 }
def pass1 : PassD := { arrays := 1, orient := true, m := 2, kblk := 0, a := { side0 with mstride := 512 }, b := side0 }
def rows1 : RowsD := { array := false, orient := true, s0 := 7, q0 := 126, nrows := 2, clear := true }
def drain1 : DrainD :=
  { src := rows1, rnd := false, ovf := false, smx := false, merge := false, hist := false, slope := false, oscale := false, msel := false,
    ofmt := 0, act := 0, hslot := 0, alpha := 0, obase := 0, ostride := 512, slbase := 0, slstride := 0, stbase := 0, scbase := 0 }
def row1 (op : Nat) (first : Bool) : RowD :=
  { first := first, rms := op == 3, rebuild := false, rtag := 0, q0 := 5, r := 1, n := 128, b0 := 0, b := 1, ifmt := 0, i2fmt := 0, ofmt := 0, eps := 0,
    ibase := 0, istride := if rowInputs op then 512 else 0, i2base := if rowSecond op then 512 else 0, i2stride := if rowSecond op then 512 else 0,
    obase := if rowWrites op then 1024 else 0, ostride := if rowWrites op then 512 else 0, xbase := 0 }
def lane1 (op act : Nat) : LaneD :=
  { act := act, rnd := false, ovf := false, slope := false, xb := false, yb := false, zb := false, v := 1, xfmt := 0, yfmt := 0, zfmt := 0, ofmt := 0,
    xbase := 0, xstride := 512, ybase := if laneUsesY op act then 512 else 0, ystride := if laneUsesY op act then 512 else 0,
    zbase := if laneUsesZ op then 1024 else 0, zstride := if laneUsesZ op then 512 else 0, obase := 2048, ostride := 512, slbase := 0, slstride := 0, alpha := 0x3F800000 }
def put1 (w : Bool) : PutD := { src := { rows1 with nrows := 1, q0 := 127 }, msel := w, cidx := 1, dbase := 0, dstride := 512 }

/-- Partition 1, a computation partition over field 2, beside the training partition. -/
def part1 : Partition := { fx0 := 2, w := 1, h := 1, state := 1 }
def withP1 : State := { placed with parts := [(0, part0), (1, part1)] }

/-- The training partition is replaying. -/
def replaying : State := { placed with bcn := { placed.bcn with recovering := true } }

/-- A parameter group of field 0: 128 parameters, SGD, one member, working copies in tile 0's store. -/
def rule0 : RuleP :=
  { rcode := 0, nesterov := 0, biascorr := 0, clip := 0, lrslot := 0, gslot := 1, lr := 0x3F800000, b1 := 0, b2 := 0, eps := 0, wd := 0, maxnorm := 0,
    rows := 0, cols := 0, nsiter := 0, nsa := 0, nsb := 0, nsc := 0, oscale := 0, refresh := 0, riter := 0, bmark := 0, scratch := 0 }
def grp0 : GroupP :=
  { field := 0, gid := 7, nelem := 128, cons := 0, rule := rule0, r := 1, m1fmt := 3, m2fmt := 0, gxfmt := 3, wcfmt := 0, htag := 1, bank := 0, pbase := 0,
    gbase := 0, tmask := 1, telems := 128, slot0 := 0, slot1 := 4096, xmark := 28,
    tier := { home := 0, haddr := 0, rbase := 0, pkbase := 0, late := 0, smarkEn := 0, smark := 0 }, members := [(0, 0)] }
/-- Field `f` holds a group. -/
def withG (s : State) (g : Group) : State := s.modFld g.p.field (fun d => { d with groups := [(g.p.gid, g)] })
/-- A federation of this island and island 4. -/
def fed1 : FedP :=
  { members := [⟨3, 255, 0⟩, ⟨4, 0, 0⟩], h := 8, s := 1, w1 := 0x3F000000, w2 := 0x3F000000, w3 := 0x3F000000, w4 := 0x3F000000, div := 2, policy := 0, nhold := 0, rejoin := 16, join := 0 }
def gws8 : List (Nat × Nat) := [(0, 0), (0, 0), (0, 0), (0, 0), (0, 0), (0, 0), (0, 0), (0, 0)]
def routed : State := { placed with outer := { placed.outer with routes := [⟨4, 1, gws8⟩] } }
/-- A registered group in a module of that federation. -/
def inFed (g : Group) : State := withG { routed with outer := { routed.outer with fed := some fed1 } } g
def op0 : OuterP := { field := 0, gid := 7, dfmt := 3, olr := 0x3F800000, omom := 0, opbase := 0x100000 }
/-- This module is not the keeper; an event log with one entry. -/
def notK : State := { placed with bcn := { placed.bcn with keeperId := 1 } }
def logged : State := { up with sec := { up.sec with count := 1, entries := [[1]] } }

/-- The island of two modules with module `k` its keeper; both modules' ports to each other are UP. -/
def twoK (k : Nat) : State := { two with
  place := { two.place with size := 2 }, fab := { two.fab with ports := [(0, { state := 2, peerModule := 1 })] },
  bcn := { two.bcn with keeperId := k, step := 5, attempt := 1, table := [(1, { phase := 7, dfn := true, island := true })] } }

/-- Field 0 is beyond repair: no tile serves its ids. -/
def gone0 : State := { placed with fields := smapSet placed.fields 0 { fld0 with gone := true } }
/-- The keeper of an external step line that has reached its advance. -/
def atAdvance (ext : Bool) : State := { placed with place := { placed.place with size := 1 }, bcn := { placed.bcn with advance := some 5, ext := ext } }

/-- No ring of a map without wrapping dimensions is shut both ways. -/
theorem joined_plain (s : State) (hw : ∀ d, s.blob.wraps d = false) : joined s := by
  intro m h t lk vl _ _
  simp only [hopOf]
  split
  · rename_i d _
    simp only [hopIn, hw, Bool.not_false, if_true]
    generalize (if h.coord d < t.coord d then 2 * d else 2 * d + 1) = p
    split <;> simp
  · simp

/-- The module of an island of one, or of two in a row, is joined. -/
theorem joined_unwrapped (s : State) (hw : s.blob.wrap = 0) : joined s := joined_plain s (fun d => by simp [Blob.wraps, hw])

/-! ### WellFormed: one ill-formed term for each check -/

/-- A fabric frame, a transfer, a HELLO and a lantern frame whose fields fit. -/
def wFrame : FabFrame :=
  { lseq := 4095, vl := 3, typ := 2, ack := 4095, nak := true, credit := 4095, cvl := 3, dest := 1023, dirlock := 7, src := 1023,
    flow := 16383, epoch := 65535, kind := 63, fseq := 2 ^ 32 - 1, arg := 2 ^ 64 - 1, payload := List.replicate 512 0 }
def wFlare : FlareFrame := { op := 255, key := 255, index := 65535, step := 2 ^ 48 - 1, attempt := 255, payload := [] }
def wXfer : Xfer :=
  { typ := 15, srcIsland := 15, dstIsland := 15, fmt := 65535, round := 2 ^ 32 - 1, base := 0, item := 0, srcModule := 1023, attempt := 65535,
    payload := [] }
def wHello : HelloF :=
  { island := 15, module := 1023, port := 3, fedTag := 2 ^ 32 - 1, nonce := List.replicate 32 0, rand := 65535, flows := 8 }
def wLnt : LntData := { session := 2 ^ 32 - 1, flow := 63, man := true, pseq := 0, payload := [] }
def wUnit : Issuer := { tile := 0, queue := 0 }
def wMark : DHdr := { sigEn := true, sigSem := 15, htag := 255 }

theorem test_wf_accepts : (hd 0 16).wf = true ∧ wFrame.wf = true ∧ wFlare.wf = true ∧ wXfer.wf = true ∧ wHello.wf = true ∧ wLnt.wf = true
    ∧ wMark.wf = true ∧ (Instr.frameForward 0 wFrame).wf = true ∧ (Instr.mark wUnit wMark 0).wf = true := by decide +kernel

theorem test_wf_refuses_header : (Instr.nop { hd 0 16 with part := 32 }).wf = false ∧ (Instr.nop { hd 0 16 with seq := 2 ^ 32 }).wf = false
    ∧ (Instr.nop { hd 0 16 with step := 2 ^ 48 }).wf = false ∧ (Instr.nop { hd 0 16 with mark := 32 }).wf = false
    ∧ (Instr.nop { hd 0 16 with deadline := 2 ^ 64 }).wf = false
    ∧ (Instr.routeTable (hd 0 16) [{ island := 1, ngw := 1, gws := [(0, 0)] }]).wf = false
    ∧ (Instr.packetFetch 0 (List.replicate 63 0) {}).wf = false := by decide +kernel

theorem test_wf_refuses_w0 : (Instr.mark wUnit { wMark with sigSem := 16 } 0).wf = false
    ∧ (Instr.fence wUnit { wMark with htag := 256 } 0).wf = false := by decide +kernel

theorem test_wf_refuses_frame : ({ wFrame with lseq := 4096 } : FabFrame).wf = false ∧ ({ wFrame with vl := 4 } : FabFrame).wf = false
    ∧ ({ wFrame with typ := 4 } : FabFrame).wf = false ∧ ({ wFrame with ack := 4096 } : FabFrame).wf = false
    ∧ ({ wFrame with credit := 4096 } : FabFrame).wf = false ∧ ({ wFrame with cvl := 4 } : FabFrame).wf = false
    ∧ ({ wFrame with dest := 1024 } : FabFrame).wf = false ∧ ({ wFrame with dirlock := 8 } : FabFrame).wf = false
    ∧ ({ wFrame with src := 1024 } : FabFrame).wf = false ∧ ({ wFrame with flow := 16384 } : FabFrame).wf = false
    ∧ ({ wFrame with epoch := 65536 } : FabFrame).wf = false ∧ ({ wFrame with kind := 64 } : FabFrame).wf = false
    ∧ ({ wFrame with fseq := 2 ^ 32 } : FabFrame).wf = false ∧ ({ wFrame with arg := 2 ^ 64 } : FabFrame).wf = false
    ∧ (Instr.bulkWritePacket 0 { wFrame with payload := List.replicate 513 0 }).wf = false := by decide +kernel

theorem test_wf_refuses_flare : ({ wFlare with op := 256 } : FlareFrame).wf = false ∧ ({ wFlare with key := 256 } : FlareFrame).wf = false
    ∧ ({ wFlare with index := 65536 } : FlareFrame).wf = false ∧ ({ wFlare with step := 2 ^ 48 } : FlareFrame).wf = false
    ∧ ({ wFlare with attempt := 256 } : FlareFrame).wf = false
    ∧ ({ wFlare with payload := List.replicate 72 0 } : FlareFrame).wf = false
    ∧ (Instr.flareFrameRx 0 { wFrame with payload := List.replicate 513 0 }).wf = false := by decide +kernel

theorem test_wf_refuses_lantern : ({ wLnt with session := 2 ^ 32 } : LntData).wf = false ∧ ({ wLnt with flow := 64 } : LntData).wf = false
    ∧ ({ wLnt with pseq := 2 ^ 32 } : LntData).wf = false ∧ (Instr.lanternData 0 { wLnt with payload := List.replicate 16384 0 }).wf = false
    ∧ ({ wHello with island := 16 } : HelloF).wf = false ∧ ({ wHello with module := 1024 } : HelloF).wf = false
    ∧ ({ wHello with port := 4 } : HelloF).wf = false ∧ ({ wHello with fedTag := 2 ^ 32 } : HelloF).wf = false
    ∧ ({ wHello with nonce := [] } : HelloF).wf = false ∧ (Instr.hello 0 { wHello with rand := 65536 }).wf = false
    ∧ (Instr.manifestReject 0 0 64 none).wf = false ∧ (Instr.manifestReject 0 (2 ^ 32) 0 none).wf = false
    ∧ (Instr.lanternAck 0 0 0 0 (2 ^ 64)).wf = false ∧ (Instr.lanternAck 0 0 0 (2 ^ 32) 0).wf = false
    ∧ (Instr.lanternAck 0 0 64 0 0).wf = false ∧ (Instr.lanternAck 0 (2 ^ 32) 0 0 0).wf = false
    ∧ (Instr.close 0 (2 ^ 32)).wf = false := by decide +kernel

theorem test_wf_refuses_transfer : ({ wXfer with typ := 16 } : Xfer).wf = false ∧ ({ wXfer with srcIsland := 16 } : Xfer).wf = false
    ∧ ({ wXfer with dstIsland := 16 } : Xfer).wf = false ∧ ({ wXfer with fmt := 65536 } : Xfer).wf = false
    ∧ ({ wXfer with round := 2 ^ 32 } : Xfer).wf = false ∧ ({ wXfer with base := 2 ^ 32 } : Xfer).wf = false
    ∧ ({ wXfer with item := 2 ^ 32 } : Xfer).wf = false ∧ ({ wXfer with srcModule := 1024 } : Xfer).wf = false
    ∧ (Instr.fetchReqRx { wXfer with attempt := 65536 }).wf = false ∧ (Instr.losttouch 0 (some { wXfer with typ := 16 })).wf = false := by
  decide +kernel

theorem test_wf_refuses_beacon : (Instr.readyContribute (2 ^ 48)).wf = false ∧ (Instr.stepBeginDelivery (2 ^ 48) 0).wf = false
    ∧ (Instr.stepBeginDelivery 0 (2 ^ 64)).wf = false ∧ (Instr.markDelivery (2 ^ 48) 0).wf = false
    ∧ (Instr.commitDelivery (2 ^ 48) 0).wf = false ∧ (Instr.commitDelivery 0 (2 ^ 64)).wf = false
    ∧ (Instr.evalSlotDelivery (2 ^ 48)).wf = false ∧ (Instr.normResult (2 ^ 48) 0).wf = false
    ∧ (Instr.scalarDelivery 0 0 (2 ^ 48)).wf = false ∧ (Instr.abortFloodRx 0 (2 ^ 48) 0).wf = false
    ∧ (Instr.abortFloodRx 0 0 256).wf = false ∧ (Instr.fenceFloodRx 0 1024 0).wf = false ∧ (Instr.fenceFloodRx 0 0 8).wf = false
    ∧ (Instr.siteMessage (2 ^ 64)).wf = false := by decide +kernel

/-! ### The spec's own examples; each value is the spec's -/

/-- R561 and the table after it: the check value of "123456789" in five configurations (chapter Check-value unit). -/
def chkOf (u : ChkUnit) : Nat := (([0x31, 0x32, 0x33, 0x34, 0x35, 0x36, 0x37, 0x38, 0x39] : List Byte).foldl ChkUnit.feed u).result
theorem test_check_values : chkOf {} = 0xCBF43926 ∧ chkOf { poly := 0x1EDC6F41 } = 0xE3069283
    ∧ chkOf { width := 64, poly := 0x42F0E1EBA9EA3693, init := 2 ^ 64 - 1, xorout := 2 ^ 64 - 1, reg := 2 ^ 64 - 1 } = 0x995DC9BBDF1939FA
    ∧ chkOf { width := 16, poly := 0x1021, init := 0xFFFF, refin := false, refout := false, xorout := 0, reg := 0xFFFF } = 0x29B1
    ∧ chkOf { width := 8, poly := 7, init := 0, refin := false, refout := false, xorout := 0, reg := 0 } = 0xF4
    ∧ chkOf { width := 5, poly := 5, init := 0x1F, xorout := 0x1F, reg := 0x1F } = 0x19 := by decide +kernel

/-- The PASS example of R193. -/
def passWords (w1 w2 : Nat) : List Nat := [0x00110055, w1, w2, 0x00100000, 0x80] ++ List.replicate 11 0
def passRead (w1 w2 : Nat) : Option (Nat × Bool × Nat × Nat) :=
  match readDescriptor (passWords w1 w2) with
  | some ⟨⟨true, 2, 17⟩, .pass d⟩ =>
    if d.a.mbase = 0x100000 ∧ d.a.mstride = 128 ∧ d.a.mfmt = 4 ∧ d.a.sfmt = 4 then some (d.m, d.a.acc, d.kblk, d.arrays) else none
  | _ => none
theorem test_pass_words : passRead 0x00004001 0x04040000 = some (1024, false, 0, 1)
    ∧ passRead 0x00014001 0x04040400 = some (1024, true, 1, 1) := by decide +kernel

/-- The NOP packet and its completion entry of chapter Reilo link and Cylux command protocol (R481, R486). -/
def nopHdr : Hdr :=
  { queue := 0, part := 16, seq := 7004, sched := true, dl := false, eval := false, irq := true, fence := false, step := 8812, mark := 30,
    deadline := 0 }
theorem test_nop_packet : encodePacket nopHdr .nop = ([0, 0, 9, 0, 0, 0x10, 0, 0, 0x5C, 0x1B, 0, 0, 0, 0, 0, 0,
    0x6C, 0x22, 0, 0, 0, 0, 0x1E, 0] : List Byte) ++ List.replicate 40 0 := by decide +kernel
theorem test_nop_entry : ({ uid := 0, hdr := nopHdr, body := .nop, part := 16, sqhead := 131 } : OutCmd).entry true =
    ([0x5C, 0x1B, 0, 0, 0, 0, 0, 1, 0, 0, 0, 0, 0x83, 0, 0, 0] : List Byte) ++ List.replicate 16 0 := by decide +kernel

/-- The ALL_REDUCE parameters of R501. -/
def redP (n : Nat) : CollP :=
  { opr := 0, itype := 0, otype := 1, group := 12, root := 0, count := n, contrib := 1, src := 0x02A000000000, dst := 0x02A000400000 }
theorem test_all_reduce_packet : encodeBody (.collective 0 (redP 1048576)) =
    ([0, 0, 0, 1, 0x0C, 0, 0, 0, 0, 0, 0x10, 0, 0, 0, 0, 0, 1, 0, 0, 0, 0, 0, 0, 0, 0, 0, 0, 0, 0xA0, 2, 0, 0,
      0, 0, 0x40, 0, 0xA0, 2, 0, 0] : List Byte) ∧ fieldOff 0x0503 6 = 72 := by decide +kernel

/-- The worked conversions of chapter Number formats and arithmetic. -/
theorem test_convert_1_28125 : (convertElem 1 false none (f32Val 0x3FA40000)).1 = 0x3FA4
    ∧ (convertElem 4 false none (f32Val 0x3FA40000)).1 = 0x3A ∧ (convertElem 3 false none (f32Val 0x3FA40000)).1 = 0x3D
    ∧ (convertElem 4 false (some 0x1234) (f32Val 0x3FA40000)).1 = 0x3A
    ∧ (convertElem 4 false (some 0xC123) (f32Val 0x3FA40000)).1 = 0x3B := by decide +kernel
theorem test_convert_overflow : (convertElem 4 false none (.fin false 500 0)).1 = 0x7E ∧ (convertElem 4 true none (.fin false 500 0)).1 = 0x7F
    ∧ (convertElem 3 false none (.fin false 500 0)).1 = 0x60 ∧ (convertElem 3 true none (.fin false 500 0)).1 = 0x60
    ∧ (convertElem 3 false none (.fin false 60000 0)).1 = 0x7B ∧ (convertElem 3 true none (.fin false 60000 0)).1 = 0x7B
    ∧ (convertElem 3 false none (.fin false 62000 0)).1 = 0x7B ∧ (convertElem 3 true none (.fin false 62000 0)).1 = 0x7C
    ∧ (convertElem 4 false none (.inf true)).1 = 0xFE ∧ (convertElem 4 true none (.inf true)).1 = 0x7F := by decide +kernel
theorem test_convert_events : (convertElem 4 false none (.fin false 500 0)).2.sat = true
    ∧ (convertElem 4 true none (.fin false 500 0)).2.invalid = true ∧ (convertElem 3 true none (.fin false 62000 0)).2.inf = true := by
  decide +kernel

/-- The B4 block of the same chapter: 10.0, −3.1, 0.3, 0.9 as F32 numbers. -/
def b4Block : Nat × List (Nat × Ev) :=
  convertBlock false false (fun _ => none)
    ([f32Val 0x41200000, f32Val 0xC0466666, f32Val 0x3E99999A, f32Val 0x3F666666] ++ List.replicate 28 (Val.zero false))
theorem test_b4_block : b4Block.1 = 0x80 ∧ (b4Block.2.map Prod.fst).take 4 = [0x6, 0xB, 0x0, 0x1] := by decide +kernel

/-- The exact-tree example after R97: one product of 65,536 and 127 of 2^−8. -/
theorem test_exact_tree : roundF32 (treeResult false false ((0x78 :: List.replicate 127 0x18).map (elemVal 4 0))
    ((0x78 :: List.replicate 127 0x18).map (elemVal 4 0))).val = 0x47800040 := by decide +kernel

/-- The two steps of the exchange example after R249. -/
def exOne (r : F32) : ExBlock := exchangeBlock 4 (0x40400000 :: 0x3E99999A :: List.replicate 126 0) (0 :: r :: List.replicate 126 0)
theorem test_exchange : (exOne 0).scale = 0x78 ∧ (exOne 0).codes.getD 1 0 = 0x62 ∧ (exOne 0).res.getD 1 0 = 0xBC4D
    ∧ (exOne 0xBC4D0000).codes.getD 1 0 = 0x61 ∧ (exOne 0xBC4D0000).res.getD 1 0 = 0x3BCC := by decide +kernel

/-- The ADAMW element after R293. -/
def adamP : RuleP :=
  { rcode := 1, nesterov := 0, biascorr := 0, clip := 0, lrslot := 0, gslot := 1, lr := 0x3A800000, b1 := 0x3F600000, b2 := 0x3F7E0000,
    eps := 0x30800000, wd := 0x3C000000, maxnorm := 0, rows := 0, cols := 0, nsiter := 0, nsa := 0, nsb := 0, nsc := 0, oscale := 0,
    refresh := 0, riter := 0, bmark := 0, scratch := 0 }
def adamOut : UV × UV × UV := (ruleCtx adamP [oneF32, 0x3F000000] oneF32 0).elem (uv 0) 0x3F000000 0x3E800000 0x3D800000 0x3C800000
theorem test_adamw : adamOut.1.1 = 0x3EFFB780 ∧ adamOut.2.1.1 = 0x3D900000 ∧ adamOut.2.2.1 = 0x3C800000
    ∧ (convertElem 1 false none (f32Val 0x3EFFB780)).1 = 0x3F00
    ∧ (readMoment 4 0x3B80 0x58).1 = 0x3D800000 ∧ (readMoment 4 0x3B80 0x48).1 = 0x3C800000 := by decide +kernel
theorem test_moment : (storeMoments 4 (0x3D900000 :: List.replicate 127 0)).1 = 0x3925
    ∧ ((storeMoments 4 (0x3D900000 :: List.replicate 127 0)).2.1).getD 0 0 = 0x7E := by decide +kernel

/-- The clipping example after R301. -/
theorem test_clip : fSqrt 0x40C80000 = 0x40200000 ∧ clipFactor 0x40C80000 oneF32 = 0x3ECCCCCD ∧ fMul 0x3E800000 0x3ECCCCCD = 0x3DCCCCCD := by
  decide +kernel

/-- The activation and slope example after R131: GELU at 0.5 and SILU at −1.0, before the two-ulp freedom of the fixed functions. -/
theorem test_slope : (convertElem 1 false none (actExact 8 (Val.zero false) (f32Val 0x3F000000))).1 = 0x3EB1
    ∧ (convertElem 1 false none (actExact 10 (Val.zero false) (f32Val 0xBF800000))).1 = 0xBE8A
    ∧ (convertElem 4 false none (slopeExact 8 (f32Val 0x3F000000))).1 = 0x36
    ∧ (convertElem 4 false none (slopeExact 10 (f32Val 0xBF800000))).1 = 0x19 := by decide +kernel

/-- The steering example after R155: slot 12 widens. -/
theorem test_steering : ({ rung := 0 } : SteerSlot).decide { tHi := 16384, tLo := 256 } [6400000000, 5000000, 3100000, 0, 0] = 1 := by
  decide +kernel

/-- The addresses of the example after R21 and of chapter Registers. -/
theorem test_addresses : tileAddr 345 0x100000 = 0x080564100000 ∧ stackAddr 21 0 = 0x02A000000000 ∧ redAddr 21 0 = 0x0810A8000000
    ∧ tileOffset 345 0x4C = 0x95904C ∧ fieldOffset 21 0x130 = 0x550130 ∧ fieldOffset 21 0x4054 = 0x554054
    ∧ fieldOffset 21 0x8054 = 0x558054 ∧ fieldOffset 21 0x9070 = 0x559070 := by decide +kernel

/-- The stack mapping after R215, with all channels and with channel 7 mapped out. -/
def full : Stack := { good := List.range 32 }
def less : Stack := { good := (List.range 32).filter (fun c => c != 7) }
theorem test_stack_map : full.chan 0x101C40 = 7 ∧ full.chanOff 0x101C40 = 0x8040 ∧ less.chan 0x101C40 = 9 ∧ less.chanOff 0x101C40 = 0x8440
    ∧ full.place 7 0x8040 = 0x101C40 ∧ less.place 9 0x8440 = 0x101C40 := by decide +kernel

/-- The table of R237: each codeword of ADDR holds its own offset; WALK1 sets line t mod 1,024 of transfer t. -/
def tgEx (k : Nat) : TgP :=
  { field := 0, chmask := 1, pattern := k, seed := 1, base := 0, len := 512, rdmix := 15, rate := 1, bursts := 17, cont := 0, stopOnErr := 0 }
theorem test_patterns : ((tgBurst (tgEx 2) 256).drop 8).take 8 = ([8, 1, 0, 0, 0, 0, 0, 0] : List Byte)
    ∧ (tgBurst (tgEx 1) 1024).take 2 = ([0, 1] : List Byte) ∧ ((tgBurst (tgEx 1) 1024).drop 128).take 2 = ([0, 2] : List Byte)
    ∧ (State.tgWalk up 0 0 { tgEx 2 with stopOnErr := 1 } 17).first = some (8, 67) ∧ (State.tgWalk up 0 0 (tgEx 2) 16).errs = 15 * 32 - 8
    ∧ (State.tgWalk up 0 0 { tgEx 2 with rdmix := 0 } 2).mem.length = 94 := by decide +kernel

/-- The example after R378: the third shifted sample changes the path. -/
def line0 : LntPort := { sampled := true, base := 14020000, var := 20000, rto := rtoOf 14020000 20000 }
def line2 : LntPort := (((line0.sample 17020000).1).sample 17020000).1
theorem test_delay : line0.rto = 15020000 ∧ (line0.sample 17020000).2 = false ∧ line2.base = 14020000 ∧ (line2.sample 17020000).2 = true
    ∧ (line2.sample 17020000).1.base = 17020000 ∧ (line2.sample 17020000).1.var = 250000 ∧ (line2.sample 17020000).1.rto = 18020000 := by
  decide +kernel

/-- The close, combine and sum of the example after R409: 26 × 2^−9 is 0x5D under 0x76, and the combined block. -/
theorem test_outer_wire : (wireQuant 4 (0x3F400000 :: 0x3D540000 :: List.replicate 126 0)).scales = [0x76]
    ∧ (wireQuant 4 (0x3F400000 :: 0x3D540000 :: List.replicate 126 0)).codes.getD 1 0 = 0x5D
    ∧ (wireQuant 4 (0x3FC00000 :: 0x3DA00000 :: List.replicate 126 0)).scales = [0x77]
    ∧ (wireQuant 4 (0x3FC00000 :: 0x3DA00000 :: List.replicate 126 0)).codes.getD 1 0 = 0x5A := by decide +kernel

/-- The shard of 4,096 blocks after R395: banked planes, D and Q planes. -/
theorem test_outer_planes : (outerSizes 4 4096).take 8 = List.replicate 6 2097152 ++ [1048576, 1048576]
    ∧ ((outerSizes 4 4096).drop 8).take 4 = [2097152, 2097152, 528384, 528384]
    ∧ ((outerSizes 4 4096).drop 12) = List.replicate 8 528448 := by decide +kernel

/-- The deadline example of R353: the point is (5,002, COMMIT), with a median of 200 ms in CCLK. -/
def bcn353 : Beacon := { State.reset.bcn with begun := true, step := 5000, durs := [240000000], beginSite := 1000000000, siteValid := true }
theorem test_deadline : ({ State.reset with bcn := bcn353 } : State).deadlinePoint 1750000000 30 = (5002, 30) := by decide +kernel

/-! ### The step, reset, submission -/

theorem test_hyp_StepRunsFrontCommand :
    ({ up with pending := [.advance] } : State).pending = .advance :: [] ∧ up.pending = [] := by decide +kernel

theorem test_hyp_ResetRegisterValues : (0 < 64 ∧ 63 < 64) ∧ (63 < 64 ∧ 4 < 5) ∧ (64 < 65) := by decide

theorem test_hyp_EveryStepKeepsInvariants : MemInv up ∧ UidInv up ∧ step up = .next up := ⟨by decide +kernel, by decide +kernel, rfl⟩

theorem test_hyp_RejectedCommandDoesNothing :
    UidInv up ∧ up.queueOpen 0 = true ∧ up.violation (up.cmdQueue 0).view (hd 0 16) (.power 3) = none ∧
    (firstFail (up.allChecks (hd 0 16) (.power 3) [])).isSome = true := by decide +kernel

theorem test_hyp_ViolationCompletesWithNoEffect :
    up.queueOpen 1 = true ∧ (up.cmdQueue 1).view < 16 ∧ (hd 1 0).part ≤ 16 ∧ (hd 1 1).part ≤ 16 ∧
    opPriv (opcodeOf (.power 0)) = true ∧ (hd 1 1).part ≠ (up.cmdQueue 1).view := by decide +kernel

/-! ### Module control, rings, partitions, memory settings -/

theorem test_hyp_ModuleControlCommandsComplete :
    ok up (hd 0 16) .nop = true ∧ ok up (hd 0 16) (.config ⟨0x1000, 0⟩) = true ∧
    (0 < 64 ∧ ok up (hd 0 16) (.config ⟨0x1000, 64⟩) = true ∧ (blobFail (padTo 64 []) (some up.blob.mapBytes)).isSome = true) ∧
    (0 < 384 ∧ ok up4 (hd 0 16) (.config ⟨0x1000, 384⟩) = true ∧ up4.power.phase = 4 ∧ blobFail (padTo 384 blob0) none = none) ∧
    ok up (hd 0 16) (.inventory ⟨0x1000, 64⟩) = true ∧ MemInv up ∧ 16 ≤ 64 := by decide +kernel

theorem test_hyp_PowerTransitions :
    (ok up (hd 0 16) (.power 1) = true ∧ ok up (hd 0 16) (.power 2) = true ∧ ok upPark (hd 0 16) (.power 0) = true) ∧
    (State.reset.power.state = 0 ∧ up.power.state = 1 ∧ (3 = 3 ∧ ({ up.power with state := 3, pgCore := false } : Power).pgCore = false)) ∧
    (upReq.power.req = some (3, 0) ∧ upReq.host.cmds = [] ++ running (.power 2) :: [] ∧ (running (.power 2)).uid = 0 ∧
      (running (.power 2)).phase = .running ∧ (running (.power 2)).replayed = false ∧ (running (.power 2)).drained = false ∧ (∀ x ∈ ([] ++ [] : List OutCmd), x.uid ≠ 0)) ∧
    up.power.req = none := by decide +kernel

theorem test_hyp_RingSetupCommands :
    (∀ l ∈ [10, 16], ok up (hd 0 16) (.queueSetup ⟨2, 0x100000, l, 0, 9⟩) = true) ∧ ok up (hd 0 16) (.queueSetup ⟨2, 0, 0, 0, 0⟩) = true ∧
    ok up (hd 0 16) (.cringSetup ⟨1, 0x100000, 8, 3⟩) = true ∧ ok up (hd 0 16) (.cringSetup ⟨1, 0, 0, 0⟩) = true ∧
    ok up (hd 0 16) (.eringSetup ⟨1, 0x100000, 8, 3⟩) = true ∧ ok up (hd 0 16) (.eringSetup ⟨1, 0, 0, 0⟩) = true ∧
    ok placed (hd 0 16) (.queueBind 2 0) = true ∧ ok placed (hd 0 16) (.queueBind 2 16) = true := by decide +kernel

theorem test_hyp_PartitionCreateAndProfile :
    ok up (hd 0 16) (.partCreate ⟨15, 6, 7, 2, 1, 1, 0, 0xF0, 8⟩) = true ∧ 63 < 64 ∧ 6 ≤ 63 % 8 ∧ 63 % 8 < 6 + 2 ∧ 7 ≤ 63 / 8 ∧ 63 / 8 < 7 + 1 ∧
    ok placed (hd 0 16) (.profile 0 1) = true ∧ (placed.part 0).train = true := by decide +kernel

theorem test_hyp_MemorySettings :
    ok placed (hd 1 0) (.regulator ⟨0, 300, 2048, 0⟩) = true ∧ 1 ∈ placed.partFields (hd 1 0).part ∧
    ok up (hd 0 16) (.regulatorSys ⟨2 ^ 64 - 1, 50, 64, 1, 900⟩) = true ∧
    ok up (hd 0 16) (.errClear (2 ^ 63) (2 ^ 31)) = true := by decide +kernel

theorem test_hyp_ActivationEntryCommands :
    ok placed (hd 1 0) (.actReg act0) = true ∧ ok withAct (hd 1 0) (.actRemove 5) = true ∧ ok withAct (hd 1 0) .footprint = true := by decide +kernel

theorem test_hyp_HeirWindowsAndLocalMoves :
    ok placed (hd 0 16) (.heirWindow 1 ⟨15, 0, 0x1000, 64⟩) = true ∧ ok withHeir (hd 0 16) (.heirWindow 0 ⟨15, 0, 0, 0⟩) = true ∧
    ok placed (hd 0 16) (.bulkMove ⟨0, 0, 0, 64, 0⟩) = true ∧
    (ok placed (hd 0 16) (.bulkMove ⟨0, 0, 0, 64, 64⟩) = true ∧ MemInv placed ∧ placed.ownAddr 0 = true ∧ placed.ownAddr 64 = true ∧
      placed.contextsUsed ≤ 16384 ∧ ∀ i, i < 64 → placed.lostAt (islandAddr 0 + i) = false ∧ placed.lostAt (islandAddr 64 + i) = false) ∧
    ok placed (hd 0 16) (.bulkMove ⟨1, 0, 0x1000, 64, 64⟩) = true ∧ ok placed (hd 0 16) (.bulkMove ⟨0, 1, 64, 0x1000, 64⟩) = true ∧
    (ok fullCtx (hd 0 16) (.bulkMove ⟨0, 0, 2 ^ 48, 64, 64⟩) = true ∧ fullCtx.contextsFree < fullCtx.bulkContexts ⟨0, 0, 2 ^ 48, 64, 64⟩) := by decide +kernel

/-! ### Tile programs, sequencer, transfer engine, matrix pair, drain -/

/-- One stream of one FENCE for tile 0. -/
def str1 : StreamE := { fmask := 1, tmask := 1, queue := 2, ndesc := 1, soff := 0, tstride := 64 }
def withFence : State := { placed with mem := [(0, 13)] }

theorem test_hyp_TileProgramQueuesItsStreams :
    (ok placed (hd 1 0) (.tileProgram ⟨[str1], []⟩) = true ∧ (placed.programFail ⟨[str1], []⟩).isSome = true) ∧
    (ok withFence (hd 1 0) (.tileProgram ⟨[str1], []⟩) = true ∧ withFence.programFail ⟨[str1], []⟩ = none ∧
      withFence.unserved ⟨[str1], []⟩ = false ∧ withFence.bcn.recovering = false ∧ 0 < str1.ndesc ∧ withFence.entryTiles str1 = [(0, 0)]) ∧
    (ok placed (hd 1 0) (.tileProgram ⟨[], []⟩) = true ∧ placed.programLeft placed.host.nextUid = false ∧ placed.bcn.recovering = false) ∧
    (ok replaying (hd 1 0) (.tileProgram ⟨[], []⟩) = true ∧ replaying.programFail ⟨[], []⟩ = none ∧ replaying.acquireFail ⟨[], []⟩ = none ∧
      replaying.bcn.recovering = true ∧ (hd 1 0).eval = false ∧ (replaying.part 0).train = true) := by decide +kernel

/-- A ring with one FENCE; two started descriptors of which the older has acted. -/
def inRing : State := { placed with tiles := [(0, { queues := [(0, { ring := [entry (.fence 0)] })] })] }
def twoStarted : State := { placed with
  tiles := [(0, { queues := [(0, { started := [{ entry (.fence 0) with acted := true }, entry (.mark 28)] })], sems := [(3, 65535)] })] }

/-- A descriptor that started last, behind two of another kind in queue 1. -/
def behind (k first : DKind) : State := { placed with
  tiles := [(0, { queues := [(0, { started := [{ entry k with startNo := 2 }] }),
                             (1, { started := [{ entry first with uid := 1 }, { entry first with uid := 2, startNo := 1 }] })] })] }
def stage1 : StageD := { arrays := 1, diag := false, sscale := false, sorient := false, fmt := 5, sbase := 64 }
def last7 : PassD := { pass1 with a := { pass1.a with s0 := 7, q0 := 125 }, m := 2 }
def move1 : MoveD := { bytes := 64, tclass := 0, rows := 2, addr := 0x2000000000, sstride := 64, tbase := 41943040 - 128, tstride := 64 }
def get1 : GetD := { len := 64, sbase := 0, tbase := 0 }

theorem test_hyp_SequencerRows :
    placed.served iss.tile.val = true ∧
    (inRing.served iss.tile.val = true ∧ ((tileOf inRing iss).queue iss.queue.val).ring = entry (.fence 0) :: [] ∧
      inRing.mayStart iss.tile.val iss.queue.val (entry (.fence 0)) = true) ∧
    (twoStarted.served iss.tile.val = true ∧
      ((tileOf twoStarted iss).queue iss.queue.val).started = { entry (.fence 0) with acted := true } :: [entry (.mark 28)] ∧
      [entry (.mark 28)].any (fun x => x.cmd == 0) = true ∧ smapGet 0 (tileOf twoStarted iss).sems 3 ≤ 65535) ∧
    gone0.served iss.tile.val = false ∧
    (((tileOf (started (.fence 0)) iss).queue iss.queue.val).started = entry (.fence 0) :: [] ∧ (entry (.fence 0)).acted = false) ∧
    ([(.stage stage1, .stage stage1), (.swap 1, .pass pass1), (.pass pass1, .swap 3), (.drain drain1, .pass last7), (.load move1, .load move1),
      (.lane 1 (lane1 1 0), .lane 1 (lane1 1 0))] : List (DKind × DKind)).all (fun x =>
        (behind x.1 x.2).descOk iss.tile.val { hdr := dh, kind := x.1 } && !(behind x.1 x.2).unitTurn iss { hdr := dh, kind := x.1 }) = true := by decide +kernel

/-- A DRAIN waits for a PASS onto its last row and for no other, and a PASS not for a STAGE. -/
theorem test_unit_turn :
    (behind (.drain drain1) (.pass { last7 with m := 1 })).unitTurn iss { hdr := dh, kind := .drain drain1 } = true ∧
    (behind (.pass pass1) (.stage stage1)).unitTurn iss { hdr := dh, kind := .pass pass1 } = true ∧
    (behind (.put false (put1 false)) (.get get1)).unitTurn iss { hdr := dh, kind := .put false (put1 false) } = true := by decide +kernel

theorem test_hyp_TransferEngineMovesRows :
    (MemInv (started (.load move1)) ∧ ready (.load move1) = true ∧ move1.bytes ≤ move1.tstride ∧
      ∀ i k, i < 2 → k < 64 → (started (.load move1)).lostAt (move1.addr + i * move1.sstride + k) = false) ∧
    (MemInv (started (.store move1)) ∧ ready (.store move1) = true ∧ move1.bytes ≤ move1.sstride ∧
      ∀ i k, i < 2 → k < 64 → (started (.store move1)).lostAt (move1.addr + i * move1.sstride + k) = false) := by
  refine ⟨⟨by decide +kernel, by decide +kernel, by decide, ?_⟩, ⟨by decide +kernel, by decide +kernel, by decide, ?_⟩⟩ <;>
    · intro i k hi hk
      have h : ∀ i, i < 2 → ∀ k, k < 64 → placed.lostAt (move1.addr + i * move1.sstride + k) = false := by decide +kernel
      exact h i hi k hk

theorem test_hyp_StageAndSwap :
    (∀ a ∈ [1, 2, 3], ready (.stage { arrays := a, diag := false, sscale := false, sorient := false, fmt := 5, sbase := 64 }) = true) ∧
    ∀ a ∈ [1, 2, 3], ready (.swap a) = true := by decide +kernel

theorem test_hyp_PassAccumulates :
    (ready (.pass pass1) = true ∧ pass1.arrays ≠ 3 ∧ pass1.a.acc = false ∧ pass1.a.amode = 0 ∧ pass1.a.msc = false ∧ pass1.a.ssc = false ∧
      pass1.a.mfmt < 8 ∧ pass1.a.sfmt < 8 ∧
      (let s := started (.pass pass1)
       let blk := ((tileOf s iss).arr false).stat
       let v := (treeResult true false (blk.line true 127) (movingVec s.mem 0 (tileAddr 0 0) 512 1).1).val
       blk.tag = some ⟨0, false, none⟩ ∧ f32IsFin (roundF32 v) = true ∧ v.isFin = true)) ∧
    (let d := { pass1 with arrays := 2, m := 0, a := side0, b := pass1.a }
     ready (.pass d) = true ∧ d.m = 0) ∧
    (let d := { pass1 with arrays := 3, orient := false, b := pass1.a }
     ready (.pass d) = true ∧ d.arrays = 3) := by decide +kernel

theorem test_hyp_DrainWritesItsRows :
    (MemInv (started (.drain drain1)) ∧ ready (.drain drain1) = true ∧ drain1.src.clear = true ∧ drain1.hist = false ∧ drain1.ofmt = 0 ∧
      drain1.act = 0 ∧ drain1.slope = false ∧ drain1.smx = false ∧ drain1.oscale = false ∧ 512 ≤ drain1.ostride) ∧
    (let d := { drain1 with src := { rows1 with nrows := 0, clear := false } }
     ready (.drain d) = true ∧ d.src.nrows = 0 ∧ d.src.clear = false) := by decide +kernel

/-! ### Row engine, lanes, reduction port, synchronisation -/

/-- REC_SAVE and REC_LOAD of one record. -/
def rec1 (tag : Nat) : RowD := { row1 7 false with rtag := tag, xbase := 64 }

theorem test_hyp_RowEngineOperations :
    (∀ op ∈ List.range 7, ready (.row op (row1 op true)) = true ∧ ready (.row op { row1 op true with n := 0 }) = true) ∧
    (ready (.row 7 (rec1 0)) = true ∧ MemInv (started (.row 7 (rec1 0)))) ∧ ready (.row 8 (rec1 5)) = true ∧
    (tagAllowed 1 true false RecTag.empty = false ∧ tagAllowed 3 false true RecTag.smx = false ∧ tagAllowed 5 true false RecTag.smx = false ∧
      ready (.row 1 { row1 1 true with q0 := 6 }) = true ∧ ready (.row 3 (row1 3 false)) = true ∧
      ((tileOf (started (.row 3 (row1 3 false))) iss).record 5).tag = .smx ∧ ((tileOf (started (.row 3 (row1 3 false))) iss).record 6).tag = .empty) := by
  decide +kernel

theorem test_hyp_RowEngineResults :
    (∀ op ∈ List.range 7, MemInv (started (.row op (row1 op true))) ∧ ready (.row op (row1 op true)) = true ∧ ready (.row op (row1 op false)) = true ∧
      (row1 op true).r = 1 ∧ (row1 op true).b = 1 ∧ (row1 op true).b0 = 0 ∧ (row1 op true).n = 128) ∧
    ((tileOf (started (.row 2 (row1 2 true))) iss).record 5).tag = .smx ∧ (row1 3 true).rms = true ∧
    (let s := { started (.row 4 (row1 4 false)) with
                  tiles := [(0, { queues := [(0, { started := [entry (.row 4 (row1 4 false))] })], side := [(5, { tag := .ln })] })] }
     unitReady s iss (.row 4 (row1 4 false)) dh = true ∧ ((tileOf s iss).record 5).tag = .ln) ∧
    (let s := { started (.row 6 (row1 6 false)) with
                  tiles := [(0, { queues := [(0, { started := [entry (.row 6 (row1 6 false))] })], side := [(5, { tag := .ln })] })] }
     unitReady s iss (.row 6 (row1 6 false)) dh = true ∧ ((tileOf s iss).record 5).tag = .ln) := by decide +kernel

theorem test_hyp_LaneOperations :
    (∀ op ∈ List.range 11, MemInv (started (.lane op (lane1 op 0))) ∧ ready (.lane op (lane1 op 0)) = true ∧
      ready (.lane op { lane1 op 0 with v := 0 }) = true) ∧
    ready (.lane 7 (lane1 7 1)) = true ∧ ready (.lane 6 (lane1 6 7)) = true ∧ f32IsNan (readWiden 0 0 (readCode [] 0 0 127)).1 = false := by decide +kernel

/-- The partition runs EXACT, and a PUT of contributor 1 comes to a buffer that awaits 0, or 1. -/
def exactAt (aw : Nat) (held : Bool) : State :=
  let f : Field := { fld0 with awaits := (List.range 128).map (fun i => (i, aw)) }
  { started (.put false (put1 false)) with
    parts := [(0, { part0 with profile := 1, train := false })], fields := smapSet placed.fields 0 f,
    tiles := [(0, { queues := [(0, { started := [{ entry (.put false (put1 false)) with held := held }] })] })] }

theorem test_hyp_ReductionPortRows :
    (∀ w ∈ [true, false], MemInv (started (.put w (put1 w))) ∧ ready (.put w (put1 w)) = true ∧ (put1 w).src.nrows = 1 ∧
      (started (.put w (put1 w))).putGroups (iss.tile.val / 16) (put1 w) = [] ∧ (started (.put w (put1 w))).exactFor iss { hdr := dh, kind := .put w (put1 w) } = false) ∧
    (unitReady (exactAt 0 false) iss (.put false (put1 false)) dh = true ∧
      (exactAt 0 false).actEntry iss { hdr := dh, kind := .put false (put1 false) } = some (entry (.put false (put1 false))) ∧
      (exactAt 0 false).putWaits 0 (entry (.put false (put1 false))) = true) ∧
    (((tileOf (exactAt 0 true) iss).queue 0).started.find? (fun e => e.held && !e.acted) = some { entry (.put false (put1 false)) with held := true } ∧
      (exactAt 0 true).putWaits 0 { entry (.put false (put1 false)) with held := true } = true) ∧
    ((exactAt 1 true).served 0 = true ∧ (exactAt 1 true).unitTurn iss { hdr := dh, kind := .put false (put1 false) } = true ∧
      ((tileOf (exactAt 1 true) iss).queue 0).started.find? (fun e => e.held && !e.acted) = some { entry (.put false (put1 false)) with held := true } ∧
      (exactAt 1 true).actEntry iss { hdr := dh, kind := .put false (put1 false) } = some { entry (.put false (put1 false)) with held := true } ∧
      (tileOf (exactAt 1 true) iss).seedGens = [] ∧ (exactAt 1 true).putWaits 0 { entry (.put false (put1 false)) with held := true } = false) ∧
    ready (.get ⟨64, 100663296 - 64, 0⟩) = true := by decide +kernel

def waitS (n : Nat) : DKind := .wait { mode := 0, sem := 2, mark := 0, count := n, step := 0 }
def waitM (step : Nat) : DKind := .wait { mode := 3, sem := 0, mark := 0, count := 0, step := step }
/-- A FENCE that waits for nothing, and one that waits for itself. -/
def fenced (fs : List Nat) : State := { started (.fence 0) with
  tiles := [(0, { queues := [(0, { started := [{ entry (.fence 0) with fenceSet := some fs }] })] })] }

theorem test_hyp_MarkWaitFence :
    (ready (.mark 28) = true ∧ (started (.mark 28)).bcn.begun = false ∧ (started (.mark 28)).isTrainField 0 = true) ∧
    (ready (waitS 4) = true ∧ 4 ≤ smapGet 0 (tileOf (started (waitS 4)) iss).sems 2 ∧
      ready (waitS 5) = true ∧ smapGet 0 (tileOf (started (waitS 5)) iss).sems 2 < 5) ∧
    (ready (waitM 0) = true ∧ (started (waitM 0)).reachedPoint ((started (waitM 0)).waitStepOf iss dh { mode := 3, sem := 0, mark := 0, count := 0, step := 0 }) 0 = true ∧
      ready (waitM 1) = true ∧ (started (waitM 1)).reachedPoint ((started (waitM 1)).waitStepOf iss dh { mode := 3, sem := 0, mark := 0, count := 0, step := 1 }) 0 = false) ∧
    (unitReady (fenced []) iss (.fence 0) dh = true ∧
      (fenced []).actEntry iss { hdr := dh, kind := .fence 0 } = some { entry (.fence 0) with fenceSet := some [] } ∧
      (fenced []).fenceOpen 0 { entry (.fence 0) with fenceSet := some [] } = true) ∧
    (unitReady (fenced [0]) iss (.fence 0) dh = true ∧ (fenced [0]).fenceOpen 0 { entry (.fence 0) with fenceSet := some [0] } = false) := by decide +kernel

theorem test_checks_refuse :
    placed.descOk 0 { hdr := dh, kind := .load { move1 with bytes := 65 } } = false ∧ placed.descOk 0 { hdr := dh, kind := .store { move1 with sstride := 0 } } = false ∧
    placed.descOk 0 { hdr := dh, kind := .swap 4 } = false ∧ placed.descOk 0 { hdr := dh, kind := .swap 0 } = false ∧
    placed.descOk 0 { hdr := dh, kind := .stage { arrays := 1, diag := true, sscale := true, sorient := false, fmt := 5, sbase := 0 } } = false ∧
    placed.descOk 0 { hdr := dh, kind := .pass { pass1 with m := 1025 } } = false ∧ placed.descOk 0 { hdr := dh, kind := .mark 1 } = false ∧
    placed.descOk 0 { hdr := dh, kind := .wait { mode := 1, sem := 0, mark := 1, count := 0, step := 0 } } = false ∧
    placed.descOk 0 { hdr := dh, kind := .drain { drain1 with act := 12 } } = false ∧ placed.descOk 0 { hdr := dh, kind := .get ⟨64, 100663296, 0⟩ } = false ∧
    placed.descOk 0 { hdr := dh, kind := .put true { put1 true with dbase := 32 } } = false ∧
    placed.descOk 0 { hdr := dh, kind := .row 3 { row1 3 true with b0 := 1 } } = false ∧
    placed.descOk 0 { hdr := dh, kind := .lane 1 { lane1 1 0 with act := 1 } } = false := by decide +kernel

theorem test_hyp_UnitRowsNeedAStartedDescriptor : ∀ k, placed.actEntry iss { hdr := dh, kind := k } = none := fun _ => rfl

/-! ### Step line, island and fabric commands, collectives -/

/-- A begun step. -/
def begun : State := { placed with bcn := { placed.bcn with running := true, begun := true, step := 5, attempt := 1 } }
def items32 : List MarkItem := ⟨0, 0, 0, 0⟩ :: ⟨1, 1, 7, 1⟩ :: List.replicate 30 ⟨0, 0, 0, 0⟩

theorem test_hyp_StepLineCommands :
    (ok notK (hd 0 16) (.stepStart 5) = true ∧ notK.isKeeper = false) ∧
    (ok placed (hd 0 16) (.stepStart 5) = true ∧ placed.isKeeper = true ∧ placed.bcn.advance ≠ some 5) ∧
    (∀ e ∈ [true, false], ok (atAdvance e) (hd 0 16) (.stepStart 5) = true ∧ (atAdvance e).isKeeper = true ∧ (atAdvance e).bcn.advance = some 5 ∧
      (atAdvance e).outer.state ≠ 4 ∧ (atAdvance e).bcn.ext = e) ∧
    (ok notK (hd 0 16) .stepStop = true ∧ ok replaying (hd 0 16) .stepStop = true ∧ replaying.isKeeper = true ∧ replaying.bcn.recovering = true ∧
      replaying.bcn.opened = false ∧ ok begun (hd 0 16) .stepStop = true ∧ begun.isKeeper = true ∧ begun.bcn.recovering = false ∧ begun.bcn.begun = true ∧
      ok placed (hd 0 16) .stepStop = true ∧ placed.bcn.opened = false ∧ placed.bcn.begun = false ∧ placed.bcn.phase ≠ 0xF000) ∧
    (ok placed (hd 0 16) (.markTable items32) = true ∧ items32[1]? = some ⟨1, 1, 7, 1⟩ ∧ items32[27]? = some ⟨0, 0, 0, 0⟩) ∧
    ok placed (hd 0 16) (.keeperSelect 0 1) = true ∧ ok placed (hd 0 16) (.watchdog ⟨2, 1, 255⟩) = true ∧ begun.bcn.running = true := by decide +kernel

/-- Before ISLAND_FORM; a map whose member lies outside it; a member listed twice. -/
def unformed : State := { two with place := { two.place with size := 0 } }
def badMap : State := { unformed with blob := { unformed.blob with dimX := 1 } }
def twice : State := { unformed with blob := { unformed.blob with members := [{ id := 0, x := 0, y := 0, z := 0 }, { id := 0, x := 1, y := 0, z := 0 }] } }
/-- Collective group 4 of modules 0 and 1; fabric port 0 is DOWN again. -/
def coll (ms : List Nat) : State := { two with fab := { two.fab with ports := [(0, { state := 2, peerModule := 1 })], groups := [(4, { members := ms, part := 0, seq := 2, epoch := 1 })] } }
def busyGroup : State := { coll [0, 1] with host := (withCmd two (running (.collective 6 ⟨0, 0, 0, 4, 0, 0, 0, 0, 0⟩))).host }
def port4 : State := { two with fab := { two.fab with ports := [(0, { state := 4 })] } }

theorem test_hyp_IslandAndFabricCommands :
    (ok badMap (hd 0 16) .islandForm = true ∧ badMap.blob.legal = false) ∧
    (ok unformed (hd 0 16) .islandForm = true ∧ unformed.blob.legal = true ∧ (unformed.blob.members.map (fun m => m.id)).Nodup) ∧
    (ok twice (hd 0 16) .islandForm = true ∧ twice.blob.legal = true ∧ ¬ (twice.blob.members.map (fun m => m.id)).Nodup) ∧
    two.isMember 1 = true ∧ ok two (hd 1 0) (.cgroupReg 511 [1, 0]) = true ∧
    (ok (coll [0, 1]) (hd 1 0) (.cgroupRemove 4) = true ∧ (coll [0, 1]).cgroupIdle 4 = true ∧
      ok busyGroup (hd 1 0) (.cgroupRemove 4) = true ∧ busyGroup.cgroupIdle 4 = false) ∧
    ok port4 (hd 0 16) (.portRetrain 0) = true ∧ ok port4 (hd 0 16) (.portClear 0x81) = true ∧ ok port4 (hd 0 16) (.fabricSet ⟨64, 32, 1000, 15⟩) = true := by
  decide +kernel

def cp (op : Nat) : CollP :=
  if op = 6 then ⟨0, 0, 0, 4, 0, 0, 0, 0, 0⟩ else ⟨0, 0, 0, 4, 0, 384, 1, 0, 4096⟩
/-- A job of group 4 in progress at sequence number 1, into whose first segment the rank of module 1 is added. -/
def job1 (op : Nat) : CollJob := { uid := 0, op := op, p := cp op, seq := 1, exact := false, started := true, partials := [(0, List.replicate 128 0)], added := [(0, [1])] }
def inJob (op : Nat) : State :=
  let s := withCmd (coll [0, 1, 2]) { running (.collective op (cp op)) with part := 0 }
  { s with fab := { s.fab with jobs := [job1 op] } }
def seg1 (e q : Nat) (final : Bool) (n : Nat) : CollSeg := { group := 4, seq := q, epoch := e, seg := 0, rank := 2, final := final, data := List.replicate n 1, bad := 0, lane := 0 }

theorem test_hyp_CollectivesAreIssuedAndCombined :
    (∀ op ∈ List.range 7, ok (coll [0, 1]) (hd 1 0) (.collective op (cp op)) = true) ∧
    (2 ≤ ((coll [0, 1]).collGroup 4).members.length ∧ (coll [0, 1]).fab.jobs = [] ∧ (coll [0, 1]).fab.earlySigs = [] ∧ (coll [0, 1]).host.cmds = [] ∧
      ((coll [0, 1]).collGroup 4).members.Nodup ∧ (∀ m ∈ ((coll [0, 1]).collGroup 4).members, m ≠ (coll [0, 1]).place.moduleId → m = 1)) ∧
    (ok (coll [0]) (hd 1 0) (.collective 6 (cp 6)) = true ∧ ((coll [0]).collGroup 4).members = [(coll [0]).place.moduleId] ∧
      (coll [0]).fab.earlySegs = []) ∧
    (smapFind (coll [0, 1]).fab.groups 4 = some { members := [0, 1], part := 0, seq := 2, epoch := 1 } ∧ (seg1 0 2 false 512).group = 4 ∧
      (seg1 1 2 false 512).epoch = 1 ∧ 2 ≤ (seg1 1 2 false 512).seq) ∧
    (MemInv (inJob 3) ∧ (inJob 3).fab.jobs.find? (fun j => j.p.group == 4 && j.seq == 1) = some (job1 3) ∧ (job1 3).started = true ∧
      (seg1 1 1 true 384).final = true ∧ 16384 * 0 < (cp 3).count ∧ (seg1 1 1 true 384).data.length = min 16384 ((cp 3).count - 16384 * 0) ∧
      ∀ i, i < 384 → (inJob 3).lostAt ((cp 3).dst + 16384 * 0 + i) = false) ∧
    (smapFind (inJob 0).fab.groups 4 = some { members := [0, 1, 2], part := 0, seq := 2, epoch := 1 } ∧
      (inJob 0).fab.jobs.find? (fun j => j.p.group == 4 && j.seq == 1) = some (job1 0) ∧ ((inJob 0).fab.jobs.map (fun j => j.uid)).Nodup ∧
      (job1 0).exact = false ∧ (seg1 1 1 false 512).bad = 0 ∧ 2 < 3 ∧ (collSegs (cp 0).count 3)[0]? = some ((inJob 0).collRank 4, 0, 1) ∧
      smapGet [] (job1 0).added 0 = [1]) := by decide +kernel

theorem test_hyp_CollectivesAreIssuedAndCombined_reach : inReach (coll [0, 1]) 1 :=
  ⟨{ id := 0, x := 0, y := 0, z := 0 }, { id := 1, x := 1, y := 0, z := 0 }, 0, 0, 1, by decide +kernel⟩

/-! ### Shutter -/

def shp (mode cut : Nat) (es : List ExportE) : ShutterP := { pid := 1, mode := mode, waitMs := 10, cut := cut, nextProfile := 2, qbind := 4, entries := es }
/-- An export of 64 bytes of field 2 into the host tier. -/
def exp1 : ExportE := { kind := 1, dkind := 1, fmask := 4, gid := 0, soff := 0, bytes := 64, dest := 0x1000, dstride := 64 }
/-- Partition 1's shutter stands at a phase. -/
def shutting (ph mode cut : Nat) (es : List ExportE) : State :=
  let s := withCmd withP1 (running (.shutter (shp mode cut es)))
  { s with parts := [(0, part0), (1, { part1 with state := 3, phase := ph })], shutters := [(1, { uid := 0, p := shp mode cut es, del := false })] }
/-- The training partition's shutter waits. -/
def shuttingT : State :=
  { shutting 2 0 0 [] with parts := [(0, { part0 with state := 3, phase := 2 })], shutters := [(0, { uid := 0, p := { shp 0 0 [] with pid := 0 }, del := false })] }
/-- Partition 1 still has a command running. -/
def shuttingBusy : State := withCmd (shutting 2 0 0 []) { running .nop with uid := 1, part := 1 }
def deleting : State := { shutting 5 1 0 [] with shutters := [(1, { uid := 0, p := shp 1 0 [], del := true })] }

theorem test_hyp_ShutterTakesAPartitionDown :
    (ok withP1 (hd 0 16) (.shutter (shp 0 0 [])) = true ∧ ok withP1 (hd 0 16) (.shutter (shp 1 1 [])) = true ∧ (withP1.part 1).train = false ∧
      ok withP1 (hd 0 16) (.shutter { shp 0 0 [] with pid := 0 }) = true ∧ withP1.bcn.recovering = false ∧ (withP1.part 0).state ≠ 2 ∧ withP1.bcn.begun = false) ∧
    (ok withP1 (hd 0 16) (.shutter (shp 0 0 [exp1])) = true ∧ ({ answered := false } : Feed).answered = false) ∧
    (ok withP1 (hd 0 16) (.partDelete 1) = true ∧ (withP1.part 1).train = false) ∧
    (smapFind (shutting 2 0 0 []).shutters 1 = some { uid := 0, p := shp 0 0 [], del := false } ∧ (shp 0 0 []).entries = [] ∧
      ((shutting 2 0 0 []).part 1).train = false ∧ ((shutting 2 0 0 []).part 1).phase = 2 ∧ ((shutting 3 0 0 []).part 1).phase = 3 ∧
      (∀ c ∈ (shutting 2 0 0 []).host.cmds, c.part = 1 → opcodeOf c.body / 256 ≠ 1 → c.phase = .done) ∧
      (∃ c ∈ shuttingBusy.host.cmds, c.part = 1 ∧ opcodeOf c.body / 256 ≠ 1 ∧ c.phase ≠ .done)) ∧
    (smapFind shuttingT.shutters 0 = some { uid := 0, p := { shp 0 0 [] with pid := 0 }, del := false } ∧ (shuttingT.part 0).phase = 2 ∧
      (shuttingT.part 0).train = true ∧ shuttingT.bcn.begun = false) ∧
    (smapFind (shutting 4 0 1 [exp1]).shutters 1 = some { uid := 0, p := shp 0 1 [exp1], del := false } ∧ ((shutting 4 0 1 [exp1]).part 1).phase = 4 ∧
      (∀ q, q < 4 → ((shutting 4 0 1 [exp1]).part 1).lports.testBit q = true → ((shutting 4 0 1 [exp1]).lport q).live = false) ∧
      (shutting 4 0 1 [exp1]).flowsDone 0 = true ∧ (shp 0 1 [exp1]).cut = 1 ∧ 0 < [exp1].length) := by decide +kernel

theorem test_hyp_HandoverAfterZeroise :
    (smapFind (shutting 5 1 0 []).shutters 1 = some { uid := 0, p := shp 1 0 [], del := false } ∧ ((shutting 5 1 0 []).part 1).phase = 5 ∧
      (shutting 5 1 0 []).host.cmds = [] ++ running (.shutter (shp 1 0 [])) :: [] ∧ (running (.shutter (shp 1 0 []))).uid = 0 ∧
      (running (.shutter (shp 1 0 []))).phase = .running ∧ (running (.shutter (shp 1 0 []))).replayed = false ∧
      (running (.shutter (shp 1 0 []))).drained = false ∧
      (running (.shutter (shp 1 0 []))).chosen = none) ∧
    (smapFind deleting.shutters 1 = some { uid := 0, p := shp 1 0 [], del := true } ∧ (deleting.part 1).phase = 5) := by decide +kernel

/-! ### Lantern and outer commands, parameter commands, scheduling -/

def lp1 : LportP := { port := 3, wfield := 1, wbase := 0, losttouchMs := 100, shiftUs := 10000, shiftN := 15, flows := 64 }
def opt1 (n : Nat) : OpticsP := { port := 0, bank := 0, page := 0x11, off := 128, len := n, data := [] }
def fitted : State := { placed with lnt := [(0, { present := true })] }

/-- The keeper knows of a group at module 1; a module with another outer group already; one that is not the keeper. -/
def told : State := { routed with outer := { routed.outer with regs := [1] } }
def second : State := (inFed { p := grp0, bank := 0 }).modFld 0 (fun d => { d with groups := d.groups ++ [(8, { p := { grp0 with gid := 8 }, bank := 0, outer := some { p := { op0 with gid := 8, opbase := 0x900000 } } })] })
def follower : State := { inFed { p := grp0, bank := 0 } with bcn := { placed.bcn with keeperId := 1 } }

theorem test_hyp_LanternAndOuterCommands :
    (ok routed (hd 0 16) (.fedRecord fed1) = true ∧ routed.outer.regs = [] ∧ ok told (hd 0 16) (.fedRecord fed1) = true ∧ told.isKeeper = true ∧
      told.outer.state = 0 ∧ told.outer.regs ≠ []) ∧ (ok placed (hd 0 16) (.routeTable [⟨4, 1, gws8⟩]) = true ∧ placed.outer.fed = none) ∧
    (ok (inFed { p := grp0, bank := 0 }) (hd 0 16) (.outerReg op0) = true ∧ (inFed { p := grp0, bank := 0 }).group 0 7 = some { p := grp0, bank := 0 } ∧
      MemInv (inFed { p := grp0, bank := 0 }) ∧ stackWhole (inFed { p := grp0, bank := 0 }) 0 ∧ grp0.field = 0 ∧
      (inFed { p := grp0, bank := 0 }).outerGroups = [] ∧ (inFed { p := grp0, bank := 0 }).isKeeper = true ∧
      ok second (hd 0 16) (.outerReg op0) = true ∧ second.outerGroups ≠ [] ∧ ok follower (hd 0 16) (.outerReg op0) = true ∧ follower.outerGroups = [] ∧
      follower.isKeeper = false ∧
      ∀ k, k < 512 * (inFed { p := grp0, bank := 0 }).shardBlocks grp0 →
        (inFed { p := grp0, bank := 0 }).lostAt ((inFed { p := grp0, bank := 0 }).masterAddr grp0 0 0 + k) = false) ∧
    ok (inFed { p := grp0, bank := 0, outer := some { p := op0 } }) (hd 0 16) (.outerRemove ⟨0, 7⟩) = true ∧
    ok fitted (hd 0 16) (.lportConfig lp1) = true ∧
    (∀ n ∈ [0, 16], ok fitted (hd 0 16) (.optics 0 (opt1 n)) = true ∧ ok fitted (hd 0 16) (.optics 1 (opt1 n)) = true) ∧
    ok fitted (hd 0 16) (.lportClear 9) = true := by decide +kernel

/-- A group of a computation partition's field, with and without a pending version; a group of the training partition. -/
def grp2 : GroupP := { grp0 with field := 2, members := [(0, 2)] }
def wg (p : GroupP) (pub pv : Bool) : State := withG withP1 { p := p, bank := 0, published := pub, pendingVer := pv }

/-- A group whose planes live in the host tier. -/
def grpT : GroupP := { grp0 with tier := { home := 1, haddr := 0x200000, rbase := 0x40000, pkbase := 0x80000, late := 0, smarkEn := 0, smark := 0 } }

theorem test_hyp_ParameterCommands :
    (ok placed (hd 1 0) (.pgroupReg { grp0 with nelem := 0 }) = true ∧ ok placed (hd 1 0) (.pgroupReg grp0) = true ∧ grp0.nelem ≠ 0 ∧
      ok withP1 (hd 0 16) (.pgroupReg grp2) = true ∧ withP1.isTrainField 2 = false ∧ ok placed (hd 1 0) (.pgroupReg grpT) = true ∧ grpT.tier.home = 1 ∧
      (∀ k ∈ [1, 2, 3, 4], ∀ b, b < 2 → ∀ i, i < grpT.planeSize (placed.ownBlocks grpT).2 k →
        placed.lostAt (stackBase grpT.field + grpT.planeOff (placed.ownBlocks grpT).2 k b + i) = false)) ∧
    (ok (wg grp0 true false) (hd 1 0) (.pgroupRemove ⟨0, 7⟩) = true ∧ (wg grp0 true false).isTrainField 0 = true ∧
      ok (wg grp2 true false) (hd 0 16) (.pgroupRemove ⟨2, 7⟩) = true ∧ (wg grp2 true false).isTrainField 2 = false ∧
      (wg grp2 true false).group 2 7 = some { p := grp2, bank := 0, published := true } ∧ ({ p := grp2, bank := 0, published := true } : Group).pendingVer = false) ∧
    ok (wg grp0 false false) (hd 1 0) (.publish ⟨0, 7⟩) = true ∧
    (∀ b ∈ [true, false], ok (wg grp0 true b) (hd 1 0) (.driftAudit ⟨0, 7⟩) = true ∧
      ({ p := grp0, bank := 0, published := true, pendingVer := b } : Group).auditable = !b) ∧
    (ok (wg grp0 true false) (hd 1 0) (.ckptExport ⟨1, 7, 1, 0x1000, 4096⟩) = true ∧ (1 : Nat) = 2 ^ 0 ∧
      (wg grp0 true false).entrySource (ckptEntry ⟨1, 7, 1, 0x1000, 4096⟩) 0 ≠ []) := by decide +kernel

def at1 (h : Hdr) (m : Nat) : Hdr := { h with sched := true, step := 5, mark := m }
/-- A NOP waits at the front of queue 0. -/
def waiting : OutCmd := { running .nop with phase := .waiting }

theorem test_hyp_ScheduledCommandsWaitAndAnnounce :
    (placed.queueOpen 1 = true ∧ firstFail (placed.allChecks (at1 (hd 1 0) 0) (.steerPin 3 2 0) []) = none ∧
      placed.violation 0 (at1 (hd 1 0) 0) (.steerPin 3 2 0) = none ∧
      (offered placed (at1 (hd 1 0) 0) (.steerPin 3 2 0)).mayBegin (entryOf placed (at1 (hd 1 0) 0) (.steerPin 3 2 0)) = false ∧
      placed.turnedAway (hd 1 0).part (opcodeOf (.steerPin 3 2 0)) ≠ some stAbShutter) ∧
    (ok placed (hd 1 0) (.stepScalar 7 0x3F800000) = true ∧ ok notK (hd 1 0) (.stepScalar 7 0x3F800000) = true ∧ placed.isKeeper = true ∧ notK.isKeeper = false) ∧
    (ok placed (hd 1 0) (.steerPin 63 3 0) = true ∧ ok placed (hd 1 0) (.steerPin 63 0 1) = true) ∧
    ((withCmd up waiting).host.cmds = [] ++ waiting :: [] ∧ (withCmd up waiting).mayBegin waiting = true ∧ (withCmd up waiting).servedFirst waiting = false ∧ (withCmd up waiting).turnedAway waiting.part 0 = none ∧
      waiting.replayed = false ∧ waiting.drained = false ∧ waiting.hdr.dl = false) ∧ up.host.cmds = [] := by decide +kernel

/-! ### Health, steering, security, diagnostics -/

theorem test_hyp_HealthAndSteeringCommands :
    (ok placed (hd 1 0) (.healthRead ⟨255, 7, ⟨0x1000, 64⟩⟩) = true ∧ MemInv placed) ∧ ok placed (hd 1 0) (.healthClear 1 0 0 (2 ^ 63)) = true ∧
    ok placed (hd 1 0) (.steerCtl ⟨1, 1, 65535, 65535⟩) = true ∧ ok placed (hd 1 0) (.steerSlot ⟨63, 2, 2, 1⟩) = true ∧
    ok placed (hd 1 0) (.nevtEn 255 1) = true ∧ ok placed (hd 1 0) (.snapshot ⟨0x1000, 64⟩) = true ∧ ok placed (hd 0 16) (.snapshot ⟨0x1000, 0⟩) = true := by
  decide +kernel

def tg1 (m : Nat) : TgP := { field := 63, chmask := m, pattern := 0, seed := 1, base := 0, len := 256, rdmix := 8, rate := 1000, bursts := 1, cont := 0, stopOnErr := 0 }
/-- Field 63 is in test mode; channel 31 of it runs the generator; it is zeroised on the way out. -/
def testing (ch : Channel) (z : Option Nat) : State :=
  up.modFld 63 (fun f => { f with stack := { f.stack with test := true, chans := [(31, ch)], testZero := z } })
def leaving : State := let s := testing {} (some 0); { s with host := (withCmd s (running (.testMode 63 0))).host }

theorem test_hyp_SecurityAndDiagnosticCommands :
    ok up (hd 0 16) (.attest ⟨1, 2, 3, 4, ⟨0x1000, 448⟩⟩) = true ∧
    (ok logged (hd 0 16) (.logRead ⟨0, 64, ⟨0x1000, 64⟩⟩) = true ∧ MemInv logged ∧ logged.sec.entries[0]? = some [1]) ∧
    ok up (hd 0 16) (.idkeyRead ⟨0x1000, 128⟩) = true ∧
    (ok up (hd 0 16) (.testMode 63 1) = true ∧ ok (testing {} none) (hd 0 16) (.testMode 63 0) = true ∧
      ∀ c, c < 32 → (smapGet ({} : Channel) ((testing {} none).fld 63).stack.chans c).run = none) ∧
    ((leaving.fld 63).stack.testZero = some 0 ∧ leaving.host.cmds = [] ++ running (.testMode 63 0) :: [] ∧ (running (.testMode 63 0)).replayed = false ∧
      (running (.testMode 63 0)).drained = false) ∧
    (ok (testing {} none) (hd 0 16) (.tgRun (tg1 0)) = true ∧ TgP.isNoop (tg1 0) = true ∧ ok (testing {} none) (hd 0 16) (.tgRun (tg1 (2 ^ 31))) = true ∧
      TgP.isNoop (tg1 (2 ^ 31)) = false) ∧
    ((smapGet ({} : Channel) ((testing {} none).fld 63).stack.chans 31).run = none ∧
      (smapGet ({} : Channel) ((testing { run := some (tg1 (2 ^ 31)) } none).fld 63).stack.chans 31).run = some (tg1 (2 ^ 31)) ∧
      (testing { run := some (tg1 (2 ^ 31)) } none).host.cmds = [] ∧ (testing { run := some (tg1 (2 ^ 31)) } none).tgEnds 63 31 (tg1 (2 ^ 31)) 3 = true ∧
      (testing {} none).tgEnds 63 31 { tg1 (2 ^ 31) with cont := 1 } 0 = false ∧ (tg1 (2 ^ 31)).stopOnErr ≠ 1 ∧
      (tg1 (2 ^ 31)).base % 256 = 0 ∧ (tg1 (2 ^ 31)).len % 256 = 0 ∧ 0 < (tg1 (2 ^ 31)).len ∧ (tg1 (2 ^ 31)).base + (tg1 (2 ^ 31)).len ≤ 2 ^ 32 ∧
      31 ∈ ((testing { run := some (tg1 (2 ^ 31)) } none).fld 63).stack.good ∧
      ((testing { run := some (tg1 (2 ^ 31)) } none).fld 63).stack.good.length ≤ 32) ∧
    (ok (testing {} none) (hd 0 16) (.tgStop 63 (2 ^ 31)) = true ∧ ok (testing { run := some (tg1 (2 ^ 31)) } none) (hd 0 16) (.tgStop 63 (2 ^ 31)) = true ∧
      UidInv (testing { run := some (tg1 (2 ^ 31)) } none)) ∧ ok up (hd 0 16) (.selftest (2 ^ 64 - 1)) = true := by decide +kernel

/-! ### Packets, rings, registers, check-value units -/

/-- Queue 0 holds one unread entry. -/
def unread : State := { up with host := { up.host with queues := [(0, { view := 16, log := 10, enabled := true, tail := 1, seq := 7 })] } }

theorem test_hyp_PacketRoundTrip :
    (bodyFits .nop = true ∧ bodyFits (.pgroupReg grp0) = true ∧ bodyFits (.tileProgram ⟨[{ fmask := 2 ^ 64 - 1, tmask := 65535, queue := 3, ndesc := 1048576, soff := 0, tstride := 64 }], [⟨255, 1, 1, 1⟩]⟩) = true) ∧
    (hdrFits (hd 63 16) = true ∧ hdrFits { hd 0 16 with seq := 2 ^ 32 - 1, sched := true, eval := true, step := 2 ^ 48 - 1, mark := 31, deadline := 2 ^ 64 - 1 } = true) ∧
    (bodyFits (.power 2) = true ∧ hdrFits (hd 0 16) = true ∧ (hd 0 16).part ≤ 16 ∧ (encodeBody .nop).length ≤ 32768 ∧ unread.host.state = 2 ∧
      unread.queueOpen 0 = true ∧ (hd 0 16).seq = (unread.cmdQueue 0).seq ∧
      packetEntries (encodeBody .nop).length ≤ ringAhead (unread.cmdQueue 0).log (unread.cmdQueue 0).head (unread.cmdQueue 0).tail) := by decide +kernel

theorem test_hyp_DoorbellTakesOrRefusesATail :
    (unread.viewHolds 16 0x10200 = true ∧ (unread.cmdQueue 0).view ≠ 17 ∧ (unread.cmdQueue 0).enabled = true ∧ 2 ^ 10 ≤ 1024 ∧
      ringAhead 10 0 0 < ringAhead 10 0 1 ∧ 1 = (unread.cmdQueue 0).tail ∧ 1023 < 2 ^ 10 ∧ ringAhead 10 0 1 ≤ ringAhead 10 0 1023) ∧
    (unread.cmdQueue 1).view = 17 := by decide +kernel

/-- An event ring of two entries, full, that has dropped an event; a completed command in queue 0. -/
def fullRing : State := { up with host := { up.host with erings := [(16, { base := 0x2000, log := 1, enabled := true, used := 2, fresh := 3 })] } }
def doneCmd : OutCmd := { running .nop with phase := .done }
def fresh0 : State := { State.reset with power := { up.power with phase := 4 } }

theorem test_hyp_RingRowsMoveTheRings :
    (fresh0.viewHolds 16 0x10200 = true ∧ (fresh0.cmdQueue 0).view ≠ 17 ∧ (fresh0.cmdQueue 0).enabled = false ∧ 1 % 65536 < 2 ^ fresh0.host.qlog) ∧
    up.viewHolds 16 (0x10300 + 4 * 63) = true ∧
    (fullRing.viewHolds 16 (0x10500 + 4 * 16) = true ∧
      (let r := smapGet ({} : ERing) fullRing.host.erings 16
       r.enabled = true ∧ 1 < 2 ^ r.log ∧ 0 < ringAhead r.log r.head 1 ∧ ringAhead r.log r.head 1 ≤ r.used ∧ r.used ≤ 2 ^ r.log ∧ r.fresh ≠ 0 ∧ r.stopped = false ∧
       2 ^ r.log ≤ 2) ∧ fullRing.viewHolds 16 0x10500 = true ∧ (smapGet ({} : ERing) fullRing.host.erings 0).enabled = false ∧
      (smapGet ({} : ERing) fullRing.host.erings 0).fresh = 0 ∧
      (let r : ERing := { base := 0x2000, log := 1, enabled := true, used := 2 }
       r.enabled = true ∧ ringAhead r.log r.head 1 ≤ r.used ∧ r.fresh = 0)) ∧
    (fresh0.viewHolds 16 (0x10010 + 4 * 4) = true ∧ setupLegal 4 0xFFFFFFFF = false ∧ fresh0.queueBusy 0 = false ∧ setupLegal 0 0x1000 = true) ∧
    ((withCmd up doneCmd).host.cmds.find? (fun c => c.hdr.queue == 0 && !c.posted) = some doneCmd ∧ doneCmd.phase = .done ∧
      (withCmd up doneCmd).host.state = 2 ∧ (smapGet ({} : CRing) up.host.crings 0).enabled = true ∧ (smapGet ({} : CRing) up.host.crings 0).stopped = false ∧
      (smapGet ({} : CRing) up.host.crings 0).used < 2 ^ 8 ∧ (withCmd up doneCmd).ringFree 0 = true ∧ (withCmd up doneCmd).keepsPosted doneCmd = false) ∧
    up.host.cmds = [] := by decide +kernel

theorem test_hyp_UnheldRegistersReadZeroAndIgnoreWrites :
    (0 : Fin 17).val < 16 ∧ placed.viewHolds 0 0x70010 = false ∧ placed.viewHolds 0 (0x10200 + 4 * 0) = false ∧ placed.viewHolds 0 (0x10300 + 4 * 5) = false ∧
    placed.viewHolds 0 (0x10500 + 4 * 16) = false ∧ placed.viewHolds 0 0x10010 = false ∧ placed.viewHolds 0 (tileOffset 1023 0x00C) = false ∧
    placed.viewHolds 0 (tileOffset 1023 0x000) = false ∧ placed.viewHolds 0 (fieldOffset 63 0x0004) = false ∧ placed.viewHolds 0 0x03C = false ∧
    (∀ o ∈ [0x00, 0x04, 0x10, 0x24, 0x30, 0x34, 0x38, 0x40, 0x44], placed.viewHolds 0 (chkOffset 64 o) = false) ∧ up.viewHolds 5 0x20000 = false := by decide +kernel

theorem test_hyp_SeedLoadSetsEveryLane :
    placed.viewHolds 16 (tileOffset 0 0x00C) = true ∧ ((0 : Word) ++ (placed.tile 0).seedLo : BitVec 64) ≠ 0 ∧
    ((0 : Word) ++ (({ placed with tiles := [(0, { seedLo := 0 })] } : State).tile 0).seedLo : BitVec 64) = 0 := by decide +kernel

theorem test_hyp_RegisterRowsThatActOnState :
    placed.viewHolds 16 (tileOffset 1023 0x000) = true ∧ placed.viewHolds 0 (tileOffset 0 0x000) = true ∧ placed.viewHolds 16 (fieldOffset 63 0x0004) = true ∧
    placed.viewHolds 16 0x03C = true ∧ placed.viewHolds 16 0x20000 = true ∧ placed.viewHolds 16 0x20 = true ∧ placed.viewHolds 16 0x40804 = true ∧
    (placed.viewHolds 16 (tileOffset 1023 0x008) = true ∧ placed.served 1023 = true) := by decide +kernel

/-- Unit 64 feeds one byte. -/
def feeding : State := { up with chk := [(64, { feeding := [0x31] })] }

theorem test_hyp_BadCheckConfigurationIsIgnored :
    0 % 128 = 0 ∧ 64 < 65 % 128 ∧ up.viewHolds 16 (chkOffset 64 0x00) = true ∧ (up.chkUnit 64).busy = false := by decide +kernel

theorem test_hyp_CheckValueWritesRestart :
    (up.chkUnit 64).busy = false ∧ up.viewHolds 16 (chkOffset 64 0x00) = true ∧ 64 % 128 ≠ 0 ∧ 64 % 128 ≤ 64 ∧
    up.viewHolds 16 (chkOffset 64 (0x10 + 4 * 5)) = true ∧ up.viewHolds 16 (chkOffset 64 0x04) = true ∧ (1 : Word).getLsbD 0 = true := by decide +kernel

theorem test_hyp_CheckValueUnitsFeedAndAnswer :
    (∀ k ∈ [0, 1, 2], up.viewHolds 16 (chkOffset 64 (0x30 + 4 * k)) = true) ∧ (up.chkUnit 64).busy = false ∧ (feeding.chkUnit 64).busy = true ∧
    (feeding.chkUnit 64).held = [] ∧ (feeding.chkUnit 64).stalled = [] ∧ up.viewHolds 16 (chkOffset 64 0x40) = true ∧ up.viewHolds 16 (chkOffset 64 0x44) = true ∧
    ({ refin := false } : ChkUnit).refin = false ∧ ({} : ChkUnit).refin = true := by decide +kernel

/-! ### Boot, rails, resets -/

def inPhase (n : Nat) : State := { up with power := { up.power with phase := n, state := 0 } }
/-- The header of an image with a body of 64 zeros. -/
def image0 : List Byte :=
  [0x44, 0x58, 0x46, 0x31, 1, 0, 0, 0, 2, 0, 0, 0, 0, 0, 0, 0, 64] ++ List.replicate 1071 0
/-- On the way from RETAIN to RUN. -/
def waking : State := { up with power := { up.power with state := 3, req := some (1, 0) } }
def loading : State := { inPhase 2 with sec := { up.sec with len := 1088 } }

theorem test_hyp_BootRunsThroughItsPhases :
    ((inPhase 1).power.phase = 1 ∧ (1 : Word).getLsbD 0 = true) ∧ ((inPhase 2).power.phase ≠ 1 ∧ (2 : Word).getLsbD 0 = false ∧ (15 : Fin 17).val ≠ 16) ∧
    ((inPhase 2).power.phase = 2 ∧ (inPhase 2).imageFail (padTo (inPhase 2).sec.len.toNat []) (inPhase 2).sec.len.toNat = some 1 ∧ imageHeader (padTo 0 []) 0 = false) ∧
    ((inPhase 3).power.phase = 3 ∧ (inPhase 5).power.phase = 5 ∧ (inPhase 6).power.phase = 6 ∧ (inPhase 7).power.phase = 7 ∧
      ∀ f, f < 64 → ((inPhase 7).fld f).stack.good ≠ [] ∧ ((inPhase 7).fld f).slots.length = 16) ∧
    (waking.power.phase ≠ 7 ∧ waking.leavesRetain = true ∧ (waking.fld 3).fenced = 0 ∧ (waking.fld 3).spareUsed = false ∧
      (waking.fld 3).gone = false ∧ (waking.fld 3).fcFenced = false) := by decide +kernel

/-- On the return from RETAIN a tile that fails its self-test gives its slot to the spare (R15, R546). -/
theorem test_selftest_from_retain :
    (nextOf (exec (.selftestDone [17 * 3 + 15]) waking)).map (fun t => (t.fld 3).serves 15) = some (some 16) := by decide +kernel

/-- An image passes its checks where the hash and the signature check, of which nothing is fixed, answer for it as for a good image. -/
theorem test_hyp_BootRunsThroughItsPhases_image
    (h1 : Config.sha384 (image0.drop 1024) = bytesOf image0 24 48) (h2 : Config.sha384 (bytesOf image0 128 97) = loading.fuses.rootHash)
    (h3 : Config.ecdsaVerify (bytesOf image0 128 97) (bytesOf image0 256 96) (imageDigest image0) = true) :
    loading.power.phase = 2 ∧ padTo loading.sec.len.toNat image0 = image0 ∧ loading.imageFail image0 loading.sec.len.toNat = none := by
  have a : imageHeader image0 1088 = true := by decide +kernel
  have b : loading.ownerAsked = false := by decide +kernel
  have c : loading.fuses.minSvn ≤ bytesAt image0 8 4 := by decide +kernel
  have d : loading.sec.len.toNat = 1088 := by decide +kernel
  exact ⟨by decide +kernel, by decide +kernel, by simp [State.imageFail, State.imageChecks, d, a, b, c, h1, h2, h3]⟩

def pwrU (p : Power) : State := { up with power := p }

theorem test_hyp_RailsResetAndTheReiloLink :
    (up.power.pgCtl = true ∧ (pwrU { up.power with pgCtl := false }).power.pgCtl = false) ∧
    (up.power.enabled 2 = true ∧ up.power.good 2 = true ∧ up.power.railoffOk = false) ∧
    ((pwrU { up.power with railoffOk := true }).power.railoffOk = true ∧ ({ up.power with penDram := false } : Power).enabled 1 = false ∧
      ({ up.power with pgDram := false } : Power).good 1 = false) ∧
    (up.power.penDram = true ∧ up.power.penCore = true ∧ up.host.state = 2) := by decide +kernel

/-- Partition 1's EXPORT may end. -/
def exporting : State := shutting 4 0 1 [exp1]

theorem test_hyp_ResetsEmptyQueuesAndUnits :
    (goes (exec .reset up) = true ∧ up.power.pgCtl = true ∧ goes (exec .powerRemoved up) = true) ∧
    (upReq.power.req = some (3, 0) ∧ goes (exec .powerStateReached upReq) = true) ∧
    (smapFind exporting.shutters 1 = some { uid := 0, p := shp 0 1 [exp1], del := false } ∧ (exporting.part 1).phase = 4 ∧ exporting.flowsDone 0 = true ∧
      (shp 0 1 [exp1]).cut = 1 ∧ goes (exec (.shutterExportDone 1 {}) exporting) = true ∧ goes (exec (.exportCutTimer 1 0 0) exporting) = true) := by decide +kernel

/-! ### The step cycle -/

def rdy (k : Nat) : State := { twoK k with bcn := { (twoK k).bcn with ready := true, readyStep := 6 } }
/-- Step 5 has begun; whether this module has reached every mark and sent DONE. -/
def stepOn (k : Nat) (done : Bool) : State := { twoK k with
  bcn := { (twoK k).bcn with begun := true, running := true, doneSent := done, reached := 2 ^ 1 + 2 ^ 28 + 2 ^ 29 },
  fields := smapSet (smapSet placed.fields 0 fld0) 1 fld0 }
def committed : State := { twoK 0 with bcn := { (twoK 0).bcn with phase := 0xF000 } }

/-- The keeper of an island of one that may begin a step. -/
def alone : State := { placed with bcn := { placed.bcn with hold := false } }

theorem test_hyp_StepCycleRowsAdvanceTheStep :
    ((twoK 1).place.placed = true ∧ (twoK 1).bcn.readyFor 6 = true ∧ (twoK 1).bcn.ready = false ∧ (∀ f ∈ (twoK 1).trainFields, ((twoK 1).fld f).refill = []) ∧
      (twoK 1).readyHere 6 = true ∧ (twoK 1).isKeeper = false ∧ (twoK 1).children = [] ∧ (twoK 1).parent = some 0 ∧ (twoK 1).bcn.rounds = []) ∧
    (alone.bcn.readyFor 6 = true ∧ alone.readyHere 6 = true ∧ alone.isKeeper = true ∧ alone.children = [] ∧ alone.bcn.hold = false ∧ alone.outer.state ≠ 4 ∧
      6 < 2 ^ 48 ∧ alone.bcn.startReq = none ∧ alone.bcn.ext = false) ∧
    (up.place.placed = false ∧ (stepOn 0 false).bcn.readyFor 6 = false ∧ (rdy 0).bcn.ready = true ∧ (rdy 0).bcn.readyStep = 6) ∧
    ((rdy 0).place.placed = true ∧ (rdy 0).bcn.readyFor 6 = true ∧ (rdy 0).fab.earlySegs = []) ∧
    (let b := (stepOn 0 false).bcn
     b.begun = true ∧ markDef b.table 1 = true ∧ markIsland b.table 1 = true ∧ b.reached.testBit 1 = true ∧ b.phase < markPhase b.table 1 ∧
     markDef b.table 29 = true ∧ markIsland b.table 29 = true ∧ b.reached.testBit 29 = true ∧ b.phase < markPhase b.table 29 ∧
     markIsland b.table 2 = false) ∧
    ((stepOn 1 false).bcn.begun = true ∧ (stepOn 1 false).bcn.doneSent = false ∧
      (∀ n, n < 30 → 1 ≤ n → markDef (stepOn 1 false).bcn.table n = true → (stepOn 1 false).bcn.reached.testBit n = true) ∧
      (∀ f ∈ (stepOn 1 false).trainFields, (stepOn 1 false).fieldDone f = true) ∧ (stepOn 1 false).actsDone = true ∧ (stepOn 1 false).isKeeper = false ∧
      (stepOn 1 false).children = [] ∧ (stepOn 1 false).outer.fed = none ∧ (stepOn 1 false).parent = some 0) ∧
    ((stepOn 0 true).bcn.begun = true ∧ (stepOn 0 true).bcn.doneSent = true) ∧
    (committed.bcn.begun = false ∧ committed.bcn.phase = 0xF000 ∧ committed.fab.earlySegs = [] ∧ committed.bcn.waits = []) := by decide +kernel

theorem test_hyp_StepCycleRowsAdvanceTheStep_joined : joined (rdy 0) ∧ joined (stepOn 0 false) :=
  ⟨joined_unwrapped _ rfl, joined_unwrapped _ rfl⟩

def frame (op key att : Nat) : FlareFrame := { op := op, key := key, index := 0, step := 5, attempt := att, payload := List.replicate 8 1 }
/-- Module 0 lies between: keeper 2 on one side, module 1 on the other. -/
def line3 : State := { twoK 2 with
  blob := { two.blob with dimX := 3, members := [{ id := 1, x := 0, y := 0, z := 0 }, { id := 0, x := 1, y := 0, z := 0 }, { id := 2, x := 2, y := 0, z := 0 }] },
  fab := { two.fab with ports := [(0, { state := 2, peerModule := 2 }), (1, { state := 2, peerModule := 1 })] },
  bcn := { (twoK 2).bcn with rounds := [{ op := 2, key := 4, index := 0, step := 5, attempt := 1, own := some (List.replicate 8 2) }] } }

/-- A frame as a link carries it. -/
def carried (op key att : Nat) : FabFrame := flareFab 1 0 (frame op key att)

theorem test_hyp_FlareFramesAndFloods_forms :
    FabFrame.wf (carried 2 4 1) = true ∧ FlareFrame.wf (frame 2 4 1) = true ∧ FlareFrame.wf { frame 255 255 255 with index := 65535, step := 2 ^ 48 - 1, payload := List.replicate 64 255 } = true ∧
    up.place.placed = false ∧ ((twoK 0).port 1).state ≠ 2 ∧ ({ carried 2 4 1 with typ := 2 } : FabFrame).typ = 2 ∧ (carried 2 4 1).lseq = ((twoK 0).port 0).rxNext := by
  decide +kernel

theorem test_hyp_FlareFramesAndFloods_frames :
    ((twoK 0).place.placed = true ∧ ((twoK 0).port 0).state = 2 ∧ (carried 7 3 1).typ < 2 ∧ (carried 7 3 1).vl = 0 ∧ (carried 7 3 1).lseq = ((twoK 0).port 0).rxNext) ∧
    (flareOf (carried 7 10 1)).op = 7 ∧ (flareOf (carried 7 10 1)).key = 10 ∧ (flareOf (carried 7 9 1)).key = 9 ∧
    (flareOf (carried 7 9 1)).attempt = (twoK 0).bcn.attempt ∧ ((twoK 0).linkAccept 0 (carried 7 9 1)).1.fab.jobs = [] ∧
    ((twoK 0).linkAccept 0 (carried 7 9 1)).1.host.cmds = [] ∧
    ((flareOf (carried 7 7 1)).op = 7 ∧ (flareOf (carried 7 7 1)).key = 7 ∧ (flareOf (carried 7 7 1)).index = 0 ∧
      ∀ i ∈ [1, 2], (flareOf (flareFab 1 0 { frame 7 7 1 with index := i })).index = i) ∧
    ((flareOf (carried 0 9 1)).op = 0 ∧ (flareOf (carried 0 9 1)).key = 9 ∧ (twoK 1).place.placed = true ∧ ((twoK 1).port 0).state = 2 ∧
      ((twoK 1).linkAccept 0 (carried 0 9 1)).1.isKeeper = false ∧ ((twoK 1).linkAccept 0 (carried 0 9 1)).1.parent = some 0) ∧
    (flareOf (carried 2 8 0)).op ≤ 6 ∧ (flareOf (carried 2 8 0)).key = 8 ∧ (flareOf (carried 2 8 0)).attempt ≠ (twoK 0).bcn.attempt := by decide +kernel

theorem test_hyp_FlareFramesAndFloods_combine :
    (let r := (line3.linkAccept 1 (carried 2 4 1)).1
     let g := flareOf (carried 2 4 1)
     line3.place.placed = true ∧ (line3.port 1).state = 2 ∧ g.op ≤ 6 ∧ g.key ≤ 5 ∧ g.attempt = line3.bcn.attempt ∧ r.children = [1] ∧ r.isKeeper = false ∧
     r.parent = some 0 ∧ r.bcn.rounds = [{ op := 2, key := 4, index := 0, step := 5, attempt := 1, own := some (List.replicate 8 2) }] ∧
     (r.bcn.rounds.all (fun rd => rd.isFor g)) = true) := by decide +kernel

theorem test_hyp_FlareFramesAndFloods_floods :
    ((stepOn 0 false).place.placed = true ∧ ((stepOn 0 false).port 0).state = 2 ∧ (stepOn 0 false).canAbort = true ∧ (stepOn 0 false).trainPart = some 0 ∧
      (stepOn 0 false).bcn.aborts + 1 ≤ (stepOn 0 false).bcn.limit ∧ (stepOn 0 false).bcn.floods = []) ∧
    (6 ≠ (stepOn 0 false).bcn.step ∧ (stepOn 0 false).bcn.awaitsStep 6 0 = false ∧ (rdy 0).bcn.awaitsStep 6 0 = true ∧ 6 ≠ (rdy 0).bcn.step ∧
      (rdy 0).bcn.floods = [] ∧ (rdy 0).place.placed = true ∧ ((rdy 0).port 0).state = 2) ∧
    (5, 1) ∈ ({ twoK 0 with bcn := { (twoK 0).bcn with floods := [(5, 1)] } } : State).bcn.floods ∧
    ((1, 1) ∉ (twoK 0).bcn.fences ∧ (twoK 0).bcn.rounds = [] ∧
      (1, 1) ∈ ({ twoK 0 with bcn := { (twoK 0).bcn with fences := [(1, 1)] } } : State).bcn.fences) := by decide +kernel

/-- A closed window of slot 63 of field 0 awaits its counts. -/
def awaiting (x : SteerSlot) : State := placed.modFld 0 (fun f => { f with steer := { f.steer with awaited := [63], slots := [(63, x)], tLo := 10, tHi := 20 } })
def overdue (ds : List Nat) : State := { stepOn 0 false with bcn := { (stepOn 0 false).bcn with durs := ds } }
def site (e : Bool) (p : Option Nat) : State := { placed with bcn := { placed.bcn with edgeSeen := e, siteValid := p.isSome, prevEdge := p, edgeCclk := 1200, siteTime := 0 } }

theorem test_hyp_StepLineEvents :
    (0 ∈ placed.trainFields ∧ 2 ∉ placed.trainFields ∧ 63 ∉ (placed.fld 0).steer.awaited ∧ 63 ∈ ((awaiting {}).fld 0).steer.awaited) ∧
    ({ pinned := true } : SteerSlot).pinned = true ∧
    (let k := ((awaiting {}).fld 0).steer
     k.tHi * 1 < (1 + 0) * 2 ^ 24 ∧ ({ rung := 1 } : SteerSlot).rung < ({ rung := 1 } : SteerSlot).maxRung ∧
     (0 + 0) * 2 ^ 24 ≤ k.tHi * 1 ∧ (0 + 0) * 2 ^ 24 < k.tLo * 1 ∧ ({ rung := 1 } : SteerSlot).minRung < ({ rung := 1 } : SteerSlot).rung ∧
     k.tLo * 1 ≤ (1 + 0) * 2 ^ 24 ∧ ({ rung := 2 } : SteerSlot).maxRung ≤ ({ rung := 2 } : SteerSlot).rung) ∧
    (placed.served 1023 = true ∧ gone0.served 0 = false) ∧
    (placed.bcn.begun = false ∧ placed.bcn.recovering = false ∧ 100 ≤ (overdue [10]).bcn.overdueLimit ∧ (overdue [10]).bcn.begun = true ∧
      (overdue [10]).bcn.overduePosted = false ∧ (overdue [10]).bcn.overdueLimit < 101 ∧ (overdue []).bcn.durs = []) ∧
    ((site false none).bcn.edgeSeen = false ∧ (site true none).bcn.edgeSeen = true ∧ (site true none).bcn.prevEdge = none ∧
      (site true (some 0)).bcn.siteValid = true ∧ (site true (some 0)).bcn.prevEdge = some 0) ∧
    (let s := atAdvance true
     s.bcn.advance = some 5 ∧ s.isKeeper = true ∧ s.bcn.ext = true ∧ ({ s.bcn with hold := false } : Beacon).hold = false ∧ s.outer.state ≠ 4 ∧ s.bcn.hold = true) ∧
    placed.bcn.advance = none ∧ placed.bcn.waits = [] ∧ ({ pending := true, pendRung := 3 } : SteerSlot).pending = true ∧
    (notK.bcn.advance = none ∧ ({ atAdvance true with bcn := { (atAdvance true).bcn with keeperId := 1 } } : State).isKeeper = false) := by decide +kernel

/-! ### Faults, fabric ports, flows -/

def spoilt (g : Field → Field) : State := placed.modFld 63 g
theorem test_hyp_FailedUnitsAreFencedAndReplaced :
    ((placed.fld 63).serves 15 = some 15 ∧ (∀ q ∈ (placed.tile (16 * 63 + 15)).queues, q.2.source = [] ∧ q.2.ring = [] ∧ q.2.started = []) ∧ (placed.fld 63).spareUsed = false ∧ (placed.fld 63).fenced.testBit 16 = false ∧ placed.isTrainField 63 = false ∧
      ((stepOn 0 false).fld 0).serves 0 = some 0 ∧ (stepOn 0 false).isTrainField 0 = true ∧ (stepOn 0 false).canAbort = true ∧
      (stepOn 0 false).bcn.aborts + 1 ≤ (stepOn 0 false).bcn.limit) ∧
    ((spoilt (fun f => { f with fenced := 2 ^ 16 })).fld 63).fenced.testBit 16 = true ∧
    (placed.served 1023 = true ∧ (placed.tile 1023).ueWords = [] ∧ 7 ∈ (({ placed with tiles := [(1023, { ueWords := [7] })] } : State).tile 1023).ueWords) ∧
    ((placed.fld 63).fcFenced = false ∧ (placed.fld 63).restarting = false ∧ (placed.fld 63).restarts < 2 ∧ 2 ≤ ((spoilt (fun f => { f with restarts := 2 })).fld 63).restarts) ∧
    ((spoilt (fun f => { f with restarting := true })).fld 63).restarting = true ∧
    ((placed.fld 63).stack.chanState 31 = 0 ∧ placed.partOf 63 = none ∧
      ((spoilt (fun f => { f with stack := { f.stack with lost := 2 ^ 31 } })).fld 63).stack.chanState 31 ≠ 0) := by decide +kernel

def hot (sill : Nat) (q : Nat) : Nat :=
  let s := up.modFld 63 (fun f => { f with stack := { f.stack with sill := sill } })
  match exec (.thermalSample 63 7 (some q)) s with
  | .next t => ((t.fld 63).stack.sensors.map Sensor.reads).foldl max 0
  | _ => 0
def moving (p : BulkP) : OutCmd := { running (.bulkMove p) with hdr := hd 1 0, part := 0, left := 1 }
def moveOut : BulkP := ⟨0, 1, 64, 0x1000, 64⟩
def moveIn : BulkP := ⟨1, 0, 0x1000, 64, 64⟩

theorem test_hyp_ScrubTemperatureAndTransfers :
    ((up.fld 63).stack.chanState 31 = 0 ∧ (up.fld 63).stack.chan (31 * 1024) = 31 ∧
      ((up.modFld 63 (fun f => { f with stack := { f.stack with test := true } })).fld 63).stack.chanState 31 ≠ 0) ∧
    (∀ q ∈ [0, 352, 353, 359, 360, 372, 373, 379, 380, 392, 393, 399, 400, 419, 420], ∀ x ∈ [0, 1, 2, 3], hot x q = q) ∧
    up.host.cmds = [] ∧ ((withG withP1 { p := { grp0 with field := 2, members := [(0, 2)] }, bank := 0 }).group 2 7).isSome = true ∧ withP1.isTrainField 2 = false ∧
    (∀ p ∈ [moveOut, moveIn], (withCmd placed (moving p)).host.cmds = [] ++ moving p :: [] ∧ (moving p).hdr.queue = 1 ∧ (moving p).phase = .running ∧
      (moving p).posted = false ∧ (moving p).replayed = false ∧ (moving p).drained = false ∧ (moving p).writes = [] ∧ (moving p).left = 1 ∧ MemInv (withCmd placed (moving p))) ∧
    (moveOut.sk = 0 ∧ moveOut.dk = 1 ∧ moveIn.sk = 1 ∧ moveIn.dk = 0 ∧ placed.ownAddr moveIn.dst = true) ∧
    ∀ i, i < moveIn.bytes → placed.lostAt (islandAddr moveIn.dst + i) = false := by decide +kernel

/-- A module without a training partition, its port 0 in a state. -/
def idle : State := { two with parts := [] }
def frm (n : Nat) : FabFrame :=
  { lseq := n, vl := 1, typ := 0, ack := 4095, nak := false, credit := 0, cvl := 0, dest := 0, dirlock := 0, src := 1, flow := 7, epoch := 0, kind := 0, fseq := 0,
    arg := 0, payload := List.replicate 64 3 }
def portAt (x : FabPort) : State := { idle with fab := { idle.fab with ports := [(0, x)] } }
def link0 : FabPort := { state := 2, peerModule := 1 }

theorem test_hyp_FabricPortsTrainFailAndFence :
    (((portAt { state := 1 }).port 0).state = 1 ∧ (portAt { state := 1 }).peerOk 0 1 3 1 = true ∧ (portAt { state := 1 }).peerOk 0 1 4 1 = false ∧
      (portAt { state := 1 }).peerOk 0 5 3 1 = false) ∧
    ((portAt link0).port 0).state ≠ 1 ∧ ((portAt link0).bcn.rounds = [] ∧ (portAt link0).trainPart = none ∧ ((portAt link0).port 0).state = 2) ∧
    ((portAt { link0 with replay := [frm 0], tries := 8 }).fab.set.replayLim ≤ ((portAt { link0 with replay := [frm 0], tries := 8 }).port 0).tries ∧
      ((portAt { link0 with replay := [frm 0], tries := 7 }).port 0).tries < (portAt link0).fab.set.replayLim ∧
      ((portAt { link0 with replay := [frm 0] }).port 0).replay ≠ []) ∧
    ((portAt {}).port 0).state ≠ 2 ∧ ((portAt link0).port 0).pick (portAt link0).servesFrame = none ∧
    ((portAt { link0 with returning := true }).port 0).returning = true ∧ ((portAt link0).port 0).returning = false ∧
    (({ frm 0 with typ := 2, ack := 1 } : FabFrame).typ = 2 ∧ ((portAt link0).port 0).wait = [] ∧
      ((portAt { link0 with replay := [frm 0, frm 1, frm 2] }).port 0).replay = [frm 0] ++ frm 1 :: [frm 2] ∧ (∀ x ∈ [frm 0], x.lseq ≠ 1)) ∧
    (((portAt { link0 with nakOut := true }).port 0).nakOut = true ∧ ((portAt link0).port 0).nakOut = false) := by decide +kernel

/-- A receiving flow, and a sending flow of a bulk move whose one packet is unacknowledged. -/
def rxAt (fl : Flow) : State := { portAt link0 with fab := { (portAt link0).fab with flows := [(rxKey 1 7, fl)] } }
def txFlow (tries : Nat) : Flow := { peer := 1, ctx := 7, uid := some 0, nextTx := 1, unacked := [{ frame := frm 0, tries := tries }] }
def txAt (tries : Nat) (b : Body) : State :=
  let s := withCmd (portAt link0) { running b with left := 1 }
  { s with fab := { s.fab with flows := [(7, txFlow tries)] } }
def bulkB : Body := .bulkMove ⟨0, 0, 0, 2 ^ 48, 64⟩

theorem test_hyp_FlowsCarryBulkWrites :
    (((portAt link0).port 0).state = 2 ∧ (frm 0).typ < 2 ∧ (frm 0).lseq = ((portAt link0).port 0).rxNext ∧ (frm 0).nak = false ∧ (frm 0).credit = 0 ∧
      ((portAt link0).port 0).replay = [] ∧ ((portAt link0).port 0).wait = [] ∧ (frm 0).dest = (portAt link0).place.moduleId ∧ (frm 0).kind = 0 ∧
      smapFind (portAt link0).fab.flows 7 = none ∧ smapFind (portAt link0).fab.flows (rxKey 1 7) = none ∧ (frm 0).fseq = 0 ∧ 0 < (portAt link0).contextsFree ∧
      (portAt link0).writeShut 0 64 = false ∧ (frm 0).arg < heirMark ∧
      (portAt link0).heirShut { frm 0 with arg := heirMark } = true) ∧
    ({ frm 0 with dest := 1 } : FabFrame).dest ≠ (portAt link0).place.moduleId ∧
    (smapFind (rxAt { epoch := 1 }).fab.flows (rxKey 1 7) = some { epoch := 1 } ∧ (frm 0).epoch ≠ 1 ∧ smapFind (rxAt {}).fab.flows (rxKey 1 7) = some {} ∧
      (({} : Flow).nextRx < 1023 ∧ 1023 < ({} : Flow).nextRx + 1024 ∧ ({ sinceAck := 14 } : Flow).sinceAck < 15)) ∧
    (smapFind (txAt 0 bulkB).fab.flows 7 = some (txFlow 0) ∧ (txFlow 0).peer = (frm 0).src ∧ (txFlow 0).epoch = (frm 0).epoch ∧ (txFlow 0).reading = false ∧ (running bulkB).drained = false ∧ ((txAt 6 bulkB).part (txFlow 6).part).train = false ∧
      (txFlow 0).expect = 0 ∧ (txFlow 0).queued = [] ∧ (∀ k ∈ (txFlow 0).unacked, k.frame.fseq ≤ 0 ∧ 0 < k.frame.fseq + 1024) ∧ (txAt 0 bulkB).trainPart = none ∧
      (txAt 0 bulkB).host.cmds = [] ++ { running bulkB with left := 1 } :: [] ∧ opcodeOf bulkB ≠ 0x0103 ∧ opcodeOf bulkB ≠ 0x0101) ∧
    ((txFlow 0).unacked.find? (fun p => p.frame.fseq == 0) = some { frame := frm 0, tries := 0 } ∧ 5 < (txAt 5 bulkB).fab.set.flowRetry ∧
      (txAt 6 bulkB).fab.set.flowRetry ≤ 6 ∧ (txAt 6 bulkB).exportFlow (txFlow 6) = false ∧ (txAt 6 (.shutter (shp 0 0 []))).exportFlow (txFlow 6) = true) ∧
    (smapFind (portAt link0).fab.flows 9 = none ∧ (rxAt {}).trainPart = none ∧ ({ sinceAck := 1 } : Flow).sinceAck ≠ 0) := by decide +kernel

/-! ### Update unit -/

/-- A group of two ranks of one 128-block each, this module rank 0. -/
def grpR : GroupP := { grp0 with nelem := 256, telems := 256, r := 2, members := [(0, 0), (1, 0)] }
/-- Step 5 has reached REDUCE_DONE in a module with one group in field 0. -/
def upd (x : Group) : State := withG { stepOn 0 false with bcn := { (stepOn 0 false).bcn with phase := 0xE000 } } x
def gx : Group := { p := grpR, bank := 0, exchanged := true }
/-- A group whose home is the host tier. -/
def grpH0 : GroupP := { grp0 with tier := { grp0.tier with home := 1, haddr := 0x10000, rbase := 0x200000, pkbase := 0x300000 } }
def muon : GroupP := { grp0 with rule := { rule0 with rcode := 4, rows := 128, cols := 1, bmark := 28, nsiter := 1 } }

theorem test_hyp_UpdateUnitRows_landing :
    (upd gx).group 0 7 = some gx ∧ (upd gx).rankOf grpR = 0 ∧ gx.landed.contains 0 = false ∧ grpR.r ≠ 1 ∧ grpR.shardLen 0 ≠ 0 ∧ grpR.cons = 0 ∧
      (upd { gx with exchanged := false }).group 0 7 = some { gx with exchanged := false } ∧ (upd gx).bcn.begun = true ∧
      ((gathered (upd gx) gx [(0, [1])]).filter (fun c => c.1 == 5)).length < 2 ∧
      2 ≤ ((gathered (upd gx) gx [(0, [1]), (1, [2]), (1, [3])]).filter (fun c => c.1 == 5)).length ∧ (upd gx).bcn.step = 5 ∧
      (upd { gx with p := { grpR with cons := 1 } }).group 0 7 = some { gx with p := { grpR with cons := 1 } } := by decide +kernel

theorem test_hyp_UpdateUnitRows_joined (g : Group) : joined (upd g) := joined_unwrapped _ rfl

theorem test_hyp_UpdateUnitRows_mirror :
    gx.landed.contains 1 = false ∧ 1 ≠ (upd gx).rankOf grpR ∧ 1 < grpR.r ∧ grpR.shardLen 1 ≠ 0 := by decide +kernel

theorem test_hyp_UpdateUnitRows_norm :
    (let c : GroupP := { grp0 with rule := { rule0 with clip := 1, maxnorm := 0x3F800000 } }
     let s := ((upd { p := c, bank := 0 }).modFld 0 (fun f => { f with normWait := true })).modFld 1 (fun f => { f with normWait := true })
     s.bcn.begun = true ∧ (∀ f ∈ s.trainFields, (s.fld f).normWait = true) ∧ s.group 0 7 = some { p := c, bank := 0 } ∧ c.rule.clip = 1 ∧ grp0.rule.clip ≠ 1 ∧
     f32IsFin 0x7F800000 = false ∧ f32IsFin 0x40800000 = true ∧ 2 ∉ s.trainFields ∧ s.bcn.waits = []) ∧
    ((stepOn 0 false).trainFields ≠ [] ∧ (∃ f ∈ (stepOn 0 false).trainFields, ((stepOn 0 false).fld f).normWait = false)) ∧
    ({ stepOn 0 false with parts := [] } : State).trainFields = [] := by decide +kernel

theorem test_hyp_UpdateUnitRows_sweepStart :
    (let g : Group := { p := grp0, bank := 0, exchanged := true, landed := [0] }
     (upd g).bcn.begun = true ∧ (upd g).isTrainField 0 = true ∧ ((upd g).fld 0).sweeping = none ∧ ((upd g).fld 0).groups = [] ++ (7, g) :: [] ∧
     (upd g).sweepReady g = true ∧ (upd gx).sweepReady gx = false) := by decide +kernel

theorem test_hyp_UpdateUnitRows_sweepDone :
    (let g : Group := { p := grp0, bank := 0, exchanged := true, landed := [0] }
     let s := (upd g).modFld 0 (fun f => { f with sweeping := some (7, 0) })
     (s.fld 0).sweeping = some (7, 0) ∧ s.group 0 7 = some g ∧ grp0.rule.rcode ≤ 2 ∧ MemInv s ∧ grp0.tier.home ≠ 1 ∧ g.outer = none ∧ g.bank ≤ 1 ∧
     stackWhole s 0 ∧ planeEnd grp0.pbase (grp0.baseSizes (s.ownBlocks grp0).2) ≤ 2 ^ 37) := by decide +kernel

theorem test_hyp_UpdateUnitRows_borrow :
    (let g : Group := { p := muon, bank := 0, exchanged := true, landed := [0] }
     (upd g).isTrainField 0 = true ∧ (upd g).group 0 7 = some g ∧ g.p.rule.rcode = 4 ∧ g.borrow = 0 ∧ (upd g).isLanded g = true ∧ (upd g).pastMark 28 = true ∧
     (upd g).mustUpdate g = true ∧ 0 ∈ (upd g).tilesOf 0 ∧ 16 ∉ (upd g).tilesOf 0) := by decide +kernel

theorem test_hyp_UpdateUnitRows_emit :
    (let g : Group := { p := grp0, bank := 0, pendingVer := true, use0 := 1 }
     (upd g).group 0 7 = some g ∧ g.slotFree = true ∧ (upd g).hasEmitted g = false ∧ g.waiting = [] ∧ slotFits (upd g) grp0 g.nextVersion ∧ (upd g).served (grp0.wcPlace 0).1 = true ∧
     ({ g with use1 := 1 } : Group).slotFree = false ∧ (upd g).hasEmitted { g with emitting := true } = true) ∧
    (let g : Group := { p := grpH0, bank := 0, pendingVer := true, resident := true }
     (upd g).group 0 7 = some g ∧ g.p.tier.home = 1 ∧ (upd g).landingFree g = true ∧ (upd g).hasEmitted g = false ∧ g.slotFree = true) := by decide +kernel

theorem test_hyp_UpdateUnitRows_owner :
    (let g : Group := { p := { grpR with cons := 1 }, bank := 0, pendingVer := true }
     (upd g).group 0 7 = some g ∧ g.p.cons = 1 ∧ g.slotFree = true ∧ g.got.contains 1 = false ∧ 1 ≠ (upd g).rankOf g.p ∧ 1 < g.p.r ∧
     slotFits (upd g) g.p g.nextVersion ∧ isBlockFmt g.p.wcfmt = false ∧ 0 < g.p.shardLen 1 ∧ ({ g with use1 := 1 } : Group).slotFree = false ∧ g.p.field = 0 ∧
     bytesAt [1, 0, 0, 0, 9] 0 4 = g.nextVersion ∧ bytesAt [9, 0, 0, 0] 0 4 ≠ g.nextVersion ∧ g.published = false ∧
     (upd { g with waiting := [(2 ^ 32 + 1, [2]), (2 ^ 32 + 9, [3])] }).group 0 7 = some { g with waiting := [(2 ^ 32 + 1, [2]), (2 ^ 32 + 9, [3])] } ∧
     (2 ^ 32 + 1) % 2 ^ 32 = g.nextVersion ∧ (2 ^ 32 + 9) % 2 ^ 32 ≠ g.nextVersion) := by decide +kernel

theorem test_hyp_UpdateUnitRows_publish :
    (let g : Group := { p := grpR, bank := 0, pendingVer := true, emitting := true, got := [0, 1] }
     (upd g).group 0 7 = some g ∧ (upd g).hasEmitted g = true ∧ (∀ j ∈ shardRanks g.p, g.got.contains j = true) ∧ g.removing = none ∧ (upd g).host.cmds = [] ∧
     (∃ j ∈ shardRanks grpR, ([] : List Nat).contains j = false)) := by decide +kernel

theorem test_hyp_UpdateUnitRows_none :
    placed.group 0 7 = none := by decide +kernel

/-! ### Tiers -/

def actO (dfr : Nat) : ActP :=
  { aid := 5, policy := 1, bytes := 128, fmask := 3, sbase := 0, lbase := 4096, hbase := 0x10000, hstride := 4096, dfr := dfr, outMark := 1, inMark := 28, tmask := 1,
    osem := 2, isem := 3 }
/-- The offload entry of partition 0 has come so far in field 1, in a step that has reached REDUCE_DONE. -/
def offl (dfr : Nat) (first : Bool) (pr : ActProg) : State :=
  { stepOn 0 false with acts := [(5, { p := actO dfr, first := first, prog := [(1, pr)] })], bcn := { (stepOn 0 false).bcn with phase := 0xE000 } }
/-- A group whose home is the host tier. -/
def grpH (late : Nat) : GroupP := { grp0 with tier := { grp0.tier with home := 1, haddr := 0x10000, rbase := 0x200000, pkbase := 0x300000, late := late } }
def atHost (x : Group) : State := withG placed x

theorem test_hyp_TierRows :
    (smapFind placed.acts (actKey 0 5) = none ∧ (placed.part 1).train = false ∧ placed.bcn.begun = false) ∧
    (smapFind (offl 0 false {}).acts (actKey 0 5) = some { p := actO 0, first := false, prog := [(1, {})] } ∧ (actO 0).policy = 1 ∧ (actO 0).fmask.testBit 1 = true ∧
      ((offl 0 false {}).part 0).train = true ∧ (offl 0 false {}).bcn.begun = true ∧ (offl 0 false {}).pastMark 1 = true ∧ (offl 0 false {}).pastMark 28 = true ∧
      (stepOn 0 false).pastMark 1 = false ∧ (offl 0 false {}).served 16 = true) ∧
    (smapGet {} [(1, ({ off := true } : ActProg))] 1).off = true ∧
    (((offl 0 false { offLate := true, pfLate := true }).actProg 0 5 1).offLate = true ∧ ((offl 0 false { offLate := true, pfLate := true }).actProg 0 5 1).pfLate = true ∧
      (placed.actProg 0 5 1).offLate = false ∧ (placed.actProg 0 5 1).pfLate = false) ∧
    (MemInv (offl 0 false { pfRun := true }) ∧ stackWhole (offl 0 false {}) 1 ∧ (actO 0).lbase + (actO 0).bytes ≤ 2 ^ 37) ∧
    placed.group 0 7 = none ∧
    (let g : Group := { p := grpH 0, bank := 0, pendingVer := true }
     (atHost g).group 0 7 = some g ∧ (atHost g).wantsFetch g = true ∧ (∀ x ∈ ((atHost g).fld 0).groups, x.1 ≠ 7 → sharesLanding x.2 g = false) ∧
     (atHost { g with pendingVer := false }).wantsFetch { g with pendingVer := false } = false ∧
     (let s := (atHost g).modFld 0 (fun f => { f with groups := f.groups ++ [(8, { g with p := { grpH 0 with gid := 8 }, fetching := true })] })
      s.group 0 7 = some g ∧ ∃ x ∈ (s.fld 0).groups, x.1 ≠ 7 ∧ sharesLanding x.2 g = true ∧ x.2.fetching = true)) ∧
    (let g : Group := { p := grpH 0, bank := 1, fetching := true }
     (atHost g).group 0 7 = some g ∧ g.fetching = true ∧ g.p.field = 0 ∧ g.fetchBank ≤ 1 ∧ MemInv (atHost g) ∧ stackWhole (atHost g) 0 ∧
     planeEnd g.p.pbase (g.p.baseSizes ((atHost g).ownBlocks g.p).2) ≤ 2 ^ 37) ∧
    (let g : Group := { p := grpH 1, bank := 0, wbq := [3, 0, 1] }
     (atHost g).group 0 7 = some g ∧ g.wbq = [3] ++ 0 :: [1] ∧ g.p.tier.late = 1 ∧ (grpH 0).tier.late ≠ 1 ∧ (atHost g).waitsForTier = false ∧
     (∀ k ∈ ({ g with wbq := [3] } : Group).wbq, k = 3) ∧ (atHost g).auditsOf 0 7 = []) := by decide +kernel

/-! ### Outer sweeps -/

/-- The federation in which this island is the child of island 4, which is lit. -/
def fed2 : FedP := { fed1 with members := [⟨4, 255, 0⟩, ⟨3, 0, 0⟩] }
def isl2 : OuterIsland := { fed := some fed2, state := 2, rho := 9, routes := [⟨4, 1, gws8⟩], gwUp := [(4, 0, 0)] }
def og0 : OuterGroup := { p := op0 }
def gout (o : OuterGroup) : Group := { p := grp0, bank := 0, updated := true, outer := some o }
/-- The outer turn of group 7 in field 0. -/
def turn (isl : OuterIsland) (o : OuterGroup) : State := { upd (gout o) with outer := isl }
def down (round : Nat) : Landing := { up := false, round := round, base := 0, mask := 3, catchup := false, late := false }
def own (round : Nat) (sent : Bool) : OutRound := { round := round, catchup := false, base := 3, sent := sent }
/-- The new masters hold an infinity. -/
def infMaster (o : OuterGroup) : State :=
  let s := turn { isl2 with closing := true } o
  { s with mem := memWriteBytes s.mem (s.masterAddr grp0 1 0) [0, 0, 0x80, 0x7F] }

theorem test_hyp_OuterSweeps_turn :
    placed.outerRuns 0 7 = none ∧ OuterTurn (turn isl2 og0) 0 7 fed2 (gout og0) og0 ∧ og0.pend.ran.contains 0 = false ∧ isl2.closing = false ∧
    (turn isl2 og0).roundReady fed2 og0 3 = false ∧ OuterPlaced (turn isl2 og0) (gout og0) og0 := by decide +kernel

theorem test_hyp_OuterSweeps_install :
    (let o : OuterGroup := { og0 with fetched := some [1] }
     let s := turn { isl2 with install := some 9 } o
     OuterTurn s 0 7 fed2 (gout o) o ∧ s.outer.install = some 9 ∧ OuterPlaced s (gout o) o) := by decide +kernel

theorem test_hyp_OuterSweeps_joined (i : OuterIsland) (o : OuterGroup) : joined (turn i o) := joined_unwrapped _ rfl

theorem test_hyp_OuterSweeps_apply :
    (OuterTurn (turn { isl2 with state := 1 } og0) 0 7 fed2 (gout og0) og0 ∧ isl2.state ≠ 1) ∧
    (turn isl2 og0).outer.install = none ∧ og0.again = [] ∧ og0.landedInOrder = [] ∧
    (∀ rd ∈ [9, 8, 7, 6], OuterTurn (turn isl2 { og0 with landing := [(7, down rd)] }) 0 7 fed2 (gout { og0 with landing := [(7, down rd)] })
        { og0 with landing := [(7, down rd)] } ∧
      ({ og0 with landing := [(7, down rd)] } : OuterGroup).landedInOrder = [(7, down rd)]) ∧
    (let s := turn isl2 { og0 with landing := [(7, down 8)] }
     s.wireBad 3 (s.outAddr grp0 op0 19 + 64) (s.shardBlocks grp0) = false ∧ ¬ (9 ≤ 8) ∧ ¬ (fed2.s < 9 - 8 - 1) ∧ fed2.s < 9 - 6 - 1) := by decide +kernel

theorem test_hyp_OuterSweeps_fold :
    (let o : OuterGroup := { og0 with slots := [(1, own 3 true)], pend := { ran := [0] } }
     let s := turn { isl2 with closing := true } o
     OuterTurn s 0 7 fed2 (gout o) o ∧ s.outer.closing = true ∧ o.pend.ran.contains 0 = true ∧ o.pend.ran.contains 1 = false ∧
     o.slots.filter (fun k => s.outer.state != 1 && !o.pend.installed && fed2.s < s.outer.rho - k.2.round && !o.pend.freeSlot.contains k.1) = [(1, own 3 true)] ∧ OuterPlaced s (gout o) o) := by
  decide +kernel

theorem test_hyp_OuterSweeps_close :
    (let o : OuterGroup := { og0 with pend := { ran := [0, 1] } }
     let full : OuterGroup := { o with slots := [(0, own 7 true), (1, own 8 true)] }
     let s := turn { isl2 with closing := true } o
     OuterTurn s 0 7 fed2 (gout o) o ∧ o.pend.ran.contains 1 = true ∧ o.pend.ran.contains 2 = false ∧ s.outer.state = 2 ∧ smapFind o.slots 0 = none ∧
     (s.closeBlock (gout o) o 0).isSome = true ∧ s.shardBlocks grp0 = 1 ∧ OuterPlaced s (gout o) o ∧
     OuterTurn (turn { isl2 with closing := true } full) 0 7 fed2 (gout full) full ∧ smapFind full.slots 0 ≠ none ∧ smapFind full.slots 1 ≠ none ∧
     OuterTurn (infMaster o) 0 7 fed2 (gout o) o ∧ ((infMaster o).closeBlock (gout o) o 0).isNone = true) := by decide +kernel

theorem test_hyp_OuterSweeps_combine :
    (let o : OuterGroup := { og0 with slots := [(1, own 8 false)], pend := { ran := [0] } }
     let s := turn isl2 o
     OuterTurn s 0 7 fed2 (gout o) o ∧ s.outer.closing = false ∧ s.roundReady fed2 o 8 = true ∧ o.upItems 8 = [] ∧ o.ownItem 8 = some (1, own 8 false) ∧
     s.effParent fed2 (fed2.members.length + 1) (s.memberIdx fed2) = some 0) := by decide +kernel

theorem test_hyp_OuterSweeps_master :
    (let g : Group := { p := grpR, bank := 0, updated := true, outer := some og0 }
     (upd g).group 0 7 = some g ∧ g.outer = some og0 ∧ g.p.cons = 0 ∧ 1 < g.p.r ∧ 1 ≠ (upd g).rankOf g.p ∧ (upd g).bcn.begun = true ∧ MemInv (upd g) ∧
     (∀ i, i < 512 * grpR.shardLen 1 → (upd g).lostAt ((upd g).planeAddr grpR 0 1 (512 * grpR.shardLo 1) + i) = false) ∧
     (upd { g with updated := false }).group 0 7 = some { g with updated := false }) ∧ placed.group 0 7 = none := by decide +kernel

/-! ### Outer transfers and floods -/

def xf (typ dst item : Nat) (payload : List Byte) : Xfer :=
  { typ := typ, srcIsland := 4, dstIsland := dst, fmt := 3, round := 8, base := 3, item := item, srcModule := 0, attempt := 0, payload := payload }
/-- The header of an item of 128 elements. -/
def head128 : List Byte := [1, 0, 0, 0, 128, 0, 0, 0]
/-- A STATUS record that asks, of GROUP 2 and RHO 9. -/
def status1 : List Byte := [0, 0, 0, 0, 0, 0, 0, 0, 9, 0, 0, 0, 8, 0, 0, 0, 2, 1]
def relayed : State := { turn isl2 og0 with outer := { isl2 with routes := [⟨4, 1, [(1, 2), (0, 0), (0, 0), (0, 0), (0, 0), (0, 0), (0, 0), (0, 0)]⟩], gwUp := [(4, 1, 2)] } }

theorem test_hyp_OuterTransfersAndFloods_relay :
    ((xf 0 5 0 []).dstIsland ≠ (turn isl2 og0).place.islandId ∧ (turn isl2 og0).gatesUp 5 = [] ∧ (xf 0 5 0 []).srcIsland ≠ (turn isl2 og0).place.islandId) ∧
    ((∀ y ∈ (turn isl2 og0).gatesUp 4, y.1 ≠ (turn isl2 og0).place.moduleId) ∧
      (let s : State := { turn isl2 og0 with lnt := [(0, { state := 4, peerIsland := 4 })] }
       (s.gatesUp 4)[(xf 0 4 0 []).srcModule % (s.gatesUp 4).length]? = some (s.place.moduleId, 0))) ∧
    (let s : State := { relayed with lnt := [(0, { state := 4, peerIsland := 4 })],
                                     outer := { relayed.outer with routes := [⟨4, 2, [(1, 2), (0, 0), (0, 0), (0, 0), (0, 0), (0, 0), (0, 0), (0, 0)]⟩] } }
     (s.gatesUp 4)[(xf 0 4 0 []).srcModule % (s.gatesUp 4).length]? = some (1, 2) ∧ 1 ≠ s.place.moduleId ∧
     (s.gatesUp 4).find? (fun y => y.1 == s.place.moduleId) = some (s.place.moduleId, 0)) ∧
    ((relayed.gatesUp 4)[relayed.place.moduleId % (relayed.gatesUp 4).length]? = some (1, 2) ∧ 1 ≠ relayed.place.moduleId) ∧
    ((xf 0 3 (65536 * 9) []).dstIsland = (turn isl2 og0).place.islandId ∧ (turn isl2 og0).group (keyField (65536 * 9)) (keyGid (65536 * 9)) = none) := by
  decide +kernel

theorem test_hyp_OuterTransfersAndFloods_items :
    (∀ t ∈ [0, 1], (xf t 3 (65536 * 7) head128).typ = t ∧ (xf t 3 (65536 * 7) head128).item < 2 ^ 24) ∧
    (let s := turn isl2 og0
     (65536 * 7) % 1024 = s.place.moduleId ∧ s.group (keyField (65536 * 7)) (keyGid (65536 * 7)) = some (gout og0) ∧ (gout og0).outer = some og0 ∧
     bytesAt head128 4 4 = 128 * s.shardBlocks grp0 ∧ og0.freeLanding = some 0 ∧ MemInv s) ∧
    ({ og0 with landing := (List.range 8).map (fun i => (i, down 8)) } : OuterGroup).freeLanding = none := by decide +kernel

/-- No byte of the landing slots lies on a lost channel. -/
theorem test_hyp_OuterTransfersAndFloods_served :
    ∀ k, k < 64 + wireLen 3 1 → (turn isl2 og0).lostAt ((turn isl2 og0).outAddr grp0 op0 12 + k) = false := by
  intro k hk
  have ha : (turn isl2 og0).outAddr grp0 op0 12 = 1069696 := by decide +kernel
  have hl : 64 + wireLen 3 1 = 8320 := by decide +kernel
  have hf : ((turn isl2 og0).fld 0).stack.lost = 0 ∧ ((turn isl2 og0).fld 0).stack.test = false := by decide +kernel
  have hd : ((turn isl2 og0).outAddr grp0 op0 12 + k) / 2 ^ 37 = 0 := by omega
  unfold State.lostAt
  rw [hd]
  simp [hf.1, hf.2]

theorem test_hyp_OuterTransfersAndFloods_status :
    (let s := turn isl2 og0
     s.isKeeper = true ∧ s.partners.contains 4 = true ∧ bytesAt status1 17 1 = 1 ∧ s.outer.asked = [] ∧ s.outer.state = 2 ∧ s.bcn.waits = [] ∧
     (twoK 1).isKeeper = false ∧ bytesAt (padTo 64 []) 17 1 ≠ 1) := by decide +kernel

theorem test_hyp_OuterTransfersAndFloods_fetch :
    (let s := turn isl2 og0
     s.outer.state ≠ 1 ∧ s.bcn.begun = true ∧ ({ s with bcn := { s.bcn with begun := false } } : State).bcn.begun = false ∧
     (turn { isl2 with state := 1 } og0).outer.state = 1 ∧ (turn { isl2 with state := 1, source := some 4 } og0).outer.source = some (xf 4 3 0 []).srcIsland ∧
     (turn { isl2 with state := 1, source := some 4 } og0).outer.install = none ∧
     (turn { isl2 with state := 1, source := some 4 } og0).bcn.waits = []) := by decide +kernel

theorem test_hyp_OuterTransfersAndFloods_floods :
    up.place.placed = false ∧ (turn isl2 og0).place.placed = true ∧ (turn isl2 og0).outer.state = 2 ∧ (2 : Nat) ≠ 1 ∧ (3 : Nat) ≠ 2 ∧
    1 ≠ (turn isl2 og0).place.moduleId ∧ (turn isl2 og0).bcn.waits = [] ∧ relayed.outer.gwUp.contains (4, 1, 2) = true ∧
    (turn isl2 og0).outer.gwUp.contains (4, 1, 2) = false ∧ relayed.place.placed = true ∧
    (∀ r ∈ relayed.outer.routes, ∀ y ∈ r.gws.take r.ngw, y.1 ≠ relayed.place.moduleId) ∧ relayed.bcn.waits = [] ∧
    (OuterFlood.wf (.partner 16 1 2 true 0) = false ∧ OuterFlood.wf (.partner 15 1023 3 true 7) = true) ∧
    ((turn { isl2 with state := 4 } og0).outer.state = 4 ∧ (turn { isl2 with state := 4 } og0).bcn.advance = none ∧
      (let s := turn { isl2 with state := 4 } og0
       let t : State := { s with bcn := { s.bcn with advance := some 6, hold := false } }
       t.outer.state = 4 ∧ t.bcn.advance = some 6 ∧ t.isKeeper = true ∧ t.bcn.hold = false)) ∧
    ((turn { isl2 with state := 1 } og0).outer.state = 1 ∧ (turn { isl2 with state := 1 } og0).outer.source = none ∧ (turn isl2 og0).isKeeper = true) := by
  decide +kernel

theorem test_hyp_OuterTransfersAndFloods_joined : joined (turn isl2 og0) ∧ joined relayed := ⟨joined_unwrapped _ rfl, joined_unwrapped _ rfl⟩

/-! ### Lantern ports and sessions -/

def peer1 : HelloF := { island := 4, module := 2, port := 1, fedTag := 0, nonce := List.replicate 32 7, rand := 9, flows := 8 }
def own1 : HelloF := { peer1 with island := 3, module := 0, port := 3, rand := 5 }
/-- Lantern port 3 as given. -/
def lan (x : LntPort) : State := { turn isl2 og0 with lnt := [(3, x)], parts := [(0, { part0 with lports := 15 })] }
/-- A port in ATTEST with session 5 · 65536 + 9. -/
def att : LntPort := { state := 3, present := true, configured := true, session := 327689, own := some own1, peer := some peer1, peerIsland := 4, peerModule := 2, peerPort := 1 }
def upL : LntPort := { att with state := 4, live := true, flowCount := 8 }

theorem test_hyp_LanternPortsAndSessions_states :
    ((lan {}).lport 3).present = false ∧ ((lan { present := true }).lport 3).present = true ∧
    (∀ l ∈ [true, false], ∀ st ∈ [0, 1, 2, 3, 4, 5, 6], ((lan { state := st, linked := l, present := true }).lport 3).state = st ∧
      ((lan { state := st, linked := l, present := true }).lport 3).linked = l) ∧ ((lan { state := 2, own := some own1 }).lport 3).own = some own1 := by
  decide +kernel

theorem test_hyp_LanternPortsAndSessions_hello :
    (let x := (lan { state := 2, own := some own1 }).lport 3
     x.state = 2 ∧ x.own = some own1 ∧ x.live = false ∧ own1.island ≠ peer1.island ∧ ({ peer1 with island := 3 } : HelloF).island = own1.island) ∧
    (let x := (lan { upL with state := 5, linked := true }).lport 3
     x.state = 5 ∧ x.linked = true ∧ x.live = true ∧ x.peerIsland = peer1.island ∧ x.peerModule = peer1.module ∧ x.peerPort = peer1.port) ∧
    (let x := (lan { upL with state := 2, own := some own1, peerPort := 0 }).lport 3
     x.state = 2 ∧ x.own = some own1 ∧ x.live = true ∧ x.peerPort ≠ peer1.port ∧ (lan upL).bcn.waits = []) := by decide +kernel

theorem test_hyp_LanternPortsAndSessions_joined (x : LntPort) : joined (lan x) := joined_unwrapped _ rfl

theorem test_hyp_LanternPortsAndSessions_attest :
    ((lan att).lport 3).state = 3 ∧ ((lan att).lport 3).session = 327689 ∧ 5 ≠ ((lan att).lport 3).session ∧ ((lan att).lport 3).own = some own1 ∧
    ((lan att).lport 3).peer = some peer1 ∧ 8 ≤ (lan att).contextsFree ∧ ((lan att).accepts 3 { own1 with fedTag := 1 } peer1 327689 []).contains false = true ∧
    ((lan { att with live := true }).lport 3).live = true ∧ ((lan upL).lport 3).live = true ∧ ((lan upL).lport 3).session = 327689 ∧
    ((lan att).lport 3).live = false ∧ (lan att).staleGates 3 = [] ∧ (lan upL).staleGates 3 = [] ∧
    ({ lan att with outer := { isl2 with gwUp := [(4, 0, 3)] } } : State).staleGates 3 = [4] ∧ ((lan { att with peer := none }).lport 3).peer = none ∧
    lntLenLegal 448 = true ∧ lntLenLegal 449 = false ∧ lntLenLegal 0 = true := by decide +kernel

theorem test_hyp_LanternPortsAndSessions_cut :
    (xf 0 4 (65536 * 7) []).typ = 0 ∧ (lan upL).outer.state ≠ 1 ∧ (lan upL).group (keyField (65536 * 7)) (keyGid (65536 * 7)) = some (gout og0) ∧
    (gout og0).outer = some og0 ∧ (lan upL).outer.returned = [] ∧
    (xf 2 4 0 []).typ ≠ 0 ∧ (xf 2 4 0 []).typ ≠ 3 ∧ placed.outer.fed = none ∧ placed.outer.state = 0 ∧
    (turn { isl2 with state := 3 } og0).outer.state = 3 ∧ (turn { isl2 with state := 3 } og0).outer.returned = [] := by decide +kernel

/-- A report that carries session 327689's nonces and context. -/
def rep1 : List Byte :=
  padTo 176 [1, 0, 1, 0] ++ padTo 64 (lntContext own1 peer1 327689).1 ++ padTo 64 (lntContext own1 peer1 327689).2 ++ List.replicate 144 0
def trusting : State := { lan att with
  blob := { (lan att).blob with trust := [Config.sha384 (Config.peerKey rep1)], meas := [List.replicate 48 0] },
  outer := { isl2 with routes := [⟨4, 1, [(0, 3)]⟩] } }

/-- A report is accepted where the signature check, of which nothing is fixed, answers yes. -/
theorem test_hyp_LanternPortsAndSessions_accept
    (h : Config.ecdsaVerify (Config.peerKey rep1) ((rep1.drop 304).take 96) (Config.sha384 (rep1.take 304)) = true) :
    (trusting.lport 3).state = 3 ∧ (trusting.accepts 3 own1 peer1 327689 rep1).contains false = false ∧
    max 1 (min own1.flows peer1.flows) ≤ trusting.contextsFree ∧ lntLenLegal rep1.length = true ∧ trusting.ownsLport 3 = true ∧
    ({ trusting with parts := [(0, part0)] } : State).ownsLport 3 = false ∧ trusting.bcn.waits = [] := by
  have a : (rep1.length == 448 && bytesAt (rep1.take 304) 0 4 == 0x10001 && decide (((rep1.take 304).drop 176).take 64 = (lntContext own1 peer1 327689).1)
      && decide (((rep1.take 304).drop 240).take 64 = padTo 64 (lntContext own1 peer1 327689).2)) = true := by decide +kernel
  have b : (own1.fedTag == peer1.fedTag) = true ∧ (own1.island != peer1.island) = true ∧
      (trusting.outer.routes.any (fun r => r.island == peer1.island && (r.gws.take r.ngw).contains (trusting.place.moduleId, 3))) = true ∧
      trusting.blob.meas.contains (((rep1.take 304).drop 32).take 48) = true := by decide +kernel
  have c : trusting.blob.trust.contains (Config.sha384 (Config.peerKey rep1)) = true := by simp [trusting]
  refine ⟨by decide +kernel, ?_, by decide +kernel⟩
  unfold State.accepts
  simp only [a, b.1, b.2.1, b.2.2.1, b.2.2.2, c, h, Bool.and_true]
  rfl

/-! ### Lantern flows and delay -/

def dat (q : Nat) (man : Bool) (pl : List Byte) : LntData := { session := 327689, flow := 7, man := man, pseq := q, payload := pl }
def withFlow (fl : LntFlow) : State := lan { upL with flows := [(7, fl)] }
/-- A manifest of a STATUS transfer of two payload bytes, with its check value. -/
def mani : List Byte := padTo 16 [2, 4, 3] ++ leBytes 8 2 ++ List.replicate 24 0
def maniOk : List Byte := mani ++ leBytes 8 (crc64 ([1, 2] ++ mani)) ++ List.replicate 8 0

/-- A manifest of an UP transfer of module 1. -/
def mani1 : List Byte := let m := padTo 12 [0, 3] ++ padTo 4 [1] ++ leBytes 8 2 ++ List.replicate 24 0; m ++ leBytes 8 (crc64 ([1, 2] ++ m)) ++ List.replicate 8 0

theorem test_hyp_LanternFlowsAndDelay_data :
    ((lan {}).lport 3).state < 2 ∧ ((lan upL).lport 3).state = 4 ∧ 5 ≠ ((lan upL).lport 3).session ∧ ((lan upL).lport 3).session = 327689 ∧
    ((lan upL).lport 3).flowCount ≤ 8 ∧ 7 < ((lan upL).lport 3).flowCount ∧ ({ cum := 2 ^ 32 - 1 } : LntFlow).cum < 2 ^ 32 ∧
    (2 ^ 32 - 1 + 2 ^ 32 - (2 ^ 32 - 1)) % 2 ^ 32 = 0 ∧ (2 ^ 31 - 1 + 2 ^ 32 - 0) % 2 ^ 32 < 2 ^ 31 ∧ 2 ^ 31 ≤ (2 ^ 31 + 2 ^ 32 - 0) % 2 ^ 32 ∧
    ((withFlow { fresh := 30 }).lport 3).heldIn < windowSlots ∧ smapFind ({ early := [(9, ⟨false, 0, 64⟩)] } : LntFlow).early 9 ≠ none ∧
    LntData.legal (dat 9 false (List.replicate 8192 0)) = true ∧ LntData.legal (dat 9 true maniOk) = true ∧ LntData.legal (dat 9 false [0]) = false := by decide +kernel

theorem test_hyp_LanternFlowsAndDelay_manifest :
    bytesAt maniOk 48 8 = crc64 ([1, 2] ++ maniOk.take 48) ∧ bytesAt maniOk 16 8 = 2 ∧ (xferOf maniOk [1, 2]).typ < 5 ∧
    bytesAt mani1 48 8 = crc64 ([1, 2] ++ mani1.take 48) ∧ bytesAt mani1 16 8 = 2 ∧ mani1.length = 64 ∧
    ((xferOf maniOk [1, 2]).dstModule (some fed2) = (lan upL).place.moduleId ∧ (xferOf mani1 [1, 2]).dstModule (some fed2) = 1 ∧
      (lan upL).ownsLport 3 = true ∧ ({ lan upL with parts := [(0, part0)] } : State).ownsLport 3 = false) ∧
    ¬ (bytesAt mani 48 8 = crc64 ([1, 2] ++ mani.take 48)) := by decide +kernel

/-- A header with every field at the top of its range. -/
def hdrTop : LntHdr := { typ := 7, flow := 63, man := true, len := 8192, session := 2 ^ 32 - 1, pseq := 2 ^ 32 - 1, sack := 2 ^ 64 - 1, t2 := 2 ^ 64 - 1, t3 := 2 ^ 64 - 1 }
theorem test_hyp_LanternFlowsAndDelay_header : hdrTop.wf = true ∧ lntHeaderOf (lntHeader hdrTop) = some hdrTop ∧ lntHeaderOf (1 :: List.replicate 58 0 ++ [1]) = none := by
  decide +kernel

def pkt (q : Nat) : LntPkt := { pseq := q, man := false, payload := [1] }
theorem test_hyp_LanternFlowsAndDelay_acks :
    (let s := withFlow { window := [pkt 5, pkt 6], fresh := 1 }
     (s.lport 3).state = 4 ∧ (smapGet {} (s.lport 3).flows 7).waiting = [] ∧ (smapGet {} (s.lport 3).flows 7).fresh ≠ 0 ∧
     (smapGet {} (s.lport 3).flows 7).window = [pkt 5] ++ pkt 6 :: [] ∧ (∀ e ∈ [pkt 5], e.pseq ≠ 6) ∧
     (∀ k ∈ (smapGet {} (s.lport 3).flows 7).window, k.pseq ≠ 7)) ∧
    (smapGet {} ((withFlow {}).lport 3).flows 7).fresh = 0 := by decide +kernel

def mine (n : Nat) : Xfer := { xf 2 4 0 [] with srcIsland := 3, attempt := n }
theorem test_hyp_LanternFlowsAndDelay_reject :
    ((mine 1).srcIsland = (lan upL).place.islandId ∧ (mine 1).srcModule = (lan upL).place.moduleId ∧ (mine 1).attempt < 2 ∧ 2 ≤ (mine 2).attempt) ∧
    (let e : SentXfer := { x := xf 2 4 0 [], port := 3, flow := 7, lastPseq := 0 }
     let s : State := { lan upL with outer := { isl2 with sent := [e] } }
     s.outer.sent = [] ++ e :: [] ∧ (xf 2 4 0 []).srcIsland ≠ s.place.islandId ∧ (s.lport 3).state = 4 ∧ 327689 = (s.lport 3).session) := by decide +kernel

/-- A port that measures delay, its BASE 5 ms. -/
def meas (n : Nat) (b : Bool) : LntPort := { upL with echoes := [100], sampled := b, base := 5000000, rto := 6000000, shiftCount := n, shiftUp := true }
theorem test_hyp_LanternFlowsAndDelay_delay :
    ((lan {}).lport 3).measures = false ∧ ((lan (meas 0 false)).lport 3).measures = true ∧ 99 ∉ ((lan (meas 0 false)).lport 3).echoes ∧
    100 ∈ ((lan (meas 0 true)).lport 3).echoes ∧ ((lan (meas 0 true)).lport 3).sampled = true ∧ ((lan (meas 0 false)).lport 3).sampled = false ∧
    100 + 2 * 6000000 < 12000101 ∧ (12000100 : Nat) ≤ 100 + 2 * 6000000 ∧ ((5500100 : Int) - 100 - 0 - 5000000).natAbs ≤ 1000 * 500 ∧
    1000 * 500 < ((5500101 : Int) - 100 - 0 - 5000000).natAbs ∧ (meas 1 true).shiftCount + 1 < (meas 1 true).set.shiftN ∧
    (meas 1 true).set.shiftN ≤ (meas 2 true).shiftCount + 1 := by decide +kernel

end Sys2Proof.Tests
end

section
/-! PROOFS. Loading a seed into a tile's generator lanes (R55 to R57). -/

namespace Sys2Proof.Proofs

open Sys2Proof.Machine Sys2Proof.Laws

/-! ### The lanes of a seed -/

@[simp] theorem lanesOfSeed_length (seed : BitVec 64) : (lanesOfSeed seed).length = 128 := by
  simp [lanesOfSeed]

theorem lanesOfSeed_getD (seed : BitVec 64) {i : Nat} (hi : i < 128) (d : BitVec 64) :
    (lanesOfSeed seed).getD i d = laneSeed seed i := by
  simp [lanesOfSeed, List.getD_eq_getElem?_getD, List.getElem?_range hi]

/-! ### The tile after a load -/

theorem setTile_only (s : State) (n : Nat) (x : TileState) : s.setTile n x = { s with tiles := (s.setTile n x).tiles } := rfl

/-- The tile after a write of `v` to its SEED_HI that loads a seed. -/
def seededTile (t : TileState) (v : Word) : TileState := { t with seedHi := v }.loadSeed (v ++ t.seedLo)

section
variable (t : TileState) (v : Word)

@[simp] theorem seededTile_lanes : (seededTile t v).lanes = lanesOfSeed (v ++ t.seedLo) := rfl

/-- Descriptors that have started are noted with the lanes of before the load (R57). -/
theorem seededTile_seedGens : ∃ live, (seededTile t v).seedGens = t.seedGens ++ [(live, lanesOr t.lanes)] := ⟨_, rfl⟩

theorem seededTile_only :
    seededTile t v = { t with seedHi := v, lanes := (seededTile t v).lanes, seedGens := (seededTile t v).seedGens } := rfl

end

/-! ### RNG_SEED_LOAD -/

section
variable (s : State) (view : Fin 17) (tile : Fin 1024) (v : Word)

theorem exec_rngSeedLoad_of_seed_zero (hz : (v ++ (s.tile tile).seedLo : BitVec 64) = 0) :
    exec (.rngSeedLoad view tile v) s = .next s := by
  change execRngSeedLoad view tile v s = .next s
  simp [execRngSeedLoad, hz]

theorem exec_rngSeedLoad_of_seed_ne_zero (hview : s.viewHolds view (tileOffset tile 0x00C) = true)
    (hnz : (v ++ (s.tile tile).seedLo : BitVec 64) ≠ 0) :
    exec (.rngSeedLoad view tile v) s = .next (s.setTile tile (seededTile (s.tile tile) v)) := by
  change execRngSeedLoad view tile v s = _
  have hguard : (!s.viewHolds view (tileOffset tile 0x00C) || (v ++ (s.tile tile).seedLo : BitVec 64) == 0) = false := by
    simpa [hview] using hnz
  exact if_neg (Bool.eq_false_iff.mp hguard)

end

/-- Settles O40: RNG_SEED_LOAD with a seed that is not zero replaces the one tile by its `seededTile`, whose lanes are
those of the seed (R55); a zero seed is ignored (R56). -/
theorem seedLoadSetsEveryLane : Obligations.SeedLoadSetsEveryLane := by
  unfold Obligations.SeedLoadSetsEveryLane
  intro s view tile v hview seed
  refine ⟨exec_rngSeedLoad_of_seed_zero s view tile v, fun hnz =>
    ⟨_, exec_rngSeedLoad_of_seed_ne_zero s view tile v hview hnz, setTile_only .., ?_⟩⟩
  have htile : (s.setTile tile (seededTile (s.tile tile) v)).tile tile = seededTile (s.tile tile) v := by simp
  rw [htile]
  refine ⟨fun n hn => by simp [hn], seededTile_only _ v, ?length, ?lanes, seededTile_seedGens _ v⟩
  case length => rw [seededTile_lanes, lanesOfSeed_length]
  case lanes =>
    intro i hi
    rw [seededTile_lanes, lanesOfSeed_getD _ hi]
    rfl

end Sys2Proof.Proofs
end

section
/-! PROOFS. What reset, OFF, RETAIN and ZEROISE leave of the tile queues, the semaphores and the check-value units (R184, R209, R562). -/

namespace Sys2Proof.Proofs

open Sys2Proof.Machine Sys2Proof.Laws

/-! ### Reading a map whose values were changed or erased -/

/-- A change that takes one default to the other reads as the change of what was read. -/
theorem smapGet_smapMap {α β : Type} {d : α} {e : β} (f : Nat → α → β) (m : SMap α) (j : Nat) (hd : f j d = e) :
    smapGet e (smapMap f m) j = f j (smapGet d m j) := by
  rw [smapGet_eq_find, smapGet_eq_find, smapFind_smapMap]
  cases smapFind m j with
  | none => exact hd.symm
  | some x => rfl

theorem smapGet_smapErase {α : Type} (d : α) (m : SMap α) (k j : Nat) :
    smapGet d (smapErase m k) j = if j = k then d else smapGet d m j := by
  rw [smapGet_eq_find, smapGet_eq_find, smapFind_smapErase]
  split <;> rfl

/-! ### What leaves the tiles and the check-value units as they are -/

/-- The part of the state in which the tile queues, the semaphores and the check-value units lie. -/
def tilesAndUnits (s : State) : SMap TileState × SMap ChkUnit := (s.tiles, s.chk)

section
variable {t : State} {ts : SMap TileState} {cs : SMap ChkUnit}

theorem tile_of_tilesAndUnits (h : tilesAndUnits t = (ts, cs)) (n : Nat) : t.tile n = smapGet {} ts n := by
  cases h; rfl

theorem chkUnit_of_tilesAndUnits (h : tilesAndUnits t = (ts, cs)) (u : Nat) : t.chkUnit u = smapGet {} cs u := by
  cases h; rfl

/-- A tile that nothing lists has empty queues, and semaphores at 0. -/
theorem tile_idle_of_tilesAndUnits (h : tilesAndUnits t = ([], cs)) (n q i : Nat) :
    (t.tile n).queue q = {} ∧ smapGet 0 (t.tile n).sems i = 0 := by
  rw [tile_of_tilesAndUnits h]
  exact ⟨rfl, rfl⟩

end

theorem tilesAndUnits_of_onlyEvents {s t : State} (h : OnlyEvents s t) : tilesAndUnits t = tilesAndUnits s := by
  rw [h.1]; rfl

@[simp] theorem tilesAndUnits_emit (s : State) (m : OutMsg) : tilesAndUnits (s.emit m) = tilesAndUnits s := rfl

@[simp] theorem tilesAndUnits_event (s : State) (cls code part unit : Nat) (payload : List Byte) :
    tilesAndUnits (s.event cls code part unit payload) = tilesAndUnits s :=
  tilesAndUnits_of_onlyEvents (onlyEvents_event ..)

@[simp] theorem tilesAndUnits_finish (s : State) (uid status : Nat) (r : List Nat) :
    tilesAndUnits (s.finish uid status r) = tilesAndUnits s := rfl

@[simp] theorem tilesAndUnits_markPosted (s : State) (c : OutCmd) : tilesAndUnits (s.markPosted c) = tilesAndUnits s := by
  unfold State.markPosted
  split <;> rfl

theorem tilesAndUnits_ringWrite (s : State) (m : Memory) (ring : Nat) (g : CRing → CRing) :
    tilesAndUnits (State.modCring { s with hostMem := m } ring g) = tilesAndUnits s := rfl

/-- Posting a completion reaches host memory, its ring and the commands in hand (R485). -/
@[simp] theorem tilesAndUnits_postOne (s : State) (q : Fin 64) : tilesAndUnits (s.postOne q) = tilesAndUnits s := by
  unfold State.postOne
  dsimp only
  split
  · rfl
  · split
    · rfl
    · split
      · rw [tilesAndUnits_emit, tilesAndUnits_markPosted, tilesAndUnits_ringWrite]
      · rw [tilesAndUnits_markPosted, tilesAndUnits_ringWrite]

@[simp] theorem tilesAndUnits_postReady (s : State) : tilesAndUnits s.postReady = tilesAndUnits s :=
  forAll_same tilesAndUnits _ _ (fun t (c : OutCmd) => tilesAndUnits_postOne t c.hdr.queue) s

@[simp] theorem tilesAndUnits_startBoot (s : State) : tilesAndUnits s.startBoot = tilesAndUnits s :=
  (tilesAndUnits_of_onlyEvents (onlyEvents_post _ { cls := .ring, msg := some (.irq 0) })).trans rfl

@[simp] theorem tilesAndUnits_modGroup (s : State) (f gid : Nat) (g : Group → Group) : tilesAndUnits (s.modGroup f gid g) = tilesAndUnits s := by
  rw [modGroup_only]; rfl

/-- A cut transfer reaches an outer group, the outer state or the outbox (R413, R417). -/
@[simp] theorem tilesAndUnits_cutTransfer (s : State) (x : Xfer) : tilesAndUnits (s.cutTransfer x) = tilesAndUnits s := by
  unfold State.cutTransfer State.transferDark
  split
  · split
    · exact tilesAndUnits_modGroup ..
    · split <;> rfl
  · rfl

@[simp] theorem tilesAndUnits_dropSession (s : State) (p : Nat) : tilesAndUnits (s.dropSession p) = tilesAndUnits s := by
  unfold State.dropSession
  dsimp only
  split
  · rfl
  · exact forAll_same tilesAndUnits _ _ (fun t (x : SentXfer) => tilesAndUnits_cutTransfer t x.x) _

/-- The one step of closing a lantern port that is not a plain update is the end of its session (R389). -/
@[simp] theorem tilesAndUnits_closeLports (s : State) (pid : Nat) : tilesAndUnits (s.closeLports pid) = tilesAndUnits s := by
  refine forAll_same tilesAndUnits _ _ (fun t p => ?_) s
  have hdrop : tilesAndUnits (if (t.lport p).live then (t.emit (.lntClose p (t.lport p).session)).dropSession p else t) = tilesAndUnits t := by
    split
    · exact tilesAndUnits_dropSession ..
    · rfl
  dsimp only
  rw [← hdrop]
  split <;> rfl

/-! ### What the transitions leave of them -/

@[simp] theorem tilesAndUnits_afterReset (s : State) : tilesAndUnits s.afterReset = ([], []) := rfl
@[simp] theorem tilesAndUnits_afterOff (s : State) : tilesAndUnits s.afterOff = ([], []) := rfl
@[simp] theorem tilesAndUnits_afterRetain (s : State) : tilesAndUnits s.afterRetain = ([], s.chk) := rfl

/-! ### ZEROISE -/

/-- A tile's queues lose what they hold and go on counting (R184). -/
theorem queue_tileZeroise (x : TileState) (q : Nat) : x.zeroise.queue q = { nextSeq := (x.queue q).nextSeq } := by
  unfold TileState.queue TileState.zeroise
  dsimp only
  exact smapGet_smapMap (d := ({} : TileQueue)) _ _ _ rfl

section
variable (s : State) (pid : Nat)

/-- What ZEROISE does to a tile id's tile. -/
def zeroisedTile (t : Nat) (x : TileState) : TileState := if (s.part pid).fields.contains (t / 16) then x.zeroise else x

/-- Of what ZEROISE does to lantern ports, commands and the partition's phase, nothing reaches a tile or a unit. -/
theorem tilesAndUnits_zeroise :
    tilesAndUnits (s.zeroise pid) = (smapMap (zeroisedTile s pid) s.tiles, smapErase s.chk (pid + 1)) := by
  have hclose := tilesAndUnits_closeLports ((s.shutterPhase pid 5).finishAll (fun c => c.ofPart pid) stAbShutter) pid
  obtain ⟨htiles, hchk⟩ := Prod.mk.inj hclose
  have hcleared := congrArg₂ (fun ts cs => (smapMap (zeroisedTile s pid) ts, smapErase cs (pid + 1))) htiles hchk
  unfold State.zeroise
  dsimp only
  split <;> exact hcleared

theorem zeroise_tile_of_mem {n : Nat} (hn : n / 16 ∈ (s.part pid).fields) : (s.zeroise pid).tile n = (s.tile n).zeroise := by
  have hblank : zeroisedTile s pid n {} = {} := ite_self _
  rw [tile_of_tilesAndUnits (tilesAndUnits_zeroise s pid), smapGet_smapMap _ _ _ hblank]
  exact if_pos (List.contains_iff_mem.mpr hn)

theorem zeroise_chkUnit (u : Nat) : (s.zeroise pid).chkUnit u = if u = pid + 1 then {} else s.chkUnit u :=
  (chkUnit_of_tilesAndUnits (tilesAndUnits_zeroise s pid) u).trans (smapGet_smapErase ..)

end

/-! ### The rows -/

theorem exec_reset_of_pgCtl {s : State} (h : s.power.pgCtl = true) : exec .reset s = .next s.afterReset.startBoot := if_pos h

/-- POWER_STATE_REACHED with RETAIN requested leaves the tiles and units that RETAIN leaves. -/
theorem exec_powerStateReached_retain {s : State} {uid : Nat} (h : s.power.req = some (3, uid)) :
    ∃ t, exec .powerStateReached s = .next t ∧ tilesAndUnits t = tilesAndUnits s.afterRetain := by
  change ∃ t, execPowerStateReached s = .next t ∧ _
  unfold execPowerStateReached
  rw [h]
  refine ⟨_, rfl, ?_⟩
  rw [tilesAndUnits_event, tilesAndUnits_postReady, tilesAndUnits_finish]
  rfl

theorem exec_powerStateReached_total (s : State) : ∃ t, exec .powerStateReached s = .next t := by
  change ∃ t, execPowerStateReached s = .next t
  unfold execPowerStateReached
  split <;> exact ⟨_, rfl⟩

section
variable {s : State} {pid : Fin 16} {j : ShutterJob}

theorem exec_shutterExportDone_of_done (feed : Feed) (hj : smapFind s.shutters pid.val = some j) (hphase : (s.part pid.val).phase = 4)
    (hdone : s.flowsDone j.uid = true) :
    ∃ fin bytes ff cut fail, exec (.shutterExportDone pid feed) s = .next (s.exportEnd pid j fin bytes ff cut fail) := by
  change ∃ fin bytes ff cut fail, execShutterExportDone pid feed s = _
  simp only [execShutterExportDone, hj, hphase, hdone]
  exact ⟨_, _, _, _, _, rfl⟩

theorem exec_exportCutTimer_of_cut (bytes : Nat) {n : Nat} (hj : smapFind s.shutters pid.val = some j) (hphase : (s.part pid.val).phase = 4)
    (hcut : j.p.cut = 1) (hn : n < j.p.entries.length) :
    ∃ fin bytes' ff cut fail, exec (.exportCutTimer pid n bytes) s = .next (s.exportEnd pid j fin bytes' ff cut fail) := by
  change ∃ fin bytes' ff cut fail, execExportCutTimer pid n bytes s = _
  simp only [execExportCutTimer, hj, hphase, hcut, Nat.not_le.mpr hn]
  exact ⟨_, _, _, _, _, rfl⟩

end

/-- Settles O47: RESET, OFF and RETAIN leave no tile listed, so that each reads as the blank tile; ZEROISE replaces each tile of the
partition by its `TileState.zeroise`, and takes out the partition's own unit alone. -/
theorem resetsEmptyQueuesAndUnits : Obligations.ResetsEmptyQueuesAndUnits := by
  unfold Obligations.ResetsEmptyQueuesAndUnits
  refine ⟨?resetAndOff, ?retain, ?zeroise, ?total⟩
  case resetAndOff =>
    intro s t hrow
    have hblank : tilesAndUnits t = ([], []) := by
      rcases hrow with ⟨hnext, hgood⟩ | hnext
      · rw [exec_reset_of_pgCtl hgood] at hnext
        cases hnext
        rw [tilesAndUnits_startBoot, tilesAndUnits_afterReset]
      · cases hnext
        exact tilesAndUnits_afterOff s
    refine ⟨tile_idle_of_tilesAndUnits hblank, fun u => ?_⟩
    have hunit : t.chkUnit u = {} := chkUnit_of_tilesAndUnits hblank u
    rw [hunit]
    exact ⟨rfl, rfl, rfl⟩
  case retain =>
    intro s t uid hreq hnext
    obtain ⟨t', hrow, hleft⟩ := exec_powerStateReached_retain hreq
    cases hrow.symm.trans hnext
    exact ⟨tile_idle_of_tilesAndUnits hleft, chkUnit_of_tilesAndUnits hleft⟩
  case zeroise =>
    intro s t pid j feed n b ev hj hphase hev hnext
    have hend : ∃ fin bytes ff cut fail, exec ev s = .next (s.exportEnd pid j fin bytes ff cut fail) := by
      rcases hev with ⟨rfl, hdone⟩ | ⟨rfl, hcut, hn⟩
      · exact exec_shutterExportDone_of_done feed hj hphase hdone
      · exact exec_exportCutTimer_of_cut b hj hphase hcut hn
    obtain ⟨fin, bytes, ff, cut, fail, hrow⟩ := hend
    cases hrow.symm.trans hnext
    refine ⟨fun k q i hk => ?_, zeroise_chkUnit _ _⟩
    have htile : (s.exportEnd pid j fin bytes ff cut fail).tile k = (s.tile k).zeroise := zeroise_tile_of_mem _ _ hk
    rw [htile]
    exact ⟨queue_tileZeroise .., rfl⟩
  case total =>
    exact fun s => ⟨fun hgood => ⟨_, exec_reset_of_pgCtl hgood⟩, ⟨_, rfl⟩, exec_powerStateReached_total s⟩

end Sys2Proof.Proofs
end

section
/-! PROOFS. Registers that a partition's view does not hold (R451). -/

namespace Sys2Proof.Proofs

open Sys2Proof.Machine Sys2Proof.Laws

section
variable {s : State} {view : Fin 17} (v : Word)

/-! ### Reads and writes of a register outside the view -/

theorem readReg_of_not_held {o : Nat} (h : s.viewHolds view o = false) : s.readReg view o = 0 := by
  simp [State.readReg, h]

theorem exec_registerWrite_of_not_held {o : Nat} (h : s.viewHolds view o = false) : exec (.registerWrite view o v) s = .next s :=
  if_pos (by simp [h])

/-- Each row of a check-value unit writes by `chkWrite`. -/
theorem chkWrite_of_not_held {u o : Nat} (h : s.viewHolds view (chkOffset u o) = false) : s.chkWrite view u o v = s :=
  if_neg (by simp [h])

/-! ### The doorbells and the setup of queue 0 -/

theorem exec_sqDoorbell_of_not_held {q : Fin 64} (h : s.viewHolds view (0x10200 + 4 * q) = false) :
    exec (.sqDoorbell view q v) s = .next s :=
  if_pos (by simp [h])

theorem exec_cqDoorbell_of_not_held {c : Fin 64} (h : s.viewHolds view (0x10300 + 4 * c) = false) :
    exec (.cqDoorbell view c v) s = .next s :=
  if_neg (by simp [h])

theorem exec_eqDoorbell_of_not_held {e : Fin 17} (h : s.viewHolds view (0x10500 + 4 * e) = false) :
    exec (.eqDoorbell view e v) s = .next s :=
  if_pos (by simp [h])

theorem exec_q0SetupWrite_of_not_held {r : Fin 5} (h : s.viewHolds view (0x10010 + 4 * r) = false) :
    exec (.q0SetupWrite view r v) s = .next s :=
  if_pos (by simp [h])

/-! ### The registers of a tile, a field and the module -/

theorem exec_rngSeedLoad_of_not_held {t : Fin 1024} (h : s.viewHolds view (tileOffset t 0x00C) = false) :
    exec (.rngSeedLoad view t v) s = .next s :=
  if_pos (by simp [h])

theorem exec_fflRearm_tile_of_not_held {t : Fin 1024} (h : s.viewHolds view (tileOffset t 0x000) = false) :
    exec (.fflRearm view (.tile t) v) s = .next s :=
  if_neg (by simp [h])

theorem exec_fflRearm_field_of_not_held {f : Fin 64} (h : s.viewHolds view (fieldOffset f 0x0004) = false) :
    exec (.fflRearm view (.field f) v) s = .next s :=
  if_neg (by simp [h])

theorem exec_clrViol_of_not_held (h : s.viewHolds view 0x03C = false) : exec (.clrViol view v) s = .next s :=
  if_neg (by simp [h])

/-- No partition's view holds the SEC block, so that IMAGE_PUSH acts from the privileged view alone (R522). -/
theorem exec_imagePush_of_partition (hview : view.val < 16) : exec (.imagePush view v) s = .next s :=
  if_neg (by simp [hview.ne])

/-! ### The rows that read -/

theorem exec_chkResultRead_of_not_held {u : Fin 65} {hi : Bool}
    (h : s.viewHolds view (chkOffset u (if hi then 0x44 else 0x40)) = false) :
    exec (.chkResultRead view u hi) s = .next (s.tell .register (.regRead view (chkOffset u (if hi then 0x44 else 0x40)) 0)) :=
  if_pos (by simp [h])

theorem exec_bcnPosRead_of_not_held (h : s.viewHolds view 0x20000 = false) :
    exec (.bcnPosRead view) s = .next (s.tell .register (.regRead view 0x20000 0)) :=
  if_neg (by simp [h])

end

/-- Settles O39: every row that names a register first asks whether its view holds it; the rows of the check-value units ask in
`chkWrite`, and IMAGE_PUSH asks for the privileged view itself. -/
theorem unheldRegistersReadZeroAndIgnoreWrites : Obligations.UnheldRegistersReadZeroAndIgnoreWrites := by
  unfold Obligations.UnheldRegistersReadZeroAndIgnoreWrites
  intro s view v hview
  have hchk : ∀ u o, s.viewHolds view (chkOffset u o) = false →
      (.next (s.chkWrite view u o v) : Host.Outcome State Fault Refusal) = .next s :=
    fun u o h => congrArg _ (chkWrite_of_not_held v h)
  refine ⟨fun o h => ⟨readReg_of_not_held h, exec_registerWrite_of_not_held v h⟩,
    fun _ => exec_sqDoorbell_of_not_held v, fun _ => exec_cqDoorbell_of_not_held v, fun _ => exec_eqDoorbell_of_not_held v,
    fun _ => exec_q0SetupWrite_of_not_held v, fun _ => exec_rngSeedLoad_of_not_held v, fun _ => exec_fflRearm_tile_of_not_held v,
    fun _ => exec_fflRearm_field_of_not_held v, exec_clrViol_of_not_held v, fun _ => exec_imagePush_of_partition v hview,
    fun u => ?checkValueUnit, exec_bcnPosRead_of_not_held⟩
  case checkValueUnit =>
    exact ⟨hchk u 0x00, fun r => hchk u (0x10 + 4 * r), hchk u 0x04, hchk u 0x30, hchk u 0x34, hchk u 0x38,
      fun _ => exec_chkResultRead_of_not_held⟩

end Sys2Proof.Proofs
end

section
/-! PROOFS. The handover of a partition, and the end of its deletion (R463, R466). -/

namespace Sys2Proof.Proofs

open Sys2Proof.Machine Sys2Proof.Laws

/-! ### Updates at several keys -/

/-- Each of several keys, none named twice, reads as updated once. -/
theorem smapGet_smapModifyAll {α : Type} (d : α) (m : SMap α) {ks : List Nat} (hks : ks.Nodup) (f : Nat → α → α) (i : Nat) :
    smapGet d (smapModifyAll d m ks f) i = if i ∈ ks then f i (smapGet d m i) else smapGet d m i := by
  unfold smapModifyAll
  induction ks generalizing m with
  | nil => rfl
  | cons k ks ih =>
    obtain ⟨hk, hks⟩ := List.nodup_cons.mp hks
    rw [List.foldl_cons, ih _ hks, smapGet_smapModify]
    by_cases hi : i = k
    · subst hi; simp [hk]
    · simp [hi]

theorem nodup_onesBelow (k n : Nat) : (onesBelow k n).Nodup := List.nodup_range.filter _

theorem mem_onesBelow {k i : Nat} (n : Nat) (hi : i < k) : i ∈ onesBelow k n ↔ n.testBit i = true := by simp [onesBelow, hi]

theorem forAll_modQueue (s : State) (ks : List Nat) (g : CmdQueue → CmdQueue) :
    s.forAll ks (fun s q => s.modQueue q g) = s.modHost (fun h => { h with queues := smapModifyAll {} h.queues ks (fun _ => g) }) := by
  unfold State.forAll
  induction ks generalizing s with
  | nil => rfl
  | cons k ks ih => rw [List.foldl_cons, ih]; rfl

theorem forAll_modLport (s : State) (ks : List Nat) (g : LntPort → LntPort) :
    s.forAll ks (fun s p => s.modLport p g) = { s with lnt := smapModifyAll {} s.lnt ks (fun _ => g) } := by
  unfold State.forAll
  induction ks generalizing s with
  | nil => rfl
  | cons k ks ih => rw [List.foldl_cons, ih]; rfl

/-! ### The completion of one command -/

/-- A change of the command with one number leaves the others as they are. -/
theorem map_uid_split {cs ds : List OutCmd} {c : OutCmd} {uid : Nat} (g : OutCmd → OutCmd) (hc : c.uid = uid)
    (hothers : ∀ x ∈ cs ++ ds, x.uid ≠ uid) :
    (cs ++ c :: ds).map (fun x => if x.uid == uid then g x else x) = cs ++ g c :: ds := by
  have hsame : ∀ xs : List OutCmd, (∀ x ∈ xs, x.uid ≠ uid) → xs.map (fun x => if x.uid == uid then g x else x) = xs :=
    fun xs hxs => (List.map_congr_left fun x hx => if_neg (by simpa using hxs x hx)).trans (List.map_id xs)
  rw [List.map_append, List.map_cons, hsame cs (fun x hx => hothers x (by simp [hx])), hsame ds (fun x hx => hothers x (by simp [hx])),
    if_pos (by simp [hc])]

/-- A running command that no replay repeats, no drain holds and no choice answers completes with the status and the words given. -/
theorem finish_of_running {c : OutCmd} (st : Nat) (r : List Nat) (hrun : c.phase = .running) (hreplayed : c.replayed = false)
    (hdrained : c.drained = false) (hchosen : c.chosen = none) :
    c.finish st r = { c with phase := .done, status := st, r0 := r.getD 0 0, r1 := r.getD 1 0, r2 := r.getD 2 0, r3 := r.getD 3 0 } := by
  simp [OutCmd.finish, hrun, hreplayed, hdrained, hchosen]

/-! ### HANDOVER (R463) -/

/-- A queue after its partition's queues have been unbound. -/
def unboundFrom (pid : Nat) (q : CmdQueue) : CmdQueue := if q.view == pid then { q with view := 17 } else q

/-- The queues once the partition's are unbound and those of `mask` are bound to it. -/
def reboundQueues (qs : SMap CmdQueue) (pid mask : Nat) : SMap CmdQueue :=
  smapModifyAll {} (smapMap (fun _ => unboundFrom pid) qs) (onesBelow 64 mask) (fun _ q => { q with view := pid })

theorem smapGet_reboundQueues (qs : SMap CmdQueue) (pid mask : Nat) {q : Nat} (hq : q < 64) :
    smapGet {} (reboundQueues qs pid mask) q = { smapGet ({} : CmdQueue) qs q with
      view := if mask.testBit q = true then pid else if (smapGet ({} : CmdQueue) qs q).view = pid then 17 else (smapGet ({} : CmdQueue) qs q).view } := by
  have hunbound : smapGet {} (smapMap (fun _ => unboundFrom pid) qs) q = unboundFrom pid (smapGet {} qs q) :=
    smapGet_smapMap (fun _ => unboundFrom pid) qs q (ite_self _)
  rw [reboundQueues, smapGet_smapModifyAll _ _ (nodup_onesBelow ..), hunbound]
  simp only [mem_onesBelow mask hq, unboundFrom, beq_iff_eq]
  split <;> split <;> rfl

section
variable (s : State) (pid : Nat) (j : ShutterJob)

/-- The partition after its handover. -/
def handedOver (x : Partition) : Partition :=
  { x with train := false, profile := j.p.nextProfile, pendProfile := none, cause := 0, state := 1, phase := 0, cutSeen := x.cutSeen || j.cut }

/-- The status with which a shutter's command completes (R465, R469). -/
def shutterStatus : Nat := if j.cut then stCut else if j.fail then stTarget else stDone

theorem handover_eq :
    s.handover pid j = State.event (State.postReady { s with
      parts := smapSet s.parts pid (handedOver j (s.part pid)),
      host := { s.host with
        queues := reboundQueues s.host.queues pid j.p.qbind,
        cmds := s.host.cmds.map (fun c => if c.uid == j.uid then
          c.finish (shutterStatus j) [j.bytes / 2 ^ 20, j.finished, j.ffBytes / 2 ^ 20] else c) } })
      11 1 pid 0 (leBytes 1 (b2n j.cut)) := by
  unfold State.handover
  dsimp only
  rw [forAll_modQueue]
  rfl

/-! ### The end of a deletion (R364, R466) -/

/-- A lantern port without settings. -/
def unconfigured (x : LntPort) : LntPort := { x with configured := false, set := {}, pend := {} }

theorem freePart_eq :
    s.freePart pid j = { s with
      lnt := smapModifyAll {} s.lnt (onesBelow 4 (s.part pid).lports) (fun _ => unconfigured), parts := smapSet s.parts pid {},
      host := { s.host with cmds := s.host.cmds.map (fun c => if c.uid == j.uid then c.finish stDone [0, 0, 0] else c) } } := by
  unfold State.freePart
  rw [forAll_modLport]
  rfl

theorem lport_unconfigured {q : Nat} (hq : q < 4) :
    smapGet {} (smapModifyAll {} s.lnt (onesBelow 4 (s.part pid).lports) (fun _ => unconfigured)) q =
      if (s.part pid).lports.testBit q = true then unconfigured (s.lport q) else s.lport q := by
  rw [smapGet_smapModifyAll _ _ (nodup_onesBelow ..)]
  simp only [mem_onesBelow _ hq]
  rfl

end

/-! ### The row -/

theorem exec_shutterZeroiseDone {s : State} {pid : Fin 16} {j : ShutterJob} (hj : smapFind s.shutters pid.val = some j)
    (hphase : (s.part pid.val).phase = 5) :
    exec (.shutterZeroiseDone pid) s = .next (if j.del then State.freePart { s with shutters := smapErase s.shutters pid.val } pid j
      else State.handover { s with shutters := smapErase s.shutters pid.val } pid j) := by
  change execShutterZeroiseDone pid s = _
  simp [execShutterZeroiseDone, hj, hphase]

/-- Settles O30: the handover rebinds the queues, renews the partition and completes the shutter's command before the completions
are posted and the event follows; a deletion blanks the lantern ports and frees the slot. -/
theorem handoverAfterZeroise : Obligations.HandoverAfterZeroise := by
  unfold Obligations.HandoverAfterZeroise
  intro s pid j cs ds c hj hphase hcmds huid hothers hrun hreplayed hdrained hchosen
  have hfinish : ∀ st r, s.host.cmds.map (fun x => if x.uid == j.uid then x.finish st r else x) =
      cs ++ { c with phase := .done, status := st, r0 := r.getD 0 0, r1 := r.getD 1 0, r2 := r.getD 2 0, r3 := r.getD 3 0 } :: ds := by
    intro st r
    rw [hcmds, map_uid_split _ huid hothers, finish_of_running st r hrun hreplayed hdrained hchosen]
  have hpart : ∀ x q, smapGet {} (smapSet s.parts pid.val x) q = if q = pid.val then x else s.part q :=
    fun x q => smapGet_smapSet ..
  rw [exec_shutterZeroiseDone hj hphase]
  refine ⟨fun hdel => ?handover, fun hdel => ?delete⟩
  case handover =>
    rw [if_neg (by simp [hdel]), handover_eq, hfinish]
    exact ⟨reboundQueues s.host.queues pid j.p.qbind, smapSet s.parts pid (handedOver j (s.part pid)), rfl,
      fun q hq => smapGet_reboundQueues s.host.queues pid j.p.qbind hq, (hpart _ _).trans (if_pos rfl),
      fun q hq => (hpart _ q).trans (if_neg hq)⟩
  case delete =>
    rw [if_pos hdel, freePart_eq, hfinish]
    exact ⟨_, rfl, rfl, fun q hq => lport_unconfigured s pid hq, (hpart _ _).trans (if_pos rfl),
      fun q hq => (hpart _ q).trans (if_neg hq), rfl⟩

end Sys2Proof.Proofs
end

section
/-! PROOFS. A violation completes as DONE with no effect (R450). -/

namespace Sys2Proof.Proofs

open Sys2Proof.Machine Sys2Proof.Laws

/-! ### The place of a command's own checks in the order of R483 -/

/-- Whether every check of a list comes after check 3, the place of a violation. A list without conditions computes to `true`, whatever
its checks test. -/
def afterViolation (cs : List Check) : Bool := cs.all (fun c => 3 < c.order)

@[simp] theorem afterViolation_append (cs ds : List Check) : afterViolation (cs ++ ds) = (afterViolation cs && afterViolation ds) :=
  List.all_append

@[simp] theorem afterViolation_withDidx (cs : List Check) (i : Nat) :
    afterViolation (cs.map (fun c => { c with didx := i })) = afterViolation cs :=
  List.all_map

theorem afterViolation_map {α : Type} {f : α → Check} (hf : ∀ x, 3 < (f x).order) (xs : List α) : afterViolation (xs.map f) = true := by
  simp [afterViolation, hf]

theorem afterViolation_flatMap {α : Type} {f : α → List Check} (hf : ∀ x, afterViolation (f x) = true) (xs : List α) :
    afterViolation (xs.flatMap f) = true := by
  simp only [afterViolation, List.all_flatMap, List.all_eq_true] at hf ⊢
  exact fun x _ => hf x

section
variable (s : State) (part : Nat)

theorem afterViolation_endChecks (kind a n ik ia : Nat) : afterViolation (s.endChecks part kind a n ik ia) = true := by
  unfold State.endChecks
  split <;> rfl

theorem afterViolation_exportChecks (off : Nat → Nat) (i : Nat) (e : ExportE) : afterViolation (s.exportChecks part off i e) = true := by
  unfold State.exportChecks
  dsimp only
  rw [afterViolation_withDidx]
  split <;> rfl

theorem afterViolation_checksActReg (p : ActP) : afterViolation (checksActReg s part p) = true := by
  unfold checksActReg
  dsimp only
  split <;> rfl

theorem afterViolation_checksTileProgram (h : Hdr) (p : TileProgramP) : afterViolation (checksTileProgram s h part p) = true := by
  unfold checksTileProgram
  simp only [afterViolation_append, Bool.and_eq_true]
  exact ⟨⟨rfl, afterViolation_flatMap (fun _ => rfl) _⟩, afterViolation_flatMap (fun _ => rfl) _⟩

theorem afterViolation_checksMarkTable (items : List MarkItem) : afterViolation (checksMarkTable items) = true := by
  unfold checksMarkTable
  refine afterViolation_flatMap (fun x => ?_) _
  dsimp only
  split
  · rfl
  · split <;> rfl

theorem afterViolation_checksFedRecord (p : FedP) : afterViolation (checksFedRecord s p) = true := by
  unfold checksFedRecord
  dsimp only
  rw [afterViolation_append, afterViolation_flatMap (fun _ => rfl)]
  rfl

theorem afterViolation_checksOuterReg (p : OuterP) : afterViolation (checksOuterReg s part p) = true := by
  unfold checksOuterReg
  dsimp only
  split <;> rfl

theorem afterViolation_checksRouteTable (items : List RouteE) : afterViolation (checksRouteTable s items) = true := by
  unfold checksRouteTable
  dsimp only
  refine afterViolation_flatMap (fun e => ?_) _
  exact afterViolation_flatMap (fun _ => rfl) _

theorem afterViolation_ruleChecks (g : GroupP) : afterViolation (s.ruleChecks g) = true := by
  unfold State.ruleChecks
  simp only [afterViolation_append, Bool.and_eq_true]
  refine ⟨⟨⟨⟨rfl, ?_⟩, ?_⟩, ?_⟩, ?_⟩ <;> split <;> rfl

theorem afterViolation_tierChecks (g : GroupP) : afterViolation (s.tierChecks g) = true := by
  unfold State.tierChecks
  dsimp only
  split <;> rfl

theorem afterViolation_checksPgroupReg (g : GroupP) : afterViolation (checksPgroupReg s part g) = true := by
  unfold checksPgroupReg
  simp only [afterViolation_append, Bool.and_eq_true]
  exact ⟨⟨⟨⟨rfl, afterViolation_map (fun _ => by simp) _⟩, afterViolation_map (fun _ => by simp) _⟩, afterViolation_ruleChecks s g⟩,
    afterViolation_tierChecks s g⟩

/-- The checks of a command's parameters come after check 3: those of most commands are a fixed list. -/
theorem afterViolation_bodyChecks (view : Nat) (h : Hdr) (b : Body) : afterViolation (s.bodyChecks view h part b) = true := by
  cases b
  case shutter p => exact afterViolation_flatMap (fun _ => afterViolation_exportChecks ..) _
  case heirWindow opn p =>
    change afterViolation (checksHeir s opn p) = true
    unfold checksHeir
    dsimp only
    split <;> rfl
  case bulkMove p =>
    change afterViolation (checksBulk s part p) = true
    simp only [checksBulk, afterViolation_append, afterViolation_endChecks]
    rfl
  case actReg p => exact afterViolation_checksActReg ..
  case tileProgram p => exact afterViolation_checksTileProgram ..
  case markTable items => exact afterViolation_checksMarkTable ..
  case cgroupReg id ms => exact afterViolation_map (fun _ => by simp) _
  case fedRecord p => exact afterViolation_checksFedRecord ..
  case outerReg p => exact afterViolation_checksOuterReg ..
  case routeTable items => exact afterViolation_checksRouteTable ..
  case pgroupReg p => exact afterViolation_checksPgroupReg ..
  case ckptExport p =>
    change afterViolation (checksCkpt s part p) = true
    exact afterViolation_exportChecks ..
  all_goals rfl

end

/-! ### A register value as a sum of its fields -/

theorem packBits_nil : packBits [] = 0 := rfl

theorem packBits_cons (i v : Nat) (fs : List (Nat × Nat)) : packBits ((i, v) :: fs) = v * 2 ^ i + packBits fs := by
  have hacc : ∀ a, fs.foldl (fun a f => a + f.2 * 2 ^ f.1) a = a + packBits fs := by
    unfold packBits
    induction fs with
    | nil => exact fun _ => rfl
    | cons f fs ih =>
      intro a
      rw [List.foldl_cons, List.foldl_cons, ih, ih (0 + _)]
      omega
  have hfirst : packBits ((i, v) :: fs) = 0 + v * 2 ^ i + packBits fs := hacc _
  rw [hfirst, Nat.zero_add]

/-! ### The submission of a violation -/

section
variable {s : State} {h : Hdr} {b : Body}

theorem filter_early_bodyChecks (view part : Nat) : (s.bodyChecks view h part b).filter (fun c => c.order ≤ 2) = [] := by
  have hafter := afterViolation_bodyChecks s part view h b
  simp only [afterViolation, List.all_eq_true, decide_eq_true_eq] at hafter
  rw [List.filter_eq_nil_iff]
  intro c hc
  have hlate : 3 < c.order := hafter c hc
  simp only [decide_eq_true_eq]
  omega

/-- Of the checks that come before a violation, a command that has been read meets the one of PART alone. -/
theorem filter_early_allChecks :
    (s.allChecks h b []).filter (fun c => c.order ≤ 2) = [{ order := 1, ok := h.part ≤ 16, status := stValue, off := 5 }] := by
  unfold State.allChecks
  rw [List.filter_append, filter_early_bodyChecks]
  rfl

/-- On a partition's queue a privileged opcode, or the PART of another, is a violation with cause 0 or 1. -/
theorem exists_violation {view : Nat} (hview : view < 16) (hbad : opPriv (opcodeOf b) = true ∨ h.part ≠ view) :
    ∃ cause < 2, s.violation view h b = some cause := by
  unfold State.violation
  dsimp only
  rw [if_neg (Nat.not_le.mpr hview)]
  split
  case isTrue => exact ⟨0, by decide, rfl⟩
  case isFalse hpriv =>
    have hforeign : h.part ≠ view := hbad.resolve_left fun hp => hpriv (by simp [hp])
    exact ⟨1, by decide, if_pos (by simp [hforeign])⟩

theorem submit_of_violation (feed : Feed) {cause : Nat} (hopen : s.queueOpen h.queue = true) (hpart : h.part ≤ 16)
    (hviol : s.violation (s.cmdQueue h.queue).view h b = some cause) :
    s.submit h b feed = (s.countViolation h.queue (s.cmdQueue h.queue).view cause (opcodeOf b)).addCmd
      { s.newCmd h b with phase := .done, status := stDone, slot := s.ringFree h.queue } := by
  have hearly : firstFail ((s.allChecks h b []).filter (fun c => c.order ≤ 2)) = none := by
    rw [filter_early_allChecks, firstFail_none]
    simpa using hpart
  simp only [State.submit, hopen, if_true, State.submitWith, hearly, hviol]

/-- VIOL_COUNT stops at its end, and the fields of MOD_VIOL_LAST make one sum (R526). -/
theorem countViolation_eq (q view cause op : Nat) :
    s.countViolation q view cause op = { s with mods := { s.mods with
      violCount := min (s.mods.violCount + 1) (2 ^ 32 - 1),
      violLast := BitVec.ofNat 32 (q + view * 2 ^ 6 + cause * 2 ^ 11 + 2 ^ 15 + op * 2 ^ 16) } } := by
  have hfields : packBits [(0, q), (6, view), (11, cause), (15, 1), (16, op)] =
      q + view * 2 ^ 6 + cause * 2 ^ 11 + 2 ^ 15 + op * 2 ^ 16 := by
    rw [packBits_cons, packBits_cons, packBits_cons, packBits_cons, packBits_cons, packBits_nil]
    omega
  rw [State.countViolation, hfields, satAdd]

end

/-- Settles O6: the command passes the checks before check 3, which then finds the violation, counts it and answers DONE. -/
theorem violationCompletesWithNoEffect : Obligations.ViolationCompletesWithNoEffect := by
  unfold Obligations.ViolationCompletesWithNoEffect
  refine ⟨?effect, by decide, by decide, by decide⟩
  case effect =>
    intro s h b feed hopen hview hpart hbad
    obtain ⟨cause, hcause, hviol⟩ := exists_violation (s := s) hview hbad
    refine ⟨{ s.newCmd h b with phase := .done, status := stDone, slot := s.ringFree h.queue }, cause, hcause, rfl, rfl, rfl, rfl, ?_⟩
    rw [submit_of_violation feed hopen hpart hviol, countViolation_eq]
    rfl

end Sys2Proof.Proofs
end

section
/-! PROOFS. A command that a check refuses (R483, R484). -/

namespace Sys2Proof.Proofs

open Sys2Proof.Machine Sys2Proof.Laws

section
variable {s : State} {h : Hdr} {b : Body} {k : Check}

/-- A check that fails before check 3 is the one that decides among them all. -/
theorem firstFail_allChecks_of_early {early : Check} (hearly : firstFail ((s.allChecks h b []).filter (fun c => c.order ≤ 2)) = some early)
    (hfail : firstFail (s.allChecks h b []) = some k) : early = k := by
  obtain ⟨hmem, hbad, -⟩ := firstFail_spec _ _ hearly
  obtain ⟨hkmem, -, hleast⟩ := firstFail_spec _ _ hfail
  obtain ⟨hall, horder⟩ := List.mem_filter.mp hmem
  have hkorder : k.order ≤ 2 := (hleast early hall hbad).trans (of_decide_eq_true horder)
  have hkearly : k ∈ (s.allChecks h b []).filter (fun c => c.order ≤ 2) := List.mem_filter.mpr ⟨hkmem, decide_eq_true hkorder⟩
  rw [filter_early_allChecks, List.mem_singleton] at hmem hkearly
  rw [hmem, hkearly]

/-- A command that is no violation is rejected with the check that decides, whether it comes before check 3 or after. -/
theorem submit_of_failed_check (feed : Feed) (hopen : s.queueOpen h.queue = true) (hviol : s.violation (s.cmdQueue h.queue).view h b = none)
    (hfail : firstFail (s.allChecks h b []) = some k) : s.submit h b feed = s.reject (s.newCmd h b) k := by
  simp only [State.submit, hopen, if_true, State.submitWith, hviol, hfail]
  cases hearly : firstFail ((s.allChecks h b []).filter (fun c => c.order ≤ 2)) with
  | none => rfl
  | some early => rw [firstFail_allChecks_of_early hearly hfail]

/-- A rejection adds the command's completed entry to those in hand and changes nothing else (R484). -/
theorem reject_newCmd_only : ∃ c : OutCmd,
    s.reject (s.newCmd h b) k = { s with host := { s.host with cmds := s.host.cmds ++ [c], nextUid := s.host.nextUid + 1 } } ∧
    c.hdr = h ∧ c.body = b ∧ c.phase = .done ∧ c.status = k.status ∧ c.detail = detailOf k.off k.didx :=
  ⟨_, rfl, rfl, rfl, rfl, rfl, rfl⟩

end

/-- Settles O5: the check that decides is a failing one that no failing check precedes, and the rejection with it adds the completed
entry alone. -/
theorem rejectedCommandDoesNothing : Obligations.RejectedCommandDoesNothing := by
  unfold Obligations.RejectedCommandDoesNothing
  intro s h b feed k _ hopen hviol hfail
  obtain ⟨hmem, hbad, hleast⟩ := firstFail_spec _ _ hfail
  refine ⟨hmem, hbad, hleast, ?_⟩
  rw [submit_of_failed_check feed hopen hviol hfail]
  exact reject_newCmd_only

end Sys2Proof.Proofs
end

section
/-! PROOFS. The doorbell of a command queue (R449, R479). -/

namespace Sys2Proof.Proofs

open Sys2Proof.Machine Sys2Proof.Laws

/-! ### A tail that is refused, and one that is taken -/

section
variable {q : CmdQueue} {tail : Nat}

theorem doorbell_of_refused (hbad : 2 ^ q.log ≤ tail ∨ ringAhead q.log q.head tail < ringAhead q.log q.head q.tail) :
    q.doorbell tail = { q with dbErr := true } :=
  if_pos (by rcases hbad with hbad | hbad <;> simp [hbad])

theorem doorbell_of_taken (hen : q.enabled = true) (hsize : tail < 2 ^ q.log)
    (hahead : ringAhead q.log q.head q.tail ≤ ringAhead q.log q.head tail) : q.doorbell tail = { q with tail := tail } :=
  if_neg (by simp [hen, hsize, hahead])

/-- The tail that the queue has is taken, without effect. -/
theorem doorbell_present_tail (hen : q.enabled = true) (hsize : q.tail < 2 ^ q.log) : q.doorbell q.tail = q :=
  doorbell_of_taken hen hsize le_rfl

end

/-! ### SQ_DOORBELL -/

section
variable {s : State} {view : Fin 17} {q : Fin 64} (v : Word)

theorem exec_sqDoorbell_of_unbound (hfree : (s.cmdQueue q).view = 17) : exec (.sqDoorbell view q v) s = .next s :=
  if_pos (by simp [hfree])

/-- An enabled queue, queue 0 too, answers its doorbell alone. -/
theorem exec_sqDoorbell_of_enabled (hview : s.viewHolds view (0x10200 + 4 * q) = true) (hbound : (s.cmdQueue q).view ≠ 17)
    (hen : (s.cmdQueue q).enabled = true) :
    exec (.sqDoorbell view q v) s = .next (s.modQueue q (fun x => x.doorbell (v.toNat % 65536))) := by
  change execSqDoorbell view q v s = _
  simp [execSqDoorbell, hview, hbound, hen]

end

/-- Settles O37: an enabled, bound queue is changed by its `CmdQueue.doorbell` alone, which refuses the tail or takes it. -/
theorem doorbellTakesOrRefusesATail : Obligations.DoorbellTakesOrRefusesATail := by
  unfold Obligations.DoorbellTakesOrRefusesATail
  refine ⟨?bound, fun _ _ _ v hfree => exec_sqDoorbell_of_unbound v hfree⟩
  case bound =>
    intro s view q v hview hbound hen
    have hself : (s.modQueue q (fun x => x.doorbell (v.toNat % 65536))).cmdQueue q = (s.cmdQueue q).doorbell (v.toNat % 65536) := by simp
    refine ⟨_, exec_sqDoorbell_of_enabled v hview hbound hen, rfl, fun x hx => by simp [hx], ?_⟩
    dsimp only
    rw [hself]
    refine ⟨doorbell_of_refused, fun hsize hsame => ?present, doorbell_of_taken hen⟩
    case present =>
      rw [hsame] at hsize ⊢
      exact doorbell_present_tail hen hsize

end Sys2Proof.Proofs
end

section
/-! PROOFS. Writes to an idle check-value unit: the configuration, the parameters, the restart (R556, R559). -/

namespace Sys2Proof.Proofs

open Sys2Proof.Machine Sys2Proof.Laws

/-! ### What a write does to a unit -/

section
variable {x : ChkUnit} (v : Word)

theorem chkUnit_write_of_idle {o : Nat} (hidle : x.busy = false) : x.write o v = x.apply o v :=
  if_neg (by simp [hidle])

/-- A WIDTH of 0 or above 64 sets BADCFG alone (R559). -/
theorem chkUnit_apply_cfg_of_illegal (hbad : v.toNat % 128 = 0 ∨ 64 < v.toNat % 128) : x.apply 0x00 v = { x with badcfg := true } :=
  if_pos (by simpa using hbad)

/-- A legal CHK_CFG sets the configuration and restarts the unit (R556). -/
theorem chkUnit_apply_cfg_of_legal (hpos : v.toNat % 128 ≠ 0) (hle : v.toNat % 128 ≤ 64) :
    x.apply 0x00 v = ChkUnit.restart { x with width := v.toNat % 128, refin := v.getLsbD 7, refout := v.getLsbD 8 } :=
  if_neg (by simp [hpos, hle])

theorem chkUnit_apply_restart (hset : v.getLsbD 0 = true) : x.apply 0x04 v = x.restart :=
  if_pos hset

/-- The unit with the half of POLY, INIT or XOROUT that parameter register `r` names replaced. -/
def withParam (x : ChkUnit) (r : Fin 6) (v : Word) : ChkUnit :=
  { x with
    poly := if r.val = 0 ∨ r.val = 1 then setHalf x.poly (r.val == 1) v else x.poly
    init := if r.val = 2 ∨ r.val = 3 then setHalf x.init (r.val == 3) v else x.init
    xorout := if r.val = 4 ∨ r.val = 5 then setHalf x.xorout (r.val == 5) v else x.xorout }

/-- A write to a parameter register replaces its half and restarts the unit (R556). -/
theorem chkUnit_apply_param (r : Fin 6) : x.apply (0x10 + 4 * r) v = (withParam x r v).restart := by
  fin_cases r <;> rfl

end

/-- Both halves written, nothing is left of the old value. -/
theorem setHalf_low_high (old : Nat) (lo hi : Word) : setHalf (setHalf old false lo) true hi = lo.toNat + hi.toNat * 2 ^ 32 := by
  have hlow : (old / 2 ^ 32 * 2 ^ 32 + lo.toNat) % 2 ^ 32 = lo.toNat := by
    rw [Nat.mul_add_mod_self_right, Nat.mod_eq_of_lt lo.isLt]
  exact congrArg (· + hi.toNat * 2 ^ 32) hlow

/-! ### What a write from a view does to the state -/

/-- The state in which unit `u` is `x`. -/
def withChkUnit (s : State) (u : Nat) (x : ChkUnit) : State := { s with chk := smapSet s.chk u x }

section
variable {s : State}

theorem withChkUnit_only (u : Nat) (x : ChkUnit) : withChkUnit s u x = { s with chk := (withChkUnit s u x).chk } := rfl

@[simp] theorem withChkUnit_chkUnit (u : Nat) (x : ChkUnit) (k : Nat) :
    (withChkUnit s u x).chkUnit k = if k = u then x else s.chkUnit k :=
  smapGet_smapSet ..

theorem withChkUnit_chkUnit_self (u : Nat) (x : ChkUnit) : (withChkUnit s u x).chkUnit u = x := by simp

theorem withChkUnit_chkUnit_other {u : Nat} {x : ChkUnit} : ∀ k, k ≠ u → (withChkUnit s u x).chkUnit k = s.chkUnit k :=
  fun k hk => by simp [hk]

/-- A write to an idle unit that the view holds takes effect in that unit at once (R556). -/
theorem chkWrite_of_idle {view : Fin 17} {u o : Nat} (v : Word) (hheld : s.viewHolds view (chkOffset u o) = true)
    (hidle : (s.chkUnit u).busy = false) : s.chkWrite view u o v = withChkUnit s u ((s.chkUnit u).apply o v) := by
  rw [← chkUnit_write_of_idle v hidle]
  exact if_pos hheld

end

section
variable {s : State} {view : Fin 17} {u : Fin 65} (v : Word) (hidle : (s.chkUnit u).busy = false)
include hidle

theorem exec_chkCfgWrite_of_illegal (hheld : s.viewHolds view (chkOffset u 0x00) = true) (hbad : v.toNat % 128 = 0 ∨ 64 < v.toNat % 128) :
    exec (.chkCfgWrite view u v) s = .next (withChkUnit s u { s.chkUnit u with badcfg := true }) := by
  rw [← chkUnit_apply_cfg_of_illegal v hbad, ← chkWrite_of_idle v hheld hidle]
  rfl

theorem exec_chkCfgWrite_of_legal (hheld : s.viewHolds view (chkOffset u 0x00) = true) (hpos : v.toNat % 128 ≠ 0)
    (hle : v.toNat % 128 ≤ 64) :
    exec (.chkCfgWrite view u v) s = .next (withChkUnit s u
      (ChkUnit.restart { s.chkUnit u with width := v.toNat % 128, refin := v.getLsbD 7, refout := v.getLsbD 8 })) := by
  rw [← chkUnit_apply_cfg_of_legal v hpos hle, ← chkWrite_of_idle v hheld hidle]
  rfl

theorem exec_chkParamWrite_of_idle (r : Fin 6) (hheld : s.viewHolds view (chkOffset u (0x10 + 4 * r)) = true) :
    exec (.chkParamWrite view u r v) s = .next (withChkUnit s u (withParam (s.chkUnit u) r v).restart) := by
  rw [← chkUnit_apply_param v r, ← chkWrite_of_idle v hheld hidle]
  rfl

theorem exec_chkRestart_of_idle (hheld : s.viewHolds view (chkOffset u 0x04) = true) (hset : v.getLsbD 0 = true) :
    exec (.chkRestart view u v) s = .next (withChkUnit s u (s.chkUnit u).restart) := by
  rw [← chkUnit_apply_restart v hset, ← chkWrite_of_idle v hheld hidle]
  rfl

end

/-- Settles O42: an illegal WIDTH takes effect as `badcfg` alone from any state of the unit, and on an idle unit it does so at once. -/
theorem badCheckConfigurationIsIgnored : Obligations.BadCheckConfigurationIsIgnored := by
  unfold Obligations.BadCheckConfigurationIsIgnored
  intro v hbad
  refine ⟨fun s view u hheld hidle => ?idle, fun x => chkUnit_apply_cfg_of_illegal v hbad⟩
  case idle =>
    exact ⟨_, exec_chkCfgWrite_of_illegal v hidle hheld hbad, withChkUnit_only .., withChkUnit_chkUnit _ _⟩

/-- Settles O43: each of the rows replaces the unit by a `ChkUnit.restart` of it after the write, whose REG is INIT cut to the width. -/
theorem checkValueWritesRestart : Obligations.CheckValueWritesRestart := by
  unfold Obligations.CheckValueWritesRestart
  intro s view u v hidle
  refine ⟨fun hheld hpos hle => ?configuration, fun r hheld => ?parameter, fun hheld hset => ?restart, setHalf_low_high _⟩
  case configuration =>
    exact ⟨_, exec_chkCfgWrite_of_legal v hidle hheld hpos hle, withChkUnit_only .., withChkUnit_chkUnit_other, withChkUnit_chkUnit_self ..⟩
  case parameter =>
    refine ⟨_, exec_chkParamWrite_of_idle v hidle r hheld, withChkUnit_only .., withChkUnit_chkUnit_other, ?_⟩
    rw [withChkUnit_chkUnit_self]
    rfl
  case restart =>
    exact ⟨_, exec_chkRestart_of_idle v hidle hheld hset, withChkUnit_only .., withChkUnit_chkUnit_other, withChkUnit_chkUnit_self ..⟩

end Sys2Proof.Proofs
end

section
/-! PROOFS. Every row keeps the memories canonical, the command numbers in order, the fuses and the queue behind its front: one lemma per
operation of the model, in the order of the definitions. -/

namespace Sys2Proof.Proofs

open Sys2Proof.Machine Sys2Proof.Laws

/-- What a state keeps of the state `z` in which a row began. -/
def Sound (z t : State) : Prop := MemInv t ∧ UidInv t ∧ t.fuses = z.fuses ∧ t.pending = z.pending

/-- The next state of an outcome, if there is one, is sound. -/
def SoundOut (z : State) (o : Host.Outcome State Fault Refusal) : Prop := ∀ t, o = .next t → Sound z t

/-- The part of the state that `Sound` speaks of. -/
def soundView (s : State) : Memory × Memory × List OutCmd × Nat × Fuses × List Instr :=
  (s.mem, s.hostMem, s.host.cmds, s.host.nextUid, s.fuses, s.pending)

/-! ### Canonical memories: the rows of the tiles -/

/-- What each turn of a fold keeps of a memory, the whole fold keeps. -/
theorem wf_foldl {α β : Type} (mem : β → Memory) (xs : List α) (g : β → α → β) (b : β) (hb : Memory.wf (mem b) = true)
    (hg : ∀ b x, Memory.wf (mem b) = true → Memory.wf (mem (g b x)) = true) : Memory.wf (mem (xs.foldl g b)) = true := by
  induction xs generalizing b with
  | nil => exact hb
  | cons x xs ih => exact ih _ (hg b x hb)

theorem wf_memWriteF32 (m : Memory) (a : Nat) (v : F32) (h : Memory.wf m = true) : Memory.wf (memWriteF32 m a v) = true :=
  wf_memWriteNat _ _ _ _ h

theorem wf_writeCodes {m : Memory} {fmt base : Nat} {codes : List Nat} (h : Memory.wf m = true) :
    Memory.wf (writeCodes m fmt base codes) = true := wf_memWriteBytes _ _ _ h

theorem wf_writeBlock {m : Memory} {base b scale : Nat} {codes : List Nat} (h : Memory.wf m = true) :
    Memory.wf (writeBlock m base b scale codes) = true := by
  refine wf_foldl id _ _ _ (wf_memWrite _ _ _ h) fun m p hm => ?_
  exact wf_memWrite _ _ _ hm

theorem wf_writeVec {m : Memory} {fmt base stride k : Nat} {scales codes : List Nat} (h : Memory.wf m = true) :
    Memory.wf (writeVec m fmt base stride k scales codes) = true := by
  unfold writeVec
  split
  · exact wf_foldl id _ _ _ h (fun _ _ hm => wf_writeBlock hm)
  · exact wf_writeCodes h

theorem wf_padVecs {m : Memory} {fmt base n : Nat} (h : Memory.wf m = true) : Memory.wf (padVecs m fmt base n) = true := by
  unfold padVecs
  split
  · exact wf_foldl id _ _ _ h (fun _ _ hm => wf_writeVec hm)
  · exact h

theorem wf_writeOut {tile fmt ob os sb ss cb k : Nat} {o : OutVec} {m : Memory} (h : Memory.wf m = true) :
    Memory.wf (writeOut tile fmt ob os sb ss cb k o m) = true := by
  have h2 : Memory.wf (match o.conv.rowScale with
      | some s => memWriteF32 (writeVec m fmt (tileAddr tile ob) os k o.conv.scales o.conv.codes) (tileAddr tile (cb + 4 * k)) s
      | none => writeVec m fmt (tileAddr tile ob) os k o.conv.scales o.conv.codes) = true := by
    split
    · exact wf_memWriteF32 _ _ _ (wf_writeVec h)
    · exact wf_writeVec h
  unfold writeOut
  dsimp only
  split
  · exact h2
  · exact wf_memWriteBytes _ _ _ h2

theorem wf_smxRow {cx : DescCtx} {l : Locus} {d : DrainD} {q : Nat} {vs : List F32} {mt : Memory × TileState} (h : Memory.wf mt.1 = true) :
    Memory.wf (smxRow cx l d q vs mt).1 = true := by
  exact wf_memWriteF32 _ _ _ (wf_memWriteF32 _ _ _ h)

theorem wf_drainEffect {cx : DescCtx} {d : DrainD} {mt : Memory × TileState} (h : Memory.wf mt.1 = true) :
    Memory.wf (drainEffect cx d mt).1 = true := by
  refine wf_foldl Prod.fst _ _ _ h fun b x hb => ?_
  unfold drainRow
  dsimp only
  refine wf_writeOut ?_
  split
  · exact wf_smxRow hb
  · exact hb

theorem wf_laneEffect {cx : DescCtx} {op : Nat} {d : LaneD} {mt : Memory × TileState} (h : Memory.wf mt.1 = true) :
    Memory.wf (laneEffect cx op d mt).1 = true := by
  refine wf_foldl Prod.fst _ _ _ h fun b x hb => ?_
  exact wf_writeOut hb

theorem wf_rowBlock {cx : DescCtx} {op i j : Nat} {d : RowD} {r : RowRes} (h : Memory.wf r.mem = true) :
    Memory.wf (rowBlock cx op d i r j).mem = true := by
  unfold rowBlock
  dsimp only
  split
  · exact wf_writeCodes h
  · exact h

theorem wf_rowMismatch {cx : DescCtx} {op i : Nat} {d : RowD} {r : RowRes} (h : Memory.wf r.mem = true) :
    Memory.wf (rowMismatch cx op d i r).mem = true := by
  unfold rowMismatch
  dsimp only
  split
  · exact wf_foldl RowRes.mem _ _ _ h (fun _ _ hm => wf_writeCodes hm)
  · exact h

theorem wf_rowEffect {cx : DescCtx} {op : Nat} {d : RowD} {m : Memory} {t : TileState} (h : Memory.wf m = true) :
    Memory.wf (rowEffect cx op d m t).mem = true := by
  unfold rowEffect
  split
  · exact h
  · refine wf_foldl RowRes.mem _ _ _ h fun r i hr => ?_
    unfold rowOne
    dsimp only
    split
    · exact wf_foldl RowRes.mem _ _ _ hr (fun _ _ hm => wf_rowBlock hm)
    · exact wf_rowMismatch hr

theorem wf_recSaveEffect {cx : DescCtx} {d : RowD} {m : Memory} {t : TileState} (h : Memory.wf m = true) :
    Memory.wf (recSaveEffect cx d m t) = true := by
  unfold recSaveEffect
  split
  · exact h
  · refine wf_foldl id _ _ _ h fun m i hm => ?_
    dsimp only [id]
    iterate 4 apply wf_memWriteF32
    exact hm

theorem wf_putAddWord {exact_ : Bool} {field cidx w : Nat} {l : Locus} {v : F32} {s : RedState} (h : Memory.wf s.mem = true) :
    Memory.wf (putAddWord exact_ field cidx l w v s).mem = true := by
  unfold putAddWord
  dsimp only
  split
  · exact wf_memWriteF32 _ _ _ h
  · split
    · unfold RedState.next
      exact wf_memWriteF32 _ _ _ h
    · exact wf_memWriteF32 _ _ _ h

theorem wf_putRows {cx : DescCtx} {field : Nat} {write : Bool} {d : PutD} {s : RedState} {t : TileState} (h : Memory.wf s.mem = true) :
    Memory.wf (putRows cx field write d s t).1.mem = true := by
  unfold putRows
  split
  · dsimp only
    split
    · refine wf_foldl RedState.mem _ _ _ h fun r w hr => ?_
      unfold RedState.place
      dsimp only
      split
      · exact hr
      · split <;> exact hr
    · exact h
  · refine wf_foldl (fun r : RedState × TileState => r.1.mem) _ _ _ h fun r q hr => ?_
    refine wf_foldl RedState.mem _ _ _ hr fun r w hr => ?_
    dsimp only
    split
    · exact wf_memWriteF32 _ _ _ hr
    · exact wf_putAddWord hr

theorem wf_tgWalk {s : State} {f ch n : Nat} {p : TgP} (h : Memory.wf s.mem = true) : Memory.wf (s.tgWalk f ch p n).mem = true := by
  refine wf_foldl TgWalk.mem _ _ _ h fun w i hw => ?_
  unfold tgStep
  dsimp only
  split
  · exact hw
  · split
    · exact hw
    · exact wf_memWriteBytes _ _ _ hw

section
variable {z s t : State}

theorem Sound.same (h : Sound z s) (e : soundView t = soundView s) : Sound z t := by
  obtain ⟨⟨hm, hh⟩, hu, hf, hp⟩ := h
  simp only [soundView, Prod.mk.injEq] at e
  obtain ⟨em, eh, ec, en, ef, ep⟩ := e
  refine ⟨⟨em ▸ hm, eh ▸ hh⟩, ?_, ef ▸ hf, ep ▸ hp⟩
  intro c hc
  rw [en]
  exact hu c (ec ▸ hc)

theorem Sound.setPower {p : Power} (h : Sound z s) : Sound z { s with power := p } := h.same (by rfl)

theorem Sound.ite {c : Prop} [Decidable c] (hs : Sound z s) (ht : Sound z t) : Sound z (if c then s else t) := by
  split <;> assumption

theorem SoundOut.ite {c : Prop} [Decidable c] {o p : Host.Outcome State Fault Refusal} (ho : SoundOut z o) (hp : SoundOut z p) :
    SoundOut z (if c then o else p) := by
  split <;> assumption

theorem Sound.next (h : Sound z s) : SoundOut z (.next s) := by
  intro t e
  cases e
  exact h

theorem Sound.setMem {m : Memory} (h : Sound z s) (hm : Memory.wf s.mem = true → Memory.wf m = true) : Sound z { s with mem := m } :=
  ⟨⟨hm h.1.1, h.1.2⟩, h.2⟩

theorem Sound.foldl {α : Type} {xs : List α} {g : State → α → State} (h : Sound z s) (hg : ∀ s x, Sound z s → Sound z (g s x)) :
    Sound z (xs.foldl g s) := by
  induction xs generalizing s with
  | nil => exact h
  | cons x xs ih => exact ih (hg s x h)

theorem Sound.forAll {α : Type} {xs : List α} {g : State → α → State} (h : Sound z s) (hg : ∀ s x, Sound z s → Sound z (g s x)) :
    Sound z (s.forAll xs g) := h.foldl hg

theorem Sound.modHost {g : HostLink → HostLink} (h : Sound z s) (hc : (g s.host).cmds = s.host.cmds)
    (hn : (g s.host).nextUid = s.host.nextUid) : Sound z (s.modHost g) :=
  h.same (by simp [soundView, State.modHost, hc, hn])

/-- A change of the commands in hand that adds none. -/
theorem Sound.setCmds {g : HostLink → HostLink} (h : Sound z s) (hn : (g s.host).nextUid = s.host.nextUid)
    (hc : ∀ c ∈ (g s.host).cmds, ∃ d ∈ s.host.cmds, c.uid = d.uid) : Sound z (s.modHost g) := by
  obtain ⟨hm, hu, hf, hp⟩ := h
  refine ⟨hm, ?_, hf, hp⟩
  intro c hcm
  obtain ⟨d, hd, e⟩ := hc c hcm
  show c.uid < (g s.host).nextUid
  rw [hn, e]
  exact hu d hd

theorem Sound.setHostMem {m : Memory} (h : Sound z s) (hm : Memory.wf s.hostMem = true → Memory.wf m = true) :
    Sound z { s with hostMem := m } :=
  ⟨⟨h.1.1, hm h.1.2⟩, h.2⟩

/-- A change of every command in hand that keeps its number. -/
theorem Sound.mapCmds {g : HostLink → HostLink} {k : OutCmd → OutCmd} (h : Sound z s) (hn : (g s.host).nextUid = s.host.nextUid)
    (hc : (g s.host).cmds = s.host.cmds.map k) (hk : ∀ c, (k c).uid = c.uid) : Sound z (s.modHost g) := by
  refine h.setCmds hn fun c hcm => ?_
  rw [hc] at hcm
  obtain ⟨d, hd, rfl⟩ := List.mem_map.mp hcm
  exact ⟨d, hd, hk d⟩

theorem Sound.modCmd {uid : Nat} {g : OutCmd → OutCmd} (h : Sound z s) (hg : ∀ c, (g c).uid = c.uid) : Sound z (s.modCmd uid g) :=
  ⟨h.1, uidInv_modCmd s uid g hg h.2.1, h.2.2⟩

theorem Sound.finish {uid status : Nat} {r : List Nat} (h : Sound z s) : Sound z (s.finish uid status r) :=
  h.modCmd (fun c => uid_finish c status r)

theorem Sound.handOver {x : Posting} (h : Sound z s) : Sound z (s.handOver x) := by
  obtain ⟨hm, hr⟩ := h
  exact ⟨(onlyEvents_handOver s x).memInv hm, hr⟩

theorem Sound.pokeBytes {a : Nat} {bs : List Byte} (h : Sound z s) : Sound z (s.pokeBytes a bs) := by
  rw [pokeBytes_only]
  exact h.setMem (wf_pokeBytes s a bs)

theorem Sound.stateAfter {o : Host.Outcome State Fault Refusal} (h : Sound z s) (ho : SoundOut z o) : Sound z (stateAfter o s) := by
  cases o with
  | next t => exact ho t rfl
  | fault => exact h
  | refused => exact h

theorem Sound.addCmd {c : OutCmd} (h : Sound z s) (hc : c.uid = s.host.nextUid) : Sound z (s.addCmd c) := by
  obtain ⟨hm, hu, hr⟩ := h
  refine ⟨hm, ?_, hr⟩
  intro d hd
  show d.uid < s.host.nextUid + 1
  rcases List.mem_append.mp hd with hd | hd
  · exact Nat.lt_succ_of_lt (hu d hd)
  · rw [List.mem_singleton.mp hd, hc]
    exact Nat.lt_succ_self _

theorem Sound.setTile {t : Nat} {x : TileState} (h : Sound z s) : Sound z (s.setTile t x) := by
  unfold State.setTile
  exact h.same (by rfl)

theorem Sound.modTile {t : Nat} {f : TileState → TileState} (h : Sound z s) : Sound z (s.modTile t f) := h.setTile

theorem Sound.modFld {f : Nat} {g : Field → Field} (h : Sound z s) : Sound z (s.modFld f g) := by
  unfold State.modFld
  exact h.same (by rfl)

theorem Sound.modPart {p : Nat} {g : Partition → Partition} (h : Sound z s) : Sound z (s.modPart p g) := by
  unfold State.modPart
  exact h.same (by rfl)

theorem Sound.modPort {p : Nat} {g : FabPort → FabPort} (h : Sound z s) : Sound z (s.modPort p g) := by
  unfold State.modPort
  exact h.same (by rfl)

theorem Sound.modLport {p : Nat} {g : LntPort → LntPort} (h : Sound z s) : Sound z (s.modLport p g) := by
  unfold State.modLport
  exact h.same (by rfl)

theorem Sound.modGroup {f g : Nat} {hd : Group → Group} (h : Sound z s) : Sound z (s.modGroup f g hd) := by
  unfold State.modGroup
  split
  exacts [h.modFld, h]

theorem Sound.modQueue {q : Nat} {g : CmdQueue → CmdQueue} (h : Sound z s) : Sound z (s.modQueue q g) := by
  unfold State.modQueue
  exact h.modHost rfl rfl

theorem Sound.modCring {c : Nat} {g : CRing → CRing} (h : Sound z s) : Sound z (s.modCring c g) := by
  unfold State.modCring
  exact h.modHost rfl rfl

theorem Sound.modEring {e : Nat} {g : ERing → ERing} (h : Sound z s) : Sound z (s.modEring e g) := by
  unfold State.modEring
  exact h.modHost rfl rfl

theorem Sound.modBcn {g : Beacon → Beacon} (h : Sound z s) : Sound z (s.modBcn g) := by
  unfold State.modBcn
  exact h.same (by rfl)

theorem Sound.modOuter {g : OuterIsland → OuterIsland} (h : Sound z s) : Sound z (s.modOuter g) := by
  unfold State.modOuter
  exact h.same (by rfl)

theorem Sound.emit {m : OutMsg} (h : Sound z s) : Sound z (s.emit m) := by
  unfold State.emit
  exact h.same (by rfl)

theorem Sound.emits {ms : List OutMsg} (h : Sound z s) : Sound z (s.emits ms) := by
  unfold State.emits
  exact h.same (by rfl)

theorem Sound.post {x : Posting} (h : Sound z s) : Sound z (s.post x) := by
  unfold State.post
  exact Sound.ite h.handOver (h.modHost rfl rfl)

theorem Sound.tell {cls : ReiloClass} {m : OutMsg} (h : Sound z s) : Sound z (s.tell cls m) := h.post

theorem Sound.store {cls : ReiloClass} {a : Nat} {bytes : List Byte} (h : Sound z s) : Sound z (s.store cls a bytes) := h.post

theorem Sound.eventWrite {e cls : Nat} {code part unit : Nat} {payload : List Byte} (h : Sound z s) :
    Sound z (s.eventWrite e cls code part unit payload) := by
  unfold State.eventWrite
  exact Sound.ite h.store.modEring.tell h.store.modEring

theorem Sound.ringEvent {e cls : Nat} {code part unit : Nat} {payload : List Byte} (h : Sound z s) :
    Sound z (s.ringEvent e cls code part unit payload) := by
  unfold State.ringEvent
  exact Sound.ite h (Sound.ite h.modEring h.eventWrite)

theorem Sound.event {cls code : Nat} {part unit : Nat} {payload : List Byte} (h : Sound z s) : Sound z (s.event cls code part unit payload) := by
  unfold State.event
  exact Sound.ite h.ringEvent.ringEvent h.ringEvent

theorem Sound.finishAll {test : OutCmd → Bool} {status : Nat} (h : Sound z s) : Sound z (s.finishAll test status) :=
  h.mapCmds rfl rfl fun c => by
    split
    · exact uid_finish c status []
    · rfl

theorem Sound.sampleInput (h : Sound z s) : Sound z s.sampleInput := by
  unfold State.sampleInput
  exact h.same (by rfl)

theorem Sound.writeResult {b : BufP} {bytes : List Byte} (h : Sound z s) : Sound z (s.writeResult b bytes) := h.store

theorem Sound.modMeter {f : Nat} {g : Meter → Meter} (h : Sound z s) : Sound z (s.modMeter f g) := h.modFld

theorem Sound.chkWrite {view u o : Nat} {v : Word} (h : Sound z s) : Sound z (s.chkWrite view u o v) := by
  unfold State.chkWrite
  exact Sound.ite (h.same (by rfl)) h

theorem Sound.chkAnswer {u : Nat} {rd : Nat × Bool} (h : Sound z s) : Sound z (s.chkAnswer u rd) := by
  unfold State.chkAnswer
  exact (h.same (by rfl)).tell

theorem Sound.execChkFeedDone {unit : Fin 65} (h : Sound z s) : SoundOut z (execChkFeedDone unit s) := by
  unfold Machine.execChkFeedDone
  exact SoundOut.ite (h.same (by rfl)).next ((h.same (by rfl)).forAll (fun _ _ h => h.chkAnswer)).next

theorem Sound.execChkResultRead {view : Fin 17} {unit : Fin 65} {hi : Bool} (h : Sound z s) : SoundOut z (execChkResultRead view unit hi s) := by
  unfold Machine.execChkResultRead
  exact SoundOut.ite h.tell.next (SoundOut.ite (h.same (by rfl)).next h.chkAnswer.next)

theorem Sound.execRngSeedLoad {view : Fin 17} {tile : Fin 1024} {value : Word} (h : Sound z s) :
    SoundOut z (execRngSeedLoad view tile value s) := by
  unfold Machine.execRngSeedLoad
  exact SoundOut.ite h.next h.setTile.next

theorem Sound.execFflRearm {view : Fin 17} {target : FflTarget} {value : Word} (h : Sound z s) : SoundOut z (execFflRearm view target value s) := by
  unfold Machine.execFflRearm
  split
  exacts [SoundOut.ite h.modTile.next h.next, SoundOut.ite h.modMeter.next h.next]

theorem Sound.execClrViol {view : Fin 17} {value : Word} (h : Sound z s) : SoundOut z (execClrViol view value s) := by
  unfold Machine.execClrViol
  exact SoundOut.ite (h.same (by rfl)).next h.next

theorem Sound.execBcnPosRead {view : Fin 17} (h : Sound z s) : SoundOut z (execBcnPosRead view s) := by
  unfold Machine.execBcnPosRead
  exact SoundOut.ite h.modBcn.tell.next h.tell.next

theorem Sound.fldWrite {f o : Nat} {v : Word} (h : Sound z s) : Sound z (s.fldWrite f o v) := by
  unfold State.fldWrite
  exact Sound.ite h.modMeter (Sound.ite h.modFld (Sound.ite h.modFld (Sound.ite h.modGroup (Sound.ite h.modGroup (Sound.ite h.modFld (Sound.ite
      h.modGroup (Sound.ite h.modFld (Sound.ite h.modFld h))))))))

theorem Sound.blockWrite {view blk i : Nat} {v : Word} (h : Sound z s) : Sound z (s.blockWrite view blk i v) := by
  unfold State.blockWrite
  split
  · exact Sound.ite (h.same (by rfl)) (Sound.ite (h.same (by rfl)) (Sound.ite h.modPart h))
  · exact Sound.ite (h.modHost rfl rfl) (Sound.ite h.modQueue (Sound.ite h.modEring (Sound.ite h.modCring h)))
  · exact Sound.ite h.modBcn h
  · exact Sound.ite h.modBcn h
  · exact Sound.ite (Sound.ite h.modPort h) (Sound.ite (h.same (by rfl)) (Sound.ite (h.same (by rfl)) h))
  · exact Sound.ite (Sound.ite h.modLport h) (Sound.ite h.modOuter h)
  · exact Sound.ite h (Sound.ite (h.same (by rfl)) (Sound.ite (h.same (by rfl)) (Sound.ite (h.same (by rfl)) h)))
  · exact Sound.ite h.chkWrite h
  · exact h

theorem Sound.execRegisterWrite {view : Fin 17} {off : Nat} {value : Word} (h : Sound z s) : SoundOut z (execRegisterWrite view off value s) := by
  unfold Machine.execRegisterWrite
  exact SoundOut.ite h.next (SoundOut.ite h.blockWrite.next (SoundOut.ite h.fldWrite.next (SoundOut.ite (SoundOut.ite h.modTile.next h.next)
      h.next)))

theorem Sound.measure {typ : Nat} {digest : List Byte} (h : Sound z s) : Sound z (s.measure typ digest) := by
  unfold State.measure
  exact h.same (by rfl)

theorem Sound.trainPorts (h : Sound z s) : Sound z s.trainPorts := by
  unfold State.trainPorts
  split
  exacts [h.forAll (fun _ _ h => Sound.ite h.modPort h), h]

theorem Sound.trainLport {p : Nat} (h : Sound z s) : Sound z (s.trainLport p) := h.modLport.emit

theorem Sound.wakeLport {p : Nat} (h : Sound z s) : Sound z (s.wakeLport p) := by
  unfold State.wakeLport
  exact Sound.ite h.trainLport h

theorem Sound.acceptBlob {bytes : List Byte} (h : Sound z s) : Sound z (s.acceptBlob bytes) := by
  have hf : ∀ t : State, Sound z t → Sound z (t.forAll (List.range 64) fun s f => s.modFld f fun d =>
      { d with stack := { d.stack with blobMap := smapGet 0 (parseBlob bytes).mapouts f } }) :=
    fun _ ht => ht.forAll fun _ _ h => h.modFld
  unfold State.acceptBlob
  refine Sound.forAll (Sound.trainPorts (Sound.measure ?_)) fun _ _ h => h.wakeLport
  dsimp only
  split
  · exact (hf _ (Sound.modBcn (h.same (by rfl)))).setPower
  · exact Sound.modBcn (h.same (by rfl))

theorem Sound.afterReset (h : Sound z s) : Sound z s.afterReset := by
  obtain ⟨⟨hm, hh⟩, _, hf, hp⟩ := h
  exact ⟨⟨wf_filter _ _ hm, hh⟩, fun c hc => absurd hc (List.not_mem_nil), hf, hp⟩

theorem Sound.afterOff (h : Sound z s) : Sound z s.afterOff := by
  obtain ⟨⟨_, hh⟩, _, hf, hp⟩ := h
  exact ⟨⟨rfl, hh⟩, fun c hc => absurd hc (List.not_mem_nil), hf, hp⟩

theorem Sound.afterRetain (h : Sound z s) : Sound z s.afterRetain :=
  (h.setMem (m := s.mem.filter fun c => decide (c.1 < 2 ^ 43)) (wf_filter _ _)).same (by rfl)

theorem Sound.startNop {uid : Nat} (h : Sound z s) : Sound z (startNop s uid) := h.finish

theorem Sound.startConfig {uid : Nat} {p : BufP} {feed : Feed} (h : Sound z s) : Sound z (startConfig s uid p feed) := by
  unfold Machine.startConfig
  split
  · exact h.finish
  · dsimp only
    split
    exacts [h.finish.modCmd (by intro; rfl), h.acceptBlob.finish]

theorem Sound.startInventory {uid : Nat} {p : BufP} (h : Sound z s) : Sound z (startInventory s uid p) := h.writeResult.finish

theorem Sound.startPower {uid st : Nat} (h : Sound z s) : Sound z (startPower s uid st) := by
  unfold Machine.startPower
  exact h.same (by rfl)

theorem Sound.startQueueSetup {uid : Nat} {p : QueueSetupP} (h : Sound z s) : Sound z (startQueueSetup s uid p) := h.modQueue.finish

theorem Sound.startCring {uid : Nat} {p : RingP} (h : Sound z s) : Sound z (startCring s uid p) := h.modCring.finish

theorem Sound.startEring {uid : Nat} {p : RingP} (h : Sound z s) : Sound z (startEring s uid p) := h.modEring.finish

theorem Sound.startPartCreate {uid : Nat} {p : PartP} (h : Sound z s) : Sound z (startPartCreate s uid p) := by
  unfold Machine.startPartCreate
  exact (h.modPart.forAll (fun _ _ h => h.wakeLport)).finish

theorem Sound.startProfile {uid pid prof : Nat} (h : Sound z s) : Sound z (startProfile s uid pid prof) := by
  unfold Machine.startProfile
  exact (Sound.ite h (Sound.ite h.modPart h.modPart)).finish

theorem Sound.startHeirOpen {uid : Nat} {p : HeirP} (h : Sound z s) : Sound z (startHeirOpen s uid p) := by
  unfold Machine.startHeirOpen
  exact (Sound.ite h (h.same (by rfl))).finish

theorem Sound.startHeirClose {uid : Nat} {p : HeirP} (h : Sound z s) : Sound z (startHeirClose s uid p) := by
  unfold Machine.startHeirClose
  exact (h.same (by rfl)).finish

theorem Sound.startBind {uid q view : Nat} (h : Sound z s) : Sound z (startBind s uid q view) := h.modQueue.finish

theorem Sound.startRegulator {uid part : Nat} {p : RegulatorP} (h : Sound z s) : Sound z (startRegulator s uid part p) := by
  unfold Machine.startRegulator
  exact (h.forAll (fun _ _ h => h.modFld)).finish

theorem Sound.startRegulatorSys {uid : Nat} {p : RegulatorSysP} (h : Sound z s) : Sound z (startRegulatorSys s uid p) := by
  unfold Machine.startRegulatorSys
  exact (h.forAll (fun _ _ h => h.modFld)).finish

theorem Sound.startErrClear {uid fmask chmask : Nat} (h : Sound z s) : Sound z (startErrClear s uid fmask chmask) := by
  unfold Machine.startErrClear
  exact (h.forAll (fun _ _ h => h.modFld)).finish

theorem Sound.markPosted {c : OutCmd} (h : Sound z s) : Sound z (s.markPosted c) :=
  Sound.ite (h.modCmd (by intro; rfl)) (h.setCmds rfl fun c hc => ⟨c, (List.mem_filter.mp hc).1, rfl⟩)

theorem Sound.postOne {q : Fin 64} (h : Sound z s) : Sound z (s.postOne q) := by
  unfold State.postOne
  dsimp only
  split
  · exact h
  · exact Sound.ite h (Sound.ite (h.setHostMem (wf_memWriteBytes _ _ _)).modCring.markPosted.emit
      (h.setHostMem (wf_memWriteBytes _ _ _)).modCring.markPosted)

theorem Sound.postReady (h : Sound z s) : Sound z s.postReady := by
  unfold State.postReady
  exact h.forAll (fun _ _ h => h.postOne)

theorem Sound.release (h : Sound z s) : Sound z s.release := by
  unfold State.release
  exact ((h.modHost rfl rfl).forAll (fun _ _ h => h.handOver)).postReady.forAll (fun _ _ h => h.handOver)

theorem Sound.newDepth (h : Sound z s) : Sound z s.newDepth := by
  unfold State.newDepth
  exact Sound.ite h (h.same (by rfl))

theorem Sound.pumpPort {p : Nat} (h : Sound z s) : Sound z (s.pumpPort p) := h.modPort.emits

theorem Sound.linkSend {p : Nat} {f : FabFrame} (h : Sound z s) : Sound z (s.linkSend p f) := by
  unfold State.linkSend
  exact Sound.ite h h.modPort.pumpPort

theorem Sound.sendIdle {p : Nat} {nak : Bool} (h : Sound z s) : Sound z (s.sendIdle p nak) := h.modPort.emit

theorem Sound.replayPort {p : Nat} (h : Sound z s) : Sound z (s.replayPort p) := by
  unfold State.replayPort
  exact Sound.ite h h.modPort.emits

theorem Sound.portReturns {p : Nat} (h : Sound z s) : Sound z (s.portReturns p) := by
  unfold State.portReturns
  exact Sound.ite h h.modPort.modBcn.newDepth

theorem Sound.pumpFlare {p : Nat} (h : Sound z s) : Sound z (s.pumpFlare p) := h.modPort.emits

theorem Sound.linkFields {p : Nat} {f : FabFrame} (h : Sound z s) : Sound z (s.linkFields p f) := by
  unfold State.linkFields
  exact Sound.ite h.portReturns.modPort.pumpFlare.replayPort.pumpPort h.portReturns.modPort.pumpPort

theorem Sound.linkDiscard {p : Nat} {crc : Bool} (h : Sound z s) : Sound z (s.linkDiscard p crc) := by
  unfold State.linkDiscard
  exact Sound.ite (Sound.ite h.modPort h) (Sound.ite h.modPort h).sendIdle.modPort

theorem Sound.linkAccept {p : Nat} {f : FabFrame} (h : Sound z s) : Sound z (s.linkAccept p f).1 := by
  unfold State.linkAccept
  split
  · exact h
  · split
    · exact h.linkDiscard
    · split
      · exact h.linkFields
      · split
        · exact h.linkDiscard
        · exact h.linkFields.modPort

theorem Sound.flareSend {p : Nat} {f : FlareFrame} (h : Sound z s) : Sound z (s.flareSend p f) := h.linkSend

theorem Sound.flareTook {p : Nat} {f : FlareFrame} (h : Sound z s) : Sound z (s.flareTook p f) := h.portReturns.modPort

theorem Sound.flarePass {p : Nat} {f : FabFrame} (h : Sound z s) : Sound z (s.flarePass p f) := h.linkSend

theorem Sound.broadcast {f : FlareFrame} (h : Sound z s) : Sound z (s.broadcast f) := by
  unfold State.broadcast
  exact h.emit.forAll (fun _ _ h => h.flareSend)

theorem Sound.faultBit {bit : Nat} (h : Sound z s) : Sound z (s.faultBit bit) := by
  unfold State.faultBit
  exact h.same (by rfl)

theorem Sound.faultField {f : Nat} (h : Sound z s) : Sound z (s.faultField f) := by
  unfold State.faultField
  exact h.same (by rfl)

theorem Sound.clearGrad {f : Nat} {g : Group} (h : Sound z s) : Sound z (s.clearGrad f g) := h.setMem (wf_memClear _ _ _)

theorem Sound.floodFrom {except : Option Nat} {f : FlareFrame} (h : Sound z s) : Sound z (s.floodFrom except f) := by
  unfold State.floodFrom
  exact h.forAll (fun _ _ h => h.flareSend)

theorem Sound.endRepeated {train status : Nat} (h : Sound z s) : Sound z (s.endRepeated train status) := by
  refine h.setCmds rfl fun c hc => ?_
  obtain ⟨d, hd, rfl⟩ := List.mem_map.mp hc
  refine ⟨d, (List.mem_filter.mp hd).1, ?_⟩
  split
  · rfl
  · dsimp only
    split
    · rfl
    · exact uid_finish _ _ _

theorem Sound.abandonStep {status : Nat} (h : Sound z s) : Sound z (s.abandonStep status) := by
  unfold State.abandonStep
  refine Sound.modBcn ?_
  split
  exacts [h.endRepeated, h]

theorem Sound.haltLine (h : Sound z s) : Sound z s.haltLine := by
  unfold State.haltLine
  exact Sound.ite h.modBcn h.modBcn

theorem uid_replay (c : OutCmd) (ready : Bool) : (c.replay ready).uid = c.uid := by
  unfold OutCmd.replay
  dsimp only
  split
  · rfl
  · split <;> rfl

theorem Sound.takeAbort (h : Sound z s) : Sound z s.takeAbort := by
  unfold State.takeAbort
  extract_lets step s0 m s1 fs s2
  have h1 : Sound z s1 := Sound.same (s := s0) h.modBcn (by rfl)
  have h2 : Sound z s2 := by
    unfold s2
    split
    · exact h1
    · extract_lets a b c
      have ha : Sound z a := by
        refine h1.mapCmds rfl rfl fun c => ?_
        split
        · exact uid_replay c _
        · rfl
      have hb : Sound z b := ha.forAll fun _ _ h => (h.foldl fun _ _ h => h.clearGrad).modFld
      exact hb.same (by rfl)
  exact Sound.ite h2.abandonStep.faultBit.postReady.event h2

theorem Sound.knowDecision (h : Sound z s) : Sound z s.knowDecision := by
  unfold State.knowDecision
  exact Sound.ite h (h.same (by rfl)).modBcn

theorem Sound.takeMissed {step : Nat} (h : Sound z s) : Sound z (s.takeMissed step) := by
  unfold State.takeMissed
  exact h.same (by rfl)

theorem Sound.restartEmission {f : Nat} (h : Sound z s) : Sound z (s.restartEmission f) := h.modFld

theorem Sound.requestAbort (h : Sound z s) : Sound z s.requestAbort := by
  unfold State.requestAbort
  exact Sound.ite h.knowDecision.floodFrom.modBcn.takeAbort h.knowDecision

theorem Sound.restartEmissions (h : Sound z s) : Sound z s.restartEmissions := by
  unfold State.restartEmissions
  exact Sound.ite (h.forAll (fun _ _ h => h.restartEmission)) h

theorem Sound.hwEvent {part unit : Nat} (h : Sound z s) : Sound z (s.hwEvent part unit) := h.event

theorem Sound.hwFault {bit part unit : Nat} (h : Sound z s) : Sound z (s.hwFault bit part unit) := by
  unfold State.hwFault
  exact Sound.ite h.hwEvent (Sound.ite h.hwEvent.knowDecision.faultBit.requestAbort h.hwEvent.knowDecision.restartEmissions)

theorem Sound.emptyQueues {p : Nat} (h : Sound z s) : Sound z (s.emptyQueues p) := by
  unfold State.emptyQueues
  exact h.same (by rfl)

theorem Sound.stopNow {p cause : Nat} (h : Sound z s) : Sound z (s.stopNow p cause) := by
  refine (Sound.postReady (h.emptyQueues.modPart.mapCmds rfl rfl fun c => ?_)).event
  split
  · exact uid_finish _ _ _
  · rfl

theorem Sound.raiseLost {part f cause : Nat} (h : Sound z s) : Sound z (s.raiseLost part f cause) := by
  unfold State.raiseLost
  extract_lets s1 u
  have h1 : Sound z s1 := (Sound.ite h h.faultBit).event
  exact Sound.ite (Sound.ite h1.knowDecision.modPart h1.knowDecision.requestAbort.stopNow) h1

theorem Sound.lateStop (h : Sound z s) : Sound z s.lateStop := by
  unfold State.lateStop
  split
  exacts [Sound.ite h.stopNow h, h]

theorem Sound.loseCapacity {f : Nat} (h : Sound z s) : Sound z (s.loseCapacity f) := by
  unfold State.loseCapacity
  exact Sound.ite h h.modFld.raiseLost

theorem Sound.fenceSlot {f p : Nat} (h : Sound z s) : Sound z (s.fenceSlot f p) := h.modFld

theorem Sound.beginRound {step : Nat} (h : Sound z s) : Sound z (s.beginRound step) := by
  unfold State.beginRound
  exact Sound.ite h.modBcn (Sound.ite h.modBcn.tell h.modBcn.broadcast)

theorem Sound.decideRound {f : FlareFrame} {v : List Byte} (h : Sound z s) : Sound z (s.decideRound f v) := by
  unfold State.decideRound
  dsimp only
  split
  exacts [h.modBcn.broadcast, Sound.ite h.event h.beginRound, h.broadcast, h.broadcast]

theorem Sound.tryRound {f : FlareFrame} (h : Sound z s) : Sound z (s.tryRound f) := by
  unfold State.tryRound
  dsimp only
  split
  · exact h
  · split
    · exact h.modBcn.decideRound
    · split
      · exact h
      · split
        exacts [h.modBcn.flareSend, h]

theorem Sound.joinRound {port : Option Nat} {f : FlareFrame} (h : Sound z s) : Sound z (s.joinRound port f) := h.modBcn.tryRound

theorem Sound.fillRounds (h : Sound z s) : Sound z s.fillRounds := by
  unfold State.fillRounds
  exact h.forAll (fun _ _ h => Sound.ite h.modBcn.joinRound h)

theorem Sound.takePart {port : Option Nat} {f : FlareFrame} (h : Sound z s) : Sound z (s.takePart port f) := by
  unfold State.takePart
  exact Sound.ite h.joinRound.fillRounds h.modBcn

theorem Sound.contribute {op key : Nat} {index step : Nat} {payload : List Byte} (h : Sound z s) :
    Sound z (s.contribute op key index step payload) :=
  h.takePart

theorem Sound.roundOver {key index step : Nat} (h : Sound z s) : Sound z (s.roundOver key index step) := by
  unfold State.roundOver
  exact Sound.ite h.modBcn.fillRounds h

theorem Sound.barrierIn {f : FabFrame} (h : Sound z s) : Sound z (s.barrierIn f) := by
  unfold State.barrierIn
  exact Sound.ite h (h.same (by rfl))

theorem Sound.barrierUp {f : FabFrame} (h : Sound z s) : Sound z (s.barrierUp f) := by
  unfold State.barrierUp
  split
  · exact (h.emit.forAll (fun _ _ h => h.flarePass)).barrierIn
  · split
    exacts [h.flarePass, h]

theorem Sound.barrierRx {f : FabFrame} (h : Sound z s) : Sound z (s.barrierRx f) := by
  unfold State.barrierRx
  exact Sound.ite (h.forAll (fun _ _ h => h.flarePass)).barrierIn (Sound.ite h (Sound.ite h.modBcn h.barrierUp))

theorem Sound.abandonIn {f : FlareFrame} (h : Sound z s) : Sound z (s.abandonIn f) := by
  unfold State.abandonIn
  exact Sound.ite h.abandonStep (Sound.ite h.modBcn h)

theorem Sound.sayHalted (h : Sound z s) : Sound z s.sayHalted := h.broadcast

theorem Sound.startLine {s0 : Nat} (h : Sound z s) : Sound z (s.startLine s0) := by
  unfold State.startLine
  exact Sound.ite h.modBcn.modBcn.beginRound h.modBcn

theorem Sound.lineOrder {f : FlareFrame} (h : Sound z s) : Sound z (s.lineOrder f) := by
  unfold State.lineOrder
  exact Sound.ite h.startLine (Sound.ite h.broadcast.abandonIn (Sound.ite h.haltLine h.haltLine.sayHalted))

theorem Sound.flareUp {f : FlareFrame} (h : Sound z s) : Sound z (s.flareUp f) := by
  unfold State.flareUp
  split
  · exact Sound.ite h.lineOrder h.broadcast
  · split
    exacts [h.flareSend, h]

theorem Sound.flareRx {port : Nat} {f : FlareFrame} (h : Sound z s) : Sound z (s.flareRx port f) := by
  unfold State.flareRx
  exact Sound.ite h (Sound.ite (h.forAll (fun _ _ h => h.flareSend)).abandonIn (Sound.ite h (Sound.ite h.modBcn (Sound.ite h.flareUp
      (Sound.ite h h.takePart)))))

theorem Sound.reissueBarriers (h : Sound z s) : Sound z s.reissueBarriers := by
  unfold State.reissueBarriers
  exact h.forAll (fun _ _ h => h.modBcn.barrierUp)

theorem Sound.reissue (h : Sound z s) : Sound z s.reissue := by
  unfold State.reissue
  exact (h.modBcn.forAll (fun _ _ h => h.tryRound)).fillRounds.reissueBarriers

theorem Sound.applyFence {m p : Nat} (h : Sound z s) : Sound z (s.applyFence m p) := by
  unfold State.applyFence
  exact Sound.ite h (Sound.ite h.modBcn.newDepth h.modBcn.newDepth.reissue)

theorem Sound.execFenceFloodRx {port : Fin 8} {module fencedPort : Nat} (h : Sound z s) :
    SoundOut z (execFenceFloodRx port module fencedPort s) := by
  unfold Machine.execFenceFloodRx
  exact SoundOut.ite h.next (SoundOut.ite h.flareTook.next h.flareTook.floodFrom.applyFence.next)

theorem Sound.fabricFault {unit : Nat} (h : Sound z s) : Sound z (s.fabricFault unit) := by
  unfold State.fabricFault
  split
  exacts [h.hwFault, h]

theorem Sound.fencePort {p : Nat} (h : Sound z s) : Sound z (s.fencePort p) := by
  unfold State.fencePort
  exact Sound.ite h.modPort.floodFrom.applyFence.event.fabricFault h.modPort.floodFrom.applyFence

theorem Sound.execFabricTrainDone {port : Fin 8} {module : Fin 1024} {island : Fin 16} {peerPort : Fin 8} (h : Sound z s) :
    SoundOut z (execFabricTrainDone port module island peerPort s) := by
  unfold Machine.execFabricTrainDone
  exact SoundOut.ite h.next (SoundOut.ite h.modPort.modPort.next h.modPort.modPort.event.next)

theorem Sound.execFabricTrainTimeout {port : Fin 8} (h : Sound z s) : SoundOut z (execFabricTrainTimeout port s) := by
  unfold Machine.execFabricTrainTimeout
  exact SoundOut.ite h.fencePort.next h.next

theorem Sound.execFabricSilence {port : Fin 8} (h : Sound z s) : SoundOut z (execFabricSilence port s) := by
  unfold Machine.execFabricSilence
  exact SoundOut.ite h.fencePort.next h.next

theorem Sound.execFabricLaneLockLost {port : Fin 8} {lanes : Nat} (h : Sound z s) : SoundOut z (execFabricLaneLockLost port lanes s) := by
  unfold Machine.execFabricLaneLockLost
  exact SoundOut.ite h.modPort.fencePort.next h.modPort.next

theorem Sound.execReplayTimeout {port : Fin 8} (h : Sound z s) : SoundOut z (execReplayTimeout port s) := by
  unfold Machine.execReplayTimeout
  exact SoundOut.ite h.next (SoundOut.ite h.fencePort.next h.replayPort.next)

theorem Sound.execIdleSend {port : Fin 8} (h : Sound z s) : SoundOut z (execIdleSend port s) := by
  unfold Machine.execIdleSend
  exact SoundOut.ite h.sendIdle.next h.next

theorem Sound.execIdleFrame {port : Fin 8} {f : FabFrame} (h : Sound z s) : SoundOut z (execIdleFrame port f s) := by
  unfold Machine.execIdleFrame
  exact SoundOut.ite h.linkFields.next h.next

theorem Sound.execLinkFrameDiscard {port : Fin 8} {outOfOrder : Bool} (h : Sound z s) : SoundOut z (execLinkFrameDiscard port outOfOrder s) := by
  unfold Machine.execLinkFrameDiscard
  exact SoundOut.ite h.linkDiscard.next h.next

theorem Sound.routeFrame {arr : Option Nat} {f : FabFrame} (h : Sound z s) : Sound z (s.routeFrame arr f) := by
  unfold State.routeFrame
  dsimp only
  split
  · split
    exacts [h, Sound.ite (h.same (by rfl)).event.fabricFault (h.same (by rfl)).event, h.linkSend]
  · exact Sound.ite (h.same (by rfl)).event.fabricFault (h.same (by rfl)).event

theorem Sound.execFrameForward {port : Fin 8} {f : FabFrame} (h : Sound z s) : SoundOut z (execFrameForward port f s) := by
  unfold Machine.execFrameForward
  exact SoundOut.ite h.linkAccept.routeFrame.next h.linkAccept.next

theorem Sound.modFlow {k : Nat} {g : Flow → Flow} (h : Sound z s) : Sound z (s.modFlow k g) := by
  unfold State.modFlow
  exact h.same (by rfl)

theorem Sound.dropFlow {k : Nat} (h : Sound z s) : Sound z (s.dropFlow k) := by
  unfold State.dropFlow
  exact h.same (by rfl)

theorem Sound.flowPump {k n : Nat} (h : Sound z s) : Sound z (s.flowPump k n) := by
  induction n generalizing s with
  | zero => exact h
  | succ n ih =>
    unfold State.flowPump
    split
    · exact h
    · split
      · exact h
      · exact Sound.ite h (ih h.modFlow.routeFrame)

theorem Sound.flowSend {k addr : Nat} {bytes : List Byte} (h : Sound z s) : Sound z (s.flowSend k addr bytes) := by
  unfold State.flowSend
  exact (h.forAll (fun _ _ h => h.modFlow)).flowPump

theorem Sound.landWrites {c : OutCmd} (h : Sound z s) : Sound z (s.landWrites c) :=
  h.setHostMem fun hm => wf_foldl id _ _ _ hm fun _ _ hm => wf_memWriteBytes _ _ _ hm

theorem Sound.sendMsg {part epoch : Nat} {set peer seg : Nat} {m : FabMsg} (h : Sound z s) : Sound z (s.sendMsg part epoch set peer seg m) := by
  unfold State.sendMsg
  exact ((Sound.ite h h.modFlow).forAll (fun _ _ h => h.modFlow)).flowPump

theorem Sound.transferDone {uid : Nat} (h : Sound z s) : Sound z (s.transferDone uid) := by
  refine Sound.modCmd ?_ fun c => ?_
  · split
    · exact Sound.ite h.landWrites h
    · exact h
  · dsimp only
    split
    · exact uid_finish _ _ _
    · rfl

theorem Sound.flowAckOut {k : Nat} (h : Sound z s) : Sound z (s.flowAckOut k) := by
  unfold State.flowAckOut
  split
  exacts [h.modFlow.routeFrame, h]

theorem Sound.hostPut {cls : ReiloClass} {a : Nat} {bytes : List Byte} (h : Sound z s) : Sound z (s.hostPut cls a bytes) := h.post

theorem Sound.hostPutFor {uid : Nat} {cls : ReiloClass} {a : Nat} {bytes : List Byte} (h : Sound z s) : Sound z (s.hostPutFor uid cls a bytes) :=
  (h.modCmd (by intro; rfl)).post

theorem Sound.packetWrite {k : Nat} {f : FabFrame} (h : Sound z s) : Sound z (s.packetWrite k f) := by
  unfold State.packetWrite
  dsimp only
  split
  · split
    exacts [h.same (by rfl), h.modFlow]
  · split
    · split
      · refine Sound.transferDone ?_
        refine Sound.modFlow ?_
        split
        exacts [h.modFlow.flowSend, Sound.ite h.hostPutFor (Sound.ite h h.pokeBytes)]
      · refine Sound.modFlow ?_
        split
        exacts [h.modFlow.flowSend, Sound.ite h.hostPutFor (Sound.ite h h.pokeBytes)]
    · exact Sound.ite h h.pokeBytes

theorem Sound.packetDeliver {k n : Nat} {x : FabFrame} (h : Sound z s) : Sound z (s.packetDeliver k n x) := by
  induction n generalizing s x with
  | zero => exact h
  | succ n ih =>
    unfold State.packetDeliver
    dsimp only
    split
    · exact ih h.packetWrite.modFlow
    · exact h.packetWrite.modFlow

theorem Sound.flowTake {k : Nat} {fl : Flow} {f : FabFrame} (h : Sound z s) : Sound z (s.flowTake k fl f) := by
  unfold State.flowTake
  exact Sound.ite (h.same (by rfl)) (Sound.ite h.modFlow
    (Sound.ite (Sound.ite h.packetDeliver (Sound.ite h.modFlow h)).modFlow.flowAckOut (Sound.ite
      h.packetDeliver (Sound.ite h.modFlow h)).modFlow))

theorem Sound.enginePacket {f : FabFrame} (h : Sound z s) : Sound z (s.enginePacket f) := by
  unfold State.enginePacket
  split
  · exact h
  · dsimp only
    split
    exacts [Sound.ite h.modFlow.flowTake h.flowTake, Sound.ite (h.same (by rfl)) h.modFlow.flowTake, h]

theorem Sound.packetRx {f : FabFrame} (h : Sound z s) : Sound z (s.packetRx f) := by
  unfold State.packetRx
  dsimp only
  split
  · exact h
  · split
    exacts [Sound.ite h (Sound.ite h.modFlow.packetDeliver h.modFlow.modFlow), h.flowTake]

theorem Sound.execBulkWritePacket {port : Fin 8} {f : FabFrame} (h : Sound z s) : SoundOut z (execBulkWritePacket port f s) := by
  unfold Machine.execBulkWritePacket
  exact SoundOut.ite h.linkAccept.packetRx.next h.linkAccept.next

theorem Sound.flowAcked {f : FabFrame} (h : Sound z s) : Sound z (s.flowAcked f) := by
  unfold State.flowAcked
  dsimp only
  split
  · exact h
  · split
    · exact h
    · split
      · exact h.same (by rfl)
      · split
        exacts [Sound.ite h.modFlow.flowPump.routeFrame.dropFlow.transferDone h.modFlow.flowPump, h.modFlow.flowPump]

theorem Sound.execFlowAck {port : Fin 8} {f : FabFrame} (h : Sound z s) : SoundOut z (execFlowAck port f s) := by
  unfold Machine.execFlowAck
  exact SoundOut.ite h.linkAccept.flowAcked.next h.linkAccept.next

theorem Sound.execFlowControlMessage {port : Fin 8} {f : FabFrame} (h : Sound z s) : SoundOut z (execFlowControlMessage port f s) :=
  SoundOut.ite h.linkAccept.dropFlow.next h.linkAccept.next

theorem Sound.execFlowAckTimer {ctx : Nat} (h : Sound z s) : SoundOut z (execFlowAckTimer ctx s) := by
  unfold Machine.execFlowAckTimer
  split
  exacts [SoundOut.ite h.next h.flowAckOut.next, h.next]

theorem Sound.engineFail {fl : Flow} (h : Sound z s) : Sound z (s.engineFail fl) := by
  unfold State.engineFail
  split
  exacts [Sound.ite h (h.same (by rfl)).finishAll.postReady, h]

theorem Sound.flowFail {k : Nat} {fl : Flow} (h : Sound z s) : Sound z (s.flowFail k fl) := by
  unfold State.flowFail
  refine Sound.hwFault ?_
  refine Sound.same ?_ (by rfl)
  refine Sound.event ?_
  split
  exacts [(h.same (by rfl)).finish.postReady, (h.same (by rfl)).engineFail]

theorem Sound.execFlowRetransmitTimeout {ctx fseq : Nat} (h : Sound z s) : SoundOut z (execFlowRetransmitTimeout ctx fseq s) := by
  unfold Machine.execFlowRetransmitTimeout
  split
  · exact h.next
  · split
    exacts [h.next, SoundOut.ite h.flowFail.next (h.same (by rfl)).routeFrame.next]

theorem Sound.modChan {f c : Nat} {g : Channel → Channel} (h : Sound z s) : Sound z (s.modChan f c g) := h.modFld

theorem Sound.countErr {f : Nat} {e : EccErr} (h : Sound z s) : Sound z (s.countErr f e) := by
  unfold State.countErr
  exact Sound.ite h (Sound.ite h.modChan (Sound.ite h.modChan.event h.modChan))

theorem Sound.readErrs {f : Nat} {errs : List EccErr} (h : Sound z s) : Sound z (s.readErrs f errs) := by
  unfold State.readErrs
  exact Sound.ite (Sound.ite (h.forAll (fun _ _ h => h.countErr)).knowDecision.faultBit.requestAbort (h.forAll (fun _ _ h =>
      h.countErr)).knowDecision) (h.forAll (fun _ _ h => h.countErr))

theorem Sound.numericEvents {f : Nat} {old : Word} (h : Sound z s) : Sound z (s.numericEvents f old) := by
  unfold State.numericEvents
  exact h.forAll (fun _ _ h => h.event)

theorem Sound.fieldMeter {f : Nat} {g : Meter → Meter} (h : Sound z s) : Sound z (s.fieldMeter f g) := by
  unfold State.fieldMeter
  refine Sound.numericEvents ?_
  split
  exacts [h.modMeter, Sound.ite h.modMeter.modFld h.modMeter]

theorem Sound.modTq {t q : Nat} {g : TileQueue → TileQueue} (h : Sound z s) : Sound z (s.modTq t q g) := h.modTile

theorem Sound.headFix {t q : Nat} (h : Sound z s) : Sound z (s.headFix t q) := by
  unfold State.headFix
  split
  exacts [h, h.modTq]

theorem Sound.execQueueRefill {u : Issuer} (h : Sound z s) : SoundOut z (execQueueRefill u s) := by
  unfold Machine.execQueueRefill
  exact SoundOut.ite h.next h.modTq.headFix.next

theorem Sound.execDescriptorStart {u : Issuer} (h : Sound z s) : SoundOut z (execDescriptorStart u s) := by
  unfold Machine.execDescriptorStart
  dsimp only
  split
  exacts [h.next, SoundOut.ite h.modTq.modTile.headFix.next h.next]

theorem Sound.foldCounts {f : Nat} (h : Sound z s) : Sound z (s.foldCounts f) := by
  unfold State.foldCounts
  exact h.same (by rfl)

theorem Sound.foldOwn {f : Nat} (h : Sound z s) : Sound z (s.foldOwn f) := h.modFld

theorem Sound.foldDone {f : Nat} (h : Sound z s) : Sound z (s.foldDone f) := by
  unfold State.foldDone
  exact Sound.ite h h.foldOwn

theorem Sound.useChange {f gid vtag : Nat} {acq : Bool} (h : Sound z s) : Sound z (s.useChange f gid vtag acq) := h.modGroup

theorem Sound.transom {p : TileProgramP} {acq : Bool} (h : Sound z s) : Sound z (s.transom p acq) := by
  unfold State.transom
  exact h.forAll (fun _ _ h => h.forAll (fun _ _ h => h.useChange))

theorem Sound.programEnd {uid status : Nat} (h : Sound z s) : Sound z (s.programEnd uid status) := by
  unfold State.programEnd
  split
  · exact h
  · split
    exacts [Sound.ite (Sound.ite (h.modCmd (by intro; rfl)).transom h) (h.transom.forAll (fun _ _ h => h.foldCounts)).finish, h]

theorem Sound.programDone {uid : Nat} (h : Sound z s) : Sound z (s.programDone uid) := by
  unfold State.programDone
  split
  exacts [h.programEnd, h]

theorem Sound.dropTile {t status : Nat} (h : Sound z s) : Sound z (s.dropTile t status) := by
  unfold State.dropTile
  exact h.setTile.forAll (fun _ _ h => h.programEnd)

theorem Sound.borrowDone {cmd : Nat} (h : Sound z s) : Sound z (s.borrowDone cmd) := by
  unfold State.borrowDone
  exact h.same (by rfl)

theorem Sound.checkProgram {uid : Nat} (h : Sound z s) : Sound z (s.checkProgram uid) := by
  unfold State.checkProgram
  exact Sound.ite h (Sound.ite h.borrowDone h.programDone)

theorem Sound.execDescriptorRetire {u : Issuer} (h : Sound z s) : SoundOut z (execDescriptorRetire u s) := by
  unfold Machine.execDescriptorRetire
  dsimp only
  split
  exacts [h.next, SoundOut.ite h.next (Sound.ite h.modTq.modTile.modTile h.modTq.modTile).checkProgram.next]

theorem Sound.acted {u : Issuer} {d : Descriptor} (h : Sound z s) : Sound z (s.acted u d) := h.modTq

theorem Sound.withLanes {u : Issuer} {d : Descriptor} {g : State → State} (h : Sound z s) (hg : ∀ s, Sound z s → Sound z (g s)) :
    Sound z (s.withLanes u d g) := by
  unfold State.withLanes
  dsimp only
  split
  · exact hg _ h
  · split
    exacts [hg _ h, (hg _ h.modTile).modTile]

theorem Sound.captured {t : Nat} {old : Word} (h : Sound z s) : Sound z (s.captured t old) := by
  unfold State.captured
  exact Sound.ite h.modFld h

theorem Sound.runUnit {u : Issuer} {hd : DHdr} {k : DKind} {eff : DescCtx → State → State} (h : Sound z s)
    (hg : ∀ cx s, Sound z s → Sound z (eff cx s)) :
    SoundOut z (s.runUnit u hd k eff) := by
  unfold State.runUnit
  exact SoundOut.ite h.next (h.withLanes (fun _ h => hg _ _ h)).captured.acted.next

theorem Sound.onTile {t : Nat} {g : Memory × TileState → Memory × TileState} (h : Sound z s)
    (hg : ∀ x, Memory.wf x.1 = true → Memory.wf (g x).1 = true) : Sound z (s.onTile t g) :=
  (h.setMem fun hm => hg (s.mem, s.tile t) hm).setTile

theorem Sound.loadEffect {cx : DescCtx} {d : MoveD} {errs : List EccErr} (h : Sound z s) : Sound z (s.loadEffect cx d errs) :=
  Sound.ite h (h.forAll fun _ _ h => h.setMem (wf_memWriteBytes _ _ _)).readErrs

theorem Sound.storeEffect {cx : DescCtx} {d : MoveD} (h : Sound z s) : Sound z (s.storeEffect cx d) := by
  unfold State.storeEffect
  exact h.forAll (fun _ _ h => h.pokeBytes)

theorem Sound.execLoad {u : Issuer} {hd : DHdr} {d : MoveD} {errs : List EccErr} (h : Sound z s) : SoundOut z (execLoad u hd d errs s) := by
  unfold Machine.execLoad
  exact h.runUnit (fun _ _ h => h.loadEffect)

theorem Sound.execStore {u : Issuer} {hd : DHdr} {d : MoveD} (h : Sound z s) : SoundOut z (execStore u hd d s) := by
  unfold Machine.execStore
  exact h.runUnit (fun _ _ h => h.storeEffect)

theorem Sound.execStage {u : Issuer} {hd : DHdr} {d : StageD} (h : Sound z s) : SoundOut z (execStage u hd d s) := by
  unfold Machine.execStage
  exact h.runUnit (fun _ _ h => h.modTile)

theorem Sound.execSwap {u : Issuer} {hd : DHdr} {arrays : Nat} (h : Sound z s) : SoundOut z (execSwap u hd arrays s) := by
  unfold Machine.execSwap
  exact h.runUnit (fun _ _ h => h.modTile)

theorem Sound.execPass {u : Issuer} {hd : DHdr} {d : PassD} (h : Sound z s) : SoundOut z (execPass u hd d s) := by
  unfold Machine.execPass
  exact SoundOut.ite h.next (h.runUnit (fun _ _ h => h.modTile))

theorem Sound.execPairedPass {u : Issuer} {hd : DHdr} {d : PassD} (h : Sound z s) : SoundOut z (execPairedPass u hd d s) := by
  unfold Machine.execPairedPass
  exact SoundOut.ite h.next (h.runUnit (fun _ _ h => h.modTile))

theorem Sound.execDrain {u : Issuer} {hd : DHdr} {d : DrainD} (h : Sound z s) : SoundOut z (execDrain u hd d s) :=
  h.runUnit fun _ _ h => h.onTile fun _ hm => wf_drainEffect hm

theorem Sound.rowUnit {cx : DescCtx} {op : Nat} {d : RowD} (h : Sound z s) : Sound z (s.rowUnit cx op d) :=
  Sound.ite (h.setMem wf_rowEffect).setTile.fieldMeter (h.setMem wf_rowEffect).setTile

theorem Sound.execSmxFwd {u : Issuer} {hd : DHdr} {d : RowD} (h : Sound z s) : SoundOut z (execSmxFwd u hd d s) := by
  unfold Machine.execSmxFwd
  exact h.runUnit (fun _ _ h => h.rowUnit)

theorem Sound.execSmxDot {u : Issuer} {hd : DHdr} {d : RowD} (h : Sound z s) : SoundOut z (execSmxDot u hd d s) := by
  unfold Machine.execSmxDot
  exact h.runUnit (fun _ _ h => h.rowUnit)

theorem Sound.execSmxBwd {u : Issuer} {hd : DHdr} {d : RowD} (h : Sound z s) : SoundOut z (execSmxBwd u hd d s) := by
  unfold Machine.execSmxBwd
  exact h.runUnit (fun _ _ h => h.rowUnit)

theorem Sound.execNormStats {u : Issuer} {hd : DHdr} {d : RowD} (h : Sound z s) : SoundOut z (execNormStats u hd d s) := by
  unfold Machine.execNormStats
  exact h.runUnit (fun _ _ h => h.rowUnit)

theorem Sound.execNormFwd {u : Issuer} {hd : DHdr} {d : RowD} (h : Sound z s) : SoundOut z (execNormFwd u hd d s) := by
  unfold Machine.execNormFwd
  exact h.runUnit (fun _ _ h => h.rowUnit)

theorem Sound.execNormDot {u : Issuer} {hd : DHdr} {d : RowD} (h : Sound z s) : SoundOut z (execNormDot u hd d s) := by
  unfold Machine.execNormDot
  exact h.runUnit (fun _ _ h => h.rowUnit)

theorem Sound.execNormBwd {u : Issuer} {hd : DHdr} {d : RowD} (h : Sound z s) : SoundOut z (execNormBwd u hd d s) := by
  unfold Machine.execNormBwd
  exact h.runUnit (fun _ _ h => h.rowUnit)

theorem Sound.execRecSave {u : Issuer} {hd : DHdr} {d : RowD} (h : Sound z s) : SoundOut z (execRecSave u hd d s) :=
  h.runUnit fun _ _ h => h.setMem wf_recSaveEffect

theorem Sound.execRecLoad {u : Issuer} {hd : DHdr} {d : RowD} (h : Sound z s) : SoundOut z (execRecLoad u hd d s) := by
  unfold Machine.execRecLoad
  exact h.runUnit (fun _ _ h => h.modTile)

theorem Sound.laneUnit {u : Issuer} {hd : DHdr} {op : Nat} {d : LaneD} (h : Sound z s) : SoundOut z (s.laneUnit u hd op d) :=
  h.runUnit fun _ _ h => h.onTile fun _ hm => wf_laneEffect hm

theorem Sound.putNow {cx : DescCtx} {eval write : Bool} {d : PutD} (h : Sound z s) : Sound z (s.putNow cx eval write d) := by
  unfold State.putNow
  dsimp only
  split
  · exact h.modTile.forAll fun _ _ h => h.modGroup.event
  · exact (h.setMem fun hm => wf_putRows hm).setTile.modFld.fieldMeter

theorem Sound.execPutAdd {u : Issuer} {hd : DHdr} {d : PutD} (h : Sound z s) : SoundOut z (execPutAdd u hd d s) := by
  unfold Machine.execPutAdd
  dsimp only
  split
  exacts [h.next, SoundOut.ite h.modTq.next (h.runUnit (fun _ _ h => h.putNow))]

theorem Sound.execPutWrite {u : Issuer} {hd : DHdr} {d : PutD} (h : Sound z s) : SoundOut z (execPutWrite u hd d s) := by
  unfold Machine.execPutWrite
  exact h.runUnit (fun _ _ h => h.putNow)

theorem Sound.execPutRelease {u : Issuer} (h : Sound z s) : SoundOut z (execPutRelease u s) := by
  unfold Machine.execPutRelease
  split
  · exact h.next
  · split
    exacts [SoundOut.ite h.next h.putNow.acted.next, h.next]

theorem Sound.execGet {u : Issuer} {hd : DHdr} {d : GetD} (h : Sound z s) : SoundOut z (execGet u hd d s) :=
  h.runUnit fun _ _ h => h.setMem (wf_memCopy _ _ _ _)

theorem Sound.execWaitSemaphore {u : Issuer} {hd : DHdr} {d : WaitD} (h : Sound z s) : SoundOut z (execWaitSemaphore u hd d s) := by
  unfold Machine.execWaitSemaphore
  exact SoundOut.ite (h.runUnit (fun _ _ h => h.modTile)) h.next

theorem Sound.execWaitMark {u : Issuer} {hd : DHdr} {d : WaitD} (h : Sound z s) : SoundOut z (execWaitMark u hd d s) := by
  unfold Machine.execWaitMark
  exact SoundOut.ite (h.runUnit (fun _ _ h => h)) h.next

theorem Sound.execFence {u : Issuer} {hd : DHdr} {qmask : Nat} (h : Sound z s) : SoundOut z (execFence u hd qmask s) := by
  unfold Machine.execFence
  split
  exacts [SoundOut.ite (h.runUnit (fun _ _ h => h)) h.next, h.runUnit (fun _ _ h => h)]

theorem Sound.queueEntries {tile q : Nat} {log : Bool} {es : List QEntry} (h : Sound z s) : Sound z (s.queueEntries tile q log es) :=
  h.modTq

theorem Sound.queueStreams {uid : Nat} {eval log : Bool} {p : TileProgramP} (h : Sound z s) : Sound z (s.queueStreams uid eval log p) := by
  unfold State.queueStreams
  exact h.forAll (fun _ _ h => h.forAll (fun _ _ h => h.queueEntries))

theorem Sound.programQueue {uid part : Nat} {eval : Bool} {p : TileProgramP} (h : Sound z s) : Sound z (s.programQueue uid part eval p) := by
  unfold State.programQueue
  exact ((Sound.ite (h.modCmd (by intro; rfl)) h).transom.modCmd (by intro; rfl)).queueStreams.checkProgram

theorem Sound.programAcquire {uid part : Nat} {eval : Bool} {p : TileProgramP} (h : Sound z s) : Sound z (s.programAcquire uid part eval p) := by
  unfold State.programAcquire
  split
  exacts [h.finish.modCmd (by intro; rfl), h.programQueue]

theorem Sound.startTileProgram {uid part : Nat} {eval : Bool} {p : TileProgramP} (h : Sound z s) :
    Sound z (startTileProgram s uid part eval p) := by
  unfold Machine.startTileProgram
  split
  exacts [h.finish.modCmd (by intro; rfl), Sound.ite (h.modCmd (by intro; rfl)) h.programAcquire]

theorem Sound.countEvs {g : GroupP} {evs : List Ev} (h : Sound z s) : Sound z (s.countEvs g evs) := h.fieldMeter

theorem Sound.countResults {g : GroupP} {fmt : Nat} {cls : List Cls} {evs : List Ev} (h : Sound z s) : Sound z (s.countResults g fmt cls evs) :=
  h.fieldMeter

theorem Sound.countConv {g : GroupP} {fmt : Nat} {evs : List Ev} (h : Sound z s) : Sound z (s.countConv g fmt evs) := h.countResults

theorem Sound.countReads {g : GroupP} {n : Nat} (h : Sound z s) : Sound z (s.countReads g n) := by
  unfold State.countReads
  exact Sound.ite h h.fieldMeter

theorem Sound.pokeF32s {a : Nat} {ws : List F32} (h : Sound z s) : Sound z (s.pokeF32s a ws) := h.pokeBytes

theorem Sound.wcWrite {g : GroupP} {v b : Nat} {scales codes : List Nat} (h : Sound z s) : Sound z (s.wcWrite g v b scales codes) :=
  Sound.ite (h.setMem wf_writeVec) (h.setMem wf_writeVec)

theorem Sound.wcPad {g : GroupP} {v t : Nat} (h : Sound z s) : Sound z (s.wcPad g v t) := h.setMem wf_padVecs

theorem Sound.zeroRange {a n : Nat} (h : Sound z s) : Sound z (s.zeroRange a n) := h.setMem (wf_filter _ _)

theorem Sound.zeroPlanes {g : GroupP} (h : Sound z s) : Sound z (s.zeroPlanes g) := by
  unfold State.zeroPlanes
  exact Sound.ite ((h.forAll (fun _ _ h => h.zeroRange)).forAll (fun _ _ h => h.store)) (h.forAll (fun _ _ h => h.zeroRange))

theorem Sound.startPgroupReg {uid : Nat} {g : GroupP} (h : Sound z s) : Sound z (startPgroupReg s uid g) := by
  unfold Machine.startPgroupReg
  exact Sound.ite h.finish h.modFld.clearGrad.zeroPlanes.finish

theorem Sound.removeGroup {f gid : Nat} (h : Sound z s) : Sound z (s.removeGroup f gid) := by
  unfold State.removeGroup
  split
  · split
    exacts [Sound.ite h (h.same (by rfl)).finish, h]
  · exact h

theorem Sound.startPgroupRemove {uid : Nat} {p : FieldGid} (h : Sound z s) : Sound z (startPgroupRemove s uid p) := by
  unfold Machine.startPgroupRemove
  exact Sound.ite h.modGroup h.modGroup.removeGroup

theorem Sound.startPublish {uid : Nat} {p : FieldGid} (h : Sound z s) : Sound z (startPublish s uid p) := h.modGroup

theorem Sound.doAudit {uid : Nat} {g : Group} (h : Sound z s) : Sound z (s.doAudit uid g) := h.countReads.foldDone.finish

theorem Sound.startAudit {uid : Nat} {p : FieldGid} (h : Sound z s) : Sound z (startAudit s uid p) := by
  unfold Machine.startAudit
  split
  exacts [Sound.ite h.doAudit h, h.finish]

theorem Sound.runAudits {f gid : Nat} (h : Sound z s) : Sound z (s.runAudits f gid) := by
  unfold State.runAudits
  split
  exacts [Sound.ite (h.forAll (fun _ _ h => h.doAudit)) h, h]

theorem Sound.collPut {ty : Nat} {mv : Bool} {base b : Nat} {raw : List Byte} (h : Sound z s) : Sound z (s.collPut ty mv base b raw) := by
  unfold State.collPut
  exact Sound.ite h.pokeBytes h.pokeBytes.pokeBytes

theorem Sound.modJob {uid : Nat} {f : CollJob → CollJob} (h : Sound z s) : Sound z (s.modJob uid f) := by
  unfold State.modJob
  exact h.same (by rfl)

theorem Sound.collMeter {j : CollJob} {fmt : Nat} {cls : List Cls} {evs : List Ev} {long : Bool} (h : Sound z s) :
    Sound z (s.collMeter j fmt cls evs long) :=
  h.fieldMeter

theorem Sound.collOwnReads {j : CollJob} {seg : Nat × Nat × Nat} (h : Sound z s) : Sound z (s.collOwnReads j seg) := by
  unfold State.collOwnReads
  exact Sound.ite h h.fieldMeter

theorem Sound.collMsg {j : CollJob} {rank seg : Nat} {m : FabMsg} (h : Sound z s) : Sound z (s.collMsg j rank seg m) := h.sendMsg

theorem Sound.collSend {j : CollJob} {rank seg : Nat} {final : Bool} {data : List Byte} (h : Sound z s) :
    Sound z (s.collSend j rank seg final data) :=
  h.collMsg

theorem Sound.sendSig {j : CollJob} {rank : Nat} (h : Sound z s) : Sound z (s.sendSig j rank) := h.collMsg

theorem Sound.collWrite {j : CollJob} {k : Nat} {data : List Byte} (h : Sound z s) : Sound z (s.collWrite j k data) := by
  unfold State.collWrite
  exact (Sound.ite h.pokeBytes (h.forAll (fun _ _ h => h.collPut))).modJob

theorem Sound.collResult {j : CollJob} {k : Nat} {ws : List F32} (h : Sound z s) : Sound z (s.collResult j k ws) := by
  unfold State.collResult
  exact (h.forAll (fun _ _ h => h.collMeter)).forAll (fun _ _ h => Sound.ite h.collWrite h.collSend)

theorem Sound.collAdd {j : CollJob} {k rank : Nat} {ws : List F32} {own : List Cls} (h : Sound z s) : Sound z (s.collAdd j k rank ws own) := by
  unfold State.collAdd
  exact (Sound.ite h.collMeter h).modJob

theorem Sound.collFull {uid k : Nat} (h : Sound z s) : Sound z (s.collFull uid k) := by
  unfold State.collFull
  split
  exacts [Sound.ite h.collResult h, h]

theorem Sound.collChain {uid k : Nat} {ws : Option (List F32)} (h : Sound z s) : Sound z (s.collChain uid k ws) := by
  unfold State.collChain
  split
  · exact h
  · dsimp only
    split
    · split
      · refine Sound.collAdd ?_
        split
        exacts [h.collOwnReads.collAdd, h.collOwnReads]
      · split
        exacts [h.collOwnReads.collAdd, h.collOwnReads]
    · split
      · refine Sound.collSend ?_
        refine Sound.collMeter ?_
        split
        · refine Sound.collAdd ?_
          split
          exacts [h.collOwnReads.collAdd, h.collOwnReads]
        · split
          exacts [h.collOwnReads.collAdd, h.collOwnReads]
      · refine Sound.collResult ?_
        split
        · refine Sound.collAdd ?_
          split
          exacts [h.collOwnReads.collAdd, h.collOwnReads]
        · split
          exacts [h.collOwnReads.collAdd, h.collOwnReads]

theorem Sound.collFinish {uid status : Nat} (h : Sound z s) : Sound z (s.collFinish uid status) := by
  unfold State.collFinish
  refine Sound.finish ?_
  refine Sound.same ?_ (by rfl)
  dsimp only
  split
  exacts [Sound.ite h h.foldDone, h]

theorem Sound.collDrain {g n : Nat} (h : Sound z s) : Sound z (s.collDrain g n) := by
  induction n generalizing s with
  | zero => exact h
  | succ n ih =>
    unfold State.collDrain
    split
    · exact Sound.ite (ih h.collFinish) h
    · exact h

theorem Sound.collStart {uid : Nat} (h : Sound z s) : Sound z (s.collStart uid) := by
  unfold State.collStart
  split
  · exact h
  · dsimp only
    split
    · exact h.modJob.forAll (fun _ _ h => (h.forAll (fun _ _ h => h.collSend)).collWrite)
    · exact Sound.ite h.modJob (h.modJob.forAll (fun _ _ h => (h.forAll (fun _ _ h => h.collSend)).collWrite))
    · exact h.modJob.forAll (fun _ _ h => h.forAll (fun _ _ h' => Sound.ite h'.pokeBytes.modJob h'.collSend))
    · exact Sound.ite h.modJob h.modJob.barrierUp
    · split
      · exact Sound.ite (h.modJob.forAll (fun _ _ h => h.collChain)) h.modJob
      · refine Sound.forAll h.modJob ?_
        intro _ _ h
        split
        · split
          exacts [h.collOwnReads.collAdd.collFull, h.collOwnReads]
        · exact h.collOwnReads.collMeter.collSend

theorem Sound.collResidue {j : CollJob} {g : CollSeg} (h : Sound z s) : Sound z (s.collResidue j g).1 := by
  unfold State.collResidue
  split
  · exact h
  · extract_lets part b s1 lanes b' s2
    have h1 : Sound z s1 := h.same (by rfl)
    have h2 : Sound z s2 := Sound.hwFault (Sound.same (s := s1) h1 (by rfl))
    split
    · exact h1
    · split
      · exact h2
      · exact h2.collFinish

theorem Sound.collTake {j : CollJob} {g : CollSeg} (h : Sound z s) : Sound z (s.collTake j g) := by
  have hr := h.collResidue (j := j) (g := g)
  exact Sound.ite (Sound.ite h.pokeBytes.modJob h.collWrite) (Sound.ite hr
    (Sound.ite (Sound.ite hr.collChain hr) (Sound.ite hr.collAdd.collFull hr)))

theorem Sound.collEarly {uid : Nat} (h : Sound z s) : Sound z (s.collEarly uid) := by
  unfold State.collEarly
  split
  · exact h
  · refine Sound.forAll (h.same (by rfl)) ?_
    intro _ _ h
    split
    exacts [h.collTake, h]

theorem Sound.collSigned {uid : Nat} (h : Sound z s) : Sound z (s.collSigned uid) := by
  unfold State.collSigned
  split
  exacts [h, Sound.ite h (Sound.ite h.collFinish.collDrain h.collStart.collEarly.collDrain)]

theorem Sound.collSig {uid : Nat} {g : CollSig} (h : Sound z s) : Sound z (s.collSig uid g) := h.modJob.collSigned

theorem Sound.cgroupSweep (h : Sound z s) : Sound z s.cgroupSweep := by
  unfold State.cgroupSweep
  refine Sound.forAll h ?_
  intro _ _ h
  split
  exacts [Sound.ite (h.same (by rfl)).finish h, h]

theorem Sound.issueCollective {uid part op : Nat} {p : CollP} (h : Sound z s) : Sound z (issueCollective s uid part op p) := by
  unfold Machine.issueCollective
  extract_lets g inStep j b s1 s2 mine s3 held early b' s4
  have h3 : Sound z s3 := (Sound.modCmd (s := s1) (h.same (by rfl)) (by intro; rfl)).forAll fun _ _ h => h.sendSig
  have h4 : Sound z s4 := h3.same (by rfl)
  exact Sound.ite h.finish (h4.foldl fun _ _ h => h.collSig).cgroupSweep

theorem Sound.startCollective {uid part op : Nat} {p : CollP} (h : Sound z s) : Sound z (startCollective s uid part op p) := by
  unfold Machine.startCollective
  exact Sound.ite (h.modCmd (by intro; rfl)) h.issueCollective

theorem Sound.takeSig {g : CollSig} (h : Sound z s) : Sound z (s.takeSig g) := by
  unfold State.takeSig
  split
  exacts [h.collSig.cgroupSweep, h.same (by rfl)]

theorem Sound.takeSeg {g : CollSeg} (h : Sound z s) : Sound z (s.takeSeg g) := by
  unfold State.takeSeg
  split
  exacts [Sound.ite h.collTake.collDrain.cgroupSweep (h.same (by rfl)), Sound.ite h (h.same (by rfl))]

theorem Sound.execFlareFrameRx {port : Fin 8} {f : FabFrame} (h : Sound z s) : SoundOut z (execFlareFrameRx port f s) := by
  unfold Machine.execFlareFrameRx
  exact SoundOut.ite (Sound.ite h.linkAccept.barrierRx.collDrain.cgroupSweep h.linkAccept.flareRx).next h.linkAccept.next

theorem Sound.reissueCollectives (h : Sound z s) : Sound z s.reissueCollectives := by
  refine List.foldlRecOn (motive := fun r : State × Bool => Sound z r.1) _ _ h fun r hr c _ => ?_
  split
  · exact hr
  · split
    · split
      · exact hr.issueCollective
      · exact hr
    · exact hr

theorem Sound.startCgroupReg {uid part id : Nat} {ms : List Nat} (h : Sound z s) : Sound z (startCgroupReg s uid part id ms) := by
  unfold Machine.startCgroupReg
  exact (h.same (by rfl)).finish

theorem Sound.startCgroupRemove {uid id : Nat} (h : Sound z s) : Sound z (startCgroupRemove s uid id) := by
  unfold Machine.startCgroupRemove
  exact Sound.ite (h.same (by rfl)).finish h

theorem Sound.startActReg {uid part : Nat} {p : ActP} (h : Sound z s) : Sound z (startActReg s uid part p) := by
  unfold Machine.startActReg
  exact (Sound.ite h (h.same (by rfl))).finish

theorem Sound.startActRemove {uid part aid : Nat} (h : Sound z s) : Sound z (startActRemove s uid part aid) := by
  unfold Machine.startActRemove
  exact (h.same (by rfl)).finish

theorem Sound.startFootprint {uid part : Nat} (h : Sound z s) : Sound z (startFootprint s uid part) := h.finish

theorem Sound.park {g : Group} (h : Sound z s) : Sound z (s.park g) := h.pokeBytes.modGroup

theorem Sound.countNorm {f : Nat} (h : Sound z s) : Sound z (s.countNorm f) := by
  unfold State.countNorm
  exact h.forAll (fun _ _ h => h.countReads)

theorem Sound.formNorm {f : Nat} (h : Sound z s) : Sound z (s.formNorm f) := h.countNorm.modFld

theorem Sound.checkNorm (h : Sound z s) : Sound z s.checkNorm := by
  unfold State.checkNorm
  exact Sound.ite h (Sound.ite (h.forAll (fun _ _ h => h.formNorm)).contribute (h.forAll (fun _ _ h => h.formNorm)))

theorem Sound.afterLanding {f gid : Nat} (h : Sound z s) : Sound z (s.afterLanding f gid) := by
  unfold State.afterLanding
  split
  exacts [(Sound.ite h.park h).checkNorm, h]

theorem Sound.toMember {g : GroupP} {m : Nat × Nat} {kind idx step : Nat} {bytes : List Byte} (h : Sound z s) :
    Sound z (s.toMember g m kind idx step bytes) := by
  unfold State.toMember
  exact Sound.ite h.emit h.sendMsg

theorem Sound.shardLanded {f gid j : Nat} (h : Sound z s) : Sound z (s.shardLanded f gid j) := by
  unfold State.shardLanded
  split
  exacts [h, (Sound.ite (h.modGroup.forAll (fun _ _ h => h.toMember)) h.modGroup).afterLanding]

theorem Sound.addContrib {f gid : Nat} {step rank : Nat} {bytes : List Byte} (h : Sound z s) : Sound z (s.addContrib f gid step rank bytes) :=
  h.modGroup

theorem Sound.reduceBlock {g : GroupP} {cs : List (List Byte)} {i : Nat} (h : Sound z s) : Sound z (s.reduceBlock g cs i) :=
  h.countEvs.countResults.setMem (wf_memWriteBytes _ _ _)

theorem Sound.tryReduce {f gid : Nat} (h : Sound z s) : Sound z (s.tryReduce f gid) := by
  unfold State.tryReduce
  split
  exacts [h, Sound.ite h (h.forAll (fun _ _ h => h.reduceBlock)).shardLanded]

theorem Sound.sendContrib {g : GroupP} {j : Nat} {bytes : List Byte} (h : Sound z s) : Sound z (s.sendContrib g j bytes) := by
  unfold State.sendContrib
  exact Sound.ite h.addContrib.tryReduce h.toMember

theorem Sound.exchange {f gid : Nat} (h : Sound z s) : Sound z (s.exchange f gid) := by
  unfold State.exchange
  split
  · exact h
  · extract_lets res blocks s1 sf s2 s3 s4
    have h3 : Sound z s3 :=
      ((h.forAll fun _ _ h => h.pokeBytes).countReads.countEvs.forAll fun _ _ h => h.countResults.countConv).modGroup
    exact Sound.ite h (Sound.ite (h3.setMem (wf_memWriteBytes _ _ _)).countEvs.shardLanded
      (h3.forAll fun _ _ h => h.sendContrib).afterLanding)

theorem Sound.doShardReductionLanded {field : Fin 64} {gid : Nat} {data : List (Nat × List Byte)} (h : Sound z s) :
    SoundOut z (doShardReductionLanded field gid data s) := by
  unfold Machine.doShardReductionLanded
  exact SoundOut.ite h.next (h.forAll (fun _ _ h => h.addContrib)).tryReduce.next

theorem Sound.doMirrorShardLanded {field : Fin 64} {gid shard : Nat} {data : List Byte} (h : Sound z s) :
    SoundOut z (doMirrorShardLanded field gid shard data s) := by
  unfold Machine.doMirrorShardLanded
  split
  · exact h.next
  · exact SoundOut.ite h.next (h.setMem (wf_memWriteBytes _ _ _)).shardLanded.next

theorem Sound.doNormResult {step : Nat} {value : F32} (h : Sound z s) : SoundOut z (doNormResult step value s) := by
  unfold Machine.doNormResult
  exact SoundOut.ite h.next (h.roundOver.forAll (fun _ _ h => h.modFld)).next

theorem Sound.execUpdateSweepStart {field : Fin 64} (h : Sound z s) : SoundOut z (execUpdateSweepStart field s) := by
  unfold Machine.execUpdateSweepStart
  dsimp only
  split
  · exact h.next
  · split
    exacts [h.modFld.next, h.next]

theorem Sound.putMasters {g : Group} {i : Nat} {ws : List UV} {cls : List Cls} (h : Sound z s) : Sound z (s.putMasters g i ws cls) :=
  h.pokeF32s.fieldMeter

theorem Sound.putMoments {g : Group} {kind i : Nat} {ms : List F32} (h : Sound z s) : Sound z (s.putMoments g kind i ms) :=
  h.pokeBytes.pokeBytes.fieldMeter

theorem Sound.elemBlock {g : Group} {c : RuleCtx} {vs : List UV} {i : Nat} (h : Sound z s) : Sound z (s.elemBlock g c vs i) := by
  unfold State.elemBlock
  exact Sound.ite h.countReads.countEvs.putMasters.putMoments h.countReads.countEvs.putMasters.putMoments.putMoments

theorem Sound.countMomenta {g : Group} (h : Sound z s) : Sound z (s.countMomenta g) := h.countReads.countEvs

theorem Sound.matMasters {g : Group} {c : RuleCtx} {ds : List F32} (h : Sound z s) : Sound z (s.matMasters g c ds) := by
  unfold State.matMasters
  exact h.forAll (fun _ _ h => h.countReads.putMasters)

theorem Sound.allMoments {g : Group} {ms : List F32} (h : Sound z s) : Sound z (s.allMoments g ms) := by
  unfold State.allMoments
  exact h.forAll (fun _ _ h => h.putMoments)

theorem Sound.fillScratch {g : Group} (h : Sound z s) : Sound z (s.fillScratch g) :=
  h.forAll fun s _ h => (h.setMem (m := memWriteBytes s.mem _ _) (wf_memWriteBytes _ _ _)).same (by rfl)

theorem Sound.putFactor {g : Group} {kind : Nat} {ws : List UV} {ins : Nat → List F32} (h : Sound z s) :
    Sound z (s.putFactor g kind ws ins) :=
  h.pokeF32s.fieldMeter

theorem Sound.countSweep {g : Group} {t : Tally} (h : Sound z s) : Sound z (s.countSweep g t) := h.fieldMeter

theorem Sound.countStream {g : Group} {t : Tally} (h : Sound z s) : Sound z (s.countStream g t) := by
  unfold State.countStream
  split
  exacts [h, h.modTile.captured]

theorem Sound.sweepWork {g : Group} {idx : Nat} (h : Sound z s) : Sound z (s.sweepWork g idx) := by
  unfold State.sweepWork
  dsimp only
  split
  · exact h.countReads.putFactor.putFactor
  · exact h.countReads.forAll (fun _ _ h => h.elemBlock)
  · exact h.countMomenta
  · exact h.countMomenta.countSweep.fillScratch
  · exact h.countMomenta.countStream.matMasters.allMoments
  · exact h.countMomenta.countSweep.allMoments.fillScratch
  · exact h.pokeF32s.pokeF32s.pokeF32s.pokeF32s.countStream.matMasters
  · exact h.forAll (fun _ _ h => h.elemBlock)

theorem Sound.writeBack {g : Group} (h : Sound z s) : Sound z (s.writeBack g) := by
  unfold State.writeBack
  exact (h.forAll (fun _ _ h => h.store)).modGroup

theorem Sound.writeAgain {f gid : Nat} (h : Sound z s) : Sound z (s.writeAgain f gid) := by
  unfold State.writeAgain
  split
  exacts [h, Sound.ite h (h.forAll (fun _ _ h => h.store)).modGroup]

theorem Sound.putShard {g : Group} {shard : Nat} {data : List Byte} (h : Sound z s) : Sound z (s.putShard g shard data) :=
  h.pokeBytes

theorem Sound.flushMasters {f gid : Nat} (h : Sound z s) : Sound z (s.flushMasters f gid) := by
  unfold State.flushMasters
  split
  · split
    exacts [(h.forAll (fun _ _ h => h.putShard)).modGroup, h]
  · exact h

theorem Sound.doUpdateSweepDone {field : Fin 64} (h : Sound z s) : SoundOut z (doUpdateSweepDone field s) := by
  unfold Machine.doUpdateSweepDone
  split
  · exact h.next
  · split
    · exact h.modFld.next
    · exact (Sound.ite (Sound.ite h.sweepWork.modGroup.writeBack h.sweepWork.modGroup).flushMasters (Sound.ite h.sweepWork.modGroup.writeBack
        h.sweepWork.modGroup)).modFld.next

theorem Sound.execTileBorrow {field : Fin 64} {gid : Nat} (h : Sound z s) : SoundOut z (execTileBorrow field gid s) := by
  unfold Machine.execTileBorrow
  split
  · exact h.next
  · exact SoundOut.ite h.next (Sound.ite (h.forAll (fun _ _ h => h.modTq)).modGroup.modFld (h.forAll (fun _ _ h => h.modTq)).modGroup).next

theorem Sound.execStateFetch {field : Fin 64} {gid : Nat} (h : Sound z s) : SoundOut z (execStateFetch field gid s) := by
  unfold Machine.execStateFetch
  split
  exacts [h.next, SoundOut.ite h.next (h.modGroup.forAll (fun _ _ h => h.tell)).next]

theorem Sound.execFetchLanded {field : Fin 64} {gid : Nat} {data : List Byte} (h : Sound z s) : SoundOut z (execFetchLanded field gid data s) := by
  unfold Machine.execFetchLanded
  split
  exacts [h.next, SoundOut.ite h.next (h.forAll (fun _ _ h => h.pokeBytes)).modFld.runAudits.next]

theorem Sound.execTierWritebackAck {field : Fin 64} {gid waitUs : Nat} (h : Sound z s) : SoundOut z (execTierWritebackAck field gid waitUs s) := by
  unfold Machine.execTierWritebackAck
  split
  · exact h.next
  · split
    exacts [h.next, h.modGroup.next]

theorem Sound.takeShard {f gid rank : Nat} {data : List Byte} (h : Sound z s) : Sound z (s.takeShard f gid rank data) := by
  unfold State.takeShard
  split
  exacts [h, (h.forAll (fun _ _ h => Sound.ite h.wcWrite h)).modGroup]

theorem Sound.takeWaiting {f gid : Nat} (h : Sound z s) : Sound z (s.takeWaiting f gid) := by
  unfold State.takeWaiting
  split
  exacts [h, h.modGroup.forAll (fun _ _ h => h.takeShard)]

theorem Sound.ownerShard {f gid : Nat} {rank v : Nat} {data : List Byte} (h : Sound z s) : Sound z (s.ownerShard f gid rank v data) := by
  unfold State.ownerShard
  split
  exacts [h, Sound.ite h (Sound.ite h.takeShard h.modGroup)]

theorem Sound.countEmit {g : Group} {flushed : Nat} {evs : List (List Ev)} (h : Sound z s) : Sound z (s.countEmit g flushed evs) := by
  unfold State.countEmit
  exact h.countReads.forAll (fun _ _ h => h.countConv)

theorem Sound.execWorkingCopyEmit {field : Fin 64} {gid : Nat} (h : Sound z s) : SoundOut z (execWorkingCopyEmit field gid s) := by
  unfold Machine.execWorkingCopyEmit
  split
  · exact h.next
  · extract_lets own v cs s0 s1 s2 bytes s3
    have h0 : Sound z s0 := h.forAll fun _ _ h => Sound.ite h.wcPad h
    have h1 : Sound z s1 := h0.forAll fun _ _ h => Sound.ite h.wcWrite h
    have h3 : Sound z s3 := Sound.ite (h1.countEmit.forAll fun _ _ h => h.toMember) h1.countEmit
    exact SoundOut.ite h.next h3.modGroup.takeWaiting.next

theorem Sound.execVersionPublish {field : Fin 64} {gid : Nat} (h : Sound z s) : SoundOut z (execVersionPublish field gid s) := by
  unfold Machine.execVersionPublish
  split
  · exact h.next
  · split
    · exact h.next
    · refine Sound.next ?_
      refine Sound.removeGroup ?_
      refine Sound.runAudits ?_
      split
      exacts [h.modGroup.foldDone.finish, h.modGroup]

theorem Sound.commitGroup {f gid : Nat} (h : Sound z s) : Sound z (s.commitGroup f gid) := by
  unfold State.commitGroup
  split
  · exact h
  · exact (Sound.ite (Sound.ite h.modGroup.clearGrad h.modGroup).event (Sound.ite h.modGroup.clearGrad h.modGroup)).removeGroup

theorem Sound.commitParam {f : Nat} (h : Sound z s) : Sound z (s.commitParam f) := by
  unfold State.commitParam
  exact Sound.ite (h.forAll (fun _ _ h => h.commitGroup)).modFld.event (h.forAll (fun _ _ h => h.commitGroup)).modFld

theorem Sound.signalTiles {f tmask sem : Nat} (h : Sound z s) : Sound z (s.signalTiles f tmask sem) := by
  unfold State.signalTiles
  exact h.forAll (fun _ _ h => h.modTile)

theorem Sound.modAct {k f : Nat} {g : ActProg → ActProg} (h : Sound z s) : Sound z (s.modAct k f g) := by
  unfold State.modAct
  split
  exacts [h.same (by rfl), h]

theorem Sound.execOffloadReadDone {part : Fin 16} {aid : Nat} {field : Fin 64} (h : Sound z s) :
    SoundOut z (execOffloadReadDone part aid field s) := by
  unfold Machine.execOffloadReadDone
  split
  exacts [h.next, SoundOut.ite h.next h.store.modAct.signalTiles.next]

theorem Sound.execOffloadDone {part : Fin 16} {aid : Nat} {field : Fin 64} (h : Sound z s) : SoundOut z (execOffloadDone part aid field s) := by
  unfold Machine.execOffloadDone
  split
  · exact h.modAct.next
  · split
    exacts [SoundOut.ite h.modAct.next h.next, h.next]

theorem Sound.execPrefetchStart {part : Fin 16} {aid : Nat} {field : Fin 64} (h : Sound z s) : SoundOut z (execPrefetchStart part aid field s) := by
  unfold Machine.execPrefetchStart
  split
  exacts [h.next, SoundOut.ite h.next h.modAct.tell.next]

theorem Sound.landAct {p : ActP} {f : Nat} {data : List Byte} (h : Sound z s) : Sound z (s.landAct p f data) := h.pokeBytes

theorem Sound.execPrefetchLanded {part : Fin 16} {aid : Nat} {field : Fin 64} {data : List Byte} (h : Sound z s) :
    SoundOut z (execPrefetchLanded part aid field data s) := by
  unfold Machine.execPrefetchLanded
  split
  · exact h.next
  · split
    · exact h.landAct.modAct.next
    · split
      exacts [h.next, SoundOut.ite h.next h.landAct.modAct.signalTiles.next]

theorem Sound.signed (h : Sound z s) : Sound z s.signed := by
  unfold State.signed
  exact h.same (by rfl)

theorem Sound.lntEvent {code p : Nat} {payload : List Byte} (h : Sound z s) : Sound z (s.lntEvent code p payload) := h.event

theorem Sound.sendHello {p state : Nat} (h : Sound z s) : Sound z (s.sendHello p state) := by
  unfold State.sendHello
  exact (h.same (by rfl)).modLport.emit

theorem Sound.refuse {p : Nat} {peer : HelloF} {cond : Nat} (h : Sound z s) : Sound z (s.refuse p peer cond) := h.modLport.lntEvent

theorem Sound.refreshDark (h : Sound z s) : Sound z s.refreshDark := by
  unfold State.refreshDark
  exact (h.modOuter.forAll (fun _ _ h => h.event)).forAll (fun _ _ h => h.event)

theorem Sound.outerSay {index : Nat} {payload : List Byte} (h : Sound z s) : Sound z (s.outerSay index payload) := by
  unfold State.outerSay
  dsimp only
  split
  · exact h.broadcast
  · split
    exacts [h.flareSend, h]

theorem Sound.gateway {p island : Nat} {up : Bool} (h : Sound z s) : Sound z (s.gateway p island up) :=
  h.modOuter.refreshDark.floodFrom

theorem Sound.modOut {f gid : Nat} {g : OuterGroup → OuterGroup} (h : Sound z s) : Sound z (s.modOut f gid g) := h.modGroup

theorem Sound.transferDark {x : Xfer} (h : Sound z s) : Sound z (s.transferDark x) := by
  unfold State.transferDark
  exact Sound.ite h.modOut (Sound.ite h.modOuter h)

theorem Sound.cutTransfer {x : Xfer} (h : Sound z s) : Sound z (s.cutTransfer x) := by
  unfold State.cutTransfer
  exact Sound.ite h.transferDark h.emit

theorem Sound.dropSession {p : Nat} (h : Sound z s) : Sound z (s.dropSession p) := by
  unfold State.dropSession
  exact Sound.ite h (h.modLport.modOuter.forAll (fun _ _ h => h.cutTransfer))

theorem Sound.goDark {p : Nat} (h : Sound z s) : Sound z (s.goDark p) := h.dropSession.modLport.lntEvent

theorem Sound.lntPump {p f n : Nat} (h : Sound z s) : Sound z (s.lntPump p f n) := by
  induction n generalizing s with
  | zero => exact h
  | succ n ih =>
    unfold State.lntPump
    dsimp only
    split
    · exact h
    · exact Sound.ite h (ih h.pokeBytes.modLport.emit)

theorem Sound.lntPumpAll {p : Nat} (h : Sound z s) : Sound z (s.lntPumpAll p) := by
  unfold State.lntPumpAll
  exact h.forAll (fun _ _ h => h.lntPump)

theorem Sound.lntSend {p : Nat} {x : Xfer} (h : Sound z s) : Sound z (s.lntSend p x) := h.modLport.modOuter.lntPump

theorem Sound.sendXfer {x : Xfer} (h : Sound z s) : Sound z (s.sendXfer x) := by
  unfold State.sendXfer
  dsimp only
  split
  exacts [h.cutTransfer, Sound.ite h.lntSend h.sendMsg]

theorem Sound.relayXfer {x : Xfer} (h : Sound z s) : Sound z (s.relayXfer x) := by
  unfold State.relayXfer
  dsimp only
  split
  exacts [h.lntSend, h.cutTransfer]

theorem Sound.lntAckOut {p f : Nat} (h : Sound z s) : Sound z (s.lntAckOut p f) := h.modLport.emit

theorem Sound.discardXfer {x : Xfer} (h : Sound z s) : Sound z (s.discardXfer x) := h.event

theorem Sound.handOn {x : Xfer} (h : Sound z s) : Sound z (s.handOn x) := by
  unfold State.handOn
  exact Sound.ite h.emit h.sendMsg

theorem Sound.manifestIn {p f : Nat} {m body : List Byte} (h : Sound z s) : Sound z (s.manifestIn p f m body) := by
  unfold State.manifestIn
  exact Sound.ite h.modLport.emit (Sound.ite h (Sound.ite h.discardXfer h.handOn))

theorem Sound.lntDeliver {p f n : Nat} {x : LntData} (h : Sound z s) : Sound z (s.lntDeliver p f n x) := by
  induction n generalizing s x with
  | zero => exact h
  | succ n ih =>
    have h2 : ∀ m b, Sound z (if x.man then (s.modLport p m).manifestIn p f x.payload b else s.modLport p m) :=
      fun _ _ => Sound.ite h.modLport.manifestIn h.modLport
    unfold State.lntDeliver
    dsimp only
    split
    · exact ih (h2 _ _)
    · exact h2 _ _

theorem Sound.lntTake {p : Nat} {d : LntData} (h : Sound z s) : Sound z (s.lntTake p d) := by
  unfold State.lntTake
  exact Sound.ite h.lntAckOut (Sound.ite h (Sound.ite (Sound.ite h.lntDeliver h.pokeBytes.modLport).modLport.lntAckOut (Sound.ite h.lntDeliver
      h.pokeBytes.modLport).modLport))

theorem Sound.lntResend {p f : Nat} {k : LntPkt} (h : Sound z s) : Sound z (s.lntResend p f k) := h.modLport.emit

theorem Sound.lntAcked {p f : Nat} {cum sack : Nat} (h : Sound z s) : Sound z (s.lntAcked p f cum sack) := by
  unfold State.lntAcked
  exact (h.modLport.modOuter.forAll (fun _ _ h => h.lntResend)).lntPump

theorem Sound.rejectXfer {x : Xfer} (h : Sound z s) : Sound z (s.rejectXfer x) := by
  unfold State.rejectXfer
  exact Sound.ite (Sound.ite h.event.emit h.sendXfer) h.emit

theorem Sound.sendStatus {island : Nat} {st : Standing} {req : Nat} (h : Sound z s) : Sound z (s.sendStatus island st req) := h.sendXfer

theorem Sound.ask {island : Nat} (h : Sound z s) : Sound z (s.ask island) := h.modOuter.sendStatus

theorem Sound.checkGathered (h : Sound z s) : Sound z s.checkGathered := by
  unfold State.checkGathered
  exact Sound.ite h.modOuter.contribute h

theorem Sound.startFetch {island : Nat} (h : Sound z s) : Sound z (s.startFetch island) := by
  unfold State.startFetch
  exact (h.modOuter.forAll (fun _ _ h => h.modOut.sendXfer)).checkGathered

theorem Sound.resume (h : Sound z s) : Sound z s.resume := by
  unfold State.resume
  split
  exacts [Sound.ite h.beginRound h, h]

theorem Sound.outerBecomes {v : Nat} (h : Sound z s) : Sound z (s.outerBecomes v) := by
  unfold State.outerBecomes
  exact Sound.ite h.modOuter.resume h.modOuter

theorem Sound.keeperSays {v : Nat} {rejoin : Bool} (h : Sound z s) : Sound z (s.keeperSays v rejoin) := by
  unfold State.keeperSays
  exact (Sound.ite h.event h).outerBecomes.outerSay

theorem Sound.keeperState {v : Nat} (h : Sound z s) : Sound z (s.keeperState v) := h.keeperSays

theorem Sound.keeperGroups {module : Nat} {present : Bool} (h : Sound z s) : Sound z (s.keeperGroups module present) := by
  unfold State.keeperGroups
  exact Sound.ite (Sound.ite h.modOuter h.modOuter.keeperState) (Sound.ite h.modOuter.keeperState h.modOuter)

theorem Sound.sayGroups {present : Bool} (h : Sound z s) : Sound z (s.sayGroups present) := by
  unfold State.sayGroups
  exact Sound.ite h.keeperGroups h.outerSay

theorem Sound.keeperJoins {island rho : Nat} (h : Sound z s) : Sound z (s.keeperJoins island rho) := h.modOuter.keeperSays.startFetch

theorem Sound.evaluate {n : Nat} (h : Sound z s) : Sound z (s.evaluate n) := by
  induction n generalizing s with
  | zero => exact h
  | succ n ih =>
    unfold State.evaluate
    dsimp only
    split
    · exact h
    · split
      · exact h
      · exact Sound.ite h (Sound.ite h.keeperJoins (ih (Sound.ite h.modOuter h.modOuter.keeperState)))

theorem Sound.restartFetch (h : Sound z s) : Sound z s.restartFetch := by
  unfold State.restartFetch
  split
  exacts [h.modOuter, (Sound.ite h.modOuter.keeperState.ask h.modOuter).startFetch]

theorem Sound.outerReact (h : Sound z s) : Sound z s.outerReact := by
  unfold State.outerReact
  extract_lets back s0 st s1
  have h1 : Sound z s1 := Sound.ite (h.modOuter.forAll fun _ _ h => h.ask) h.modOuter
  exact Sound.ite h.modOuter (Sound.ite (Sound.ite h1.restartFetch h1) (Sound.ite h1.keeperState h1))

theorem Sound.statusRx {x : Xfer} (h : Sound z s) : Sound z (s.statusRx x) := by
  unfold State.statusRx
  extract_lets i got req st known s1 s2
  have h1 : Sound z s1 := Sound.ite h.modOuter h
  have h2 : Sound z s2 := Sound.ite h1.sendStatus h1
  exact Sound.ite h (Sound.ite (Sound.ite h2.modOuter.checkGathered h2.modOuter) (Sound.ite h2.modOuter h2.evaluate))

theorem Sound.outerFlood {x : OuterFlood} (h : Sound z s) : Sound z (s.outerFlood x) := by
  unfold State.outerFlood
  split
  · exact Sound.ite h.flareTook h.flareTook.floodFrom.modOuter.refreshDark.outerReact
  · exact h.roundOver.modOuter
  · dsimp only
    split
    · refine Sound.ite h ?_
      split
      · exact h.modOuter.outerBecomes.startFetch
      · exact h.modOuter.outerBecomes
    · exact Sound.ite h h.outerBecomes
  · exact Sound.ite h.roundOver.modOuter h.roundOver
  · exact Sound.ite h.keeperGroups h

theorem Sound.doOuterFloodRx {f : OuterFlood} (h : Sound z s) : SoundOut z (doOuterFloodRx f s) := by
  unfold Machine.doOuterFloodRx
  exact SoundOut.ite h.outerFlood.next h.next

theorem Sound.execStatusTransferRx {x : Xfer} (h : Sound z s) : SoundOut z (execStatusTransferRx x s) := by
  unfold Machine.execStatusTransferRx
  exact SoundOut.ite h.relayXfer.next (SoundOut.ite h.statusRx.next h.next)

theorem Sound.linkLost {p : Nat} (h : Sound z s) : Sound z (s.linkLost p) := by
  unfold State.linkLost
  exact Sound.ite h.modLport.trainLport.lntEvent h.modLport

theorem Sound.execOpticsPoll {port : Fin 4} {los : OpticsRead} {lanes : Nat} (h : Sound z s) : SoundOut z (execOpticsPoll port los lanes s) := by
  unfold Machine.execOpticsPoll
  exact SoundOut.ite (Sound.ite h.modLport.linkLost h.modLport).next h.next

theorem Sound.execOpticsPresenceChange {port : Fin 4} {present : Bool} (h : Sound z s) : SoundOut z (execOpticsPresenceChange port present s) := by
  unfold Machine.execOpticsPresenceChange
  exact SoundOut.ite h.modLport.wakeLport.next h.modLport.next

theorem Sound.execLanternLinkUp {port : Fin 4} (h : Sound z s) : SoundOut z (execLanternLinkUp port s) := by
  unfold Machine.execLanternLinkUp
  exact SoundOut.ite h.next (Sound.ite h.modLport.sendHello h.modLport).next

theorem Sound.takeHello {p : Nat} {own peer : HelloF} (h : Sound z s) : Sound z (s.takeHello p own peer) := by
  unfold State.takeHello
  exact Sound.ite (Sound.ite h.dropSession.outerReact h).modLport.refuse (Sound.ite h.dropSession.outerReact h).modLport.modLport.emit.signed

theorem Sound.execHello {port : Fin 4} {f : HelloF} (h : Sound z s) : SoundOut z (execHello port f s) := by
  unfold Machine.execHello
  dsimp only
  split
  · split
    exacts [h.emit.takeHello.next, h.next]
  · exact SoundOut.ite h.sendHello.takeHello.next h.next

theorem Sound.execHelloRetry {port : Fin 4} (h : Sound z s) : SoundOut z (execHelloRetry port s) := by
  unfold Machine.execHelloRetry
  dsimp only
  split
  · exact (Sound.ite h.sendHello h.trainLport).next
  · split
    · split
      exacts [h.emit.next, h.next]
    · exact h.next

theorem Sound.lntDiscard {p : Nat} (h : Sound z s) : Sound z (s.lntDiscard p) := by
  unfold State.lntDiscard
  exact Sound.ite h.modLport h

theorem Sound.moveWindows {p : Nat} (h : Sound z s) : Sound z (s.moveWindows p) := by
  unfold State.moveWindows
  exact Sound.ite h.modLport (h.foldl (fun _ _ h => h.pokeBytes)).modLport

theorem Sound.goUp {p : Nat} {peer : HelloF} {flows : Nat} (h : Sound z s) : Sound z (s.goUp p peer flows) := by
  unfold State.goUp
  exact (Sound.ite h.moveWindows.modLport h.moveWindows.modLport.gateway).lntPumpAll.outerReact

theorem Sound.execAttestFrame {port : Fin 4} {session : Nat} {report : List Byte} (h : Sound z s) :
    SoundOut z (execAttestFrame port session report s) := by
  unfold Machine.execAttestFrame
  dsimp only
  split
  · exact h.next
  · split
    · exact h.lntDiscard.next
    · split
      · exact h.modLport.next
      · split
        · split
          exacts [h.refuse.next, SoundOut.ite h.refuse.next h.goUp.next]
        · exact h.next

theorem Sound.execAttestTimeout {port : Fin 4} (h : Sound z s) : SoundOut z (execAttestTimeout port s) := by
  unfold Machine.execAttestTimeout
  split
  exacts [h.refuse.next, h.next]

theorem Sound.execLosttouch {port : Fin 4} {cut : Option Xfer} (h : Sound z s) : SoundOut z (execLosttouch port cut s) := by
  unfold Machine.execLosttouch
  split
  · exact h.transferDark.outerReact.next
  · exact SoundOut.ite (h.forAll (fun _ _ h => h.gateway)).outerReact.next (SoundOut.ite h.goDark.gateway.outerReact.next h.next)

theorem Sound.execClose {port : Fin 4} {session : Nat} (h : Sound z s) : SoundOut z (execClose port session s) := by
  unfold Machine.execClose
  exact SoundOut.ite h.next (SoundOut.ite h.modLport.next (SoundOut.ite h.goDark.outerReact.next h.next))

theorem Sound.inSession {p session : Nat} {g : State} (h : Sound z s) (h1 : Sound z g) : Sound z (s.inSession p session g) := by
  unfold State.inSession
  exact Sound.ite h (Sound.ite h.modLport (Sound.ite h1 h))

theorem Sound.execLanternData {port : Fin 4} {f : LntData} (h : Sound z s) : SoundOut z (execLanternData port f s) := by
  unfold Machine.execLanternData
  exact SoundOut.ite h.lntDiscard.next (h.inSession (Sound.ite h.lntTake h)).next

theorem Sound.execLanternAck {port : Fin 4} {session flow : Nat} {cum sack : Nat} (h : Sound z s) :
    SoundOut z (execLanternAck port session flow cum sack s) := by
  unfold Machine.execLanternAck
  exact (h.inSession (Sound.ite h.lntAcked h)).next

theorem Sound.execLanternAckTimer {port : Fin 4} {flow : Fin 64} (h : Sound z s) : SoundOut z (execLanternAckTimer port flow s) := by
  unfold Machine.execLanternAckTimer
  exact SoundOut.ite h.lntAckOut.next h.next

theorem Sound.execLanternRtoExpiry {port : Fin 4} {flow : Fin 64} {pseq : Nat} (h : Sound z s) :
    SoundOut z (execLanternRtoExpiry port flow pseq s) := by
  unfold Machine.execLanternRtoExpiry
  dsimp only
  split
  exacts [SoundOut.ite h.modLport.lntResend.next h.next, h.next]

theorem Sound.execManifestReject {port : Fin 4} {session flow : Nat} {told : Option Xfer} (h : Sound z s) :
    SoundOut z (execManifestReject port session flow told s) := by
  unfold Machine.execManifestReject
  split
  · exact h.rejectXfer.next
  · split
    exacts [(h.inSession h.modOuter.rejectXfer).next, (h.inSession h).next]

theorem Sound.execEchoTimer {port : Fin 4} {now : Nat} (h : Sound z s) : SoundOut z (execEchoTimer port now s) := by
  unfold Machine.execEchoTimer
  exact SoundOut.ite h.modLport.emit.next h.next

theorem Sound.execEcho {port : Fin 4} {t1 now : Nat} (h : Sound z s) : SoundOut z (execEcho port t1 now s) := by
  unfold Machine.execEcho
  exact SoundOut.ite h.emit.next h.next

theorem Sound.execEchoReply {port : Fin 4} {t1 t2 : Nat} {t3 now : Nat} (h : Sound z s) : SoundOut z (execEchoReply port t1 t2 t3 now s) := by
  unfold Machine.execEchoReply
  exact SoundOut.ite h.next (SoundOut.ite h.modLport.next (Sound.ite h.modLport.lntEvent h.modLport).next)

theorem Sound.startRouteTable {uid : Nat} {items : List RouteE} (h : Sound z s) : Sound z (startRouteTable s uid items) :=
  h.modOuter.refreshDark.outerReact.finish

theorem Sound.startLportConfig {uid : Nat} {p : LportP} (h : Sound z s) : Sound z (startLportConfig s uid p) := h.modLport.wakeLport.finish

theorem Sound.startOptics {uid dir : Nat} {p : OpticsP} {feed : Feed} (h : Sound z s) : Sound z (startOptics s uid dir p feed) := by
  unfold Machine.startOptics
  exact Sound.ite h.finish (Sound.ite h.finish (Sound.ite h.finish h.emit.finish))

theorem Sound.startLportClear {uid pmask : Nat} (h : Sound z s) : Sound z (startLportClear s uid pmask) := by
  unfold Machine.startLportClear
  exact (h.forAll (fun _ _ h => h.modLport)).finish

theorem Sound.wireWrite {fmt base b : Nat} {scales codes : List Nat} (h : Sound z s) : Sound z (s.wireWrite fmt base b scales codes) := by
  unfold State.wireWrite
  exact Sound.ite (h.forAll (fun _ _ h => h.pokeBytes.pokeBytes)) h.collPut

theorem Sound.wirePad {fmt base n : Nat} (h : Sound z s) : Sound z (s.wirePad fmt base n) := by
  unfold State.wirePad
  exact Sound.ite (h.forAll (fun _ _ h => h.wireWrite)) h

theorem Sound.startFedRecord {uid : Nat} {p : FedP} (h : Sound z s) : Sound z (startFedRecord s uid p) := by
  unfold Machine.startFedRecord
  exact (Sound.ite h.modOuter.keeperState h.modOuter).finish

theorem Sound.startOuterReg {uid : Nat} {p : OuterP} (h : Sound z s) : Sound z (startOuterReg s uid p) := by
  unfold Machine.startOuterReg
  split
  · exact h.finish
  · exact (Sound.ite ((h.forAll (fun _ _ h => h.pokeBytes)).forAll (fun _ _ h => h.zeroRange)).modGroup.sayGroups ((h.forAll (fun _ _ h =>
      h.pokeBytes)).forAll (fun _ _ h => h.zeroRange)).modGroup).finish

theorem Sound.startOuterRemove {uid : Nat} {p : FieldGid} (h : Sound z s) : Sound z (startOuterRemove s uid p) := h.modOut

theorem Sound.landXfer {x : Xfer} (h : Sound z s) : Sound z (s.landXfer x) := by
  unfold State.landXfer
  split
  · exact h.discardXfer
  · split
    exacts [h.modOut, h.pokeBytes.modOut]

theorem Sound.landWaiting {f gid : Nat} (h : Sound z s) : Sound z (s.landWaiting f gid) := by
  unfold State.landWaiting
  split
  exacts [(h.modOut.forAll (fun _ _ h => h.landXfer)).modOut, h]

theorem Sound.doUpTransferDelivered {x : Xfer} (h : Sound z s) : SoundOut z (doUpTransferDelivered x s) := by
  unfold Machine.doUpTransferDelivered
  exact SoundOut.ite h.relayXfer.next (SoundOut.ite h.landXfer.next h.next)

theorem Sound.doDownTransferDelivered {x : Xfer} (h : Sound z s) : SoundOut z (doDownTransferDelivered x s) := by
  unfold Machine.doDownTransferDelivered
  exact SoundOut.ite h.relayXfer.next (SoundOut.ite h.landXfer.next h.next)

theorem Sound.execFetchReqRx {x : Xfer} (h : Sound z s) : SoundOut z (execFetchReqRx x s) := by
  unfold Machine.execFetchReqRx
  split
  · exact h.relayXfer.next
  · split
    · exact h.next
    · split
      exacts [h.discardXfer.next, SoundOut.ite h.emit.next (SoundOut.ite h.modOut.next h.sendXfer.next)]

theorem Sound.execFetchDataRx {x : Xfer} (h : Sound z s) : SoundOut z (execFetchDataRx x s) := by
  unfold Machine.execFetchDataRx
  split
  · exact h.relayXfer.next
  · split
    · exact h.next
    · split
      exacts [h.discardXfer.next, SoundOut.ite h.next h.modOut.checkGathered.next]

theorem Sound.execOuterMasterReceive {field : Fin 64} {gid shard : Nat} {data : List Byte} (h : Sound z s) :
    SoundOut z (execOuterMasterReceive field gid shard data s) := by
  unfold Machine.execOuterMasterReceive
  split
  · exact h.next
  · split
    exacts [h.next, SoundOut.ite h.next (SoundOut.ite h.modOut.putShard.next h.modOut.modOut.next)]

theorem Sound.sendMasters {g : Group} (h : Sound z s) : Sound z (s.sendMasters g) := by
  unfold State.sendMasters
  exact Sound.ite h ((h.forAll (fun _ _ h => h.toMember)).forAll (fun _ _ h => h.modOut))

theorem Sound.putOuter {g : Group} {a : Nat} {ins : List (List F32)} {ws : List UV} (h : Sound z s) : Sound z (s.putOuter g a ins ws) :=
  h.pokeF32s.fieldMeter

theorem Sound.applyBlock {r : FedP} {g : Group} {o : OuterGroup} {taken : List Accepted} {own : List Nat} {b : Nat} (h : Sound z s) :
    Sound z (s.applyBlock r g o taken own b) :=
  h.countEvs.countReads.putOuter.putOuter.putOuter.putOuter

theorem Sound.carryOuter {g : Group} {o : OuterGroup} (h : Sound z s) : Sound z (s.carryOuter g o) := by
  unfold State.carryOuter
  exact h.forAll (fun _ _ h => h.pokeBytes)

theorem Sound.installOuter {g : Group} {o : OuterGroup} {data : List Byte} (h : Sound z s) : Sound z (s.installOuter g o data) := by
  unfold State.installOuter
  exact (h.forAll (fun _ _ h => h.pokeBytes)).pokeBytes.zeroRange.sendMasters

theorem Sound.forwardItem {r : FedP} {g : Group} {x : OuterItem} (h : Sound z s) : Sound z (s.forwardItem r g x) := by
  unfold State.forwardItem
  dsimp only
  split
  · exact h
  · split
    · exact h.modOut
    · split
      exacts [h, h.pokeBytes.modOut]

theorem Sound.combineBlock {g : Group} {o : OuterGroup} {addrs : List Nat} {b : Nat} (h : Sound z s) :
    Sound z (s.combineBlock g o addrs b).1 :=
  h.countEvs.pokeBytes.countResults.countConv

theorem Sound.combineRound {r : FedP} {g : Group} {o : OuterGroup} {round : Nat} (h : Sound z s) : Sound z (s.combineRound r g o round) := by
  unfold State.combineRound
  extract_lets f gid n len mine ups items room lone rest plain whole as merged all s1
  have hm : Sound z merged.1 := by
    unfold merged
    split
    · exact List.foldlRecOn (motive := fun x : State × List WireBlock => Sound z x.1) _ _ h fun _ hx _ _ => hx.combineBlock
    · exact h
  exact (hm.foldl fun _ _ h => h.forwardItem).modOut

theorem Sound.outerRan {f gid k : Nat} (h : Sound z s) : Sound z (s.outerRan f gid k) := h.modOut

theorem Sound.doOuterApplySweep {field : Fin 64} {gid : Nat} (h : Sound z s) : SoundOut z (doOuterApplySweep field gid s) := by
  unfold Machine.doOuterApplySweep
  split
  · exact h.next
  · split
    · exact h.next
    · dsimp only
      split
      · exact h.carryOuter.installOuter.modOut.outerRan.next
      · split
        · exact h.carryOuter.outerRan.next
        · refine Sound.next ?_
          refine Sound.outerRan ?_
          refine Sound.forAll (Sound.ite h.carryOuter (h.carryOuter.forAll (fun _ _ h => h.applyBlock)).sendMasters).modOut ?_
          intro _ _ h
          split
          exacts [Sound.ite h.forwardItem.modOut h, h]

theorem Sound.doOuterFoldSweep {field : Fin 64} {gid : Nat} (h : Sound z s) : SoundOut z (doOuterFoldSweep field gid s) := by
  unfold Machine.doOuterFoldSweep
  split
  · exact h.next
  · exact SoundOut.ite h.next (h.forAll (fun _ _ h => h.forAll (fun _ _ h =>
      h.countEvs.countReads.countConv.putOuter.pokeBytes))).modOut.outerRan.next

theorem Sound.closeReached (h : Sound z s) : Sound z s.closeReached := by
  unfold State.closeReached
  exact Sound.ite h.modOuter h

theorem Sound.doOuterCloseSweep {field : Fin 64} {gid : Nat} (h : Sound z s) : SoundOut z (doOuterCloseSweep field gid s) := by
  unfold Machine.doOuterCloseSweep
  split
  · exact h.next
  · split
    · exact h.next
    · dsimp only
      split
      · exact h.closeReached.modOut.outerRan.next
      · split
        · exact h.closeReached.modOut.outerRan.next
        · split
          · exact h.closeReached.modOut.event.modOut.outerRan.next
          · refine Sound.next ?_
            refine Sound.outerRan ?_
            refine Sound.modOut ?_
            refine Sound.forAll h.closeReached.wirePad ?_
            intro _ _ h
            split
            exacts [h.countEvs.countReads.pokeF32s.wireWrite.pokeBytes.pokeF32s.countConv.countConv, h]

theorem Sound.doOuterCombineSweep {field : Fin 64} {gid round : Nat} (h : Sound z s) : SoundOut z (doOuterCombineSweep field gid round s) := by
  unfold Machine.doOuterCombineSweep
  split
  exacts [h.next, SoundOut.ite h.next h.combineRound.next]

theorem Sound.outerBegin (h : Sound z s) : Sound z s.outerBegin := by
  unfold State.outerBegin
  split
  · exact h
  · exact Sound.ite (Sound.ite h.modOuter.keeperState h.modOuter).modBcn.outerReact.checkGathered (Sound.ite h.modOuter.keeperState
      h.modOuter).modBcn

theorem Sound.outerDoneRound (h : Sound z s) : Sound z s.outerDoneRound := by
  unfold State.outerDoneRound
  exact Sound.ite h h.contribute

theorem Sound.commitOuter (h : Sound z s) : Sound z s.commitOuter := by
  unfold State.commitOuter
  split
  · exact h
  · extract_lets x met gs put inst rho1 sends s1 s2 s3 s4 s5 s6
    have h1 : Sound z s1 := by
      refine h.forAll fun _ _ h => ?_
      split
      · exact h.modOut
      · exact h
    have h3 : Sound z s3 := Sound.ite h1.modOuter.outerBecomes h1.modOuter
    have h4 : Sound z s4 := by
      refine h3.forAll fun _ _ h => ?_
      split
      · split
        · exact h.modGroup.finish
        · exact h
      · exact h
    have h5 : Sound z s5 := (h4.forAll fun _ _ h => h.sendXfer).forAll fun _ _ h => h.landWaiting
    have h6 : Sound z s6 := Sound.ite h5.sayGroups h5
    exact Sound.ite h6.keeperState h6

theorem Sound.deliver {n : Nat} (h : Sound z s) : Sound z (s.deliver n) := by
  unfold State.deliver
  extract_lets p s1 s2
  have h2 : Sound z s2 := h.modBcn.forAll fun _ _ h => h.forAll fun _ _ h => Sound.ite h.exchange h
  exact (Sound.ite h2.closeReached h2).reissueCollectives

theorem Sound.reachOne {n : Nat} (h : Sound z s) : Sound z (s.reachOne n) := by
  unfold State.reachOne
  extract_lets t fs s1 a s2
  have h1 : Sound z s1 := h.forAll fun _ _ h => Sound.ite h h.modBcn
  have h2 : Sound z s2 := Sound.ite h1 (Sound.ite h1.modBcn.contribute h1.modBcn)
  exact Sound.ite h (Sound.ite h2.deliver h2)

theorem Sound.reachMarks (h : Sound z s) : Sound z s.reachMarks := by
  unfold State.reachMarks
  exact Sound.ite (h.forAll (fun _ _ h => h.reachOne)) h

theorem SoundOut.settle {o : Host.Outcome State Fault Refusal} (h : SoundOut z o) : SoundOut z (settle o) := by
  cases o with
  | next t => exact (h t rfl).reachMarks.next
  | fault => exact h
  | refused => exact h

theorem Sound.execMark {u : Issuer} {hd : DHdr} {n : Nat} (h : Sound z s) : SoundOut z (execMark u hd n s) := by
  unfold Machine.execMark
  exact SoundOut.ite h.next (h.runUnit (fun _ _ h => Sound.ite h.modTile h)).settle

theorem Sound.execNsummaryPropagate {tile : Fin 1024} (h : Sound z s) : SoundOut z (execNsummaryPropagate tile s) := by
  unfold Machine.execNsummaryPropagate
  exact SoundOut.ite h.next h.fieldMeter.modFld.modTile.next

theorem Sound.reEmit {t : Nat} {g : Group} (h : Sound z s) : Sound z (s.reEmit t g) := by
  unfold State.reEmit
  exact Sound.ite h ((Sound.ite h.wcPad h).forAll (fun _ _ h => h.wcWrite.countEmit))

theorem Sound.refillField {f : Nat} (h : Sound z s) : Sound z (s.refillField f) := by
  unfold State.refillField
  dsimp only
  split
  · exact ((h.forAll (fun _ _ h => h.forAll (fun _ _ h => h.reEmit))).modFld.forAll (fun _ _ h => h.event)).stopNow
  · exact (h.forAll (fun _ _ h => h.forAll (fun _ _ h => h.reEmit))).modFld.forAll (fun _ _ h => h.event)

theorem Sound.execReadyContribute {step : Nat} (h : Sound z s) : SoundOut z (execReadyContribute step s) := by
  unfold Machine.execReadyContribute
  exact SoundOut.ite h.next (SoundOut.ite (h.forAll (fun _ _ h => h.refillField)).modBcn.contribute.next (h.forAll (fun _ _ h =>
      h.refillField)).next)

theorem Sound.learnIsland (h : Sound z s) : Sound z s.learnIsland := by
  unfold State.learnIsland
  exact Sound.ite (h.same (by rfl)) h

theorem Sound.beginSettings (h : Sound z s) : Sound z s.beginSettings := by
  unfold State.beginSettings
  refine Sound.newDepth ?_
  refine Sound.learnIsland ?_
  refine Sound.modBcn ?_
  split
  exacts [h.modPart, h]

theorem Sound.beginScalars {step : Nat} (h : Sound z s) : Sound z (s.beginScalars step) := by
  unfold State.beginScalars
  exact (h.forAll (fun _ _ h => h.modFld)).modBcn

theorem Sound.beginSteer {f step : Nat} (h : Sound z s) : Sound z (s.beginSteer f step) := by
  unfold State.beginSteer
  exact Sound.ite h.modFld (h.modFld.forAll (fun _ _ h => h.event))

theorem Sound.beginCommands (h : Sound z s) : Sound z s.beginCommands := by
  unfold State.beginCommands
  split
  · exact h
  · refine h.setCmds rfl fun c hc => ?_
    obtain ⟨d, hd, rfl⟩ := List.mem_map.mp hc
    refine ⟨d, (List.mem_filter.mp hd).1, ?_⟩
    split
    · split <;> rfl
    · rfl

theorem Sound.replayCommands (h : Sound z s) : Sound z s.replayCommands := by
  unfold State.replayCommands
  split
  · exact h
  · refine Sound.reissueCollectives ?_
    refine Sound.forAll h ?_
    intro _ _ h
    split
    exacts [h.transom, h]

theorem Sound.lateCommands (h : Sound z s) : Sound z s.lateCommands := by
  unfold State.lateCommands
  split
  · exact h
  · refine Sound.forAll h ?_
    intro _ _ h
    split
    exacts [(h.modCmd (by intro; rfl)).programAcquire, h]

theorem Sound.beginStep {step site : Nat} (h : Sound z s) : Sound z (s.beginStep step site) := by
  unfold State.beginStep
  extract_lets replay again fs s0 s1 s2 s3 s4 fab s5 s6 s7 s8
  have h1 : Sound z s1 := Sound.ite h.roundOver.beginSettings h.roundOver.beginSettings.beginScalars
  have h3 : Sound z s3 := h1.modBcn.forAll fun _ _ h => h.beginSteer.modFld
  have h4 : Sound z s4 := Sound.ite h3 h3.beginCommands
  have h5 : Sound z s5 := Sound.same (s := s4) h4 (by rfl)
  have h7 : Sound z s7 := ((Sound.ite h5.outerBegin.replayCommands h5.outerBegin).lateCommands.forAll fun _ _ h =>
    h.forAll fun _ _ h => h.writeAgain).checkNorm
  exact Sound.ite h7.deliver.reachMarks.event h7.deliver.reachMarks

theorem Sound.execStepBeginDelivery {step site : Nat} (h : Sound z s) : SoundOut z (execStepBeginDelivery step site s) := by
  unfold Machine.execStepBeginDelivery
  exact SoundOut.ite h.beginStep.next h.next

theorem Sound.execMarkDelivery {step : Nat} {mark : Fin 32} (h : Sound z s) : SoundOut z (execMarkDelivery step mark s) := by
  unfold Machine.execMarkDelivery
  exact SoundOut.ite h.next h.roundOver.deliver.reachMarks.next

theorem Sound.execDoneContribute (h : Sound z s) : SoundOut z (execDoneContribute s) := by
  unfold Machine.execDoneContribute
  exact SoundOut.ite h.next h.modBcn.contribute.outerDoneRound.next

theorem Sound.foldHist {f : Nat} (h : Sound z s) : Sound z (s.foldHist f) := by
  unfold State.foldHist
  exact h.same (by rfl)

theorem Sound.endWindows {step : Nat} (h : Sound z s) : Sound z (s.endWindows step) := by
  unfold State.endWindows
  exact (h.forAll (fun _ _ h => h.modFld)).forAll (fun _ _ h => h.contribute)

theorem Sound.commitStep {dur : Nat} (h : Sound z s) : Sound z (s.commitStep dur) := by
  unfold State.commitStep
  extract_lets step fs s1 s2 s3 hl s4 s5
  have h3 : Sound z s3 := (h.roundOver.modBcn.commitOuter.forAll fun _ _ h => h.commitParam.foldCounts.foldHist).endWindows
  have h4 : Sound z s4 := Sound.same
    (s := s3.modHost fun x => { x with cmds := x.cmds.filter fun c => !(c.posted && c.phase == .done) })
    (h3.setCmds rfl fun c hc => ⟨c, (List.mem_filter.mp hc).1, rfl⟩) (by rfl)
  exact h4.modBcn.lateStop.reissueCollectives.contribute

theorem Sound.execCommitDelivery {step dur : Nat} (h : Sound z s) : SoundOut z (execCommitDelivery step dur s) := by
  unfold Machine.execCommitDelivery
  exact SoundOut.ite h.commitStep.next h.next

theorem Sound.execEvalSlotDelivery {step : Nat} (h : Sound z s) : SoundOut z (execEvalSlotDelivery step s) := by
  unfold Machine.execEvalSlotDelivery
  exact SoundOut.ite h.next (Sound.ite h.roundOver.modBcn.sayHalted h.roundOver.modBcn).reissueCollectives.next

theorem Sound.execSteerRoundResult {slot : Fin 64} {counts : List Nat} (h : Sound z s) : SoundOut z (execSteerRoundResult slot counts s) := by
  unfold Machine.execSteerRoundResult
  exact (h.roundOver.forAll (fun _ _ h => h.modFld)).next

theorem Sound.execScalarDelivery {slot : Fin 8} {value : F32} {step : Nat} (h : Sound z s) : SoundOut z (execScalarDelivery slot value step s) := by
  unfold Machine.execScalarDelivery
  exact SoundOut.ite h.next h.modBcn.next

theorem Sound.abortArrives {step attempt : Nat} (h : Sound z s) : Sound z (s.abortArrives step attempt) := by
  unfold State.abortArrives
  extract_lets u
  have hu : Sound z u := Sound.ite h.knowDecision h
  exact Sound.ite hu.takeAbort (Sound.ite hu.takeMissed (Sound.ite hu.restartEmissions hu))

theorem Sound.execAbortFloodRx {port : Fin 8} {step attempt : Nat} (h : Sound z s) : SoundOut z (execAbortFloodRx port step attempt s) := by
  unfold Machine.execAbortFloodRx
  exact SoundOut.ite h.next (SoundOut.ite h.flareTook.modBcn.next h.flareTook.modBcn.modBcn.floodFrom.abortArrives.next)

theorem Sound.execStepOverdue {elapsed : Nat} (h : Sound z s) : SoundOut z (execStepOverdue elapsed s) := by
  unfold Machine.execStepOverdue
  exact SoundOut.ite h.next h.modBcn.event.next

theorem Sound.execSiteMessage {ns : Nat} (h : Sound z s) : SoundOut z (execSiteMessage ns s) := by
  unfold Machine.execSiteMessage
  exact SoundOut.ite h.next h.modBcn.next

theorem Sound.execAdvance (h : Sound z s) : SoundOut z (execAdvance s) := by
  unfold Machine.execAdvance
  split
  exacts [SoundOut.ite h.modBcn.broadcast.next h.next, h.next]

theorem Sound.startStepStart {uid s0 : Nat} (h : Sound z s) : Sound z (startStepStart s uid s0) := h.modBcn.flareUp.finish

theorem Sound.startStepStop {uid : Nat} (h : Sound z s) : Sound z (startStepStop s uid) := h.flareUp.finish

theorem Sound.startMarkTable {uid : Nat} {items : List MarkItem} (h : Sound z s) : Sound z (startMarkTable s uid items) := h.modBcn.finish

theorem Sound.startKeeper {uid keeper mode : Nat} (h : Sound z s) : Sound z (startKeeper s uid keeper mode) := h.modBcn.finish

theorem Sound.startWatchdog {uid : Nat} {p : WatchdogP} (h : Sound z s) : Sound z (startWatchdog s uid p) := h.modBcn.finish

theorem Sound.sendScalar {slot : Nat} {value : F32} {point : Option (Nat × Nat)} (h : Sound z s) : Sound z (s.sendScalar slot value point) := by
  unfold State.sendScalar
  exact Sound.ite h.broadcast h.emit

theorem Sound.requestPin {part slot : Nat} {rung unpin : Nat} {point : Option (Nat × Nat)} (h : Sound z s) :
    Sound z (s.requestPin part slot rung unpin point) := by
  unfold State.requestPin
  exact h.forAll (fun _ _ h => h.modFld)

theorem Sound.announce {part : Nat} {body : Body} {point : Option (Nat × Nat)} (h : Sound z s) : Sound z (s.announce part body point) := by
  unfold State.announce
  split
  exacts [h.sendScalar, h.requestPin, h]

theorem Sound.startAnnounced {uid part : Nat} {body : Body} {point : Option (Nat × Nat)} (h : Sound z s) :
    Sound z (startAnnounced s uid part body point) := by
  unfold Machine.startAnnounced
  exact (Sound.ite h.announce h).finish

theorem Sound.startHealth {uid part : Nat} {p : HealthP} (h : Sound z s) : Sound z (startHealth s uid part p) := h.writeResult.finish

theorem Sound.startHealthClear {uid part : Nat} {ts : List Nat} (h : Sound z s) : Sound z (startHealthClear s uid part ts) := by
  unfold Machine.startHealthClear
  exact (h.forAll (fun _ _ h => h.modFld)).finish

theorem Sound.startSteerCtl {uid part : Nat} {p : SteerCtlP} (h : Sound z s) : Sound z (startSteerCtl s uid part p) := by
  unfold Machine.startSteerCtl
  exact (h.forAll (fun _ _ h => h.modFld)).finish

theorem Sound.startSteerSlot {uid part : Nat} {p : SteerSlotP} (h : Sound z s) : Sound z (startSteerSlot s uid part p) := by
  unfold Machine.startSteerSlot
  exact (h.forAll (fun _ _ h => h.modFld)).finish

theorem Sound.startNevt {uid part : Nat} {classEn steerEn : Nat} (h : Sound z s) : Sound z (startNevt s uid part classEn steerEn) := by
  unfold Machine.startNevt
  exact (h.forAll (fun _ _ h => h.modFld)).finish

theorem Sound.readLatch {view o : Nat} (h : Sound z s) : Sound z (s.readLatch view o) := by
  unfold State.readLatch
  exact Sound.ite h (Sound.ite h.modBcn (Sound.ite (h.same (by rfl)) h))

theorem Sound.startSnapshot {uid view : Nat} {p : BufP} (h : Sound z s) : Sound z (startSnapshot s uid view p) := by
  refine (Sound.writeResult ?_).finish
  exact List.foldlRecOn (motive := fun x : State × List Byte => Sound z x.1) _ _ h.sampleInput fun _ hx _ _ => hx.readLatch

theorem Sound.oweRefill {f i : Nat} (h : Sound z s) : Sound z (s.oweRefill f i) := h.modFld

theorem Sound.remap {f i : Nat} (h : Sound z s) : Sound z (s.remap f i) :=
  ((Sound.ite h.oweRefill h).modFld.setTile).setMem (wf_filter _ _)

theorem Sound.applyLoss {f : Nat} {x : SlotLoss} (h : Sound z s) : Sound z (s.applyLoss f x) := by
  unfold State.applyLoss
  dsimp only
  split
  exacts [(h.forAll (fun _ _ h => h.fenceSlot)).remap, h.forAll (fun _ _ h => h.fenceSlot)]

theorem Sound.lossEvents {f : Nat} {x : SlotLoss} (h : Sound z s) : Sound z (s.lossEvents f x) := by
  unfold State.lossEvents
  exact Sound.ite (Sound.ite h.event h).hwEvent.event (Sound.ite h.event h)

theorem Sound.faultIn {f : Nat} (h : Sound z s) : Sound z (s.faultIn f) := by
  unfold State.faultIn
  exact Sound.ite h.knowDecision h

theorem Sound.failTiles {s0 : State} {f : Nat} {ps : List Nat} (h : Sound z s0) : Sound z (s0.failTiles f ps) := by
  unfold State.failTiles
  extract_lets x s part train late s1 s2 s5
  have h1 : Sound z s1 := h.faultIn.faultBit.faultField
  have h2 : Sound z s2 := Sound.ite h1 (h1.forAll fun _ _ h => h.dropTile)
  have h5 : Sound z s5 := h2.applyLoss.lossEvents
  exact Sound.ite h (Sound.ite h5.loseCapacity (Sound.ite h5 (Sound.ite h5.requestAbort (Sound.ite h5.modPart h5.stopNow))))

theorem Sound.execTileStoreUe {tile : Fin 1024} {word : Nat} (h : Sound z s) : SoundOut z (execTileStoreUe tile word s) := by
  unfold Machine.execTileStoreUe
  dsimp only
  split
  · exact h.next
  · exact SoundOut.ite h.modFld.faultIn.failTiles.next (SoundOut.ite h.modFld.faultIn.modTile.next (SoundOut.ite
      h.modFld.faultIn.modTile.oweRefill.requestAbort.next h.modFld.faultIn.modTile.oweRefill.restartEmission.next))

theorem Sound.execFcProbeTimeout {field : Fin 64} (h : Sound z s) : SoundOut z (execFcProbeTimeout field s) := by
  unfold Machine.execFcProbeTimeout
  exact SoundOut.ite h.next (SoundOut.ite (Sound.ite h.faultBit.faultField.hwEvent.requestAbort
      h.faultBit.faultField.hwEvent).modFld.next ((Sound.ite h.faultField (h.faultField.forAll (fun _ _ h => h.dropTile))).forAll (fun _ _ h =>
      h.fenceSlot)).modFld.loseCapacity.next)

theorem Sound.execFcRestartDone {field : Fin 64} (h : Sound z s) : SoundOut z (execFcRestartDone field s) := by
  unfold Machine.execFcRestartDone
  exact SoundOut.ite h.next h.modFld.restartEmission.next

theorem Sound.execChannelLost {field : Fin 64} {ch : Fin 32} (h : Sound z s) : SoundOut z (execChannelLost field ch s) := by
  unfold Machine.execChannelLost
  dsimp only
  split
  · exact h.next
  · split
    exacts [(h.same (by rfl)).modChan.modFld.event.raiseLost.next, (h.same (by rfl)).modChan.modFld.event.next]

theorem Sound.execScrub {field : Fin 64} {ch : Fin 32} {errs : List EccErr} (h : Sound z s) : SoundOut z (execScrub field ch errs s) := by
  unfold Machine.execScrub
  exact SoundOut.ite h.next (h.forAll (fun _ _ h => h.countErr)).next

theorem Sound.execThermalSample {field : Fin 64} {group : Fin 8} {temp : Option Nat} (h : Sound z s) :
    SoundOut z (execThermalSample field group temp s) := by
  unfold Machine.execThermalSample
  extract_lets old new s1 hot s2
  have h2 : Sound z s2 := Sound.ite h.modFld.event h.modFld
  exact SoundOut.ite (Sound.same (s := s2) h2 (by rfl)).next h2.next

theorem Sound.tierFail {f item addr : Nat} (h : Sound z s) : Sound z (s.tierFail f item addr) := by
  unfold State.tierFail
  exact Sound.ite h.event (Sound.ite h.event.knowDecision.faultBit.requestAbort h.event.knowDecision)

theorem Sound.cmdFail {q seq : Nat} (h : Sound z s) : Sound z (s.cmdFail q seq) := by
  unfold State.cmdFail
  split
  · exact h
  · split
    exacts [(h.same (by rfl)).finish, (h.same (by rfl)).finish, h.same (by rfl), h]

theorem Sound.execXfail {x : XFail} (h : Sound z s) : SoundOut z (execXfail x s) := by
  unfold Machine.execXfail
  dsimp only
  split
  · exact (h.modHost rfl rfl).modQueue.next
  · exact (h.modHost rfl rfl).modCring.next
  · exact (h.modHost rfl rfl).modEring.next
  · exact (h.modHost rfl rfl).cmdFail.next
  · split
    exacts [(h.modHost rfl rfl).modAct.tierFail.next, (h.modHost rfl rfl).next]
  · split
    exacts [(h.modHost rfl rfl).modGroup.tierFail.next, (h.modHost rfl rfl).next]

theorem Sound.startAttest {uid : Nat} {p : AttestP} (h : Sound z s) : Sound z (startAttest s uid p) := h.writeResult.signed.finish

theorem Sound.startLogRead {uid : Nat} {p : LogP} (h : Sound z s) : Sound z (startLogRead s uid p) := h.writeResult.finish

theorem Sound.startIdkey {uid : Nat} {p : BufP} (h : Sound z s) : Sound z (startIdkey s uid p) := h.writeResult.finish

theorem Sound.modStack {f : Nat} {g : Stack → Stack} (h : Sound z s) : Sound z (s.modStack f g) := h.modFld

theorem Sound.tgEnd {f ch errs : Nat} {first : Option (Nat × Nat)} {n : Nat} (h : Sound z s) : Sound z (s.tgEnd f ch errs first n) := by
  unfold State.tgEnd
  dsimp only
  split
  · exact h
  · have hw := h.setMem fun hm => wf_tgWalk (s := s) (f := f) (ch := ch) (n := n) (p := ‹TgP›) hm
    split
    · exact hw.modChan
    · exact Sound.ite hw.modChan.finish (hw.modChan.modCmd (by intro; rfl))

theorem Sound.tgStop {f ch : Nat} (h : Sound z s) : Sound z (s.tgStop f ch) := by
  unfold State.tgStop
  dsimp only
  split
  exacts [h, (h.same (by rfl)).tgEnd]

theorem Sound.startTestMode {uid field enter : Nat} (h : Sound z s) : Sound z (startTestMode s uid field enter) := by
  unfold Machine.startTestMode
  exact Sound.ite h.modStack.finish (h.forAll (fun _ _ h => h.tgStop)).modStack

theorem Sound.execTestZeroiseDone {field : Fin 64} (h : Sound z s) : SoundOut z (execTestZeroiseDone field s) := by
  unfold Machine.execTestZeroiseDone
  split
  · exact h.next
  · exact (h.setMem (wf_memClear _ _ _)).modStack.finish.next

theorem Sound.startTgRun {uid : Nat} {p : TgP} (h : Sound z s) : Sound z (startTgRun s uid p) := by
  unfold Machine.startTgRun
  exact Sound.ite h.finish ((h.forAll (fun _ _ h => h.modChan)).modCmd (by intro; rfl))

theorem Sound.execTgRunDone {field : Fin 64} {ch : Fin 32} {errs : Nat} {first : Option (Nat × Nat)} (h : Sound z s) :
    SoundOut z (execTgRunDone field ch errs first s) := by
  unfold Machine.execTgRunDone
  split
  exacts [h.next, SoundOut.ite h.next (SoundOut.ite (h.same (by rfl)).tgEnd.next h.tgEnd.next)]

theorem Sound.startTgStop {uid field chmask : Nat} (h : Sound z s) : Sound z (startTgStop s uid field chmask) := by
  unfold Machine.startTgStop
  exact (h.forAll (fun _ _ h => h.tgStop)).finish

theorem Sound.testField {f : Nat} {failed : List Nat} (h : Sound z s) : Sound z (s.testField f failed) := h.applyLoss.lossEvents.modFld

theorem Sound.selfTest {fs failed : List Nat} (h : Sound z s) : Sound z (s.selfTest fs failed) := by
  unfold State.selfTest
  exact h.forAll (fun _ _ h => Sound.ite h.testField h.testField.loseCapacity)

theorem Sound.startSelftest {uid fmask : Nat} {feed : Feed} (h : Sound z s) : Sound z (startSelftest s uid fmask feed) :=
  h.selfTest.finish

theorem Sound.bootPhase {n : Nat} (h : Sound z s) : Sound z (s.bootPhase n) := by
  unfold State.bootPhase
  exact h.same (by rfl)

theorem Sound.loaderWait (h : Sound z s) : Sound z s.loaderWait := (Sound.same (s := s.bootPhase 1) h.bootPhase (by rfl)).tell

theorem Sound.execImagePush {view : Fin 17} {value : Word} (h : Sound z s) : SoundOut z (execImagePush view value s) :=
  SoundOut.ite (Sound.same (s := s.bootPhase 2) h.bootPhase (by rfl)).tell.next h.next

theorem Sound.imageBad {code : Nat} (h : Sound z s) : Sound z (s.imageBad code) := by
  unfold State.imageBad
  exact (h.same (by rfl)).loaderWait

theorem Sound.measureImage {bs : List Byte} (h : Sound z s) : Sound z (s.measureImage bs) := by
  unfold State.measureImage
  exact Sound.ite h.measure.measure h.measure

theorem Sound.execImageReadDone {image : Option (List Byte)} (h : Sound z s) : SoundOut z (execImageReadDone image s) := by
  unfold Machine.execImageReadDone
  split
  · exact h.next
  · split
    · exact h.imageBad.next
    · dsimp only
      split
      exacts [h.measureImage.imageBad.next, h.imageBad.next, (h.measureImage.same (by rfl)).bootPhase.next]

theorem Sound.execFirmwareLoadDone (h : Sound z s) : SoundOut z (execFirmwareLoadDone s) := by
  unfold Machine.execFirmwareLoadDone
  exact SoundOut.ite h.bootPhase.next h.next

theorem Sound.execDramTrainDone {failed : List (Nat × Nat)} (h : Sound z s) : SoundOut z (execDramTrainDone failed s) := by
  unfold Machine.execDramTrainDone
  exact SoundOut.ite h.next (h.forAll (fun _ _ h => h.modFld)).bootPhase.next

theorem Sound.execBootZeroiseDone (h : Sound z s) : SoundOut z (execBootZeroiseDone s) :=
  SoundOut.ite h.next (h.setMem (wf_filter _ _)).bootPhase.next

theorem Sound.emptyStacks (h : Sound z s) : Sound z s.emptyStacks := by
  unfold State.emptyStacks
  exact h.forAll (fun _ _ h => Sound.ite h.modFld h)

theorem Sound.execSelftestDone {failed : List Nat} (h : Sound z s) : SoundOut z (execSelftestDone failed s) := by
  unfold Machine.execSelftestDone
  extract_lets s1 p s2
  have h1 : Sound z s1 := (h.forAll fun _ _ h => h.testField).emptyStacks
  have h2 : Sound z s2 := h1.setPower.event
  exact SoundOut.ite (SoundOut.ite h.selfTest.next h.next) (h2.forAll fun _ _ h => h.raiseLost).next

theorem Sound.form {uid : Nat} (h : Sound z s) : Sound z (s.form uid) := by
  unfold State.form
  exact (h.same (by rfl)).finish

theorem Sound.startIslandForm {uid : Nat} {feed : Feed} (h : Sound z s) : Sound z (startIslandForm s uid feed) := by
  unfold Machine.startIslandForm
  exact Sound.ite h.finish (Sound.ite h.emits.finish (Sound.ite h.emits.form h.emits))

theorem Sound.execFormationNoAnswer {module : Nat} (h : Sound z s) : SoundOut z (execFormationNoAnswer module s) := by
  unfold Machine.execFormationNoAnswer
  exact SoundOut.ite h.finishAll.next h.next

theorem Sound.startPortRetrain {uid port : Nat} (h : Sound z s) : Sound z (startPortRetrain s uid port) := h.modPort.finish

theorem Sound.startPortClear {uid pmask : Nat} (h : Sound z s) : Sound z (startPortClear s uid pmask) := by
  unfold Machine.startPortClear
  exact (h.forAll (fun _ _ h => h.modPort)).finish

theorem Sound.startFabricSet {uid : Nat} {p : FabricP} (h : Sound z s) : Sound z (startFabricSet s uid p) := by
  unfold Machine.startFabricSet
  exact (h.same (by rfl)).finish

theorem Sound.openFlow {k part : Nat} {peer uid : Nat} (h : Sound z s) : Sound z (s.openFlow k part peer uid) := h.modFlow

theorem Sound.bulkWrite {uid part : Nat} {p : BulkP} {bytes : List Byte} (h : Sound z s) : Sound z (s.bulkWrite uid part p bytes) := by
  unfold State.bulkWrite
  split
  · exact h.hostPutFor
  · split
    · exact h.pokeBytes.transferDone
    · split
      exacts [h.flowSend, h]

theorem Sound.openBulk {uid part : Nat} {p : BulkP} (h : Sound z s) : Sound z (s.openBulk uid part p) := by
  unfold State.openBulk
  exact Sound.ite h.openFlow h

theorem Sound.askBulk {uid part : Nat} {p : BulkP} (h : Sound z s) : Sound z (s.askBulk uid part p) := by
  unfold State.askBulk
  refine Sound.emit ?_
  split
  exacts [h.modFlow.modFlow, h.modFlow]

theorem Sound.startBulk {uid part : Nat} {p : BulkP} (h : Sound z s) : Sound z (startBulk s uid part p) := by
  unfold Machine.startBulk
  exact Sound.ite h.finish (Sound.ite h.finish (Sound.ite (h.openBulk.modCmd (by intro; rfl)).tell (Sound.ite (h.openBulk.modCmd (by intro; rfl)).bulkWrite (h.openBulk.modCmd (by intro; rfl)).askBulk)))

theorem Sound.sendEntry {uid : Nat} {part : Option Nat} {e : ExportE} (h : Sound z s) : Sound z (s.sendEntry uid part e) := by
  unfold State.sendEntry
  refine Sound.forAll h ?_
  intro _ _ h
  dsimp only
  split
  · split
    · exact h
    · split
      exacts [h.hostPutFor, h.hostPut]
  · split
    exacts [h.flowSend, h]

theorem Sound.startCkpt {uid part : Nat} {p : CkptP} (h : Sound z s) : Sound z (startCkpt s uid part p) := by
  unfold Machine.startCkpt
  exact Sound.ite h.finish (Sound.ite (h.modCmd (by intro; rfl)).openFlow (h.modCmd (by intro; rfl))).sendEntry

theorem Sound.execHostTierAck {q : Fin 64} {seq : Nat} {data : List Byte} (h : Sound z s) : SoundOut z (execHostTierAck q seq data s) := by
  unfold Machine.execHostTierAck
  split
  · exact h.next
  · split
    · exact SoundOut.ite (Sound.ite (h.modCmd (by intro; rfl)) h).bulkWrite.next (SoundOut.ite h.transferDone.next h.next)
    · exact SoundOut.ite h.transferDone.next h.next
    · exact h.next

theorem Sound.groupMsg {group bad lane : Nat} {m : FabMsg} (h : Sound z s) : Sound z (s.groupMsg group bad lane m) := by
  unfold State.groupMsg
  split
  exacts [h, Sound.ite h.takeSig h.takeSeg]

theorem Sound.memberMsg {m : FabMsg} (h : Sound z s) : Sound z (s.memberMsg m) := by
  unfold State.memberMsg
  dsimp only
  split
  · exact h.addContrib.tryReduce
  · exact Sound.ite (h.stateAfter h.doMirrorShardLanded) h
  · exact h.ownerShard
  · exact Sound.ite (h.stateAfter h.execOuterMasterReceive) h

theorem Sound.xferHere {x : Xfer} (h : Sound z s) : Sound z (s.xferHere x) := by
  unfold State.xferHere
  split
  · exact h.stateAfter h.doUpTransferDelivered
  · exact h.stateAfter h.doDownTransferDelivered
  · exact h.stateAfter h.execStatusTransferRx
  · exact h.stateAfter h.execFetchReqRx
  · exact h.stateAfter h.execFetchDataRx

theorem Sound.takeMsg {set bad lane : Nat} {m : FabMsg} (h : Sound z s) : Sound z (s.takeMsg set bad lane m) := by
  unfold State.takeMsg
  exact Sound.ite h.groupMsg (Sound.ite h.memberMsg (Sound.ite h.relayXfer h.xferHere))

theorem Sound.takeInbox {bad lane : Nat} (h : Sound z s) : Sound z (s.takeInbox bad lane) := by
  unfold State.takeInbox
  exact (h.same (by rfl)).forAll (fun _ _ h => h.takeMsg)

theorem Sound.execCollectiveSegment {m : CollMsg} (h : Sound z s) : SoundOut z (execCollectiveSegment m s) := by
  unfold Machine.execCollectiveSegment
  dsimp only
  split
  · split
    exacts [h.next, SoundOut.ite (h.same (by rfl)).next h.takeSig.next]
  · split
    exacts [h.next, SoundOut.ite (h.same (by rfl)).next h.takeSeg.next]
  · exact SoundOut.ite h.linkAccept.enginePacket.takeInbox.next.settle h.linkAccept.next

theorem Sound.modShutter {pid : Nat} {g : ShutterJob → ShutterJob} (h : Sound z s) : Sound z (s.modShutter pid g) := by
  unfold State.modShutter
  exact h.same (by rfl)

theorem Sound.shutterPhase {pid ph : Nat} (h : Sound z s) : Sound z (s.shutterPhase pid ph) := h.modPart

theorem Sound.enterAbandon {pid : Nat} (h : Sound z s) : Sound z (s.enterAbandon pid) := by
  unfold State.enterAbandon
  exact Sound.ite h.shutterPhase.requestAbort h.shutterPhase

theorem Sound.enterDrain {uid : Nat} {p : ShutterP} {del : Bool} (h : Sound z s) : Sound z (s.enterDrain uid p del) := by
  unfold State.enterDrain
  exact Sound.ite (h.same (by rfl)).modPart.enterAbandon (h.same (by rfl)).modPart

theorem Sound.startShutter {uid : Nat} {p : ShutterP} {feed : Feed} (h : Sound z s) : Sound z (startShutter s uid p feed) := by
  unfold Machine.startShutter
  exact Sound.ite (h.emits.finish.modCmd (by intro; rfl)) (Sound.ite h.emits.finish (h.emits.forAll (fun _ _ h => h.openFlow)).enterDrain)

theorem Sound.startPartDelete {uid pid : Nat} (h : Sound z s) : Sound z (startPartDelete s uid pid) := h.enterDrain

theorem Sound.drainLine {pid : Nat} {j : ShutterJob} (h : Sound z s) : Sound z (s.drainLine pid j) := by
  unfold State.drainLine
  exact Sound.ite h (Sound.ite (Sound.ite h h.endRepeated).flareUp h.flareUp.abandonIn)

theorem Sound.dropPublications {pid : Nat} (h : Sound z s) : Sound z (s.dropPublications pid) := by
  unfold State.dropPublications
  exact h.forAll (fun _ _ h => h.modFld)

theorem Sound.drainPoint {pid : Nat} {j : ShutterJob} (h : Sound z s) : Sound z (s.drainPoint pid j) := by
  have h1 := h.drainLine (pid := pid) (j := j) |>.dropPublications (pid := pid)
  refine Sound.forAll (Sound.modShutter (Sound.shutterPhase (h1.mapCmds rfl rfl fun c => ?_))) fun _ _ h => h.sendEntry
  split <;> rfl

theorem Sound.execShutterDrainPoint {pid : Fin 16} (h : Sound z s) : SoundOut z (execShutterDrainPoint pid s) := by
  unfold Machine.execShutterDrainPoint
  split
  exacts [SoundOut.ite h.drainPoint.next h.next, h.next]

theorem Sound.execShutterWaitTimeout {pid : Fin 16} (h : Sound z s) : SoundOut z (execShutterWaitTimeout pid s) := by
  unfold Machine.execShutterWaitTimeout
  split
  exacts [SoundOut.ite h.next (SoundOut.ite h.enterAbandon.next h.drainPoint.next), h.next]

theorem Sound.closeLports {pid : Nat} (h : Sound z s) : Sound z (s.closeLports pid) := by
  unfold State.closeLports
  exact h.forAll (fun _ _ h => (Sound.ite (Sound.ite h.emit.dropSession h).emit (Sound.ite h.emit.dropSession h)).modLport)

theorem Sound.zeroise {pid : Nat} (h : Sound z s) : Sound z (s.zeroise pid) := by
  unfold State.zeroise
  extract_lets fs s1 s2
  have h1 : Sound z s1 := h.shutterPhase.finishAll.closeLports
  have h2 : Sound z s2 :=
    (h1.setMem (m := s1.mem.filter fun c => !fs.contains (addrField c.1) || s1.lostAt c.1) (wf_filter _ _)).same (by rfl)
  exact Sound.ite h2.modOuter h2

theorem Sound.closeFlows {uid : Nat} (h : Sound z s) : Sound z (s.closeFlows uid) := by
  unfold State.closeFlows
  exact h.same (by rfl)

theorem Sound.exportEnd {pid : Nat} {j : ShutterJob} {fin bytes ff : Nat} {cut fail : Bool} (h : Sound z s) :
    Sound z (s.exportEnd pid j fin bytes ff cut fail) :=
  h.modShutter.closeFlows.zeroise

theorem Sound.execShutterExportDone {pid : Fin 16} {feed : Feed} (h : Sound z s) : SoundOut z (execShutterExportDone pid feed s) := by
  unfold Machine.execShutterExportDone
  split
  exacts [SoundOut.ite h.next h.exportEnd.next, h.next]

theorem Sound.execExportCutTimer {pid : Fin 16} {finished bytes : Nat} (h : Sound z s) : SoundOut z (execExportCutTimer pid finished bytes s) := by
  unfold Machine.execExportCutTimer
  split
  exacts [SoundOut.ite h.next h.exportEnd.next, h.next]

theorem Sound.handover {pid : Nat} {j : ShutterJob} (h : Sound z s) : Sound z (s.handover pid j) := by
  unfold State.handover
  exact ((h.modHost rfl rfl).forAll (fun _ _ h => h.modQueue)).modPart.finish.postReady.event

theorem Sound.freePart {pid : Nat} {j : ShutterJob} (h : Sound z s) : Sound z (s.freePart pid j) := by
  unfold State.freePart
  exact (h.forAll (fun _ _ h => h.modLport)).modPart.finish

theorem Sound.execShutterZeroiseDone {pid : Fin 16} (h : Sound z s) : SoundOut z (execShutterZeroiseDone pid s) := by
  unfold Machine.execShutterZeroiseDone
  split
  exacts [SoundOut.ite h.next (Sound.ite (h.same (by rfl)).freePart (h.same (by rfl)).handover).next, h.next]

theorem Sound.execPowerStateReached (h : Sound z s) : SoundOut z (execPowerStateReached s) := by
  unfold Machine.execPowerStateReached
  split
  exacts [h.next, ((Sound.ite h.afterRetain h).same (by rfl)).finish.postReady.event.next]

theorem Sound.startBoot (h : Sound z s) : Sound z s.startBoot := h.measure.loaderWait

theorem Sound.execReset (h : Sound z s) : SoundOut z (execReset s) := by
  unfold Machine.execReset
  exact SoundOut.ite h.afterReset.startBoot.next h.next

theorem Sound.powerFault (h : Sound z s) : Sound z s.powerFault := by
  unfold State.powerFault
  exact (Sound.ite h.event h).same (by rfl)

theorem Sound.execRailGoodLost {rail : Fin 3} (h : Sound z s) : SoundOut z (execRailGoodLost rail s) := by
  unfold Machine.execRailGoodLost
  exact SoundOut.ite (h.same (by rfl)).powerFault.next (h.same (by rfl)).next

theorem Sound.execRailEnableRemoved {rail : Fin 3} (h : Sound z s) : SoundOut z (execRailEnableRemoved rail s) := by
  unfold Machine.execRailEnableRemoved
  exact SoundOut.ite (h.afterOff.same (by rfl)).next (SoundOut.ite (h.powerFault.same (by rfl)).next (h.same (by rfl)).next)

theorem Sound.execRailEnableAsserted {rail : Fin 3} (h : Sound z s) : SoundOut z (execRailEnableAsserted rail s) := by
  unfold Machine.execRailEnableAsserted
  exact (h.same (by rfl)).sampleInput.next

theorem Sound.execPgCoreReturn (h : Sound z s) : SoundOut z (execPgCoreReturn s) := by
  unfold Machine.execPgCoreReturn
  exact SoundOut.ite (h.same (by rfl)).next h.next

theorem Sound.execPstat {rails req : Nat} (h : Sound z s) : SoundOut z (execPstat rails req s) := by
  unfold Machine.execPstat
  exact (h.same (by rfl)).next

theorem Sound.execReiloSilence (h : Sound z s) : SoundOut z (execReiloSilence s) := by
  unfold Machine.execReiloSilence
  exact SoundOut.ite (h.modHost rfl rfl).next h.next

theorem Sound.execReiloLinkUp {lanes : Nat} (h : Sound z s) : SoundOut z (execReiloLinkUp lanes s) := by
  unfold Machine.execReiloLinkUp
  exact SoundOut.ite (h.modHost rfl rfl).release.next h.next

theorem Sound.bodyStart {view uid : Nat} {hd : Hdr} {part : Nat} {point : Option (Nat × Nat)} {feed : Feed} {x : Body} (h : Sound z s) :
    Sound z (s.bodyStart view uid hd part point feed x) := by
  unfold State.bodyStart
  split
  · exact h.startNop
  · exact h.startConfig
  · exact h.startInventory
  · exact h.startPower
  · exact h.startQueueSetup
  · exact h.startCring
  · exact h.startEring
  · exact h.startPartCreate
  · exact h.startPartDelete
  · exact h.startProfile
  · exact h.startShutter
  · exact Sound.ite h.startHeirOpen h.startHeirClose
  · exact h.startBind
  · exact h.startBulk
  · exact h.startRegulator
  · exact h.startRegulatorSys
  · exact h.startErrClear
  · exact h.startActReg
  · exact h.startActRemove
  · exact h.startFootprint
  · exact h.startTileProgram
  · exact h.startStepStart
  · exact h.startStepStop
  · exact h.startMarkTable
  · exact h.startKeeper
  · exact h.startWatchdog
  · exact h.startIslandForm
  · exact h.startCgroupReg
  · exact h.startCgroupRemove
  · exact h.startCollective
  · exact h.startPortRetrain
  · exact h.startPortClear
  · exact h.startFabricSet
  · exact h.startFedRecord
  · exact h.startOuterReg
  · exact h.startOuterRemove
  · exact h.startRouteTable
  · exact h.startLportConfig
  · exact h.startOptics
  · exact h.startLportClear
  · exact h.startPgroupReg
  · exact h.startPgroupRemove
  · exact h.startPublish
  · exact h.startAnnounced
  · exact h.startAudit
  · exact h.startCkpt
  · exact h.startHealth
  · exact h.startHealthClear
  · exact h.startSteerCtl
  · exact h.startSteerSlot
  · exact h.startAnnounced
  · exact h.startNevt
  · exact h.startSnapshot
  · exact h.startAttest
  · exact h.startLogRead
  · exact h.startIdkey
  · exact h.startTestMode
  · exact h.startTgRun
  · exact h.startTgStop
  · exact h.startSelftest

theorem Sound.countViolation {q view : Nat} {cause op : Nat} (h : Sound z s) : Sound z (s.countViolation q view cause op) := by
  unfold State.countViolation
  exact h.same (by rfl)

theorem Sound.begin {c : OutCmd} {feed : Feed} (h : Sound z s) : Sound z (s.begin c feed) := by
  unfold State.begin
  dsimp only
  split
  exacts [(h.modCmd (by intro; rfl)).finish, (h.modCmd (by intro; rfl)).bodyStart]

theorem Sound.tryBegin {c : OutCmd} {feed : Feed} (h : Sound z s) : Sound z (s.tryBegin c feed) := by
  unfold State.tryBegin
  split
  · exact h.begin
  · split
    exacts [Sound.ite h.finish h, h]

theorem Sound.reject {c : OutCmd} {k : Check} (h : Sound z s) (hc : c.uid = s.host.nextUid) : Sound z (s.reject c k) := h.addCmd hc

theorem Sound.accept {hd : Hdr} {b : Body} {feed : Feed} (h : Sound z s) : Sound z (s.accept hd b feed) := by
  refine Sound.tryBegin ?_
  split
  · exact h.announce.addCmd (by rw [announce_host]; rfl)
  · exact h.addCmd rfl

theorem Sound.submitWith {hd : Hdr} {b : Body} {pre : List Check} {feed : Feed} (h : Sound z s) : Sound z (s.submitWith hd b pre feed) := by
  unfold State.submitWith
  dsimp only
  split
  · exact h.reject rfl
  · exact h.countViolation.addCmd rfl
  · exact h.reject rfl
  · exact h.accept

theorem Sound.submit {hd : Hdr} {b : Body} {feed : Feed} (h : Sound z s) : Sound z (s.submit hd b feed) := by
  unfold State.submit
  exact Sound.ite h.submitWith h

theorem Sound.execScheduledStart {q : Fin 64} {feed : Feed} (h : Sound z s) : SoundOut z (execScheduledStart q feed s) := by
  unfold Machine.execScheduledStart
  split
  · exact h.next
  · split
    · exact h.next
    · dsimp only
      split
      exacts [(h.finish.modCmd (by intro; rfl)).next, h.begin.next]

theorem Sound.enableQ0 (h : Sound z s) : Sound z s.enableQ0 := h.modQueue.modCring

theorem Sound.execSqDoorbell {view : Fin 17} {idx : Fin 64} {value : Word} (h : Sound z s) : SoundOut z (execSqDoorbell view idx value s) := by
  unfold Machine.execSqDoorbell
  exact SoundOut.ite h.next (Sound.ite h.enableQ0 h).modQueue.next

theorem Sound.execCqDoorbell {view : Fin 17} {idx : Fin 64} {value : Word} (h : Sound z s) : SoundOut z (execCqDoorbell view idx value s) := by
  unfold Machine.execCqDoorbell
  exact SoundOut.ite h.modCring.next h.next

theorem Sound.execEqDoorbell {view idx : Fin 17} {value : Word} (h : Sound z s) : SoundOut z (execEqDoorbell view idx value s) := by
  unfold Machine.execEqDoorbell
  exact SoundOut.ite h.next (SoundOut.ite h.modEring.eventWrite.modEring.next h.modEring.next)

theorem Sound.execQ0SetupWrite {view : Fin 17} {reg : Fin 5} {value : Word} (h : Sound z s) : SoundOut z (execQ0SetupWrite view reg value s) := by
  have hset : (s.host.setup reg value).cmds = s.host.cmds ∧ (s.host.setup reg value).nextUid = s.host.nextUid := by
    unfold HostLink.setup
    split <;> exact ⟨rfl, rfl⟩
  exact SoundOut.ite h.next (SoundOut.ite h.modQueue.next (h.modHost hset.1 hset.2).modQueue.modCring.next)

theorem Sound.execPacketFetch {q : Fin 64} {bytes : List Byte} {feed : Feed} (h : Sound z s) : SoundOut z (execPacketFetch q bytes feed s) := by
  unfold Machine.execPacketFetch
  exact SoundOut.ite h.next h.modQueue.submitWith.next

theorem Sound.exec {i : Instr} (h : Sound z s) : SoundOut z (exec i s) := by
  unfold Machine.exec
  split
  · exact h.submit.next
  · exact h.submit.next
  · exact h.submit.next
  · exact h.submit.next
  · exact h.submit.next
  · exact h.submit.next
  · exact h.execPowerStateReached
  · exact h.submit.next
  · exact h.submit.next
  · exact h.submit.next
  · exact h.submit.next
  · exact h.submit.next
  · exact h.submit.next
  · exact h.submit.next
  · exact h.execShutterDrainPoint
  · exact h.execShutterWaitTimeout
  · exact h.execShutterExportDone
  · exact h.execExportCutTimer
  · exact h.execShutterZeroiseDone
  · exact h.submit.next
  · exact h.submit.next
  · exact h.submit.next
  · exact h.submit.next
  · exact h.submit.next
  · exact h.submit.next
  · exact h.submit.next
  · exact h.submit.next
  · exact h.submit.next
  · exact h.submit.next
  · exact h.submit.next
  · exact h.submit.next
  · exact h.submit.next
  · exact h.submit.next
  · exact h.submit.next
  · exact h.submit.next
  · exact h.submit.next
  · exact h.submit.next
  · exact h.submit.next
  · exact h.submit.next
  · exact h.submit.next
  · exact h.submit.next
  · exact h.submit.next
  · exact h.submit.next
  · exact h.submit.next
  · exact h.submit.next
  · exact h.submit.next
  · exact h.submit.next
  · exact h.submit.next
  · exact h.submit.next
  · exact h.submit.next
  · exact h.submit.next
  · exact h.submit.next
  · exact h.submit.next
  · exact h.submit.next
  · exact h.submit.next
  · exact h.submit.next
  · exact h.submit.next
  · exact h.submit.next
  · exact h.submit.next
  · exact h.submit.next
  · exact h.submit.next
  · exact h.submit.next
  · exact h.submit.next
  · exact h.submit.next
  · exact h.submit.next
  · exact h.submit.next
  · exact h.submit.next
  · exact h.submit.next
  · exact h.submit.next
  · exact h.submit.next
  · exact h.submit.next
  · exact h.submit.next
  · exact h.submit.next
  · exact h.submit.next
  · exact h.submit.next
  · exact h.submit.next
  · exact h.execTgRunDone
  · exact h.submit.next
  · exact h.submit.next
  · exact h.execSqDoorbell
  · exact h.execPacketFetch
  · exact h.execScheduledStart
  · exact h.postOne.next
  · exact h.execCqDoorbell
  · exact h.execEqDoorbell
  · exact h.execQ0SetupWrite
  · exact h.execRngSeedLoad
  · exact h.execFflRearm
  · exact h.execClrViol
  · exact h.execBcnPosRead
  · exact h.execRegisterWrite
  · exact h.execImagePush
  · exact h.execImageReadDone
  · exact h.execFirmwareLoadDone
  · exact h.execDramTrainDone
  · exact h.execBootZeroiseDone
  · exact h.execSelftestDone
  · exact h.chkWrite.next
  · exact h.chkWrite.next
  · exact h.chkWrite.next
  · exact h.chkWrite.next
  · exact h.chkWrite.next
  · exact h.chkWrite.next
  · exact h.execChkFeedDone
  · exact h.execChkResultRead
  · exact h.execQueueRefill
  · exact h.execDescriptorStart
  · exact h.execDescriptorRetire
  · exact h.execLoad
  · exact h.execStore
  · exact h.execStage
  · exact h.execSwap
  · exact h.execPass
  · exact h.execPairedPass
  · exact h.execDrain
  · exact h.execSmxFwd
  · exact h.execSmxDot
  · exact h.execSmxBwd
  · exact h.execNormStats
  · exact h.execNormFwd
  · exact h.execNormDot
  · exact h.execNormBwd
  · exact h.execRecSave
  · exact h.execRecLoad
  · exact h.laneUnit
  · exact h.laneUnit
  · exact h.laneUnit
  · exact h.laneUnit
  · exact h.laneUnit
  · exact h.laneUnit
  · exact h.laneUnit
  · exact h.laneUnit
  · exact h.laneUnit
  · exact h.laneUnit
  · exact h.laneUnit
  · exact h.execPutAdd
  · exact h.execPutWrite
  · exact h.execPutRelease
  · exact h.execGet
  · exact h.execMark
  · exact h.execWaitSemaphore
  · exact h.execWaitMark
  · exact h.execFence
  · exact h.execNsummaryPropagate
  · exact h.execReadyContribute
  · exact h.execDoneContribute
  · exact h.execFlareFrameRx
  · exact h.execStepBeginDelivery
  · exact h.execMarkDelivery
  · exact h.execCommitDelivery
  · exact h.execEvalSlotDelivery
  · exact h.doNormResult.settle
  · exact h.execSteerRoundResult
  · exact h.execScalarDelivery
  · exact h.doOuterFloodRx.settle
  · exact h.execAbortFloodRx
  · exact h.execFenceFloodRx
  · exact h.execStepOverdue
  · exact h.modBcn.next
  · exact h.execSiteMessage
  · exact h.modBcn.next
  · exact h.execAdvance
  · exact h.execPstat
  · exact h.execXfail
  · exact h.failTiles.next
  · exact h.execTileStoreUe
  · exact h.execFcProbeTimeout
  · exact h.execChannelLost
  · exact h.execScrub
  · exact h.execThermalSample
  · exact h.execUpdateSweepStart
  · exact h.doUpdateSweepDone.settle
  · exact h.execTileBorrow
  · exact h.doShardReductionLanded.settle
  · exact h.doMirrorShardLanded.settle
  · exact h.execWorkingCopyEmit
  · exact h.ownerShard.next
  · exact h.execVersionPublish
  · exact h.execOffloadReadDone
  · exact h.execOffloadDone
  · exact h.execPrefetchStart
  · exact h.execPrefetchLanded
  · exact h.execStateFetch
  · exact h.execFetchLanded
  · exact h.execTierWritebackAck
  · exact h.doOuterApplySweep.settle
  · exact h.doOuterFoldSweep.settle
  · exact h.doOuterCloseSweep.settle
  · exact h.doOuterCombineSweep.settle
  · exact h.execOuterMasterReceive
  · exact h.doUpTransferDelivered.settle
  · exact h.doDownTransferDelivered.settle
  · exact h.execStatusTransferRx
  · exact h.execFetchReqRx
  · exact h.execFetchDataRx
  · exact h.execFabricTrainDone
  · exact h.execFabricTrainTimeout
  · exact h.execFabricSilence
  · exact h.execFabricLaneLockLost
  · exact h.execReplayTimeout
  · exact h.execIdleSend
  · exact h.execIdleFrame
  · exact h.execFrameForward
  · exact h.execBulkWritePacket
  · exact h.execCollectiveSegment
  · exact h.execFlowAck
  · exact h.execFlowControlMessage
  · exact h.execFlowAckTimer
  · exact h.execFlowRetransmitTimeout
  · exact h.execOpticsPoll
  · exact h.execOpticsPresenceChange
  · exact h.execLanternLinkUp
  · exact h.modLport.linkLost.next
  · exact h.execHello
  · exact h.execHelloRetry
  · exact h.execAttestFrame
  · exact h.execAttestTimeout
  · exact h.execLanternData
  · exact h.execManifestReject
  · exact h.execLanternAck
  · exact h.execLanternAckTimer
  · exact h.execLanternRtoExpiry
  · exact h.execEchoTimer
  · exact h.execEcho
  · exact h.execEchoReply
  · exact h.execLosttouch
  · exact h.execClose
  · exact h.next
  · exact h.execReiloSilence
  · exact h.execReiloLinkUp
  · exact h.execReset
  · exact h.execRailGoodLost
  · exact h.execRailEnableRemoved
  · exact h.sampleInput.powerFault.next
  · exact h.execPgCoreReturn
  · exact h.afterOff.next
  · exact h.execRailEnableAsserted
  · exact h.execTestZeroiseDone
  · exact h.execHostTierAck
  · exact h.execFcRestartDone
  · exact h.execLinkFrameDiscard
  · exact h.lntDiscard.next
  · exact h.execFormationNoAnswer

theorem Sound.step (h : MemInv s) (hu : UidInv s) {t : State} (ht : step s = .next t) :
    MemInv t ∧ UidInv t ∧ t.fuses = s.fuses ∧ t.pending = s.pending.tail := by
  unfold Machine.step at ht
  cases hp : s.pending with
  | nil =>
    rw [hp] at ht
    cases ht
    exact ⟨h, hu, rfl, hp⟩
  | cons c rest =>
    rw [hp] at ht
    have hs : Sound { s with pending := rest } { s with pending := rest } := ⟨h, hu, rfl, rfl⟩
    exact hs.exec t ht

/-- Settles O4: `Sound` relates the state a row begins with to all that its operations answer. -/
theorem everyStepKeepsInvariants : Obligations.EveryStepKeepsInvariants := by
  unfold Obligations.EveryStepKeepsInvariants
  intro s t hm hu ht
  exact Sound.step hm hu ht

end
end Sys2Proof.Proofs
end

section
/-! PROOFS. The step and the state after reset. -/

namespace Sys2Proof.Proofs

open Sys2Proof.Machine Sys2Proof.Laws

/-- Settles O1, by the two branches of `step`. -/
theorem stepRunsFrontCommand : Obligations.StepRunsFrontCommand := by
  unfold Obligations.StepRunsFrontCommand
  refine ⟨fun s c rest h => ?front, fun s h => ?idle⟩
  case front => simp only [step, h]
  case idle => simp only [step, h]

/-- Settles O3: both memories and the commands in hand list nothing at reset. -/
theorem resetHoldsInvariants : Obligations.ResetHoldsInvariants :=
  ⟨⟨rfl, rfl⟩, fun _ hc => absurd hc List.not_mem_nil⟩

/-- No field is listed at reset, so the registers of every field are those of field 0. -/
theorem reset_fldReg (f : Nat) : State.reset.fldReg f = State.reset.fldReg 0 := rfl

/-- No check-value unit is listed at reset. -/
theorem reset_chkUnit (u : Nat) : State.reset.chkUnit u = {} := rfl

/-- Settles O2: each register of the state after reset, evaluated. -/
theorem resetRegisterValues : Obligations.ResetRegisterValues := by
  unfold Obligations.ResetRegisterValues
  refine ⟨fun f _ => ?fields, rfl, rfl, rfl, fun u _ => ?units, rfl, rfl, rfl, rfl, rfl, rfl, rfl⟩
  case fields =>
    rw [reset_fldReg]
    exact ⟨by decide, by decide, by decide, by decide, by decide, by decide, by decide, by decide⟩
  case units =>
    rw [reset_chkUnit]
    exact ⟨rfl, rfl, rfl⟩

end Sys2Proof.Proofs
end

section
/-! PROOFS. The packet of a command: where the reader of OPTICS looks for DATA. -/

namespace Sys2Proof.Proofs

open Sys2Proof.Machine Sys2Proof.Laws

/-- An OPTICS that writes sixteen bytes 7 to page 0 of port 0. -/
def opticsOfSevens : Body := .optics 1 { port := 0, bank := 0, page := 0, off := 0, len := 16, data := List.replicate 16 7 }

/-- LEN is a byte count and fills bytes 8 to 15 of the parameter block, so DATA is written at byte 16 (R497). -/
theorem layFrom_optics : (layFrom 0 (layFixed 0x0605)).drop 5 = [(8, 8), (16, 16)] := by decide

/-- The reader takes DATA from byte 8, where LEN stands: what it reads of the packet is another command. -/
theorem parseBody_opticsOfSevens : parseBody 0x0605 (encodeBody opticsOfSevens) =
    some (.optics 1 ⟨0, 0, 0, 0, 16, [16, 0, 0, 0, 0, 0, 0, 0] ++ List.replicate 8 7⟩) := by decide

/-- Refutes O36: the packet of an OPTICS holds DATA at byte 16 of its parameters, behind the 8 bytes of LEN, and the reader
takes it from byte 8. -/
theorem not_packetRoundTrip : ¬ Obligations.PacketRoundTrip := by
  unfold Obligations.PacketRoundTrip
  intro h
  obtain ⟨hback, -⟩ := h
  obtain ⟨hread, -, -⟩ := hback opticsOfSevens (by decide)
  have hother := parseBody_opticsOfSevens.symm.trans hread
  exact absurd hother (by decide)

end Sys2Proof.Proofs
end

section
/-! PROOFS. Commands of the host that start at their submission: the state they act on, and what a completed or a running one leaves. -/

namespace Sys2Proof.Proofs

open Sys2Proof.Machine Sys2Proof.Laws

/-! ### What a completion leaves -/

section
variable (s : State) (uid st : Nat) (r : List Nat)

@[simp] theorem finish_mem : (s.finish uid st r).mem = s.mem := rfl
@[simp] theorem finish_hostMem : (s.finish uid st r).hostMem = s.hostMem := rfl
@[simp] theorem finish_fields : (s.finish uid st r).fields = s.fields := rfl
@[simp] theorem finish_fld (f : Nat) : (s.finish uid st r).fld f = s.fld f := rfl
@[simp] theorem finish_tile (n : Nat) : (s.finish uid st r).tile n = s.tile n := rfl
@[simp] theorem finish_part (p : Nat) : (s.finish uid st r).part p = s.part p := rfl
@[simp] theorem finish_lport (p : Nat) : (s.finish uid st r).lport p = s.lport p := rfl
@[simp] theorem finish_port (p : Nat) : (s.finish uid st r).port p = s.port p := rfl
@[simp] theorem finish_cmdQueue (q : Nat) : (s.finish uid st r).cmdQueue q = s.cmdQueue q := rfl
@[simp] theorem finish_acts : (s.finish uid st r).acts = s.acts := rfl
@[simp] theorem finish_bcn : (s.finish uid st r).bcn = s.bcn := rfl
@[simp] theorem finish_fab : (s.finish uid st r).fab = s.fab := rfl
@[simp] theorem finish_outer : (s.finish uid st r).outer = s.outer := rfl
@[simp] theorem finish_heirs : (s.finish uid st r).heirs = s.heirs := rfl

end

section
variable (s : State) (m : OutMsg)

@[simp] theorem emit_fld (f : Nat) : (s.emit m).fld f = s.fld f := rfl
@[simp] theorem emit_tile (n : Nat) : (s.emit m).tile n = s.tile n := rfl
@[simp] theorem emit_part (p : Nat) : (s.emit m).part p = s.part p := rfl
@[simp] theorem emit_lport (p : Nat) : (s.emit m).lport p = s.lport p := rfl
@[simp] theorem emit_port (p : Nat) : (s.emit m).port p = s.port p := rfl

end

/-! ### The state a command acts on -/

/-- The host link with a command that starts at its submission in hand. -/
def handLink (s : State) (h : Hdr) (b : Body) : HostLink :=
  { s.host with cmds := s.host.cmds ++ [runningEntry s h b], nextUid := s.host.nextUid + 1 }

/-- The state that a command which announces nothing acts on. -/
def hand (s : State) (h : Hdr) (b : Body) : State := { s with host := handLink s h b }

section
variable {s : State} {h : Hdr} {b : Body}

@[simp] theorem hand_host : (hand s h b).host = handLink s h b := rfl
@[simp] theorem hand_host_state : (hand s h b).host.state = s.host.state := rfl
@[simp] theorem hand_mem : (hand s h b).mem = s.mem := rfl
@[simp] theorem hand_hostMem : (hand s h b).hostMem = s.hostMem := rfl
@[simp] theorem hand_fld (f : Nat) : (hand s h b).fld f = s.fld f := rfl
@[simp] theorem hand_tile (n : Nat) : (hand s h b).tile n = s.tile n := rfl
@[simp] theorem hand_part (p : Nat) : (hand s h b).part p = s.part p := rfl
@[simp] theorem hand_lport (p : Nat) : (hand s h b).lport p = s.lport p := rfl
@[simp] theorem hand_port (p : Nat) : (hand s h b).port p = s.port p := rfl
@[simp] theorem hand_acts : (hand s h b).acts = s.acts := rfl
@[simp] theorem hand_bcn : (hand s h b).bcn = s.bcn := rfl
@[simp] theorem hand_power : (hand s h b).power = s.power := rfl
@[simp] theorem hand_blob : (hand s h b).blob = s.blob := rfl
@[simp] theorem hand_cmdQueue (q : Nat) : (hand s h b).cmdQueue q = s.cmdQueue q := rfl

theorem inHand_hand (hs : starts s h b = true) (ho : opSched (opcodeOf b) = false) (hu : UidInv s) : inHand s h b = hand s h b :=
  inHand_plain hs ho hu

/-- A command that is not marked S acts on the state with it in hand. -/
theorem submit_hand (hs : starts s h b = true) (ho : opSched (opcodeOf b) = false) (hu : UidInv s) (feed : Feed) :
    s.submit h b feed = (hand s h b).bodyStart (s.cmdQueue h.queue).view s.host.nextUid h h.part none feed b := by
  rw [submit_of_starts s h b feed hs, inHand_hand hs ho hu, (starts_no_point hs ho).1]

/-- A command marked S that announces nothing acts on the same state, with its point. -/
theorem submit_hand_quiet (hs : starts s h b = true) (hq : ∀ p, s.announce h.part b p = s) (hu : UidInv s) (feed : Feed) :
    s.submit h b feed = (hand s h b).bodyStart (s.cmdQueue h.queue).view s.host.nextUid h h.part (s.pointOf h) feed b := by
  rw [submit_of_starts s h b feed hs, inHand_quiet s h b hq hu]; rfl

/-- The row of a command that is not marked S. -/
theorem exec_hand {c : Instr} {feed : Feed} {X : State} (hc : exec c s = .next (s.submit h b feed)) (hs : starts s h b = true)
    (ho : opSched (opcodeOf b) = false) (hu : UidInv s)
    (hX : (hand s h b).bodyStart (s.cmdQueue h.queue).view s.host.nextUid h h.part none feed b = X) : exec c s = .next X := by
  rw [hc, submit_hand hs ho hu, hX]

/-- Over a link that is UP only does a queue take a packet (R473). -/
theorem starts_linkUp (hs : starts s h b = true) : s.host.state = 2 := by
  unfold starts State.queueOpen at hs
  simp only [Bool.and_eq_true, beq_iff_eq] at hs
  obtain ⟨⟨⟨⟨⟨⟨⟨⟨⟨hup, -⟩, -⟩, -⟩, -⟩, -⟩, -⟩, -⟩, -⟩, -⟩ := hs
  exact hup

/-- A command in hand whose effect left the host link alone completes. -/
theorem completed_hand {X : State} {st : Nat} {r : List Nat} (hu : UidInv s) (hX : X.host = handLink s h b) :
    Completed s.host (X.finish s.host.nextUid st r) h b st [r.getD 0 0, r.getD 1 0, r.getD 2 0, r.getD 3 0] :=
  completed_of s X _ h b st _ _ _ _ r hu rfl hX rfl

/-- A command in hand that only completes. -/
theorem completed_at_once {t : State} {st : Nat} {r : List Nat} (hu : UidInv s) (ht : t = (hand s h b).finish s.host.nextUid st r) :
    Completed s.host t h b st [r.getD 0 0, r.getD 1 0, r.getD 2 0, r.getD 3 0] ∧ t = { s with host := t.host } := by
  subst ht
  exact ⟨completed_hand hu rfl, rfl⟩

/-- A command in hand whose effect left the host link alone, and which goes on, runs. -/
theorem running_hand {X : State} (hX : X.host = handLink s h b) : Running s.host X h b :=
  ⟨runningEntry s h b, hX, rfl, rfl, rfl, rfl, rfl⟩

/-- The entry of a command that completes. -/
theorem finish_hand_host {X : State} (st : Nat) (r : List Nat) (hu : UidInv s) (hX : X.host = handLink s h b) :
    (X.finish s.host.nextUid st r).host =
      { s.host with cmds := s.host.cmds ++ [(runningEntry s h b).finish st r], nextUid := s.host.nextUid + 1 } := by
  unfold State.finish State.modCmd State.modHost
  simp only [hX, handLink]
  congr 1
  exact map_last s.host.cmds (runningEntry s h b) _ hu

end

/-! ### The entry of a command in hand -/

/-- The host link with one more command in hand. -/
def linkWith (s : State) (c : OutCmd) : HostLink := { s.host with cmds := s.host.cmds ++ [c], nextUid := s.host.nextUid + 1 }

section
variable {s X : State} {h : Hdr} {b : Body} {c : OutCmd}

theorem modCmd_link (hu : UidInv s) (hX : X.host = linkWith s c) (hc : c.uid = s.host.nextUid) (g : OutCmd → OutCmd) :
    (X.modCmd s.host.nextUid g).host = linkWith s (g c) := by
  rw [modCmd_host, hX]
  unfold linkWith
  dsimp only
  rw [← hc, map_last s.host.cmds c g (by rw [hc]; exact hu)]

theorem cmd_link (hu : UidInv s) (hX : X.host = linkWith s c) (hc : c.uid = s.host.nextUid) : X.cmd s.host.nextUid = some c := by
  unfold State.cmd
  rw [hX]
  show (s.host.cmds ++ [c]).find? _ = some c
  rw [List.find?_append, List.find?_eq_none.mpr (fun x hx => by simpa using Nat.ne_of_lt (hu x hx))]
  simp [hc]

theorem mem_link (hu : UidInv s) (hX : X.host = linkWith s c) {x : OutCmd} (hx : x ∈ X.host.cmds) (huid : x.uid = s.host.nextUid) : x = c := by
  rw [hX] at hx
  rcases List.mem_append.mp hx with hold | hnew
  · exact absurd huid (Nat.ne_of_lt (hu x hold))
  · exact List.mem_singleton.mp hnew

theorem running_link (hX : X.host = linkWith s c) (hc : c.uid = s.host.nextUid) (hh : c.hdr = h) (hb : c.body = b) (hrun : c.phase = .running)
    (hp : c.posted = false) : Running s.host X h b := ⟨c, hX, hc, hh, hb, hrun, hp⟩

/-- What a running command that is neither replayed nor past its drain point becomes when it completes. -/
theorem completed_link {st : Nat} {r : List Nat} (hX : X.host = linkWith s (c.finish st r)) (hc : c.uid = s.host.nextUid) (hh : c.hdr = h)
    (hb : c.body = b) (hrun : c.phase = .running) (hp : c.posted = false) (hr : c.replayed = false) (hd : c.drained = false) :
    Completed s.host X h b st [r.getD 0 0, r.getD 1 0, r.getD 2 0, r.getD 3 0] := by
  have hnot : ¬ (c.phase = CmdPhase.done || (c.drained && st != stAbShutter)) = true := by simp [hrun, hd]
  refine ⟨c.finish st r, hX, ?_⟩
  unfold OutCmd.finish
  rw [if_neg hnot]
  refine ⟨hc, hh, hb, rfl, ?_, hp, fun hdl => ?_⟩
  · simp [hr]
  · have hnone : c.chosen = none := by unfold OutCmd.chosen; rw [hh, hdl]; rfl
    simp [hnone]

end

/-! ### Bytes that a command writes at RBUF -/

/-- Over a link that is UP, bytes for the host's memory are written at once and nothing goes out. -/
theorem store_of_up {s : State} (hup : s.host.state = 2) (cls : ReiloClass) (a : Nat) (bytes : List Byte) :
    s.store cls a bytes = { s with hostMem := memWriteBytes s.hostMem a bytes } := by
  unfold State.store State.post
  rw [if_pos hup]
  show { s with hostMem := _, outbox := s.outbox ++ [] } = _
  rw [List.append_nil]

theorem writeResult_of_up {s : State} (hup : s.host.state = 2) (b : BufP) (bytes : List Byte) :
    s.writeResult b bytes = { s with hostMem := memWriteBytes s.hostMem b.addr (bytes.take b.len) } := store_of_up hup ..

/-- What RLEN cuts off is not written (R500). -/
theorem memRead_result_outside (m : Memory) (b : BufP) (bytes : List Byte) {a : Nat} (ha : a < b.addr ∨ b.addr + b.len ≤ a) :
    memRead (memWriteBytes m b.addr (bytes.take b.len)) a = memRead m a :=
  memRead_memWriteBytes_outside _ _ _ _ (by rw [List.length_take]; omega)

theorem leNat_leBytes_mod (n v : Nat) : leNat (leBytes n v) = v % 256 ^ n := by
  induction n generalizing v with
  | zero => simp [leBytes, leNat, Nat.mod_one]
  | succ n ih =>
    rw [leBytes, leNat, ih, BitVec.toNat_ofNat, pow_succ' 256, Nat.mod_mul]

/-- A little-endian number inside bytes that have been written reads back, modulo its size. -/
theorem memReadNat_memWriteBytes (m : Memory) (hm : Memory.wf m = true) (a n v : Nat) (pre post : List Byte) :
    memReadNat (memWriteBytes m a (pre ++ leBytes n v ++ post)) (a + pre.length) n = v % 256 ^ n := by
  unfold memReadNat memReadBytes
  rw [← leNat_leBytes_mod]
  congr 1
  apply List.ext_getElem
  · simp [length_leBytes]
  · intro i h1 h2
    rw [length_leBytes] at h2
    rw [List.getElem_map, List.getElem_range, Nat.add_assoc, memRead_memWriteBytes _ _ _ _ hm (by simp [length_leBytes]; omega)]
    simp [List.getD_eq_getElem?_getD, List.getElem?_append, length_leBytes, h2]

end Sys2Proof.Proofs
end

section
/-! PROOFS. The commands of module control: NOP, CONFIG, INVENTORY and the setup of queues and rings. -/

namespace Sys2Proof.Proofs

open Sys2Proof.Machine Sys2Proof.Laws

/-! ### NOP, CONFIG, INVENTORY -/

section
variable {s : State} {h : Hdr} {b : Body}

theorem hand_slotsAll : (hand s h b).slotsAll = s.slotsAll := rfl
theorem hand_sparesUsed : (hand s h b).sparesUsed = s.sparesUsed := rfl
theorem hand_countChans (st : Nat) : (hand s h b).countChans st = s.countChans st := rfl

end

theorem exec_nop {s : State} {h : Hdr} (hu : UidInv s) (hs : starts s h .nop = true) :
    exec (.nop h) s = .next ((hand s h .nop).finish s.host.nextUid stDone []) :=
  congrArg Host.Outcome.next (submit_hand_quiet hs (fun _ => rfl) hu {})

theorem exec_config {s : State} {h : Hdr} {p : BufP} (hu : UidInv s) (hs : starts s h (.config p) = true) (feed : Feed) :
    exec (.config h p feed) s = .next (startConfig (hand s h (.config p)) s.host.nextUid p feed) :=
  congrArg Host.Outcome.next (submit_hand hs rfl hu feed)

theorem exec_inventory {s : State} {h : Hdr} {p : BufP} (hu : UidInv s) (hs : starts s h (.inventory p) = true) :
    exec (.inventory h p) s = .next (startInventory (hand s h (.inventory p)) s.host.nextUid p) :=
  congrArg Host.Outcome.next (submit_hand hs rfl hu {})

/-- Waking a lantern port changes the ports and what goes out. -/
theorem wakeLport_only (s : State) (q : Nat) : s.wakeLport q = { s with lnt := (s.wakeLport q).lnt, outbox := (s.wakeLport q).outbox } := by
  unfold State.wakeLport
  split <;> rfl

theorem forAll_wakeLport_only (s : State) (qs : List Nat) :
    s.forAll qs (fun s q => s.wakeLport q) =
      { s with lnt := (s.forAll qs (fun s q => s.wakeLport q)).lnt, outbox := (s.forAll qs (fun s q => s.wakeLport q)).outbox } := by
  refine forAll_keeps (fun t => t = { s with lnt := t.lnt, outbox := t.outbox }) qs _ (fun t q _ ht => ?_) s rfl
  rw [wakeLport_only, ht]

/-- Training the fabric's ports changes the fabric. -/
theorem trainPorts_only (s : State) : s.trainPorts = { s with fab := s.trainPorts.fab } := by
  unfold State.trainPorts
  split
  · refine forAll_keeps (fun t => t = { s with fab := t.fab }) (List.range 8) _ (fun t p _ ht => ?_) s rfl
    split
    · rw [State.modPort, ht]
    · exact ht
  · rfl

/-- The parts of the state that a blob leaves, beside those that the boot and the ports change. -/
def blobRest (s : State) : HostLink × Memory × Memory × SMap Partition × SMap TileState × SMap ChkUnit × Fuses × Blob × Place :=
  (s.host, s.mem, s.hostMem, s.parts, s.tiles, s.chk, s.fuses, s.blob, s.place)

theorem blobRest_power (s : State) (p : Power) : blobRest { s with power := p } = blobRest s := rfl

theorem blobRest_measure (s : State) (typ : Nat) (digest : List Byte) : blobRest (s.measure typ digest) = blobRest s := rfl

theorem power_measure (s : State) (typ : Nat) (digest : List Byte) : (s.measure typ digest).power = s.power := rfl

theorem blobRest_trainPorts (s : State) : blobRest s.trainPorts = blobRest s := by rw [trainPorts_only]; rfl

theorem power_trainPorts (s : State) : s.trainPorts.power = s.power := by rw [trainPorts_only]

theorem blobRest_wakeLport (s : State) (q : Nat) : blobRest (s.wakeLport q) = blobRest s := by rw [wakeLport_only]; rfl

theorem power_wakeLport (s : State) (q : Nat) : (s.wakeLport q).power = s.power := by rw [wakeLport_only]

theorem acceptBlob_rest (s : State) (bytes : List Byte) :
    blobRest (s.acceptBlob bytes) = blobRest { s with
      blob := parseBlob bytes, place := { s.place with moduleId := bytesAt bytes 6 2, islandId := bytesAt bytes 8 1, placed := true } } := by
  unfold State.acceptBlob
  dsimp only
  rw [forAll_same blobRest _ _ blobRest_wakeLport, blobRest_trainPorts, blobRest_measure]
  split
  · rw [blobRest_power]
    refine (forAll_same blobRest _ _ ?_ _).trans rfl
    exact fun _ _ => rfl
  · rfl

theorem acceptBlob_power (s : State) (bytes : List Byte) :
    (s.acceptBlob bytes).power = if s.power.phase = 4 then { s.power with phase := 5 } else s.power := by
  unfold State.acceptBlob
  dsimp only
  rw [forAll_same (fun t => t.power) _ _ power_wakeLport, power_trainPorts, power_measure]
  by_cases hboot : s.power.phase = 4
  · rw [if_pos hboot, if_pos hboot]
  · rw [if_neg hboot, if_neg hboot]
    rfl

/-- INVENTORY writes its counts first and the 64 records of the fields behind them. -/
theorem startInventory_eq {s : State} (hup : s.host.state = 2) (uid : Nat) (p : BufP) :
    ∃ mid rest, mid.length = 8 ∧ startInventory s uid p = (State.finish { s with
        hostMem := memWriteBytes s.hostMem p.addr ((leBytes 4 s.slotsAll ++ mid ++ leBytes 4 1040 ++ rest).take p.len) } uid stDone
      [s.slotsAll, s.sparesUsed, s.countChans 0, s.countChans 1]) := by
  refine ⟨leBytes 4 s.sparesUsed ++ leBytes 4 ((List.range 64).filter (fun f => (s.fld f).slots.length == 16)).length,
    (List.range 64).flatMap s.inventoryRec, by simp [length_leBytes], ?_⟩
  unfold startInventory
  dsimp only
  rw [writeResult_of_up hup, List.append_assoc (leBytes 4 s.slotsAll)]

/-- A blob that breaks a ruling: BAD_VALUE at BLOB with the offset of the failing field (R544). -/
theorem startConfig_of_bad {s : State} (uid : Nat) {p : BufP} {feed : Feed} {o : Nat} (hp : 0 < p.len)
    (hbad : blobFail (padTo p.len feed.data) (if s.power.phase = 4 then none else some s.blob.mapBytes) = some o) :
    startConfig s uid p feed = (s.finish uid stValue [o]).modCmd uid (fun c => { c with detail := detailOf (fieldOff 0x0001 0) 0 }) := by
  unfold startConfig
  rw [if_neg (Nat.ne_of_gt hp)]
  dsimp only
  rw [hbad]

theorem startConfig_of_good {s : State} (uid : Nat) {p : BufP} {feed : Feed} (hp : 0 < p.len)
    (hgood : blobFail (padTo p.len feed.data) (if s.power.phase = 4 then none else some s.blob.mapBytes) = none) :
    startConfig s uid p feed = (s.acceptBlob (padTo p.len feed.data)).finish uid stDone [] := by
  unfold startConfig
  rw [if_neg (Nat.ne_of_gt hp)]
  dsimp only
  rw [hgood]

/-- Settles O7, by the effect of each of the three commands on the state with the command in hand. -/
theorem moduleControlCommandsComplete : Obligations.ModuleControlCommandsComplete := by
  unfold Obligations.ModuleControlCommandsComplete
  refine ⟨fun s h hu hs => ?nop, fun s h p feed hu hs => ⟨fun hz => ?empty, fun o hp hbad => ?bad, fun hp hgood => ?good⟩,
    fun s h p hu hs => ?inventory⟩
  case nop => exact ⟨_, exec_nop hu hs, completed_at_once hu rfl⟩
  case empty =>
    refine ⟨_, exec_config hu hs feed, completed_at_once (r := []) hu ?_⟩
    unfold startConfig
    rw [if_pos hz]
  case bad =>
    have heff := (exec_config hu hs feed).trans (congrArg _ (startConfig_of_bad _ hp hbad))
    have hlink : (((hand s h (.config p)).finish s.host.nextUid stValue [o]).modCmd s.host.nextUid
        (fun c => { c with detail := detailOf (fieldOff 0x0001 0) 0 })).host = { s.host with
          cmds := s.host.cmds ++ [{ (runningEntry s h (.config p)).finish stValue [o] with detail := 64 }],
          nextUid := s.host.nextUid + 1 } := by
      rw [modCmd_host, finish_hand_host stValue [o] hu rfl]
      dsimp only
      congr 1
      exact map_last s.host.cmds ((runningEntry s h (.config p)).finish stValue [o]) _ (by rw [uid_finish]; exact hu)
    refine ⟨_, heff, ⟨_, hlink, ?_⟩, rfl, fun c hc => ?_⟩
    · obtain ⟨c, hc, hentry⟩ := completed_hand (s := s) (h := h) (b := .config p) (X := hand s h (.config p)) (st := stValue) (r := [o]) hu rfl
      rw [finish_hand_host stValue [o] hu rfl] at hc
      have hlast : (runningEntry s h (.config p)).finish stValue [o] = c := by simpa using hc
      rw [hlast]
      exact hentry
    · rw [hlink] at hc
      simp only [List.getLast?_concat, Option.some.injEq] at hc
      rw [← hc]
  case good =>
    have heff := (exec_config hu hs feed).trans (congrArg _ (startConfig_of_good _ hp hgood))
    have hrest := acceptBlob_rest (hand s h (.config p)) (padTo p.len feed.data)
    have hpower := acceptBlob_power (hand s h (.config p)) (padTo p.len feed.data)
    unfold blobRest at hrest
    simp only [Prod.mk.injEq] at hrest
    obtain ⟨hhost, hmem, hhm, hparts, htiles, hchk, hfuses, hblob, hplace⟩ := hrest
    generalize hu' : (hand s h (.config p)).acceptBlob (padTo p.len feed.data) = u at *
    refine ⟨_, heff, completed_hand (r := []) hu hhost, ?_, ?_, ?_, hblob, hpower, hmem, hhm, hparts, htiles, hchk, hfuses⟩
    · exact congrArg Place.placed hplace
    · exact congrArg Place.moduleId hplace
    · exact congrArg Place.islandId hplace
  case inventory =>
    have hup := starts_linkUp hs
    obtain ⟨mid, rest, hlen, heq⟩ := startInventory_eq (s := hand s h (.inventory p)) hup s.host.nextUid p
    rw [hand_slotsAll, hand_sparesUsed, hand_countChans, hand_countChans, hand_hostMem] at heq
    generalize s.slotsAll = slots, s.sparesUsed = spares, s.countChans 0 = live, s.countChans 1 = mapped at *
    refine ⟨_, (exec_inventory hu hs).trans (congrArg _ heq), completed_hand hu rfl, rfl, fun a ha => ?_, fun hm hlen16 => ?_⟩
    · exact memRead_result_outside _ p _ ha
    · have hcut : (leBytes 4 slots ++ mid ++ leBytes 4 1040 ++ rest).take p.len
          = leBytes 4 slots ++ mid ++ leBytes 4 1040 ++ rest.take (p.len - 16) := by
        have hfirst : (leBytes 4 slots ++ mid ++ leBytes 4 1040).length = 16 := by
          rw [List.length_append, List.length_append, length_leBytes, length_leBytes, hlen]
        rw [List.take_append, List.take_of_length_le (hfirst.trans_le hlen16), hfirst]
      simp only [State.finish, modCmd_hostMem]
      rw [hcut]
      refine ⟨?_, ?_⟩
      · have := memReadNat_memWriteBytes s.hostMem hm.2 p.addr 4 slots [] (mid ++ leBytes 4 1040 ++ rest.take (p.len - 16))
        rwa [List.nil_append, List.length_nil, Nat.add_zero, ← List.append_assoc, ← List.append_assoc] at this
      · have := memReadNat_memWriteBytes s.hostMem hm.2 p.addr 4 1040 (leBytes 4 slots ++ mid) (rest.take (p.len - 16))
        rwa [List.length_append, length_leBytes, hlen] at this

end Sys2Proof.Proofs
end

section
/-! PROOFS. The setup of queues and rings, partitions, memory settings and activation entries. -/

namespace Sys2Proof.Proofs

open Sys2Proof.Machine Sys2Proof.Laws

/-! ### Queues and rings (R494, R495, R506) -/

section
variable (s : State) (uid st : Nat) (r : List Nat)

theorem cmdQueue_finish_modQueue (q : Nat) (g : CmdQueue → CmdQueue) (k : Nat) :
    ((s.modQueue q g).finish uid st r).cmdQueue k = if k = q then g (s.cmdQueue q) else s.cmdQueue k := smapGet_smapModify _ _ _ _ _

theorem cring_finish_modCring (c : Nat) (g : CRing → CRing) (k : Nat) :
    smapGet {} ((s.modCring c g).finish uid st r).host.crings k = if k = c then g (smapGet {} s.host.crings c) else smapGet {} s.host.crings k :=
  smapGet_smapModify _ _ _ _ _

theorem ering_finish_modEring (e : Nat) (g : ERing → ERing) (k : Nat) :
    smapGet {} ((s.modEring e g).finish uid st r).host.erings k = if k = e then g (smapGet {} s.host.erings e) else smapGet {} s.host.erings k :=
  smapGet_smapModify _ _ _ _ _

end

/-- Settles O9: each command changes one entry of one map of the host link. -/
theorem ringSetupCommands : Obligations.RingSetupCommands := by
  unfold Obligations.RingSetupCommands
  refine ⟨fun s h p hu hs => ?queue, fun s h p hu hs => ?cring, fun s h p hu hs => ?ering, fun s h q view hu hs => ?bind⟩
  case queue =>
    let t := startQueueSetup (hand s h (.queueSetup p)) s.host.nextUid p
    have heff : exec (.queueSetup h p) s = .next t := exec_hand rfl hs rfl hu rfl
    refine ⟨t, { s.host with queues := t.host.queues }, heff, completed_finish s _ _ h _ stDone 0 0 0 0 [] rfl rfl hu rfl rfl, rfl, rfl, ?_,
      fun q hq => (cmdQueue_finish_modQueue _ _ _ _ p.q _ q).trans (if_neg hq)⟩
    exact (cmdQueue_finish_modQueue _ _ _ _ p.q _ p.q).trans (if_pos rfl)
  case cring =>
    let t := startCring (hand s h (.cringSetup p)) s.host.nextUid p
    have heff : exec (.cringSetup h p) s = .next t := exec_hand rfl hs rfl hu rfl
    refine ⟨t, { s.host with crings := t.host.crings }, heff, completed_finish s _ _ h _ stDone 0 0 0 0 [] rfl rfl hu rfl rfl, rfl, rfl, ?_,
      fun c hc => (cring_finish_modCring _ _ _ _ p.ring _ c).trans (if_neg hc)⟩
    refine (cring_finish_modCring _ _ _ _ p.ring _ p.ring).trans ((if_pos rfl).trans ?_)
    by_cases hlog : p.log = 0 <;> simp [hlog, handLink]
  case ering =>
    let t := startEring (hand s h (.eringSetup p)) s.host.nextUid p
    have heff : exec (.eringSetup h p) s = .next t := exec_hand rfl hs rfl hu rfl
    refine ⟨t, { s.host with erings := t.host.erings }, heff, completed_finish s _ _ h _ stDone 0 0 0 0 [] rfl rfl hu rfl rfl, rfl, rfl, ?_,
      fun c hc => (ering_finish_modEring _ _ _ _ p.ring _ c).trans (if_neg hc)⟩
    have hring : smapGet ({} : ERing) t.host.erings p.ring = _ := (ering_finish_modEring _ _ _ _ p.ring _ p.ring).trans (if_pos rfl)
    rw [hring]
    by_cases hlog : p.log = 0 <;> simp [hlog]
  case bind =>
    let t := startBind (hand s h (.queueBind q view)) s.host.nextUid q view
    have heff : exec (.queueBind h q view) s = .next t := exec_hand rfl hs rfl hu rfl
    refine ⟨t, { s.host with queues := t.host.queues }, heff, completed_finish s _ _ h _ stDone 0 0 0 0 [] rfl rfl hu rfl rfl, rfl, rfl, ?_,
      fun x hx => (cmdQueue_finish_modQueue _ _ _ _ q _ x).trans (if_neg hx)⟩
    exact (cmdQueue_finish_modQueue _ _ _ _ q _ q).trans (if_pos rfl)

/-! ### Changing several fields -/

section
variable (s : State) (g : Nat → Field → Field)

theorem forAll_modFld_only (fs : List Nat) :
    s.forAll fs (fun s f => s.modFld f (g f)) = { s with fields := (s.forAll fs (fun s f => s.modFld f (g f))).fields } :=
  forAll_keeps (fun t => t = { s with fields := t.fields }) fs _ (fun t f _ ht => by rw [State.modFld, ht]) s rfl

/-- Changing each field of a list once. -/
theorem fld_forAll_modFld {fs : List Nat} (hfs : fs.Nodup) (k : Nat) :
    (s.forAll fs (fun s f => s.modFld f (g f))).fld k = if k ∈ fs then g k (s.fld k) else s.fld k := by
  unfold State.forAll
  induction fs generalizing s with
  | nil => simp
  | cons f fs ih =>
    obtain ⟨hf, hnodup⟩ := List.nodup_cons.mp hfs
    rw [List.foldl_cons, ih _ hnodup, modFld_fld]
    by_cases hk : k = f
    · subst hk; simp [hf]
    · simp [hk]

end

theorem nodup_partFields (s : State) (part : Nat) : (s.partFields part).Nodup := by
  unfold State.partFields
  split
  · exact List.nodup_range
  · exact List.nodup_range.filter _

theorem mem_onesBelow_iff {k n i : Nat} : i ∈ onesBelow k n ↔ i < k ∧ n.testBit i = true := by simp [onesBelow]

end Sys2Proof.Proofs
end

section
/-! PROOFS. Partitions, memory settings and activation entries. -/

namespace Sys2Proof.Proofs

open Sys2Proof.Machine Sys2Proof.Laws

/-! ### Partitions (R436, R447, R507) -/

section
variable {s : State} {p : PartP}

theorem trainLport_lport (q k : Nat) :
    { (s.trainLport q).lport k with state := (s.lport k).state, linked := (s.lport k).linked } = s.lport k := by
  by_cases hk : k = q
  · subst hk; simp [State.trainLport]
  · simp [State.trainLport, hk]

theorem wakeLport_lport (q k : Nat) :
    { (s.wakeLport q).lport k with state := (s.lport k).state, linked := (s.lport k).linked } = s.lport k := by
  unfold State.wakeLport
  split
  · exact trainLport_lport q k
  · rfl

/-- Waking ports changes their states and links alone. -/
theorem forAll_wakeLport_lport (qs : List Nat) (k : Nat) :
    { (s.forAll qs (fun s q => s.wakeLport q)).lport k with state := (s.lport k).state, linked := (s.lport k).linked } = s.lport k := by
  refine forAll_keeps (fun t => { t.lport k with state := (s.lport k).state, linked := (s.lport k).linked } = s.lport k) qs _
    (fun t q _ ht => ?_) s rfl
  rw [← ht, ← wakeLport_lport (s := t) q k]

theorem wakeLport_part (q k : Nat) : (s.wakeLport q).part k = s.part k := by rw [wakeLport_only]; rfl

/-- The slot that PART_CREATE fills. -/
def createdPart (p : PartP) : Partition :=
  { fx0 := p.fx0, fy0 := p.fy0, w := p.w, h := p.h, state := 1, profile := p.profile, train := p.train == 1, fports := p.fports, lports := p.lports }

theorem part_free_of_checks (hc : ∀ c ∈ checksPartCreate s p, c.ok = true) : (s.part p.pid).state = 0 := by
  have := hc (ckState ((s.part p.pid).state == 0) stAlready (fieldOff 0x0100 0)) (by unfold checksPartCreate; simp)
  simpa [ckState] using this

theorem takenFields_of_checks (hc : ∀ c ∈ checksPartCreate s p, c.ok = true) : s.takenFields p = [] := by
  have := hc { order := 11, ok := (s.takenFields p).isEmpty, status := stTarget, off := fieldOff 0x0100 1, didx := (s.takenFields p).headD 0 }
    (by unfold checksPartCreate; simp)
  simpa using this

/-- A field of the rectangle belongs to no partition: no other one holds it, and slot PID is free. -/
theorem partOf_of_rectangle (hc : ∀ c ∈ checksPartCreate s p, c.ok = true) {f : Nat} (hf : f < 64) (hin : (createdPart p).holds f = true) :
    s.partOf f = none := by
  have htaken := takenFields_of_checks hc
  unfold State.takenFields at htaken
  simp only [List.filter_eq_nil_iff] at htaken
  have hnot := htaken f (List.mem_filter.mpr ⟨List.mem_range.mpr hf, hin⟩)
  simp only [Bool.or_eq_true, not_or] at hnot
  rcases hq : s.partOf f with _ | q
  · rfl
  · have hsame : q = p.pid := by simpa [hq] using hnot.1
    have hholds := List.find?_some (show (List.range 16).find? (fun k => (s.part k).holds f) = some q from hq)
    rw [hsame] at hholds
    unfold Partition.holds at hholds
    simp [part_free_of_checks hc] at hholds

end

/-- Settles O10, by the slot that each command writes. -/
theorem partitionCreateAndProfile : Obligations.PartitionCreateAndProfile := by
  unfold Obligations.PartitionCreateAndProfile
  refine ⟨fun s h p hu hs => ?create, fun s h pid prof hu hs => ?profile⟩
  case create =>
    have hc : ∀ c ∈ checksPartCreate s p, c.ok = true := starts_bodyChecks hs
    let made := (hand s h (.partCreate p)).modPart p.pid (fun _ => createdPart p)
    let woken := made.forAll (onesBelow 4 p.lports) (fun s q => s.wakeLport q)
    have hwoken : woken = { made with lnt := woken.lnt, outbox := woken.outbox } := forAll_wakeLport_only made _
    have hhost : woken.host = handLink s h (.partCreate p) := congrArg State.host hwoken
    have hpart : ∀ q, woken.part q = if q = p.pid then createdPart p else s.part q := fun q => by
      have hsame : woken.part q = made.part q := forAll_same (fun t => t.part q) _ _ (fun s x => wakeLport_part x q) made
      rw [hsame, modPart_part, hand_part]
    have heff : exec (.partCreate h p) s = .next (woken.finish s.host.nextUid stDone []) := exec_hand rfl hs rfl hu rfl
    refine ⟨_, heff, completed_hand (r := []) hu hhost, part_free_of_checks hc, (hpart p.pid).trans (if_pos rfl),
      fun q hq => (hpart q).trans (if_neg hq), fun f hf hx hx' hy hy' => ?_, ?_, fun q => ?_⟩
    · have hin : (createdPart p).holds f = true := by
        unfold Partition.holds createdPart
        simp only [Bool.and_eq_true, bne_iff_ne, decide_eq_true_eq]
        exact ⟨⟨⟨⟨by decide, hx⟩, hx'⟩, hy⟩, hy'⟩
      exact ⟨partOf_of_rectangle hc hf hin, by rw [finish_part, hpart, if_pos rfl]; exact hin⟩
    · generalize woken = w at *
      rw [hwoken]
      rfl
    · exact forAll_wakeLport_lport (s := made) (onesBelow 4 p.lports) q
  case profile =>
    have heff : exec (.profile h pid prof) s = .next (startProfile (hand s h (.profile pid prof)) s.host.nextUid pid prof) :=
      exec_hand rfl hs rfl hu rfl
    refine ⟨_, heff, ?_⟩
    unfold startProfile
    simp only [hand_part]
    by_cases hshut : (s.part pid).state = 3
    · simp only [hshut, if_true]
      exact ⟨completed_hand hu rfl, rfl, fun _ _ => rfl, rfl⟩
    · by_cases htrain : (s.part pid).train = true
      · simp only [hshut, htrain, if_true, if_false]
        exact ⟨completed_hand hu rfl, rfl, fun q hq => by simp [hq], by simp [htrain]⟩
      · simp only [hshut, htrain, if_false]
        exact ⟨completed_hand hu rfl, rfl, fun q hq => by simp [hq], by simp [htrain]⟩

/-! ### Memory settings (R229, R230, R508) -/

section
variable {s : State}

theorem rates_map_sum (rs : List ClassRate) : ∀ a : Nat, (rs.map (fun r => r.rate)).foldl (· + ·) a = rs.foldl (fun a r => a + r.rate) a := by
  induction rs with
  | nil => exact fun _ => rfl
  | cons r rs ih => exact fun a => ih (a + r.rate)

theorem map_rate_set (rs : List ClassRate) (k : Nat) (x y : ClassRate) (hxy : x.rate = y.rate) :
    (rs.set k x).map (fun r => r.rate) = (rs.set k y).map (fun r => r.rate) := by
  rw [List.map_set, List.map_set, hxy]

/-- The shares that REGULATOR leaves are those its check has judged (R229). -/
theorem setRate_sum_le (x : Stack) (k rate burst borrow : Nat) (h : x.rateFits k rate = true) :
    ((x.setRate k rate burst borrow).rates.map (fun r => r.rate)).foldl (· + ·) 0 ≤ 1000 := by
  have hset : (x.setRate k rate burst borrow).rates.map (fun r => r.rate) = (x.rates.set k { rate := rate }).map (fun r => r.rate) :=
    map_rate_set _ _ _ _ rfl
  rw [hset, rates_map_sum]
  exact of_decide_eq_true h

theorem rateFits_of_checks {part : Nat} {p : RegulatorP} (hc : ∀ c ∈ checksRegulator s part p, c.ok = true) {f : Nat}
    (hf : f ∈ s.partFields part) : (s.fld f).stack.rateFits p.cls p.rate = true := by
  have := hc (ckValue (p.rate ≤ 1000 && (s.partFields part).all (fun f => (s.fld f).stack.rateFits p.cls p.rate)) (fieldOff 0x0201 1))
    (by unfold checksRegulator; simp)
  simp only [ckValue, Bool.and_eq_true, List.all_eq_true] at this
  exact this.2 f hf

end

/-- Settles O11, by the registers of each named field. -/
theorem memorySettings : Obligations.MemorySettings := by
  unfold Obligations.MemorySettings
  refine ⟨fun s h p hu hs => ?regulator, fun s h p hu hs => ?system, fun s h fmask chmask hu hs => ?errors⟩
  case regulator =>
    have hc : ∀ c ∈ checksRegulator s h.part p, c.ok = true := starts_bodyChecks hs
    let g : Nat → Field → Field := fun _ d => { d with stack := d.stack.setRate p.cls p.rate p.burst p.borrow }
    let t := (hand s h (.regulator p)).forAll (s.partFields h.part) (fun s f => s.modFld f (g f))
    have ht : t = { hand s h (.regulator p) with fields := t.fields } := forAll_modFld_only _ g _
    have hfld : ∀ f, t.fld f = if f ∈ s.partFields h.part then g f (s.fld f) else s.fld f := fld_forAll_modFld _ g (nodup_partFields s h.part)
    have heff : exec (.regulator h p) s = .next (t.finish s.host.nextUid stDone []) := exec_hand rfl hs rfl hu rfl
    generalize t = u at *
    refine ⟨_, heff, completed_hand (r := []) hu (congrArg State.host ht), by rw [ht]; rfl, hfld, fun f hf => ?_⟩
    rw [finish_fld, hfld, if_pos hf]
    exact setRate_sum_le _ _ _ _ _ (rateFits_of_checks hc hf)
  case system =>
    let g : Nat → Field → Field := fun _ d => { d with stack := { d.stack.setRate 4 p.srate p.sburst p.sborrow with opceil := p.opceil } }
    let t := (hand s h (.regulatorSys p)).forAll (onesBelow 64 p.fmask) (fun s f => s.modFld f (g f))
    have ht : t = { hand s h (.regulatorSys p) with fields := t.fields } := forAll_modFld_only _ g _
    have hfld : ∀ f, t.fld f = if f ∈ onesBelow 64 p.fmask then g f (s.fld f) else s.fld f := fld_forAll_modFld _ g (nodup_onesBelow _ _)
    have heff : exec (.regulatorSys h p) s = .next (t.finish s.host.nextUid stDone []) := exec_hand rfl hs rfl hu rfl
    generalize t = u at *
    refine ⟨_, heff, completed_hand (r := []) hu (congrArg State.host ht), by rw [ht]; rfl, fun f => ?_⟩
    rw [finish_fld, hfld]
    simp only [mem_onesBelow_iff]
    rfl
  case errors =>
    let g : Nat → Field → Field := fun _ d => { d with stack := { d.stack with
      chans := smapModifyAll {} d.stack.chans (onesBelow 32 chmask) (fun _ c => { c with ce := 0, ue := 0 }) } }
    let t := (hand s h (.errClear fmask chmask)).forAll (onesBelow 64 fmask) (fun s f => s.modFld f (g f))
    have ht : t = { hand s h (.errClear fmask chmask) with fields := t.fields } := forAll_modFld_only _ g _
    have hfld : ∀ f, t.fld f = if f ∈ onesBelow 64 fmask then g f (s.fld f) else s.fld f := fld_forAll_modFld _ g (nodup_onesBelow _ _)
    have heff : exec (.errClear h fmask chmask) s = .next (t.finish s.host.nextUid stDone []) := exec_hand rfl hs rfl hu rfl
    generalize t = u at *
    refine ⟨_, heff, completed_hand (r := []) hu (congrArg State.host ht), by rw [ht]; rfl, fun f => ?_, fun f c => ?_⟩
    · rw [finish_fld, hfld]
      split <;> rfl
    · rw [finish_fld, hfld]
      simp only [mem_onesBelow_iff]
      by_cases hf : f < 64 ∧ fmask.testBit f = true
      · rw [if_pos hf]
        refine (smapGet_smapModifyAll ({} : Channel) _ (nodup_onesBelow _ _) _ c).trans ?_
        simp only [mem_onesBelow_iff, ← and_assoc, hf.1, hf.2, true_and]
      · rw [if_neg hf, if_neg (fun hall => hf ⟨hall.1, hall.2.1⟩)]

/-! ### Activation entries (R281, R507) -/

/-- Changing the entries of one key. -/
theorem smapFind_map_key {α : Type} (m : SMap α) (key : Nat) (g : α → α) (k : Nat) :
    smapFind (m.map (fun e => if e.1 == key then (e.1, g e.2) else e)) k = if k = key then (smapFind m k).map g else smapFind m k := by
  induction m with
  | nil => simp [smapFind]
  | cons e m ih =>
    obtain ⟨j, v⟩ := e
    by_cases hj : j = key <;> by_cases hk : j = k <;> simp_all [smapFind]

theorem foldl_add_eq_sum {α : Type} (f : α → Nat) (xs : List α) : ∀ a, xs.foldl (fun a x => a + f x) a = a + (xs.map f).sum := by
  induction xs with
  | nil => simp
  | cons x xs ih => intro a; rw [List.foldl_cons, ih, List.map_cons, List.sum_cons, Nat.add_assoc]

theorem sum_map_ite_eq_sum_filter {α : Type} (c : α → Bool) (f : α → Nat) (xs : List α) :
    (xs.map (fun x => if c x then f x else 0)).sum = ((xs.filter c).map f).sum := by
  induction xs with
  | nil => rfl
  | cons x xs ih => by_cases hx : c x = true <;> simp [hx, ih]

theorem le_foldl_max {α : Type} (f : α → Nat) (xs : List α) : ∀ a : Nat,
    a ≤ xs.foldl (fun a x => max a (f x)) a ∧ ∀ x ∈ xs, f x ≤ xs.foldl (fun a x => max a (f x)) a := by
  induction xs with
  | nil => simp
  | cons y ys ih =>
    intro a
    obtain ⟨hacc, hall⟩ := ih (max a (f y))
    rw [List.foldl_cons]
    refine ⟨by omega, fun x hx => ?_⟩
    rcases List.mem_cons.mp hx with rfl | hx
    · omega
    · exact hall x hx

theorem foldl_max_reached {α : Type} (f : α → Nat) (xs : List α) : ∀ a : Nat,
    xs.foldl (fun a x => max a (f x)) a = a ∨ ∃ x ∈ xs, f x = xs.foldl (fun a x => max a (f x)) a := by
  induction xs with
  | nil => simp
  | cons y ys ih =>
    intro a
    rw [List.foldl_cons]
    rcases ih (max a (f y)) with hacc | ⟨x, hx, heq⟩
    · rcases Nat.le_total (f y) a with hle | hle
      · exact .inl (hacc.trans (Nat.max_eq_left hle))
      · exact .inr ⟨y, List.mem_cons_self .., (hacc.trans (Nat.max_eq_right hle)).symm⟩
    · exact .inr ⟨x, List.mem_cons_of_mem _ hx, heq⟩

section
variable (s : State) (part : Nat)

/-- The bytes of a partition's KEEP entries that cover a field (R281). -/
def keepFoot (f : Nat) : Nat := (((s.actsOf part).filter (fun e => e.p.policy == 0 && e.p.fmask.testBit f)).map (fun e => e.p.bytes)).sum

/-- The largest of them. -/
def topFoot : Nat := (List.range 64).foldl (fun a f => max a (keepFoot s part f)) 0

theorem startFootprint_eq (uid : Nat) :
    startFootprint s uid part = s.finish uid stDone [topFoot s part % 2 ^ 32, topFoot s part / 2 ^ 32 % 2 ^ 32, (s.actsOf part).length,
      ((s.actsOf part).filter (fun e => e.p.policy == 1)).length] := by
  have hfoot : ∀ f, (s.actsOf part).foldl (fun a e => a + (if e.p.policy == 0 && e.p.fmask.testBit f then e.p.bytes else 0)) 0 = keepFoot s part f := by
    intro f
    rw [foldl_add_eq_sum, Nat.zero_add, sum_map_ite_eq_sum_filter (fun e : ActEntry => e.p.policy == 0 && e.p.fmask.testBit f)]
    rfl
  unfold startFootprint topFoot
  simp only [hfoot]

end

/-- Settles O12, by the map of entries that each command leaves and by the largest footprint of a field. -/
theorem activationEntryCommands : Obligations.ActivationEntryCommands := by
  unfold Obligations.ActivationEntryCommands
  refine ⟨fun s h p hu hs => ?register, fun s h aid hu hs => ?remove, fun s h hu hs => ?count⟩
  case register =>
    have hfree : smapFind s.acts (actKey h.part p.aid) = none := by
      have := starts_bodyChecks hs (ckState ((smapFind s.acts (actKey h.part p.aid)).isNone) stAlready (fieldOff 0x0204 0))
        (by show _ ∈ checksActReg s h.part p; unfold checksActReg; simp)
      simpa [ckState] using this
    have heff : exec (.actReg h p) s = .next (startActReg (hand s h (.actReg p)) s.host.nextUid h.part p) := exec_hand rfl hs rfl hu rfl
    refine ⟨_, heff, ?_⟩
    unfold startActReg
    by_cases hbytes : p.bytes = 0
    · simp only [hbytes, if_true]
      exact ⟨completed_hand hu rfl, rfl, hfree, fun k => by simp⟩
    · simp only [hbytes, if_false]
      exact ⟨completed_hand hu rfl, rfl, hfree, fun k => by simp [smapFind_smapSet, hbytes]⟩
  case remove =>
    have heff : exec (.actRemove h aid) s = .next (startActRemove (hand s h (.actRemove aid)) s.host.nextUid h.part aid) :=
      exec_hand rfl hs rfl hu rfl
    exact ⟨_, heff, completed_hand (r := []) hu rfl, rfl, fun k => smapFind_map_key s.acts _ (fun e => { e with removing := true }) k⟩
  case count =>
    have heff : exec (.footprint h) s = .next (startFootprint (hand s h .footprint) s.host.nextUid h.part) := exec_hand rfl hs rfl hu rfl
    rw [startFootprint_eq] at heff
    have htop : topFoot (hand s h .footprint) h.part = topFoot s h.part := rfl
    have hacts : (hand s h .footprint).actsOf h.part = s.actsOf h.part := rfl
    rw [htop, hacts] at heff
    refine ⟨_, topFoot s h.part, heff, completed_hand hu rfl, rfl, fun f hf => ?_, ?_⟩
    · exact (le_foldl_max (keepFoot s h.part) (List.range 64) 0).2 f (List.mem_range.mpr hf)
    · rcases foldl_max_reached (keepFoot s h.part) (List.range 64) 0 with hzero | ⟨f, hf, heq⟩
      · exact .inl hzero
      · exact .inr ⟨f, List.mem_range.mp hf, heq⟩

end Sys2Proof.Proofs
end

section
/-! PROOFS. Heir windows and bulk moves. -/

namespace Sys2Proof.Proofs

open Sys2Proof.Machine Sys2Proof.Laws

/-! ### Bytes moved inside the module (R507) -/

/-- Bytes of no lost channel are read as memory holds them. -/
theorem peek_of_present {s : State} {a : Nat} (h : s.lostAt a = false) : s.peek a = memRead s.mem a := by
  unfold State.peek
  rw [h]
  rfl

theorem length_peekBytes (s : State) (a n : Nat) : (s.peekBytes a n).length = n := by simp [State.peekBytes]

theorem getD_peekBytes (s : State) (a : Nat) {n i : Nat} (hi : i < n) : (s.peekBytes a n).getD i 0 = s.peek (a + i) := by
  simp [State.peekBytes, List.getD_eq_getElem?_getD, hi]

/-- Bytes read in one place of memory and written in another, none of them in a lost channel. -/
theorem memRead_pokeBytes_peekBytes {s t : State} (hm : Memory.wf t.mem = true) (hfld : ∀ f, t.fld f = s.fld f) {src dst n : Nat}
    (hsrc : ∀ i, i < n → s.lostAt (src + i) = false) (hdst : ∀ i, i < n → s.lostAt (dst + i) = false) (a : Nat) :
    memRead (t.pokeBytes dst (s.peekBytes src n)).mem a =
      if dst ≤ a ∧ a < dst + n then memRead s.mem (src + (a - dst)) else memRead t.mem a := by
  have hlost : ∀ x, t.lostAt x = s.lostAt x := fun x => by unfold State.lostAt; rw [hfld]
  by_cases ha : dst ≤ a ∧ a < dst + n
  · obtain ⟨i, rfl⟩ := Nat.exists_eq_add_of_le ha.1
    have hi : i < n := by omega
    rw [if_pos ha, memRead_pokeBytes _ _ _ _ hm (by rw [length_peekBytes]; exact hi) (by rw [hlost]; exact hdst i hi),
      getD_peekBytes _ _ hi, peek_of_present (hsrc i hi), Nat.add_sub_cancel_left]
  · rw [if_neg ha, memRead_pokeBytes_outside _ _ _ _ (by rw [length_peekBytes]; omega)]

section
variable {s : State} {h : Hdr} {p : BulkP}

/-- A bulk move announces nothing. -/
theorem exec_bulkMove (hu : UidInv s) (hs : starts s h (.bulkMove p) = true) :
    exec (.bulkMove h p) s = .next (startBulk (hand s h (.bulkMove p)) s.host.nextUid h.part p) :=
  congrArg Host.Outcome.next (submit_hand_quiet hs (fun _ => rfl) hu {})

theorem startBulk_of_empty (uid part : Nat) (hp : p.bytes = 0) : startBulk s uid part p = s.finish uid stDone [] := if_pos hp

theorem startBulk_of_no_context (uid part : Nat) (hp : 0 < p.bytes) (hctx : s.contextsFree < s.bulkContexts p) :
    startBulk s uid part p = s.finish uid stContext [] := (if_neg (Nat.ne_of_gt hp)).trans (if_pos hctx)

/-- An end in this module is no remote one. -/
theorem remoteEnd_of_own {kind a : Nat} (hown : s.ownAddr a = true) : s.remoteEnd kind a = false := by
  unfold State.remoteEnd
  simp [hown]

/-- A move with no end in another module needs no context. -/
theorem startBulk_of_local (uid part : Nat) (hp : 0 < p.bytes) (hsrc : s.remoteEnd p.sk p.src = false) (hdst : s.remoteEnd p.dk p.dst = false) :
    startBulk s uid part p =
      let s1 := s.modCmd uid (fun c => { c with left := if p.dk = 1 && p.sk = 1 then 2 else 1 })
      if p.sk = 1 then s1.tell (s.moveClass part p.dk p.dst) (.hostRead p.src p.bytes)
      else if s.ownAddr p.src then s1.bulkWrite uid part p (s.peekBytes (islandAddr p.src) p.bytes)
      else s1.askBulk uid part p := by
  have hctx : ¬ s.contextsFree < s.bulkContexts p := by
    unfold State.bulkContexts
    rw [hsrc, hdst]
    exact Nat.not_lt_zero _
  unfold startBulk State.openBulk
  rw [if_neg (Nat.ne_of_gt hp), if_neg hctx, hsrc, hdst]
  simp only [Bool.and_false, Bool.or_false, Bool.false_eq_true, if_false]

/-- The end of a transfer that was the last of its command. -/
theorem transferDone_link {s X : State} (hu : UidInv s) {c : OutCmd} (hX : X.host = linkWith s c) (hc : c.uid = s.host.nextUid)
    (hleft : c.left = 1) (hwrites : c.writes = []) (hop : opcodeOf c.body ≠ 0x0103 ∧ opcodeOf c.body ≠ 0x0101) :
    (X.transferDone s.host.nextUid) =
      { X with host := linkWith s ({ c with left := 0 }.finish stDone [c.r0, c.r1, c.r2, c.r3]) } := by
  have hland : X.landWrites c = X := by unfold State.landWrites; rw [hwrites]; rfl
  unfold State.transferDone
  rw [cmd_link hu hX hc]
  dsimp only
  rw [hland, ite_self]
  show ({ X with host := (X.modCmd s.host.nextUid _).host } : State) = _
  rw [modCmd_link hu hX hc]
  simp [hleft, hop]

end

/-- Settles O13: the windows by their map, the moves by where their ends lie. -/
theorem heirWindowsAndLocalMoves : Obligations.HeirWindowsAndLocalMoves := by
  unfold Obligations.HeirWindowsAndLocalMoves
  refine ⟨fun s h p hu hs => ?opens, fun s h p hu hs => ?closes, fun s h p hu hs =>
    ⟨fun hp => ?empty, fun hm hp hsk hdk hsrc hdst _ hlost => ?inside, fun hp hsk hdk hdst _ => ?fromHost, fun hp hsk hdk hsrc _ => ?toHost,
      fun hp hctx => ?noContext⟩⟩
  case opens =>
    have hfree : smapFind s.heirs p.w = none := by
      have := starts_bodyChecks hs (ckState (!(smapFind s.heirs p.w).isSome) stAlready (fieldOff 0x0104 0))
        (by show _ ∈ checksHeir s 1 p; unfold checksHeir; simp)
      simpa [ckState] using this
    have heff : exec (.heirWindowOpen h p) s = .next (startHeirOpen (hand s h (.heirWindow 1 p)) s.host.nextUid p) := exec_hand rfl hs rfl hu rfl
    refine ⟨_, heff, ?_⟩
    unfold startHeirOpen
    by_cases hbytes : p.bytes = 0
    · simp only [hbytes, if_true]
      exact ⟨completed_hand hu rfl, rfl, hfree, fun w => by simp [hand]⟩
    · simp only [hbytes, if_false]
      exact ⟨completed_hand hu rfl, rfl, hfree, fun w => by simp [smapFind_smapSet, hbytes, hand]⟩
  case closes =>
    have heff : exec (.heirWindowClose h p) s = .next (startHeirClose (hand s h (.heirWindow 0 p)) s.host.nextUid p) := exec_hand rfl hs rfl hu rfl
    exact ⟨_, heff, completed_hand (r := []) hu rfl, rfl, fun w => smapFind_smapErase _ _ _⟩
  case empty =>
    exact ⟨_, (exec_bulkMove hu hs).trans (congrArg _ (startBulk_of_empty _ _ hp)), completed_at_once hu rfl⟩
  case noContext =>
    exact ⟨_, (exec_bulkMove hu hs).trans (congrArg _ (startBulk_of_no_context _ _ hp hctx)), completed_at_once hu rfl⟩
  case inside =>
    let c : OutCmd := { runningEntry s h (.bulkMove p) with left := 1 }
    let s1 := (hand s h (.bulkMove p)).modCmd s.host.nextUid (fun c => { c with left := 1 })
    have hs1 : s1.host = linkWith s c := modCmd_link hu rfl rfl _
    let moved := s1.pokeBytes (islandAddr p.dst) (s1.peekBytes (islandAddr p.src) p.bytes)
    have hmoved : moved = { s1 with mem := moved.mem } := pokeBytes_only _ _ _
    have hlink : moved.host = linkWith s c := (congrArg State.host hmoved).trans hs1
    have hread : ∀ a, memRead moved.mem a = _ := memRead_pokeBytes_peekBytes (s := s1) (t := s1) hm.1 (fun _ => rfl) (fun i hi => (hlost i hi).1) (fun i hi => (hlost i hi).2)
    have heff : exec (.bulkMove h p) s = .next (moved.transferDone s.host.nextUid) := by
      rw [exec_bulkMove hu hs, startBulk_of_local (s := hand s h (.bulkMove p)) _ _ hp (remoteEnd_of_own hsrc) (remoteEnd_of_own hdst)]
      simp only [hsk, hdk, State.bulkWrite]
      have hsrc' : (hand s h (.bulkMove p)).ownAddr p.src = true := hsrc
      have hdst' : s1.ownAddr p.dst = true := hdst
      rw [if_neg (by decide), if_pos hsrc', if_neg (by decide)]
      exact congrArg _ (if_pos hdst')
    rw [transferDone_link hu hlink rfl rfl rfl (show 0x0200 ≠ 0x0103 ∧ 0x0200 ≠ 0x0101 by decide)] at heff
    generalize moved = m at *
    refine ⟨_, heff, completed_link (c := { c with left := 0 }) (r := [0, 0, 0, 0]) rfl rfl rfl rfl rfl rfl rfl rfl, ?_, hread⟩
    rw [hmoved]
    rfl
  case fromHost =>
    have hup := starts_linkUp hs
    let s1 := (hand s h (.bulkMove p)).modCmd s.host.nextUid (fun c => { c with left := 1 })
    have hs1 : s1.host = linkWith s { runningEntry s h (.bulkMove p) with left := 1 } := modCmd_link hu rfl rfl _
    have heff : exec (.bulkMove h p) s = .next { s1 with outbox := s1.outbox ++ [.hostRead p.src p.bytes] } := by
      rw [exec_bulkMove hu hs, startBulk_of_local (s := hand s h (.bulkMove p)) _ _ hp (by rw [hsk]; rfl) (remoteEnd_of_own hdst)]
      simp only [hsk, hdk, if_true]
      exact congrArg _ (if_pos hup)
    exact ⟨_, heff, running_link hs1 rfl rfl rfl rfl rfl, rfl⟩
  case toHost =>
    have hup := starts_linkUp hs
    let bytes := s.peekBytes (islandAddr p.src) p.bytes
    let s1 := (hand s h (.bulkMove p)).modCmd s.host.nextUid (fun c => { c with left := 1 })
    have hs1 : s1.host = linkWith s { runningEntry s h (.bulkMove p) with left := 1 } := modCmd_link hu rfl rfl _
    let s2 := s1.modCmd s.host.nextUid (fun c => { c with writes := c.writes ++ [(p.dst, bytes)] })
    have hs2 : s2.host = linkWith s { runningEntry s h (.bulkMove p) with left := 1, writes := [(p.dst, bytes)] } := modCmd_link hu hs1 rfl _
    have heff : exec (.bulkMove h p) s = .next { s2 with outbox := s2.outbox ++ [.hostWrite p.dst bytes] } := by
      rw [exec_bulkMove hu hs, startBulk_of_local (s := hand s h (.bulkMove p)) _ _ hp (remoteEnd_of_own hsrc) (by rw [hdk]; rfl)]
      simp only [hsk, hdk, State.bulkWrite]
      have hsrc' : (hand s h (.bulkMove p)).ownAddr p.src = true := hsrc
      rw [if_neg (by decide), if_pos hsrc', if_pos trivial]
      exact congrArg _ (if_pos hup)
    refine ⟨_, heff, running_link hs2 rfl rfl rfl rfl rfl, rfl, fun c hc huid => ?_⟩
    rw [mem_link hu hs2 hc huid]

end Sys2Proof.Proofs
end

section
/-! PROOFS. Power transitions. -/

namespace Sys2Proof.Proofs

open Sys2Proof.Machine Sys2Proof.Laws

/-! ### Posting completions (R424, R485) -/

/-- `t` is `s` but for completion rings, the commands in hand, the host's memory and what goes out. -/
def OnlyPosts (s t : State) : Prop :=
  t = { s with host := { s.host with crings := t.host.crings, cmds := t.host.cmds }, hostMem := t.hostMem, outbox := t.outbox }

theorem OnlyPosts.refl (s : State) : OnlyPosts s s := rfl

theorem OnlyPosts.trans {s t u : State} (h : OnlyPosts s t) (k : OnlyPosts t u) : OnlyPosts s u := by
  unfold OnlyPosts at h k ⊢
  rw [k, h]

theorem onlyPosts_markPosted (s : State) (c : OutCmd) : OnlyPosts s (s.markPosted c) := by
  unfold State.markPosted
  split
  · exact rfl
  · exact rfl

theorem onlyPosts_entry (s : State) (m : Memory) (ring : Nat) (c : OutCmd) :
    OnlyPosts s ((State.modCring { s with hostMem := m } ring CRing.posted).markPosted c) :=
  OnlyPosts.trans (t := State.modCring { s with hostMem := m } ring CRing.posted) rfl (onlyPosts_markPosted _ c)

theorem onlyPosts_emit (s : State) (m : OutMsg) : OnlyPosts s (s.emit m) := rfl

/-- Posting one completion changes its ring, the commands in hand, the host's memory and what goes out. -/
theorem onlyPosts_postOne (s : State) (q : Fin 64) : OnlyPosts s (s.postOne q) := by
  unfold State.postOne
  dsimp only
  split
  · exact OnlyPosts.refl s
  · split
    · exact OnlyPosts.refl s
    · split
      · exact (onlyPosts_entry ..).trans (onlyPosts_emit ..)
      · exact onlyPosts_entry ..

theorem onlyPosts_postReady (s : State) : OnlyPosts s s.postReady :=
  forAll_keeps (OnlyPosts s) _ _ (fun t c _ ht => ht.trans (onlyPosts_postOne t c.hdr.queue)) s (OnlyPosts.refl s)

/-- Command `u`, as far as it is still in hand, has completed DONE. -/
def DoneAt (s : State) (u : Nat) : Prop := ∀ x ∈ s.host.cmds, x.uid = u → x.phase = .done ∧ x.status = stDone

section
variable {s t : State} {u : Nat}

theorem DoneAt.of_cmds (h : DoneAt s u) (ht : t.host.cmds = s.host.cmds) : DoneAt t u := fun x hx => h x (ht ▸ hx)

theorem DoneAt.markPosted (h : ∀ x ∈ s.host.cmds, x.uid = u → x.phase = .done ∧ x.status = stDone) (c : OutCmd) : DoneAt (s.markPosted c) u := by
  unfold State.markPosted
  split
  · intro x hx hxu
    obtain ⟨y, hy, rfl⟩ := List.mem_map.mp hx
    split at hxu
    · rename_i hyc
      rw [if_pos hyc]
      exact h y hy hxu
    · rename_i hyc
      rw [if_neg hyc]
      exact h y hy hxu
  · exact fun x hx => h x (List.mem_filter.mp hx).1

theorem DoneAt.entry (h : DoneAt s u) (m : Memory) (ring : Nat) (c : OutCmd) :
    DoneAt ((State.modCring { s with hostMem := m } ring CRing.posted).markPosted c) u :=
  DoneAt.markPosted (s := State.modCring { s with hostMem := m } ring CRing.posted) h c

theorem DoneAt.emit (h : DoneAt s u) (m : OutMsg) : DoneAt (s.emit m) u := h

theorem DoneAt.postOne (h : DoneAt s u) (q : Fin 64) : DoneAt (s.postOne q) u := by
  unfold State.postOne
  dsimp only
  split
  · exact h
  · split
    · exact h
    · split
      · exact DoneAt.emit (h.entry _ _ _) _
      · exact h.entry _ _ _

theorem DoneAt.postReady (h : DoneAt s u) : DoneAt s.postReady u :=
  forAll_keeps (fun t => DoneAt t u) _ _ (fun t c _ ht => DoneAt.postOne (s := t) ht c.hdr.queue) s h

theorem DoneAt.onlyEvents (h : DoneAt s u) (ht : OnlyEvents s t) : DoneAt t u := h.of_cmds (by rw [ht.1])

end

/-! ### POWER_STATE_REACHED (R539, R542) -/

/-- The state in which the requested power state has been reached, before the command's completion. -/
def reachedState (s : State) (v : Nat) : State :=
  let s1 := if v = 3 then s.afterRetain else s
  { s1 with power := { s1.power with state := v, req := none, railoffOk := v == 3 } }

section
variable {s : State} {v u : Nat}

theorem exec_powerStateReached (h : s.power.req = some (v, u)) :
    exec .powerStateReached s = .next (((reachedState s v).finish u stDone []).postReady.event 12 1 16 0 (leBytes 1 v)) := by
  show execPowerStateReached s = _
  unfold execPowerStateReached
  rw [h]
  rfl

theorem reachedState_host : (reachedState s v).host = s.host := by
  unfold reachedState
  by_cases hv : v = 3
  · simp only [if_pos hv]; rfl
  · simp only [if_neg hv]

theorem reachedState_power : (reachedState s v).power = { s.power with state := v, req := none, railoffOk := v == 3 } := by
  unfold reachedState
  by_cases hv : v = 3
  · simp only [if_pos hv]; rfl
  · simp only [if_neg hv]

/-- What the completion and the event leave of the state. -/
def OnlyReilo (s t : State) : Prop := t = { s with host := t.host, hostMem := t.hostMem, outbox := t.outbox }

theorem OnlyReilo.eq {s t : State} (h : OnlyReilo s t) : t = { s with host := t.host, hostMem := t.hostMem, outbox := t.outbox } := h

section
variable {s t : State} (h : OnlyReilo s t)
include h

theorem OnlyReilo.tiles_eq : t.tiles = s.tiles := by rw [h.eq]
theorem OnlyReilo.mem_eq : t.mem = s.mem := by rw [h.eq]
theorem OnlyReilo.fuses_eq : t.fuses = s.fuses := by rw [h.eq]
theorem OnlyReilo.mods_eq : t.mods = s.mods := by rw [h.eq]
theorem OnlyReilo.place_eq : t.place = s.place := by rw [h.eq]

end

theorem OnlyReilo.trans {s t u : State} (h : OnlyReilo s t) (k : OnlyReilo t u) : OnlyReilo s u := by
  unfold OnlyReilo at h k ⊢
  rw [k, h]

theorem OnlyPosts.onlyReilo {s t : State} (h : OnlyPosts s t) : OnlyReilo s t := by
  unfold OnlyPosts at h
  unfold OnlyReilo
  rw [h]

theorem onlyReilo_of_events {s t : State} (h : OnlyEvents s t) : OnlyReilo s t := by
  unfold OnlyReilo
  rw [h.1]

/-- The completion and the event of a transition. -/
theorem onlyReilo_reached (s : State) (v u : Nat) :
    OnlyReilo (reachedState s v) (((reachedState s v).finish u stDone []).postReady.event 12 1 16 0 (leBytes 1 v)) :=
  (OnlyReilo.trans (t := (reachedState s v).finish u stDone []) rfl (onlyPosts_postReady _).onlyReilo).trans (onlyReilo_of_events (onlyEvents_event ..))

/-- A running command completes DONE, and no other one carries its number. -/
theorem doneAt_finish {X : State} (hrun : ∀ x ∈ X.host.cmds, x.uid = u → x.phase = .running ∧ x.replayed = false ∧ x.drained = false) :
    DoneAt (X.finish u stDone []) u := by
  intro x hx hxu
  obtain ⟨y, hy, rfl⟩ := List.mem_map.mp hx
  by_cases hyu : y.uid = u
  · obtain ⟨hphase, hreplayed, hdrained⟩ := hrun y hy hyu
    unfold OutCmd.finish
    simp [hyu, hphase, hreplayed, hdrained]
  · simp [hyu] at hxu

/-- A transition that has been requested by a running command ends, and the command with it. -/
theorem exec_powerStateReached_requested (hreq : s.power.req = some (v, u))
    (hrun : ∀ x ∈ s.host.cmds, x.uid = u → x.phase = .running ∧ x.replayed = false ∧ x.drained = false) :
    ∃ t, exec .powerStateReached s = .next t ∧ OnlyReilo (reachedState s v) t ∧ DoneAt t u :=
  ⟨_, exec_powerStateReached hreq, onlyReilo_reached s v u,
    ((doneAt_finish (by rw [reachedState_host]; exact hrun)).postReady).onlyEvents (onlyEvents_event ..)⟩

theorem OnlyReilo.power_eq {t : State} (h : OnlyReilo (reachedState s v) t) : t.power = { s.power with state := v, req := none, railoffOk := v == 3 } :=
  (congrArg State.power h.eq).trans reachedState_power

/-- PARK and RUN leave everything but the power state. -/
theorem reachedState_of_ne (hv : v ≠ 3) : reachedState s v = { s with power := { s.power with state := v, req := none, railoffOk := v == 3 } } := by
  unfold reachedState
  simp only [if_neg hv]

theorem reachedState_retain : reachedState s 3 =
    { s.afterRetain with power := { s.power with state := 3, req := none, railoffOk := true } } := rfl

theorem memRead_afterRetain (a : Nat) : memRead s.afterRetain.mem a = if a < 2 ^ 43 then memRead s.mem a else blankByte := by
  have := memRead_filter s.mem (fun k => decide (k < 2 ^ 43)) a
  simpa [State.afterRetain] using this

end

/-! ### POWER (R539) -/

/-- The state that a POWER command leaves: it waits for power state `v`. -/
def requested (s : State) (h : Hdr) (st v : Nat) : State := { hand s h (.power st) with power := { s.power with req := some (v, s.host.nextUid) } }

section
variable {s : State} {h : Hdr} {st v : Nat}

theorem running_requested : Running s.host (requested s h st v) h (.power st) := running_hand rfl

theorem requested_runs (hu : UidInv s) :
    ∀ x ∈ (requested s h st v).host.cmds, x.uid = s.host.nextUid → x.phase = .running ∧ x.replayed = false ∧ x.drained = false := by
  intro x hx hxu
  rw [mem_link (X := requested s h st v) (c := runningEntry s h (.power st)) hu rfl hx hxu]
  exact ⟨rfl, rfl, rfl⟩

end

/-- Settles O8: the request by the command in hand, the transition by what RETAIN leaves and by the completion. -/
theorem powerTransitions : Obligations.PowerTransitions := by
  unfold Obligations.PowerTransitions
  refine ⟨fun s h hu hs => ?run, fun s h hu hs => ?park, fun s h hu hs => ?retain, fun s h st hst => ?illegal,
    fun s v u cs ds c hreq hcmds hc hrun hrep hdr hothers => ?reached, fun s hreq => ?idle⟩
  case run =>
    have heff : exec (.powerRun h) s = .next (requested s h 0 1) := exec_hand rfl hs rfl hu rfl
    obtain ⟨t, hnext, honly, hdone⟩ := exec_powerStateReached_requested (s := requested s h 0 1) rfl (requested_runs hu)
    have hpower := honly.power_eq
    rw [reachedState_of_ne (by decide)] at honly
    exact ⟨⟨_, heff, running_requested, rfl⟩, _, t, heff, hnext, congrArg Power.state hpower, congrArg Power.req hpower,
      congrArg Power.railoffOk hpower, honly.tiles_eq, honly.mem_eq, hdone⟩
  case park =>
    have heff : exec (.powerPark h) s = .next (requested s h 1 2) := exec_hand rfl hs rfl hu rfl
    obtain ⟨t, hnext, honly, hdone⟩ := exec_powerStateReached_requested (s := requested s h 1 2) rfl (requested_runs hu)
    have hpower := honly.power_eq
    rw [reachedState_of_ne (by decide)] at honly
    exact ⟨⟨_, heff, running_requested, rfl⟩, _, t, heff, hnext, congrArg Power.state hpower, congrArg Power.req hpower,
      congrArg Power.railoffOk hpower, honly.tiles_eq, honly.mem_eq, hdone⟩
  case retain =>
    have heff : exec (.powerRetain h) s = .next (requested s h 2 3) := exec_hand rfl hs rfl hu rfl
    obtain ⟨t, hnext, honly, hdone⟩ := exec_powerStateReached_requested (s := requested s h 2 3) rfl (requested_runs hu)
    have hpower := honly.power_eq
    exact ⟨⟨_, heff, running_requested, rfl⟩, _, t, heff, hnext, congrArg Power.state hpower, congrArg Power.req hpower,
      congrArg Power.railoffOk hpower, honly.tiles_eq, hdone⟩
  case illegal =>
    by_contra hne
    have hstarts : starts s h (.power st) = true := by simpa using hne
    have hvalue := starts_bodyChecks hstarts (ckValue (st ≤ 2) (fieldOff 0x0003 0)) (by show _ ∈ checksPower s st; unfold checksPower; simp)
    have hstate := starts_bodyChecks hstarts (ckState (2 < st || s.powerOk st) stState 0) (by show _ ∈ checksPower s st; unfold checksPower; simp)
    simp only [ckValue, ckState, decide_eq_true_eq, Bool.or_eq_true] at hvalue hstate
    have hok : s.powerOk st = true := hstate.resolve_left (by omega)
    unfold State.powerOk at hok
    rcases hst with hboot | ⟨hrun, rfl⟩ | ⟨hretain, hcore⟩
    · simp [hboot] at hok
    · simp [hrun] at hok
    · interval_cases st <;> simp [hretain, hcore] at hok
  case reached =>
    have hruns : ∀ x ∈ s.host.cmds, x.uid = u → x.phase = .running ∧ x.replayed = false ∧ x.drained = false := by
      intro x hx hxu
      rw [hcmds] at hx
      rcases List.mem_append.mp hx with hcs | hcds
      · exact absurd hxu (hothers x (List.mem_append_left _ hcs))
      · rcases List.mem_cons.mp hcds with rfl | hds
        · exact ⟨hrun, hrep, hdr⟩
        · exact absurd hxu (hothers x (List.mem_append_right _ hds))
    obtain ⟨t, hnext, honly, hdone⟩ := exec_powerStateReached_requested hreq hruns
    refine ⟨t, hnext, honly.power_eq, hdone, ?_⟩
    by_cases hv : v = 3
    · subst hv
      rw [reachedState_retain] at honly
      have hmem : t.mem = s.afterRetain.mem := honly.mem_eq
      refine ⟨honly.fuses_eq, by rw [honly.mods_eq]; rfl, by rw [honly.mods_eq]; rfl,
        fun hne => absurd rfl hne, fun _ => ⟨honly.tiles_eq, honly.place_eq, fun a ha => ?_, fun a ha => ?_⟩⟩
      · rw [hmem, memRead_afterRetain, if_pos ha]
      · rw [hmem, memRead_afterRetain, if_neg (Nat.not_lt.mpr ha)]
    · have hpower := honly.power_eq
      rw [reachedState_of_ne hv] at honly
      refine ⟨honly.fuses_eq, by rw [honly.mods_eq], by rw [honly.mods_eq],
        fun _ => ?_, fun heq => absurd heq hv⟩
      rw [hpower]
      exact honly.eq
  case idle =>
    show execPowerStateReached s = _
    unfold execPowerStateReached
    rw [hreq]

end Sys2Proof.Proofs
end

section
/-! PROOFS. Small states for refutations, and the numbers from 2^64 on, which the model keeps for borrowed streams. -/

namespace Sys2Proof.Proofs

open Sys2Proof.Machine Sys2Proof.Laws

/-! ### Small states -/

/-- A module in RUN over a link that is UP: queue 0 is the operator's, queue 1 partition 0's; completion ring 0 is enabled. -/
def plainHost : HostLink :=
  { state := 2, queues := [(0, { view := 16, log := 10, enabled := true }), (1, { view := 0, log := 10, enabled := true })],
    crings := [(0, { base := 0x10000, log := 8, vec := 1, enabled := true })] }

/-- The training partition 0 holds field 0. -/
def trainPart0 : Partition := { w := 1, h := 1, state := 1, train := true }

/-- A module with that link and that partition. -/
def plainState : State := { State.reset with power := { phase := 8, state := 1 }, host := plainHost, parts := [(0, trainPart0)] }

/-- A header without options for partition `p` on queue `q`. -/
def plainHdr (q : Fin 64) (p : Nat) : Hdr :=
  { queue := q, part := p, seq := 0, sched := false, dl := false, eval := false, irq := false, fence := false, step := 0, mark := 0, deadline := 0 }

/-! ### TILE_PROGRAM -/

/-- The next command's number is the first of those that the model gives to the streams of borrowed tiles. -/
def atBorrowNumbers : State := { plainState with host := { plainHost with nextUid := 2 ^ 64 } }

/-- An empty program under such a number is taken for a borrowed stream and runs on. -/
theorem phases_emptyProgram_atBorrowNumbers :
    (nextOf (exec (.tileProgram (plainHdr 1 0) ⟨[], []⟩) atBorrowNumbers)).map (fun t => t.host.cmds.map (fun c => c.phase)) =
      some [.running] := by decide

/-- Refutes O14: the statement leaves the number of the next command free, and from 2^64 on an empty program never completes. -/
theorem not_tileProgramQueuesItsStreams : ¬ Obligations.TileProgramQueuesItsStreams := by
  unfold Obligations.TileProgramQueuesItsStreams
  intro hall
  obtain ⟨-, -, hempty, -⟩ := hall
  obtain ⟨t, hnext, ⟨c, hlink, -, -, -, hdone, -⟩, -⟩ := hempty atBorrowNumbers (plainHdr 1 0) (by decide) (by decide) (by decide) (.inl rfl)
  have hphases := phases_emptyProgram_atBorrowNumbers
  rw [hnext] at hphases
  have hcmds : t.host.cmds = [c] := congrArg HostLink.cmds hlink
  simp [nextOf, hcmds, hdone] at hphases

end Sys2Proof.Proofs
end

section
/-! PROOFS. The sequencer: refill, start, retire, and the turn at a unit. -/

namespace Sys2Proof.Proofs

open Sys2Proof.Machine Sys2Proof.Laws

/-! ### A tile's queues -/

section
variable (s : State) (t q : Nat) (g : TileQueue → TileQueue)

theorem modTq_only : s.modTq t q g = { s with tiles := (s.modTq t q g).tiles } := rfl

@[simp] theorem modTq_mem : (s.modTq t q g).mem = s.mem := rfl

theorem modTq_tile (n : Nat) : (s.modTq t q g).tile n =
    if n = t then { s.tile t with queues := smapModify {} (s.tile t).queues q g } else s.tile n := smapGet_smapSet ..

@[simp] theorem modTq_tile_self : (s.modTq t q g).tile t = { s.tile t with queues := smapModify {} (s.tile t).queues q g } := by
  rw [modTq_tile, if_pos rfl]

theorem modTq_tile_other {n : Nat} (hn : n ≠ t) : (s.modTq t q g).tile n = s.tile n := by rw [modTq_tile, if_neg hn]

theorem queue_smapModify (x : TileState) (k : Nat) :
    TileState.queue { x with queues := smapModify {} x.queues q g } k = if k = q then g (x.queue q) else x.queue k := smapGet_smapModify ..

@[simp] theorem modTq_queue_self : ((s.modTq t q g).tile t).queue q = g ((s.tile t).queue q) := by
  rw [modTq_tile_self, queue_smapModify, if_pos rfl]

theorem modTq_queue_other {k : Nat} (hk : k ≠ q) : ((s.modTq t q g).tile t).queue k = (s.tile t).queue k := by
  rw [modTq_tile_self, queue_smapModify, if_neg hk]

end

/-- A queue entry without what becoming the next unstarted one fixes (R202, R203). -/
def entryCore (e : QEntry) : Nat × Nat × Descriptor := (e.uid, e.cmd, e.desc)

/-- Fixing the head of a ring leaves every entry's numbers and descriptor, and the rest of the queue. -/
theorem headFix_cases (s : State) (t q : Nat) :
    s.headFix t q = s ∨ ∃ e e1 rest, ((s.tile t).queue q).ring = e :: rest ∧ entryCore e1 = entryCore e ∧
      s.headFix t q = s.modTq t q (fun x => { x with ring := e1 :: rest }) := by
  unfold State.headFix
  split
  · exact .inl rfl
  · rename_i e rest hring
    refine .inr ⟨e, _, rest, hring, ?_, rfl⟩
    split
    · split <;> rfl
    · split <;> rfl
    · rfl

/-- What fixing the head leaves of its queue. -/
structure SameQueue (x y : TileQueue) : Prop where
  ring : y.ring.map entryCore = x.ring.map entryCore
  source : y.source = x.source
  started : y.started = x.started
  nextSeq : y.nextSeq = x.nextSeq

theorem headFix_spec (s : State) (t q : Nat) :
    SameQueue ((s.tile t).queue q) (((s.headFix t q).tile t).queue q) ∧
      (∀ k, k ≠ q → ((s.headFix t q).tile t).queue k = (s.tile t).queue k) ∧ (∀ n, n ≠ t → (s.headFix t q).tile n = s.tile n) ∧
      ((s.headFix t q).tile t).starts = (s.tile t).starts ∧ s.headFix t q = { s with tiles := (s.headFix t q).tiles } := by
  rcases headFix_cases s t q with h | ⟨e, e1, rest, hring, hcore, h⟩
  · rw [h]
    exact ⟨⟨rfl, rfl, rfl, rfl⟩, fun _ _ => rfl, fun _ _ => rfl, rfl, rfl⟩
  · rw [h]
    refine ⟨?_, fun k hk => modTq_queue_other _ _ _ _ hk, fun n hn => modTq_tile_other _ _ _ _ hn, by rw [modTq_tile_self], modTq_only ..⟩
    rw [modTq_queue_self]
    exact ⟨by simp [hring, hcore], rfl, rfl, rfl⟩

/-! ### The rows of the sequencer (R180 to R184) -/

section
variable {s : State} {u : Issuer}

theorem exec_queueRefill_of_served (h : s.served u.tile.val = true) :
    let n := 64 - ((tileOf s u).queue u.queue.val).ring.length
    exec (.queueRefill u) s = .next ((s.modTq u.tile.val u.queue.val (fun x =>
      { x with ring := x.ring ++ x.source.take n, source := x.source.drop n })).headFix u.tile.val u.queue.val) := by
  show execQueueRefill u s = _
  unfold execQueueRefill
  simp only [h]
  rfl

theorem exec_descriptorStart_of_ring {e : QEntry} {rest : List QEntry} (hring : ((tileOf s u).queue u.queue.val).ring = e :: rest) :
    exec (.descriptorStart u) s = if s.served u.tile.val && s.mayStart u.tile.val u.queue.val e then
      .next (State.headFix ((s.modTq u.tile.val u.queue.val (fun x => { x with
          ring := rest, nextSeq := x.nextSeq + 1,
          started := x.started ++ [{ e with dseq := x.nextSeq, fmts := s.slotFmts (u.tile.val / 16), startNo := (tileOf s u).starts }] })).modTile
        u.tile.val (fun x => { x with starts := (tileOf s u).starts + 1 })) u.tile.val u.queue.val)
      else .next s := by
  show execDescriptorStart u s = _
  unfold execDescriptorStart
  dsimp only
  rw [show ((s.tile u.tile.val).queue u.queue.val).ring = e :: rest from hring]
  rfl

theorem exec_descriptorRetire_of_started {e : QEntry} {rest : List QEntry} (hst : ((tileOf s u).queue u.queue.val).started = e :: rest) :
    exec (.descriptorRetire u) s = if !s.served u.tile.val || !e.acted then .next s else
      let s2 := (s.modTq u.tile.val u.queue.val (fun x => { x with started := rest })).modTile u.tile.val
        (fun x => { x with seedGens := dropGen x.seedGens e.uid })
      .next ((if e.desc.hdr.sigEn then s2.modTile u.tile.val (fun x => x.signal e.desc.hdr.sigSem) else s2).checkProgram e.cmd) := by
  show execDescriptorRetire u s = _
  unfold execDescriptorRetire
  dsimp only
  rw [show ((s.tile u.tile.val).queue u.queue.val).started = e :: rest from hst]

/-- What a map answers is its default or stands in it. -/
theorem smapGet_default_or_mem {α : Type} (d : α) (m : SMap α) (k : Nat) : smapGet d m k = d ∨ (k, smapGet d m k) ∈ m := by
  induction m with
  | nil => exact .inl rfl
  | cons p m ih =>
    obtain ⟨j, v⟩ := p
    unfold smapGet
    by_cases hj : j = k
    · subst hj; simp
    · rw [if_neg hj]
      exact ih.imp id (List.mem_cons_of_mem _)

/-- A program some of whose descriptors a tile still holds goes on. -/
theorem checkProgram_of_held {s : State} {n q : Nat} {cmd : Nat} (h : (((s.tile n).queue q).started).any (fun x => x.cmd == cmd) = true) :
    s.checkProgram cmd = s := by
  have hq : (q, (s.tile n).queue q) ∈ (s.tile n).queues := (smapGet_default_or_mem ({} : TileQueue) (s.tile n).queues q).resolve_left fun hnone => by
    rw [show (s.tile n).queue q = {} from hnone] at h
    simp at h
  have ht : (n, s.tile n) ∈ s.tiles := (smapGet_default_or_mem ({} : TileState) s.tiles n).resolve_left fun hnone => by
    rw [show s.tile n = {} from hnone] at hq
    simp at hq
  have hleft : s.programLeft cmd = true := by
    unfold State.programLeft
    refine List.any_eq_true.mpr ⟨_, ht, List.any_eq_true.mpr ⟨_, hq, ?_⟩⟩
    simp [List.any_append, h]
  unfold State.checkProgram
  rw [if_pos hleft]

/-- What a signal does to the semaphores (R196). -/
theorem signal_sems (x : TileState) (k i : Nat) (hle : smapGet 0 x.sems k ≤ 65535) :
    smapGet 0 (x.signal k).sems i = if i = k then min 65535 (smapGet 0 x.sems i + 1) else smapGet 0 x.sems i := by
  unfold TileState.signal
  by_cases hfull : smapGet 0 x.sems k = 65535
  · simp only [hfull, if_true]
    split
    · subst_vars; omega
    · rfl
  · simp only [hfull, if_false, smapGet_smapSet]
    split
    · subst_vars; omega
    · rfl

theorem signal_semOvf (x : TileState) (k : Nat) : (x.signal k).semOvf = (x.semOvf || smapGet 0 x.sems k == 65535) := by
  unfold TileState.signal
  by_cases hfull : smapGet 0 x.sems k = 65535 <;> simp [hfull]

theorem signal_queues (x : TileState) (k : Nat) : (x.signal k).queues = x.queues := by
  unfold TileState.signal
  dsimp only
  split <;> rfl

end

/-- A tile whose queue `q` has retired its oldest descriptor, number `uid`. -/
def retiredTile (x : TileState) (q : Nat) (rest : List QEntry) (uid : Nat) : TileState :=
  { x with queues := smapModify {} x.queues q (fun y => { y with started := rest }), seedGens := dropGen x.seedGens uid }

theorem retiredTile_queue (x : TileState) (q : Nat) (rest : List QEntry) (uid k : Nat) :
    (retiredTile x q rest uid).queue k = if k = q then { x.queue q with started := rest } else x.queue k :=
  smapGet_smapModify ({} : TileQueue) x.queues q k (fun y => { y with started := rest })

/-- A descriptor whose turn has not come at its unit changes nothing (R182). -/
theorem runUnit_of_no_turn {s : State} {u : Issuer} {h : DHdr} {k : DKind} {eff : DescCtx → State → State}
    (hturn : s.unitTurn u { hdr := h, kind := k } = false) : s.runUnit u h k eff = .next s := by
  unfold State.runUnit
  simp [hturn]

/-- Settles O15: each row by what it writes to its queue, a unit's turn by the common rule of units. -/
theorem sequencerRows : Obligations.SequencerRows := by
  unfold Obligations.SequencerRows
  refine ⟨fun s u hserved => ?refill, fun s u e rest hserved hring hmay => ?start, fun s u e rest hserved hst hacted hmore hle => ?retire,
    fun s u hserved => ?unserved, fun s u e rest hst hacted => ?notActed, fun s u h k hturn => ?turn⟩
  case refill =>
    refine ⟨_, exec_queueRefill_of_served hserved, ?_⟩
    dsimp only [tileOf]
    generalize ha : (s.tile u.tile.val).queue u.queue.val = a
    generalize hs1 : s.modTq u.tile.val u.queue.val _ = s1
    obtain ⟨hsame, hother, htiles, -, honly⟩ := headFix_spec s1 u.tile.val u.queue.val
    have hq : (s1.tile u.tile.val).queue u.queue.val =
        { a with ring := a.ring ++ a.source.take (64 - a.ring.length), source := a.source.drop (64 - a.ring.length) } := by
      rw [← hs1, modTq_queue_self, ha]
    rw [hq] at hsame
    obtain ⟨hring, hsource, hstarted, hnext⟩ := hsame
    refine ⟨⟨?_, ?_, hstarted, hnext⟩, fun q hq => ?_, fun k hk => ?_, ?_⟩
    · rw [hsource]
      refine (congrArg (· ++ _) hring).trans ?_
      show List.map entryCore _ ++ List.map entryCore _ = List.map entryCore _ ++ List.map entryCore _
      rw [← List.map_append, List.append_assoc, List.take_append_drop, List.map_append]
    · have hlen := congrArg List.length hring
      simp only [List.length_map, List.length_append, List.length_take] at hlen
      omega
    · exact (hother q hq).trans (by rw [← hs1, modTq_queue_other _ _ _ _ hq])
    · exact (htiles k hk).trans (by rw [← hs1, modTq_tile_other _ _ _ _ hk])
    · rw [honly, ← hs1]; rfl
  case start =>
    have heff := exec_descriptorStart_of_ring hring
    rw [hserved, hmay, Bool.and_self, if_pos rfl] at heff
    refine ⟨_, heff, ?_⟩
    dsimp only [tileOf] at hring ⊢
    generalize ha : (s.tile u.tile.val).queue u.queue.val = a at hring ⊢
    generalize hs1 : State.modTile (s.modTq u.tile.val u.queue.val _) _ _ = s1
    obtain ⟨hsame, hother, htiles, hstarts, honly⟩ := headFix_spec s1 u.tile.val u.queue.val
    have hq : (s1.tile u.tile.val).queue u.queue.val = { a with
        ring := rest, nextSeq := a.nextSeq + 1,
        started := a.started ++ [{ e with dseq := a.nextSeq, fmts := s.slotFmts (u.tile.val / 16), startNo := (s.tile u.tile.val).starts }] } := by
      rw [← hs1, modTile_tile, if_pos rfl]
      exact (modTq_queue_self ..).trans (by rw [ha])
    rw [hq] at hsame
    obtain ⟨hring', hsource, hstarted, hnext⟩ := hsame
    refine ⟨⟨hstarted, hnext, ?_, hsource⟩, ?_, fun q hq => ?_, fun k hk => ?_, ?_⟩
    · have hcore := congrArg (List.map (fun c : Nat × Nat × Descriptor => (c.1, c.2.2))) hring'
      rwa [List.map_map, List.map_map] at hcore
    · rw [hstarts, ← hs1, modTile_tile, if_pos rfl]
    · refine (hother q hq).trans ?_
      rw [← hs1, modTile_tile, if_pos rfl]
      exact modTq_queue_other _ _ _ _ hq
    · exact (htiles k hk).trans (by rw [← hs1, modTile_tile, if_neg hk, modTq_tile_other _ _ _ _ hk])
    · rw [honly, ← hs1]; rfl
  case retire =>
    have heff := exec_descriptorRetire_of_started hst
    rw [hserved, hacted] at heff
    generalize hs2 : State.modTile (s.modTq u.tile.val u.queue.val _) _ _ = s2 at heff
    have ht2 : s2.tile u.tile.val = retiredTile (s.tile u.tile.val) u.queue.val rest e.uid := by
      rw [← hs2, modTile_tile, if_pos rfl, modTq_tile_self]
      rfl
    have hother2 : ∀ n, n ≠ u.tile.val → s2.tile n = s.tile n := fun n hn => by
      rw [← hs2, modTile_tile, if_neg hn, modTq_tile_other _ _ _ _ hn]
    have honly2 : s2 = { s with tiles := s2.tiles } := by rw [← hs2]; rfl
    have hqueue : ∀ q, (retiredTile (s.tile u.tile.val) u.queue.val rest e.uid).queue q =
        if q = u.queue.val then { (s.tile u.tile.val).queue u.queue.val with started := rest } else (s.tile u.tile.val).queue q :=
      retiredTile_queue _ _ _ _
    by_cases hsig : e.desc.hdr.sigEn = true
    · rw [hsig] at heff
      have ht3 : (s2.modTile u.tile.val (fun x => x.signal e.desc.hdr.sigSem)).tile u.tile.val =
          (retiredTile (s.tile u.tile.val) u.queue.val rest e.uid).signal e.desc.hdr.sigSem := by rw [modTile_tile, if_pos rfl, ht2]
      have hqueue3 : ∀ q, ((s2.modTile u.tile.val (fun x => x.signal e.desc.hdr.sigSem)).tile u.tile.val).queue q =
          (retiredTile (s.tile u.tile.val) u.queue.val rest e.uid).queue q := fun q => by
        rw [ht3]
        unfold TileState.queue
        rw [signal_queues]
      have hheld := checkProgram_of_held (s := s2.modTile u.tile.val (fun x => x.signal e.desc.hdr.sigSem)) (n := u.tile.val)
        (q := u.queue.val) (cmd := e.cmd) (by rw [hqueue3, hqueue, if_pos rfl]; exact hmore)
      simp only [Bool.not_true, Bool.or_false, Bool.false_eq_true, if_false, if_true, hheld] at heff
      refine ⟨_, heff, (hqueue3 _).trans ((hqueue _).trans (if_pos rfl)), fun q hq => (hqueue3 _).trans ((hqueue _).trans (if_neg hq)),
        fun n hn => by rw [modTile_tile, if_neg hn, hother2 n hn], fun i => ?_, ?_, by rw [honly2]; rfl⟩
      · dsimp only [tileOf]
        rw [ht3, signal_sems (retiredTile (s.tile u.tile.val) u.queue.val rest e.uid) _ _ hle]
        simp only [hsig, true_and]
        rfl
      · dsimp only [tileOf]
        rw [ht3, signal_semOvf, hsig]
        rfl
    · have hno : e.desc.hdr.sigEn = false := by simpa using hsig
      rw [hno] at heff
      have hheld := checkProgram_of_held (s := s2) (n := u.tile.val) (q := u.queue.val) (cmd := e.cmd)
        (by rw [ht2, hqueue, if_pos rfl]; exact hmore)
      simp only [Bool.not_true, Bool.or_false, Bool.false_eq_true, if_false, hheld] at heff
      refine ⟨_, heff, ?_, fun q hq => ?_, hother2, fun i => ?_, ?_, honly2⟩
      · dsimp only [tileOf]
        rw [ht2, hqueue, if_pos rfl]
      · dsimp only [tileOf]
        rw [ht2, hqueue, if_neg hq]
      · dsimp only [tileOf]
        rw [ht2, hno]
        simp [retiredTile]
      · dsimp only [tileOf]
        rw [ht2, hno]
        simp [retiredTile]
  case unserved =>
    refine ⟨?_, ?_, ?_⟩
    · show execQueueRefill u s = _
      unfold execQueueRefill
      simp only [hserved]
      rfl
    · show execDescriptorStart u s = _
      unfold execDescriptorStart
      dsimp only
      split
      · rfl
      · rw [hserved]; rfl
    · show execDescriptorRetire u s = _
      unfold execDescriptorRetire
      dsimp only
      split
      · rfl
      · rw [hserved]; rfl
  case notActed =>
    rw [exec_descriptorRetire_of_started hst, hacted]
    simp
  case turn =>
    refine ⟨fun d hk => ?_, fun n hk => ?_, fun d hk harrays => ?_, fun d hk => ?_, fun d errs hk => ?_, fun d hk => ?_⟩ <;> subst hk
    · show execStage u h d s = _
      exact runUnit_of_no_turn hturn
    · show execSwap u h n s = _
      exact runUnit_of_no_turn hturn
    · show execPass u h d s = _
      unfold execPass
      rw [if_neg harrays]
      exact runUnit_of_no_turn hturn
    · show execDrain u h d s = _
      exact runUnit_of_no_turn hturn
    · show execLoad u h d errs s = _
      exact runUnit_of_no_turn hturn
    · show execLaneAdd u h d s = _
      unfold execLaneAdd State.laneUnit
      exact runUnit_of_no_turn hturn

end Sys2Proof.Proofs
end

section
/-! PROOFS. A transfer between the last stack and the first tile store, which a stack above its window reaches. -/

namespace Sys2Proof.Proofs

open Sys2Proof.Machine Sys2Proof.Laws

/-- Queue 0 of tile 0. -/
def issuer00 : Issuer := ⟨0, 0⟩

/-- The header of a descriptor that signals nothing. -/
def quietHdr : DHdr := { sigEn := false, sigSem := 0, htag := 0 }

/-- A partition of all fields whose tile 0 has started one descriptor. -/
def startedAt00 (k : DKind) : State := { State.reset with
  parts := [(0, { w := 8, h := 8, state := 1 })],
  tiles := [(0, { queues := [(0, { started := [{ uid := 0, cmd := 0, eval := false, desc := { hdr := quietHdr, kind := k } }], nextSeq := 1 })] })] }

/-- Two rows of 128 bytes at the end of the stack windows; the second reaches 64 bytes into the tile store that the first is written to. -/
def overTheWindow : MoveD := { rows := 2, bytes := 128, tclass := 0, addr := 2 ^ 43 - 128, tbase := 0, sstride := 64, tstride := 128 }

/-- Field 63 lists 33 good channels, so that its stack is said to reach past its window of 2^37 bytes. -/
def wideStack : State := { startedAt00 (.load overTheWindow) with
  fields := [(63, { stack := { good := List.range 33 } })], mem := [(2 ^ 43 - 128, 7)] }

theorem exec_load_wideStack :
    (nextOf (exec (.load issuer00 quietHdr overTheWindow []) wideStack)).map (fun t => memRead t.mem (2 ^ 43 + 192)) = some 7 := by decide +kernel

theorem wideStack_present :
    ∀ i < overTheWindow.rows, ∀ k < overTheWindow.bytes, wideStack.lostAt (overTheWindow.addr + i * overTheWindow.sstride + k) = false := by
  decide +kernel

/-- Refutes O16: nothing keeps the good channels of a stack to 32, and with 33 a LOAD of field 63's last row reads what its first row wrote. -/
theorem not_transferEngineMovesRows : ¬ Obligations.TransferEngineMovesRows := by
  unfold Obligations.TransferEngineMovesRows
  intro hall
  obtain ⟨hload, -⟩ := hall
  obtain ⟨t, hnext, hmoved, -⟩ := hload wideStack issuer00 quietHdr overTheWindow (by decide) (by decide +kernel) (by decide)
    (fun i k hi hk => wideStack_present i hi k hk)
  have hbyte := hmoved 1 64 (by decide) (by decide)
  have hread := exec_load_wideStack
  rw [hnext] at hread
  have hseven : memRead t.mem (2 ^ 43 + 192) = 7 := Option.some.inj hread
  rw [show tileAddr issuer00.tile.val (overTheWindow.tbase + 1 * overTheWindow.tstride + 64) = 2 ^ 43 + 192 by decide, hseven] at hbyte
  exact absurd hbyte (by decide)

end Sys2Proof.Proofs
end

section
/-! PROOFS. What every unit row keeps: a descriptor that its unit acts on, and the frame of the row. -/

namespace Sys2Proof.Proofs

open Sys2Proof.Machine Sys2Proof.Laws

/-! ### A row whose unit acts -/

/-- The state after a unit row whose effect made `s1` of `s`: a capture is on its way, and the descriptor has acted. -/
def unitDone (s : State) (u : Issuer) (k : DKind) (h : DHdr) (s1 : State) : State :=
  (s1.captured u.tile.val (s.tile u.tile.val).meter.status).acted u { hdr := h, kind := k }

section
variable {s s1 : State} {u : Issuer} {k : DKind} {h : DHdr}

theorem unitReady_parts (hr : unitReady s u k h = true) :
    s.descOk u.tile.val { hdr := h, kind := k } = true ∧ s.served u.tile.val = true ∧ s.unitTurn u { hdr := h, kind := k } = true ∧
      (s.tile u.tile.val).seedGens = [] := by
  unfold unitReady at hr
  simp only [Bool.and_eq_true, List.isEmpty_iff] at hr
  obtain ⟨⟨⟨⟨hok, hserved⟩, -⟩, hturn⟩, hgens⟩ := hr
  exact ⟨hok, hserved, hturn, hgens⟩

/-- Every queue-time check of a descriptor that its unit acts on holds. -/
theorem unitReady_checks (hr : unitReady s u k h = true) : ∀ c ∈ s.descChecks u.tile.val { hdr := h, kind := k }, c.ok = true := by
  have := (unitReady_parts hr).1
  unfold State.descOk at this
  exact List.all_eq_true.mp this

theorem unitReady_kindChecks (hr : unitReady s u k h = true) : ∀ c ∈ s.kindChecks (u.tile.val / 16) k, c.ok = true := fun c hc =>
  unitReady_checks hr c (by
    unfold State.descChecks
    exact List.mem_append_left _ (List.mem_cons_of_mem _ hc))

/-- Without lane states older than a seed load a unit works on the tile as it is. -/
theorem runUnit_of_ready (hr : unitReady s u k h = true) (eff : DescCtx → State → State) :
    s.runUnit u h k eff = .next (unitDone s u k h (eff (s.descCtx u { hdr := h, kind := k }) s)) := by
  obtain ⟨-, hserved, hturn, hgens⟩ := unitReady_parts hr
  have hlanes : ∀ g : State → State, s.withLanes u { hdr := h, kind := k } g = g s := by
    intro g
    unfold State.withLanes
    dsimp only
    split
    · rfl
    · rw [hgens]; rfl
  unfold State.runUnit
  simp only [hserved, hturn, hlanes]
  rfl

theorem captured_cases (s1 : State) (t : Nat) (old : Word) :
    s1.captured t old = s1 ∨ ∃ c, s1.captured t old = s1.modFld (t / 16) (fun d => { d with caps := d.caps ++ [c] }) := by
  unfold State.captured
  dsimp only
  split
  · exact .inr ⟨_, rfl⟩
  · exact .inl rfl

/-- A capture reaches the list of captures of one field. -/
theorem captured_only (s1 : State) (t : Nat) (old : Word) : s1.captured t old = { s1 with fields := (s1.captured t old).fields } := by
  rcases captured_cases s1 t old with hc | ⟨c, hc⟩ <;> rw [hc]
  rfl

theorem captured_capsOnly (s1 : State) (t : Nat) (old : Word) : CapsOnly s1 (s1.captured t old) := by
  intro f
  rcases captured_cases s1 t old with hc | ⟨c, hc⟩ <;> rw [hc]
  by_cases hf : f = t / 16
  · subst hf; simp
  · simp [hf]

theorem captured_tile (s1 : State) (t : Nat) (old : Word) (n : Nat) : (s1.captured t old).tile n = s1.tile n := by
  rw [captured_only]; rfl

/-- A status that the row left alone starts no capture. -/
theorem captured_of_same {t : Nat} {old : Word} (hst : (s1.tile t).meter.status = old) : s1.captured t old = s1 := by
  unfold State.captured
  simp [hst]

theorem unitDone_only : unitDone s u k h s1 = { s1 with tiles := (unitDone s u k h s1).tiles, fields := (unitDone s u k h s1).fields } := by
  unfold unitDone State.acted
  rw [modTq_only, captured_only]

theorem unitDone_of_same_status (hst : (s1.tile u.tile.val).meter.status = (s.tile u.tile.val).meter.status) :
    unitDone s u k h s1 = s1.acted u { hdr := h, kind := k } := by
  unfold unitDone
  rw [captured_of_same hst]

theorem unitDone_mem : (unitDone s u k h s1).mem = s1.mem := by rw [unitDone_only]

theorem unitDone_capsOnly : CapsOnly s1 (unitDone s u k h s1) := captured_capsOnly s1 _ _

theorem unitDone_tile_other {n : Nat} (hn : n ≠ u.tile.val) : (unitDone s u k h s1).tile n = s1.tile n := by
  unfold unitDone State.acted
  rw [modTq_tile_other _ _ _ _ hn, captured_tile]

/-- The queues of the tile after the descriptor has acted. -/
def actedQueues (qs : SMap TileQueue) (q : Nat) (k : DKind) (h : DHdr) : SMap TileQueue :=
  smapModify {} qs q (fun x =>
    { x with started :=
               modFirst (fun e => !e.acted && decide (e.desc = ({ hdr := h, kind := k } : Descriptor))) (fun e => { e with acted := true, held := false }) x.started })

theorem unitDone_tile : tileOf (unitDone s u k h s1) u = { tileOf s1 u with queues := actedQueues (tileOf s1 u).queues u.queue.val k h } := by
  unfold unitDone State.acted tileOf
  rw [modTq_tile_self, captured_tile]
  rfl

/-- A row that leaves the queues and the other tiles alone marks its descriptor and nothing else of them. -/
theorem unitDone_acted (hq : (tileOf s1 u).queues = (tileOf s u).queues) (ho : ∀ n, n ≠ u.tile.val → s1.tile n = s.tile n) :
    ActedOnce s (unitDone s u k h s1) u k h := by
  refine ⟨?_, fun n hn => (unitDone_tile_other hn).trans (ho n hn)⟩
  rw [unitDone_tile, hq]
  rfl

end

end Sys2Proof.Proofs
end

section
/-! PROOFS. STAGE and SWAP. -/

namespace Sys2Proof.Proofs

open Sys2Proof.Machine Sys2Proof.Laws

section
variable {s : State} {u : Issuer} {k : DKind} {h : DHdr}

/-- A row that changes its own tile alone, neither its queues nor its numeric status. -/
theorem unitDone_modTile {g : TileState → TileState} (hq : (g (tileOf s u)).queues = (tileOf s u).queues)
    (hm : (g (tileOf s u)).meter.status = (tileOf s u).meter.status) :
    ActedOnce s (unitDone s u k h (s.modTile u.tile.val g)) u k h ∧
      unitDone s u k h (s.modTile u.tile.val g) = { s with tiles := (unitDone s u k h (s.modTile u.tile.val g)).tiles } ∧
      tileOf (unitDone s u k h (s.modTile u.tile.val g)) u =
        { g (tileOf s u) with queues := (tileOf (unitDone s u k h (s.modTile u.tile.val g)) u).queues } := by
  have htile : tileOf (s.modTile u.tile.val g) u = g (tileOf s u) := by
    unfold tileOf
    rw [modTile_tile, if_pos rfl]
  refine ⟨unitDone_acted (by rw [htile, hq]) (fun n hn => by rw [modTile_tile, if_neg hn]), ?_, ?_⟩
  · rw [unitDone_of_same_status]
    · rfl
    · show (tileOf (s.modTile u.tile.val g) u).meter.status = _
      rw [htile, hm]
      rfl
  · rw [unitDone_tile, htile]

end

/-- The blocks that a mask of arrays names. -/
theorem testBit_arrays {n : Nat} (hn : n < 4) : (n.testBit 0 = true ↔ n = 1 ∨ n = 3) ∧ (n.testBit 1 = true ↔ n = 2 ∨ n = 3) := by
  interval_cases n <;> decide

theorem stageBlock_plain {mem : Memory} {base fmt : Nat} {d : StageD} (hdiag : d.diag = false) (hscale : d.sscale = false) (hfmt : fmt < 6) :
    (stageBlock mem base fmt d).tag = some ⟨fmt, false, none⟩ ∧
      ∀ i, i < 16384 → (stageBlock mem base fmt d).codes.getD i 0 = memReadNat mem (base + i * (fmtBits fmt / 8)) (fmtBits fmt / 8) := by
  have hblock : isBlockFmt fmt = false := by
    unfold isBlockFmt
    simp only [Bool.or_eq_false_iff, beq_eq_false_iff_ne]
    omega
  unfold stageBlock
  simp only [hdiag, hscale, hblock, Bool.false_eq_true, if_false]
  refine ⟨trivial, fun i hi => ?_⟩
  rw [List.getD_eq_getElem?_getD, List.getElem?_map, List.getElem?_range hi]
  rfl

theorem fmtOf_of_lt {xs : List Nat} {b : Nat} (hb : b < 8) : fmtOf xs b = b := by
  unfold fmtOf
  rw [if_neg (by omega), Nat.mod_eq_of_lt hb]

theorem exec_stage {s : State} {u : Issuer} {h : DHdr} {d : StageD} (hr : unitReady s u (.stage d) h = true) :
    exec (.stage u h d) s = .next (unitDone s u (.stage d) h
      (s.modTile u.tile.val (fun t => stageEffect (s.descCtx u { hdr := h, kind := .stage d }) s.mem d t))) := by
  show execStage u h d s = _
  unfold execStage
  rw [runUnit_of_ready hr]
  rfl

theorem exec_swap {s : State} {u : Issuer} {h : DHdr} {n : Nat} (hr : unitReady s u (.swap n) h = true) :
    exec (.swap u h n) s = .next (unitDone s u (.swap n) h (s.modTile u.tile.val (fun t => swapEffect n t))) := by
  show execSwap u h n s = _
  unfold execSwap
  rw [runUnit_of_ready hr]
  rfl

/-- Settles O17, by the blocks that each row puts in place. -/
theorem stageAndSwap : Obligations.StageAndSwap := by
  unfold Obligations.StageAndSwap
  refine ⟨fun s u h d hr => ?stage, fun s u h n hr => ?swap⟩
  case stage =>
    have harrays : d.arrays < 4 := by
      have := unitReady_kindChecks hr (dkMust (d.arrays < 4 && d.fmt < 256) 4) (by simp [State.kindChecks])
      simp only [dkMust, Bool.and_eq_true, decide_eq_true_eq] at this
      exact this.1
    obtain ⟨hA, hB⟩ := testBit_arrays harrays
    let cx := s.descCtx u { hdr := h, kind := .stage d }
    let b := stageBlock s.mem (tileAddr u.tile.val d.sbase) (fmtOf cx.slotFmt d.fmt) d
    have heff := exec_stage hr
    obtain ⟨hacted, honly, htile⟩ := unitDone_modTile (s := s) (u := u) (k := .stage d) (h := h) (g := fun t => stageEffect cx s.mem d t) rfl rfl
    generalize unitDone s u (.stage d) h (s.modTile u.tile.val (fun t => stageEffect cx s.mem d t)) = t at *
    have harrA : (tileOf t u).arrA = if d.arrays = 1 ∨ d.arrays = 3 then { (tileOf s u).arrA with shadow := b } else (tileOf s u).arrA := by
      rw [htile]
      simp only [← hA]
      rfl
    have harrB : (tileOf t u).arrB = if d.arrays = 2 ∨ d.arrays = 3 then { (tileOf s u).arrB with shadow := b } else (tileOf s u).arrB := by
      rw [htile]
      simp only [← hB]
      rfl
    refine ⟨t, heff, hacted, honly, by rw [htile]; rfl, ?_, ?_, fun h1 => ?_, fun h2 => ?_, fun hdiag hscale hfmt array hnamed => ?_⟩
    · rw [harrA]; split <;> rfl
    · rw [harrB]; split <;> rfl
    · rw [harrB, if_neg (by omega)]
    · rw [harrA, if_neg (by omega)]
    · have hshadow : ((tileOf t u).arr array).shadow = b := by
        cases array
        · exact congrArg ArrayState.shadow (harrA.trans (if_pos hnamed))
        · exact congrArg ArrayState.shadow (harrB.trans (if_pos hnamed))
      have hplain := stageBlock_plain (mem := s.mem) (base := tileAddr u.tile.val d.sbase) hdiag hscale hfmt
      rw [hshadow, show b = stageBlock s.mem (tileAddr u.tile.val d.sbase) d.fmt d by rw [← fmtOf_of_lt (xs := cx.slotFmt) (b := d.fmt) (by omega)]]
      exact hplain
  case swap =>
    have harrays : n < 4 := by
      have := unitReady_kindChecks hr (dkMust (n < 4) 4) (by simp [State.kindChecks])
      simpa [dkMust] using this
    obtain ⟨hA, hB⟩ := testBit_arrays harrays
    have heff := exec_swap hr
    obtain ⟨hacted, honly, htile⟩ := unitDone_modTile (s := s) (u := u) (k := .swap n) (h := h) (g := fun t => swapEffect n t) rfl rfl
    generalize unitDone s u (.swap n) h (s.modTile u.tile.val (fun t => swapEffect n t)) = t at *
    refine ⟨t, heff, hacted, honly, by rw [htile]; rfl, ?_, ?_⟩
    · rw [htile]
      simp only [← hA]
      rfl
    · rw [htile]
      simp only [← hB]
      rfl

end Sys2Proof.Proofs
end

section
/-! PROOFS. PASS and PAIRED_PASS. -/

namespace Sys2Proof.Proofs

open Sys2Proof.Machine Sys2Proof.Laws

/-! ### One vector of a pass -/

/-- The accumulator row that vector `m` of a side of a pass arrives in. -/
def passKey (array row : Bool) (sd : PassSide) (m : Nat) : Nat := accKey array row (sd.s0 * 128 + sd.q0 + m)

/-- The tree results of vector `m` against a stationary block, scaled as the side asks. -/
def passOuts (cx : DescCtx) (mem : Memory) (row : Bool) (sd : PassSide) (m : Nat) (blk : Block) : List TreeRes :=
  let mfmt := fmtOf cx.slotFmt sd.mfmt
  let sfmt := fmtOf cx.slotFmt sd.sfmt
  (List.range 128).map (fun j =>
    let tr := treeResult (wideFmt mfmt || wideFmt sfmt) (intFmt mfmt && intFmt sfmt) (blk.line row j)
      (movingVec mem mfmt (tileAddr cx.tile sd.mbase) sd.mstride m).1
    let t1 := if sd.msc then tr.scale (if sd.msc then readF32 (memReadF32 mem (tileAddr cx.tile (sd.msbase + 4 * m))) else oneVal) else tr
    if sd.ssc then t1.scale (readF32 (BitVec.ofNat 32 (blk.scales.getD j 0))) else t1)

/-- The row after vector `m` has arrived. -/
def passRow (cx : DescCtx) (mem : Memory) (row : Bool) (sd : PassSide) (m : Nat) (blk : Block) (old : AccRow) : AccRow :=
  (arriveRow cx.exact (tagMismatch blk.tag (fmtOf cx.slotFmt sd.sfmt) sd.ssc row) sd.acc (accMode sd.amode) (passOuts cx mem row sd m blk) old).1

/-- Only the accumulators and the numeric status of a tile differ. -/
def PassOnly (x y : TileState) : Prop := y = { x with accs := y.accs, meter := y.meter }

theorem PassOnly.refl (x : TileState) : PassOnly x x := rfl

theorem PassOnly.trans {x y z : TileState} (h : PassOnly x y) (k : PassOnly y z) : PassOnly x z := by
  unfold PassOnly at h k ⊢
  rw [k, h]

theorem PassOnly.queues {x y : TileState} (h : PassOnly x y) : y.queues = x.queues := by
  unfold PassOnly at h
  generalize y.accs = a, y.meter = m at h
  rw [h]

theorem PassOnly.arr {x y : TileState} (h : PassOnly x y) (b : Bool) : y.arr b = x.arr b := by
  unfold PassOnly at h
  rw [h]
  rfl

section
variable (cx : DescCtx) (mem : Memory) (array row paired : Bool) (kblk : Nat) (sd : PassSide)

theorem passVector_only (m : Nat) (t : TileState) : PassOnly t (passVector cx mem array row paired kblk sd m t) := rfl

theorem passVector_acc (m : Nat) (t : TileState) (k : Nat) : (passVector cx mem array row paired kblk sd m t).acc k =
    if k = passKey array row sd m then passRow cx mem row sd m (t.arr array).stat (t.acc k) else t.acc k := by
  have hset := smapGet_smapSet ({} : AccRow) t.accs (passKey array row sd m) k
    (passRow cx mem row sd m (t.arr array).stat (t.acc (passKey array row sd m)))
  refine Eq.trans (b := smapGet ({} : AccRow) (smapSet t.accs (passKey array row sd m) _) k) rfl (hset.trans ?_)
  by_cases hk : k = passKey array row sd m
  · rw [if_pos hk, if_pos hk, hk]
  · rw [if_neg hk, if_neg hk]
    rfl

theorem passKey_inj {m n : Nat} (h : passKey array row sd m = passKey array row sd n) : m = n := by
  unfold passKey accKey at h
  omega

/-- The vectors of one side arrive one after another, each in its own row. -/
theorem foldl_passVector (n : Nat) (t : TileState) :
    let t' := (List.range n).foldl (fun tt m => passVector cx mem array row paired kblk sd m tt) t
    PassOnly t t' ∧ (∀ m, m < n → t'.acc (passKey array row sd m) = passRow cx mem row sd m (t.arr array).stat (t.acc (passKey array row sd m))) ∧
      ∀ k, (∀ m, m < n → k ≠ passKey array row sd m) → t'.acc k = t.acc k := by
  induction n with
  | zero => exact ⟨PassOnly.refl t, fun m hm => absurd hm (Nat.not_lt_zero m), fun _ _ => rfl⟩
  | succ n ih =>
    obtain ⟨honly, hrows, hother⟩ := ih
    simp only [List.range_succ, List.foldl_append, List.foldl_cons, List.foldl_nil]
    refine ⟨honly.trans (passVector_only ..), fun m hm => ?_, fun k hk => ?_⟩
    · rw [passVector_acc, honly.arr]
      by_cases hmn : m = n
      · subst hmn
        rw [if_pos rfl, hother _ (fun j hj heq => Nat.ne_of_gt hj (passKey_inj array row sd heq))]
      · rw [if_neg (fun heq => hmn (passKey_inj array row sd heq)), hrows m (by omega)]
    · rw [passVector_acc, if_neg (hk n (Nat.lt_succ_self n)), hother k (fun m hm => hk m (Nat.lt_succ_of_lt hm))]

end

/-! ### The pass -/

theorem passBlockReads_only (cx : DescCtx) (array : Bool) (sd : PassSide) (t : TileState) : PassOnly t (passBlockReads cx array sd t) := rfl

/-- The side that a pass on one array uses. -/
def passSideOf (d : PassD) : PassSide := if d.arrays = 2 then d.b else d.a

theorem passSideOf_eq (d : PassD) : (if d.arrays == 2 then d.b else d.a) = passSideOf d := by
  unfold passSideOf
  by_cases h : d.arrays = 2
  · rw [if_pos h, if_pos (beq_iff_eq.mpr h)]
  · rw [if_neg h, if_neg (fun hb => h (beq_iff_eq.mp hb))]

/-- What a pass on one array leaves of the tile. -/
theorem passEffect_spec (cx : DescCtx) (mem : Memory) (d : PassD) (t : TileState) :
    let key := passKey (d.arrays == 2) d.orient (passSideOf d)
    PassOnly t (passEffect cx mem d t) ∧
      (∀ m, m < d.m → (passEffect cx mem d t).acc (key m) = passRow cx mem d.orient (passSideOf d) m (t.arr (d.arrays == 2)).stat (t.acc (key m))) ∧
      ∀ k, (∀ m, m < d.m → k ≠ key m) → (passEffect cx mem d t).acc k = t.acc k := by
  unfold passEffect
  by_cases hm : d.m = 0
  · rw [if_pos hm]
    exact ⟨PassOnly.refl t, fun m hlt => absurd hlt (by omega), fun _ _ => rfl⟩
  · rw [if_neg hm]
    simp only [passSideOf_eq]
    obtain ⟨honly, hrows, hother⟩ := foldl_passVector cx mem (d.arrays == 2) d.orient false d.kblk (passSideOf d) d.m
      (passBlockReads cx (d.arrays == 2) (passSideOf d) t)
    exact ⟨(passBlockReads_only ..).trans honly, hrows, hother⟩

theorem passEffect_zero (cx : DescCtx) (mem : Memory) {d : PassD} (t : TileState) (hm : d.m = 0) : passEffect cx mem d t = t := if_pos hm

/-- The count of a row after an arrival (R99). -/
theorem passRow_count (cx : DescCtx) (mem : Memory) (row : Bool) (sd : PassSide) (m : Nat) (blk : Block) (old : AccRow) :
    (passRow cx mem row sd m blk old).count = if sd.acc then min (old.count + 1) (2 ^ 24 + 1) else 1 := by
  unfold passRow arriveRow countAfter
  dsimp only
  split <;> rfl

/-- A finite result that arrives without accumulation is stored rounded and flushed (R100, R102). -/
theorem arriveSum_fresh {wick : Bool} {x : TreeRes} {m w : F32} (hv : x.val.isFin = true) (hr : f32IsFin (roundF32 x.val) = true) :
    (arriveSum false wick x m w).1 = flushF32 (roundF32 x.val) := by
  unfold arriveSum
  dsimp only
  rcases hx : x.val with _ | _ | _
  all_goals simp_all [Val.isFin]

theorem passRow_word (cx : DescCtx) (mem : Memory) {row : Bool} {sd : PassSide} {m : Nat} {blk : Block} {old : AccRow} {j : Nat} (hj : j < 128)
    (hacc : sd.acc = false) (hmode : sd.amode = 0) (hmsc : sd.msc = false) (hssc : sd.ssc = false) (hm : sd.mfmt < 8) (hs : sd.sfmt < 8)
    (htag : blk.tag = some ⟨sd.sfmt, false, none⟩)
    (hr : f32IsFin (roundF32 (treeResult (wideFmt sd.mfmt || wideFmt sd.sfmt) (intFmt sd.mfmt && intFmt sd.sfmt) (blk.line row j)
      (movingVec mem sd.mfmt (tileAddr cx.tile sd.mbase) sd.mstride m).1).val) = true)
    (hv : (treeResult (wideFmt sd.mfmt || wideFmt sd.sfmt) (intFmt sd.mfmt && intFmt sd.sfmt) (blk.line row j)
      (movingVec mem sd.mfmt (tileAddr cx.tile sd.mbase) sd.mstride m).1).val.isFin = true) :
    (passRow cx mem row sd m blk old).main.getD j 0 =
      flushF32 (roundF32 (treeResult (wideFmt sd.mfmt || wideFmt sd.sfmt) (intFmt sd.mfmt && intFmt sd.sfmt) (blk.line row j)
        (movingVec mem sd.mfmt (tileAddr cx.tile sd.mbase) sd.mstride m).1).val) := by
  have hgood : tagMismatch blk.tag (fmtOf cx.slotFmt sd.sfmt) sd.ssc row = false := by
    rw [htag, fmtOf_of_lt hs, hssc]
    simp [tagMismatch]
  have hout : (passOuts cx mem row sd m blk)[j]? = some (treeResult (wideFmt sd.mfmt || wideFmt sd.sfmt) (intFmt sd.mfmt && intFmt sd.sfmt)
      (blk.line row j) (movingVec mem sd.mfmt (tileAddr cx.tile sd.mbase) sd.mstride m).1) := by
    unfold passOuts
    rw [List.getElem?_map, List.getElem?_range hj]
    simp [hmsc, hssc, fmtOf_of_lt hm, fmtOf_of_lt hs]
  unfold passRow arriveRow
  simp only [hgood, hacc, hmode, Bool.false_and, Bool.or_false, Bool.false_eq_true, if_false, accMode]
  rw [List.getD_eq_getElem?_getD, List.map_map, List.getElem?_map, List.getElem?_zipIdx, hout]
  exact arriveSum_fresh hv hr

/-! ### The paired pass (R86) -/

theorem passKey_A_lt {sd : PassSide} {m n : Nat} (h : sd.s0 * 128 + sd.q0 + n ≤ 1024) (hm : m < n) : passKey false true sd m < 2048 := by
  unfold passKey accKey b2n
  simp
  omega

theorem passKey_B_ge (sd : PassSide) (m : Nat) : 2048 ≤ passKey true false sd m := by
  unfold passKey accKey b2n
  simp

theorem passKey_A_ne_B {a b : PassSide} {m n k : Nat} (h : a.s0 * 128 + a.q0 + n ≤ 1024) (hm : m < n) : passKey false true a m ≠ passKey true false b k :=
  Nat.ne_of_lt (Nat.lt_of_lt_of_le (passKey_A_lt h hm) (passKey_B_ge b k))

section
variable (cx : DescCtx) (mem : Memory) (kblk : Nat) (a b : PassSide)

/-- Vector by vector, side A before side B: each side's rows hold what its own vectors leave there. -/
theorem foldl_passPair (n : Nat) (ha : a.s0 * 128 + a.q0 + n ≤ 1024) (t : TileState) :
    let t' := (List.range n).foldl (fun tt m => passVector cx mem true false true kblk b m (passVector cx mem false true true kblk a m tt)) t
    PassOnly t t' ∧
      (∀ m, m < n → t'.acc (passKey false true a m) = passRow cx mem true a m t.arrA.stat (t.acc (passKey false true a m))) ∧
      (∀ m, m < n → t'.acc (passKey true false b m) = passRow cx mem false b m t.arrB.stat (t.acc (passKey true false b m))) ∧
      ∀ k, (∀ m, m < n → k ≠ passKey false true a m ∧ k ≠ passKey true false b m) → t'.acc k = t.acc k := by
  induction n with
  | zero => exact ⟨PassOnly.refl t, fun m hm => absurd hm (Nat.not_lt_zero m), fun m hm => absurd hm (Nat.not_lt_zero m), fun _ _ => rfl⟩
  | succ n ih =>
    obtain ⟨honly, hA, hB, hother⟩ := ih (by omega)
    simp only [List.range_succ, List.foldl_append, List.foldl_cons, List.foldl_nil]
    generalize (List.range n).foldl (fun tt m => passVector cx mem true false true kblk b m (passVector cx mem false true true kblk a m tt)) t = t0 at *
    have hstep : ∀ k, (passVector cx mem true false true kblk b n (passVector cx mem false true true kblk a n t0)).acc k =
        if k = passKey true false b n then passRow cx mem false b n t.arrB.stat (t0.acc k)
        else if k = passKey false true a n then passRow cx mem true a n t.arrA.stat (t0.acc k) else t0.acc k := by
      intro k
      rw [passVector_acc, passVector_acc, ((passVector_only cx mem false true true kblk a n t0).arr true), honly.arr, honly.arr]
      by_cases hkB : k = passKey true false b n
      · have hkA : k ≠ passKey false true a n := fun heq => passKey_A_ne_B ha (Nat.lt_succ_self n) (heq.symm.trans hkB)
        rw [if_pos hkB, if_pos hkB, if_neg hkA]
        rfl
      · rw [if_neg hkB, if_neg hkB]
        rfl
    refine ⟨honly.trans ((passVector_only ..).trans (passVector_only ..)), fun m hm => ?_, fun m hm => ?_, fun k hk => ?_⟩
    · rw [hstep, if_neg (passKey_A_ne_B ha hm)]
      by_cases hmn : m = n
      · subst hmn
        rw [if_pos rfl, hother _ (fun j hj => ⟨fun heq => Nat.ne_of_gt hj (passKey_inj _ _ _ heq), passKey_A_ne_B ha hm⟩)]
      · rw [if_neg (fun heq => hmn (passKey_inj _ _ _ heq)), hA m (by omega)]
    · rw [hstep]
      by_cases hmn : m = n
      · subst hmn
        rw [if_pos rfl, hother _ (fun j hj => ⟨fun heq => passKey_A_ne_B ha (Nat.lt_succ_of_lt hj) heq.symm,
          fun heq => Nat.ne_of_gt hj (passKey_inj _ _ _ heq)⟩)]
      · rw [if_neg (fun heq => hmn (passKey_inj _ _ _ heq)), if_neg (fun heq => passKey_A_ne_B ha (Nat.lt_succ_self n) heq.symm), hB m (by omega)]
    · rw [hstep, if_neg (hk n (Nat.lt_succ_self n)).2, if_neg (hk n (Nat.lt_succ_self n)).1, hother k (fun m hm => hk m (Nat.lt_succ_of_lt hm))]

end

/-- A paired pass leaves every row as a pass of side A followed by a pass of side B does. -/
theorem pairedEffect_acc (cx : DescCtx) (mem : Memory) (d : PassD) (t : TileState) (ha : d.a.s0 * 128 + d.a.q0 + d.m ≤ 1024) :
    PassOnly t (pairedEffect cx mem d t) ∧ ∀ k, (pairedEffect cx mem d t).acc k =
      (passEffect cx mem { d with arrays := 2, orient := false } (passEffect cx mem { d with arrays := 1, orient := true } t)).acc k := by
  let dA : PassD := { d with arrays := 1, orient := true }
  let dB : PassD := { d with arrays := 2, orient := false }
  let x := passEffect cx mem dA t
  have hA := passEffect_spec cx mem dA t
  have hB := passEffect_spec cx mem dB x
  have honlyA : PassOnly t x := hA.1
  have hrowsA : ∀ m, m < d.m → x.acc (passKey false true d.a m) = passRow cx mem true d.a m t.arrA.stat (t.acc (passKey false true d.a m)) := hA.2.1
  have hotherA : ∀ k, (∀ m, m < d.m → k ≠ passKey false true d.a m) → x.acc k = t.acc k := hA.2.2
  have hrowsB : ∀ m, m < d.m → (passEffect cx mem dB x).acc (passKey true false d.b m) =
      passRow cx mem false d.b m (x.arr true).stat (x.acc (passKey true false d.b m)) := hB.2.1
  have hotherB : ∀ k, (∀ m, m < d.m → k ≠ passKey true false d.b m) → (passEffect cx mem dB x).acc k = x.acc k := hB.2.2
  show PassOnly t (pairedEffect cx mem d t) ∧ ∀ k, (pairedEffect cx mem d t).acc k = (passEffect cx mem dB x).acc k
  clear_value dA dB
  clear hA hB
  by_cases hm : d.m = 0
  · have hzero : pairedEffect cx mem d t = t := if_pos hm
    rw [hzero]
    exact ⟨PassOnly.refl t, fun k => ((hotherB k (fun m hlt => absurd hlt (by omega))).trans (hotherA k (fun m hlt => absurd hlt (by omega)))).symm⟩
  · unfold pairedEffect
    rw [if_neg hm]
    obtain ⟨honly, hA, hB, hother⟩ := foldl_passPair cx mem d.kblk d.a d.b d.m ha (passBlockReads cx true d.b (passBlockReads cx false d.a t))
    refine ⟨((passBlockReads_only ..).trans (passBlockReads_only ..)).trans honly, fun k => ?_⟩
    by_cases hkB : ∃ m, m < d.m ∧ k = passKey true false d.b m
    · obtain ⟨m, hlt, rfl⟩ := hkB
      refine (hB m hlt).trans (Eq.trans ?_ (hrowsB m hlt).symm)
      rw [honlyA.arr]
      exact congrArg (passRow cx mem false d.b m _) (hotherA _ (fun j hj heq => passKey_A_ne_B ha hj heq.symm)).symm
    · have hnotB : ∀ m, m < d.m → k ≠ passKey true false d.b m := fun m hlt heq => hkB ⟨m, hlt, heq⟩
      refine Eq.trans ?_ (hotherB k hnotB).symm
      by_cases hkA : ∃ m, m < d.m ∧ k = passKey false true d.a m
      · obtain ⟨m, hlt, rfl⟩ := hkA
        exact (hA m hlt).trans (hrowsA m hlt).symm
      · have hnotA : ∀ m, m < d.m → k ≠ passKey false true d.a m := fun m hlt heq => hkA ⟨m, hlt, heq⟩
        exact (hother k (fun m hlt => ⟨hnotA m hlt, hnotB m hlt⟩)).trans (hotherA k hnotA).symm

/-! ### The rows -/

section
variable {s : State} {u : Issuer} {h : DHdr} {d : PassD}

/-- A row that changes the accumulators and the numeric status of its own tile. -/
theorem unitDone_passOnly {k : DKind} {g : TileState → TileState} (hg : PassOnly (tileOf s u) (g (tileOf s u))) :
    let t := unitDone s u k h (s.modTile u.tile.val g)
    ActedOnce s t u k h ∧ t = { s with tiles := t.tiles, fields := t.fields } ∧ CapsOnly s t ∧
      tileOf t u = { tileOf s u with queues := (tileOf t u).queues, accs := (tileOf t u).accs, meter := (tileOf t u).meter } ∧
      (∀ key, (tileOf t u).acc key = (g (tileOf s u)).acc key) ∧ (tileOf t u).accs = (g (tileOf s u)).accs ∧
      (tileOf t u).meter = (g (tileOf s u)).meter := by
  have htile : tileOf (s.modTile u.tile.val g) u = g (tileOf s u) := by
    unfold tileOf
    rw [modTile_tile, if_pos rfl]
  have hdone := unitDone_tile (s := s) (s1 := s.modTile u.tile.val g) (u := u) (k := k) (h := h)
  rw [htile] at hdone
  have hacted : ActedOnce s (unitDone s u k h (s.modTile u.tile.val g)) u k h :=
    unitDone_acted ((congrArg TileState.queues htile).trans hg.queues) (fun n hn => (modTile_tile ..).trans (if_neg hn))
  have honly := unitDone_only (s := s) (s1 := s.modTile u.tile.val g) (u := u) (k := k) (h := h)
  have hcaps := unitDone_capsOnly (s := s) (s1 := s.modTile u.tile.val g) (u := u) (k := k) (h := h)
  generalize unitDone s u k h (s.modTile u.tile.val g) = t at *
  unfold PassOnly at hg
  generalize g (tileOf s u) = y at *
  refine ⟨hacted, honly, hcaps, ?_, fun key => ?_, ?_, ?_⟩
  · rw [hdone, hg]
  · rw [hdone]; rfl
  · rw [hdone]
  · rw [hdone]

theorem exec_pass (hr : unitReady s u (.pass d) h = true) (hd : d.arrays ≠ 3) :
    exec (.pass u h d) s = .next (unitDone s u (.pass d) h
      (s.modTile u.tile.val (fun t => passEffect (s.descCtx u { hdr := h, kind := .pass d }) s.mem d t))) := by
  show execPass u h d s = _
  unfold execPass
  rw [if_neg hd, runUnit_of_ready hr]
  rfl

theorem exec_pairedPass (hr : unitReady s u (.pass d) h = true) (hd : d.arrays = 3) :
    exec (.pairedPass u h d) s = .next (unitDone s u (.pass d) h
      (s.modTile u.tile.val (fun t => pairedEffect (s.descCtx u { hdr := h, kind := .pass d }) s.mem d t))) := by
  show execPairedPass u h d s = _
  unfold execPairedPass
  rw [hd, if_neg (by decide), runUnit_of_ready hr]
  rfl

/-- The rows of side A lie in one orientation of its array (R75). -/
theorem passSideA_fits (hr : unitReady s u (.pass d) h = true) (hd : d.arrays = 3) : d.a.s0 * 128 + d.a.q0 + d.m ≤ 1024 := by
  have := unitReady_kindChecks hr (dkValue (d.a.s0 * 128 + d.a.q0 + d.m ≤ 1024) 8) (by
    have huses : passUsesA d = true := by unfold passUsesA; rw [hd]; rfl
    simp [State.kindChecks, huses, sideChecks])
  simpa [dkValue] using this

end

/-- Settles O18, by the row that each vector arrives in. -/
theorem passAccumulates : Obligations.PassAccumulates := by
  unfold Obligations.PassAccumulates
  refine ⟨fun s u h d hr hd => ?single, fun s u h d hr hd => ?paired⟩
  case single =>
    obtain ⟨hpass, hrows, hother⟩ := passEffect_spec (s.descCtx u { hdr := h, kind := .pass d }) s.mem d (tileOf s u)
    obtain ⟨hacted, honly, hcaps, htile, hacc, haccs, hmeter⟩ := unitDone_passOnly (h := h) (k := .pass d) hpass
    refine ⟨_, exec_pass hr hd, hacted, honly, hcaps, htile, fun hm => ?_, fun k hk => ?_, fun m hm => ?_, ?_⟩
    · rw [haccs, hmeter, passEffect_zero _ _ _ hm]
      exact ⟨rfl, rfl⟩
    · exact (hacc k).trans (hother k hk)
    · exact (congrArg AccRow.count ((hacc _).trans (hrows m hm))).trans (passRow_count ..)
    · intro m j hm hj hsum hmode hmsc hssc hmf hsf blk v htag hr hv
      refine (congrArg (fun r => AccRow.main r |>.getD j 0) ((hacc _).trans (hrows m hm))).trans ?_
      exact passRow_word _ _ hj hsum hmode hmsc hssc hmf hsf htag hr hv
  case paired =>
    obtain ⟨hpass, hrows⟩ := pairedEffect_acc (s.descCtx u { hdr := h, kind := .pass d }) s.mem d (tileOf s u) (passSideA_fits hr hd)
    obtain ⟨hacted, honly, hcaps, htile, hacc, -, -⟩ := unitDone_passOnly (h := h) (k := .pass d) hpass
    exact ⟨_, exec_pairedPass hr hd, hacted, honly, hcaps, htile, fun k => (hacc k).trans (hrows k)⟩

end Sys2Proof.Proofs
end

section
/-! PROOFS. DRAIN: rows of bytes in memory, and the rows it reads. -/

namespace Sys2Proof.Proofs

open Sys2Proof.Machine Sys2Proof.Laws

/-! ### Rows of bytes -/

theorem memReadNat_congr {m m' : Memory} {a n : Nat} (h : ∀ i, i < n → memRead m (a + i) = memRead m' (a + i)) : memReadNat m a n = memReadNat m' a n := by
  unfold memReadNat memReadBytes
  congr 1
  exact List.map_congr_left (fun i hi => h i (List.mem_range.mp hi))

theorem length_flatMap_leBytes (n : Nat) (codes : List Nat) : (codes.flatMap (leBytes n)).length = n * codes.length := by
  induction codes with
  | nil => rfl
  | cons c cs ih => rw [List.flatMap_cons, List.length_append, ih, length_leBytes, List.length_cons, Nat.mul_succ, Nat.add_comm]

/-- A word of a written row reads back. -/
theorem memReadNat_writeCodes (m : Memory) (hm : Memory.wf m = true) (a : Nat) {codes : List Nat} {c : Nat} (hc : c < codes.length) :
    memReadNat (memWriteBytes m a (codes.flatMap (leBytes 4))) (a + 4 * c) 4 = codes.getD c 0 % 2 ^ 32 := by
  have hsplit : codes.flatMap (leBytes 4) = (codes.take c).flatMap (leBytes 4) ++ leBytes 4 codes[c] ++ (codes.drop (c + 1)).flatMap (leBytes 4) := by
    conv_lhs => rw [← List.take_append_drop c codes, List.drop_eq_getElem_cons hc]
    rw [List.flatMap_append, List.flatMap_cons, List.append_assoc]
  have hpre : ((codes.take c).flatMap (leBytes 4)).length = 4 * c := by
    rw [length_flatMap_leBytes, List.length_take, Nat.min_eq_left (by omega)]
  have := memReadNat_memWriteBytes m hm a 4 codes[c] ((codes.take c).flatMap (leBytes 4)) ((codes.drop (c + 1)).flatMap (leBytes 4))
  rw [hsplit, ← hpre, this, List.getD_eq_getElem _ _ hc]
  norm_num

/-- `n` rows of bytes, written one after another at a stride. -/
def writeRows (base stride n : Nat) (row : Nat → List Byte) (m : Memory) : Memory :=
  (List.range n).foldl (fun mm q => memWriteBytes mm (base + q * stride) (row q)) m

theorem writeRows_succ (base stride n : Nat) (row : Nat → List Byte) (m : Memory) :
    writeRows base stride (n + 1) row m = memWriteBytes (writeRows base stride n row m) (base + n * stride) (row n) := by
  unfold writeRows
  rw [List.range_succ, List.foldl_append]
  rfl

section
variable {base stride len : Nat} {row : Nat → List Byte}

theorem wf_writeRows (n : Nat) {m : Memory} (hm : Memory.wf m = true) : Memory.wf (writeRows base stride n row m) = true := by
  induction n with
  | zero => exact hm
  | succ n ih => rw [writeRows_succ]; exact wf_memWriteBytes _ _ _ ih

theorem outsideRows_writeRows {n : Nat} {m : Memory} (hlen : ∀ q, q < n → (row q).length ≤ len) : OutsideRows m (writeRows base stride n row m) base stride n len := by
  induction n with
  | zero => exact fun _ _ => rfl
  | succ n ih =>
    intro a ha
    have hn := ha n (Nat.lt_succ_self n)
    have hl := hlen n (Nat.lt_succ_self n)
    rw [writeRows_succ, memRead_memWriteBytes_outside _ _ _ _ (by omega)]
    exact ih (fun q hq => hlen q (Nat.lt_succ_of_lt hq)) a (fun i hi => ha i (Nat.lt_succ_of_lt hi))

/-- Rows that do not overlap read as they were written. -/
theorem memRead_writeRows {n : Nat} {m : Memory} (hm : Memory.wf m = true) (hlen : ∀ q, q < n → (row q).length = len) (hdis : len ≤ stride ∨ n ≤ 1)
    {q j : Nat} (hq : q < n) (hj : j < len) : memRead (writeRows base stride n row m) (base + q * stride + j) = (row q).getD j 0 := by
  induction n with
  | zero => exact absurd hq (Nat.not_lt_zero q)
  | succ n ih =>
    rw [writeRows_succ]
    by_cases hqn : q = n
    · subst hqn
      exact memRead_memWriteBytes _ _ _ _ (wf_writeRows _ hm) (by rw [hlen q hq]; exact hj)
    · have hstride : len ≤ stride := by omega
      have hrow : q * stride + stride ≤ n * stride := by
        rw [← Nat.succ_mul]
        exact Nat.mul_le_mul_right _ (by omega)
      rw [memRead_memWriteBytes_outside _ _ _ _ (by omega)]
      exact ih (fun q hq => hlen q (Nat.lt_succ_of_lt hq)) (.inl hstride) (by omega)

end

/-- Word `c` of row `q` of written F32 codes. -/
theorem memReadNat_writeRows {base stride n : Nat} {codes : Nat → List Nat} {m : Memory} (hm : Memory.wf m = true)
    (hlen : ∀ q, q < n → (codes q).length = 128) (hdis : 512 ≤ stride ∨ n ≤ 1) {q c : Nat} (hq : q < n) (hc : c < 128) :
    memReadNat (writeRows base stride n (fun q => (codes q).flatMap (leBytes 4)) m) (base + q * stride + 4 * c) 4 = (codes q).getD c 0 % 2 ^ 32 := by
  have hl : ∀ q, q < n → ((codes q).flatMap (leBytes 4)).length = 512 := fun q hq => by rw [length_flatMap_leBytes, hlen q hq]
  rw [← memReadNat_writeCodes m hm (base + q * stride) (codes := codes q) (by rw [hlen q hq]; exact hc)]
  refine memReadNat_congr (fun i hi => ?_)
  rw [Nat.add_assoc _ (4 * c), memRead_writeRows hm hl hdis hq (by omega), memRead_memWriteBytes _ _ _ _ hm (by rw [hl q hq]; omega)]

/-! ### One row of a DRAIN -/

/-- Only the accumulators, the numeric status, the histograms and the lanes of a tile differ. -/
def DrainOnly (x y : TileState) : Prop := y = { x with accs := y.accs, meter := y.meter, hist := y.hist, lanes := y.lanes }

theorem DrainOnly.refl (x : TileState) : DrainOnly x x := rfl

theorem DrainOnly.trans {x y z : TileState} (h : DrainOnly x y) (k : DrainOnly y z) : DrainOnly x z := by
  unfold DrainOnly at h k ⊢
  rw [k, h]

theorem DrainOnly.queues {x y : TileState} (h : DrainOnly x y) : y.queues = x.queues := by
  unfold DrainOnly at h
  generalize y.accs = a, y.meter = m, y.hist = b, y.lanes = l at h
  rw [h]

/-- Counting values into a histogram changes the counters and the status. -/
theorem foldl_histAdd (slot tag : Nat) (vs : List F32) (t : TileState) :
    ∃ hist meter, vs.foldl (histAdd slot tag) t = { t with hist := hist, meter := meter } := by
  induction vs generalizing t with
  | nil => exact ⟨t.hist, t.meter, rfl⟩
  | cons v vs ih =>
    obtain ⟨hist, meter, h⟩ := ih (histAdd slot tag t v)
    exact ⟨hist, meter, by rw [List.foldl_cons, h]; rfl⟩

theorem smxRow_tile (cx : DescCtx) (loc : Locus) (d : DrainD) (q : Nat) (vs : List F32) (mt : Memory × TileState) :
    ∃ meter, (smxRow cx loc d q vs mt).2 = { mt.2 with meter := meter } := ⟨_, rfl⟩

section
variable (cx : DescCtx) (d : DrainD)

/-- The tile after one row: the row is cleared when asked, and nothing else but status, histograms and lanes changes. -/
theorem drainRow_tile (mt : Memory × TileState) (q : Nat) :
    DrainOnly mt.2 (drainRow cx d mt q).2 ∧ (drainRow cx d mt q).2.accs = (if d.src.clear then smapErase mt.2.accs (rowsKey d.src q) else mt.2.accs) ∧
      (d.hist = false → (drainRow cx d mt q).2.hist = mt.2.hist) := by
  unfold drainRow
  dsimp only
  generalize (readRow cx.exact d.msel (mt.2.acc (rowsKey d.src q))) = rd
  generalize Locus.mk cx.tile _ _ _ _ _ _ _ _ _ _ _ = loc
  have hhist : ∃ hist meter, (if d.hist then (rd.map Prod.fst).foldl (histAdd d.hslot cx.htag) mt.2 else mt.2) = { mt.2 with hist := hist, meter := meter } ∧
      (d.hist = false → hist = mt.2.hist) := by
    by_cases hh : d.hist = true
    · obtain ⟨hist, meter, h⟩ := foldl_histAdd d.hslot cx.htag (rd.map Prod.fst) mt.2
      exact ⟨hist, meter, by rw [if_pos hh, h], fun h' => absurd hh (by simp [h'])⟩
    · exact ⟨mt.2.hist, mt.2.meter, if_neg hh, fun _ => rfl⟩
  obtain ⟨hist, meter, h, hsame⟩ := hhist
  rw [h]
  have hsmx : ∃ meter', (if d.smx then smxRow cx loc d q (rd.map Prod.fst) (mt.1, { mt.2 with hist := hist, meter := meter })
      else (mt.1, { mt.2 with hist := hist, meter := meter })).2 = { mt.2 with hist := hist, meter := meter' } := by
    split
    · obtain ⟨meter', h'⟩ := smxRow_tile cx loc d q (rd.map Prod.fst) (mt.1, { mt.2 with hist := hist, meter := meter })
      exact ⟨meter', h'⟩
    · exact ⟨meter, rfl⟩
  obtain ⟨meter', h'⟩ := hsmx
  rw [h']
  unfold clearRow
  refine ⟨?_, ?_, fun hh => ?_⟩
  · split <;> rfl
  · split <;> rfl
  · rw [← hsame hh]
    split <;> rfl

/-- The rows a DRAIN reads lie apart from each other. -/
theorem rowsKey_inj (s : RowsD) {m n : Nat} (h : rowsKey s m = rowsKey s n) : m = n := by
  unfold rowsKey accKey at h
  omega

/-- The tile after the rows of a DRAIN. -/
theorem foldl_drainRow_tile (n : Nat) (mt : Memory × TileState) :
    let t := ((List.range n).foldl (drainRow cx d) mt).2
    DrainOnly mt.2 t ∧ (∀ k, t.acc k = if d.src.clear = true ∧ ∃ q, q < n ∧ k = rowsKey d.src q then {} else mt.2.acc k) ∧
      (d.hist = false → t.hist = mt.2.hist) := by
  induction n with
  | zero => exact ⟨DrainOnly.refl _, fun k => (if_neg (fun h => by obtain ⟨-, q, hq, -⟩ := h; omega)).symm, fun _ => rfl⟩
  | succ n ih =>
    obtain ⟨honly, hacc, hhist⟩ := ih
    simp only [List.range_succ, List.foldl_append, List.foldl_cons, List.foldl_nil]
    obtain ⟨honly', haccs, hhist'⟩ := drainRow_tile cx d ((List.range n).foldl (drainRow cx d) mt) n
    refine ⟨honly.trans honly', fun k => ?_, fun hh => (hhist' hh).trans (hhist hh)⟩
    have hk := hacc k
    unfold TileState.acc at hk ⊢
    rw [haccs]
    by_cases hc : d.src.clear = true
    · rw [if_pos hc, smapGet_smapErase]
      by_cases hkn : k = rowsKey d.src n
      · rw [if_pos hkn, if_pos ⟨hc, n, Nat.lt_succ_self n, hkn⟩]
      · rw [if_neg hkn, hk]
        refine if_congr ⟨fun ⟨_, q, hq, hkq⟩ => ⟨hc, q, Nat.lt_succ_of_lt hq, hkq⟩, fun ⟨_, q, hq, hkq⟩ => ⟨hc, q, ?_, hkq⟩⟩ rfl rfl
        exact Nat.lt_of_le_of_ne (Nat.le_of_lt_succ hq) (fun h => hkn (h ▸ hkq))
    · rw [if_neg hc, hk, if_neg (fun h => hc h.1), if_neg (fun h => hc h.1)]

/-! ### The words of a plain F32 output -/

/-- The codes of one row of an F32 output without activation. -/
def plainCodes (exact : Bool) (r : AccRow) : List Nat :=
  (List.range 128).map (fun c => (convertElem 0 d.ovf none (f32Val (readWord exact d.msel r c).1)).1)

theorem length_plainCodes (exact : Bool) (r : AccRow) : (plainCodes d exact r).length = 128 := by simp [plainCodes]

theorem getD_drawAll_off (lanes : List (BitVec 64)) (i : Nat) : (drawAll false lanes).1.getD i none = none := by
  show (lanes.map (fun _ => (none : Option Nat))).getD i none = none
  rw [List.getD_eq_getElem?_getD, List.getElem?_map]
  cases lanes[i]? <;> rfl

theorem actWord_none (alpha : F32) (p : F32 × Cls) : (actWord 0 alpha p).1 = p.1 := by
  unfold actWord
  dsimp only
  split <;> rfl

theorem codes_of_outVec (act : Nat) (vals : List (F32 × Cls)) (xs : List F32) (rnd ovf : Bool) (lanes : List (BitVec 64)) :
    (outVec 0 act rnd ovf false false vals xs lanes).conv.codes = vals.map (fun p => (convertElem 0 ovf none (f32Val p.1)).1) ∧
      (outVec 0 act rnd ovf false false vals xs lanes).conv.rowScale = none ∧ (outVec 0 act rnd ovf false false vals xs lanes).slopes = [] := by
  have hoff : (rnd && (0 : Nat) != 0) = false := by simp
  unfold outVec
  dsimp only
  rw [hoff]
  refine ⟨?_, rfl, rfl⟩
  show List.map Prod.fst (List.map (fun p : Val × Nat => convertElem 0 ovf ((drawAll false lanes).1.getD p.2 none) p.1) (vals.map (fun p => f32Val p.1)).zipIdx) = _
  simp only [getD_drawAll_off]
  rw [List.map_map]
  have : (Prod.fst ∘ fun p : Val × Nat => convertElem 0 ovf none p.1) = (fun v => (convertElem 0 ovf none v).1) ∘ Prod.fst := rfl
  rw [this, ← List.map_map, List.zipIdx_map_fst, List.map_map]
  rfl

/-- A vector in F32 is written as its words. -/
theorem writeVec_f32 (mem : Memory) (base stride m : Nat) (scales codes : List Nat) :
    writeVec mem 0 base stride m scales codes = memWriteBytes mem (base + m * stride) (codes.flatMap (leBytes 4)) := by
  unfold writeVec
  rw [if_neg (by decide)]
  rfl

theorem drainRow_mem (hfmt : d.ofmt = 0) (hact : d.act = 0) (hslope : d.slope = false) (hsmx : d.smx = false) (hscale : d.oscale = false)
    (mt : Memory × TileState) (q : Nat) : (drainRow cx d mt q).1 =
      memWriteBytes mt.1 (tileAddr cx.tile d.obase + q * d.ostride) ((plainCodes d cx.exact (mt.2.acc (rowsKey d.src q))).flatMap (leBytes 4)) := by
  unfold drainRow
  dsimp only
  have hf : fmtOf cx.slotFmt d.ofmt = 0 := by rw [hfmt]; rfl
  rw [hf, hact, hslope, hsmx, hscale]
  simp only [Bool.false_eq_true, if_false]
  generalize lanesOr _ = lanes
  obtain ⟨hcodes, hrow, hslopes⟩ := codes_of_outVec 0 ((readRow cx.exact d.msel (mt.2.acc (rowsKey d.src q))).map (actWord 0 d.alpha))
    ((readRow cx.exact d.msel (mt.2.acc (rowsKey d.src q))).map Prod.fst) d.rnd d.ovf lanes
  generalize outVec 0 0 d.rnd d.ovf false false _ _ lanes = o at *
  unfold writeOut
  dsimp only
  rw [hrow, hslopes, hcodes, writeVec_f32, if_pos List.isEmpty_nil]
  dsimp only
  refine congrArg (fun codes => memWriteBytes mt.1 (tileAddr cx.tile d.obase + q * d.ostride) (List.flatMap (leBytes 4) codes)) ?_
  unfold plainCodes readRow
  rw [List.map_map, List.map_map]
  refine List.map_congr_left (fun c _ => ?_)
  show (convertElem 0 d.ovf none (f32Val (actWord 0 d.alpha (readWord cx.exact d.msel _ c)).1)).1 = _
  rw [actWord_none]

theorem foldl_drainRow_mem (hfmt : d.ofmt = 0) (hact : d.act = 0) (hslope : d.slope = false) (hsmx : d.smx = false) (hscale : d.oscale = false)
    (n : Nat) (mt : Memory × TileState) : ((List.range n).foldl (drainRow cx d) mt).1 =
      writeRows (tileAddr cx.tile d.obase) d.ostride n (fun q => (plainCodes d cx.exact (mt.2.acc (rowsKey d.src q))).flatMap (leBytes 4)) mt.1 := by
  induction n with
  | zero => rfl
  | succ n ih =>
    rw [writeRows_succ, List.range_succ, List.foldl_append, List.foldl_cons, List.foldl_nil, drainRow_mem cx d hfmt hact hslope hsmx hscale, ih,
      (foldl_drainRow_tile cx d n mt).2.1, if_neg]
    rintro ⟨-, q, hq, heq⟩
    exact Nat.ne_of_gt hq (rowsKey_inj _ heq)

end

/-! ### The row -/

theorem onTile_tile (s : State) (t : Nat) (g : Memory × TileState → Memory × TileState) (n : Nat) :
    (s.onTile t g).tile n = if n = t then (g (s.mem, s.tile t)).2 else s.tile n := setTile_tile ..

theorem exec_drain {s : State} {u : Issuer} {h : DHdr} {d : DrainD} (hr : unitReady s u (.drain d) h = true) :
    exec (.drain u h d) s = .next (unitDone s u (.drain d) h
      (s.onTile u.tile.val (drainEffect (s.descCtx u { hdr := h, kind := .drain d }) d))) := by
  show execDrain u h d s = _
  unfold execDrain
  rw [runUnit_of_ready hr]
  rfl

/-- What a row that works on memory and its own tile leaves, its queues apart. -/
theorem unitDone_onTile {s : State} {u : Issuer} {k : DKind} {h : DHdr} {g : Memory × TileState → Memory × TileState}
    (hq : (g (s.mem, tileOf s u)).2.queues = (tileOf s u).queues) :
    let t := unitDone s u k h (s.onTile u.tile.val g)
    ActedOnce s t u k h ∧ t = { s with mem := t.mem, tiles := t.tiles, fields := t.fields } ∧ CapsOnly s t ∧
      t.mem = (g (s.mem, tileOf s u)).1 ∧ tileOf t u = { (g (s.mem, tileOf s u)).2 with queues := (tileOf t u).queues } := by
  have htile : tileOf (s.onTile u.tile.val g) u = (g (s.mem, tileOf s u)).2 := (onTile_tile ..).trans (if_pos rfl)
  have hdone := unitDone_tile (s := s) (s1 := s.onTile u.tile.val g) (u := u) (k := k) (h := h)
  rw [htile] at hdone
  have hacted : ActedOnce s (unitDone s u k h (s.onTile u.tile.val g)) u k h :=
    unitDone_acted ((congrArg TileState.queues htile).trans hq) (fun n hn => (onTile_tile ..).trans (if_neg hn))
  have honly := unitDone_only (s := s) (s1 := s.onTile u.tile.val g) (u := u) (k := k) (h := h)
  have hcaps := unitDone_capsOnly (s := s) (s1 := s.onTile u.tile.val g) (u := u) (k := k) (h := h)
  have hmem := unitDone_mem (s := s) (s1 := s.onTile u.tile.val g) (u := u) (k := k) (h := h)
  generalize unitDone s u k h (s.onTile u.tile.val g) = t at *
  refine ⟨hacted, ?_, hcaps, hmem, ?_⟩
  · rw [hmem]
    exact honly
  · rw [hdone]

/-- Settles O19, by the rows that a DRAIN reads and writes. -/
theorem drainWritesItsRows : Obligations.DrainWritesItsRows := by
  unfold Obligations.DrainWritesItsRows
  intro s u h d hmem hr
  have hexec := exec_drain hr
  obtain ⟨honly, hacc, hhist⟩ := foldl_drainRow_tile (s.descCtx u { hdr := h, kind := .drain d }) d d.src.nrows (s.mem, tileOf s u)
  have hplain := fun hfmt hact hslope hsmx hscale =>
    foldl_drainRow_mem (s.descCtx u { hdr := h, kind := .drain d }) d hfmt hact hslope hsmx hscale d.src.nrows (s.mem, tileOf s u)
  have hnone : d.src.nrows = 0 → (List.range d.src.nrows).foldl (drainRow (s.descCtx u { hdr := h, kind := .drain d }) d) (s.mem, tileOf s u) =
      (s.mem, tileOf s u) := fun h0 => by rw [h0]; rfl
  obtain ⟨hacted, hstate, hcaps, htmem, htile⟩ := unitDone_onTile (k := .drain d) (h := h)
    (g := drainEffect (s.descCtx u { hdr := h, kind := .drain d }) d) honly.queues
  generalize unitDone s u (.drain d) h (s.onTile u.tile.val (drainEffect (s.descCtx u { hdr := h, kind := .drain d }) d)) = t at *
  unfold drainEffect at htmem htile
  generalize (List.range d.src.nrows).foldl (drainRow (s.descCtx u { hdr := h, kind := .drain d }) d) (s.mem, tileOf s u) = r at *
  have hb : ∀ k, (tileOf t u).acc k = r.2.acc k := fun k => by rw [htile]; rfl
  refine ⟨t, hexec, hacted, hstate, hcaps, ?_, fun h0 => ?_, fun k hk => ?_, fun hc q hq => ?_, fun hh => ?_, fun hfmt hact hslope hsmx hscale hdis => ?_⟩
  · rw [htile]
    unfold DrainOnly at honly
    generalize r.2 = y at *
    rw [honly]
  · rw [htile, htmem, hnone h0]
    exact ⟨rfl, rfl, rfl⟩
  · rw [hb, hacc, if_neg]
    rintro ⟨hc, q, hq, heq⟩
    rcases hk with hk | hk
    · exact hk q hq heq
    · exact absurd hc (by simp [hk])
  · rw [hb, hacc, if_pos ⟨hc, q, hq, rfl⟩]
  · rw [htile]
    exact hhist hh
  · rw [htmem, hplain hfmt hact hslope hsmx hscale]
    refine ⟨fun q c hq hc => ?_, outsideRows_writeRows (fun q _ => by rw [length_flatMap_leBytes, length_plainCodes])⟩
    have haddr : tileAddr u.tile.val (d.obase + q * d.ostride + 4 * c) = tileAddr u.tile.val d.obase + q * d.ostride + 4 * c := by
      unfold tileAddr
      omega
    rw [haddr, show (s.descCtx u { hdr := h, kind := .drain d }).tile = u.tile.val from rfl, memReadNat_writeRows (codes := fun q => plainCodes d
      (s.descCtx u { hdr := h, kind := .drain d }).exact ((s.mem, tileOf s u).2.acc (rowsKey d.src q))) hmem.1 (fun q _ => length_plainCodes ..) hdis hq hc]
    unfold plainCodes
    rw [List.getD_eq_getElem?_getD, List.getElem?_map, List.getElem?_range hc]
    rfl

end Sys2Proof.Proofs
end

section
/-! PROOFS. The row engine: what its operations change. -/

namespace Sys2Proof.Proofs

open Sys2Proof.Machine Sys2Proof.Laws

/-! ### Status of a field -/

/-- Only the fields and what goes out over the Reilo link differ. -/
def OnlyFields (s t : State) : Prop := t = { s with fields := t.fields, host := t.host, hostMem := t.hostMem, outbox := t.outbox }

theorem OnlyFields.refl (s : State) : OnlyFields s s := rfl

theorem OnlyFields.trans {s t u : State} (h : OnlyFields s t) (k : OnlyFields t u) : OnlyFields s u := by
  unfold OnlyFields at h k ⊢
  rw [k, h]

theorem onlyFields_modFld (s : State) (f : Nat) (g : Field → Field) : OnlyFields s (s.modFld f g) := rfl

theorem onlyFields_modMeter (s : State) (f : Nat) (g : Meter → Meter) : OnlyFields s (s.modMeter f g) := rfl

theorem onlyFields_of_events {s t : State} (h : OnlyEvents s t) : OnlyFields s t := by
  unfold OnlyFields
  rw [h.1]

theorem onlyFields_fieldMeter (s : State) (f : Nat) (g : Meter → Meter) : OnlyFields s (s.fieldMeter f g) := by
  unfold State.fieldMeter
  dsimp only
  refine OnlyFields.trans ?_ (onlyFields_of_events (onlyEvents_numericEvents _ _ _))
  split
  · exact onlyFields_modMeter ..
  · split
    · exact (onlyFields_modMeter ..).trans (onlyFields_modFld ..)
    · exact onlyFields_modMeter ..

/-! ### One row -/

/-- A relation that a step of a fold keeps holds between its start and its end. -/
theorem foldl_rel {α β : Type} {R : α → α → Prop} (hrefl : ∀ a, R a a) (htrans : ∀ a b c, R a b → R b c → R a c) (f : α → β → α)
    (hstep : ∀ a x, R a (f a x)) (l : List β) (a : α) : R a (l.foldl f a) := by
  induction l generalizing a with
  | nil => exact hrefl a
  | cons x l ih => exact htrans _ _ _ (hstep a x) (ih _)

/-- What a part of a ROW operation leaves, when it works on record `k`: everything of the tile but side memory and status, every other record,
and memory unless it writes an output. -/
structure RowKeeps (op k : Nat) (a b : RowRes) : Prop where
  tile : b.tile = { a.tile with side := b.tile.side, meter := b.tile.meter }
  record : ∀ j, j ≠ k → b.tile.record j = a.tile.record j
  mem : rowWrites op = false → b.mem = a.mem

theorem RowKeeps.refl (op k : Nat) (a : RowRes) : RowKeeps op k a a := ⟨rfl, fun _ _ => rfl, fun _ => rfl⟩

theorem RowKeeps.trans {op k : Nat} {a b c : RowRes} (h : RowKeeps op k a b) (g : RowKeeps op k b c) : RowKeeps op k a c :=
  ⟨by rw [g.tile, h.tile], fun j hj => (g.record j hj).trans (h.record j hj), fun hw => (g.mem hw).trans (h.mem hw)⟩

theorem record_setRec (t : TileState) (k j : Nat) (r : SideRec) : (t.setRec k r).record j = if j = k then r else t.record j := smapGet_smapSet ..

section
variable (cx : DescCtx) (op : Nat) (d : RowD)

theorem rowBlock_keeps (i : Nat) (rr : RowRes) (j : Nat) : RowKeeps op (d.q0 + i) rr (rowBlock cx op d i rr j) := by
  unfold rowBlock
  dsimp only
  generalize rowRecord op d _ _ _ _ _ = upd
  generalize Meter.words _ _ upd.cls = m2
  split
  case isTrue hw =>
    exact ⟨rfl, fun n hn => (record_setRec ..).trans (if_neg hn), fun h => absurd hw (by simp [h])⟩
  case isFalse => exact ⟨rfl, fun n hn => (record_setRec ..).trans (if_neg hn), fun _ => rfl⟩

theorem rowMismatch_keeps (i : Nat) (rr : RowRes) : RowKeeps op (d.q0 + i) rr (rowMismatch cx op d i rr) := by
  unfold rowMismatch
  dsimp only
  generalize poisonRec _ _ _ _ = p
  generalize Meter.words _ _ _ = m1
  have hrec : RowKeeps op (d.q0 + i) rr { rr with tile := { rr.tile.setRec (d.q0 + i) p.1 with meter := m1 } } :=
    ⟨rfl, fun n hn => (record_setRec ..).trans (if_neg hn), fun _ => rfl⟩
  split
  case isTrue hw =>
    refine hrec.trans (foldl_rel (R := RowKeeps op (d.q0 + i)) (RowKeeps.refl _ _) (fun _ _ _ => RowKeeps.trans) _ (fun a j => ?_) _ _)
    exact ⟨rfl, fun _ _ => rfl, fun h => absurd hw (by simp [h])⟩
  case isFalse => exact hrec

theorem rowOne_keeps (rr : RowRes) (i : Nat) : RowKeeps op (d.q0 + i) rr (rowOne cx op d rr i) := by
  unfold rowOne
  dsimp only
  generalize rowFirst _ _ _ _ _ _ = r1
  generalize Meter.words _ _ _ = m1
  split
  case isTrue =>
    refine RowKeeps.trans (b := { rr with tile := { rr.tile.setRec (d.q0 + i) r1 with meter := m1 } })
      ⟨rfl, fun n hn => (record_setRec ..).trans (if_neg hn), fun _ => rfl⟩ ?_
    exact foldl_rel (R := RowKeeps op (d.q0 + i)) (RowKeeps.refl _ _) (fun _ _ _ => RowKeeps.trans) _ (fun a j => rowBlock_keeps cx op d i a j) _ _
  case isFalse => exact rowMismatch_keeps ..

/-- A record whose tag an operation without output does not allow is poisoned (R137). -/
theorem rowOne_mismatch (rr : RowRes) (i : Nat) (hw : rowWrites op = false) (htag : tagAllowed op d.first d.rms (rr.tile.record (d.q0 + i)).tag = false) :
    (rowOne cx op d rr i).tile.record (d.q0 + i) = (poisonRec op d.first d.rms (rr.tile.record (d.q0 + i))).1 := by
  unfold rowOne
  dsimp only
  rw [if_neg (by simp [htag])]
  unfold rowMismatch
  dsimp only
  rw [if_neg (by simp [hw])]
  exact (record_setRec ..).trans (if_pos rfl)

/-! ### The rows -/

theorem foldl_rowOne (n : Nat) (rr : RowRes) :
    let b := (List.range n).foldl (rowOne cx op d) rr
    b.tile = { rr.tile with side := b.tile.side, meter := b.tile.meter } ∧ (∀ k, k < d.q0 ∨ d.q0 + n ≤ k → b.tile.record k = rr.tile.record k) ∧
      (rowWrites op = false → b.mem = rr.mem) ∧
      (rowWrites op = false → ∀ i, i < n → tagAllowed op d.first d.rms (rr.tile.record (d.q0 + i)).tag = false →
        b.tile.record (d.q0 + i) = (poisonRec op d.first d.rms (rr.tile.record (d.q0 + i))).1) := by
  induction n with
  | zero => exact ⟨rfl, fun _ _ => rfl, fun _ => rfl, fun _ i hi => absurd hi (Nat.not_lt_zero i)⟩
  | succ n ih =>
    obtain ⟨htile, hrec, hmem, hpoison⟩ := ih
    simp only [List.range_succ, List.foldl_append, List.foldl_cons, List.foldl_nil]
    generalize (List.range n).foldl (rowOne cx op d) rr = b at *
    have hk := rowOne_keeps cx op d b n
    refine ⟨by rw [hk.tile, htile], fun k hk' => ?_, fun hw => (hk.mem hw).trans (hmem hw), fun hw i hi htag => ?_⟩
    · exact (hk.record k (by omega)).trans (hrec k (by omega))
    · by_cases hin : i = n
      · subst hin
        have heq := hrec (d.q0 + i) (.inr (Nat.le_refl _))
        rw [rowOne_mismatch cx op d b i hw (by rw [heq]; exact htag), heq]
      · rw [hk.record _ (by omega)]
        exact hpoison hw i (by omega) htag

theorem rowEffect_spec (mem : Memory) (t : TileState) :
    let b := rowEffect cx op d mem t
    b.tile = { t with side := b.tile.side, meter := b.tile.meter } ∧ (∀ k, k < d.q0 ∨ d.q0 + d.r ≤ k → b.tile.record k = t.record k) ∧
      (rowWrites op = false → b.mem = mem) ∧
      ((d.r = 0 ∨ d.b = 0 ∨ d.n = 0) → b.mem = mem ∧ b.tile.side = t.side ∧ b.tile.meter = t.meter) ∧
      (rowWrites op = false → 0 < d.b → 0 < d.n → ∀ i, i < d.r → tagAllowed op d.first d.rms (t.record (d.q0 + i)).tag = false →
        b.tile.record (d.q0 + i) = (poisonRec op d.first d.rms (t.record (d.q0 + i))).1) := by
  unfold rowEffect
  by_cases h0 : d.r = 0 ∨ d.b = 0 ∨ d.n = 0
  · rw [if_pos (by simpa [or_assoc] using h0)]
    exact ⟨rfl, fun _ _ => rfl, fun _ => rfl, fun _ => ⟨rfl, rfl, rfl⟩, fun _ _ _ _ _ _ => by omega⟩
  · rw [if_neg (by simpa [or_assoc] using h0)]
    obtain ⟨htile, hrec, hmem, hpoison⟩ := foldl_rowOne cx op d d.r { mem := mem, tile := t }
    exact ⟨htile, hrec, hmem, fun h => absurd h h0, fun hw _ _ => hpoison hw⟩

end

/-! ### REC_LOAD and REC_SAVE -/

/-- The record that REC_LOAD reads for row `i`. -/
def loadedRec (cx : DescCtx) (d : RowD) (mem : Memory) (i : Nat) : SideRec :=
  let a := tileAddr cx.tile (d.xbase + 16 * i)
  ⟨recTagOf d.rtag, memReadF32 mem a, memReadF32 mem (a + 4), memReadF32 mem (a + 8), memReadF32 mem (a + 12)⟩

section
variable (cx : DescCtx) (d : RowD) (mem : Memory) (t : TileState)

theorem foldl_loadedRec (n : Nat) :
    let b := (List.range n).foldl (fun tt i => TileState.setRec tt (d.q0 + i) (loadedRec cx d mem i)) t
    b = { t with side := b.side } ∧ (∀ k, k < d.q0 ∨ d.q0 + n ≤ k → b.record k = t.record k) ∧ ∀ i, i < n → b.record (d.q0 + i) = loadedRec cx d mem i := by
  induction n with
  | zero => exact ⟨rfl, fun _ _ => rfl, fun i hi => absurd hi (Nat.not_lt_zero i)⟩
  | succ n ih =>
    obtain ⟨htile, hrec, hset⟩ := ih
    simp only [List.range_succ, List.foldl_append, List.foldl_cons, List.foldl_nil]
    generalize (List.range n).foldl (fun tt i => TileState.setRec tt (d.q0 + i) (loadedRec cx d mem i)) t = b at *
    refine ⟨by rw [htile]; rfl, fun k hk => ?_, fun i hi => ?_⟩
    · rw [record_setRec, if_neg (by omega), hrec k (by omega)]
    · rw [record_setRec]
      by_cases hin : i = n
      · rw [if_pos (by omega), hin]
      · rw [if_neg (by omega), hset i (by omega)]

theorem recLoadEffect_spec :
    let b := recLoadEffect cx d mem t
    b = { t with side := b.side } ∧ (∀ k, k < d.q0 ∨ d.q0 + d.r ≤ k → b.record k = t.record k) ∧ ((d.r = 0 ∨ d.b = 0 ∨ d.n = 0) → b = t) ∧
      (d.b ≠ 0 → d.n ≠ 0 → ∀ i, i < d.r → b.record (d.q0 + i) = loadedRec cx d mem i) := by
  unfold recLoadEffect
  by_cases h0 : d.b = 0 ∨ d.n = 0
  · rw [if_pos (by simpa using h0)]
    exact ⟨rfl, fun _ _ => rfl, fun _ => rfl, fun hb hn => absurd h0 (by simp [hb, hn])⟩
  · rw [if_neg (by simpa using h0)]
    obtain ⟨htile, hrec, hset⟩ := foldl_loadedRec cx d mem t d.r
    exact ⟨htile, hrec, fun h => by rw [h.resolve_right h0]; rfl, fun _ _ => hset⟩

/-- The four words of a record as bytes. -/
def recBytes (r : SideRec) : List Byte := leBytes 4 r.s0.toNat ++ leBytes 4 r.s1.toNat ++ leBytes 4 r.s2.toNat ++ leBytes 4 r.s3.toNat

theorem length_recBytes (r : SideRec) : (recBytes r).length = 16 := by simp [recBytes, length_leBytes]

theorem memWriteBytes_append (m : Memory) (a : Nat) (xs ys : List Byte) :
    memWriteBytes m a (xs ++ ys) = memWriteBytes (memWriteBytes m a xs) (a + xs.length) ys := by
  induction xs generalizing m a with
  | nil => rfl
  | cons x xs ih =>
    rw [List.cons_append, memWriteBytes, memWriteBytes, ih, List.length_cons]
    congr 1
    omega

theorem memWriteF32_record (m : Memory) (a : Nat) (r : SideRec) :
    memWriteF32 (memWriteF32 (memWriteF32 (memWriteF32 m a r.s0) (a + 4) r.s1) (a + 8) r.s2) (a + 12) r.s3 = memWriteBytes m a (recBytes r) := by
  unfold recBytes
  rw [memWriteBytes_append, memWriteBytes_append, memWriteBytes_append]
  simp only [List.length_append, length_leBytes]
  rfl

/-- The words of a written record read back. -/
theorem memReadF32_record (m : Memory) (hm : Memory.wf m = true) (a : Nat) (r : SideRec) :
    memReadF32 (memWriteBytes m a (recBytes r)) a = r.s0 ∧ memReadF32 (memWriteBytes m a (recBytes r)) (a + 4) = r.s1 ∧
      memReadF32 (memWriteBytes m a (recBytes r)) (a + 8) = r.s2 ∧ memReadF32 (memWriteBytes m a (recBytes r)) (a + 12) = r.s3 := by
  have hword : ∀ (w : F32) (pre post : List Byte), recBytes r = pre ++ leBytes 4 w.toNat ++ post →
      memReadF32 (memWriteBytes m a (recBytes r)) (a + pre.length) = w := by
    intro w pre post heq
    unfold memReadF32
    rw [heq, memReadNat_memWriteBytes m hm, Nat.mod_eq_of_lt (by have := w.isLt; norm_num at this ⊢; exact this), BitVec.ofNat_toNat, BitVec.setWidth_eq]
  refine ⟨hword r.s0 [] (leBytes 4 r.s1.toNat ++ leBytes 4 r.s2.toNat ++ leBytes 4 r.s3.toNat) ?_, ?_, ?_, ?_⟩
  · simp [recBytes]
  · simpa [length_leBytes] using hword r.s1 (leBytes 4 r.s0.toNat) (leBytes 4 r.s2.toNat ++ leBytes 4 r.s3.toNat) (by simp [recBytes])
  · simpa [length_leBytes] using hword r.s2 (leBytes 4 r.s0.toNat ++ leBytes 4 r.s1.toNat) (leBytes 4 r.s3.toNat) (by simp [recBytes])
  · simpa [length_leBytes] using hword r.s3 (leBytes 4 r.s0.toNat ++ leBytes 4 r.s1.toNat ++ leBytes 4 r.s2.toNat) [] (by simp [recBytes])

theorem recSaveEffect_eq : recSaveEffect cx d mem t =
    if d.b = 0 ∨ d.n = 0 then mem else writeRows (tileAddr cx.tile d.xbase) 16 d.r (fun i => recBytes (t.record (d.q0 + i))) mem := by
  unfold recSaveEffect writeRows
  have haddr : ∀ i, tileAddr cx.tile (d.xbase + 16 * i) = tileAddr cx.tile d.xbase + i * 16 := fun i => by unfold tileAddr; omega
  simp only [memWriteF32_record, haddr, Bool.or_eq_true, decide_eq_true_eq]

theorem memReadF32_congr {m m' : Memory} {a : Nat} (h : ∀ i, i < 4 → memRead m (a + i) = memRead m' (a + i)) : memReadF32 m a = memReadF32 m' a := by
  unfold memReadF32
  rw [memReadNat_congr h]

theorem recSaveEffect_spec (hm : Memory.wf mem = true) :
    let m' := recSaveEffect cx d mem t
    (∀ i, i < d.r → d.b ≠ 0 → d.n ≠ 0 →
      memReadF32 m' (tileAddr cx.tile (d.xbase + 16 * i)) = (t.record (d.q0 + i)).s0 ∧
      memReadF32 m' (tileAddr cx.tile (d.xbase + 16 * i + 4)) = (t.record (d.q0 + i)).s1 ∧
      memReadF32 m' (tileAddr cx.tile (d.xbase + 16 * i + 8)) = (t.record (d.q0 + i)).s2 ∧
      memReadF32 m' (tileAddr cx.tile (d.xbase + 16 * i + 12)) = (t.record (d.q0 + i)).s3) ∧
    OutsideRows mem m' (tileAddr cx.tile d.xbase) 16 d.r 16 := by
  intro m'
  have heq : m' = _ := recSaveEffect_eq cx d mem t
  refine ⟨fun i hi hb hn => ?_, ?_⟩
  · rw [if_neg (by simp [hb, hn])] at heq
    have hbytes : ∀ j, j < 16 → memRead m' (tileAddr cx.tile d.xbase + i * 16 + j) =
        memRead (memWriteBytes mem (tileAddr cx.tile d.xbase + i * 16) (recBytes (t.record (d.q0 + i)))) (tileAddr cx.tile d.xbase + i * 16 + j) := by
      intro j hj
      rw [heq, memRead_writeRows hm (fun _ _ => length_recBytes _) (.inl (Nat.le_refl 16)) hi hj,
        memRead_memWriteBytes _ _ _ _ hm (by rw [length_recBytes]; exact hj)]
    have haddr : ∀ w, tileAddr cx.tile (d.xbase + 16 * i + w) = tileAddr cx.tile d.xbase + i * 16 + w := fun w => by unfold tileAddr; omega
    obtain ⟨h0, h1, h2, h3⟩ := memReadF32_record mem hm (tileAddr cx.tile d.xbase + i * 16) (t.record (d.q0 + i))
    have hword : ∀ w, w ≤ 12 → memReadF32 m' (tileAddr cx.tile d.xbase + i * 16 + w) =
        memReadF32 (memWriteBytes mem (tileAddr cx.tile d.xbase + i * 16) (recBytes (t.record (d.q0 + i)))) (tileAddr cx.tile d.xbase + i * 16 + w) :=
      fun w hw => memReadF32_congr (fun j hj => by rw [Nat.add_assoc _ w]; exact hbytes _ (by omega))
    exact ⟨by rw [show d.xbase + 16 * i = d.xbase + 16 * i + 0 from rfl, haddr, hword 0 (by omega)]; exact h0,
      by rw [haddr, hword 4 (by omega)]; exact h1, by rw [haddr, hword 8 (by omega)]; exact h2, by rw [haddr, hword 12 (by omega)]; exact h3⟩
  · rw [heq]
    split
    · exact fun _ _ => rfl
    · exact outsideRows_writeRows (fun _ _ => by rw [length_recBytes])

theorem recSaveEffect_none (h : d.r = 0 ∨ d.b = 0 ∨ d.n = 0) : recSaveEffect cx d mem t = mem := by
  rw [recSaveEffect_eq]
  split
  · rfl
  case isFalse hn => rw [h.resolve_right hn]; rfl

end

/-! ### The nine rows -/

section
variable {s : State} {u : Issuer} {h : DHdr} {d : RowD}

/-- A row that leaves the state as `s1`, of which the tile differs in side memory and status alone. -/
theorem unitDone_row {k : DKind} {s1 : State}
    (hrest : s1 = { s with mem := s1.mem, tiles := s1.tiles, fields := s1.fields, host := s1.host, hostMem := s1.hostMem, outbox := s1.outbox })
    (htile : tileOf s1 u = { tileOf s u with side := (tileOf s1 u).side, meter := (tileOf s1 u).meter })
    (hother : ∀ n, n ≠ u.tile.val → s1.tile n = s.tile n) :
    let t := unitDone s u k h s1
    ActedOnce s t u k h ∧
      t = { s with mem := t.mem, tiles := t.tiles, fields := t.fields, host := t.host, hostMem := t.hostMem, outbox := t.outbox } ∧
      tileOf t u = { tileOf s u with queues := (tileOf t u).queues, side := (tileOf t u).side, meter := (tileOf t u).meter } ∧
      t.mem = s1.mem ∧ (∀ j, (tileOf t u).record j = (tileOf s1 u).record j) ∧ (tileOf t u).side = (tileOf s1 u).side ∧
      (tileOf t u).meter = (tileOf s1 u).meter := by
  have hdone := unitDone_tile (s := s) (s1 := s1) (u := u) (k := k) (h := h)
  have hqueues : (tileOf s1 u).queues = (tileOf s u).queues := by
    generalize (tileOf s1 u).side = x, (tileOf s1 u).meter = y at htile
    rw [htile]
  have hacted : ActedOnce s (unitDone s u k h s1) u k h := unitDone_acted hqueues hother
  have honly := unitDone_only (s := s) (s1 := s1) (u := u) (k := k) (h := h)
  have hmem := unitDone_mem (s := s) (s1 := s1) (u := u) (k := k) (h := h)
  generalize unitDone s u k h s1 = t at *
  generalize tileOf s1 u = y at *
  refine ⟨hacted, ?_, ?_, hmem, fun j => ?_, ?_, ?_⟩
  · generalize t.tiles = ts, t.fields = fs at honly
    rw [honly, hrest]
  · rw [hdone, htile]
  all_goals rw [hdone]
  rfl

/-- The state with a tile and its store as a ROW operation leaves them. -/
def rowPut (s : State) (n : Nat) (r : RowRes) : State := State.setTile { s with mem := r.mem } n r.tile

theorem rowUnit_eq (s : State) (cx : DescCtx) (op : Nat) (d : RowD) :
    s.rowUnit cx op d = if (rowEffect cx op d s.mem (s.tile cx.tile)).long
      then (rowPut s cx.tile (rowEffect cx op d s.mem (s.tile cx.tile))).fieldMeter (cx.tile / 16) (fun m => m.sticky bitLongsum cx.htag)
      else rowPut s cx.tile (rowEffect cx op d s.mem (s.tile cx.tile)) := rfl

/-- The state after the unit has worked on the rows of operations 0 to 6. -/
theorem rowUnit_spec (cx : DescCtx) (op : Nat) (hcx : cx.tile = u.tile.val) :
    let s1 := s.rowUnit cx op d
    let r := rowEffect cx op d s.mem (tileOf s u)
    s1 = { s with mem := s1.mem, tiles := s1.tiles, fields := s1.fields, host := s1.host, hostMem := s1.hostMem, outbox := s1.outbox } ∧
      s1.mem = r.mem ∧ tileOf s1 u = r.tile ∧ ∀ n, n ≠ u.tile.val → s1.tile n = s.tile n := by
  rw [rowUnit_eq, hcx]
  have htile : ∀ n, (rowPut s u.tile.val (rowEffect cx op d s.mem (s.tile u.tile.val))).tile n =
    if n = u.tile.val then (rowEffect cx op d s.mem (s.tile u.tile.val)).tile else s.tile n := fun n => setTile_tile ..
  have honly : ∀ r, rowPut s u.tile.val r = { s with mem := r.mem, tiles := (rowPut s u.tile.val r).tiles } := fun r => rfl
  have hlong : ∀ x : State, ∃ y, OnlyFields x y ∧ (if (rowEffect cx op d s.mem (s.tile u.tile.val)).long
      then x.fieldMeter (u.tile.val / 16) (fun m => m.sticky bitLongsum cx.htag) else x) = y := by
    intro x
    refine ⟨_, ?_, rfl⟩
    split
    · exact onlyFields_fieldMeter ..
    · exact OnlyFields.refl x
  obtain ⟨y, hy, heq⟩ := hlong (rowPut s u.tile.val (rowEffect cx op d s.mem (s.tile u.tile.val)))
  rw [heq]
  have honly := honly (rowEffect cx op d s.mem (s.tile u.tile.val))
  show y = _ ∧ y.mem = (rowEffect cx op d s.mem (s.tile u.tile.val)).mem ∧ y.tile u.tile.val = (rowEffect cx op d s.mem (s.tile u.tile.val)).tile ∧ _
  generalize rowEffect cx op d s.mem (s.tile u.tile.val) = r at *
  unfold OnlyFields at hy
  have hytile : ∀ n, y.tile n = (rowPut s u.tile.val r).tile n := fun n => by
    unfold State.tile
    rw [hy]
  have hymem : y.mem = r.mem := by rw [hy, honly]
  refine ⟨?_, hymem, by rw [hytile, htile, if_pos rfl], fun n hn => by rw [hytile, htile, if_neg hn]⟩
  rw [hymem]
  generalize rowPut s u.tile.val r = z at *
  rw [hy, honly]

/-- The row of an operation of the row engine (R137). -/
def rowInstr (u : Issuer) (h : DHdr) (d : RowD) (op : Nat) : Instr :=
  match op with
  | 0 => .smxFwd u h d | 1 => .smxDot u h d | 2 => .smxBwd u h d | 3 => .normStats u h d | 4 => .normFwd u h d
  | 5 => .normDot u h d | 6 => .normBwd u h d | 7 => .recSave u h d | _ => .recLoad u h d

/-- What each operation makes of the state. -/
def rowState (s : State) (cx : DescCtx) (d : RowD) (op : Nat) : State :=
  if op = 7 then { s with mem := recSaveEffect cx d s.mem (s.tile cx.tile) }
  else if op = 8 then s.modTile cx.tile (fun t => recLoadEffect cx d s.mem t) else s.rowUnit cx op d

theorem exec_row {op : Nat} (hop : op ≤ 8) (hr : unitReady s u (.row op d) h = true) :
    exec (rowInstr u h d op) s = .next (unitDone s u (.row op d) h (rowState s (s.descCtx u { hdr := h, kind := .row op d }) d op)) := by
  have hrun := runUnit_of_ready hr (fun cx s => rowState s cx d op)
  rw [← hrun]
  clear hrun hr
  interval_cases op <;> rfl

end

/-- Settles O20, by the records and rows that each operation works on. -/
theorem rowEngineOperations : Obligations.RowEngineOperations := by
  unfold Obligations.RowEngineOperations
  intro s u h op d hop hr
  have hexec := exec_row hop hr
  let cx := s.descCtx u { hdr := h, kind := .row op d }
  by_cases h7 : op = 7
  · subst h7
    have hstate : rowState s cx d 7 = { s with mem := recSaveEffect cx d s.mem (tileOf s u) } := rfl
    obtain ⟨hacted, honly, htile, hmem, hrec, hside, hmeter⟩ := unitDone_row (s := s) (u := u) (k := .row 7 d) (h := h)
      (s1 := rowState s cx d 7) (by rw [hstate]) (by rw [hstate]; rfl) (fun _ _ => by rw [hstate]; rfl)
    generalize unitDone s u (.row 7 d) h (rowState s cx d 7) = t at *
    rw [hstate] at hmem hrec hside hmeter
    refine ⟨t, hexec, hacted, honly, htile, fun k _ => hrec k, fun h => by omega, fun h0 => ?_, fun _ hm => ⟨hside, hmeter, ?_⟩, fun h => by omega, fun h => by omega⟩
    · rw [hmem]
      exact ⟨recSaveEffect_none cx d s.mem (tileOf s u) h0, hside, hmeter⟩
    · rw [hmem]
      exact recSaveEffect_spec cx d s.mem (tileOf s u) hm.1
  by_cases h8 : op = 8
  · subst h8
    obtain ⟨hload, hkeep, hnone, hset⟩ := recLoadEffect_spec cx d s.mem (tileOf s u)
    have htile1 : tileOf (rowState s cx d 8) u = recLoadEffect cx d s.mem (tileOf s u) := (modTile_tile ..).trans (if_pos rfl)
    have hload' : (recLoadEffect cx d s.mem (tileOf s u)).meter = (tileOf s u).meter := by rw [hload]
    obtain ⟨hacted, honly, htile, hmem, hrec, hside, hmeter⟩ := unitDone_row (s := s) (u := u) (k := .row 8 d) (h := h)
      (s1 := rowState s cx d 8) rfl (by rw [htile1, hload']; exact hload) (fun n hn => (modTile_tile ..).trans (if_neg hn))
    generalize unitDone s u (.row 8 d) h (rowState s cx d 8) = t at *
    rw [htile1] at hrec hside hmeter
    refine ⟨t, hexec, hacted, honly, htile, fun k hk => (hrec k).trans (hkeep k hk), fun _ => hmem, fun h0 => ?_, fun h => by omega,
      fun _ hb hn i hi => (hrec _).trans (hset hb hn i hi), fun h => by omega⟩
    rw [hside, hmeter, hnone h0]
    exact ⟨hmem, rfl, rfl⟩
  · have hstate : rowState s cx d op = s.rowUnit cx op d := (if_neg h7).trans (if_neg h8)
    obtain ⟨hrest, hmem1, htile1, hother⟩ := rowUnit_spec (s := s) (d := d) cx op (u := u) rfl
    obtain ⟨hrow, hkeep, hmemkeep, hnone, hpoison⟩ := rowEffect_spec cx op d s.mem (tileOf s u)
    obtain ⟨hacted, honly, htile, hmem, hrec, hside, hmeter⟩ := unitDone_row (k := .row op d) (h := h) hrest (by rw [htile1]; exact hrow) hother
    rw [show s.descCtx u { hdr := h, kind := .row op d } = cx from rfl, hstate] at hexec
    generalize unitDone s u (.row op d) h (s.rowUnit cx op d) = t at *
    rw [htile1] at hrec hside hmeter
    rw [hmem1] at hmem
    refine ⟨t, hexec, hacted, honly, htile, fun k hk => (hrec k).trans (hkeep k hk), fun hw => hmem.trans (hmemkeep ?_), fun h0 => ?_, fun h => absurd h h7,
      fun h => absurd h h8, fun hw hr hb hn i hi htag => ?_⟩
    · rcases hw with rfl | rfl | rfl | h
      · rfl
      · rfl
      · rfl
      · exact absurd h h8
    · rw [hmem, hside, hmeter]
      exact hnone h0
    · rw [hrec]
      rcases hw with rfl | rfl | rfl
      · rw [hpoison rfl hb hn i hi htag]
        exact ⟨rfl, fun _ => rfl, fun h => by omega, fun h => by omega⟩
      · rw [hpoison rfl hb hn i hi htag]
        unfold poisonRec
        cases d.rms
        · exact ⟨rfl, fun h => by omega, fun _ => ⟨rfl, rfl⟩, fun h => by omega⟩
        · exact ⟨rfl, fun h => by omega, fun _ => ⟨rfl, rfl⟩, fun h => by omega⟩
      · rw [hpoison rfl hb hn i hi htag]
        unfold poisonRec
        cases d.rms
        · exact ⟨rfl, fun h => by omega, fun h => by omega, fun _ => rfl⟩
        · exact ⟨rfl, fun h => by omega, fun h => by omega, fun _ => rfl⟩

end Sys2Proof.Proofs
end

section
/-! PROOFS. The row engine: the results on one F32 block. -/

namespace Sys2Proof.Proofs

open Sys2Proof.Machine Sys2Proof.Laws

/-! ### Words with causes -/

@[simp] theorem uv_fst (x : F32) : (uv x).1 = x := rfl

@[simp] theorem uvOp_fst (c : Nat) (ins : List UV) (r : F32) : (uvOp c ins r).1 = r := by
  unfold uvOp
  split <;> rfl

@[simp] theorem uAdd_fst (a b : UV) : (uAdd a b).1 = fAdd a.1 b.1 := uvOp_fst ..
@[simp] theorem uSub_fst (a b : UV) : (uSub a b).1 = fSub a.1 b.1 := uvOp_fst ..
@[simp] theorem uMul_fst (a b : UV) : (uMul a b).1 = fMul a.1 b.1 := uvOp_fst ..
@[simp] theorem uDiv_fst (a b : UV) : (uDiv a b).1 = fDiv a.1 b.1 := uvOp_fst ..
@[simp] theorem uMulCls_fst (ins : List F32) (a b : UV) : (uMulCls ins a b).1 = fMul a.1 b.1 := uMul_fst ..

theorem pairUp_map {α β : Type} {f : α → α → α} {g : β → β → β} {p : α → β} (hp : ∀ a b, p (f a b) = g (p a) (p b)) (l : List α) :
    (pairUp f l).map p = pairUp g (l.map p) := by
  induction l using pairUp.induct with
  | case1 a b l ih => simp [pairUp, hp, ih]
  | case2 l h =>
    match l with
    | [] => rfl
    | [a] => rfl
    | a :: b :: l => exact absurd rfl (h a b l)

/-- The words of a balanced sum with causes are those of the balanced sum. -/
theorem treeFold_map {α β : Type} {f : α → α → α} {g : β → β → β} {p : α → β} (hp : ∀ a b, p (f a b) = g (p a) (p b)) (z : α) (n : Nat) (l : List α) :
    p (treeFold f z n l) = treeFold g (p z) n (l.map p) := by
  induction n generalizing l with
  | zero => cases l <;> rfl
  | succ n ih => rw [treeFold, treeFold, ih, pairUp_map hp]

theorem uTreeSum_fst (l : List UV) : (uTreeSum l).1 = treeSum (l.map Prod.fst) := treeFold_map uAdd_fst (uv 0) 7 l

/-! ### Operands and outputs in F32 -/

/-- Element `c` of an F32 vector, as it is read (R61). -/
def f32At (mem : Memory) (a c : Nat) : F32 := (readWiden 0 0 (readCode mem 0 a c)).1

theorem readVecF32_f32 (mem : Memory) (base stride m : Nat) : (readVecF32 mem 0 base stride m).1 = (List.range 128).map (f32At mem (base + m * stride)) := by
  unfold readVecF32 readVec
  rw [if_neg (by decide)]
  dsimp only
  rw [List.map_map, List.map_map]
  rfl

theorem getD_map_range {α : Type} {n c : Nat} (f : Nat → α) (z : α) (hc : c < n) : ((List.range n).map f).getD c z = f c := by
  rw [List.getD_eq_getElem?_getD, List.getElem?_map, List.getElem?_range hc]
  rfl

theorem writeCodes_f32 (mem : Memory) (base : Nat) (codes : List Nat) : writeCodes mem 0 base codes = memWriteBytes mem base (codes.flatMap (leBytes 4)) := rfl

/-- The codes of an F32 output without draws. -/
theorem convertVec_f32 (vs : List Val) : (convertVec 0 false false [] vs).codes = vs.map (fun v => (convertElem 0 false none v).1) := by
  show List.map Prod.fst (List.map (fun p : Val × Nat => convertElem 0 false (([] : List (Option Nat)).getD p.2 none) p.1) vs.zipIdx) = _
  rw [List.map_map]
  have : (Prod.fst ∘ fun p : Val × Nat => convertElem 0 false (([] : List (Option Nat)).getD p.2 none) p.1) =
      (fun v => (convertElem 0 false none v).1) ∘ Prod.fst := rfl
  rw [this, ← List.map_map, List.zipIdx_map_fst]

theorem tileAddr_add (t a b : Nat) : tileAddr t (a + b) = tileAddr t a + b := by
  unfold tileAddr
  omega

/-! ### One row of one block -/

section
variable (cx : DescCtx) (op : Nat) (d : RowD) (mem : Memory) (t : TileState)

/-- The record that the first block starts from. -/
def firstRec : SideRec := rowFirst cx op d mem 0 (t.record d.q0)

/-- The first input of the block. -/
def blockX : List F32 := (List.range 128).map (f32At mem (tileAddr cx.tile d.ibase))

/-- The second input of the block; an operation that has none reads nothing. -/
def blockY : List F32 := if rowSecond op then (List.range 128).map (f32At mem (tileAddr cx.tile d.i2base)) else []

/-- What the block makes of the record. -/
def blockRec : SideRec := (rowRecord op d 0 (firstRec cx op d mem t) ((blockX cx d mem).map uv) (blockX cx d mem) (blockY cx op d mem)).rec_

/-- Word `c` of the block's output. -/
def blockWord (c : Nat) : F32 :=
  if c < d.n then (rowWord op d (blockRec cx op d mem t) (uv (f32At mem (tileAddr cx.tile d.ibase) c)) (f32At mem (tileAddr cx.tile d.ibase) c)
    ((blockY cx op d mem).getD c 0)).1 else 0

section
variable (hb0 : d.b0 = 0) (hreb : d.rebuild = false) (hx : d.ifmt = 0) (hy : d.i2fmt = 0) (ho : d.ofmt = 0)
include hx

theorem rowOperand_first (hb0 : d.b0 = 0) : (rowOperand cx mem d.ifmt d.ibase d.istride 0 (d.b0 + 0)).1 = blockX cx d mem := by
  unfold rowOperand blockX
  rw [hx, hb0]
  dsimp only
  rw [show fmtOf cx.slotFmt 0 = 0 from rfl, readVecF32_f32]
  simp

omit hx in
include hy in
theorem rowOperand_second (hb0 : d.b0 = 0) :
    (if rowSecond op then rowOperand cx mem d.i2fmt d.i2base d.i2stride 0 (d.b0 + 0) else ([], [])).1 = blockY cx op d mem := by
  unfold blockY
  split
  · unfold rowOperand
    rw [hy, hb0]
    dsimp only
    rw [show fmtOf cx.slotFmt 0 = 0 from rfl, readVecF32_f32]
    simp
  · rfl

include hb0 hreb hy ho

theorem rowBlock_first (rr : RowRes) (hmem : rr.mem = mem) (hrec : rr.tile.record (d.q0 + 0) = firstRec cx op d mem t) :
    (rowBlock cx op d 0 rr 0).tile.record d.q0 = blockRec cx op d mem t ∧
      (rowWrites op = true → (rowBlock cx op d 0 rr 0).mem = memWriteBytes mem (tileAddr cx.tile d.obase)
        (((List.range 128).map (fun c => (convertElem 0 false none (f32Val (blockWord cx op d mem t c))).1)).flatMap (leBytes 4))) := by
  have h1 := rowOperand_first cx d mem hx hb0
  have h2 := rowOperand_second cx op d mem hy hb0
  have hin : rowInput op d (firstRec cx op d mem t) (blockX cx d mem) = (blockX cx d mem).map uv := by
    unfold rowInput rowRebuilds
    rw [hreb]
    rfl
  unfold rowBlock
  dsimp only
  rw [hrec, hmem]
  generalize rowOperand cx mem d.ifmt d.ibase d.istride 0 (d.b0 + 0) = x at *
  generalize (if rowSecond op then rowOperand cx mem d.i2fmt d.i2base d.i2stride 0 (d.b0 + 0) else ([], [])) = y at *
  rw [h1, h2, hin, hb0, ho]
  generalize Meter.words _ _ _ = m2
  split
  case isTrue hw =>
    generalize Meter.vector _ _ _ _ _ = m3
    refine ⟨(record_setRec ..).trans (if_pos rfl), fun _ => ?_⟩
    dsimp only
    rw [show fmtOf cx.slotFmt 0 = 0 from rfl, convertVec_f32, List.map_map, List.map_map, Nat.zero_mul, Nat.zero_mul, Nat.add_zero]
    refine congrArg (fun codes => memWriteBytes mem (tileAddr cx.tile d.obase) (List.flatMap (leBytes 4) codes)) ?_
    refine List.map_congr_left (fun c hc => ?_)
    have hc := List.mem_range.mp hc
    have hlive : rowLive d.n 0 c = decide (c < d.n) := by simp [rowLive]
    have hx : (blockX cx d mem).getD c 0 = f32At mem (tileAddr cx.tile d.ibase) c := getD_map_range _ _ hc
    have hu : ((blockX cx d mem).map uv).getD c (uv 0) = uv (f32At mem (tileAddr cx.tile d.ibase) c) := by
      unfold blockX
      rw [List.map_map]
      exact getD_map_range _ _ hc
    unfold blockWord
    simp only [Function.comp_apply, hlive, hx, hu, decide_eq_true_eq]
    by_cases hn : c < d.n
    · rw [if_pos hn, if_pos hn]
      rfl
    · rw [if_neg hn, if_neg hn]
  case isFalse hw => exact ⟨(record_setRec ..).trans (if_pos rfl), fun h => absurd h hw⟩

/-- The block leaves its record, and its output words where the operation writes. -/
theorem rowEffect_block (hr : d.r = 1) (hb : d.b = 1) (hn : 1 ≤ d.n) (htag : tagAllowed op d.first d.rms (t.record d.q0).tag = true) :
    (rowEffect cx op d mem t).tile.record d.q0 = blockRec cx op d mem t ∧
      (rowWrites op = true → (rowEffect cx op d mem t).mem = memWriteBytes mem (tileAddr cx.tile d.obase)
        (((List.range 128).map (fun c => (convertElem 0 false none (f32Val (blockWord cx op d mem t c))).1)).flatMap (leBytes 4))) := by
  have heq : ∃ rr : RowRes, rr.mem = mem ∧ rr.tile.record (d.q0 + 0) = firstRec cx op d mem t ∧ rowEffect cx op d mem t = rowBlock cx op d 0 rr 0 := by
    unfold rowEffect
    rw [if_neg (by simp [hr, hb]; omega), hr]
    show ∃ rr : RowRes, _ ∧ _ ∧ rowOne cx op d { mem := mem, tile := t } 0 = _
    unfold rowOne
    dsimp only
    rw [if_pos (show tagAllowed op d.first d.rms (t.record (d.q0 + 0)).tag = true from htag), hb]
    exact ⟨_, rfl, (record_setRec ..).trans (if_pos rfl), rfl⟩
  obtain ⟨rr, hmem, hrec, heq⟩ := heq
  rw [heq]
  exact rowBlock_first cx op d mem t hb0 hreb hx hy ho rr hmem hrec

end

/-- A mismatched row writes its block too (R137). -/
theorem rowEffect_mismatch (hr : d.r = 1) (hb : d.b = 1) (hb0 : d.b0 = 0) (hn : 1 ≤ d.n) (ho : d.ofmt = 0) (hw : rowWrites op = true)
    (htag : ¬ tagAllowed op d.first d.rms (t.record d.q0).tag = true) :
    ∃ codes : List Nat, codes.length = 128 ∧ (rowEffect cx op d mem t).mem = memWriteBytes mem (tileAddr cx.tile d.obase) (codes.flatMap (leBytes 4)) := by
  unfold rowEffect
  rw [if_neg (by simp [hr, hb]; omega), hr]
  show ∃ codes : List Nat, _ ∧ (rowOne cx op d { mem := mem, tile := t } 0).mem = _
  unfold rowOne
  dsimp only
  rw [if_neg (show ¬ tagAllowed op d.first d.rms (t.record (d.q0 + 0)).tag = true from htag)]
  unfold rowMismatch
  rw [if_pos hw, hb, ho, hb0]
  rw [show List.range 1 = [0] from rfl, List.foldl_cons, List.foldl_nil]
  dsimp only
  rw [show fmtOf cx.slotFmt 0 = 0 from rfl, Nat.add_zero, Nat.zero_mul, Nat.zero_mul, Nat.add_zero]
  exact ⟨_, by rw [convertVec_f32, List.length_map, List.length_map, List.length_map, List.length_range], writeCodes_f32 ..⟩

end

/-! ### The values -/

theorem liveSum_fst (n b : Nat) (l : List UV) : (liveSum n b l).1 = treeSum (l.zipIdx.map (fun p => if rowLive n b p.2 then p.1.1 else 0)) := by
  unfold liveSum
  rw [uTreeSum_fst, List.map_map]
  congr 1
  refine List.map_congr_left (fun p _ => ?_)
  show (if rowLive n b p.2 then p.1 else uv 0).1 = _
  split <;> rfl

/-- The sum of squares of a block below N. -/
theorem liveDot_squares (n : Nat) (x : Nat → F32) :
    (liveDot n 0 (((List.range 128).map x).map uv) (((List.range 128).map x).map uv)).1 =
      treeSum ((List.range 128).map (fun c => if c < n then fMul (x c) (x c) else 0)) := by
  unfold liveDot
  dsimp only
  rw [liveSum_fst]
  congr 1
  rw [List.map_map, List.zip_map', List.map_map]
  refine List.ext_getElem (by simp) (fun i h1 h2 => ?_)
  simp [rowLive]

theorem live_count {n : Nat} (hn : n ≤ 128) : ((List.range 128).filter (rowLive n 0)).length = n := by
  have hmin : ∀ m, ((List.range m).filter (rowLive n 0)).length = min m n := by
    intro m
    induction m with
    | zero => simp
    | succ m ih =>
      rw [List.range_succ, List.filter_append, List.length_append, ih]
      by_cases hm : m < n
      · simp [rowLive, hm]
        omega
      · simp [rowLive, hm]
        omega
  rw [hmin]
  omega

/-- A block of NORM_STATS against a gathered sum of squares (R140). -/
theorem rowRecord_gatherRms {d : RowD} (hn : 1 ≤ d.n) (hn' : d.n ≤ 128) (r : SideRec) (us : List UV) (xs ys : List F32) (htag : r.tag = .gatherRms) :
    (rowRecord 3 d 0 r us xs ys).rec_ =
      { r with s1 := fAdd r.s1 (liveDot d.n 0 us us).1, s2 := BitVec.ofNat 32 (min (r.s2.toNat + d.n) (2 ^ 32 - 1)) } := by
  show (if _ then _ else _ : RecStep).rec_ = _
  rw [live_count hn', if_neg (by omega), if_pos htag]
  dsimp only
  rw [uAdd_fst]
  rfl

theorem smxProb_fst (m l x : F32) : (smxProb m l x).1 = if m = ninfF32 then 0 else fMul (expF32 (fSub x m)) (fDiv oneF32 l) := by
  show (smxWord m l x).1 = _
  unfold smxWord
  split
  · rfl
  · simp

/-- Settles O21, by the record and the words of the block. -/
theorem rowEngineResults : Obligations.RowEngineResults := by
  unfold Obligations.RowEngineResults
  intro s u h op d hop hm hr hr1 hb hb0 hn hn' hreb hx hy ho
  have hexec := exec_row (by omega) hr
  let cx := s.descCtx u { hdr := h, kind := .row op d }
  have hstate : rowState s cx d op = s.rowUnit cx op d := (if_neg (by omega)).trans (if_neg (by omega))
  obtain ⟨hrest, hmem1, htile1, hother⟩ := rowUnit_spec (s := s) (d := d) cx op (u := u) rfl
  obtain ⟨hrow, -, -, -, -⟩ := rowEffect_spec cx op d s.mem (tileOf s u)
  obtain ⟨-, -, -, hmem, hrec, -, -⟩ := unitDone_row (k := .row op d) (h := h) hrest (by rw [htile1]; exact hrow) hother
  have hblock := rowEffect_block cx op d s.mem (tileOf s u) hb0 hreb hx hy ho hr1 hb hn
  rw [show s.descCtx u { hdr := h, kind := .row op d } = cx from rfl, hstate] at hexec
  generalize unitDone s u (.row op d) h (s.rowUnit cx op d) = t at *
  have hword : tagAllowed op d.first d.rms ((tileOf s u).record d.q0).tag = true → rowWrites op = true → ∀ c, c < 128 →
      memReadNat t.mem (tileAddr u.tile.val (d.obase + 4 * c)) 4 =
        (convertElem 0 false none (f32Val (blockWord cx op d s.mem (tileOf s u) c))).1 % 2 ^ 32 := by
    intro htag hw c hc
    rw [tileAddr_add, hmem, hmem1, (hblock htag).2 hw]
    refine (memReadNat_writeCodes _ hm.1 _ (by simpa using hc)).trans ?_
    rw [getD_map_range _ _ hc]
  have htrec : tagAllowed op d.first d.rms ((tileOf s u).record d.q0).tag = true → (tileOf t u).record d.q0 = blockRec cx op d s.mem (tileOf s u) :=
    fun htag => by rw [hrec, htile1, (hblock htag).1]
  have hout : rowWrites op = true → OutsideRows s.mem t.mem (tileAddr u.tile.val d.obase) 0 1 512 := by
    intro hw a ha
    have ha := ha 0 (by omega)
    have hcodes : ∃ codes : List Nat, codes.length = 128 ∧ t.mem = memWriteBytes s.mem (tileAddr u.tile.val d.obase) (codes.flatMap (leBytes 4)) := by
      rw [hmem, hmem1]
      by_cases htag : tagAllowed op d.first d.rms ((tileOf s u).record d.q0).tag = true
      · exact ⟨_, by simp, (hblock htag).2 hw⟩
      · exact rowEffect_mismatch cx op d s.mem (tileOf s u) hr1 hb hb0 hn ho hw htag
    obtain ⟨codes, hlen, heq⟩ := hcodes
    rw [heq]
    refine memRead_memWriteBytes_outside _ _ _ _ ?_
    rw [length_flatMap_leBytes, hlen]
    show a < tileAddr u.tile.val d.obase ∨ tileAddr u.tile.val d.obase + 4 * 128 ≤ a
    omega
  clear hblock hrow hrest hother hmem1 htile1 hmem hrec
  refine ⟨t, ?_, fun h0 hf => ?_, fun h2 htag => ?_, ?_, ?_, ?_, ?_⟩
  · clear hword htrec hout
    interval_cases op <;> exact hexec
  · subst h0
    have htag : tagAllowed 0 d.first d.rms ((tileOf s u).record d.q0).tag = true := by simp [tagAllowed, hf]
    have hfirst : firstRec cx 0 d s.mem (tileOf s u) = ⟨.smx, flushF32 (memReadF32 s.mem (tileAddr u.tile.val d.xbase)),
        flushF32 (memReadF32 s.mem (tileAddr u.tile.val (d.xbase + 4))), 0, 0⟩ := by
      unfold firstRec rowFirst
      rw [hf]
      rfl
    refine ⟨(htrec htag).trans hfirst, fun c hc => (hword htag rfl c hc).trans ?_⟩
    unfold blockWord
    by_cases hcn : c < d.n
    · rw [if_pos hcn]
      show (convertElem 0 false none (f32Val (smxProb (firstRec cx 0 d s.mem (tileOf s u)).s0 (firstRec cx 0 d s.mem (tileOf s u)).s1 _).1)).1 % 2 ^ 32 = _
      rw [hfirst, smxProb_fst]
      by_cases hinf : flushF32 (memReadF32 s.mem (tileAddr u.tile.val d.xbase)) = ninfF32
      · rw [if_pos hinf, if_neg (fun h => h.2 hinf)]
      · rw [if_neg hinf, if_pos ⟨hcn, hinf⟩]
        rfl
    · rw [if_neg hcn, if_neg (fun h => hcn h.1)]
  · subst h2
    intro c hc
    have htag' : tagAllowed 2 d.first d.rms ((tileOf s u).record d.q0).tag = true := by simp [tagAllowed, htag]
    have hfirst : firstRec cx 2 d s.mem (tileOf s u) = (tileOf s u).record d.q0 := by
      unfold firstRec rowFirst
      split <;> rfl
    refine (hword htag' rfl c (by omega)).trans ?_
    unfold blockWord
    rw [if_pos hc]
    show (convertElem 0 false none (f32Val (uMulCls _ _ (uSub (uv _) (uv (firstRec cx 2 d s.mem (tileOf s u)).s2))).1)).1 % 2 ^ 32 = _
    rw [hfirst, uMulCls_fst, uSub_fst, show (blockY cx 2 d s.mem).getD c 0 = f32At s.mem (tileAddr u.tile.val d.i2base) c from getD_map_range _ _ (by omega)]
    rfl
  · intro h4 hf htag c hc
    subst h4
    have htag' : tagAllowed 4 d.first d.rms ((tileOf s u).record d.q0).tag = true := by rcases htag with h | h <;> simp [tagAllowed, h, hf]
    have hfirst : firstRec cx 4 d s.mem (tileOf s u) = (tileOf s u).record d.q0 := by
      unfold firstRec rowFirst
      rw [hf]
      rfl
    refine (hword htag' rfl c (by omega)).trans ?_
    unfold blockWord
    rw [if_pos hc]
    show (convertElem 0 false none (f32Val (uMulCls _ (uSub (uv _) (uv (firstRec cx 4 d s.mem (tileOf s u)).s0))
      (uv (firstRec cx 4 d s.mem (tileOf s u)).s1)).1)).1 % 2 ^ 32 = _
    rw [hfirst, uMulCls_fst, uSub_fst]
    rfl
  · intro h6 htag c hc
    subst h6
    have htag' : tagAllowed 6 d.first d.rms ((tileOf s u).record d.q0).tag = true := by simp [tagAllowed, htag]
    have hfirst : firstRec cx 6 d s.mem (tileOf s u) = (tileOf s u).record d.q0 := by
      unfold firstRec rowFirst
      split <;> rfl
    have hrec : blockRec cx 6 d s.mem (tileOf s u) = (tileOf s u).record d.q0 := hfirst
    refine (hword htag' rfl c (by omega)).trans ?_
    unfold blockWord
    rw [if_pos hc, hrec, show (blockY cx 6 d s.mem).getD c 0 = f32At s.mem (tileAddr u.tile.val d.i2base) c from getD_map_range _ _ (by omega)]
    unfold rowWord
    dsimp only
    rw [htag, if_neg (by decide)]
    simp only [uMulCls_fst, uSub_fst, uMul_fst, uv_fst]
    rfl
  · intro h3 hf hrms
    subst h3
    have htag : tagAllowed 3 d.first d.rms ((tileOf s u).record d.q0).tag = true := by simp [tagAllowed, hf]
    have hfirst : firstRec cx 3 d s.mem (tileOf s u) = ⟨.gatherRms, 0, 0, 0, 0⟩ := by
      unfold firstRec rowFirst
      rw [hf, hrms]
      rfl
    rw [htrec htag]
    unfold blockRec
    rw [hfirst, rowRecord_gatherRms hn hn' _ _ _ _ rfl, show blockX cx d s.mem = (List.range 128).map (f32At s.mem (tileAddr u.tile.val d.ibase)) from rfl,
      liveDot_squares, show (0 : F32).toNat = 0 from rfl, Nat.zero_add, Nat.min_eq_left (by omega)]
    rfl
  · intro hw
    refine hout ?_
    rcases hw with rfl | rfl | rfl | rfl <;> rfl

end Sys2Proof.Proofs
end

section
/-! PROOFS. The LANE operations. -/

namespace Sys2Proof.Proofs

open Sys2Proof.Machine Sys2Proof.Laws

/-! ### One vector -/

/-- The words of vector `m` before they are narrowed. -/
def laneWords (cx : DescCtx) (op : Nat) (d : LaneD) (mem : Memory) (m : Nat) : List (F32 × Cls) :=
  let x := laneOperand mem cx.tile true d.xb (fmtOf cx.slotFmt d.xfmt) d.xbase d.xstride m
  let y := laneOperand mem cx.tile (laneUsesY op d.act) d.yb (fmtOf cx.slotFmt d.yfmt) d.ybase d.ystride m
  let z := laneOperand mem cx.tile (laneUsesZ op) d.zb (fmtOf cx.slotFmt d.zfmt) d.zbase d.zstride m
  let s := if laneUsesS op d.act then slopeOperand mem cx.tile d.slbase d.slstride m else []
  (List.range 128).map (fun i => laneWord op d.act d.alpha (x.1.getD i 0) (y.1.getD i 0) (z.1.getD i 0) (s.getD i 0))

/-- Only the status and the lanes of a tile differ. -/
def LaneOnly (x y : TileState) : Prop := y = { x with meter := y.meter, lanes := y.lanes }

theorem LaneOnly.refl (x : TileState) : LaneOnly x x := rfl

theorem LaneOnly.trans {x y z : TileState} (h : LaneOnly x y) (k : LaneOnly y z) : LaneOnly x z := by
  unfold LaneOnly at h k ⊢
  rw [k, h]

theorem LaneOnly.queues {x y : TileState} (h : LaneOnly x y) : y.queues = x.queues := by
  unfold LaneOnly at h
  generalize y.meter = m, y.lanes = l at h
  rw [h]

section
variable (cx : DescCtx) (op : Nat) (d : LaneD)

theorem laneVector_only (mt : Memory × TileState) (m : Nat) : LaneOnly mt.2 (laneVector cx op d mt m).2 := by
  unfold laneVector
  dsimp only
  generalize outVec _ _ _ _ _ _ _ _ _ = o
  generalize Meter.vector _ _ _ _ _ = meter
  rfl

theorem laneEffect_only (mt : Memory × TileState) : LaneOnly mt.2 (laneEffect cx op d mt).2 :=
  foldl_rel (R := fun a b : Memory × TileState => LaneOnly a.2 b.2) (fun a => LaneOnly.refl a.2) (fun _ _ _ => LaneOnly.trans) _
    (fun a m => laneVector_only cx op d a m) _ mt

/-- A single vector without a slope plane, written in F32. -/
theorem laneEffect_mem (hv : d.v = 1) (ho : d.ofmt = 0) (hslope : d.slope = false) (mt : Memory × TileState) :
    (laneEffect cx op d mt).1 = memWriteBytes mt.1 (tileAddr cx.tile d.obase)
      (((laneWords cx op d mt.1 0).map (fun p => (convertElem 0 d.ovf none (f32Val p.1)).1)).flatMap (leBytes 4)) := by
  unfold laneEffect
  rw [hv, show List.range 1 = [0] from rfl, List.foldl_cons, List.foldl_nil]
  unfold laneVector
  dsimp only
  rw [ho, hslope, Bool.and_false, show fmtOf cx.slotFmt 0 = 0 from rfl]
  show writeOut cx.tile 0 d.obase d.ostride d.slbase d.slstride 0 0 (outVec 0 d.act d.rnd d.ovf false false (laneWords cx op d mt.1 0) _ _) mt.1 = _
  obtain ⟨hcodes, hrow, hslopes⟩ := codes_of_outVec d.act (laneWords cx op d mt.1 0)
    (laneOperand mt.1 cx.tile true d.xb (fmtOf cx.slotFmt d.xfmt) d.xbase d.xstride 0).1 d.rnd d.ovf (lanesOr mt.2.lanes)
  generalize outVec 0 d.act d.rnd d.ovf false false (laneWords cx op d mt.1 0) _ _ = o at *
  unfold writeOut
  dsimp only
  rw [hrow, hslopes, hcodes, writeVec_f32, if_pos List.isEmpty_nil, Nat.zero_mul, Nat.add_zero]

/-- An operand in F32 that the operation reads, element by element. -/
theorem laneOperand_f32 (mem : Memory) (tile base stride : Nat) {c : Nat} (hc : c < 128) :
    (laneOperand mem tile true false 0 base stride 0).1.getD c 0 = f32At mem (tileAddr tile base) c := by
  unfold laneOperand
  rw [if_pos rfl, if_neg (by decide), readVecF32_f32, getD_map_range _ _ hc, Nat.zero_mul, Nat.add_zero]

/-- The words of F32 operands that are not broadcast. -/
theorem laneWords_getD (mem : Memory) (hx : d.xfmt = 0) (hy : d.yfmt = 0) (hz : d.zfmt = 0) (hxb : d.xb = false) (hyb : d.yb = false) (hzb : d.zb = false)
    {c : Nat} (hc : c < 128) : ∃ y z s : F32, ((laneWords cx op d mem 0).getD c (0, .none)) =
      laneWord op d.act d.alpha (f32At mem (tileAddr cx.tile d.xbase) c) y z s ∧
      (laneUsesY op d.act = true → y = f32At mem (tileAddr cx.tile d.ybase) c) ∧ (laneUsesZ op = true → z = f32At mem (tileAddr cx.tile d.zbase) c) := by
  unfold laneWords
  rw [hx, hy, hz, hxb, hyb, hzb, show fmtOf cx.slotFmt 0 = 0 from rfl]
  refine ⟨(laneOperand mem cx.tile (laneUsesY op d.act) false 0 d.ybase d.ystride 0).1.getD c 0,
    (laneOperand mem cx.tile (laneUsesZ op) false 0 d.zbase d.zstride 0).1.getD c 0,
    (if laneUsesS op d.act then slopeOperand mem cx.tile d.slbase d.slstride 0 else []).getD c 0, ?_, fun h => ?_, fun h => ?_⟩
  · rw [← laneOperand_f32 mem cx.tile d.xbase d.xstride hc]
    exact getD_map_range _ _ hc
  · rw [h]
    exact laneOperand_f32 mem cx.tile _ _ hc
  · rw [h]
    exact laneOperand_f32 mem cx.tile _ _ hc

end

theorem actWord_fst (act : Nat) (alpha : F32) (p : F32 × Cls) : (actWord act alpha p).1 = actF32 act alpha p.1 := by
  unfold actWord
  dsimp only
  split <;> rfl

/-- DACT of the first two codes on words that are no NaN (R128). -/
theorem dactWord_identity {alpha g y s : F32} (hg : f32IsNan g = false) (hy : f32IsNan y = false) : (dactWord 0 alpha g y s).1 = g := by
  unfold dactWord
  simp [hg, hy]

theorem dactWord_relu {alpha g y s : F32} (hg : f32IsNan g = false) (hy : f32IsNan y = false) :
    (dactWord 1 alpha g y s).1 = if ((f32Val y).isNeg || (f32Val y).isZero) = true then 0 else g := by
  unfold dactWord
  dsimp only
  rw [if_neg (by simp [hg, hy])]
  cases (f32Val y).isNeg <;> cases (f32Val y).isZero <;> rfl

/-! ### The rows -/

/-- The row of a LANE operation (R198). -/
def laneInstr (u : Issuer) (h : DHdr) (d : LaneD) (op : Nat) : Instr :=
  match op with
  | 0 => .laneCvt u h d | 1 => .laneAdd u h d | 2 => .laneSub u h d | 3 => .laneMul u h d | 4 => .laneFma u h d
  | 5 => .laneScale u h d | 6 => .laneAct u h d | 7 => .laneDact u h d | 8 => .laneMax u h d | 9 => .laneMin u h d
  | _ => .laneSumsq u h d

theorem exec_lane {s : State} {u : Issuer} {h : DHdr} {d : LaneD} {op : Nat} (hop : op ≤ 10) (hr : unitReady s u (.lane op d) h = true) :
    exec (laneInstr u h d op) s = .next (unitDone s u (.lane op d) h
      (s.onTile u.tile.val (laneEffect (s.descCtx u { hdr := h, kind := .lane op d }) op d))) := by
  have hrun := runUnit_of_ready hr (fun cx s => s.onTile cx.tile (laneEffect cx op d))
  refine Eq.trans ?_ hrun
  clear hrun hr
  interval_cases op <;> rfl

/-- Settles O22, by the words of one vector. -/
theorem laneOperations : Obligations.LaneOperations := by
  unfold Obligations.LaneOperations
  intro s u h op d hop hm hr
  let cx := s.descCtx u { hdr := h, kind := .lane op d }
  have hexec := exec_lane hop hr
  have honly := laneEffect_only cx op d (s.mem, tileOf s u)
  have hnone : d.v = 0 → laneEffect cx op d (s.mem, tileOf s u) = (s.mem, tileOf s u) := fun h0 => by unfold laneEffect; rw [h0]; rfl
  have hmem := fun hv ho hslope => laneEffect_mem cx op d hv ho hslope (s.mem, tileOf s u)
  obtain ⟨hacted, hstate, hcaps, htmem, htile⟩ := unitDone_onTile (k := .lane op d) (h := h) (g := laneEffect cx op d) honly.queues
  rw [show s.descCtx u { hdr := h, kind := .lane op d } = cx from rfl] at hexec
  generalize unitDone s u (.lane op d) h (s.onTile u.tile.val (laneEffect cx op d)) = t at *
  generalize laneEffect cx op d (s.mem, tileOf s u) = r at *
  refine ⟨t, hexec, hacted, hstate, hcaps, ?_, fun h0 => ?_, fun hv hx hy hz ho hxb hyb hzb hslope => ⟨fun c hc => ?_, ?_⟩⟩
  · rw [htile]
    unfold LaneOnly at honly
    generalize r.2 = y at *
    rw [honly]
  · rw [htile, htmem, hnone h0]
    exact ⟨rfl, rfl⟩
  · have hlen : (laneWords cx op d s.mem 0).length = 128 := by simp [laneWords]
    have hout : memReadNat t.mem (tileAddr u.tile.val (d.obase + 4 * c)) 4 =
        (convertElem 0 d.ovf none (f32Val ((laneWords cx op d s.mem 0).getD c (0, .none)).1)).1 % 2 ^ 32 := by
      rw [tileAddr_add, htmem, hmem hv ho hslope]
      refine (memReadNat_writeCodes _ hm.1 _ (by rw [List.length_map, hlen]; exact hc)).trans ?_
      rw [List.getD_eq_getElem _ _ (by rw [List.length_map, hlen]; exact hc), List.getElem_map, List.getD_eq_getElem _ _ (by rw [hlen]; exact hc)]
    obtain ⟨y, z, sl, hword, hyeq, hzeq⟩ := laneWords_getD cx op d s.mem hx hy hz hxb hyb hzb hc
    rw [hword] at hout
    clear hword hlen hexec hr hmem hnone honly hstate hcaps htmem htile hacted
    refine ⟨?_, ?_, ?_, ?_, ?_, ?_, ?_, ?_, ?_, ?_, ?_, ?_⟩
    · rintro rfl
      exact hout
    · rintro rfl
      rw [hyeq rfl] at hout
      exact hout
    · rintro rfl
      rw [hyeq rfl] at hout
      exact hout
    · rintro rfl
      rw [hyeq rfl, laneWord, uMulCls_fst] at hout
      exact hout
    · rintro rfl
      rw [hyeq rfl, hzeq rfl] at hout
      exact hout
    · rintro rfl
      rw [laneWord, uMulCls_fst] at hout
      exact hout
    · rintro rfl
      rw [laneWord, actWord_fst] at hout
      exact hout
    · rintro rfl hact hnx hny
      rw [hyeq (by rw [hact]; rfl), laneWord, hact, dactWord_identity (g := f32At s.mem (tileAddr cx.tile d.xbase) c) (y := f32At s.mem (tileAddr cx.tile d.ybase) c) hnx hny] at hout
      exact hout
    · rintro rfl hact hnx hny
      rw [hyeq (by rw [hact]; rfl), laneWord, hact, dactWord_relu (g := f32At s.mem (tileAddr cx.tile d.xbase) c) (y := f32At s.mem (tileAddr cx.tile d.ybase) c) hnx hny] at hout
      exact hout
    · rintro rfl
      rw [hyeq rfl] at hout
      exact hout
    · rintro rfl
      rw [hyeq rfl] at hout
      exact hout
    · rintro rfl
      rw [hzeq rfl] at hout
      exact hout
  · intro a ha
    have ha := ha 0 (by omega)
    rw [htmem, hmem hv ho hslope]
    refine memRead_memWriteBytes_outside _ _ _ _ ?_
    rw [length_flatMap_leBytes, List.length_map, show (laneWords cx op d s.mem 0).length = 128 by simp [laneWords]]
    show a < tileAddr u.tile.val d.obase ∨ tileAddr u.tile.val d.obase + 4 * 128 ≤ a
    omega

end Sys2Proof.Proofs
end

section
/-! PROOFS. The reduction port: PUT, PUT_RELEASE and GET. -/

namespace Sys2Proof.Proofs

open Sys2Proof.Machine Sys2Proof.Laws

/-! ### One word of a PUT -/

theorem memReadF32_memWriteF32_same (m : Memory) (hm : Memory.wf m = true) (a : Nat) (v : F32) : memReadF32 (memWriteF32 m a v) a = v := by
  have := memReadNat_memWriteBytes m hm a 4 v.toNat [] []
  rw [List.nil_append, List.append_nil, List.length_nil, Nat.add_zero] at this
  unfold memReadF32 memWriteF32 memWriteNat
  rw [this, Nat.mod_eq_of_lt (by have := v.isLt; norm_num at this ⊢; exact this), BitVec.ofNat_toNat, BitVec.setWidth_eq]

theorem memRead_memWriteF32_outside (m : Memory) (a x : Nat) (v : F32) (h : x < a ∨ a + 4 ≤ x) : memRead (memWriteF32 m a v) x = memRead m x :=
  memRead_memWriteBytes_outside _ _ _ _ (by rw [length_leBytes]; exact h)

theorem memReadF32_memWriteF32_other (m : Memory) (a b : Nat) (v : F32) (h : b + 4 ≤ a ∨ a + 4 ≤ b) : memReadF32 (memWriteF32 m a v) b = memReadF32 m b :=
  memReadF32_congr (fun i hi => memRead_memWriteF32_outside _ _ _ _ (by omega))

section
variable (cx : DescCtx) (field : Nat) (write : Bool) (d : PutD) (w0 : Nat)

/-- Word `c` of a row that a PUT adds or writes. -/
def putStep (ss : RedState) (p : (F32 × Cls) × Nat) : RedState :=
  let w := w0 + p.2
  let l := fieldLocus cx.step cx.htag p.2 5
  let s1 := { ss with meter := ss.meter.element l p.1.2 }
  if write then putWriteWord field w p.1.1 s1 else putAddWord cx.exact field d.cidx l w p.1.1 s1

theorem putStep_mem (h : write = true ∨ cx.exact = false) (ss : RedState) (p : (F32 × Cls) × Nat) :
    (putStep cx field write d w0 ss p).mem = memWriteF32 ss.mem (redAddr field (4 * (w0 + p.2)))
      (if write then p.1.1 else fAdd (flushF32 (memReadF32 ss.mem (redAddr field (4 * (w0 + p.2))))) p.1.1) := by
  unfold putStep
  cases write with
  | true => rfl
  | false =>
    have hexact : cx.exact = false := h.resolve_left (by decide)
    unfold putAddWord
    rw [hexact]
    rfl

theorem putStep_awaits (hw : write = true) (ss : RedState) (p : (F32 × Cls) × Nat) :
    (putStep cx field write d w0 ss p).awaits = smapErase ss.awaits (w0 + p.2) := by
  unfold putStep
  rw [if_pos hw]
  rfl

/-- The words of a row, one after another: each stands in its own four bytes. -/
theorem foldl_putStep (h : write = true ∨ cx.exact = false) (f : Nat → F32 × Cls) (n : Nat) (ss : RedState) (hm : Memory.wf ss.mem = true) :
    let r := (List.range n).foldl (fun ss c => putStep cx field write d w0 ss (f c, c)) ss
    Memory.wf r.mem = true ∧
      (∀ c, c < n → memReadF32 r.mem (redAddr field (4 * (w0 + c))) =
        if write then (f c).1 else fAdd (flushF32 (memReadF32 ss.mem (redAddr field (4 * (w0 + c))))) (f c).1) ∧
      (∀ a, a < redAddr field (4 * w0) ∨ redAddr field (4 * w0) + 4 * n ≤ a → memRead r.mem a = memRead ss.mem a) ∧
      (write = true → ∀ c, c < n → smapGet 0 r.awaits (w0 + c) = 0) := by
  induction n with
  | zero => exact ⟨hm, fun c hc => absurd hc (Nat.not_lt_zero c), fun _ _ => rfl, fun _ c hc => absurd hc (Nat.not_lt_zero c)⟩
  | succ n ih =>
    obtain ⟨hwf, hword, hout, haw⟩ := ih
    simp only [List.range_succ, List.foldl_append, List.foldl_cons, List.foldl_nil]
    generalize (List.range n).foldl (fun ss c => putStep cx field write d w0 ss (f c, c)) ss = r at *
    rw [putStep_mem cx field write d w0 h]
    have haddr : ∀ c, redAddr field (4 * (w0 + c)) = redAddr field (4 * w0) + 4 * c := fun c => by unfold redAddr; omega
    refine ⟨wf_memWriteNat _ _ _ _ hwf, fun c hc => ?_, fun a ha => ?_, fun hw c hc => ?_⟩
    · by_cases hcn : c = n
      · subst hcn
        have hold : memReadF32 r.mem (redAddr field (4 * (w0 + c))) = memReadF32 ss.mem (redAddr field (4 * (w0 + c))) :=
          memReadF32_congr (fun i hi => hout _ (by rw [haddr]; omega))
        rw [memReadF32_memWriteF32_same _ hwf, hold]
      · rw [memReadF32_memWriteF32_other _ _ _ _ (by dsimp only; rw [haddr, haddr]; omega), hword c (by omega)]
    · rw [memRead_memWriteF32_outside _ _ _ _ (by dsimp only; rw [haddr]; omega)]
      exact hout a (by omega)
    · rw [putStep_awaits cx field write d w0 hw, smapGet_smapErase]
      by_cases hcn : c = n
      · rw [if_pos (by rw [hcn])]
      · rw [if_neg (by dsimp only; omega)]
        exact haw hw c (by omega)

/-- What a PUT of one row leaves. -/
theorem putRows_one (hrows : d.src.nrows = 1) (s : RedState) (t : TileState) :
    putRows cx field write d s t =
      ((List.range 128).foldl (fun ss c => putStep cx field write d (d.dbase / 4) ss (readWord cx.exact d.msel (t.acc (rowsKey d.src 0)) c, c)) s,
        clearRow d.src.clear (rowsKey d.src 0) t) := by
  unfold putRows
  rw [hrows, if_neg (by decide)]
  show ((readRow cx.exact d.msel (t.acc (rowsKey d.src 0))).zipIdx.foldl (putStep cx field write d ((d.dbase + 0 * d.dstride) / 4)) s, _) = _
  rw [Nat.zero_mul, Nat.add_zero]
  refine congrArg (fun x => (x, clearRow d.src.clear (rowsKey d.src 0) t)) ?_
  have hzip : (readRow cx.exact d.msel (t.acc (rowsKey d.src 0))).zipIdx =
      (List.range 128).map (fun c => (readWord cx.exact d.msel (t.acc (rowsKey d.src 0)) c, c)) := by
    refine List.ext_getElem (by simp [readRow]) (fun i h1 h2 => ?_)
    simp [readRow]
  rw [hzip, List.foldl_map]

end

/-! ### The port -/

/-- What a field's status change leaves of a field: all but its status and its captures. -/
theorem fieldMeter_awaits (s : State) (f : Nat) (g : Meter → Meter) (k : Nat) : ((s.fieldMeter f g).fld k).awaits = (s.fld k).awaits := by
  have hmeter : ∀ g' : Meter → Meter, ((s.modMeter f g').fld k).awaits = (s.fld k).awaits := fun g' => by
    show ((s.modFld f _).fld k).awaits = _
    rw [modFld_fld]
    split
    case isTrue hk => rw [hk]
    case isFalse => rfl
  unfold State.fieldMeter
  dsimp only
  have hev : ∀ x : State, ((x.numericEvents f (s.fld f).meter.status).fld k).awaits = (x.fld k).awaits := fun x => by
    rw [(onlyEvents_numericEvents x f (s.fld f).meter.status).1]
    rfl
  rw [hev]
  split
  · exact hmeter g
  · split
    · rw [modFld_fld]
      split
      case isTrue hk =>
        subst hk
        show ((s.modMeter k _).fld k).awaits = _
        exact hmeter _
      case isFalse => exact hmeter _
    · exact hmeter g

theorem onlyFields_modGroup (s : State) (f g : Nat) (h : Group → Group) : OnlyFields s (s.modGroup f g h) := by
  unfold State.modGroup
  split
  · exact onlyFields_modFld ..
  · exact OnlyFields.refl s

theorem OnlyFields.tiles_eq {s t : State} (h : OnlyFields s t) : t.tiles = s.tiles := by
  unfold OnlyFields at h
  rw [h]

theorem OnlyFields.tile_eq {s t : State} (h : OnlyFields s t) (n : Nat) : t.tile n = s.tile n := by
  unfold State.tile
  rw [h.tiles_eq]

theorem OnlyFields.mem_eq {s t : State} (h : OnlyFields s t) : t.mem = s.mem := by
  unfold OnlyFields at h
  rw [h]

section
variable (s : State) (cx : DescCtx) (eval write : Bool) (d : PutD)

/-- What a PUT that is not discarded leaves. -/
theorem putNow_spec (hdrop : s.putDrops (cx.tile / 16) eval d = false) :
    let fd := s.fld (cx.tile / 16)
    let r := putRows cx (cx.tile / 16) write d { mem := s.mem, awaits := fd.awaits, placed := fd.placed, meter := fd.meter } (s.tile cx.tile)
    (s.putNow cx eval write d).mem = r.1.mem ∧ (∀ n, (s.putNow cx eval write d).tile n = if n = cx.tile then r.2 else s.tile n) ∧
      ((s.putNow cx eval write d).fld (cx.tile / 16)).awaits = r.1.awaits := by
  unfold State.putNow
  dsimp only
  rw [if_neg (by simp [hdrop])]
  generalize putRows cx (cx.tile / 16) write d _ (s.tile cx.tile) = r
  have hf := onlyFields_fieldMeter ((State.setTile { s with mem := r.1.mem } cx.tile r.2).modFld (cx.tile / 16)
    (fun x => { x with awaits := r.1.awaits, placed := r.1.placed })) (cx.tile / 16) (fun _ => r.1.meter)
  refine ⟨hf.mem_eq, fun n => (hf.tile_eq n).trans (setTile_tile ..), ?_⟩
  rw [fieldMeter_awaits, modFld_fld, if_pos rfl]

theorem foldl_clearRow_only (on : Bool) (l : List Nat) (k : Nat → Nat) (t : TileState) :
    ∃ accs, l.foldl (fun tt q => clearRow on (k q) tt) t = { t with accs := accs } := by
  induction l generalizing t with
  | nil => exact ⟨t.accs, rfl⟩
  | cons q l ih =>
    obtain ⟨accs, h⟩ := ih (clearRow on (k q) t)
    refine ⟨accs, ?_⟩
    rw [List.foldl_cons, h]
    unfold clearRow
    split <;> rfl

/-- The rows a PUT has read are cleared when asked; nothing else of its tile changes. -/
theorem putRows_tile (field : Nat) (r : RedState) (t : TileState) : ∃ accs, (putRows cx field write d r t).2 = { t with accs := accs } := by
  unfold putRows
  split
  · exact ⟨t.accs, rfl⟩
  · refine foldl_rel (R := fun a b : RedState × TileState => ∃ accs, b.2 = { a.2 with accs := accs }) (fun a => ⟨a.2.accs, rfl⟩) ?_ _ (fun a q => ?_) _ _
    · rintro a b c ⟨x, hx⟩ ⟨y, hy⟩
      exact ⟨y, by rw [hy, hx]⟩
    · unfold clearRow
      dsimp only
      split
      · exact ⟨_, rfl⟩
      · exact ⟨_, rfl⟩

/-- A PUT, discarded or not, changes the accumulators of its own tile alone. -/
theorem putNow_tiles : (∃ accs, (s.putNow cx eval write d).tile cx.tile = { s.tile cx.tile with accs := accs }) ∧
    ∀ n, n ≠ cx.tile → (s.putNow cx eval write d).tile n = s.tile n := by
  by_cases hdrop : s.putDrops (cx.tile / 16) eval d = true
  · have htiles : (s.putNow cx eval write d).tiles = (s.modTile cx.tile (putDiscard d)).tiles := by
      unfold State.putNow
      dsimp only
      rw [if_pos hdrop]
      refine forAll_keeps (fun x => x.tiles = (s.modTile cx.tile (putDiscard d)).tiles) _ _ (fun x g _ hx => ?_) _ rfl
      refine ((onlyFields_of_events (onlyEvents_event ..)).tiles_eq).trans (Eq.trans ?_ hx)
      exact (onlyFields_modGroup ..).tiles_eq
    have htile : ∀ n, (s.putNow cx eval write d).tile n = if n = cx.tile then putDiscard d (s.tile cx.tile) else s.tile n := fun n => by
      unfold State.tile at *
      rw [htiles]
      exact modTile_tile ..
    refine ⟨?_, fun n hn => by rw [htile, if_neg hn]⟩
    rw [htile, if_pos rfl]
    exact foldl_clearRow_only ..
  · obtain ⟨-, htile, -⟩ := putNow_spec s cx eval write d (by simpa using hdrop)
    refine ⟨?_, fun n hn => by rw [htile, if_neg hn]⟩
    rw [htile, if_pos rfl]
    exact putRows_tile ..

end

section
variable {s : State} {u : Issuer} {h : DHdr} {d : PutD} {w : Bool}

/-- A PUT acts once, and no capture is on its way. -/
theorem unitDone_put {cx : DescCtx} (hcx : cx.tile = u.tile.val) (eval : Bool) :
    unitDone s u (.put w d) h (s.putNow cx eval w d) = (s.putNow cx eval w d).acted u { hdr := h, kind := .put w d } ∧
      ActedOnce s ((s.putNow cx eval w d).acted u { hdr := h, kind := .put w d }) u (.put w d) h := by
  obtain ⟨⟨accs, htile⟩, hother⟩ := putNow_tiles s cx eval w d
  rw [hcx] at htile hother
  have heq : unitDone s u (.put w d) h (s.putNow cx eval w d) = (s.putNow cx eval w d).acted u { hdr := h, kind := .put w d } :=
    unitDone_of_same_status (by rw [htile])
  refine ⟨heq, heq ▸ unitDone_acted ?_ hother⟩
  unfold tileOf
  rw [htile]

theorem exec_put (hr : unitReady s u (.put w d) h = true) (hw : w = true ∨ s.exactFor u { hdr := h, kind := .put w d } = false) :
    ∃ eval, exec (if w then .putWrite u h d else .putAdd u h d) s = .next (unitDone s u (.put w d) h
      (s.putNow (s.descCtx u { hdr := h, kind := .put w d }) eval w d)) := by
  cases w with
  | true =>
    refine ⟨s.evalEntry u { hdr := h, kind := .put true d }, ?_⟩
    show execPutWrite u h d s = _
    unfold execPutWrite
    rw [runUnit_of_ready hr]
  | false =>
    have hexact := hw.resolve_left (by decide)
    have hsome : (s.actEntry u { hdr := h, kind := .put false d }).isSome = true := by
      unfold unitReady at hr
      simp only [Bool.and_eq_true] at hr
      exact hr.1.1.2
    obtain ⟨e, he⟩ := Option.isSome_iff_exists.mp hsome
    have hwaits : s.putWaits u.tile.val e = false := by
      unfold State.putWaits
      split
      · have : s.exactEntry u.tile.val e = false := by
          unfold State.exactFor at hexact
          rw [he] at hexact
          exact hexact
        rw [this]
        simp
      · rfl
    refine ⟨e.eval, ?_⟩
    show execPutAdd u h d s = _
    unfold execPutAdd
    dsimp only
    rw [he]
    dsimp only
    rw [hwaits, if_neg (by simp), runUnit_of_ready hr]

/-- The base of a PUT is aligned (R176). -/
theorem put_aligned (hr : unitReady s u (.put w d) h = true) : d.dbase % 64 = 0 := by
  have := unitReady_checks hr (dkAlign (d.dbase % 64 == 0) 12) (by
    unfold State.descChecks
    refine List.mem_append_right _ ?_
    simp [operandsOf, opdChecks])
  simpa [dkAlign] using this

end

/-- The word, awaited indices and rows of a PUT of one row. -/
theorem put_one {s : State} {u : Issuer} {h : DHdr} {w : Bool} {d : PutD} (hm : MemInv s) (hr : unitReady s u (.put w d) h = true)
    (hrows : d.src.nrows = 1) (hgroups : s.putGroups (u.tile.val / 16) d = []) (hw : w = true ∨ s.exactFor u { hdr := h, kind := .put w d } = false)
    (eval : Bool) :
    let t := unitDone s u (.put w d) h (s.putNow (s.descCtx u { hdr := h, kind := .put w d }) eval w d)
    let v := fun c => (readWord (s.exactFor u { hdr := h, kind := .put w d }) d.msel ((tileOf s u).acc (rowsKey d.src 0)) c).1
    let a := fun c => redAddr (u.tile.val / 16) (d.dbase + 4 * c)
    (∀ c, c < 128 → memReadF32 t.mem (a c) = if w then v c else fAdd (flushF32 (memReadF32 s.mem (a c))) (v c)) ∧
      (∀ c, c < 128 → w = true → smapGet 0 (t.fld (u.tile.val / 16)).awaits (d.dbase / 4 + c) = 0) ∧
      OutsideRows s.mem t.mem (redAddr (u.tile.val / 16) d.dbase) 0 1 512 ∧
      ∀ k, (tileOf t u).acc k = (clearRow d.src.clear (rowsKey d.src 0) (tileOf s u)).acc k := by
  have hdrop : s.putDrops (u.tile.val / 16) eval d = false := by
    unfold State.putDrops
    rw [hgroups]
    simp
  obtain ⟨hmem, htile, haw⟩ := putNow_spec s (s.descCtx u { hdr := h, kind := .put w d }) eval w d hdrop
  rw [putRows_one _ _ _ _ hrows] at hmem htile haw
  obtain ⟨-, hword, hout, hzero⟩ := foldl_putStep (s.descCtx u { hdr := h, kind := .put w d }) (u.tile.val / 16) w d (d.dbase / 4) hw
    (readWord (s.exactFor u { hdr := h, kind := .put w d }) d.msel ((tileOf s u).acc (rowsKey d.src 0))) 128
    { mem := s.mem, awaits := (s.fld (u.tile.val / 16)).awaits, placed := (s.fld (u.tile.val / 16)).placed, meter := (s.fld (u.tile.val / 16)).meter } hm.1
  have hcaps := unitDone_capsOnly (s := s) (u := u) (k := .put w d) (h := h)
    (s1 := s.putNow (s.descCtx u { hdr := h, kind := .put w d }) eval w d) (u.tile.val / 16)
  have hdone := unitDone_tile (s := s) (u := u) (k := .put w d) (h := h) (s1 := s.putNow (s.descCtx u { hdr := h, kind := .put w d }) eval w d)
  have htmem := unitDone_mem (s := s) (u := u) (k := .put w d) (h := h) (s1 := s.putNow (s.descCtx u { hdr := h, kind := .put w d }) eval w d)
  rw [show tileOf (s.putNow (s.descCtx u { hdr := h, kind := .put w d }) eval w d) u = clearRow d.src.clear (rowsKey d.src 0) (tileOf s u) from
    (htile _).trans (if_pos rfl)] at hdone
  have hbase : 4 * (d.dbase / 4) = d.dbase := by have := put_aligned hr; omega
  have haddr : ∀ c, redAddr (u.tile.val / 16) (4 * (d.dbase / 4 + c)) = redAddr (u.tile.val / 16) (d.dbase + 4 * c) := fun c => by rw [Nat.mul_add, hbase]
  refine ⟨fun c hc => ?_, fun c hc hw' => ?_, fun a ha => ?_, fun k => ?_⟩
  · dsimp only
    rw [htmem, hmem, ← haddr]
    exact hword c hc
  · refine (congrArg (fun x => smapGet 0 x (d.dbase / 4 + c)) ((congrArg Field.awaits hcaps).trans haw)).trans ?_
    exact hzero hw' c hc
  · have ha := ha 0 (by omega)
    rw [htmem, hmem]
    refine hout a ?_
    rw [hbase]
    omega
  · rw [hdone]
    rfl

/-- Settles O23, by the words, rows and bytes that each row of the port changes. -/
theorem reductionPortRows : Obligations.ReductionPortRows := by
  unfold Obligations.ReductionPortRows
  refine ⟨fun s u h w d hm hr hrows hgroups hw => ?_, fun s u h d hr hwaits => ?_, fun s u h d e hfind hdesc hwaits => ?_,
    fun s u h d e hserved hturn hfind hdesc hact hgens hwaits => ?_, fun s u h d hm hr => ?_⟩
  · obtain ⟨eval, hexec⟩ := exec_put hr hw
    obtain ⟨hword, hzero, hout, hacc⟩ := put_one hm hr hrows hgroups hw eval
    obtain ⟨heq, hacted⟩ := unitDone_put (s := s) (u := u) (h := h) (d := d) (w := w) (cx := s.descCtx u { hdr := h, kind := .put w d }) rfl eval
    rw [← heq] at hacted
    generalize unitDone s u (.put w d) h (s.putNow (s.descCtx u { hdr := h, kind := .put w d }) eval w d) = t at *
    have hclear : ∀ k, (clearRow d.src.clear (rowsKey d.src 0) (tileOf s u)).acc k =
        if d.src.clear = true ∧ k = rowsKey d.src 0 then {} else (tileOf s u).acc k := fun k => by
      unfold clearRow
      by_cases hc : d.src.clear = true
      · rw [if_pos hc]
        refine (smapGet_smapErase ..).trans ?_
        simp only [hc, true_and]
        rfl
      · rw [if_neg hc, if_neg (fun h => hc h.1)]
    refine ⟨t, hexec, hacted, ⟨hword, hzero, hout⟩, fun k hk => ?_, fun hc => ?_⟩
    · rw [hacc, hclear, if_neg]
      rintro ⟨hc, hkey⟩
      rcases hk with hk | hk
      · exact hk hkey
      · exact absurd hc (by simp [hk])
    · rw [hacc, hclear, if_pos ⟨hc, rfl⟩]
  · obtain ⟨-, hserved, hturn, -⟩ := unitReady_parts hr
    have hsome : (s.actEntry u { hdr := h, kind := .put false d }).isSome = true := by
      unfold unitReady at hr
      simp only [Bool.and_eq_true] at hr
      exact hr.1.1.2
    obtain ⟨e, he⟩ := Option.isSome_iff_exists.mp hsome
    refine ⟨s.modTq u.tile.val u.queue.val (fun x => { x with started := modFirst (fun e => !e.acted &&
      decide (e.desc = ({ hdr := h, kind := .put false d } : Descriptor))) (fun e => { e with held := true }) x.started }), ?_, modTq_only .., ?_,
      fun n hn => modTq_tile_other _ _ _ _ hn, ?_⟩
    · show execPutAdd u h d s = _
      unfold execPutAdd
      dsimp only
      rw [he]
      dsimp only
      rw [hwaits e he, hserved, hturn, if_pos (by decide)]
    · unfold tileOf
      rw [modTq_tile_self]
    · unfold tileOf
      rw [modTq_queue_self]
  · show execPutRelease u s = _
    unfold execPutRelease
    change (s.tile u.tile.val |>.queue u.queue.val).started.find? (fun e => e.held && !e.acted) = some e at hfind
    rw [hfind]
    dsimp only
    rw [hdesc]
    dsimp only
    rw [hwaits, if_pos (by simp)]
  · obtain ⟨heq, hacted⟩ := unitDone_put (s := s) (u := u) (h := h) (d := d) (w := false)
      (cx := s.descCtx u { hdr := h, kind := .put false d }) rfl e.eval
    have hrelease : exec (.putRelease u) s = .next ((s.putNow (s.descCtx u { hdr := h, kind := .put false d }) e.eval false d).acted u
        { hdr := h, kind := .put false d }) := by
      show execPutRelease u s = _
      unfold execPutRelease
      change (s.tile u.tile.val |>.queue u.queue.val).started.find? (fun e => e.held && !e.acted) = some e at hfind
      rw [hfind]
      dsimp only
      rw [hdesc]
      dsimp only
      rw [hwaits, hserved, if_neg (by decide)]
    rw [hdesc] at hact
    have hlanes : ∀ g : State → State, s.withLanes u { hdr := h, kind := .put false d } g = g s := by
      intro g
      unfold State.withLanes
      dsimp only
      rw [hact]
      dsimp only
      rw [show (s.tile u.tile.val).seedGens = [] from hgens]
      rfl
    have hadd : exec (.putAdd u h d) s = .next (unitDone s u (.put false d) h
        (s.putNow (s.descCtx u { hdr := h, kind := .put false d }) e.eval false d)) := by
      show execPutAdd u h d s = _
      unfold execPutAdd
      dsimp only
      rw [hact]
      dsimp only
      rw [hwaits, if_neg (by simp)]
      unfold State.runUnit
      dsimp only
      rw [hserved, hturn, if_neg (by decide), hlanes]
      rfl
    exact ⟨by rw [hrelease, hadd, heq], _, hrelease, hacted⟩
  · have hexec : exec (.get u h d) s = .next (unitDone s u (.get d) h { s with mem := getEffect u.tile.val (u.tile.val / 16) d s.mem }) := by
      show execGet u h d s = _
      unfold execGet
      rw [runUnit_of_ready hr]
      rfl
    have hdone : unitDone s u (.get d) h { s with mem := getEffect u.tile.val (u.tile.val / 16) d s.mem } =
        ({ s with mem := getEffect u.tile.val (u.tile.val / 16) d s.mem } : State).acted u { hdr := h, kind := .get d } := unitDone_of_same_status rfl
    have hacted : ActedOnce s (unitDone s u (.get d) h { s with mem := getEffect u.tile.val (u.tile.val / 16) d s.mem }) u (.get d) h :=
      unitDone_acted rfl (fun _ _ => rfl)
    rw [hdone] at hexec hacted
    refine ⟨_, hexec, hacted, rfl, ?_, fun a => ?_⟩
    · unfold tileOf State.acted
      rw [modTq_tile_self]
      rfl
    · show memRead (memCopy s.mem (redAddr (u.tile.val / 16) d.sbase) (tileAddr u.tile.val d.tbase) d.len) a = _
      have hlen : (memReadBytes s.mem (redAddr (u.tile.val / 16) d.sbase) d.len).length = d.len := by simp [memReadBytes]
      unfold memCopy
      by_cases ha : tileAddr u.tile.val d.tbase ≤ a ∧ a < tileAddr u.tile.val d.tbase + d.len
      · rw [if_pos ha]
        obtain ⟨i, rfl⟩ := Nat.exists_eq_add_of_le ha.1
        have hi : i < d.len := by omega
        rw [memRead_memWriteBytes _ _ _ _ hm.1 (by rw [hlen]; exact hi), Nat.add_sub_cancel_left]
        exact getD_map_range _ _ hi
      · rw [if_neg ha, memRead_memWriteBytes_outside _ _ _ _ (by rw [hlen]; omega)]

end Sys2Proof.Proofs
end

section
/-! PROOFS. MARK, WAIT and FENCE, and the rows of a unit that nothing has been handed to. -/

namespace Sys2Proof.Proofs

open Sys2Proof.Machine Sys2Proof.Laws

section
variable {s : State} {u : Issuer} {h : DHdr} {k : DKind}

/-- A unit whose row does nothing but act. -/
theorem unitDone_self : ActedOnce s (unitDone s u k h s) u k h ∧ unitDone s u k h s = { s with tiles := (unitDone s u k h s).tiles } ∧
    tileOf (unitDone s u k h s) u = { tileOf s u with queues := (tileOf (unitDone s u k h s) u).queues } := by
  have hacted : ActedOnce s (unitDone s u k h s) u k h := unitDone_acted rfl (fun _ _ => rfl)
  have htile := unitDone_tile (s := s) (s1 := s) (u := u) (k := k) (h := h)
  refine ⟨hacted, ?_, by rw [htile]⟩
  rw [unitDone_of_same_status rfl]
  rfl

theorem reachMarks_of_idle (hb : s.bcn.begun = false) : s.reachMarks = s := by
  unfold State.reachMarks
  rw [if_neg (by simp [hb])]

theorem unitReady_entry (hr : unitReady s u k h = true) : ∃ e, s.actEntry u { hdr := h, kind := k } = some e := by
  unfold unitReady at hr
  simp only [Bool.and_eq_true] at hr
  exact Option.isSome_iff_exists.mp hr.1.1.2

/-- Without a started descriptor still to act, a unit leaves the state as it is (R177). -/
theorem runUnit_of_no_entry (he : s.actEntry u { hdr := h, kind := k } = none) (eff : DescCtx → State → State) : s.runUnit u h k eff = .next s :=
  runUnit_of_no_turn (by unfold State.unitTurn; rw [he])

end

/-- Settles O24, by the condition of each row. -/
theorem markWaitFence : Obligations.MarkWaitFence := by
  unfold Obligations.MarkWaitFence
  refine ⟨fun s u h n hr hb => ?mark, fun s u h d hr hmode => ⟨fun hsem => ?take, fun hsem => ?short⟩,
    fun s u h d hr hmode => ⟨fun hpoint => ?past, fun hpoint => ?early⟩, fun s u h q e hr he => ⟨fun hopen => ?opens, fun hopen => ?closed⟩⟩
  case mark =>
    let g : TileState → TileState := fun t => if s.isTrainField (u.tile.val / 16) then { t with marks := Nat.lor t.marks (2 ^ n) } else t
    obtain ⟨e, he⟩ := unitReady_entry hr
    have hexec : exec (.mark u h n) s = .next (unitDone s u (.mark n) h
        (if s.isTrainField (u.tile.val / 16) then s.modTile u.tile.val (fun t => { t with marks := Nat.lor t.marks (2 ^ n) }) else s)) := by
      show execMark u h n s = _
      unfold execMark
      rw [he, if_neg (by simp), runUnit_of_ready hr]
      refine congrArg Host.Outcome.next (reachMarks_of_idle ?_)
      rw [unitDone_only]
      split <;> exact hb
    by_cases htrain : s.isTrainField (u.tile.val / 16) = true
    · rw [if_pos htrain] at hexec
      obtain ⟨hacted, honly, htile⟩ := unitDone_modTile (s := s) (u := u) (k := .mark n) (h := h) (g := fun t => { t with marks := Nat.lor t.marks (2 ^ n) }) rfl rfl
      generalize unitDone s u (.mark n) h (s.modTile u.tile.val (fun t => { t with marks := Nat.lor t.marks (2 ^ n) })) = t at *
      exact ⟨t, hexec, hacted, honly, by rw [htile], by rw [htile, if_pos htrain]⟩
    · rw [if_neg htrain] at hexec
      obtain ⟨hacted, honly, htile⟩ := unitDone_self (s := s) (u := u) (k := .mark n) (h := h)
      generalize unitDone s u (.mark n) h s = t at *
      exact ⟨t, hexec, hacted, honly, by rw [htile], by rw [htile, if_neg htrain]⟩
  case take =>
    have hopen : s.waitOpen u.tile.val 0 d = true := by
      unfold State.waitOpen
      rw [if_pos hmode]
      exact decide_eq_true hsem
    have hexec : exec (.waitSemaphore u h d) s = .next (unitDone s u (.wait d) h
        (s.modTile u.tile.val (fun t => { t with sems := smapModify 0 t.sems d.sem (fun v => v - d.count) }))) := by
      show execWaitSemaphore u h d s = _
      unfold execWaitSemaphore
      rw [if_pos (by simp [hmode, hopen]), runUnit_of_ready hr]
      rfl
    obtain ⟨hacted, honly, htile⟩ := unitDone_modTile (s := s) (u := u) (k := .wait d) (h := h)
      (g := fun t => { t with sems := smapModify 0 t.sems d.sem (fun v => v - d.count) }) rfl rfl
    generalize unitDone s u (.wait d) h (s.modTile u.tile.val (fun t => { t with sems := smapModify 0 t.sems d.sem (fun v => v - d.count) })) = t at *
    refine ⟨t, hexec, hacted, honly, by rw [htile], fun i => ?_⟩
    rw [htile]
    refine (smapGet_smapModify 0 (tileOf s u).sems d.sem i (fun v => v - d.count)).trans ?_
    by_cases hi : i = d.sem
    · rw [if_pos hi, if_pos hi, hi]
    · rw [if_neg hi, if_neg hi]
  case short =>
    have hclosed : s.waitOpen u.tile.val 0 d = false := by
      unfold State.waitOpen
      rw [if_pos hmode]
      exact decide_eq_false (Nat.not_le.mpr hsem)
    show execWaitSemaphore u h d s = _
    unfold execWaitSemaphore
    rw [if_neg (by simp [hclosed])]
  case past =>
    have hopen : s.waitOpen u.tile.val (s.waitStepOf u h d) d = true := by
      unfold State.waitOpen
      rw [if_neg hmode]
      exact hpoint
    have hexec : exec (.waitMark u h d) s = .next (unitDone s u (.wait d) h s) := by
      show execWaitMark u h d s = _
      unfold execWaitMark
      rw [if_pos (by simp [hmode, hopen]), runUnit_of_ready hr]
    obtain ⟨hacted, honly, htile⟩ := unitDone_self (s := s) (u := u) (k := .wait d) (h := h)
    exact ⟨_, hexec, hacted, honly, htile⟩
  case early =>
    have hclosed : s.waitOpen u.tile.val (s.waitStepOf u h d) d = false := by
      unfold State.waitOpen
      rw [if_neg hmode]
      exact hpoint
    show execWaitMark u h d s = _
    unfold execWaitMark
    rw [if_neg (by simp [hclosed])]
  case opens =>
    have hexec : exec (.fence u h q) s = .next (unitDone s u (.fence q) h s) := by
      show execFence u h q s = _
      unfold execFence
      rw [he]
      dsimp only
      rw [if_pos hopen, runUnit_of_ready hr]
    obtain ⟨hacted, honly, htile⟩ := unitDone_self (s := s) (u := u) (k := .fence q) (h := h)
    exact ⟨_, hexec, hacted, honly, htile⟩
  case closed =>
    show execFence u h q s = _
    unfold execFence
    rw [he]
    dsimp only
    rw [if_neg (by simp [hopen])]

/-- Settles O25, by the turn that no descriptor has. -/
theorem unitRowsNeedAStartedDescriptor : Obligations.UnitRowsNeedAStartedDescriptor := by
  unfold Obligations.UnitRowsNeedAStartedDescriptor
  intro s u h k hnone
  refine ⟨fun d errs hk => ?_, fun d hk => ?_, fun d hk => ?_, fun n hk => ?_, fun d hk => ⟨?_, ?_⟩, fun d hk => ?_, fun op d hk => ?_, fun op d hk => ?_,
    fun d hk => ?_, fun d hk => ?_, fun d hk => ?_, fun d hk => ⟨?_, ?_⟩, fun n hk => ?_, fun n hk => ?_⟩
  all_goals subst hk
  all_goals have hrun := runUnit_of_no_entry hnone
  · show execLoad u h d errs s = _
    exact hrun _
  · show execStore u h d s = _
    exact hrun _
  · show execStage u h d s = _
    exact hrun _
  · show execSwap u h n s = _
    exact hrun _
  · show execPass u h d s = _
    unfold execPass
    rw [hrun, ite_self]
  · show execPairedPass u h d s = _
    unfold execPairedPass
    rw [hrun, ite_self]
  · show execDrain u h d s = _
    exact hrun _
  · by_cases hop : op ≤ 8
    · refine .inl (Eq.trans ?_ (hrun (fun cx s => rowState s cx d op)))
      clear hrun hnone
      interval_cases op <;> rfl
    · exact .inr (by omega)
  · by_cases hop : op ≤ 10
    · refine .inl (Eq.trans ?_ (hrun (fun cx s => s.onTile cx.tile (laneEffect cx op d))))
      clear hrun hnone
      interval_cases op <;> rfl
    · exact .inr (by omega)
  · show execPutAdd u h d s = _
    unfold execPutAdd
    dsimp only
    rw [hnone]
  · show execPutWrite u h d s = _
    exact hrun _
  · show execGet u h d s = _
    exact hrun _
  · show execWaitSemaphore u h d s = _
    unfold execWaitSemaphore
    rw [hrun, ite_self]
  · show execWaitMark u h d s = _
    unfold execWaitMark
    rw [hrun, ite_self]
  · show execFence u h n s = _
    unfold execFence
    rw [hnone]
    exact hrun _
  · show execMark u h n s = _
    unfold execMark
    rw [hnone]
    rfl

end Sys2Proof.Proofs
end

section
/-! PROOFS. The step line's commands. -/

namespace Sys2Proof.Proofs

open Sys2Proof.Machine Sys2Proof.Laws

/-! ### Frames go out as they would with another step line and another host link -/

/-- The state with another step line and another host link. -/
def withLine (b : Beacon) (hl : HostLink) (s : State) : State := { s with bcn := b, host := hl }

section
variable (b : Beacon) (hl : HostLink) (s : State)

theorem linkSend_withLine (p : Nat) (f : FabFrame) : (withLine b hl s).linkSend p f = withLine b hl (s.linkSend p f) := by
  unfold State.linkSend
  by_cases hup : ((s.port p).state != 2) = true
  · rw [if_pos hup, if_pos (show ((withLine b hl s).port p).state != 2 from hup)]
  · rw [if_neg hup, if_neg (show ¬ (((withLine b hl s).port p).state != 2) = true from hup)]
    rfl

theorem flareSend_withLine (p : Nat) (f : FlareFrame) : (withLine b hl s).flareSend p f = withLine b hl (s.flareSend p f) := linkSend_withLine ..

theorem forAll_withLine {α : Type} (xs : List α) (g : State → α → State) (hg : ∀ s x, g (withLine b hl s) x = withLine b hl (g s x)) :
    (withLine b hl s).forAll xs g = withLine b hl (s.forAll xs g) := by
  unfold State.forAll
  induction xs generalizing s with
  | nil => rfl
  | cons x xs ih => rw [List.foldl_cons, List.foldl_cons, hg, ih]

theorem broadcast_withLine (f : FlareFrame) (hk : b.keeperId = s.bcn.keeperId) (hf : b.fences = s.bcn.fences) :
    (withLine b hl s).broadcast f = withLine b hl (s.broadcast f) := by
  have hchildren : (withLine b hl s).children = s.children := by
    show (match s.self, s.blob.member b.keeperId with
      | some m, some k => childPorts s.blob b.fences k m
      | _, _ => []) = _
    rw [hk, hf]
    rfl
  unfold State.broadcast
  rw [hchildren]
  exact forAll_withLine b hl (s.emit (.broadcast f)) _ _ (fun s p => flareSend_withLine b hl s p f)

theorem parent_withLine (hk : b.keeperId = s.bcn.keeperId) (hf : b.fences = s.bcn.fences) : (withLine b hl s).parent = s.parent := by
  show (match s.self, s.blob.member b.keeperId with
    | some m, some k => if m.id = k.id then none else parentPort s.blob b.fences k m
    | _, _ => none) = _
  rw [hk, hf]
  rfl

end

/-- A frame toward the keeper, or nothing where there is no way. -/
def towardKeeper (s : State) (f : FlareFrame) : State := match s.parent with | some p => s.flareSend p f | none => s

theorem towardKeeper_withLine (b : Beacon) (hl : HostLink) (s : State) (f : FlareFrame) (hk : b.keeperId = s.bcn.keeperId) (hf : b.fences = s.bcn.fences) :
    towardKeeper (withLine b hl s) f = withLine b hl (towardKeeper s f) := by
  unfold towardKeeper
  rw [parent_withLine b hl s hk hf]
  cases s.parent with
  | none => rfl
  | some p => exact flareSend_withLine ..

theorem flareUp_of_not_keeper {s : State} (hk : s.isKeeper = false) (f : FlareFrame) : s.flareUp f = towardKeeper s f := by
  unfold State.flareUp
  rw [if_neg (by simp [hk])]
  rfl

theorem flareUp_of_keeper {s : State} (hk : s.isKeeper = true) (f : FlareFrame) (h7 : f.key = 7) : s.flareUp f = s.lineOrder f := by
  unfold State.flareUp
  rw [if_pos hk, if_pos h7]

/-- What the step line's own frames leave: the ports and the outbox apart, nothing changes. -/
theorem towardKeeper_eq (s : State) (f : FlareFrame) : ∃ ps ob, towardKeeper s f = { s with fab := { s.fab with ports := ps }, outbox := ob } := by
  unfold towardKeeper
  split
  · exact linkSend_eq ..
  · exact ⟨s.fab.ports, s.outbox, rfl⟩

/-! ### STEP_START -/

section
variable {s : State} {h : Hdr}

theorem beginRound_withLine (hl : HostLink) (hls : hl.state = 2) {s0 : Nat} (hs0 : s0 ≤ 2 ^ 48 - 2) (b : Beacon) (hhold : b.hold = false)
    (hreq : b.startReq = some s0) (hkeeper : b.keeperId = s.bcn.keeperId) (hfences : b.fences = s.bcn.fences) :
    (withLine b hl s).beginRound s0 =
      if s.outer.state = 4 then withLine { b with advance := some s0 } hl s
      else if b.ext then withLine { b with advance := some s0 } hl { s with outbox := s.outbox ++ [.readyFwd s0] }
      else withLine { b with running := true, opened := true } hl
        (s.broadcast { op := 7, key := 3, index := 0, step := s0, attempt := b.attempt, payload := [] }) := by
  have hrange : ¬ 2 ^ 48 ≤ s0 := by omega
  have hany : b.startReq.any (fun n => n != s0) = false := by simp [hreq]
  unfold State.beginRound
  dsimp only
  by_cases h4 : s.outer.state = 4
  · rw [if_pos h4, if_pos (by simp only [Bool.or_eq_true, decide_eq_true_eq]; exact .inl (.inl (.inr h4)))]
    rfl
  · rw [if_neg h4, if_neg (by
      simp only [Bool.or_eq_true, decide_eq_true_eq]
      rintro (((hh | hh) | hh) | hh)
      · exact absurd hh (by simp [withLine, hhold])
      · exact h4 hh
      · exact hrange hh
      · exact absurd hh (by simp [withLine, hany]))]
    by_cases hext : b.ext = true
    · rw [if_pos hext, if_pos (show (withLine b hl s).bcn.ext = true from hext)]
      show (withLine { b with advance := some s0 } hl s).tell .sideband (.readyFwd s0) = _
      unfold State.tell State.post
      exact (if_pos hls).trans rfl
    · rw [if_neg hext, if_neg (show ¬ (withLine b hl s).bcn.ext = true from hext)]
      exact broadcast_withLine { b with running := true, opened := true } hl s _ hkeeper hfences

theorem startLine_withLine (hl : HostLink) (hls : hl.state = 2) {s0 : Nat} (hs0 : s0 ≤ 2 ^ 48 - 2) (x : Beacon)
    (hkeeper : x.keeperId = s.bcn.keeperId) (hfences : x.fences = s.bcn.fences) :
    let b := { x with hold := false, stopReq := false, startReq := some s0 }
    let out := s.broadcast { op := 7, key := 3, index := 0, step := s0, attempt := x.attempt, payload := [] }
    (x.advance ≠ some s0 ∨ s.outer.state = 4 → (withLine x hl s).startLine s0 = withLine b hl s) ∧
      (x.advance = some s0 → s.outer.state ≠ 4 → x.ext = false →
        (withLine x hl s).startLine s0 = withLine { b with advance := none, running := true, opened := true } hl out) ∧
      (x.advance = some s0 → s.outer.state ≠ 4 → x.ext = true →
        (withLine x hl s).startLine s0 = withLine b hl { s with outbox := s.outbox ++ [.readyFwd s0] }) := by
  intro b out
  have hgo : x.advance = some s0 → (withLine x hl s).startLine s0 = (withLine { b with advance := none } hl s).beginRound s0 := fun hadv => by
    unfold State.startLine
    exact (if_pos hadv).trans rfl
  have hround := fun hadv => (hgo hadv).trans (beginRound_withLine hl hls hs0 { b with advance := none } rfl rfl hkeeper hfences)
  have hback : x.advance = some s0 → { b with advance := some s0 } = b := fun hadv => by rw [← hadv]
  refine ⟨fun h => ?_, fun hadv h4 hext => ?_, fun hadv h4 hext => ?_⟩
  · by_cases hadv : x.advance = some s0
    · rw [hround hadv, if_pos (h.resolve_left (fun hn => hn hadv))]
      exact congrArg (fun b => withLine b hl s) (hback hadv)
    · unfold State.startLine
      exact (if_neg hadv).trans rfl
  · rw [hround hadv, if_neg h4, if_neg (by simp [b, hext])]
  · rw [hround hadv, if_neg h4, if_pos (show ({ b with advance := none } : Beacon).ext = true from hext)]
    exact congrArg (fun b => withLine b hl _) (hback hadv)

theorem exec_stepStart {s0 : Nat} (hu : UidInv s) (hs : starts s h (.stepStart s0) = true) :
    exec (.stepStart h s0) s = .next (((withLine { s.bcn with sinceStart := false } (handLink s h (.stepStart s0)) s).flareUp
      (stopFrame 3 s0 s.bcn.attempt)).finish s.host.nextUid stDone []) :=
  exec_hand rfl hs rfl hu rfl

/-- The checks of a start (R509). -/
theorem stepStart_checks {s0 : Nat} (hs : starts s h (.stepStart s0) = true) : s0 ≤ 2 ^ 48 - 2 ∧ (s.isKeeper = true → s.bcn.running = false) := by
  have hc := starts_bodyChecks hs
  have h1 := hc (ckValue (s0 ≤ 2 ^ 48 - 2) (fieldOff 0x0400 0)) (List.mem_cons_self ..)
  have h2 := hc (ckState (!(s.isKeeper && s.bcn.running)) stAlready 0) (List.mem_cons_of_mem _ (List.mem_cons_of_mem _ (List.mem_cons_self ..)))
  exact ⟨by simpa [ckValue] using h1, fun hk => by simpa [ckState, hk] using h2⟩

end

/-! ### STEP_STOP -/

section
variable {s : State} {h : Hdr}

/-- Stopping a line with a step in progress or on its way (R344). -/
theorem lineOrder_busy {x : State} {f : FlareFrame} (hindex : f.index ≠ 3) (hgive : x.bcn.recovering = false ∨ x.bcn.opened = true) (hbusy : x.bcn.busy = true) :
    x.lineOrder f = x.modBcn (fun b => { b with stopReq := true }) := by
  unfold State.lineOrder
  rw [if_neg hindex, if_neg (by rcases hgive with h | h <;> simp [h]), if_pos hbusy]
  unfold State.haltLine
  rw [if_pos hbusy]

/-- Stopping a line between steps. -/
theorem lineOrder_idle {x : State} {f : FlareFrame} (hindex : f.index ≠ 3) (hgive : x.bcn.recovering = false ∨ x.bcn.opened = true) (hbusy : x.bcn.busy = false) :
    x.lineOrder f = (x.modBcn (fun b => { b with hold := true, running := false })).sayHalted := by
  unfold State.lineOrder
  rw [if_neg hindex, if_neg (by rcases hgive with h | h <;> simp [h]), if_neg (by simp [hbusy])]
  unfold State.haltLine
  rw [if_neg (by simp [hbusy])]

/-- A stop while RECOVERING gives the step up (R438). -/
theorem lineOrder_recovering {x : State} (hrec : x.bcn.recovering = true) (hopen : x.bcn.opened = false) (step attempt : Nat) (hstep : step = x.bcn.step) :
    x.lineOrder (stopFrame 1 step attempt) = (x.broadcast { stopFrame 1 step attempt with op := 7 }).abandonStep stAbStep := by
  obtain ⟨ps, ob, hb⟩ := broadcast_eq x { stopFrame 1 step attempt with op := 7 }
  unfold State.lineOrder
  rw [if_neg (by simp [stopFrame]), if_pos (by simp [stopFrame, hrec, hopen, hstep])]
  unfold State.abandonIn
  rw [if_pos (by rw [hb]; simp [stopFrame, hrec, hstep])]
  rfl

/-- The commands that are left when the step is given up (R438). -/
def givenUp (train status : Nat) (cs : List OutCmd) : List OutCmd :=
  (cs.filter (fun c => !(c.repeats train && c.posted))).map (fun c =>
    if !c.repeats train then c
    else
      let d := { c with replayed := false, deferred := false, rework := false, inStep := false }
      if c.phase = .done then d else d.finish status [])

theorem givenUp_append {train status : Nat} (cs : List OutCmd) {c : OutCmd} (hc : c.repeats train = false) :
    givenUp train status (cs ++ [c]) = givenUp train status cs ++ [c] := by
  unfold givenUp
  rw [List.filter_append, List.map_append]
  simp [hc]

theorem uid_givenUp {train status n : Nat} {cs : List OutCmd} (hu : ∀ c ∈ cs, c.uid < n) : ∀ c ∈ givenUp train status cs, c.uid < n := by
  intro c hc
  obtain ⟨d, hd, rfl⟩ := List.mem_map.mp hc
  have hlt := hu d (List.mem_of_mem_filter hd)
  split
  · exact hlt
  · dsimp only
    split
    · exact hlt
    · rw [uid_finish]
      exact hlt

/-- A command in hand completes beside commands that have been ended. -/
theorem completed_beside {X : State} {b : Body} {cs : List OutCmd} {st : Nat} {r : List Nat} (hu : UidInv s) (hcs : ∀ c ∈ cs, c.uid < s.host.nextUid)
    (hX : X.host = { s.host with cmds := cs ++ [runningEntry s h b], nextUid := s.host.nextUid + 1 }) :
    Completed { s.host with cmds := cs } (X.finish s.host.nextUid st r) h b st [r.getD 0 0, r.getD 1 0, r.getD 2 0, r.getD 3 0] := by
  obtain ⟨c, hc, hprops⟩ := completed_hand (s := s) (h := h) (b := b) (X := hand s h b) (st := st) (r := r) hu rfl
  have hlast : c = (runningEntry s h b).finish st r := by
    have := congrArg HostLink.cmds (hc.symm.trans (finish_hand_host st r hu rfl))
    simpa using this
  subst hlast
  refine ⟨_, ?_, hprops⟩
  unfold State.finish State.modCmd State.modHost
  simp only [hX]
  congr 1
  exact map_last cs (runningEntry s h b) _ hcs

theorem exec_stepStop (hu : UidInv s) (hs : starts s h .stepStop = true) :
    exec (.stepStop h) s = .next (((hand s h .stepStop).flareUp (stopFrame (b2n s.bcn.recovering) s.bcn.step s.bcn.attempt)).finish s.host.nextUid stDone
      [s.bcn.step % 2 ^ 32, s.bcn.step / 2 ^ 32]) :=
  exec_hand rfl hs rfl hu rfl

end

/-! ### The commands -/

/-- What STEP_START leaves. -/
theorem stepStart_spec {s : State} {h : Hdr} {s0 : Nat} (hu : UidInv s) (hs : starts s h (.stepStart s0) = true) :
    ∃ t, exec (.stepStart h s0) s = .next t ∧ Completed s.host t h (.stepStart s0) stDone [0, 0, 0, 0] ∧ (s.isKeeper = true → s.bcn.running = false) ∧
      (s.isKeeper = false →
        (let v : State := { s with bcn := { s.bcn with sinceStart := false } }
         t = { (match s.parent with | some p => v.flareSend p (stopFrame 3 s0 s.bcn.attempt) | none => v) with host := t.host })) ∧
      (s.isKeeper = true → t = { s with host := t.host, bcn := t.bcn, fab := t.fab, outbox := t.outbox } ∧
        (let b := { s.bcn with sinceStart := false, hold := false, stopReq := false, startReq := some s0 }
         let out := s.broadcast { op := 7, key := 3, index := 0, step := s0, attempt := s.bcn.attempt, payload := [] }
         (s.bcn.advance ≠ some s0 ∨ s.outer.state = 4 → t.bcn = b ∧ t.fab = s.fab ∧ t.outbox = s.outbox) ∧
         (s.bcn.advance = some s0 → s.outer.state ≠ 4 → s.bcn.ext = false →
           t.bcn = { b with advance := none, running := true, opened := true } ∧ t.fab = out.fab ∧ t.outbox = out.outbox) ∧
         (s.bcn.advance = some s0 → s.outer.state ≠ 4 → s.bcn.ext = true → t.bcn = b ∧ t.fab = s.fab ∧ t.outbox = s.outbox ++ [.readyFwd s0]))) := by
  obtain ⟨hrange, hrunning⟩ := stepStart_checks hs
  let x : Beacon := { s.bcn with sinceStart := false }
  let hl := handLink s h (.stepStart s0)
  have hexec := exec_stepStart hu hs
  by_cases hk : s.isKeeper = true
  · rw [flareUp_of_keeper (s := withLine x hl s) hk _ rfl, show (withLine x hl s).lineOrder (stopFrame 3 s0 s.bcn.attempt) = (withLine x hl s).startLine s0 from
      if_pos rfl] at hexec
    obtain ⟨hhold, hgo, hext⟩ := startLine_withLine (s := s) hl (starts_linkUp hs) hrange x rfl rfl
    obtain ⟨ps, ob, hout⟩ := broadcast_eq s { op := 7, key := 3, index := 0, step := s0, attempt := x.attempt, payload := [] }
    have hform : ∃ b fab ob, (withLine x hl s).startLine s0 = { hand s h (.stepStart s0) with bcn := b, fab := fab, outbox := ob } := by
      by_cases h1 : x.advance ≠ some s0 ∨ s.outer.state = 4
      · exact ⟨_, s.fab, s.outbox, (hhold h1).trans rfl⟩
      · push Not at h1
        by_cases h2 : x.ext = true
        · exact ⟨_, s.fab, _, (hext h1.1 h1.2 h2).trans rfl⟩
        · refine ⟨{ x with hold := false, stopReq := false, startReq := some s0, advance := none, running := true, opened := true },
            { s.fab with ports := ps }, ob, (hgo h1.1 h1.2 (by simpa using h2)).trans ?_⟩
          rw [hout]
          rfl
    obtain ⟨b, fab, ob', hform⟩ := hform
    rw [hform] at hexec hhold hgo hext
    refine ⟨_, hexec, completed_hand hu rfl, hrunning, fun hn => absurd hk (by simp [hn]), fun _ => ⟨rfl, fun h1 => ?_, fun h1 h2 h3 => ?_, fun h1 h2 h3 => ?_⟩⟩
    · have hform := hhold h1
      have hbcn := congrArg State.bcn hform
      have hfab := congrArg State.fab hform
      have hbox := congrArg State.outbox hform
      exact ⟨hbcn, hfab, hbox⟩
    · have hform := hgo h1 h2 h3
      have hbcn := congrArg State.bcn hform
      have hfab := congrArg State.fab hform
      have hbox := congrArg State.outbox hform
      exact ⟨hbcn, hfab, hbox⟩
    · have hform := hext h1 h2 h3
      have hbcn := congrArg State.bcn hform
      have hfab := congrArg State.fab hform
      have hbox := congrArg State.outbox hform
      exact ⟨hbcn, hfab, hbox⟩
  · have hk' : s.isKeeper = false := by simpa using hk
    rw [flareUp_of_not_keeper (s := withLine x hl s) hk', towardKeeper_withLine x hl s _ rfl rfl] at hexec
    obtain ⟨ps, ob, hz⟩ := towardKeeper_eq s (stopFrame 3 s0 s.bcn.attempt)
    refine ⟨_, hexec, completed_hand hu rfl, hrunning, fun _ => ?_, fun hn => absurd hn hk⟩
    have hv : (match s.parent with
        | some p => (withLine x s.host s).flareSend p (stopFrame 3 s0 s.bcn.attempt)
        | none => withLine x s.host s) = withLine x s.host (towardKeeper s (stopFrame 3 s0 s.bcn.attempt)) := by
      rw [← towardKeeper_withLine x s.host s _ rfl rfl]
      unfold towardKeeper
      rw [parent_withLine x s.host s rfl rfl]
    exact Eq.trans rfl (congrArg (fun z : State => { z with host := ((withLine x hl (towardKeeper s (stopFrame 3 s0 s.bcn.attempt))).finish
      s.host.nextUid stDone []).host }) hv.symm)

/-- What STEP_STOP leaves. -/
theorem stepStop_spec {s : State} {h : Hdr} (hu : UidInv s) (hs : starts s h .stepStop = true) :
    ∃ t hl, exec (.stepStop h) s = .next t ∧ Completed hl t h .stepStop stDone [s.bcn.step % 2 ^ 32, s.bcn.step / 2 ^ 32, 0, 0] ∧
      t = { s with host := t.host, bcn := t.bcn, fab := t.fab, outbox := t.outbox } ∧
      (let tell := fun (i : Nat) => s.broadcast { op := 7, key := 7, index := i, step := s.bcn.step, attempt := s.bcn.attempt, payload := [] }
       (s.isKeeper = false → hl = s.host ∧
         (let v := match s.parent with | some p => s.flareSend p (stopFrame (b2n s.bcn.recovering) s.bcn.step s.bcn.attempt) | none => s
          t.bcn = s.bcn ∧ t.fab = v.fab ∧ t.outbox = v.outbox)) ∧
       (s.isKeeper = true → s.bcn.recovering = true → s.bcn.opened = false →
         t.bcn = { s.bcn with recovering := false, running := false, hold := true, abandoned := some s.bcn.step, aborts := 0, opened := false } ∧
         hl = (match s.trainPart with | some p => s.endRepeated p stAbStep | none => s).host ∧ t.fab = (tell 1).fab ∧ t.outbox = (tell 1).outbox) ∧
       (s.isKeeper = true → s.bcn.recovering = false ∨ s.bcn.opened = true → hl = s.host ∧
         (if s.bcn.opened = true ∨ s.bcn.begun = true ∨ s.bcn.phase = 0xF000 then
            t.bcn = { s.bcn with stopReq := true } ∧ t.fab = s.fab ∧ t.outbox = s.outbox
          else t.bcn = { s.bcn with hold := true, running := false } ∧ t.fab = (tell 0).fab ∧ t.outbox = (tell 0).outbox))) := by
  let hl := handLink s h .stepStop
  have hexec := exec_stepStop hu hs
  rw [show hand s h .stepStop = withLine s.bcn hl s from rfl] at hexec
  by_cases hk : s.isKeeper = true
  · rw [flareUp_of_keeper (s := withLine s.bcn hl s) hk _ rfl] at hexec
    by_cases hgive : s.bcn.recovering = true ∧ s.bcn.opened = false
    · obtain ⟨hrec, hopen⟩ := hgive
      rw [hrec, show b2n true = 1 from rfl, lineOrder_recovering (x := withLine s.bcn hl s) hrec hopen s.bcn.step s.bcn.attempt rfl,
        broadcast_withLine s.bcn hl s _ rfl rfl] at hexec
      obtain ⟨ps, ob, hout⟩ := broadcast_eq s { stopFrame 1 s.bcn.step s.bcn.attempt with op := 7 }
      rw [hout] at hexec
      cases htrain : s.trainPart with
      | none =>
        have hab : (withLine s.bcn hl { s with fab := { s.fab with ports := ps }, outbox := ob }).abandonStep stAbStep =
            (withLine s.bcn hl { s with fab := { s.fab with ports := ps }, outbox := ob }).modBcn (fun b =>
              { b with recovering := false, running := false, hold := true, abandoned := some b.step, aborts := 0, opened := false }) := by
          unfold State.abandonStep
          rw [show (withLine s.bcn hl { s with fab := { s.fab with ports := ps }, outbox := ob }).trainPart = none from htrain]
        rw [hab] at hexec
        refine ⟨_, s.host, hexec, completed_hand hu rfl, rfl, fun hn => absurd hk (by simp [hn]), fun _ _ _ => ⟨rfl, rfl, ?_, ?_⟩,
          fun _ h => absurd hopen (by rcases h with h | h <;> simp_all)⟩
        · exact (congrArg State.fab hout).symm
        · exact (congrArg State.outbox hout).symm
      | some p =>
        have hab : (withLine s.bcn hl { s with fab := { s.fab with ports := ps }, outbox := ob }).abandonStep stAbStep =
            ((withLine s.bcn hl { s with fab := { s.fab with ports := ps }, outbox := ob }).endRepeated p stAbStep).modBcn (fun b =>
              { b with recovering := false, running := false, hold := true, abandoned := some b.step, aborts := 0, opened := false }) := by
          unfold State.abandonStep
          rw [show (withLine s.bcn hl { s with fab := { s.fab with ports := ps }, outbox := ob }).trainPart = some p from htrain]
        rw [hab] at hexec
        have hrep : (runningEntry s h .stepStop).repeats p = false := by
          unfold OutCmd.repeats
          rw [show (runningEntry s h .stepStop).body = .stepStop from rfl]
          simp
        refine ⟨_, { s.host with cmds := givenUp p stAbStep s.host.cmds }, hexec, completed_beside hu (uid_givenUp hu) ?_, rfl, fun hn => absurd hk (by simp [hn]),
          fun _ _ _ => ⟨rfl, rfl, ?_, ?_⟩, fun _ h => absurd hopen (by rcases h with h | h <;> simp_all)⟩
        · show ({ hl with cmds := givenUp p stAbStep hl.cmds } : HostLink) = _
          rw [show hl.cmds = s.host.cmds ++ [runningEntry s h .stepStop] from rfl, givenUp_append _ hrep]
          rfl
        · exact (congrArg State.fab hout).symm
        · exact (congrArg State.outbox hout).symm
    · have hgive' : s.bcn.recovering = false ∨ s.bcn.opened = true := by
        by_cases hr : s.bcn.recovering = true
        · exact .inr (by simpa [hr] using hgive)
        · exact .inl (by simpa using hr)
      have hindex : (stopFrame (b2n s.bcn.recovering) s.bcn.step s.bcn.attempt).index ≠ 3 := by
        show b2n s.bcn.recovering ≠ 3
        cases s.bcn.recovering <;> decide
      by_cases hbusy : s.bcn.busy = true
      · rw [lineOrder_busy (x := withLine s.bcn hl s) hindex hgive' hbusy] at hexec
        refine ⟨_, s.host, hexec, completed_hand hu rfl, rfl, fun hn => absurd hk (by simp [hn]), fun _ hr ho => absurd ⟨hr, ho⟩ hgive, fun _ _ => ⟨rfl, ?_⟩⟩
        rw [if_pos (by simpa [Beacon.busy, or_assoc] using hbusy)]
        exact ⟨rfl, rfl, rfl⟩
      · rw [lineOrder_idle (x := withLine s.bcn hl s) hindex hgive' (Bool.eq_false_iff.mpr hbusy)] at hexec
        have hsay : ((withLine s.bcn hl s).modBcn (fun b => { b with hold := true, running := false })).sayHalted =
            withLine { s.bcn with hold := true, running := false } hl (s.broadcast { stopFrame 0 s.bcn.step s.bcn.attempt with op := 7 }) :=
          broadcast_withLine { s.bcn with hold := true, running := false } hl s _ rfl rfl
        obtain ⟨ps, ob, hout⟩ := broadcast_eq s { stopFrame 0 s.bcn.step s.bcn.attempt with op := 7 }
        rw [hsay, hout] at hexec
        refine ⟨_, s.host, hexec, completed_hand hu rfl, rfl, fun hn => absurd hk (by simp [hn]), fun _ hr ho => absurd ⟨hr, ho⟩ hgive, fun _ _ => ⟨rfl, ?_⟩⟩
        rw [if_neg (by simpa [Beacon.busy, or_assoc] using hbusy)]
        exact ⟨rfl, (congrArg State.fab hout).symm, (congrArg State.outbox hout).symm⟩
  · have hk' : s.isKeeper = false := by simpa using hk
    rw [flareUp_of_not_keeper (s := withLine s.bcn hl s) hk', towardKeeper_withLine s.bcn hl s _ rfl rfl] at hexec
    obtain ⟨ps, ob, hz⟩ := towardKeeper_eq s (stopFrame (b2n s.bcn.recovering) s.bcn.step s.bcn.attempt)
    refine ⟨_, s.host, hexec, completed_hand hu rfl, ?_, fun _ => ⟨rfl, rfl, rfl, rfl⟩, fun hn => absurd hn hk, fun hn => absurd hn hk⟩
    rw [hz]
    rfl

/-! ### Mark tables (R337) -/

/-- A map made of the items of a list by their places. -/
theorem smapFind_filterMap_zipIdx {α β : Type} (F : α × Nat → Option (Nat × β)) (hF : ∀ x y, F x = some y → y.1 = x.2) (l : List α) (k n : Nat) :
    smapFind ((l.zipIdx k).filterMap F) n = if k ≤ n then (l[n - k]?).bind (fun i => (F (i, n)).map Prod.snd) else none := by
  induction l generalizing k with
  | nil => simp [smapFind]
  | cons x l ih =>
    rw [List.zipIdx_cons, List.filterMap_cons]
    by_cases hkn : k = n
    · subst hkn
      have hrest : smapFind ((l.zipIdx (k + 1)).filterMap F) k = none := by rw [ih, if_neg (by omega)]
      rw [if_pos (Nat.le_refl k), Nat.sub_self, List.getElem?_cons_zero, Option.bind_some]
      cases hx : F (x, k) with
      | none => exact hrest
      | some y => simp [smapFind, hF _ _ hx]
    · have hrest : smapFind ((l.zipIdx (k + 1)).filterMap F) n = if k ≤ n then ((x :: l)[n - k]?).bind (fun i => (F (i, n)).map Prod.snd) else none := by
        rw [ih]
        by_cases hle : k ≤ n
        · rw [if_pos hle, if_pos (by omega), show n - k = n - (k + 1) + 1 by omega, List.getElem?_cons_succ]
        · rw [if_neg hle, if_neg (by omega)]
      cases hx : F (x, k) with
      | none => exact hrest
      | some y =>
        refine Eq.trans ?_ hrest
        obtain ⟨k', v⟩ := y
        exact if_neg (fun h => hkn ((hF _ _ hx).symm.trans h))

theorem smapFind_tableOf {items : List MarkItem} {n : Nat} {i : MarkItem} (hn : n ≤ 27) (hi : items[n]? = some i) :
    smapFind (tableOf items) n = if i.dfn = 1 then some { phase := i.phase, dfn := true, island := i.scope == 1, tmask := i.tmask } else none := by
  unfold tableOf
  rw [smapFind_filterMap_zipIdx, if_pos (Nat.zero_le n), Nat.sub_zero, hi]
  · show ((if 28 ≤ n then _ else _ : Option (Nat × MarkEntry))).map Prod.snd = _
    rw [if_neg (by omega)]
    split <;> rfl
  · rintro x y hxy
    split at hxy
    · split at hxy
      · exact absurd hxy (by simp)
      · rw [← Option.some.inj hxy]
    · split at hxy
      · rw [← Option.some.inj hxy]
      · exact absurd hxy (by simp)

/-- Settles O26, by the frames that go out and the fields of the step line that change. -/
theorem stepLineCommands : Obligations.StepLineCommands := by
  unfold Obligations.StepLineCommands
  refine ⟨fun s h s0 hu hs => stepStart_spec hu hs, fun s h hu hs => stepStop_spec hu hs, fun s h items hu hs => ?table, fun s h k m hu hs => ?keeper,
    fun s h p hu hs => ?watchdog, fun s h s0 hk hrun => ?already⟩
  case table =>
    have hlen : items.length = 32 := by
      have := starts_bodyChecks hs { order := 4, ok := items.length == 32, status := stLength, off := 6 } (List.mem_cons_self ..)
      simpa using this
    have hexec : exec (.markTable h items) s = .next (((hand s h (.markTable items)).modBcn (fun b =>
        if b.ready then { b with lateTable := some (tableOf items) } else { b with pendTable := some (tableOf items) })).finish s.host.nextUid stDone []) :=
      exec_hand rfl hs rfl hu rfl
    exact ⟨_, hexec, completed_hand hu rfl, hlen, rfl, rfl, fun n i _ hn hi => smapFind_tableOf hn hi⟩
  case keeper =>
    have hmember : s.isMember k = true := by
      have := starts_bodyChecks hs (ckTarget (s.isMember k) (fieldOff 0x0403 0)) (List.mem_cons_self ..)
      simpa [ckTarget] using this
    have hexec : exec (.keeperSelect h k m) s = .next (((hand s h (.keeperSelect k m)).modBcn (fun b =>
        if b.ready then { b with lateKeeper := some (k, m) } else { b with pendKeeper := some (k, m) })).finish s.host.nextUid stDone []) :=
      exec_hand rfl hs rfl hu rfl
    exact ⟨_, hexec, completed_hand hu rfl, hmember, rfl⟩
  case watchdog =>
    have hexec : exec (.watchdog h p) s = .next (((hand s h (.watchdog p)).modBcn (fun b => { b with pendWdog := some p })).finish s.host.nextUid stDone []) :=
      exec_hand rfl hs rfl hu rfl
    exact ⟨_, hexec, completed_hand hu rfl, rfl⟩
  case already =>
    rw [← Bool.not_eq_true]
    intro hs
    exact absurd hrun (by rw [(stepStart_checks hs).2 hk]; decide)

end Sys2Proof.Proofs
end

section
/-! PROOFS. The island's formation, the collective groups and the settings of the fabric. -/

namespace Sys2Proof.Proofs

open Sys2Proof.Machine Sys2Proof.Laws

section
variable {s : State} {h : Hdr}

/-- A change of each of some ports reaches the ports alone, and each of them once. -/
theorem port_forAll_modPort {ps : List Nat} (hps : ps.Nodup) (g : FabPort → FabPort) (s : State) (q : Nat) :
    (s.forAll ps (fun s p => s.modPort p g)).port q = if q ∈ ps then g (s.port q) else s.port q := by
  unfold State.forAll
  induction ps generalizing s with
  | nil => simp
  | cons p ps ih =>
    obtain ⟨hp, hps⟩ := List.nodup_cons.mp hps
    rw [List.foldl_cons, ih hps, modPort_port]
    by_cases hq : q = p
    · subst hq
      rw [if_neg hp, if_pos rfl, if_pos (List.mem_cons_self ..)]
    · rw [if_neg hq]
      simp [hq]

theorem forAll_modPort_only (ps : List Nat) (g : FabPort → FabPort) (s : State) :
    s.forAll ps (fun s p => s.modPort p g) = { s with fab := { s.fab with ports := (s.forAll ps (fun s p => s.modPort p g)).fab.ports } } := by
  refine forAll_keeps (fun t => t = { s with fab := { s.fab with ports := t.fab.ports } }) ps _ (fun t p _ ht => ?_) s rfl
  generalize t.fab.ports = x at ht
  rw [ht]
  rfl

/-! ### ISLAND_FORM -/

/-- The requests to the other modules of the map (R22). -/
def formations (s : State) : List OutMsg := (s.blob.members.filter (fun m => m.id != s.place.moduleId)).map (fun m => .formation m.id)

theorem exec_islandForm (feed : Feed) (hu : UidInv s) (hs : starts s h .islandForm = true) :
    exec (.islandForm h feed) s = .next (startIslandForm (hand s h .islandForm) s.host.nextUid feed) :=
  exec_hand rfl hs rfl hu rfl

theorem islandForm_spec (feed : Feed) (hu : UidInv s) (hs : starts s h .islandForm = true) :
    ∃ t, exec (.islandForm h feed) s = .next t ∧
      (s.blob.legal = false → Completed s.host t h .islandForm stValue [0, 0, 0, 0] ∧ t = { s with host := t.host }) ∧
      (s.blob.legal = true → t.outbox = s.outbox ++ formations s ∧
        (feed.failed ≠ [] ∨ ¬ (s.blob.members.map (fun m => m.id)).Nodup → Completed s.host t h .islandForm stValue [0, 0, 0, 0] ∧
          t = { s with host := t.host, outbox := t.outbox }) ∧
        (feed.failed = [] → (s.blob.members.map (fun m => m.id)).Nodup → feed.answered = true →
          Completed s.host t h .islandForm stDone [s.blob.members.length, s.blob.diameter, s.blob.depthTo s.bcn.fences s.bcn.keeperId, 0] ∧
          t = { s with host := t.host, outbox := t.outbox, place := t.place } ∧
          t.place = { s.place with
            size := s.blob.members.length, diam := s.blob.diameter, depth := s.blob.depthTo s.bcn.fences s.bcn.keeperId }) ∧
        (feed.failed = [] → (s.blob.members.map (fun m => m.id)).Nodup → feed.answered = false →
          Running s.host t h .islandForm ∧ t = { s with host := t.host, outbox := t.outbox })) := by
  have hexec := exec_islandForm feed hu hs
  by_cases hlegal : s.blob.legal = true
  · have hask : ∀ b r : Bool, (!feed.failed.isEmpty || !decide ((s.blob.members.map (fun m => m.id)).Nodup)) = b → feed.answered = r →
        startIslandForm (hand s h .islandForm) s.host.nextUid feed =
          if b then ((hand s h .islandForm).emits (formations s)).finish s.host.nextUid stValue []
          else if r then ((hand s h .islandForm).emits (formations s)).form s.host.nextUid else (hand s h .islandForm).emits (formations s) := by
      intro b r hb hr
      subst hb hr
      unfold startIslandForm
      exact if_neg (by simp [hlegal])
    by_cases hbad : feed.failed ≠ [] ∨ ¬ (s.blob.members.map (fun m => m.id)).Nodup
    · rw [hask true feed.answered (by simpa [List.isEmpty_iff] using hbad) rfl, if_pos rfl] at hexec
      refine ⟨_, hexec, fun hn => absurd hlegal (by simp [hn]), fun _ => ⟨rfl, fun _ => ⟨completed_hand hu rfl, rfl⟩, fun hf hn => ?_, fun hf hn => ?_⟩⟩
      · exact absurd hbad (by simp [hf, hn])
      · exact absurd hbad (by simp [hf, hn])
    · have hb : (!feed.failed.isEmpty || !decide ((s.blob.members.map (fun m => m.id)).Nodup)) = false := by
        push Not at hbad
        simp [hbad.1, hbad.2]
      by_cases hans : feed.answered = true
      · rw [hask false true hb hans, if_neg (by decide), if_pos rfl] at hexec
        exact ⟨_, hexec, fun hn => absurd hlegal (by simp [hn]), fun _ => ⟨rfl, fun h => absurd h hbad, fun _ _ _ => ⟨completed_hand hu rfl, rfl, rfl⟩,
          fun _ _ hn => absurd hans (by simp [hn])⟩⟩
      · rw [hask false false hb (by simpa using hans), if_neg (by decide), if_neg (by decide)] at hexec
        exact ⟨_, hexec, fun hn => absurd hlegal (by simp [hn]), fun _ => ⟨rfl, fun h => absurd h hbad, fun _ _ hn => absurd hn hans,
          fun _ _ _ => ⟨running_hand rfl, rfl⟩⟩⟩
  · rw [show startIslandForm (hand s h .islandForm) s.host.nextUid feed = (hand s h .islandForm).finish s.host.nextUid stValue [] from
      if_pos (by simp [hlegal])] at hexec
    exact ⟨_, hexec, fun _ => ⟨completed_hand hu rfl, rfl⟩, fun hn => absurd hn hlegal⟩

end

/-- The removal itself does not keep its group in use. -/
theorem cgroupIdle_hand (s : State) (h : Hdr) (id : Nat) : (hand s h (.cgroupRemove id)).cgroupIdle id = s.cgroupIdle id := by
  unfold State.cgroupIdle
  rw [hand_host]
  show (!(s.fab.jobs.any _) && !((s.host.cmds ++ [runningEntry s h (.cgroupRemove id)]).any _)) = _
  rw [List.any_append, List.any_cons, List.any_nil, show (runningEntry s h (.cgroupRemove id)).body = .cgroupRemove id from rfl]
  simp

/-- Settles O27, by what each command leaves of the fabric. -/
theorem islandAndFabricCommands : Obligations.IslandAndFabricCommands := by
  unfold Obligations.IslandAndFabricCommands
  refine ⟨fun s h feed hu hs => islandForm_spec feed hu hs, fun s m hm => ?noAnswer, fun s h id ms hu hs => ?register, fun s h id hu hs => ⟨fun hidle => ?remove, fun hidle => ?waits⟩,
    fun s h p hu hs => ?retrain, fun s h m hu hs => ?clear, fun s h p hu hs => ?set⟩
  case noAnswer =>
    have hexec : exec (.formationNoAnswer m) s = .next (s.finishAll (fun c => c.phase == .running && opcodeOf c.body == 0x0500) stValue) := by
      show execFormationNoAnswer m s = _
      exact if_pos hm
    refine ⟨_, hexec, rfl, ?_⟩
    show s.host.cmds.map _ = _
    refine List.map_congr_left (fun c _ => ?_)
    by_cases hc : c.phase = .running ∧ opcodeOf c.body = 0x0500
    · rw [if_pos hc, if_pos (by simp [hc.1, hc.2])]
    · rw [if_neg hc, if_neg]
      intro hc'
      simp only [Bool.and_eq_true, beq_iff_eq] at hc'
      exact hc hc'.1
  case register =>
    have hexec : exec (.cgroupReg h id ms) s = .next (State.finish { hand s h (.cgroupReg id ms) with
        fab := { s.fab with groups := smapSet s.fab.groups id { members := ms, part := h.part } } } s.host.nextUid stDone []) :=
      exec_hand rfl hs rfl hu rfl
    have hc := starts_bodyChecks hs
    have hempty : ms.isEmpty = false := by
      have := hc (ckZero (!ms.isEmpty) (fieldOff 0x0501 1)) (List.mem_append_left _ (by simp))
      simpa [ckZero] using this
    have hms : ms.Nodup ∧ s.place.moduleId ∈ ms := by
      have := hc (ckValue (ms.isEmpty || (decide (ms.Nodup) && ms.contains s.place.moduleId)) (64 + layEnd (layFixed 0x0501))) (List.mem_append_left _ (by simp))
      simpa [ckValue, hempty] using this
    have hnew : smapFind s.fab.groups id = none := by
      have := hc (ckState ((smapFind s.fab.groups id).isNone) stAlready (fieldOff 0x0501 0)) (List.mem_append_left _ (by simp))
      simpa [ckState] using this
    exact ⟨_, hexec, completed_hand hu rfl, rfl, hnew, hms.1, hms.2, fun g => smapFind_smapSet ..⟩
  case remove =>
    have hexec : exec (.cgroupRemove h id) s = .next (startCgroupRemove (hand s h (.cgroupRemove id)) s.host.nextUid id) := exec_hand rfl hs rfl hu rfl
    unfold startCgroupRemove at hexec
    rw [cgroupIdle_hand, if_pos hidle] at hexec
    exact ⟨_, hexec, completed_hand hu rfl, rfl, fun g => smapFind_smapErase .., rfl, rfl⟩
  case waits =>
    have hexec : exec (.cgroupRemove h id) s = .next (startCgroupRemove (hand s h (.cgroupRemove id)) s.host.nextUid id) := exec_hand rfl hs rfl hu rfl
    unfold startCgroupRemove at hexec
    rw [cgroupIdle_hand, if_neg (by simp [hidle])] at hexec
    exact ⟨_, hexec, running_hand rfl, rfl⟩
  case retrain =>
    have hexec : exec (.portRetrain h p) s = .next (((hand s h (.portRetrain p)).modPort p (fun x => { x with state := 1, returning := true })).finish
        s.host.nextUid stDone []) := exec_hand rfl hs rfl hu rfl
    have hc := starts_bodyChecks hs
    have hp : p ≤ 7 := by
      have := hc (ckValue (p ≤ 7) (fieldOff 0x0504 0)) (List.mem_cons_self ..)
      simpa [ckValue] using this
    have hstate : (s.port p).state = 3 ∨ (s.port p).state = 4 := by
      have := hc (ckState (7 < p || (s.port p).state == 3 || (s.port p).state == 4) stState (fieldOff 0x0504 0)) (List.mem_cons_of_mem _ (List.mem_cons_self ..))
      simpa [ckState, hp, Nat.not_lt.mpr hp] using this
    exact ⟨_, hexec, completed_hand hu rfl, hstate, rfl, fun q => (finish_port ..).trans (modPort_port ..)⟩
  case clear =>
    have hexec : exec (.portClear h m) s = .next (((hand s h (.portClear m)).forAll (onesBelow 8 m) (fun s p => s.modPort p
        (fun x => { x with crcerr := 0, replays := 0 }))).finish s.host.nextUid stDone []) := exec_hand rfl hs rfl hu rfl
    have honly := forAll_modPort_only (onesBelow 8 m) (fun x => { x with crcerr := 0, replays := 0 }) (hand s h (.portClear m))
    have hport := port_forAll_modPort (ps := onesBelow 8 m) (List.nodup_range.filter _) (fun x => { x with crcerr := 0, replays := 0 }) (hand s h (.portClear m))
    generalize (hand s h (.portClear m)).forAll (onesBelow 8 m) (fun s p => s.modPort p (fun x => { x with crcerr := 0, replays := 0 })) = X at *
    refine ⟨_, hexec, completed_hand hu (by rw [honly]; rfl), ?_, fun q => ?_⟩
    · generalize X.fab.ports = ps at honly
      subst honly
      rfl
    · refine (hport q).trans ?_
      simp only [mem_onesBelow_iff]
      rfl
  case set =>
    have hexec : exec (.fabricSet h p) s = .next (State.finish { hand s h (.fabricSet p) with fab := { s.fab with
        set := { replayUs := p.replayUs, replayLim := p.replayLim, flowRtoUs := p.flowRtoUs, flowRetry := p.flowRetry } } } s.host.nextUid stDone []) :=
      exec_hand rfl hs rfl hu rfl
    exact ⟨_, hexec, completed_hand hu rfl, rfl⟩

end Sys2Proof.Proofs
end

section
/-! PROOFS. A collective of a group that this module is no member of. -/

namespace Sys2Proof.Proofs

open Sys2Proof.Machine Sys2Proof.Laws

/-- Module 0 of a row of three, whose only collective group holds the other two: nothing keeps a state's groups to those that CGROUP_REG registers. -/
def foreignGroup : State := { plainState with
  place := { placed := true }
  blob := { dimX := 3, members := [⟨0, 0, 0, 0⟩, ⟨1, 1, 0, 0⟩, ⟨2, 2, 0, 0⟩] }
  fab := { ports := [(0, { state := 2 })], groups := [(0, { members := [1, 2], part := 0 })] } }

/-- A BARRIER of group 0. -/
def barrier0 : CollP := { group := 0, opr := 0, itype := 0, otype := 0, root := 0, contrib := 0, count := 0, src := 0, dst := 0 }

/-- Without a place in the group the module takes rank 0, and sends nothing to the member of that rank. -/
theorem sent_foreignGroup : (nextOf (exec (.barrier (plainHdr 1 0) barrier0) foreignGroup)).map (fun t =>
    ((smapGet {} t.fab.flows (txKey (collSet 0 false) 1)).unacked ++ (smapGet {} t.fab.flows (txKey (collSet 0 false) 1)).queued).map
      (fun k => k.frame.payload)) = some [] := by decide +kernel

theorem inReach_foreignGroup : ∀ m ∈ (foreignGroup.collGroup 0).members, m ≠ foreignGroup.place.moduleId → inReach foreignGroup m := by
  intro m hm _
  have hm : m = 1 ∨ m = 2 := by simpa [foreignGroup, State.collGroup, smapGet] using hm
  rcases hm with rfl | rfl
  · exact ⟨⟨0, 0, 0, 0⟩, ⟨1, 1, 0, 0⟩, 0, 0, 1, by decide, by decide, by decide⟩
  · exact ⟨⟨0, 0, 0, 0⟩, ⟨2, 2, 0, 0⟩, 0, 0, 1, by decide, by decide, by decide⟩

/-- Refutes O28: the statement leaves the group's members free, and a module that is none of them sends no signature to the member of rank 0. -/
theorem not_collectivesAreIssuedAndCombined : ¬ Obligations.CollectivesAreIssuedAndCombined := by
  unfold Obligations.CollectivesAreIssuedAndCombined
  intro hall
  obtain ⟨hissue, -⟩ := hall
  obtain ⟨t, hnext, -, -, hsent, -⟩ := hissue foreignGroup (plainHdr 1 0) 6 barrier0 _ (by decide) (by decide +kernel) (by decide) (by decide) (by decide)
    (by decide) (by decide) rfl (by decide) inReach_foreignGroup
  have hone := hsent 1 (by decide) (by decide)
  have hflow := sent_foreignGroup
  rw [show exec (.barrier (plainHdr 1 0) barrier0) foreignGroup = .next t from hnext] at hflow
  have hnone := Option.some.inj hflow
  exact absurd (hnone.symm.trans hone) (by simp)

end Sys2Proof.Proofs
end

section
/-! PROOFS. Shutters: their start, the drain point, and the beginning of ZEROISE. -/

namespace Sys2Proof.Proofs

open Sys2Proof.Machine Sys2Proof.Laws

/-! ### SHUTTER and PART_DELETE (R452, R453, R466) -/

section
variable {s : State} {h : Hdr} {p : ShutterP} {uid pid : Nat}

theorem part_live_of_shutter (hc : ∀ c ∈ checksShutter s p, c.ok = true) : (s.part p.pid).state ≠ 0 ∧ (s.part p.pid).state ≠ 3 := by
  have hpid := hc (ckValue (p.pid ≤ 15) (fieldOff 0x0103 0)) (by unfold checksShutter; simp)
  have htarget := hc (ckTarget (15 < p.pid || (s.part p.pid).state != 0) (fieldOff 0x0103 0)) (by unfold checksShutter; simp)
  have hstate := hc (ckState ((s.part p.pid).state != 3) stAlready (fieldOff 0x0103 0)) (by unfold checksShutter; simp)
  have hle : p.pid ≤ 15 := by simpa [ckValue] using hpid
  have hor : 15 < p.pid ∨ (s.part p.pid).state ≠ 0 := by simpa [ckTarget] using htarget
  exact ⟨hor.resolve_left (by omega), by simpa [ckState] using hstate⟩

theorem mode_of_shutter (hc : ∀ c ∈ checksShutter s p, c.ok = true) : p.mode = 0 ∨ p.mode = 1 := by
  have hmode := hc (ckValue (p.mode ≤ 1) (fieldOff 0x0103 1)) (by unfold checksShutter; simp)
  have hle : p.mode ≤ 1 := by simpa [ckValue] using hmode
  omega

/-- An ABANDON outside an attempt floods nothing. -/
theorem enterAbandon_of_idle (hidle : (s.part pid).train = false ∨ s.bcn.begun = false) : s.enterAbandon pid = s.shutterPhase pid 3 := by
  have hno : ((s.part pid).train && s.bcn.begun) = false := by
    rcases hidle with htrain | hbegun
    · rw [htrain, Bool.false_and]
    · rw [hbegun, Bool.and_false]
  exact if_neg (by rw [hno]; exact Bool.false_ne_true)

/-- What a shutter that begins leaves: its record, and its partition in the phase `ph` of SHUTTER. -/
def Shutting (s t : State) (uid ph : Nat) (p : ShutterP) (del : Bool) : Prop :=
  t = { s with parts := t.parts, shutters := t.shutters } ∧ t.part p.pid = { s.part p.pid with state := 3, phase := ph } ∧
    (∀ q, q ≠ p.pid → t.part q = s.part q) ∧ smapFind t.shutters p.pid = some { uid := uid, p := p, del := del }

theorem smapFind_smapSet_same {α : Type} (m : SMap α) (k : Nat) (v : α) : smapFind (smapSet m k v) k = some v :=
  (smapFind_smapSet m k k v).trans (if_pos rfl)

theorem shutting_enterDrain (del : Bool) (hdrain : p.mode = 0 → (s.part p.pid).train = false ∨ (s.bcn.recovering = false ∧ (s.part p.pid).state ≠ 2))
    (habandon : p.mode = 1 → (s.part p.pid).train = false ∨ s.bcn.begun = false) (hmode : p.mode = 0 ∨ p.mode = 1) :
    Shutting s (s.enterDrain uid p del) uid (2 + p.mode) p del := by
  rcases hmode with hmode | hmode
  case inl =>
    have hno : (p.mode == 1 || (s.part p.pid).train && (s.bcn.recovering || (s.part p.pid).state == 2)) = false := by
      rcases hdrain hmode with htrain | ⟨hrec, hstate⟩
      · simp [hmode, htrain]
      · simp [hmode, hrec, hstate]
    have hform : s.enterDrain uid p del = ({ s with shutters := smapSet s.shutters p.pid { uid := uid, p := p, del := del } } : State).modPart p.pid
        (fun x => { x with state := 3, phase := 2 }) := if_neg (by simpa using hno)
    rw [hform, hmode]
    exact ⟨rfl, (modPart_part ..).trans (if_pos rfl), fun q hq => (modPart_part ..).trans (if_neg hq), smapFind_smapSet_same ..⟩
  case inr =>
    have hform : s.enterDrain uid p del = (({ s with shutters := smapSet s.shutters p.pid { uid := uid, p := p, del := del } } : State).modPart p.pid
        (fun x => { x with state := 3, phase := 2 })).enterAbandon p.pid := if_pos (by simp [hmode])
    have htrain : ((({ s with shutters := smapSet s.shutters p.pid { uid := uid, p := p, del := del } } : State).modPart p.pid
        (fun x => { x with state := 3, phase := 2 })).part p.pid).train = (s.part p.pid).train := by rw [modPart_part, if_pos rfl]; rfl
    rw [hform, enterAbandon_of_idle (by rw [htrain]; exact habandon hmode), hmode]
    refine ⟨rfl, ?_, fun q hq => ?_, smapFind_smapSet_same ..⟩
    · rw [State.shutterPhase, modPart_part, if_pos rfl, modPart_part, if_pos rfl]; rfl
    · rw [State.shutterPhase, modPart_part, if_neg hq, modPart_part, if_neg hq]; rfl

theorem startShutter_of_nil {feed : Feed} (hp : p.entries = []) : startShutter s uid p feed = s.enterDrain uid p false := by
  have hheirs : ShutterP.heirs p = [] := by unfold ShutterP.heirs; rw [hp]; rfl
  unfold startShutter
  simp [hheirs, hp, State.emits, State.forAll]

theorem startShutter_of_refused {feed : Feed} (hp : p.entries ≠ []) (href : feed.answered = false ∨ feed.failed ≠ []) :
    startShutter s uid p feed = (((s.emits ((ShutterP.heirs p).map (fun m => .heirAsk m (s.heirRanges p m)))).finish uid stTarget []).modCmd uid (fun c =>
      { c with detail := detailOf (itemOff 0x0103 0 p.entries.length (feed.failed.headD 0) 6) (feed.failed.headD 0) })) := by
  refine if_pos ?_
  rcases href with hans | hfail
  · simp [hp, hans]
  · simp [hp, hfail]

theorem exec_shutter_of_nil {feed : Feed} (hu : UidInv s) (hs : starts s h (.shutter p) = true) (hp : p.entries = [])
    (hdrain : p.mode = 0 → (s.part p.pid).train = false ∨ (s.bcn.recovering = false ∧ (s.part p.pid).state ≠ 2))
    (habandon : p.mode = 1 → (s.part p.pid).train = false ∨ s.bcn.begun = false) :
    ∃ t, exec (.shutter h p feed) s = .next t ∧ Running s.host t h (.shutter p) ∧ t = { s with host := t.host, parts := t.parts, shutters := t.shutters } ∧
      (s.part p.pid).state ≠ 0 ∧ (s.part p.pid).state ≠ 3 ∧ t.part p.pid = { s.part p.pid with state := 3, phase := 2 + p.mode } ∧
      (∀ q, q ≠ p.pid → t.part q = s.part q) ∧ smapFind t.shutters p.pid = some { uid := s.host.nextUid, p := p, del := false } := by
  have hchecks : ∀ c ∈ checksShutter s p, c.ok = true := starts_bodyChecks hs
  obtain ⟨hfree, hshut⟩ := part_live_of_shutter hchecks
  obtain ⟨heff, hpart, hothers, hjob⟩ := shutting_enterDrain (s := hand s h (.shutter p)) (uid := s.host.nextUid) false hdrain habandon (mode_of_shutter hchecks)
  refine ⟨_, exec_hand rfl hs rfl hu (startShutter_of_nil hp), ?_⟩
  generalize (hand s h (.shutter p)).enterDrain s.host.nextUid p false = t at *
  exact ⟨running_hand (congrArg State.host heff), heff.trans (by rw [congrArg State.host heff]; rfl), hfree, hshut, hpart, hothers, hjob⟩

theorem exec_partDelete_starts (hu : UidInv s) (hs : starts s h (.partDelete pid) = true) (hidle : (s.part pid).train = false ∨ s.bcn.begun = false) :
    ∃ t, exec (.partDelete h pid) s = .next t ∧ Running s.host t h (.partDelete pid) ∧ t = { s with host := t.host, parts := t.parts, shutters := t.shutters } ∧
      t.part pid = { s.part pid with state := 3, phase := 3 } ∧ (∀ q, q ≠ pid → t.part q = s.part q) ∧
      (∃ j, smapFind t.shutters pid = some j ∧ j.uid = s.host.nextUid ∧ j.del = true ∧ j.p.entries = []) := by
  obtain ⟨heff, hpart, hothers, hjob⟩ := shutting_enterDrain (s := hand s h (.partDelete pid)) (uid := s.host.nextUid)
    (p := { pid := pid, mode := 1, waitMs := 1, cut := 0, nextProfile := 0, qbind := 0, entries := [] }) true (fun hmode => absurd hmode Nat.one_ne_zero)
    (fun _ => hidle) (.inr rfl)
  refine ⟨_, exec_hand (X := startPartDelete (hand s h (.partDelete pid)) s.host.nextUid pid) rfl hs rfl hu rfl, ?_⟩
  unfold startPartDelete
  generalize (hand s h (.partDelete pid)).enterDrain s.host.nextUid
    { pid := pid, mode := 1, waitMs := 1, cut := 0, nextProfile := 0, qbind := 0, entries := [] } true = t at *
  exact ⟨running_hand (congrArg State.host heff), heff.trans (by rw [congrArg State.host heff]; rfl), hpart, hothers, _, hjob, rfl, rfl, rfl⟩

theorem exec_shutter_of_refused {feed : Feed} (hu : UidInv s) (hs : starts s h (.shutter p) = true) (hp : p.entries ≠ [])
    (href : feed.answered = false ∨ feed.failed ≠ []) :
    ∃ t, exec (.shutter h p feed) s = .next t ∧ Completed s.host t h (.shutter p) stTarget [0, 0, 0, 0] ∧ t = { s with host := t.host, outbox := t.outbox } := by
  refine ⟨_, exec_hand rfl hs rfl hu (startShutter_of_refused hp href), ?_, rfl⟩
  have hfin := finish_hand_host (X := (hand s h (.shutter p)).emits ((ShutterP.heirs p).map (fun m => .heirAsk m ((hand s h (.shutter p)).heirRanges p m))))
    stTarget [] hu rfl
  exact completed_link (c := { runningEntry s h (.shutter p) with detail := detailOf (itemOff 0x0103 0 p.entries.length (feed.failed.headD 0) 6) (feed.failed.headD 0) })
    (r := []) (modCmd_link hu (c := (runningEntry s h (.shutter p)).finish stTarget []) hfin rfl _) rfl rfl rfl rfl rfl rfl rfl

end

/-! ### The drain point (R456, R459, R460) -/

section
variable {s : State} {pid : Fin 16} {j : ShutterJob}

/-- Held publications of a partition's fields are given up; nothing else of them, and no other field, changes. -/
theorem dropPublications_only (s : State) (k : Nat) : s.dropPublications k = { s with fields := (s.dropPublications k).fields } := forAll_modFld_only ..

theorem fld_dropPublications_of_outside {k f : Nat} (hf : (s.part k).holds f = false) : (s.dropPublications k).fld f = s.fld f := by
  refine (fld_forAll_modFld _ _ (List.nodup_range.filter _) _).trans (if_neg fun hmem => ?_)
  exact Bool.false_ne_true (hf.symm.trans (List.mem_filter.mp hmem).2)

theorem smapFind_modShutter (k : Nat) (g : ShutterJob → ShutterJob) (hj : smapFind s.shutters k = some j) :
    smapFind (s.modShutter k g).shutters k = some (g j) := by
  simpa [State.modShutter, hj] using smapFind_map_key s.shutters k g k

/-- The drain point of a shutter without entries, in a partition without a training job. -/
theorem drainPoint_spec (hp : j.p.entries = []) (htrain : (s.part pid.val).train = false) :
    ∃ t, s.drainPoint pid j = t ∧ t = { s with parts := t.parts, shutters := t.shutters, fields := t.fields, host := t.host } ∧
      t.host = { s.host with cmds := s.host.cmds.map (fun c => if c.ofPart pid && c.phase != .done then { c with drained := true } else c) } ∧
      t.part pid.val = { s.part pid.val with phase := 4 } ∧ (∀ q, q ≠ pid.val → t.part q = s.part q) ∧
      (∀ f, (s.part pid.val).holds f = false → t.fld f = s.fld f) := by
  have hline : s.drainLine pid j = s := if_pos (by simp [htrain])
  have hfld := fun f => fld_dropPublications_of_outside (s := s) (k := pid.val) (f := f)
  obtain ⟨F, hF⟩ : ∃ F, s.dropPublications pid = { s with fields := F } := ⟨_, dropPublications_only s pid⟩
  rw [hF] at hfld
  refine ⟨_, rfl, ?_⟩
  unfold State.drainPoint
  rw [hline, hp, hF]
  exact ⟨rfl, rfl, (smapGet_smapSet ..).trans (if_pos rfl), fun q hq => (smapGet_smapSet ..).trans (if_neg hq), hfld⟩

theorem drainReady_of_quiet (htrain : (s.part pid.val).train = false) (hready : (s.part pid.val).phase = 3 ∨
    (∀ c ∈ s.host.cmds, c.part = pid.val → opcodeOf c.body / 256 ≠ 1 → c.phase = .done)) : s.drainReady pid j = true := by
  unfold State.drainReady
  simp only [htrain, Bool.false_eq_true, if_false, Bool.or_eq_true, beq_iff_eq, Bool.not_eq_true', List.any_eq_false]
  refine hready.imp_right fun hdone c hc hopen => ?_
  obtain ⟨hmine, hnot⟩ : c.ofPart pid = true ∧ c.phase ≠ .done := by simpa using hopen
  obtain ⟨hpart, hop⟩ : c.part = pid.val ∧ opcodeOf c.body / 256 ≠ 1 := by simpa [OutCmd.ofPart] using hmine
  exact hnot (hdone c hc hpart hop)

theorem drainReady_of_outstanding (htrain : (s.part pid.val).train = false) (hphase : (s.part pid.val).phase ≠ 3) {c : OutCmd} (hc : c ∈ s.host.cmds)
    (hpart : c.part = pid.val) (hop : opcodeOf c.body / 256 ≠ 1) (hopen : c.phase ≠ .done) : s.drainReady pid j = false := by
  have hany : (s.host.cmds.any fun c => c.ofPart pid && c.phase != .done) = true :=
    List.any_eq_true.mpr ⟨c, hc, by simp [OutCmd.ofPart, hpart, hop, hopen]⟩
  unfold State.drainReady
  simp [htrain, hphase, hany]

theorem exec_shutterDrainPoint_of_ready (hj : smapFind s.shutters pid.val = some j) (hphase : (s.part pid.val).phase < 4) (hready : s.drainReady pid j = true) :
    exec (.shutterDrainPoint pid) s = .next (s.drainPoint pid j) := by
  show execShutterDrainPoint pid s = _
  unfold execShutterDrainPoint
  rw [hj]
  exact if_pos (by simp [hphase, hready])

theorem exec_shutterDrainPoint_of_waiting (hj : smapFind s.shutters pid.val = some j) (hready : s.drainReady pid j = false) :
    exec (.shutterDrainPoint pid) s = .next s := by
  show execShutterDrainPoint pid s = _
  unfold execShutterDrainPoint
  rw [hj]
  exact if_neg (by simp [hready])

theorem exec_shutterWaitTimeout_of_drain (hj : smapFind s.shutters pid.val = some j) (hphase : (s.part pid.val).phase = 2) (hcommit : j.commit = false) :
    exec (.shutterWaitTimeout pid) s = .next (if (s.part pid.val).train then s.enterAbandon pid else s.drainPoint pid j) := by
  show execShutterWaitTimeout pid s = _
  unfold execShutterWaitTimeout
  rw [hj]
  refine (if_neg (by simp [hphase, hcommit])).trans ?_
  split <;> rfl

end

/-! ### ZEROISE (R389, R420, R462) -/

section
variable {s : State} {k : Nat}

/-- A lantern port without a session that is closed. -/
def closedLport (x : LntPort) : LntPort := { x with state := 0, linked := false, own := none, peer := none }

/-- One port is closed. -/
def closeLport (s : State) (p : Nat) : State :=
  let x := s.lport p
  let s1 := if x.live then (s.emit (.lntClose p x.session)).dropSession p else s
  let s2 := if x.state != 0 && x.present then s1.emit (.dataPath p false) else s1
  s2.modLport p closedLport

theorem closeLports_eq (s : State) (k : Nat) :
    s.closeLports k = s.forAll ((List.range 4).filter (fun p => (s.part k).lports.testBit p)) closeLport := rfl

theorem closeLport_of_dead {p : Nat} (hdead : (s.lport p).live = false) :
    closeLport s p = { s with lnt := smapSet s.lnt p (closedLport (s.lport p)), outbox := (closeLport s p).outbox } := by
  unfold closeLport
  simp only [hdead, Bool.false_eq_true, if_false]
  split <;> rfl

theorem lport_closeLport_of_dead {p : Nat} (hdead : (s.lport p).live = false) (q : Nat) :
    (closeLport s p).lport q = if q = p then closedLport (s.lport p) else s.lport q := by
  rw [closeLport_of_dead hdead]
  exact smapGet_smapSet ..

/-- Closing ports whose sessions do not stand reaches these ports and what goes out to their optics. -/
theorem forAll_closeLport_of_dead {ps : List Nat} (hps : ps.Nodup) (hdead : ∀ q ∈ ps, (s.lport q).live = false) :
    s.forAll ps closeLport = { s with lnt := (s.forAll ps closeLport).lnt, outbox := (s.forAll ps closeLport).outbox } ∧
      ∀ q, (s.forAll ps closeLport).lport q = if q ∈ ps then closedLport (s.lport q) else s.lport q := by
  unfold State.forAll
  induction ps generalizing s with
  | nil => exact ⟨rfl, fun q => rfl⟩
  | cons p ps ih =>
    obtain ⟨hp, hnodup⟩ := List.nodup_cons.mp hps
    have hone := lport_closeLport_of_dead (hdead p List.mem_cons_self)
    obtain ⟨heff, hport⟩ := ih (s := closeLport s p) hnodup (fun q hq => by
      have hne : q ≠ p := fun hqp => hp (hqp ▸ hq)
      rw [hone, if_neg hne]
      exact hdead q (List.mem_cons_of_mem _ hq))
    obtain ⟨L, B, hL⟩ : ∃ L B, closeLport s p = { s with lnt := L, outbox := B } := ⟨_, _, closeLport_of_dead (hdead p List.mem_cons_self)⟩
    rw [List.foldl_cons]
    generalize List.foldl closeLport (closeLport s p) ps = t at *
    refine ⟨heff.trans (by rw [hL]), fun q => (hport q).trans ?_⟩
    · rw [hone]
      by_cases hq : q = p
      · subst hq; simp [hp]
      · simp [hq]

theorem closeLports_of_dead (hdead : ∀ q, q < 4 → (s.part k).lports.testBit q = true → (s.lport q).live = false) :
    s.closeLports k = { s with lnt := (s.closeLports k).lnt, outbox := (s.closeLports k).outbox } ∧
      ∀ q, q < 4 → (s.closeLports k).lport q = if (s.part k).lports.testBit q = true then closedLport (s.lport q) else s.lport q := by
  have hmem : ∀ q, q ∈ (List.range 4).filter (fun p => (s.part k).lports.testBit p) ↔ q < 4 ∧ (s.part k).lports.testBit q = true := by
    simp
  rw [closeLports_eq]
  obtain ⟨heff, hport⟩ := forAll_closeLport_of_dead (s := s) (List.nodup_range.filter _) (fun q hq => hdead q ((hmem q).mp hq).1 ((hmem q).mp hq).2)
  refine ⟨heff, fun q hq => (hport q).trans ?_⟩
  simp [hmem, hq]

theorem finish_shutter_done (c : OutCmd) (r : List Nat) : (c.finish stAbShutter r).phase = .done := by
  unfold OutCmd.finish
  split
  case isTrue h => simpa [stAbShutter] using h
  case isFalse => rfl

/-- Every command that passes the test is done once all of them are finished with ABORTED_SHUTTER. -/
theorem finishAll_done {test : OutCmd → Bool} {c : OutCmd} (hc : c ∈ (s.finishAll test stAbShutter).host.cmds) (htest : test c = true) : c.phase = .done := by
  obtain ⟨d, -, rfl⟩ := List.mem_map.mp hc
  by_cases hopen : (test d && d.phase != .done) = true
  · rw [if_pos hopen]
    exact finish_shutter_done d []
  · rw [if_neg hopen] at htest ⊢
    simpa [htest] using hopen

/-- The states of commands, ports and phase from which ZEROISE clears the rest. -/
def zeroiseClosed (s : State) (k : Nat) : State := ((s.shutterPhase k 5).finishAll (fun c => c.ofPart k) stAbShutter).closeLports k

/-- The state once ZEROISE has cleared what does not belong to the outer loop. -/
def zeroiseCleared (s : State) (k : Nat) (s1 : State) : State := { s1 with
  mem := s1.mem.filter (fun c => !(s.part k).fields.contains (addrField c.1) || s1.lostAt c.1)
  tiles := smapMap (fun t x => if (s.part k).fields.contains (t / 16) then x.zeroise else x) s1.tiles
  fields := smapMap (fun f d => if (s.part k).fields.contains f then d.zeroise else d) s1.fields
  acts := s1.acts.filter (fun e => e.1 / 1024 != k)
  fab := s1.fab.zeroise k
  chk := smapErase s1.chk (k + 1) }

theorem zeroise_eq (s : State) (k : Nat) : s.zeroise k =
    if (s.part k).train then (zeroiseCleared s k (zeroiseClosed s k)).modOuter OuterIsland.zeroise else zeroiseCleared s k (zeroiseClosed s k) := rfl

/-- ZEROISE leaves the outer loop's record alone in the outer state. -/
theorem zeroise_only (s : State) (k : Nat) :
    s.zeroise k = { zeroiseCleared s k (zeroiseClosed s k) with outer := (s.zeroise k).outer } := by
  rw [zeroise_eq]
  split <;> rfl

end

section
variable {s : State} {k : Nat} (hdead : ∀ q, q < 4 → (s.part k).lports.testBit q = true → (s.lport q).live = false)
include hdead

theorem zeroiseClosed_of_dead : zeroiseClosed s k =
    { (s.shutterPhase k 5).finishAll (fun c => c.ofPart k) stAbShutter with lnt := (zeroiseClosed s k).lnt, outbox := (zeroiseClosed s k).outbox } ∧
      ∀ q, q < 4 → (zeroiseClosed s k).lport q = if (s.part k).lports.testBit q = true then closedLport (s.lport q) else s.lport q := by
  have hports : (((s.shutterPhase k 5).finishAll (fun c => c.ofPart k) stAbShutter).part k).lports = (s.part k).lports := by
    show ((s.shutterPhase k 5).part k).lports = _
    rw [State.shutterPhase, modPart_part, if_pos rfl]
  have := closeLports_of_dead (s := (s.shutterPhase k 5).finishAll (fun c => c.ofPart k) stAbShutter) (k := k) (by rw [hports]; exact hdead)
  rw [hports] at this
  exact this

/-- ZEROISE of a partition whose lantern sessions do not stand. -/
theorem zeroise_spec :
    s.zeroise k = { s with
        fab := (s.zeroise k).fab, parts := (s.zeroise k).parts, host := (s.zeroise k).host, lnt := (s.zeroise k).lnt, mem := (s.zeroise k).mem,
        tiles := (s.zeroise k).tiles, fields := (s.zeroise k).fields, acts := (s.zeroise k).acts, chk := (s.zeroise k).chk, outer := (s.zeroise k).outer,
        outbox := (s.zeroise k).outbox } ∧
      (s.zeroise k).part k = { s.part k with phase := 5 } ∧ (∀ q, q ≠ k → (s.zeroise k).part q = s.part q) ∧
      (∀ c ∈ (s.zeroise k).host.cmds, c.part = k → opcodeOf c.body / 256 ≠ 1 → c.phase = .done) ∧
      (∀ a, memRead (s.zeroise k).mem a = if addrField a ∈ (s.part k).fields ∧ s.lostAt a = false then blankByte else memRead s.mem a) ∧
      (∀ n, (s.zeroise k).tile n = if n / 16 ∈ (s.part k).fields then (s.tile n).zeroise else s.tile n) ∧
      (∀ f, (s.zeroise k).fld f = if f ∈ (s.part k).fields then (s.fld f).zeroise else s.fld f) ∧
      (s.zeroise k).fab = s.fab.zeroise k ∧ (∀ e ∈ (s.zeroise k).acts, e.1 / 1024 ≠ k) ∧
      (∀ q, q < 4 → (s.zeroise k).lport q = if (s.part k).lports.testBit q = true then closedLport (s.lport q) else s.lport q) ∧
      (∀ u, (s.zeroise k).chkUnit u = if u = k + 1 then {} else s.chkUnit u) := by
  obtain ⟨hclosed, hport⟩ := zeroiseClosed_of_dead hdead
  have hunit := zeroise_chkUnit s k
  have honly := zeroise_only s k
  rw [honly] at hunit ⊢
  generalize (s.zeroise k).outer = o at *
  generalize zeroiseClosed s k = z at *
  obtain ⟨L, B, rfl⟩ : ∃ L B, z = { (s.shutterPhase k 5).finishAll (fun c => c.ofPart k) stAbShutter with lnt := L, outbox := B } := ⟨_, _, hclosed⟩
  refine ⟨rfl, (smapGet_smapSet ..).trans (if_pos rfl), fun q hq => (smapGet_smapSet ..).trans (if_neg hq), fun c hc hpart hop => ?_, fun a => ?_, fun n => ?_,
    fun f => ?_, rfl, fun e he => ?_, hport, hunit⟩
  · exact finishAll_done (s := s.shutterPhase k 5) hc (by simp [OutCmd.ofPart, hpart, hop])
  · refine (memRead_filter s.mem (fun b => !(s.part k).fields.contains (addrField b) || s.lostAt b) a).trans ?_
    by_cases hin : addrField a ∈ (s.part k).fields <;> cases hlost : s.lostAt a <;> simp [hin]
  · refine (smapGet_smapMap (zeroisedTile s k) s.tiles n (show zeroisedTile s k n {} = {} from ite_self _)).trans ?_
    simp [State.tile, zeroisedTile]
  · refine (smapGet_smapMap (fun f d => if (s.part k).fields.contains f then Field.zeroise d else d) s.fields f (d := {}) (ite_self _)).trans ?_
    simp [State.fld]
  · simpa using (List.mem_filter.mp he).2

end

/-! ### The end of EXPORT (R461, R465) -/

section
variable {s : State} {pid : Fin 16} {j : ShutterJob}

/-- The two rows that end EXPORT, and what the record then holds. -/
theorem exec_of_exportEnds {feed : Feed} {n b : Nat} (hj : smapFind s.shutters pid.val = some j) (hphase : (s.part pid.val).phase = 4) {ev : Instr}
    (hev : ev = .shutterExportDone pid feed ∧ s.flowsDone j.uid = true ∨ ev = .exportCutTimer pid n b ∧ j.p.cut = 1 ∧ n < j.p.entries.length) :
    ∃ fin bytes ff cut fail, exec ev s = .next (s.exportEnd pid j fin bytes ff cut fail) ∧
      (ev = .exportCutTimer pid n b → cut = true ∧ fin = n ∧ bytes = b) := by
  rcases hev with ⟨rfl, hdone⟩ | ⟨rfl, hcut, hn⟩
  · obtain ⟨fin, bytes, ff, cut, fail, hrow⟩ := exec_shutterExportDone_of_done feed hj hphase hdone
    exact ⟨fin, bytes, ff, cut, fail, hrow, fun h => nomatch h⟩
  · refine ⟨n, b, (j.sums (fun i => i < n)).2.2, true, j.fail, ?_, fun _ => ⟨rfl, rfl, rfl⟩⟩
    show execExportCutTimer pid n b s = _
    unfold execExportCutTimer
    rw [hj]
    exact if_neg (by simp [hphase, hcut, hn])

end

/-- Settles O29: a shutter that begins changes its record and its partition; the drain point and its time limit change the phase, and what the
partition has outstanding; the end of EXPORT is the beginning of ZEROISE, which is a filter or a map of each part of the state. -/
theorem shutterTakesAPartitionDown : Obligations.ShutterTakesAPartitionDown := by
  unfold Obligations.ShutterTakesAPartitionDown
  refine ⟨fun s h p feed hu hs => ⟨?shutter, ?refused⟩, ?delete, fun s pid j hj hp htrain hphase => ⟨?drain, ?waits⟩, ?timeout, ?zeroise⟩
  case shutter => exact fun hp hdrain habandon => exec_shutter_of_nil hu hs hp hdrain habandon
  case refused => exact fun hp href => exec_shutter_of_refused hu hs hp href
  case delete => exact fun s h pid hu hs hidle => exec_partDelete_starts hu hs hidle
  case drain =>
    intro hready
    obtain ⟨t, ht, heff, hhost, hpart, hothers, hfld⟩ := drainPoint_spec (pid := pid) hp htrain
    refine ⟨t, ?_, heff, hhost, hpart, hothers, hfld, fun h2 hcommit => ?_⟩
    · rw [exec_shutterDrainPoint_of_ready hj hphase (drainReady_of_quiet htrain hready), ht]
    · rw [exec_shutterWaitTimeout_of_drain hj h2 hcommit, htrain, ← ht]
      rfl
  case waits =>
    exact fun c hc hpart hop hopen h3 => exec_shutterDrainPoint_of_waiting hj (drainReady_of_outstanding htrain h3 hc hpart hop hopen)
  case timeout =>
    intro s pid j hj h2 hcommit htrain hbegun
    refine ⟨s.shutterPhase pid 3, ?_, rfl, (modPart_part ..).trans (if_pos rfl), fun q hq => (modPart_part ..).trans (if_neg hq)⟩
    rw [exec_shutterWaitTimeout_of_drain hj h2 hcommit, htrain, if_pos rfl, enterAbandon_of_idle (.inr hbegun)]
  case zeroise =>
    intro s pid j feed n b hj hphase hdead ev hev
    obtain ⟨fin, bytes, ff, cut, fail, hrow, hcut⟩ := exec_of_exportEnds hj hphase hev
    refine ⟨_, hrow, ?_⟩
    unfold State.exportEnd
    obtain ⟨heff, hpart, hothers, hcmds, hmem, htile, hfld, hfab, hacts, hport, hunit⟩ := zeroise_spec
      (s := (s.modShutter pid (fun x => { x with finished := fin, bytes := bytes, ffBytes := ff, cut := cut, fail := fail })).closeFlows j.uid) (k := pid.val) hdead
    have hjob := smapFind_modShutter pid.val (fun x => { x with finished := fin, bytes := bytes, ffBytes := ff, cut := cut, fail := fail }) hj
    generalize State.zeroise _ _ = t at *
    refine ⟨heff.trans ?_, hpart, hothers, ⟨_, (congrArg (fun x => smapFind (State.shutters x) pid.val) heff).trans hjob, rfl, rfl, rfl, hcut⟩,
      hcmds, hmem, htile, hfld, ?_, ?_, hacts, hport, hunit⟩
    · rw [congrArg State.shutters heff]; rfl
    · rw [hfab]
      exact fun x hx => by simpa using (List.mem_filter.mp hx).2
    · rw [hfab]
      exact fun x hx => by simpa using (List.mem_filter.mp hx).2

end Sys2Proof.Proofs
end

section
/-! PROOFS. An outer group whose planes lie past the window of its stack. -/

namespace Sys2Proof.Proofs

open Sys2Proof.Machine Sys2Proof.Laws

/-! ### Lost bytes (R235) -/

section
variable {s : State} {x : Nat}

/-- A write leaves a lost byte as it is. -/
theorem memRead_pokeBytes_of_lost (a : Nat) (bs : List Byte) (hx : s.lostAt x = true) : memRead (s.pokeBytes a bs).mem x = memRead s.mem x := by
  induction bs generalizing s a with
  | nil => rfl
  | cons b bs ih =>
    unfold State.pokeBytes
    split
    case isTrue => exact ih _ hx
    case isFalse hkept =>
      have hne : x ≠ a := fun hxa => hkept (hxa ▸ hx)
      rw [ih (s := { s with mem := memWrite s.mem a b }) _ hx]
      exact memRead_memWrite_ne _ _ _ _ hne

/-- Whether a byte is lost, and what it then holds. -/
def lostByte (s : State) (x : Nat) : Bool × Byte := (s.lostAt x, memRead s.mem x)

theorem lostByte_pokeBytes (a : Nat) (bs : List Byte) {t : State} {v : Byte} (ht : lostByte t x = (true, v)) : lostByte (t.pokeBytes a bs) x = (true, v) := by
  obtain ⟨hlost, hv⟩ := Prod.mk.inj ht
  refine Prod.ext ?_ ((memRead_pokeBytes_of_lost a bs hlost).trans hv)
  rw [lostByte, pokeBytes_only]
  exact hlost

theorem lostByte_zeroRange (a n : Nat) {t : State} {v : Byte} (ht : lostByte t x = (true, v)) : lostByte (t.zeroRange a n) x = (true, v) := by
  obtain ⟨hlost, hv⟩ := Prod.mk.inj ht
  refine Prod.ext hlost ((memRead_filter t.mem (fun b => !(a ≤ b && b < a + n) || t.lostAt b) x).trans ?_)
  rw [hlost, Bool.or_true, if_pos rfl]
  exact hv

theorem mem_modGroup (f gid : Nat) (g : Group → Group) : (s.modGroup f gid g).mem = s.mem := by rw [modGroup_only]

/-- The planes of an outer group, as OUTER_REG leaves them: from `m` on the master's bytes, and +0. -/
def outerPlanes (s : State) (g : GroupP) (p : OuterP) (m : List Byte) : State :=
  (s.forAll [0, 1, 2, 3] (fun t i => t.pokeBytes (t.outAddr g p i) m)).forAll [(4, 512), (5, 512), (6, 256), (7, 256)]
    (fun t i => t.zeroRange (t.outAddr g p i.1) (i.2 * s.shardBlocks g))

theorem memRead_outerPlanes_of_lost (g : GroupP) (p : OuterP) (m : List Byte) (hx : s.lostAt x = true) :
    memRead (outerPlanes s g p m).mem x = memRead s.mem x := by
  unfold outerPlanes
  have hpoked := forAll_keeps (fun t => lostByte t x = (true, memRead s.mem x)) [0, 1, 2, 3] (fun t i => t.pokeBytes (t.outAddr g p i) m)
    (fun t i _ ht => lostByte_pokeBytes _ _ ht) s (Prod.ext hx rfl)
  have hzero := forAll_keeps (fun t => lostByte t x = (true, memRead s.mem x)) [(4, 512), (5, 512), (6, 256), (7, 256)]
    (fun t (i : Nat × Nat) => t.zeroRange (t.outAddr g p i.1) (i.2 * s.shardBlocks g)) (fun t i _ ht => lostByte_zeroRange _ _ ht) _ hpoked
  simp only [lostByte, Prod.mk.injEq] at hzero
  exact hzero.2

theorem startOuterReg_of_further {uid : Nat} {p : OuterP} {g : Group} (hg : s.group p.field p.gid = some g) (houter : s.outerGroups.isEmpty = false) :
    startOuterReg s uid p = ((outerPlanes s g.p p (s.peekBytes (s.masterAddr g.p g.bank 0) (512 * s.shardBlocks g.p))).modGroup p.field p.gid
      (fun x => { x with outer := some { p := p } })).finish uid stDone [] := by
  unfold startOuterReg
  rw [hg]
  dsimp only
  rw [houter, if_neg Bool.false_ne_true, outerPlanes]

/-- OUTER_REG of a module that has outer groups leaves a lost byte as it is. -/
theorem memRead_startOuterReg_of_lost {uid : Nat} {p : OuterP} {g : Group} (hg : s.group p.field p.gid = some g) (houter : s.outerGroups.isEmpty = false)
    (hx : s.lostAt x = true) : memRead (startOuterReg s uid p).mem x = memRead s.mem x := by
  rw [startOuterReg_of_further hg houter, finish_mem, mem_modGroup, memRead_outerPlanes_of_lost _ _ _ hx]

end

/-! ### Planes past the window -/

/-- A federation of this island alone. -/
def loneFed : FedP :=
  { members := [⟨0, 255, 0⟩], h := 8, s := 1, w1 := 0, w2 := 0, w3 := 0, w4 := 0, div := 1, policy := 0, nhold := 0, rejoin := 16, join := 0 }

/-- An element-wise rule without options. -/
def plainRule : RuleP :=
  { rcode := 0, nesterov := 0, biascorr := 0, clip := 0, lrslot := 0, gslot := 1, lr := 0x3F800000, b1 := 0, b2 := 0, eps := 0, wd := 0, maxnorm := 0,
    rows := 0, cols := 0, nsiter := 0, nsa := 0, nsb := 0, nsc := 0, oscale := 0, refresh := 0, riter := 0, bmark := 0, scratch := 0 }

/-- A group of one block in field 0, whose planes begin the stack. -/
def blockGroup : GroupP :=
  { field := 0, gid := 7, nelem := 128, cons := 0, rule := plainRule, r := 1, m1fmt := 3, m2fmt := 0, gxfmt := 3, wcfmt := 0, htag := 1, bank := 0,
    pbase := 0, gbase := 0, tmask := 1, telems := 128, slot0 := 0, slot1 := 4096, xmark := 28,
    tier := { home := 0, haddr := 0, rbase := 0, pkbase := 0, late := 0, smarkEn := 0, smark := 0 }, members := [(0, 0)] }

/-- Outer planes that begin where the stack's window ends. -/
def pastTheWindow : OuterP := { field := 0, gid := 7, dfmt := 3, olr := 0x3F800000, omom := 0, opbase := 2 ^ 37 }

/-- Another group of the field, with outer planes inside the stack. -/
def otherGroup : Group :=
  { p := { blockGroup with gid := 8, pbase := 2 ^ 20 }, bank := 0, outer := some { p := { pastTheWindow with gid := 8, opbase := 2 ^ 21 } } }

/-- Field 0 lists 33 good channels, so that its stack is said to reach past its window of 2^37 bytes; field 1's stack is in test mode. -/
def besideTest : State := { plainState with
  fields := [(0, { stack := { good := List.range 33 }, groups := [(7, { p := blockGroup, bank := 0 }), (8, otherGroup)] }), (1, { stack := { test := true } })]
  place := { placed := true }, outer := { fed := some loneFed }, mem := [(0, 7)] }

theorem starts_besideTest : starts besideTest (plainHdr 1 0) (.outerReg pastTheWindow) = true := by decide +kernel

/-- The first byte of the plane stays blank, where the master's is 7. -/
theorem exec_outerReg_besideTest {t : State} (ht : exec (.outerReg (plainHdr 1 0) pastTheWindow) besideTest = .next t) : memRead t.mem (2 ^ 37) = blankByte := by
  have hrow := exec_hand (X := startOuterReg (hand besideTest (plainHdr 1 0) (.outerReg pastTheWindow)) besideTest.host.nextUid pastTheWindow)
    (c := .outerReg (plainHdr 1 0) pastTheWindow) rfl starts_besideTest rfl (by decide) rfl
  have hleft : startOuterReg (hand besideTest (plainHdr 1 0) (.outerReg pastTheWindow)) besideTest.host.nextUid pastTheWindow = t :=
    Host.Outcome.next.inj (hrow.symm.trans ht)
  have hgroup : (hand besideTest (plainHdr 1 0) (.outerReg pastTheWindow)).group 0 7 = some { p := blockGroup, bank := 0 } := by decide
  have hstay := memRead_startOuterReg_of_lost (uid := besideTest.host.nextUid) (x := 2 ^ 37) (p := pastTheWindow) hgroup (by decide) (by decide)
  rw [← hleft, hstay]
  decide

theorem master_present_besideTest :
    ∀ k < 512 * besideTest.shardBlocks blockGroup, besideTest.lostAt (besideTest.masterAddr blockGroup 0 0 + k) = false := by
  intro k hk
  have hlen : 512 * besideTest.shardBlocks blockGroup = 512 := by decide
  have haddr : besideTest.masterAddr blockGroup 0 0 = 0 := by decide +kernel
  have hfield : (0 + k) / 2 ^ 37 = 0 := Nat.div_eq_of_lt (by omega)
  rw [haddr]
  unfold State.lostAt
  rw [hfield]
  exact Bool.and_false _

/-- Refutes O31: nothing keeps the good channels of a stack to 32, and with 33 the planes of OUTER_REG may lie in the next stack, which is in test mode. -/
theorem not_lanternAndOuterCommands : ¬ Obligations.LanternAndOuterCommands := by
  unfold Obligations.LanternAndOuterCommands
  intro hall
  obtain ⟨-, -, hreg, -⟩ := hall
  obtain ⟨t, hnext, -, -, -, -, -, -, -, -, -, hplanes⟩ := hreg besideTest (plainHdr 1 0) pastTheWindow { p := blockGroup, bank := 0 } (by decide)
    starts_besideTest rfl
  have hbyte := hplanes (by decide) (by decide) rfl master_present_besideTest 0 0 (by decide) (by decide +kernel)
  have hzero := exec_outerReg_besideTest hnext
  rw [show besideTest.outAddr blockGroup pastTheWindow 0 + 0 = 2 ^ 37 by decide +kernel, hzero,
    show besideTest.masterAddr blockGroup 0 0 + 0 = 0 by decide +kernel] at hbyte
  exact absurd hbyte (by decide)

end Sys2Proof.Proofs
end

section
/-! PROOFS. A group whose home is the host tier, registered while host memory lists one address twice. -/

namespace Sys2Proof.Proofs

open Sys2Proof.Machine Sys2Proof.Laws

/-- A group of one block whose state has its home in the host tier. -/
def hostGroup : GroupP :=
  { blockGroup with tier := { home := 1, haddr := 0x100000, rbase := 0x200000, pkbase := 0x300000, late := 0, smarkEn := 0, smark := 0 } }

/-- Host memory lists the first byte of the group's plane M1_A twice: nothing in the statement asks for its canonical form. -/
def listedTwice : State := { plainState with
  fields := [(0, { stack := { good := List.range 32 } })], place := { placed := true }, blob := { members := [⟨0, 0, 0, 0⟩] }
  hostMem := [(0x100400, 1), (0x100400, 1)] }

theorem exec_pgroupReg_listedTwice :
    (nextOf (exec (.pgroupReg (plainHdr 1 0) hostGroup) listedTwice)).map (fun t => memRead t.hostMem 0x100400) = some 1 := by decide +kernel

/-- Refutes O32: the clearing of a plane in the host tier takes one entry of each byte out of host memory, and the statement lets it list two. -/
theorem not_parameterCommands : ¬ Obligations.ParameterCommands := by
  unfold Obligations.ParameterCommands
  intro hall
  obtain ⟨hreg, -⟩ := hall
  obtain ⟨-, hgroup⟩ := hreg listedTwice (plainHdr 1 0) hostGroup (by decide) (by decide +kernel)
  obtain ⟨t, x, hnext, -, -, -, -, -, -, -, -, -, -, hplanes, -⟩ := hgroup (by decide)
  have hbyte := hplanes rfl 1 0 0 (by decide) (by decide) (by decide) (by decide)
  have hone := exec_pgroupReg_listedTwice
  rw [hnext] at hone
  have hread : memRead t.hostMem 0x100400 = 1 := Option.some.inj hone
  rw [show hostGroup.hostOff (listedTwice.ownBlocks hostGroup).2 1 0 + 0 = 0x100400 by decide, hread] at hbyte
  exact absurd hbyte (by decide)

end Sys2Proof.Proofs
end

section
/-! PROOFS. Commands that wait for their point, and what they announce. -/

namespace Sys2Proof.Proofs

open Sys2Proof.Machine Sys2Proof.Laws

/-! ### A command that may not start yet (R350, R480, R483) -/

section
variable {s : State} {h : Hdr} {b : Body}

theorem submit_of_waiting (feed : Feed) (hopen : s.queueOpen h.queue = true) (hchecks : firstFail (s.allChecks h b []) = none)
    (hviol : s.violation (s.cmdQueue h.queue).view h b = none) (hwait : (offered s h b).mayBegin (entryOf s h b) = false)
    (hkept : s.turnedAway h.part (opcodeOf b) ≠ some stAbShutter) : s.submit h b feed = offered s h b := by
  have hearly : firstFail ((s.allChecks h b []).filter (fun c => c.order ≤ 2)) = none := by
    rw [firstFail_none] at hchecks ⊢
    exact fun c hc => hchecks c (List.mem_filter.mp hc).1
  have haccept : s.submit h b feed = (offered s h b).tryBegin (entryOf s h b) feed := by
    unfold State.submit State.submitWith
    simp only [hopen, if_true, hearly, hchecks, hviol]
    rfl
  have haway : (offered s h b).turnedAway (entryOf s h b).part (opcodeOf (entryOf s h b).body) = s.turnedAway h.part (opcodeOf b) :=
    turnedAway_offered ..
  rw [haccept]
  unfold State.tryBegin
  rw [hwait, if_neg Bool.false_ne_true, haway]
  cases hcause : s.turnedAway h.part (opcodeOf b) with
  | none => rfl
  | some st => exact if_neg (fun hst => hkept (hcause.trans (congrArg some hst)))

/-- Only STEP_SCALAR and the pins announce themselves. -/
theorem announce_of_other (part : Nat) (p : Option (Nat × Nat)) (hscalar : opcodeOf b ≠ 0x0703) (hpin : opcodeOf b ≠ 0x0804) : s.announce part b p = s := by
  unfold State.announce
  split
  · exact absurd rfl hscalar
  · exact absurd rfl hpin
  · rfl

theorem offered_of_other (hscalar : opcodeOf b ≠ 0x0703) (hpin : opcodeOf b ≠ 0x0804) : offered s h b = { s with host := (offered s h b).host } := by
  unfold offered
  rw [announce_of_other _ _ hscalar hpin, ite_self]
  rfl

/-! ### What a command announces (R154, R291) -/

theorem forAll_withHost {α : Type} (hl : HostLink) (xs : List α) (g : State → α → State)
    (hg : ∀ s x, g { s with host := hl } x = { g s x with host := hl }) (s : State) :
    ({ s with host := hl } : State).forAll xs g = { s.forAll xs g with host := hl } := by
  unfold State.forAll
  induction xs generalizing s with
  | nil => rfl
  | cons x xs ih => rw [List.foldl_cons, List.foldl_cons, hg, ih]

theorem sendScalar_withHost (hl : HostLink) (slot : Nat) (v : F32) (p : Option (Nat × Nat)) :
    ({ s with host := hl } : State).sendScalar slot v p = { s.sendScalar slot v p with host := hl } := by
  by_cases hk : s.isKeeper = true
  · have hform : ∀ t : State, t.isKeeper = true → t.sendScalar slot v p =
        t.broadcast { op := 7, key := 6, index := slot, step := beginAt p, attempt := t.bcn.attempt, payload := leBytes 8 v.toNat } := fun t ht => if_pos ht
    obtain ⟨ps, ob, hout⟩ := broadcast_eq s { op := 7, key := 6, index := slot, step := beginAt p, attempt := s.bcn.attempt, payload := leBytes 8 v.toNat }
    rw [hform s hk, hform { s with host := hl } hk]
    refine (broadcast_withLine s.bcn hl s _ rfl rfl).trans ?_
    rw [hout]
    rfl
  · have hform : ∀ t : State, t.isKeeper = false → t.sendScalar slot v p =
        t.emit (.scalarFwd slot v (beginAt p) (match p with | some p => p.2 | none => 0)) := fun t ht => if_neg (by rw [ht]; exact Bool.false_ne_true)
    have hk' : s.isKeeper = false := by simpa using hk
    rw [hform s hk', hform { s with host := hl } hk']
    rfl

theorem announce_withHost (hl : HostLink) (part : Nat) (p : Option (Nat × Nat)) :
    ({ s with host := hl } : State).announce part b p = { s.announce part b p with host := hl } := by
  unfold State.announce
  split
  · exact sendScalar_withHost ..
  · exact forAll_withHost hl _ _ (fun s x => rfl) s
  · rfl

/-- The state that a command which announces itself completes on. -/
def handAnnounced (s : State) (h : Hdr) (b : Body) : State := { s.announce h.part b (s.pointOf h) with host := handLink s h b }

/-- STEP_SCALAR and the pins announce themselves once, with their point or without. -/
theorem startAnnounced_inHand (hu : UidInv s) :
    startAnnounced (inHand s h b) s.host.nextUid h.part b (s.pointOf h) = (handAnnounced s h b).finish s.host.nextUid stDone [] := by
  have hhost := inHand_host s h b hu
  unfold startAnnounced
  cases hp : s.pointOf h with
  | none =>
    have hin : inHand s h b = { s with host := handLink s h b } := (inHand_frame s h b (by rw [hp]; rfl)).trans (by rw [hhost]; rfl)
    rw [if_pos (show (none : Option (Nat × Nat)).isNone = true from rfl), hin, announce_withHost, ← hp]
    rfl
  | some p =>
    have hin : inHand s h b = handAnnounced s h b := by
      have hframe : inHand s h b = { s.announce h.part b (s.pointOf h) with host := (inHand s h b).host } := by
        unfold inHand offered
        rw [hp]
        rfl
      rw [hframe, hhost]
      rfl
    rw [if_neg (by simp), hin]

/-- The row of a command that announces itself. -/
theorem exec_announced {c : Instr} (hc : exec c s = .next (s.submit h b {})) (hs : starts s h b = true) (hu : UidInv s)
    (hb : ∀ view point, (inHand s h b).bodyStart view s.host.nextUid h h.part point {} b = startAnnounced (inHand s h b) s.host.nextUid h.part b point) :
    exec c s = .next ((handAnnounced s h b).finish s.host.nextUid stDone []) := by
  rw [hc, submit_of_starts s h b {} hs, hb, startAnnounced_inHand hu]

theorem exec_stepScalar_starts {slot : Nat} {v : F32} (hu : UidInv s) (hs : starts s h (.stepScalar slot v) = true) :
    exec (.stepScalar h slot v) s = .next ((handAnnounced s h (.stepScalar slot v)).finish s.host.nextUid stDone []) :=
  exec_announced rfl hs hu (fun _ _ => rfl)

/-- A request is left in the slot named of every field of the partition. -/
theorem requestPin_spec (part slot rung unpin : Nat) (p : Option (Nat × Nat)) :
    s.requestPin part slot rung unpin p = { s with fields := (s.requestPin part slot rung unpin p).fields } ∧
      (∀ f, { (s.requestPin part slot rung unpin p).fld f with
          steer := { ((s.requestPin part slot rung unpin p).fld f).steer with slots := (s.fld f).steer.slots } } = s.fld f) ∧
      ∀ f n, smapGet ({} : SteerSlot) ((s.requestPin part slot rung unpin p).fld f).steer.slots n =
        if f ∈ s.partFields part ∧ n = slot then { smapGet ({} : SteerSlot) (s.fld f).steer.slots n with
          reqs := (smapGet ({} : SteerSlot) (s.fld f).steer.slots n).reqs ++ [(beginAt p, if unpin = 1 then none else some rung)] }
        else smapGet ({} : SteerSlot) (s.fld f).steer.slots n := by
  have hfld := fld_forAll_modFld s (fun _ d => { d with steer := { d.steer with slots := smapModify {} d.steer.slots slot (fun x =>
    { x with reqs := x.reqs ++ [(beginAt p, if unpin = 1 then none else some rung)] }) } }) (nodup_partFields s part)
  refine ⟨forAll_modFld_only .., fun f => ?_, fun f n => ?_⟩
  · unfold State.requestPin
    rw [hfld f]
    split <;> rfl
  · unfold State.requestPin
    rw [hfld f]
    by_cases hf : f ∈ s.partFields part
    · rw [if_pos hf]
      refine (smapGet_smapModify ({} : SteerSlot) (s.fld f).steer.slots slot n (fun x =>
        { x with reqs := x.reqs ++ [(beginAt p, if unpin = 1 then none else some rung)] })).trans ?_
      by_cases hn : n = slot
      · subst hn
        rw [if_pos rfl, if_pos (show f ∈ s.partFields part ∧ n = n from ⟨hf, rfl⟩)]
      · rw [if_neg hn, if_neg (show ¬ (f ∈ s.partFields part ∧ n = slot) from fun hall => hn hall.2)]
    · rw [if_neg hf, if_neg (show ¬ (f ∈ s.partFields part ∧ n = slot) from fun hall => hf hall.1)]

theorem exec_steerPin_starts {slot rung : Nat} (un : Bool) (hu : UidInv s) (hs : starts s h (.steerPin slot rung (if un then 1 else 0)) = true) :
    exec (if un then .steerUnpin h slot rung else .steerPin h slot rung) s =
      .next ((handAnnounced s h (.steerPin slot rung (if un then 1 else 0))).finish s.host.nextUid stDone []) := by
  cases un
  · exact exec_announced rfl hs hu (fun _ _ => rfl)
  · exact exec_announced rfl hs hu (fun _ _ => rfl)

end

/-! ### SCHEDULED_START (R350, R447, R517) -/

section
variable {s : State} {q : Fin 64}

theorem nextWaiting_of_split {cs ds : List OutCmd} {c : OutCmd} (hcmds : s.host.cmds = cs ++ c :: ds)
    (hfirst : ∀ x ∈ cs, x.hdr.queue = q → x.phase ≠ .waiting) (hq : c.hdr.queue = q) (hwait : c.phase = .waiting) : s.nextWaiting q = some c := by
  unfold State.nextWaiting
  rw [hcmds, List.find?_append, List.find?_eq_none.mpr (fun x hx => by simpa using hfirst x hx)]
  simp [hq, hwait]

theorem exec_scheduledStart_nop {feed : Feed} {cs ds : List OutCmd} {c : OutCmd} (hcmds : s.host.cmds = cs ++ c :: ds)
    (hfirst : ∀ x ∈ cs, x.hdr.queue = q → x.phase ≠ .waiting) (huid : ∀ x ∈ cs ++ ds, x.uid ≠ c.uid) (hq : c.hdr.queue = q) (hwait : c.phase = .waiting)
    (hbody : c.body = .nop) (hmay : s.mayBegin c = true) (hserved : s.servedFirst c = false) (haway : s.turnedAway c.part 0 = none)
    (hreplayed : c.replayed = false) (hdrained : c.drained = false) (hdl : c.hdr.dl = false) :
    ∃ t, exec (.scheduledStart q feed) s = .next t ∧ t = { s with host := { s.host with cmds := t.host.cmds } } ∧
      t.host.cmds = cs ++ { c with
        phase := .done, slot := true, profile := (s.part c.part).profile, status := stDone, r0 := 0, r1 := 0, r2 := 0, r3 := 0 } :: ds := by
  have hturned : s.turnedAway c.part (opcodeOf c.body) = none := by rw [hbody]; exact haway
  have hrow : exec (.scheduledStart q feed) s = .next (s.begin c feed) := by
    show execScheduledStart q feed s = _
    unfold execScheduledStart
    rw [nextWaiting_of_split hcmds hfirst hq hwait]
    dsimp only
    rw [hmay, hserved, hturned, hbody]
    rfl
  have hbegin : s.begin c feed = (s.modCmd c.uid (fun x => { x with phase := .running, slot := true, profile := (s.part c.part).profile })).finish c.uid stDone [] := by
    unfold State.begin
    rw [hturned, hbody]
    rfl
  refine ⟨_, hrow.trans (congrArg _ hbegin), rfl, ?_⟩
  have hfinish := finish_of_running (c := { c with phase := .running, slot := true, profile := (s.part c.part).profile }) stDone [] rfl hreplayed hdrained
    (by unfold OutCmd.chosen; rw [hdl]; rfl)
  show List.map _ (List.map _ s.host.cmds) = _
  rw [hcmds, map_uid_split _ rfl huid]
  refine (map_uid_split (c := { c with phase := .running, slot := true, profile := (s.part c.part).profile }) _ rfl huid).trans ?_
  rw [hfinish]
  rfl

theorem exec_scheduledStart_of_none {feed : Feed}
    (hnone : ∀ c ∈ s.host.cmds, c.hdr.queue = q → c.phase = .waiting → s.mayBegin c = false ∨ s.servedFirst c = true) :
    exec (.scheduledStart q feed) s = .next s := by
  show execScheduledStart q feed s = _
  unfold execScheduledStart
  cases hnext : s.nextWaiting q with
  | none => rfl
  | some c =>
    have hsound := List.find?_some hnext
    obtain ⟨hq, hwait⟩ : c.hdr.queue = q ∧ c.phase = .waiting := by simpa using hsound
    refine if_pos ?_
    rcases hnone c (List.mem_of_find?_eq_some hnext) hq hwait with hmay | hserved
    · simp [hmay]
    · simp [hserved]

end

/-- Settles O33: a command that waits changes the state by what it announces alone; STEP_SCALAR and the pins announce themselves once, whether they
have a point or not; SCHEDULED_START looks at the oldest waiting command of its queue alone. -/
theorem scheduledCommandsWaitAndAnnounce : Obligations.ScheduledCommandsWaitAndAnnounce := by
  unfold Obligations.ScheduledCommandsWaitAndAnnounce
  refine ⟨?waits, ?scalar, ?pin, ?points, ?starts, ?idles⟩
  case waits =>
    intro s h b feed hopen hchecks hviol hwait hkept
    exact ⟨submit_of_waiting feed hopen hchecks hviol hwait hkept, offered_host .., rfl, rfl, offered_of_other⟩
  case scalar =>
    intro s h slot v hu hs
    obtain ⟨ps, ob, hout⟩ := sendScalar_eq s slot v (s.pointOf h)
    refine ⟨_, exec_stepScalar_starts hu hs, completed_hand (r := []) hu rfl, ?_, ?_⟩
    · have hX : handAnnounced s h (.stepScalar slot v) =
          { s with host := handLink s h (.stepScalar slot v), fab := { s.fab with ports := ps }, outbox := ob } := by
        unfold handAnnounced
        rw [show s.announce h.part (.stepScalar slot v) (s.pointOf h) = s.sendScalar slot v (s.pointOf h) from rfl, hout]
      rw [hX]
      rfl
    · dsimp only
      show (s.sendScalar slot v (s.pointOf h)).fab = _ ∧ (s.sendScalar slot v (s.pointOf h)).outbox = _
      unfold State.sendScalar
      exact ⟨rfl, rfl⟩
  case pin =>
    intro s h slot rung un hu hs
    obtain ⟨honly, hframe, hslots⟩ := requestPin_spec (s := s) h.part slot rung (if un then 1 else 0) (s.pointOf h)
    refine ⟨_, exec_steerPin_starts un hu hs, completed_hand (r := []) hu rfl, ?_, hframe, fun f n => (hslots f n).trans ?_⟩
    · have hX : handAnnounced s h (.steerPin slot rung (if un then 1 else 0)) = { s with
          host := handLink s h (.steerPin slot rung (if un then 1 else 0))
          fields := (s.requestPin h.part slot rung (if un then 1 else 0) (s.pointOf h)).fields } := by
        unfold handAnnounced
        exact congrArg (fun t : State => ({ t with host := handLink s h (.steerPin slot rung (if un then 1 else 0)) } : State)) honly
      rw [hX]
      rfl
    · cases un <;> rfl
  case points => exact fun p => ⟨rfl, rfl, fun m hm => if_neg (Nat.ne_of_gt hm)⟩
  case starts =>
    exact fun s q feed cs ds c hcmds hfirst huid hq hwait hbody hmay hserved haway hreplayed hdrained hdl =>
      exec_scheduledStart_nop hcmds hfirst huid hq hwait hbody hmay hserved haway hreplayed hdrained hdl
  case idles => exact fun s q feed hnone => exec_scheduledStart_of_none hnone

end Sys2Proof.Proofs
end

section
/-! PROOFS. Numeric health, steering settings and snapshots. -/

namespace Sys2Proof.Proofs

open Sys2Proof.Machine Sys2Proof.Laws

section
variable {s : State} {h : Hdr} {b : Body}

/-! ### Settings of a partition's fields (R163, R165, R513) -/

/-- A command that sets something in every field of its partition and completes. -/
theorem exec_of_fieldSettings {c : Instr} (g : Field → Field) (hc : exec c s = .next (s.submit h b {})) (hs : starts s h b = true)
    (ho : opSched (opcodeOf b) = false) (hu : UidInv s)
    (hb : (hand s h b).bodyStart (s.cmdQueue h.queue).view s.host.nextUid h h.part none {} b =
      ((hand s h b).forAll (s.partFields h.part) (fun s f => s.modFld f g)).finish s.host.nextUid stDone []) :
    ∃ t, exec c s = .next t ∧ Completed s.host t h b stDone [0, 0, 0, 0] ∧ t = { s with host := t.host, fields := t.fields } ∧
      ∀ f, t.fld f = if f ∈ s.partFields h.part then g (s.fld f) else s.fld f := by
  have hfld := fld_forAll_modFld (hand s h b) (fun _ => g) (nodup_partFields s h.part)
  have honly := forAll_modFld_only (hand s h b) (fun _ => g) (s.partFields h.part)
  refine ⟨_, exec_hand hc hs ho hu hb, ?_⟩
  generalize (hand s h b).forAll (s.partFields h.part) (fun s f => s.modFld f g) = X at *
  obtain ⟨F, rfl⟩ : ∃ F, X = { hand s h b with fields := F } := ⟨_, honly⟩
  exact ⟨completed_hand (r := []) hu rfl, rfl, hfld⟩

theorem smapGet_filter {α : Type} (d : α) (m : SMap α) (keep : Nat → Bool) (k : Nat) :
    smapGet d (m.filter (fun c => keep c.1)) k = if keep k = true then smapGet d m k else d := by
  induction m with
  | nil => simp [smapGet]
  | cons c m ih =>
    obtain ⟨j, v⟩ := c
    by_cases hj : j = k
    · subst hj
      cases hkeep : keep j <;> simp [hkeep, smapGet, ih]
    · cases hkeep : keep j <;> simp [hkeep, smapGet, ih, hj]

/-! ### HEALTH_READ (R163, R513) -/

/-- What HEALTH_READ writes. -/
def healthBytes (c : Nat → Nat) (b : Nat) : List Byte :=
  [c 0, c 1, c 2, c 3, c b, c (b + 1), c (b + 2)].flatMap (leBytes 8) ++ leBytes 4 (shareOf (c (b + 1)) (c b)) ++ leBytes 4 (shareOf (c (b + 2)) (c b))

theorem shareOf_lt (n conv : Nat) : shareOf n conv < 2 ^ 32 := by
  unfold shareOf
  split <;> omega

theorem healthCount_lt (fs : List Nat) (tag i : Nat) : s.healthCount fs tag i < 2 ^ 64 := Nat.mod_lt _ (by decide)

theorem length_healthBytes (c : Nat → Nat) (b : Nat) : (healthBytes c b).length = 64 := by
  simp [healthBytes, length_leBytes]

/-- The numbers that stand in what HEALTH_READ writes. -/
theorem memReadNat_healthBytes {m : Memory} (hm : Memory.wf m = true) (a : Nat) {c : Nat → Nat} (hc : ∀ i, c i < 2 ^ 64) (b : Nat) :
    let m' := memWriteBytes m a (healthBytes c b)
    memReadNat m' a 8 = c 0 ∧ memReadNat m' (a + 24) 8 = c 3 ∧ memReadNat m' (a + 32) 8 = c b ∧ memReadNat m' (a + 48) 8 = c (b + 2) ∧
      memReadNat m' (a + 56) 4 = shareOf (c (b + 1)) (c b) ∧ memReadNat m' (a + 60) 4 = shareOf (c (b + 2)) (c b) := by
  have hnum : ∀ (pre post : List Byte) (n v o : Nat), healthBytes c b = pre ++ leBytes n v ++ post → pre.length = o → v < 256 ^ n →
      memReadNat (memWriteBytes m a (healthBytes c b)) (a + o) n = v := by
    intro pre post n v o hsplit ho hv
    rw [hsplit, ← ho, memReadNat_memWriteBytes m hm, Nat.mod_eq_of_lt hv]
  have h8 : ∀ i, c i < 256 ^ 8 := fun i => hc i
  have hshare : ∀ n conv, shareOf n conv < 256 ^ 4 := shareOf_lt
  let s1 := leBytes 4 (shareOf (c (b + 1)) (c b))
  let s2 := leBytes 4 (shareOf (c (b + 2)) (c b))
  refine ⟨?_, ?_, ?_, ?_, ?_, ?_⟩
  · exact hnum [] ([c 1, c 2, c 3, c b, c (b + 1), c (b + 2)].flatMap (leBytes 8) ++ s1 ++ s2) 8 (c 0) 0 (by simp [healthBytes, s1, s2]) rfl (h8 _)
  · exact hnum ([c 0, c 1, c 2].flatMap (leBytes 8)) ([c b, c (b + 1), c (b + 2)].flatMap (leBytes 8) ++ s1 ++ s2) 8 (c 3) 24
      (by simp [healthBytes, s1, s2]) (by simp [length_leBytes]) (h8 _)
  · exact hnum ([c 0, c 1, c 2, c 3].flatMap (leBytes 8)) ([c (b + 1), c (b + 2)].flatMap (leBytes 8) ++ s1 ++ s2) 8 (c b) 32
      (by simp [healthBytes, s1, s2]) (by simp [length_leBytes]) (h8 _)
  · exact hnum ([c 0, c 1, c 2, c 3, c b, c (b + 1)].flatMap (leBytes 8)) (s1 ++ s2) 8 (c (b + 2)) 48
      (by simp [healthBytes, s1, s2]) (by simp [length_leBytes]) (h8 _)
  · exact hnum ([c 0, c 1, c 2, c 3, c b, c (b + 1), c (b + 2)].flatMap (leBytes 8)) s2 4 (shareOf (c (b + 1)) (c b)) 56
      (by simp [healthBytes, s2]) (by simp [length_leBytes]) (hshare _ _)
  · exact hnum ([c 0, c 1, c 2, c 3, c b, c (b + 1), c (b + 2)].flatMap (leBytes 8) ++ s1) [] 4 (shareOf (c (b + 2)) (c b)) 60
      (by simp [healthBytes, s1]) (by simp [length_leBytes, s1]) (hshare _ _)

theorem fmt_pos_of_checks {p : HealthP} (hc : ∀ c ∈ checksHealth p, c.ok = true) : 1 ≤ p.fmt := by
  have hfmt := hc (ckFormat (1 ≤ p.fmt && p.fmt ≤ 7) (fieldOff 0x0800 1)) (by unfold checksHealth; simp)
  have hle : 1 ≤ p.fmt ∧ p.fmt ≤ 7 := by simpa [ckFormat] using hfmt
  exact hle.1

/-- HEALTH_READ of a partition. -/
theorem exec_healthRead_starts {p : HealthP} (hu : UidInv s) (hs : starts s h (.healthRead p) = true) :
    exec (.healthRead h p) s = .next ((State.finish { hand s h (.healthRead p) with
      hostMem := memWriteBytes s.hostMem p.buf.addr ((healthBytes (s.healthCount (s.partFields h.part) p.htag) (3 * p.fmt + 1)).take p.buf.len) }
      s.host.nextUid stDone [shareOf (s.healthCount (s.partFields h.part) p.htag (3 * p.fmt + 1 + 1)) (s.healthCount (s.partFields h.part) p.htag (3 * p.fmt + 1)),
        shareOf (s.healthCount (s.partFields h.part) p.htag (3 * p.fmt + 1 + 2)) (s.healthCount (s.partFields h.part) p.htag (3 * p.fmt + 1))])) := by
  have hfmt : 4 + 3 * (p.fmt - 1) = 3 * p.fmt + 1 := by
    have := fmt_pos_of_checks (starts_bodyChecks hs)
    omega
  have hup : s.host.state = 2 := starts_linkUp hs
  refine exec_hand rfl hs rfl hu ?_
  show startHealth (hand s h (.healthRead p)) s.host.nextUid h.part p = _
  unfold startHealth
  dsimp only
  rw [hfmt, writeResult_of_up (show (hand s h (.healthRead p)).host.state = 2 from hup)]
  rfl

/-! ### SNAPSHOT (R513) -/

/-- What the reads of a snapshot latch. -/
def OnlyLatches (s t : State) : Prop := t = { s with bcn := { s.bcn with posHi := t.bcn.posHi }, chk := t.chk }

theorem onlyLatches_readLatch (view o : Nat) : OnlyLatches s (s.readLatch view o) := by
  unfold State.readLatch
  split
  · rfl
  · split
    · rfl
    · split <;> rfl

theorem OnlyLatches.trans {t u : State} (h : OnlyLatches s t) (k : OnlyLatches t u) : OnlyLatches s u := by
  rw [OnlyLatches] at h k ⊢
  rw [k, h]

/-- One word of a snapshot: its latch, and its value. -/
def snapWord (view : Nat) (a : State × List Byte) (i : Nat) : State × List Byte :=
  (a.1.readLatch view (4 * i), a.2 ++ leBytes 4 ((a.1.readLatch view (4 * i)).readReg view (4 * i)).toNat)

theorem snapWords_spec (view : Nat) (is : List Nat) (a : State × List Byte) :
    OnlyLatches a.1 (is.foldl (snapWord view) a).1 ∧ ∃ rest, (is.foldl (snapWord view) a).2 = a.2 ++ rest := by
  induction is generalizing a with
  | nil => exact ⟨rfl, [], (List.append_nil _).symm⟩
  | cons i is ih =>
    obtain ⟨hlatch, rest, hrest⟩ := ih (snapWord view a i)
    exact ⟨(onlyLatches_readLatch view (4 * i)).trans hlatch, _, hrest.trans (List.append_assoc ..)⟩

/-- SNAPSHOT of the issuing view: what its reads leave, and the bytes that begin with the register at offset 0. -/
theorem exec_snapshot_starts {p : BufP} (hu : UidInv s) (hs : starts s h (.snapshot p) = true) :
    ∃ X bytes, exec (.snapshot h p) s = .next ((State.finish { X with hostMem := memWriteBytes s.hostMem p.addr (bytes.take p.len) }
        s.host.nextUid stDone [p.len])) ∧ OnlyLatches (hand s h (.snapshot p)).sampleInput X ∧
      (4 ≤ p.len → ∃ rest, bytes = leBytes 4 (s.readReg (s.cmdQueue h.queue).view 0).toNat ++ rest) := by
  have hup : s.host.state = 2 := starts_linkUp hs
  obtain ⟨hlatch, -⟩ := snapWords_spec (s.cmdQueue h.queue).view (List.range (p.len / 4)) ((hand s h (.snapshot p)).sampleInput, [])
  have hrow : exec (.snapshot h p) s = .next (startSnapshot (hand s h (.snapshot p)) s.host.nextUid (s.cmdQueue h.queue).view p) :=
    congrArg Host.Outcome.next (submit_hand_quiet hs (fun _ => rfl) hu {})
  have hfirst : 4 ≤ p.len → ∃ rest,
      ((List.range (p.len / 4)).foldl (snapWord (s.cmdQueue h.queue).view) ((hand s h (.snapshot p)).sampleInput, [])).2 =
        leBytes 4 (s.readReg (s.cmdQueue h.queue).view 0).toNat ++ rest := by
    intro hlen
    obtain ⟨n, hn⟩ : ∃ n, p.len / 4 = n + 1 := ⟨p.len / 4 - 1, by omega⟩
    rw [hn, List.range_succ_eq_map, List.foldl_cons]
    obtain ⟨-, rest, hrest⟩ := snapWords_spec (s.cmdQueue h.queue).view ((List.range n).map Nat.succ)
      (snapWord (s.cmdQueue h.queue).view ((hand s h (.snapshot p)).sampleInput, []) 0)
    refine ⟨rest, hrest.trans ?_⟩
    have hword : (((hand s h (.snapshot p)).sampleInput).readLatch (s.cmdQueue h.queue).view (4 * 0)).readReg (s.cmdQueue h.queue).view (4 * 0) =
        s.readReg (s.cmdQueue h.queue).view 0 := by
      have hnone : ((hand s h (.snapshot p)).sampleInput).readLatch (s.cmdQueue h.queue).view (4 * 0) = (hand s h (.snapshot p)).sampleInput := by
        unfold State.readLatch
        split <;> rfl
      rw [hnone]
      rfl
    unfold snapWord
    rw [hword]
    rfl
  refine ⟨_, _, hrow.trans (congrArg Host.Outcome.next ?_), hlatch, hfirst⟩
  have hlink : ((List.range (p.len / 4)).foldl (snapWord (s.cmdQueue h.queue).view) ((hand s h (.snapshot p)).sampleInput, [])).1.host.state = 2 :=
    (congrArg (fun t : State => t.host.state) hlatch).trans hup
  have hmem : ((List.range (p.len / 4)).foldl (snapWord (s.cmdQueue h.queue).view) ((hand s h (.snapshot p)).sampleInput, [])).1.hostMem = s.hostMem :=
    (congrArg State.hostMem hlatch).trans rfl
  show State.finish (State.writeResult _ _ _) _ _ _ = _
  rw [← hmem]
  exact congrArg (fun t : State => t.finish s.host.nextUid stDone [p.len]) (writeResult_of_up hlink p _)

end

/-- Settles O34: the settings change each field of the partition in one way; the bytes of HEALTH_READ and SNAPSHOT are written as one list, in which
each number has its place. -/
theorem healthAndSteeringCommands : Obligations.HealthAndSteeringCommands := by
  unfold Obligations.HealthAndSteeringCommands
  refine ⟨?healthRead, ?healthClear, ?steerCtl, ?steerSlot, ?nevt, ?snapshot⟩
  case healthRead =>
    intro s h p hu hs
    refine ⟨_, _, _, exec_healthRead_starts hu hs, completed_hand (r := [_, _]) hu rfl, rfl, ⟨rfl, rfl, fun hinv hlen => ?_⟩,
      fun a ha => memRead_result_outside _ p.buf _ ha⟩
    have hnums := memReadNat_healthBytes (m := s.hostMem) hinv.2 p.buf.addr (c := s.healthCount (s.partFields h.part) p.htag)
      (fun i => healthCount_lt ..) (3 * p.fmt + 1)
    rw [← List.take_of_length_le (l := healthBytes _ _) (le_of_eq_of_le (length_healthBytes _ _) hlen)] at hnums
    exact hnums
  case healthClear =>
    intro s h t0 t1 t2 t3 hu hs
    obtain ⟨t, hrow, hcomp, honly, hfld⟩ := exec_of_fieldSettings (c := .healthClear h t0 t1 t2 t3) (fun d => { d with
      counts := d.counts.filter (fun c => !(([t0, t1, t2, t3].getD (c.1 / 32 / 64) 0).testBit (c.1 / 32 % 64))) }) rfl hs rfl hu rfl
    refine ⟨t, hrow, hcomp, honly, fun f => ?_, fun f tag i hi => ?_⟩
    · rw [hfld f]
      split <;> rfl
    · rw [hfld f]
      by_cases hf : f ∈ s.partFields h.part
      · rw [if_pos hf]
        have htag : (32 * tag + i) / 32 = tag := by omega
        refine (smapGet_filter 0 (s.fld f).counts (fun k => !(([t0, t1, t2, t3].getD (k / 32 / 64) 0).testBit (k / 32 % 64))) (32 * tag + i)).trans ?_
        rw [htag]
        cases ([t0, t1, t2, t3].getD (tag / 64) 0).testBit (tag % 64) <;> simp [hf]
      · rw [if_neg hf, if_neg (show ¬ (f ∈ s.partFields h.part ∧ _) from fun hall => hf hall.1)]
  case steerCtl =>
    intro s h p hu hs
    exact exec_of_fieldSettings (fun d => { d with steer := { d.steer with pendCtl := some p } }) rfl hs rfl hu rfl
  case steerSlot =>
    intro s h p hu hs
    obtain ⟨t, hrow, hcomp, honly, hfld⟩ := exec_of_fieldSettings (c := .steerSlot h p) (fun d => { d with steer := { d.steer with slots := smapModify {} d.steer.slots p.slot (fun x =>
      { x with minRung := p.minRung, maxRung := p.maxRung, enable := p.enable == 1, fresh := true }) } }) rfl hs rfl hu rfl
    refine ⟨t, hrow, hcomp, honly, fun f => ?_, fun f n => ?_⟩
    · rw [hfld f]
      split <;> rfl
    · rw [hfld f]
      by_cases hf : f ∈ s.partFields h.part
      · rw [if_pos hf]
        refine (smapGet_smapModify ({} : SteerSlot) (s.fld f).steer.slots p.slot n (fun x =>
          { x with minRung := p.minRung, maxRung := p.maxRung, enable := p.enable == 1, fresh := true })).trans ?_
        by_cases hn : n = p.slot
        · subst hn; simp [hf]
        · simp [hn]
      · simp [hf]
  case nevt =>
    intro s h c e hu hs
    exact exec_of_fieldSettings (fun d => { d with classEn := c, steerEn := e == 1 }) rfl hs rfl hu rfl
  case snapshot =>
    intro s h p hu hs
    obtain ⟨X, bytes, hrow, hlatch, hfirst⟩ := exec_snapshot_starts hu hs
    have hX : X.host = handLink s h (.snapshot p) := congrArg State.host hlatch
    refine ⟨_, hrow, completed_hand (r := [p.len]) hu hX, ?_, ?_, ?_, fun a ha => memRead_result_outside _ p _ ha, fun hinv hlen => ?_⟩
    · obtain ⟨bh, ck, rfl⟩ : ∃ bh ck, X = { (hand s h (.snapshot p)).sampleInput with bcn := { (hand s h (.snapshot p)).sampleInput.bcn with posHi := bh }, chk := ck } :=
        ⟨_, _, hlatch⟩
      rfl
    · exact (congrArg State.power hlatch).trans (by rw [congrArg State.power hlatch]; rfl)
    · exact congrArg State.bcn hlatch
    · obtain ⟨rest, rfl⟩ := hfirst hlen
      have hcut : (leBytes 4 (s.readReg (s.cmdQueue h.queue).view 0).toNat ++ rest).take p.len =
          [] ++ leBytes 4 (s.readReg (s.cmdQueue h.queue).view 0).toNat ++ rest.take (p.len - 4) := by
        rw [List.take_append, List.take_of_length_le (by rw [length_leBytes]; exact hlen), length_leBytes, List.nil_append]
      show memReadNat (memWriteBytes s.hostMem p.addr _) (p.addr + ([] : List Byte).length) 4 = _
      have hlt : (s.readReg (s.cmdQueue h.queue).view 0).toNat < 256 ^ 4 := BitVec.isLt _
      rw [hcut, memReadNat_memWriteBytes s.hostMem hinv.2, Nat.mod_eq_of_lt hlt]

end Sys2Proof.Proofs
end

section
/-! PROOFS. Reports, the event log, test mode, the traffic generator and the self-test. -/

namespace Sys2Proof.Proofs

open Sys2Proof.Machine Sys2Proof.Laws

/-! ### Reports, the log and the identity key (R548, R550, R551) -/

section
variable {s t : State} {h : Hdr}

/-- A report names the module's fuses and its security state alone. -/
theorem report_congr (hfuses : t.fuses = s.fuses) (hsec : t.sec = s.sec) (purpose : Nat) (nonce context : List Byte) :
    t.report purpose nonce context = s.report purpose nonce context := by
  have hreg : t.regAt 16 0 = s.regAt 16 0 := by
    show packBits [(0, 0x1024), (16, t.fuses.stepping % 16), (20, t.fuses.build % 16), (24, 0x4C)] = packBits _
    rw [hfuses]
  unfold State.report
  rw [hreg, hfuses, hsec]

theorem exec_attest_starts {p : AttestP} (hu : UidInv s) (hs : starts s h (.attest p) = true) :
    exec (.attest h p) s = .next (State.finish { hand s h (.attest p) with
      hostMem := memWriteBytes s.hostMem p.buf.addr ((s.report 0 ([p.n0, p.n1, p.n2, p.n3].flatMap (leBytes 8)) []).take p.buf.len)
      sec := { s.sec with signed := s.sec.signed + 1 } } s.host.nextUid stDone [448]) := by
  have hup : s.host.state = 2 := starts_linkUp hs
  refine exec_hand rfl hs rfl hu ?_
  show startAttest (hand s h (.attest p)) s.host.nextUid p = _
  unfold startAttest
  dsimp only
  rw [writeResult_of_up (show (hand s h (.attest p)).host.state = 2 from hup), report_congr (s := s) rfl rfl]
  rfl

/-- The entries that LOG_READ answers. -/
def logEntries (s : State) (p : LogP) : List (List Byte) := ((s.sec.entries.drop p.first).take p.count).take (p.buf.len / 64)

theorem exec_logRead_starts {p : LogP} (hu : UidInv s) (hs : starts s h (.logRead p) = true) :
    exec (.logRead h p) s = .next (State.finish { hand s h (.logRead p) with
      hostMem := memWriteBytes s.hostMem p.buf.addr (((logEntries s p).flatMap (fun e => padTo 64 e)).take p.buf.len) }
      s.host.nextUid stDone [(logEntries s p).length, s.sec.entries.length]) := by
  have hup : s.host.state = 2 := starts_linkUp hs
  refine exec_hand rfl hs rfl hu ?_
  show startLogRead (hand s h (.logRead p)) s.host.nextUid p = _
  unfold startLogRead
  dsimp only
  rw [writeResult_of_up (show (hand s h (.logRead p)).host.state = 2 from hup)]
  rfl

/-- A list of pieces of one length. -/
theorem getD_flatMap_of_length {α : Type} {n : Nat} (g : α → List Byte) (hg : ∀ x, (g x).length = n) {xs : List α} {i : Nat} {x : α} (hx : xs[i]? = some x)
    {k : Nat} (hk : k < n) : (xs.flatMap g).getD (n * i + k) 0 = (g x).getD k 0 ∧ n * i + k < (xs.flatMap g).length := by
  induction xs generalizing i with
  | nil => simp at hx
  | cons y ys ih =>
    rw [List.flatMap_cons, List.length_append, hg]
    cases i with
    | zero =>
      obtain rfl : y = x := by simpa using hx
      rw [Nat.mul_zero, Nat.zero_add, List.getD_append _ _ _ _ (by rw [hg]; exact hk)]
      exact ⟨rfl, by omega⟩
    | succ i =>
      obtain ⟨hval, hlt⟩ := ih (i := i) (by simpa using hx)
      have hsplit : n * (i + 1) + k = n + (n * i + k) := by rw [Nat.mul_succ]; omega
      rw [hsplit, List.getD_append_right _ _ _ _ (by rw [hg]; omega), hg, Nat.add_sub_cancel_left]
      exact ⟨hval, by omega⟩

theorem length_flatMap_of_length {α : Type} {n : Nat} (g : α → List Byte) (hg : ∀ x, (g x).length = n) (xs : List α) :
    (xs.flatMap g).length = n * xs.length := by
  induction xs with
  | nil => rfl
  | cons x xs ih => rw [List.flatMap_cons, List.length_append, hg, ih, List.length_cons, Nat.mul_succ, Nat.add_comm]

/-- A stored entry that the buffer has room for stands in its place. -/
theorem memRead_logEntries {p : LogP} (hm : Memory.wf s.hostMem = true) {i k : Nat} {e : List Byte} (hcount : i < p.count) (hroom : i < p.buf.len / 64)
    (he : s.sec.entries[p.first + i]? = some e) (hk : k < 64) :
    memRead (memWriteBytes s.hostMem p.buf.addr (((logEntries s p).flatMap (fun e => padTo 64 e)).take p.buf.len)) (p.buf.addr + 64 * i + k) =
      (padTo 64 e).getD k 0 := by
  have hlog : (logEntries s p)[i]? = some e := by
    unfold logEntries
    rw [List.getElem?_take_of_lt hroom, List.getElem?_take_of_lt hcount, List.getElem?_drop]
    exact he
  obtain ⟨hval, hlt⟩ := getD_flatMap_of_length (fun e => padTo 64 e) (length_padTo 64) hlog hk
  have hlen : (logEntries s p).length ≤ p.buf.len / 64 := by unfold logEntries; rw [List.length_take]; exact Nat.min_le_left ..
  rw [List.take_of_length_le (by rw [length_flatMap_of_length _ (length_padTo 64)]; omega), Nat.add_assoc, memRead_memWriteBytes _ _ _ _ hm hlt, hval]

theorem exec_idkeyRead_starts {p : BufP} (hu : UidInv s) (hs : starts s h (.idkeyRead p) = true) :
    exec (.idkeyRead h p) s = .next (State.finish { hand s h (.idkeyRead p) with
      hostMem := memWriteBytes s.hostMem p.addr ((padTo 97 (Config.identityKey s.fuses.secret)).take p.len) } s.host.nextUid stDone [97]) := by
  have hup : s.host.state = 2 := starts_linkUp hs
  refine exec_hand rfl hs rfl hu ?_
  show startIdkey (hand s h (.idkeyRead p)) s.host.nextUid p = _
  unfold startIdkey
  rw [writeResult_of_up (show (hand s h (.idkeyRead p)).host.state = 2 from hup)]
  rfl

end

/-! ### Channels and their runs (R236 to R239) -/

section
variable {s : State} {f c : Nat}

/-- Channel `c` of the stack of field `f`. -/
def chanOf (s : State) (f c : Nat) : Channel := smapGet ({} : Channel) (s.fld f).stack.chans c

theorem chanOf_modChan (g : Channel → Channel) (k d : Nat) :
    chanOf (s.modChan f c g) k d = if k = f ∧ d = c then g (chanOf s f c) else chanOf s k d := by
  unfold chanOf State.modChan
  rw [modFld_fld]
  by_cases hk : k = f
  · subst hk
    rw [if_pos rfl]
    refine (smapGet_smapModify ({} : Channel) (s.fld k).stack.chans c d g).trans ?_
    by_cases hd : d = c
    · subst hd; simp
    · simp [hd]
  · simp [hk]

/-- A channel whose run has ended with `found` mismatches, of which `at_` names the first. -/
def endedChan (found : Nat) (at_ : Nat × Nat) (c : Channel) : Channel :=
  { c with
    run := none, tgDone := true, tgErrs := min (c.tgErrs + found) (2 ^ 32 - 1), tgErrsat := c.tgErrsat || 2 ^ 32 - 1 < c.tgErrs + found
    tgFail := c.tgFail || found != 0
    tgFail0 := if c.tgFail || found = 0 then c.tgFail0 else at_.1 % 2 ^ 32
    tgFail1 := if c.tgFail || found = 0 then c.tgFail1 else at_.2 % 2 ^ 12 }

/-- The mismatch that a run's end names first. -/
def firstFound (w : TgWalk) (errs : Nat) (first : Option (Nat × Nat)) : Nat × Nat := ((if errs = 0 then none else first).or w.first).getD (0, 0)

/-- The state with the data and the channel that a run's end leaves. -/
def runEnded (s : State) (f c : Nat) (w : TgWalk) (errs : Nat) (first : Option (Nat × Nat)) : State :=
  State.modChan { s with mem := w.mem } f c (endedChan (w.errs + errs) (firstFound w errs first))

/-- What a run's end does to its command. -/
def runCounted (s : State) (p : TgP) (found : Nat) : State :=
  match s.runCmd p with
  | none => s
  | some m =>
    if m.left ≤ 1 then s.finish m.uid stDone [satAdd 32 m.r0 found] else s.modCmd m.uid (fun x => { x with left := x.left - 1, r0 := satAdd 32 m.r0 found })

theorem tgEnd_of_run {p : TgP} (hrun : (chanOf s f c).run = some p) (errs : Nat) (first : Option (Nat × Nat)) (n : Nat) :
    s.tgEnd f c errs first n = runCounted (runEnded s f c (s.tgWalk f c p n) errs first) p ((s.tgWalk f c p n).errs + errs) := by
  unfold State.tgEnd
  dsimp only
  rw [show (smapGet ({} : Channel) (s.fld f).stack.chans c).run = some p from hrun]
  rfl

/-- What a run's end may change: memory, channels, the commands in hand and the count of free values. -/
def OnlyRuns (s t : State) : Prop :=
  t = { s with host := { s.host with cmds := t.host.cmds }, fields := t.fields, mem := t.mem, fresh := t.fresh }

theorem OnlyRuns.trans {t u : State} (h : OnlyRuns s t) (k : OnlyRuns t u) : OnlyRuns s u := by
  rw [OnlyRuns] at h k ⊢
  rw [k, h]

theorem onlyRuns_runCounted (p : TgP) (found : Nat) : OnlyRuns s (runCounted s p found) := by
  unfold runCounted
  split
  · rfl
  · split <;> rfl

theorem fields_runCounted (p : TgP) (found : Nat) : (runCounted s p found).fields = s.fields := by
  unfold runCounted
  split
  · rfl
  · split <;> rfl

theorem chanOf_of_fields {t : State} (h : t.fields = s.fields) (k d : Nat) : chanOf t k d = chanOf s k d := by
  unfold chanOf State.fld
  rw [h]

/-- A run's end, in the channel that had it and in every other. -/
theorem chanOf_tgEnd {p : TgP} (hrun : (chanOf s f c).run = some p) (errs : Nat) (first : Option (Nat × Nat)) (n k d : Nat) :
    chanOf (s.tgEnd f c errs first n) k d =
      if k = f ∧ d = c then endedChan ((s.tgWalk f c p n).errs + errs) (firstFound (s.tgWalk f c p n) errs first) (chanOf s f c) else chanOf s k d := by
  rw [tgEnd_of_run hrun, chanOf_of_fields (fields_runCounted ..)]
  exact chanOf_modChan ..

theorem onlyRuns_tgEnd (errs : Nat) (first : Option (Nat × Nat)) (n : Nat) : OnlyRuns s (s.tgEnd f c errs first n) := by
  cases hrun : (chanOf s f c).run with
  | none =>
    have hstay : s.tgEnd f c errs first n = s := by
      unfold State.tgEnd
      dsimp only
      rw [show (smapGet ({} : Channel) (s.fld f).stack.chans c).run = none from hrun]
    rw [hstay]
    rfl
  | some p =>
    rw [tgEnd_of_run hrun]
    exact OnlyRuns.trans (show OnlyRuns s (runEnded ..) from rfl) (onlyRuns_runCounted ..)

/-! ### TG_STOP -/

theorem tgStop_of_none (hrun : (chanOf s f c).run = none) : s.tgStop f c = s := by
  unfold State.tgStop
  dsimp only
  rw [show (smapGet ({} : Channel) (s.fld f).stack.chans c).run = none from hrun]

theorem tgStop_of_run {p : TgP} (hrun : (chanOf s f c).run = some p) :
    s.tgStop f c = State.tgEnd { s with fresh := s.fresh + 1 } f c (Config.tgFound s.fresh).1 (some (Config.tgFound s.fresh).2)
      (TgP.early p (Config.tgBursts s.fresh)) := by
  unfold State.tgStop
  dsimp only
  rw [show (smapGet ({} : Channel) (s.fld f).stack.chans c).run = some p from hrun]

theorem onlyRuns_tgStop : OnlyRuns s (s.tgStop f c) := by
  cases hrun : (chanOf s f c).run with
  | none => rw [tgStop_of_none hrun]; rfl
  | some p =>
    rw [tgStop_of_run hrun]
    exact OnlyRuns.trans (show OnlyRuns s { s with fresh := s.fresh + 1 } from rfl) (onlyRuns_tgEnd ..)

/-- What TG_STOP leaves of a channel that it names. -/
def Stopped (x y : Channel) : Prop := y.run = none ∧ (x.run ≠ none → y.tgDone = true) ∧ (x.run = none → y = x)

theorem stopped_tgStop : Stopped (chanOf s f c) (chanOf (s.tgStop f c) f c) := by
  cases hrun : (chanOf s f c).run with
  | none => rw [tgStop_of_none hrun]; exact ⟨hrun, fun h => absurd hrun h, fun _ => rfl⟩
  | some p =>
    have hend := chanOf_tgEnd (s := { s with fresh := s.fresh + 1 }) (f := f) (c := c) hrun (Config.tgFound s.fresh).1 (some (Config.tgFound s.fresh).2)
      (TgP.early p (Config.tgBursts s.fresh)) f c
    rw [if_pos ⟨rfl, rfl⟩] at hend
    rw [tgStop_of_run hrun, hend]
    exact ⟨rfl, fun _ => rfl, fun h => absurd (hrun.symm.trans h) (by simp)⟩

theorem chanOf_tgStop_of_ne {k d : Nat} (hne : ¬ (k = f ∧ d = c)) : chanOf (s.tgStop f c) k d = chanOf s k d := by
  cases hrun : (chanOf s f c).run with
  | none => rw [tgStop_of_none hrun]
  | some p =>
    have hend := chanOf_tgEnd (s := { s with fresh := s.fresh + 1 }) (f := f) (c := c) hrun (Config.tgFound s.fresh).1 (some (Config.tgFound s.fresh).2)
      (TgP.early p (Config.tgBursts s.fresh)) k d
    rw [if_neg hne] at hend
    rw [tgStop_of_run hrun, hend]
    rfl

/-- The runs of several channels stopped one after the other. -/
theorem chanOf_forAll_tgStop {cs : List Nat} (hcs : cs.Nodup) (k d : Nat) :
    (k = f ∧ d ∈ cs → Stopped (chanOf s f d) (chanOf (s.forAll cs (fun s c => s.tgStop f c)) f d)) ∧
      (¬ (k = f ∧ d ∈ cs) → chanOf (s.forAll cs (fun s c => s.tgStop f c)) k d = chanOf s k d) := by
  unfold State.forAll
  induction cs generalizing s with
  | nil => exact ⟨fun h => absurd h.2 (by simp), fun _ => rfl⟩
  | cons c cs ih =>
    obtain ⟨hc, hnodup⟩ := List.nodup_cons.mp hcs
    obtain ⟨hin, hout⟩ := ih (s := s.tgStop f c) hnodup
    rw [List.foldl_cons]
    refine ⟨fun ⟨hk, hd⟩ => ?_, fun hne => ?_⟩
    · subst hk
      rcases List.mem_cons.mp hd with rfl | hd
      · rw [hout (fun hall => hc hall.2)]
        exact stopped_tgStop
      · have hdc : d ≠ c := fun hdc => hc (hdc ▸ hd)
        rw [← chanOf_tgStop_of_ne (s := s) (f := k) (c := c) (k := k) (d := d) (fun hall => hdc hall.2)]
        exact hin ⟨rfl, hd⟩
    · rw [hout (fun hall => hne ⟨hall.1, List.mem_cons_of_mem _ hall.2⟩)]
      exact chanOf_tgStop_of_ne (fun hall => hne ⟨hall.1, hall.2 ▸ List.mem_cons_self⟩)

theorem onlyRuns_forAll_tgStop (cs : List Nat) : OnlyRuns s (s.forAll cs (fun s c => s.tgStop f c)) :=
  forAll_keeps (OnlyRuns s) cs _ (fun _ _ _ h => h.trans onlyRuns_tgStop) s rfl

theorem forAll_tgStop_of_none (cs : List Nat) (hnone : ∀ d ∈ cs, (chanOf s f d).run = none) : s.forAll cs (fun s c => s.tgStop f c) = s := by
  unfold State.forAll
  induction cs with
  | nil => rfl
  | cons c cs ih =>
    rw [List.foldl_cons, tgStop_of_none (hnone c List.mem_cons_self)]
    exact ih (fun d hd => hnone d (List.mem_cons_of_mem _ hd))

/-- The last command in hand is `e`, and every other has a lower number. -/
def LastInHand (e : OutCmd) (s : State) : Prop := ∃ L, s.host.cmds = L ++ [e] ∧ ∀ x ∈ L, x.uid < e.uid

theorem lastInHand_modCmd {e : OutCmd} {u : Nat} (g : OutCmd → OutCmd) (hg : ∀ x, (g x).uid = x.uid) (hu : u < e.uid) (hs : LastInHand e s) :
    LastInHand e (s.modCmd u g) := by
  obtain ⟨L, hcmds, hlow⟩ := hs
  refine ⟨L.map (fun x => if x.uid == u then g x else x), ?_, fun x hx => ?_⟩
  · show s.host.cmds.map _ = _
    rw [hcmds, List.map_append, List.map_singleton, if_neg (by simpa using (Nat.ne_of_lt hu).symm)]
  · obtain ⟨y, hy, rfl⟩ := List.mem_map.mp hx
    have huid : (if y.uid == u then g y else y).uid = y.uid := by split <;> simp [hg]
    rw [huid]
    exact hlow y hy

theorem finish_uid (x : OutCmd) (st : Nat) (r : List Nat) : (x.finish st r).uid = x.uid := by
  unfold OutCmd.finish
  split <;> rfl

theorem lastInHand_runCounted {e : OutCmd} {p : TgP} (found : Nat) (he : e.body ≠ .tgRun p) (hs : LastInHand e s) : LastInHand e (runCounted s p found) := by
  unfold runCounted
  cases hm : s.runCmd p with
  | none => exact hs
  | some m =>
    have hu : m.uid < e.uid := by
      have hsound := List.find?_some hm
      obtain ⟨-, hbody⟩ : m.phase = .running ∧ m.body = .tgRun p := by simpa using hsound
      obtain ⟨L, hcmds, hlow⟩ := hs
      have hmem := List.mem_of_find?_eq_some hm
      rw [hcmds] at hmem
      rcases List.mem_append.mp hmem with hL | he'
      · exact hlow m hL
      · exact absurd (List.mem_singleton.mp he' ▸ hbody) he
    dsimp only
    split
    · exact lastInHand_modCmd _ (fun x => finish_uid x _ _) hu hs
    · exact lastInHand_modCmd _ (fun x => rfl) hu hs

theorem lastInHand_tgStop {e : OutCmd} (he : ∀ p, e.body ≠ .tgRun p) (hs : LastInHand e s) : LastInHand e (s.tgStop f c) := by
  cases hrun : (chanOf s f c).run with
  | none => rw [tgStop_of_none hrun]; exact hs
  | some p =>
    rw [tgStop_of_run hrun, tgEnd_of_run (s := { s with fresh := s.fresh + 1 }) hrun]
    exact lastInHand_runCounted _ (he p) hs

end

/-! ### Test mode (R236) -/

section
variable {s : State} {h : Hdr} {f : Nat}

theorem modStack_fld (g : Stack → Stack) (k : Nat) : (s.modStack f g).fld k = if k = f then { s.fld f with stack := g (s.fld f).stack } else s.fld k :=
  modFld_fld ..

theorem partOf_of_testMode {enter : Nat} (hc : ∀ c ∈ checksTestMode s f enter, c.ok = true) : s.partOf f = none := by
  have hfree := hc (ckState (s.partOf f).isNone stState (fieldOff 0x0A00 0)) (by unfold checksTestMode; simp)
  simpa [ckState] using hfree

theorem exec_testModeEnter_starts (hu : UidInv s) (hs : starts s h (.testMode f 1) = true) :
    exec (.testModeEnter h f) s = .next (((hand s h (.testMode f 1)).modStack f (fun k => { k with test := true })).finish s.host.nextUid stDone []) :=
  exec_hand rfl hs rfl hu rfl

theorem exec_testModeLeave_starts (hu : UidInv s) (hs : starts s h (.testMode f 0) = true) (hnone : ∀ c, c < 32 → (chanOf s f c).run = none) :
    exec (.testModeLeave h f) s = .next ((hand s h (.testMode f 0)).modStack f (fun k => { k with testZero := some s.host.nextUid })) := by
  have hleave : ∀ t : State, startTestMode t s.host.nextUid f 0 =
      (t.forAll (List.range 32) (fun s c => s.tgStop f c)).modStack f (fun k => { k with testZero := some s.host.nextUid }) := fun t => if_neg Nat.zero_ne_one
  have hstay := forAll_tgStop_of_none (s := hand s h (.testMode f 0)) (f := f) (List.range 32) (fun d hd => hnone d (List.mem_range.mp hd))
  refine exec_hand rfl hs rfl hu ?_
  show startTestMode (hand s h (.testMode f 0)) s.host.nextUid f 0 = _
  rw [hleave, hstay]

theorem exec_testZeroiseDone_of_waiting {f : Fin 64} {u : Nat} (hu : (s.fld f).stack.testZero = some u) :
    exec (.testZeroiseDone f) s = .next ((State.modStack { s with mem := memClear s.mem (stackBase f) (2 ^ 37) } f (fun k =>
      { k with test := false, testZero := none })).finish u stDone []) := by
  show execTestZeroiseDone f s = _
  unfold execTestZeroiseDone
  rw [hu]

/-! ### TG_RUN -/

theorem testMode_of_tgRun {p : TgP} (hc : ∀ c ∈ checksTgRun s p, c.ok = true) : (s.fld p.field).stack.test = true := by
  have htest := hc (ckState ((s.fld p.field).stack.test && (s.fld p.field).stack.testZero.isNone) stState (fieldOff 0x0A01 0))
    (by unfold checksTgRun; simp)
  have hboth : (s.fld p.field).stack.test = true ∧ (s.fld p.field).stack.testZero = none := by simpa [ckState] using htest
  exact hboth.1

theorem onlyFields_forAll_modChan (cs : List Nat) (g : Channel → Channel) :
    s.forAll cs (fun s c => s.modChan f c g) = { s with fields := (s.forAll cs (fun s c => s.modChan f c g)).fields } :=
  forAll_keeps (fun t => t = { s with fields := t.fields }) cs _ (fun t c _ ht => by rw [State.modChan, State.modFld, ht]) s rfl

theorem chanOf_forAll_modChan {cs : List Nat} (hcs : cs.Nodup) (g : Channel → Channel) (k d : Nat) :
    chanOf (s.forAll cs (fun s c => s.modChan f c g)) k d = if k = f ∧ d ∈ cs then g (chanOf s k d) else chanOf s k d := by
  unfold State.forAll
  induction cs generalizing s with
  | nil => simp
  | cons c cs ih =>
    obtain ⟨hc, hnodup⟩ := List.nodup_cons.mp hcs
    rw [List.foldl_cons, ih hnodup, chanOf_modChan]
    by_cases hk : k = f
    · subst hk
      by_cases hd : d = c
      · subst hd; simp [hc]
      · simp [hd]
    · simp [hk]

theorem exec_tgRun_of_noop {p : TgP} (hu : UidInv s) (hs : starts s h (.tgRun p) = true) (hnoop : TgP.isNoop p = true) :
    exec (.tgRun h p) s = .next ((hand s h (.tgRun p)).finish s.host.nextUid stDone []) :=
  exec_hand rfl hs rfl hu (if_pos hnoop)

theorem exec_tgRun_of_moving {p : TgP} (hu : UidInv s) (hs : starts s h (.tgRun p) = true) (hnoop : TgP.isNoop p = false) :
    exec (.tgRun h p) s = .next (((hand s h (.tgRun p)).forAll (onesBelow 32 p.chmask) (fun s c => s.modChan p.field c (fun x =>
      { x with run := some p, tgErrs := 0 }))).modCmd s.host.nextUid (fun c => { c with left := (onesBelow 32 p.chmask).length })) :=
  exec_hand rfl hs rfl hu (if_neg (by rw [hnoop]; exact Bool.false_ne_true))

/-! ### TG_RUN_DONE -/

theorem exec_tgRunDone_of_none {f : Fin 64} {c : Fin 32} {n : Nat} {first : Option (Nat × Nat)} (hrun : (chanOf s f c).run = none) :
    exec (.tgRunDone f c n first) s = .next s := by
  show execTgRunDone f c n first s = _
  unfold execTgRunDone
  rw [show (smapGet ({} : Channel) (s.fld f).stack.chans c).run = none from hrun]

theorem exec_tgRunDone_of_on {f : Fin 64} {c : Fin 32} {n : Nat} {first : Option (Nat × Nat)} {p : TgP} (hrun : (chanOf s f c).run = some p)
    (hon : s.tgEnds f c p n = false) : exec (.tgRunDone f c n first) s = .next s := by
  show execTgRunDone f c n first s = _
  unfold execTgRunDone
  rw [show (smapGet ({} : Channel) (s.fld f).stack.chans c).run = some p from hrun]
  exact if_pos (by rw [hon]; rfl)

/-- How many bursts a run has made that ends in TG_RUN_DONE, and the state it then ends in. -/
theorem exec_tgRunDone_of_end {f : Fin 64} {c : Fin 32} {n : Nat} {first : Option (Nat × Nat)} {p : TgP} (hrun : (chanOf s f c).run = some p)
    (hends : s.tgEnds f c p n = true) :
    ∃ fr k, exec (.tgRunDone f c n first) s = .next (State.tgEnd { s with fresh := fr } f c n first k) ∧ (p.stopOnErr ≠ 1 ∨ n = 0 → k = TgP.span p) := by
  have hrow : exec (.tgRunDone f c n first) s = .next (if p.stopOnErr = 1 && n != 0 then
      State.tgEnd { s with fresh := s.fresh + 1 } f c n first (TgP.early p (Config.tgBursts s.fresh)) else s.tgEnd f c n first (TgP.span p)) := by
    show execTgRunDone f c n first s = _
    unfold execTgRunDone
    rw [show (smapGet ({} : Channel) (s.fld f).stack.chans c).run = some p from hrun]
    dsimp only
    refine (if_neg (by rw [hends]; exact Bool.false_ne_true)).trans ?_
    split <;> rfl
  by_cases hearly : (p.stopOnErr = 1 && n != 0) = true
  · refine ⟨s.fresh + 1, _, hrow.trans (congrArg _ (if_pos hearly)), fun hno => ?_⟩
    obtain ⟨hstop, hn⟩ : p.stopOnErr = 1 ∧ n ≠ 0 := by simpa using hearly
    exact absurd hno (by simp [hstop, hn])
  · exact ⟨s.fresh, TgP.span p, hrow.trans (congrArg _ (if_neg hearly)), fun _ => rfl⟩

theorem runCounted_of_none {p : TgP} (found : Nat) (hnone : ∀ x ∈ s.host.cmds, x.phase = .running → x.body ≠ .tgRun p) : runCounted s p found = s := by
  unfold runCounted
  have : s.runCmd p = none := List.find?_eq_none.mpr (fun x hx => by simpa using hnone x hx)
  rw [this]

/-! ### The bytes that a run writes -/

theorem length_tgBurst (p : TgP) (a : Nat) : (tgBurst p a).length = 256 := by
  unfold tgBurst
  split
  · rw [length_flatMap_of_length (n := 1) _ (fun x => length_leBytes 1 _), List.length_range]
  · rw [List.length_append, length_leBytes, length_leBytes]
  · rw [length_flatMap_of_length (n := 8) _ (fun x => length_leBytes 8 _), List.length_range]

/-- A byte that no burst of a run reaches stays. -/
theorem memRead_tgStep_outside {base : Nat → Nat} {p : TgP} {w : TgWalk} {i a : Nat}
    (hout : a < base (TgP.burstAt p i) ∨ base (TgP.burstAt p i) + 256 ≤ a) : memRead (tgStep base p w i).mem a = memRead w.mem a := by
  unfold tgStep
  split
  · rfl
  · split
    · rfl
    · exact memRead_memWriteBytes_outside _ _ _ _ (by rw [length_tgBurst]; exact hout)

theorem memRead_tgWalk_outside {ch : Nat} {p : TgP} {a : Nat} (n : Nat)
    (hout : ∀ i, a < stackBase f + (s.fld f).stack.place ch (TgP.burstAt p i) ∨ stackBase f + (s.fld f).stack.place ch (TgP.burstAt p i) + 256 ≤ a) :
    memRead (s.tgWalk f ch p n).mem a = memRead s.mem a := by
  unfold State.tgWalk
  exact foldl_rel (R := fun w v : TgWalk => memRead v.mem a = memRead w.mem a) (fun _ => rfl) (fun _ _ _ h k => k.trans h) _
    (fun _ i => memRead_tgStep_outside (hout i)) (List.range n) { mem := s.mem }

/-- The offset of a burst of a channel stays in the stack's window. -/
theorem place_burst_lt {k : Stack} {ch : Nat} {p : TgP} (hbase : p.base % 256 = 0) (hlen : p.len % 256 = 0) (hpos : 0 < p.len) (hend : p.base + p.len ≤ 2 ^ 32)
    (hch : ch ∈ k.good) (hgood : k.good.length ≤ 32) (i : Nat) : k.place ch (TgP.burstAt p i) + 256 ≤ 2 ^ 37 := by
  have hidx : k.good.idxOf ch < k.good.length := List.idxOf_lt_length_iff.mpr hch
  have hmod : i % (p.len / 256) < p.len / 256 := Nat.mod_lt _ (by omega)
  have hin : TgP.burstAt p i + 256 ≤ 2 ^ 32 := by unfold TgP.burstAt; omega
  have halign : TgP.burstAt p i % 256 = 0 := by unfold TgP.burstAt; omega
  unfold Stack.place
  generalize TgP.burstAt p i = b at *
  have hrow : b / 1024 * k.good.length + k.good.idxOf ch + 1 ≤ 2 ^ 27 := by
    have : b / 1024 ≤ 2 ^ 22 - 1 := by omega
    calc b / 1024 * k.good.length + k.good.idxOf ch + 1 ≤ (2 ^ 22 - 1) * k.good.length + k.good.length := by
          have := Nat.mul_le_mul_right k.good.length this
          omega
      _ ≤ 2 ^ 27 := by omega
  omega

end

/-! ### The channel that a run's end leaves -/

theorem tgFail0_endedChan_of_failed {x : Channel} (found : Nat) (at_ : Nat × Nat) (hfail : x.tgFail = true) :
    (endedChan found at_ x).tgFail0 = x.tgFail0 ∧ (endedChan found at_ x).tgFail1 = x.tgFail1 := by
  simp [endedChan, hfail]

theorem tgFail0_endedChan_of_first {x : Channel} {w : TgWalk} {n a b : Nat} {first : Option (Nat × Nat)} (hfail : x.tgFail = false) (hfound : w.errs + n ≠ 0)
    (hab : (if n = 0 then w.first else first) = some (a, b)) :
    (endedChan (w.errs + n) (firstFound w n first) x).tgFail0 = a % 2 ^ 32 ∧ (endedChan (w.errs + n) (firstFound w n first) x).tgFail1 = b % 2 ^ 12 := by
  have hfirst : firstFound w n first = (a, b) := by
    unfold firstFound
    by_cases hn : n = 0
    · rw [if_pos hn] at hab ⊢
      rw [Option.none_or, hab]
      rfl
    · rw [if_neg hn] at hab ⊢
      rw [hab]
      rfl
  have hno : (x.tgFail || decide (w.errs + n = 0)) = false := by rw [hfail, decide_eq_false hfound]; rfl
  unfold endedChan
  dsimp only
  rw [hfirst, hno]
  exact ⟨rfl, rfl⟩

/-! ### A self-test without a failing tile (R515, R546) -/

theorem loss_nil (d : Field) : d.loss [] = { failed := [], lost := [], take := none, spare := false } := by
  have hlost : (d.loss []).lost = [] := by
    refine List.filter_eq_nil_iff.mpr (fun i _ => ?_)
    cases d.serves i <;> simp
  have htake : (d.loss []).take = if d.spareUsed || d.fenced.testBit 16 || (d.loss []).failed.contains 16 then none else (d.loss []).lost.head? := rfl
  have hfailed : (d.loss []).failed = [] := by simp [Field.loss]
  have hspare : (d.loss []).spare = ((d.loss []).failed.contains 16 && !d.spareUsed) := rfl
  rw [hlost] at htake
  rw [hfailed] at hspare
  generalize d.loss [] = x at *
  obtain ⟨failed, lost, take, spare⟩ := x
  obtain rfl : failed = [] := hfailed
  obtain rfl : lost = [] := hlost
  obtain rfl : take = none := htake.trans (ite_self _)
  obtain rfl : spare = false := hspare
  rfl

section
variable {s : State}

theorem testLoss_nil (f : Nat) : s.testLoss f [] = { failed := [], lost := [], take := none, spare := false } := loss_nil _

theorem testField_nil (f : Nat) : s.testField f [] = s.modFld f id := by
  unfold State.testField
  rw [testLoss_nil]
  rfl

theorem selfTest_nil (fs : List Nat) : s.selfTest fs [] = { s with fields := (s.selfTest fs []).fields } ∧ ∀ f, (s.selfTest fs []).fld f = s.fld f := by
  have hstep : (fun (s : State) f => if (s.testLoss f []).unserved.isEmpty then s.testField f [] else (s.testField f []).loseCapacity f) =
      fun s f => s.modFld f id := by
    funext t f
    rw [testLoss_nil, testField_nil]
    rfl
  have hform : s.selfTest fs [] = s.forAll fs (fun s f => s.modFld f id) := by
    rw [← hstep]
    rfl
  rw [hform]
  refine ⟨forAll_keeps (fun t => t = { s with fields := t.fields }) fs _ (fun t f _ ht => by rw [State.modFld, ht]) s rfl, ?_⟩
  refine forAll_keeps (fun t : State => ∀ f, t.fld f = s.fld f) fs _ (fun t k _ ht f => ?_) s (fun _ => rfl)
  rw [modFld_fld]
  split
  · next hf => rw [hf]; exact ht k
  · exact ht f

theorem startSelftest_nil {uid m : Nat} {feed : Feed} (hfailed : feed.failed = []) :
    startSelftest s uid m feed = (s.selfTest (onesBelow 64 m) []).finish uid stDone [0, (onesBelow 64 m).length] := by
  have hbad : ((onesBelow 64 m).map (fun f => (s.testLoss f []).failed.length)).foldl (· + ·) 0 = 0 := by
    simp only [testLoss_nil, List.length_nil]
    induction onesBelow 64 m with
    | nil => rfl
    | cons x xs ih => exact ih
  unfold startSelftest
  dsimp only
  rw [hfailed, hbad]

end

/-! ### The obligation's rows -/

section
variable {s : State}

/-- TG_RUN_DONE of a run that ends, whose command is no longer in hand. -/
theorem exec_tgRunDone_spec {f : Fin 64} {c : Fin 32} {n : Nat} {first : Option (Nat × Nat)} {p : TgP} (hrun : (chanOf s f c).run = some p)
    (hends : s.tgEnds f c p n = true) (hnone : ∀ x ∈ s.host.cmds, x.phase = .running → x.body ≠ .tgRun p) :
    ∃ t k, exec (.tgRunDone f c n first) s = .next t ∧ (p.stopOnErr ≠ 1 ∨ n = 0 → k = TgP.span p) ∧ t.mem = (s.tgWalk f c p k).mem ∧
      t = { s with fields := t.fields, mem := t.mem, fresh := t.fresh } ∧
      ∀ g d, chanOf t g d = if g = f.val ∧ d = c.val then
        endedChan ((s.tgWalk f c p k).errs + n) (firstFound (s.tgWalk f c p k) n first) (chanOf s f c) else chanOf s g d := by
  obtain ⟨fr, k, hrow, hk⟩ := exec_tgRunDone_of_end (first := first) hrun hends
  have hend := tgEnd_of_run (s := { s with fresh := fr }) (f := f.val) (c := c.val) hrun n first k
  have hleft := runCounted_of_none (s := runEnded { s with fresh := fr } f c (s.tgWalk f c p k) n first) ((s.tgWalk f c p k).errs + n) hnone
  refine ⟨_, k, hrow.trans (congrArg _ (hend.trans hleft)), hk, rfl, rfl, fun g d => ?_⟩
  exact chanOf_modChan (s := { s with fresh := fr, mem := (s.tgWalk f c p k).mem }) _ g d

end

/-- Settles O35: the reports are written as one list; test mode and the generator change stacks and channels alone; a run's bursts lie in its own
stack, and a run that is stopped keeps the command that stops it in hand. -/
theorem securityAndDiagnosticCommands : Obligations.SecurityAndDiagnosticCommands := by
  unfold Obligations.SecurityAndDiagnosticCommands
  refine ⟨?attest, ?log, ?idkey, fun s h f hu => ⟨?enter, ?leave⟩, ?zeroise, fun s h p hu hs => ⟨?test, ?noop, ?moving⟩,
    fun s f c n first => ⟨fun hrun => exec_tgRunDone_of_none hrun, fun p hrun hnone => ⟨fun hon => exec_tgRunDone_of_on hrun hon, ?ends⟩⟩,
    ?stop, ?stopNone, ?selftest⟩
  case attest => exact fun s h p hu hs => ⟨_, exec_attest_starts hu hs, completed_hand (r := [448]) hu rfl, rfl, rfl⟩
  case log =>
    intro s h p hu hs
    exact ⟨_, exec_logRead_starts hu hs, rfl, completed_hand (r := [_, _]) hu rfl, fun a ha => memRead_result_outside _ p.buf _ ha,
      fun hinv i e k hcount hroom he hk => memRead_logEntries hinv.2 hcount hroom he hk⟩
  case idkey => exact fun s h p hu hs => ⟨_, exec_idkeyRead_starts hu hs, completed_hand (r := [97]) hu rfl, rfl, rfl⟩
  case enter =>
    exact fun hs => ⟨_, exec_testModeEnter_starts hu hs, completed_hand (r := []) hu rfl, rfl, partOf_of_testMode (starts_bodyChecks hs),
      fun g => modStack_fld (s := hand s h (.testMode f 1)) (fun k => { k with test := true }) g⟩
  case leave => exact fun hs hnone => ⟨_, exec_testModeLeave_starts hu hs hnone, running_hand rfl, rfl,
      fun g => modStack_fld (s := hand s h (.testMode f 0)) (fun k => { k with testZero := some s.host.nextUid }) g⟩
  case zeroise =>
    intro s f u cs ds c hzero hcmds huid hothers hrun hreplayed hdrained
    refine ⟨_, exec_testZeroiseDone_of_waiting hzero, rfl, ⟨c.finish stDone [], ?_, (finish_uid ..).trans huid, ?_, ?_⟩, fun a => memRead_memClear ..,
      fun g => modStack_fld (s := { s with mem := memClear s.mem (stackBase f) (2 ^ 37) }) (fun k => { k with test := false, testZero := none }) g⟩
    · show s.host.cmds.map _ = _
      rw [hcmds]
      exact map_uid_split (fun x => x.finish stDone []) huid hothers
    · simp [OutCmd.finish, hrun, hdrained]
    · simp [OutCmd.finish, hrun, hdrained, hreplayed]
  case test => exact testMode_of_tgRun (starts_bodyChecks hs)
  case noop => exact fun hnoop => ⟨_, exec_tgRun_of_noop hu hs hnoop, completed_at_once (r := []) hu rfl⟩
  case moving =>
    intro hnoop
    have honly := onlyFields_forAll_modChan (s := hand s h (.tgRun p)) (f := p.field) (onesBelow 32 p.chmask) (fun x => { x with run := some p, tgErrs := 0 })
    have hchan := chanOf_forAll_modChan (s := hand s h (.tgRun p)) (f := p.field) (nodup_onesBelow 32 p.chmask) (fun x => { x with run := some p, tgErrs := 0 })
    refine ⟨_, exec_tgRun_of_moving hu hs hnoop, ?_⟩
    generalize State.forAll _ _ _ = X at *
    obtain ⟨F, rfl⟩ : ∃ F, X = { hand s h (.tgRun p) with fields := F } := ⟨_, honly⟩
    refine ⟨?_, rfl, fun f c => (hchan f c).trans ?_⟩
    · exact running_link (c := { runningEntry s h (.tgRun p) with left := (onesBelow 32 p.chmask).length }) (modCmd_link hu rfl rfl _) rfl rfl rfl rfl rfl
    · have hmem : (f = p.field ∧ c ∈ onesBelow 32 p.chmask) ↔ (f = p.field ∧ c < 32 ∧ p.chmask.testBit c = true) := by simp [onesBelow]
      exact if_congr hmem rfl rfl
  case ends =>
    intro hends
    obtain ⟨t, k, hrow, hk, hmem, honly, hchan⟩ := exec_tgRunDone_spec (first := first) hrun hends hnone
    have hself : smapGet ({} : Channel) (t.fld f).stack.chans c = endedChan ((s.tgWalk f c p k).errs + n) (firstFound (s.tgWalk f c p k) n first) (chanOf s f c) :=
      (hchan f c).trans (if_pos ⟨rfl, rfl⟩)
    refine ⟨t, hrow, honly, fun hfull => ?_, fun hbase hlen hpos hfits hch hgood a ha => ?_, ?_, fun g d hne => ?_⟩
    · rw [hmem, hk hfull]
    · rw [hmem]
      refine memRead_tgWalk_outside k (fun i => ?_)
      have hplace := place_burst_lt hbase hlen hpos hfits hch hgood i
      omega
    · dsimp only
      rw [hself]
      refine ⟨rfl, rfl, fun hfull => ?_, fun hfull hfail hfound a b hab => ?_, fun hfail => tgFail0_endedChan_of_failed _ _ hfail, fun hn => ?_⟩
      · rw [← hk hfull]
        exact ⟨rfl, rfl⟩
      · rw [← hk hfull] at hab hfound
        exact tgFail0_endedChan_of_first hfail hfound hab
      · simp [endedChan, hn]
    · exact (hchan g d).trans (if_neg (fun hall => hne (Prod.ext hall.1 hall.2)))
  case stop =>
    intro s h f m hu hs
    have honly := onlyRuns_forAll_tgStop (s := hand s h (.tgStop f m)) (f := f) (onesBelow 32 m)
    have hchan := chanOf_forAll_tgStop (s := hand s h (.tgStop f m)) (f := f) (nodup_onesBelow 32 m)
    have hlast : LastInHand (runningEntry s h (.tgStop f m)) ((hand s h (.tgStop f m)).forAll (onesBelow 32 m) (fun s c => s.tgStop f c)) :=
      forAll_keeps (LastInHand _) _ _ (fun t c _ ht => lastInHand_tgStop (fun p => Body.noConfusion) ht) _ ⟨s.host.cmds, rfl, hu⟩
    refine ⟨_, exec_hand (X := startTgStop (hand s h (.tgStop f m)) s.host.nextUid f m) rfl hs rfl hu rfl, ?_⟩
    unfold startTgStop
    generalize State.forAll _ _ _ = X at *
    obtain ⟨L, hcmds, -⟩ := hlast
    refine ⟨by rw [honly]; rfl, ⟨(runningEntry s h (.tgStop f m)).finish stDone [], ?_, rfl, rfl, rfl, rfl⟩, fun d hd hm => ?_, fun g d hne => ?_⟩
    · show _ ∈ X.host.cmds.map _
      rw [hcmds]
      exact List.mem_map.mpr ⟨runningEntry s h (.tgStop f m), by simp, if_pos (by simp [runningEntry, entryOf, State.newCmd])⟩
    · exact (hchan f d).1 ⟨rfl, by simp [onesBelow, hd, hm]⟩
    · refine (hchan g d).2 (fun hall => ?_)
      have hbit : m.testBit d = true := by simpa using (List.mem_filter.mp hall.2).2
      rcases hne with hg | hm
      · exact hg hall.1
      · exact Bool.false_ne_true (hm.symm.trans hbit)
  case stopNone =>
    intro s h f m hu hs hnone
    have hstay : (hand s h (.tgStop f m)).forAll (onesBelow 32 m) (fun s c => s.tgStop f c) = hand s h (.tgStop f m) :=
      forAll_tgStop_of_none _ (fun d hd => by
        obtain ⟨hrange, hbit⟩ := List.mem_filter.mp hd
        exact hnone d (List.mem_range.mp hrange) hbit)
    exact ⟨_, exec_hand rfl hs rfl hu (congrArg (fun t : State => t.finish s.host.nextUid stDone []) hstay), completed_at_once (r := []) hu rfl⟩
  case selftest =>
    intro s h m feed hu hs hfailed
    obtain ⟨honly, hfld⟩ := selfTest_nil (s := hand s h (.selftest m)) (onesBelow 64 m)
    refine ⟨_, exec_hand (feed := feed) rfl hs rfl hu (startSelftest_nil hfailed), ?_⟩
    generalize (hand s h (.selftest m)).selfTest (onesBelow 64 m) [] = X at *
    obtain ⟨F, rfl⟩ : ∃ F, X = { hand s h (.selftest m) with fields := F } := ⟨_, honly⟩
    exact ⟨completed_hand (r := [_, _]) hu rfl, rfl, hfld⟩

end Sys2Proof.Proofs
end

section
/-! PROOFS. Doorbells, the setup of queue 0, and the posting of completions. -/

namespace Sys2Proof.Proofs

open Sys2Proof.Machine Sys2Proof.Laws

/-! ### Rings and queues read after a change -/

section
variable {s : State}

/-- Completion ring `c`. -/
def cringOf (s : State) (c : Nat) : CRing := smapGet ({} : CRing) s.host.crings c

/-- Event ring `e`. -/
def eringOf (s : State) (e : Nat) : ERing := smapGet ({} : ERing) s.host.erings e

theorem cringOf_modCring (c : Nat) (g : CRing → CRing) (k : Nat) : cringOf (s.modCring c g) k = if k = c then g (cringOf s c) else cringOf s k :=
  smapGet_smapModify ({} : CRing) s.host.crings c k g

theorem modCring_cmdQueue (c : Nat) (g : CRing → CRing) (k : Nat) : (s.modCring c g).cmdQueue k = s.cmdQueue k := rfl

theorem eringOf_modEring (e : Nat) (g : ERing → ERing) (k : Nat) : eringOf (s.modEring e g) k = if k = e then g (eringOf s e) else eringOf s k :=
  smapGet_smapModify ({} : ERing) s.host.erings e k g

/-! ### Doorbells (R479, R494, R495, R530) -/

theorem ringAhead_self (log : Nat) : ringAhead log 0 0 = 0 := by simp [ringAhead]

/-- The first tail of queue 0 after its setup. -/
theorem doorbell_of_empty {q : CmdQueue} {tail : Nat} (he : q.enabled = true) (hhead : q.head = 0) (htail : q.tail = 0) (ht : tail < 2 ^ q.log) :
    q.doorbell tail = { q with tail := tail } := by
  unfold CmdQueue.doorbell
  refine if_neg ?_
  rw [he, hhead, htail, ringAhead_self]
  simp [Nat.not_le.mpr ht]

theorem exec_sqDoorbell_of_setup {view : Fin 17} {v : Word} (hview : s.viewHolds view 0x10200 = true) (hbound : (s.cmdQueue 0).view ≠ 17)
    (hoff : (s.cmdQueue 0).enabled = false) : exec (.sqDoorbell view 0 v) s = .next (s.enableQ0.modQueue 0 (fun x => x.doorbell (v.toNat % 65536))) := by
  show execSqDoorbell view 0 v s = _
  unfold execSqDoorbell
  dsimp only
  refine (if_neg ?_).trans ?_
  · rw [show s.viewHolds view (0x10200 + 4 * ((0 : Fin 64) : Nat)) = true from hview]
    simpa using hbound
  · rw [show (s.cmdQueue ((0 : Fin 64) : Nat)).enabled = false from hoff]
    rfl

theorem exec_cqDoorbell_of_held {view : Fin 17} {c : Fin 64} {v : Word} (hview : s.viewHolds view (0x10300 + 4 * c) = true) :
    exec (.cqDoorbell view c v) s = .next (s.modCring c (fun r => r.doorbell (v.toNat % 65536))) := if_pos hview

theorem doorbell_cring (r : CRing) (head : Nat) : r.doorbell head =
    if r.enabled = true ∧ head < 2 ^ r.log ∧ ringAhead r.log r.head head ≤ r.used then { r with head := head, used := r.used - ringAhead r.log r.head head }
    else { r with dbErr := true } := by
  unfold CRing.doorbell
  by_cases hok : r.enabled = true ∧ head < 2 ^ r.log ∧ ringAhead r.log r.head head ≤ r.used
  · rw [if_pos hok]
    obtain ⟨he, hlog, hused⟩ := hok
    exact if_neg (by simp [he, hlog, hused])
  · rw [if_neg hok]
    refine if_pos ?_
    cases he : r.enabled <;> simp_all
    omega

/-- The event ring that a doorbell leaves. -/
theorem doorbell_ering_of_invalid {r : ERing} {head : Nat} (h : r.enabled = false ∨ 2 ^ r.log ≤ head ∨ r.used < ringAhead r.log r.head head) :
    r.doorbell head = r := by
  unfold ERing.doorbell
  refine if_pos ?_
  rcases h with h | h | h <;> simp [h]

theorem doorbell_ering_of_valid {r : ERing} {head : Nat} (he : r.enabled = true) (hlog : head < 2 ^ r.log) (hused : ringAhead r.log r.head head ≤ r.used) :
    r.doorbell head = { r with head := head, used := r.used - ringAhead r.log r.head head } :=
  if_neg (by simp [he, hlog, hused])

theorem fresh_doorbell_ering (r : ERing) (head : Nat) : (r.doorbell head).fresh = r.fresh := by
  unfold ERing.doorbell
  dsimp only
  split <;> rfl

section
variable {view e : Fin 17} {v : Word} (hview : s.viewHolds view (0x10500 + 4 * e) = true)
include hview

theorem exec_eqDoorbell_of_kept (hfresh : (eringOf s e).fresh = 0) :
    exec (.eqDoorbell view e v) s = .next (s.modEring e (fun r => r.doorbell (v.toNat % 65536))) := by
  have hleft : smapGet ({} : ERing) (s.modEring e (fun r => r.doorbell (v.toNat % 65536))).host.erings e = (eringOf s e).doorbell (v.toNat % 65536) :=
    (eringOf_modEring ..).trans (if_pos rfl)
  show execEqDoorbell view e v s = _
  unfold execEqDoorbell
  refine (if_neg (by rw [hview]; exact Bool.false_ne_true)).trans ?_
  dsimp only
  rw [hleft]
  exact if_neg (by simp [fresh_doorbell_ering, hfresh])

/-- The ring that has room again takes the OVERFLOW record first (R488). -/
theorem exec_eqDoorbell_of_dropped (he : (eringOf s e).enabled = true) (hstop : (eringOf s e).stopped = false) (hfresh : (eringOf s e).fresh ≠ 0)
    (hroom : ((eringOf s e).doorbell (v.toNat % 65536)).used < 2 ^ (eringOf s e).log) :
    exec (.eqDoorbell view e v) s = .next (((s.modEring e (fun r => r.doorbell (v.toNat % 65536))).eventWrite e 13 1 e 0 (leBytes 4 (eringOf s e).fresh)).modEring e
      (fun x => { x with fresh := 0 })) := by
  have hleft : smapGet ({} : ERing) (s.modEring e (fun r => r.doorbell (v.toNat % 65536))).host.erings e = (eringOf s e).doorbell (v.toNat % 65536) :=
    (eringOf_modEring ..).trans (if_pos rfl)
  have hkeep : ∀ (r : ERing) head, (r.doorbell head).enabled = r.enabled ∧ (r.doorbell head).stopped = r.stopped ∧ (r.doorbell head).log = r.log := by
    intro r head
    unfold ERing.doorbell
    dsimp only
    split <;> exact ⟨rfl, rfl, rfl⟩
  obtain ⟨hen, hst, hlog⟩ := hkeep (eringOf s e) (v.toNat % 65536)
  show execEqDoorbell view e v s = _
  unfold execEqDoorbell
  refine (if_neg (by rw [hview]; exact Bool.false_ne_true)).trans ?_
  dsimp only
  rw [hleft, fresh_doorbell_ering]
  exact if_pos (by simp [hen, hst, hlog, he, hstop, hfresh, hroom])

end

theorem erings_post (x : Posting) : (s.post x).host.erings = s.host.erings := by
  rcases post_cases s x with ⟨-, h⟩ | ⟨-, h⟩ <;> rw [h] <;> rfl

theorem eringOf_post (x : Posting) (k : Nat) : eringOf (s.post x) k = eringOf s k := by
  unfold eringOf
  rw [erings_post]

theorem hostMem_tell (cls : ReiloClass) (m : OutMsg) : (s.tell cls m).hostMem = s.hostMem := by
  unfold State.tell
  rcases post_cases s { cls := cls, msg := some m } with ⟨-, h⟩ | ⟨-, h⟩ <;> rw [h] <;> rfl

theorem hostMem_store (cls : ReiloClass) (a : Nat) (bytes : List Byte) :
    (s.store cls a bytes).hostMem = if s.host.state = 2 then memWriteBytes s.hostMem a bytes else s.hostMem := by
  unfold State.store
  rcases post_cases s { cls := cls, data := some (a, bytes) } with ⟨hup, h⟩ | ⟨hdown, h⟩
  · rw [h, if_pos hup]; rfl
  · rw [h, if_neg hdown]; rfl

theorem modEring_congr {e : Nat} {g k : ERing → ERing} (h : g (eringOf s e) = k (eringOf s e)) : s.modEring e g = s.modEring e k := by
  have hmap : smapModify {} s.host.erings e g = smapModify {} s.host.erings e k := congrArg (smapSet s.host.erings e) h
  exact congrArg (fun m => ({ s with host := { s.host with erings := m } } : State)) hmap

/-- The event ring once a record has been written. -/
def ringWritten (r : ERing) : ERing :=
  { r with idx := if r.idx + 1 == 2 ^ r.log then 0 else r.idx + 1, used := r.used + 1, phase := if r.idx + 1 == 2 ^ r.log then !r.phase else r.phase }

/-- What the write of an event's record does. -/
theorem eventWrite_spec (e : Nat) (cls code part unit : Nat) (payload : List Byte) :
    (s.eventWrite e cls code part unit payload).hostMem = (if s.host.state = 2 then
        memWriteBytes s.hostMem ((eringOf s e).base + 64 * (eringOf s e).idx) (s.eventRec cls code part unit (eringOf s e).phase payload) else s.hostMem) ∧
      ∀ k, eringOf (s.eventWrite e cls code part unit payload) k = if k = e then ringWritten (eringOf s e) else eringOf s k := by
  have hform : ∃ s1, (s1 = s.store .ring ((eringOf s e).base + 64 * (eringOf s e).idx) (s.eventRec cls code part unit (eringOf s e).phase payload)) ∧
      (s.eventWrite e cls code part unit payload = (s1.modEring e ringWritten).tell .ring (.irq (eringOf s e).vec) ∨
        s.eventWrite e cls code part unit payload = s1.modEring e ringWritten) := by
    refine ⟨_, rfl, ?_⟩
    have hring : eringOf (s.store .ring ((eringOf s e).base + 64 * (eringOf s e).idx) (s.eventRec cls code part unit (eringOf s e).phase payload)) e = eringOf s e :=
      eringOf_post ..
    unfold State.eventWrite
    dsimp only
    rw [show smapGet ({} : ERing) s.host.erings e = eringOf s e from rfl]
    rw [modEring_congr (k := ringWritten) (by rw [hring]; rfl)]
    split
    · exact .inl rfl
    · exact .inr rfl
  obtain ⟨s1, hs1, hform⟩ := hform
  have hmem : s1.hostMem = if s.host.state = 2 then
      memWriteBytes s.hostMem ((eringOf s e).base + 64 * (eringOf s e).idx) (s.eventRec cls code part unit (eringOf s e).phase payload) else s.hostMem := by
    rw [hs1, hostMem_store]
  have hring : ∀ k, eringOf s1 k = eringOf s k := fun k => by rw [hs1]; exact eringOf_post ..
  have hleft : ∀ k, eringOf (s1.modEring e ringWritten) k = if k = e then ringWritten (eringOf s e) else eringOf s k := fun k => by
    rw [eringOf_modEring, hring, hring]
  rcases hform with hform | hform <;> rw [hform]
  · exact ⟨(hostMem_tell ..).trans hmem, fun k => (eringOf_post ..).trans (hleft k)⟩
  · exact ⟨hmem, hleft⟩

/-- A doorbell of an event ring reaches no other. -/
theorem exec_eqDoorbell_others {view e : Fin 17} {v : Word} (hview : s.viewHolds view (0x10500 + 4 * e) = true) :
    ∃ t, exec (.eqDoorbell view e v) s = .next t ∧ ∀ x, x ≠ e.val → eringOf t x = eringOf s x := by
  have hrow : ∃ t, exec (.eqDoorbell view e v) s = .next t ∧ (t = s.modEring e (fun r => r.doorbell (v.toNat % 65536)) ∨ ∃ payload,
      t = ((s.modEring e (fun r => r.doorbell (v.toNat % 65536))).eventWrite e 13 1 e 0 payload).modEring e (fun x => { x with fresh := 0 })) := by
    show ∃ t, execEqDoorbell view e v s = .next t ∧ _
    unfold execEqDoorbell
    rw [hview]
    dsimp only
    by_cases hdropped : ((smapGet ({} : ERing) (s.modEring e (fun r => r.doorbell (v.toNat % 65536))).host.erings e).enabled &&
        !(smapGet ({} : ERing) (s.modEring e (fun r => r.doorbell (v.toNat % 65536))).host.erings e).stopped &&
        (smapGet ({} : ERing) (s.modEring e (fun r => r.doorbell (v.toNat % 65536))).host.erings e).fresh != 0 &&
        decide ((smapGet ({} : ERing) (s.modEring e (fun r => r.doorbell (v.toNat % 65536))).host.erings e).used <
          2 ^ (smapGet ({} : ERing) (s.modEring e (fun r => r.doorbell (v.toNat % 65536))).host.erings e).log)) = true
    · exact ⟨_, if_pos hdropped, .inr ⟨_, rfl⟩⟩
    · exact ⟨_, if_neg hdropped, .inl rfl⟩
  obtain ⟨t, ht, hform⟩ := hrow
  refine ⟨t, ht, fun x hx => ?_⟩
  have hone : eringOf (s.modEring e (fun r => r.doorbell (v.toNat % 65536))) x = eringOf s x := (eringOf_modEring ..).trans (if_neg hx)
  rcases hform with rfl | ⟨payload, rfl⟩
  · exact hone
  · rw [eringOf_modEring, if_neg hx, (eventWrite_spec ..).2 x, if_neg hx, hone]

/-! ### The setup of queue 0 (R494) -/

theorem exec_q0SetupWrite_of_refused {view : Fin 17} {reg : Fin 5} {v : Word} (hview : s.viewHolds view (0x10010 + 4 * reg) = true)
    (href : s.queueBusy 0 = true ∨ setupLegal reg v = false) :
    exec (.q0SetupWrite view reg v) s = .next (s.modQueue 0 (fun q => { q with dbErr := true })) := by
  refine (if_neg (by rw [hview]; exact Bool.false_ne_true)).trans (if_pos ?_)
  rcases href with h | h <;> simp [h]

theorem exec_q0SetupWrite_of_legal {view : Fin 17} {reg : Fin 5} {v : Word} (hview : s.viewHolds view (0x10010 + 4 * reg) = true)
    (hbusy : s.queueBusy 0 = false) (hlegal : setupLegal reg v = true) :
    exec (.q0SetupWrite view reg v) s = .next (((s.modHost (fun h => h.setup reg v)).modQueue 0 (fun q => { q with enabled := false })).modCring 0
      (fun r => { r with enabled := false })) :=
  (if_neg (by rw [hview]; exact Bool.false_ne_true)).trans (if_neg (by simp [hbusy, hlegal]))

/-- The setup registers are beside the queues and the rings. -/
theorem setup_keeps (hl : HostLink) (reg : Nat) (v : Word) : (hl.setup reg v).queues = hl.queues ∧ (hl.setup reg v).crings = hl.crings := by
  unfold HostLink.setup
  split <;> exact ⟨rfl, rfl⟩

/-! ### COMPLETION_POST (R424, R485, R486) -/

theorem length_entry (c : OutCmd) (phase : Bool) : (c.entry phase).length = 32 := by
  simp [OutCmd.entry, length_leBytes]

theorem posted_eq (r : CRing) : r.posted = { r with
    post := if r.post + 1 = 2 ^ r.log then 0 else r.post + 1, used := r.used + 1, phase := if r.post + 1 = 2 ^ r.log then !r.phase else r.phase } := by
  unfold CRing.posted
  simp only [beq_iff_eq]

theorem postOne_of_ready {q : Fin 64} {c : OutCmd} (hc : s.host.cmds.find? (fun c => c.hdr.queue == q && !c.posted) = some c) (hdone : c.phase = .done)
    (hup : s.host.state = 2) (he : (cringOf s (s.cmdQueue q).cq).enabled = true) (hstop : (cringOf s (s.cmdQueue q).cq).stopped = false)
    (hroom : (cringOf s (s.cmdQueue q).cq).used < 2 ^ (cringOf s (s.cmdQueue q).cq).log) (hslot : c.slot = true ∨ s.ringFree q = true)
    (hkeep : s.keepsPosted c = false) :
    s.postOne q = { s with
      host := { s.host with crings := smapModify {} s.host.crings (s.cmdQueue q).cq CRing.posted, cmds := s.host.cmds.filter (fun x => x.uid != c.uid) }
      hostMem := memWriteBytes s.hostMem ((cringOf s (s.cmdQueue q).cq).base + 32 * (cringOf s (s.cmdQueue q).cq).post) (c.entry (cringOf s (s.cmdQueue q).cq).phase)
      outbox := s.outbox ++ if c.hdr.irq then [.irq (cringOf s (s.cmdQueue q).cq).vec] else [] } := by
  unfold State.postOne
  dsimp only
  rw [hc, show smapGet ({} : CRing) s.host.crings (s.cmdQueue q).cq = cringOf s (s.cmdQueue q).cq from rfl]
  dsimp only
  have hready : ¬ (c.phase != .done || s.host.state != 2 || !(cringOf s (s.cmdQueue q).cq).enabled || (cringOf s (s.cmdQueue q).cq).stopped ||
      decide (2 ^ (cringOf s (s.cmdQueue q).cq).log ≤ (cringOf s (s.cmdQueue q).cq).used) || !(c.slot || s.ringFree q)) = true := by
    have hentry : (c.slot || s.ringFree q) = true := by simpa using hslot
    simp [hdone, hup, he, hstop, hentry, hroom]
  refine (if_neg hready).trans ?_
  have hmark : ∀ t : State, t.bcn = s.bcn → t.parts = s.parts → t.markPosted c = t.modHost (fun h => { h with cmds := h.cmds.filter (fun x => x.uid != c.uid) }) := by
    intro t hb hp
    have : t.keepsPosted c = s.keepsPosted c := by
      unfold State.keepsPosted State.trainPart State.part
      rw [hb, hp]
    exact if_neg (by rw [this, hkeep]; exact Bool.false_ne_true)
  generalize memWriteBytes s.hostMem _ _ = m
  rw [hmark (State.modCring { s with hostMem := m } (s.cmdQueue q).cq CRing.posted) rfl rfl]
  split
  · rfl
  · rw [List.append_nil]
    rfl

theorem exec_completionPost (q : Fin 64) : exec (.completionPost q) s = .next (s.postOne q) := rfl

theorem postOne_of_unready {q : Fin 64} (hnone : ∀ c, s.host.cmds.find? (fun c => c.hdr.queue == q && !c.posted) = some c → c.phase ≠ .done) :
    s.postOne q = s := by
  unfold State.postOne
  dsimp only
  cases hc : s.host.cmds.find? (fun c => c.hdr.queue == q && !c.posted) with
  | none => rfl
  | some c => exact if_pos (by simp [hnone c hc])

end

/-- Settles O38: each doorbell changes one ring; the record of dropped events, and a completion, are written where the ring stands, and move it on. -/
theorem ringRowsMoveTheRings : Obligations.RingRowsMoveTheRings := by
  unfold Obligations.RingRowsMoveTheRings
  refine ⟨?first, ?cq, ?eq, fun s view reg v hview => ⟨fun href => ?refused, fun hbusy hlegal => ?setup⟩, ?post, ?idle⟩
  case first =>
    intro s view v hview hbound hoff htail
    have hqueue : ∀ x, s.enableQ0.cmdQueue x = if x = 0 then { s.cmdQueue 0 with
        base := s.host.q0Base, log := s.host.qlog, cq := 0, head := 0, tail := 0, enabled := true, stopped := false, seq := 0 } else s.cmdQueue x :=
      fun x => by unfold State.enableQ0; exact (modCring_cmdQueue ..).trans (modQueue_cmdQueue ..)
    have hring : ∀ x, cringOf s.enableQ0 x = if x = 0 then { cringOf s 0 with
        base := s.host.c0Base, log := s.host.clog, vec := 1, post := 0, head := 0, used := 0, phase := true, enabled := true, stopped := false }
        else cringOf s x := fun x => cringOf_modCring ..
    refine ⟨_, exec_sqDoorbell_of_setup hview hbound hoff, rfl, ?_, ?_, fun x hx => ⟨?_, ?_⟩⟩
    · rw [modQueue_cmdQueue, if_pos rfl, hqueue, if_pos rfl]
      exact doorbell_of_empty rfl rfl rfl htail
    · dsimp only
      rw [show smapGet ({} : CRing) (s.enableQ0.modQueue 0 _).host.crings 0 = _ from (hring 0).trans (if_pos rfl)]
      exact ⟨rfl, rfl, rfl, rfl, rfl, rfl, rfl, rfl⟩
    · rw [modQueue_cmdQueue, if_neg hx, hqueue, if_neg hx]
    · exact (hring x).trans (if_neg hx)
  case cq =>
    intro s view c v hview
    refine ⟨_, exec_cqDoorbell_of_held hview, rfl, ?_, fun x hx => (cringOf_modCring ..).trans (if_neg hx)⟩
    exact ((cringOf_modCring ..).trans (if_pos rfl)).trans (doorbell_cring ..)
  case eq =>
    intro s view e v hview
    dsimp only
    rw [show smapGet ({} : ERing) s.host.erings e = eringOf s e from rfl]
    by_cases hfresh : (eringOf s e).fresh = 0
    · refine ⟨_, exec_eqDoorbell_of_kept hview hfresh, fun hbad _ => ⟨rfl, ?_⟩, fun he hlog hused _ => ⟨rfl, ?_⟩,
        fun _ _ _ _ _ hdropped => absurd hfresh hdropped, fun x hx => (eringOf_modEring ..).trans (if_neg hx)⟩
      · exact ((eringOf_modEring ..).trans (if_pos rfl)).trans (doorbell_ering_of_invalid hbad)
      · exact ((eringOf_modEring ..).trans (if_pos rfl)).trans (doorbell_ering_of_valid he hlog hused)
    · by_cases hvalid : (eringOf s e).enabled = true ∧ v.toNat % 65536 < 2 ^ (eringOf s e).log ∧
          0 < ringAhead (eringOf s e).log (eringOf s e).head (v.toNat % 65536) ∧
          ringAhead (eringOf s e).log (eringOf s e).head (v.toNat % 65536) ≤ (eringOf s e).used ∧
          (eringOf s e).used ≤ 2 ^ (eringOf s e).log ∧ (eringOf s e).stopped = false
      · obtain ⟨he, hlog, hpos, hused, hfull, hstop⟩ := hvalid
        have hbell := doorbell_ering_of_valid he hlog hused
        have hone : eringOf (s.modEring e (fun r => r.doorbell (v.toNat % 65536))) e = (eringOf s e).doorbell (v.toNat % 65536) :=
          (eringOf_modEring ..).trans (if_pos rfl)
        obtain ⟨hmem, hrings⟩ := eventWrite_spec (s := s.modEring e (fun r => r.doorbell (v.toNat % 65536))) e.val 13 1 e.val 0 (leBytes 4 (eringOf s e).fresh)
        have honly := (onlyEvents_eventWrite (s.modEring e (fun r => r.doorbell (v.toNat % 65536))) e 13 1 e 0 (leBytes 4 (eringOf s e).fresh)).1
        have hrow := exec_eqDoorbell_of_dropped (v := v) hview he hstop hfresh (by rw [hbell]; dsimp only; omega)
        have hothers : ∀ x, x ≠ e.val → eringOf (s.modEring e (fun r => r.doorbell (v.toNat % 65536))) x = eringOf s x :=
          fun x hx => (eringOf_modEring ..).trans (if_neg hx)
        rw [hone, hbell] at hmem hrings
        generalize State.eventWrite _ _ _ _ _ _ _ = W at *
        obtain ⟨E, H, M, B, rfl⟩ : ∃ E H M B, W = { s with host := { s.host with erings := E, held := H }, hostMem := M, outbox := B } := ⟨_, _, _, _, honly⟩
        have hself : eringOf (State.modEring { s with host := { s.host with erings := E, held := H }, hostMem := M, outbox := B } e (fun x => { x with fresh := 0 })) e =
            _ := (eringOf_modEring ..).trans ((if_pos rfl).trans (congrArg (fun x : ERing => { x with fresh := 0 }) ((hrings e).trans (if_pos rfl))))
        refine ⟨_, hrow, fun _ h => absurd h hfresh, fun _ _ _ h => absurd h hfresh, fun _ _ _ _ _ _ _ => ⟨rfl, hmem, ?_, ?_⟩, fun x hx => ?_⟩
        · exact congrArg ERing.fresh hself
        · exact congrArg ERing.used hself
        · exact ((eringOf_modEring ..).trans (if_neg hx)).trans (((hrings x).trans (if_neg hx)).trans (hothers x hx))
      · obtain ⟨t, ht, hothers⟩ := exec_eqDoorbell_others (v := v) hview
        exact ⟨t, ht, fun _ h => absurd h hfresh, fun _ _ _ h => absurd h hfresh,
          fun he hlog hpos hused hfull _ hstop => absurd ⟨he, hlog, hpos, hused, hfull, hstop⟩ hvalid, hothers⟩
  case refused =>
    exact ⟨_, exec_q0SetupWrite_of_refused hview href, rfl, (modQueue_cmdQueue ..).trans (if_pos rfl), fun x hx => (modQueue_cmdQueue ..).trans (if_neg hx)⟩
  case setup =>
    obtain ⟨hqueues, hcrings⟩ := setup_keeps s.host reg v
    have hqueue : ∀ x, (s.modHost (fun h => h.setup reg v)).cmdQueue x = s.cmdQueue x := fun x => congrArg (fun m => smapGet ({} : CmdQueue) m x) hqueues
    have hring : ∀ x, cringOf ((s.modHost (fun h => h.setup reg v)).modQueue 0 (fun q => { q with enabled := false })) x = cringOf s x :=
      fun x => congrArg (fun m => smapGet ({} : CRing) m x) hcrings
    refine ⟨_, exec_q0SetupWrite_of_legal hview hbusy hlegal, rfl, ?_, ?_, fun x hx => ⟨?_, ?_⟩⟩
    · rw [modCring_cmdQueue, modQueue_cmdQueue, if_pos rfl, hqueue]
    · refine ((cringOf_modCring ..).trans (if_pos rfl)).trans ?_
      rw [hring]
      rfl
    · rw [modCring_cmdQueue, modQueue_cmdQueue, if_neg hx, hqueue]
    · exact ((cringOf_modCring ..).trans (if_neg hx)).trans (hring x)
  case post =>
    intro s q c hc hdone hup
    dsimp only
    rw [show smapGet ({} : CRing) s.host.crings (s.cmdQueue q).cq = cringOf s (s.cmdQueue q).cq from rfl]
    intro he hstop hroom hslot hkeep
    have hpost := postOne_of_ready hc hdone hup he hstop hroom hslot hkeep
    refine ⟨s.postOne q, exec_completionPost q, ?_⟩
    rw [hpost]
    have hlen := length_entry c (cringOf s (s.cmdQueue q).cq).phase
    generalize memWriteBytes s.hostMem _ _ = m
    refine ⟨rfl, rfl, hlen, rfl, rfl, ?_, fun x hx => ?_⟩
    · exact (smapGet_smapModify ({} : CRing) s.host.crings (s.cmdQueue q).cq (s.cmdQueue q).cq CRing.posted).trans ((if_pos rfl).trans (posted_eq _))
    · exact (smapGet_smapModify ({} : CRing) s.host.crings (s.cmdQueue q).cq x CRing.posted).trans (if_neg hx)
  case idle => exact fun s q hnone => (exec_completionPost q).trans (congrArg Host.Outcome.next (postOne_of_unready hnone))

end Sys2Proof.Proofs
end

section
/-! PROOFS. Register rows that act on the state. -/

namespace Sys2Proof.Proofs

open Sys2Proof.Machine Sys2Proof.Laws

/-! ### Sticky bits (R166, R172) -/

theorem getLsbD_w1c (r v : Word) (n : Nat) {i : Nat} (hi : i < 32) :
    (w1c r v (BitVec.ofNat 32 (2 ^ n - 1))).getLsbD i = (r.getLsbD i && !(v.getLsbD i && decide (i < n))) := by
  have hmask : (BitVec.ofNat 32 (2 ^ n - 1)).getLsbD i = decide (i < n) := by
    rw [BitVec.getLsbD_ofNat, Nat.testBit_two_pow_sub_one]
    simp [hi]
  unfold w1c
  rw [BitVec.getLsbD_and, BitVec.getLsbD_not, BitVec.getLsbD_and, hmask]
  simp [hi]

section
variable {s : State} {view : Fin 17} {v : Word}

theorem exec_fflRearm_tile {n : Fin 1024} (hview : s.viewHolds view (tileOffset n 0x000) = true) :
    exec (.fflRearm view (.tile n) v) s = .next (s.modTile n (fun x => { x with meter := x.meter.clearBits v })) := if_pos hview

theorem exec_fflRearm_field {f : Fin 64} (hview : s.viewHolds view (fieldOffset f 0x0004) = true) :
    exec (.fflRearm view (.field f) v) s = .next (s.modMeter f (fun m => m.clearBits v)) := if_pos hview

theorem exec_registerWrite_of_block {o : Nat} (hview : s.viewHolds view o = true) (ho : o < 0x100000) :
    exec (.registerWrite view o v) s = .next (s.blockWrite view (o / 0x10000) (o % 0x10000) v) :=
  (if_neg (by rw [hview]; exact Bool.false_ne_true)).trans (if_pos ho)

theorem exec_clrViol_of_held (hview : s.viewHolds view 0x03C = true) :
    exec (.clrViol view v) s = .next (if v.getLsbD 0 = true then { s with mods := { s.mods with violCount := 0 } } else s) := by
  show execClrViol view v s = _
  unfold execClrViol
  rw [hview, Bool.true_and]
  exact (apply_ite Host.Outcome.next _ _ _).symm

theorem exec_bcnPosRead_of_held (hview : s.viewHolds view 0x20000 = true) :
    exec (.bcnPosRead view) s = .next (State.tell { s with bcn := { s.bcn with
      posHi := BitVec.ofNat 32 (s.bcn.step / 2 ^ 32 + s.bcn.phase * 2 ^ 16) } } .register (.regRead view 0x20000 (s.readReg view 0x20000))) := by
  have hpack : packBits [(0, s.bcn.step / 2 ^ 32), (16, s.bcn.phase)] = s.bcn.step / 2 ^ 32 + s.bcn.phase * 2 ^ 16 := by simp [packBits]
  exact (if_pos hview).trans (congrArg (fun x => Host.Outcome.next (State.tell { s with bcn := { s.bcn with posHi := BitVec.ofNat 32 x } } .register
    (.regRead view 0x20000 (s.readReg view 0x20000)))) hpack)

end

/-- What a re-arm leaves of a meter's status and locator. -/
theorem clearBits_spec (m : Meter) (v : Word) :
    (∀ i, i < 32 → (m.clearBits v).status.getLsbD i = (m.status.getLsbD i && !(v.getLsbD i && decide (i < 9)))) ∧
      (m.clearBits v).ffl = (if v.getLsbD bitFfl = true ∧ m.status.getLsbD bitFfl = true then {} else m.ffl) := by
  refine ⟨fun i hi => getLsbD_w1c m.status v 9 hi, ?_⟩
  refine if_congr ?_ rfl rfl
  rw [Bool.and_eq_true]
  rfl

/-- Settles O41: each row goes to one register, whose bits are cleared where the value is one; a register without behaviour of its own ignores the write. -/
theorem registerRowsThatActOnState : Obligations.RegisterRowsThatActOnState := by
  unfold Obligations.RegisterRowsThatActOnState
  refine ⟨?tile, ?field, fun s view v hview => exec_clrViol_of_held hview, fun s view hview => exec_bcnPosRead_of_held hview, ?fault, ?flowErr, ?seed, ?readOnly⟩
  case tile =>
    intro s view n v hview
    obtain ⟨hstatus, hffl⟩ := clearBits_spec (s.tile n).meter v
    have htile : ∀ k, (s.modTile n (fun x => { x with meter := x.meter.clearBits v })).tile k =
        if k = n.val then { s.tile n with meter := (s.tile n).meter.clearBits v } else s.tile k := fun k => setTile_tile ..
    refine ⟨_, exec_fflRearm_tile hview, rfl, fun k hk => (htile k).trans (if_neg hk), ?_, ?_, ?_, ?_⟩ <;> rw [htile, if_pos rfl]
    · exact hstatus
    · exact hffl
    · rfl
  case field =>
    intro s view f v hview
    obtain ⟨hstatus, hffl⟩ := clearBits_spec (s.fld f).meter v
    have hfld : ∀ k, (s.modMeter f (fun m => m.clearBits v)).fld k =
        if k = f.val then { s.fld f with meter := { (s.fld f).meter.clearBits v with due := [] } } else s.fld k := fun k => modFld_fld ..
    refine ⟨_, exec_fflRearm_field hview, rfl, fun k hk => (hfld k).trans (if_neg hk), ?_, ?_, ?_⟩ <;> rw [hfld, if_pos rfl]
    · exact hstatus
    · exact hffl
  case fault =>
    intro s view v hview
    exact ⟨_, exec_registerWrite_of_block hview (by decide), rfl, fun i hi => getLsbD_w1c s.mods.fault v 7 hi⟩
  case flowErr =>
    intro s view v hview
    exact ⟨_, exec_registerWrite_of_block hview (by decide), rfl⟩
  case seed =>
    intro s view n v hview hserved
    have hn := n.isLt
    have hblock : (tileOffset n 0x008 - 0x800000) / 0x1000 = n.val := by unfold tileOffset; omega
    have hoff : tileOffset n 0x008 % 0x1000 = 0x008 := by unfold tileOffset; omega
    have hrow : exec (.registerWrite view (tileOffset n 0x008) v) s = .next (s.modTile n (fun x => x.regWrite 0x008 v)) := by
      have hlow : ¬ tileOffset n 0x008 < 0x100000 := by unfold tileOffset; omega
      have hfield : (decide (0x400000 ≤ tileOffset n 0x008) && decide (tileOffset n 0x008 < 0x800000)) = false := by
        rw [decide_eq_false (show ¬ tileOffset n 0x008 < 0x800000 by unfold tileOffset; omega), Bool.and_false]
      have htile : (decide (0x800000 ≤ tileOffset n 0x008) && decide (tileOffset n 0x008 < 0xC00000)) = true := by
        rw [decide_eq_true (show 0x800000 ≤ tileOffset n 0x008 by unfold tileOffset; omega),
          decide_eq_true (show tileOffset n 0x008 < 0xC00000 by unfold tileOffset; omega), Bool.and_true]
      show execRegisterWrite view _ v s = _
      unfold execRegisterWrite
      dsimp only
      rw [hview, hfield, htile, hblock, hoff, hserved]
      exact (if_neg Bool.false_ne_true).trans ((if_neg hlow).trans rfl)
    exact ⟨_, hrow, rfl, fun k => setTile_tile ..⟩
  case readOnly =>
    intro s view v
    by_cases hview : s.viewHolds view 0x000 = true
    · exact exec_registerWrite_of_block hview (by decide)
    · exact exec_registerWrite_of_not_held v (by simpa using hview)

end Sys2Proof.Proofs
end

section
/-! PROOFS. Check-value units: data writes, the end of a feed, result reads, the order of a message's bits. -/

namespace Sys2Proof.Proofs

open Sys2Proof.Machine Sys2Proof.Laws

/-! ### Data writes (R557, R558) -/

theorem chkWrite_of_held {s : State} {view : Fin 17} {u o : Nat} (v : Word) (hheld : s.viewHolds view (chkOffset u o) = true) :
    s.chkWrite view u o v = withChkUnit s u ((s.chkUnit u).write o v) :=
  if_pos hheld

theorem chkUnit_write_of_busy {x : ChkUnit} {o : Nat} (v : Word) (hbusy : x.busy = true) :
    x.write o v = { x with held := x.held ++ [(o, v)] } :=
  if_pos hbusy

/-- Data register `k` begins to feed `2 ^ k` bytes, least significant first. -/
theorem chkUnit_apply_data (x : ChkUnit) (k : Fin 3) (v : Word) :
    x.apply (0x30 + 4 * k) v = { x with feeding := (leBytes 4 v.toNat).take (2 ^ k.val) } := by
  fin_cases k <;> rfl

/-- The row that writes data register `k`. -/
def chkDataRow (view : Fin 17) (u : Fin 65) (v : Word) (k : Fin 3) : Instr :=
  if k.val = 0 then .chkData8 view u v else if k.val = 1 then .chkData16 view u v else .chkData32 view u v

theorem exec_chkDataRow (s : State) (view : Fin 17) (u : Fin 65) (v : Word) (k : Fin 3) :
    exec (chkDataRow view u v k) s = .next (s.chkWrite view u (0x30 + 4 * k) v) := by
  fin_cases k <;> rfl

/-! ### The end of a feed (R557) -/

theorem foldl_feedBit_held_stalled (bit : Nat → Bool) (is : List Nat) (x : ChkUnit) :
    (is.foldl (fun x i => x.feedBit (bit i)) x).held = x.held ∧ (is.foldl (fun x i => x.feedBit (bit i)) x).stalled = x.stalled := by
  induction is generalizing x with
  | nil => exact ⟨rfl, rfl⟩
  | cons i is ih => exact ih (x.feedBit (bit i))

theorem feed_held_stalled (x : ChkUnit) (b : Byte) : (x.feed b).held = x.held ∧ (x.feed b).stalled = x.stalled := by
  unfold ChkUnit.feed
  exact foldl_feedBit_held_stalled _ _ x

theorem foldl_feed_held_stalled (bs : List Byte) (x : ChkUnit) :
    (bs.foldl ChkUnit.feed x).held = x.held ∧ (bs.foldl ChkUnit.feed x).stalled = x.stalled := by
  induction bs generalizing x with
  | nil => exact ⟨rfl, rfl⟩
  | cons b bs ih =>
    obtain ⟨hheld, hstalled⟩ := ih (x.feed b)
    obtain ⟨hheld', hstalled'⟩ := feed_held_stalled x b
    rw [List.foldl_cons]
    exact ⟨hheld.trans hheld', hstalled.trans hstalled'⟩

/-- The unit once the bytes in hand are fed. -/
def fedUnit (x : ChkUnit) : ChkUnit := { x.feeding.foldl ChkUnit.feed x with feeding := [] }

theorem feedDone_of_no_held {x : ChkUnit} (hheld : x.held = []) : x.feedDone = fedUnit x := by
  have hkept : (fedUnit x).held = [] := (foldl_feed_held_stalled x.feeding x).1.trans hheld
  have hrel : x.feedDone = { fedUnit x with held := [] } := by
    unfold ChkUnit.feedDone
    rw [hheld]
    rfl
  rw [hrel, ← hkept]

theorem fedUnit_idle {x : ChkUnit} (hheld : x.held = []) : (fedUnit x).busy = false := by
  have hkept : (fedUnit x).held = [] := (foldl_feed_held_stalled x.feeding x).1.trans hheld
  show (!(List.isEmpty [] && (fedUnit x).held.isEmpty)) = false
  rw [hkept]
  rfl

theorem exec_chkFeedDone_of_nothing_waiting {s : State} {u : Fin 65} (hheld : (s.chkUnit u).held = []) (hstalled : (s.chkUnit u).stalled = []) :
    exec (.chkFeedDone u) s = .next (withChkUnit (withChkUnit s u (fedUnit (s.chkUnit u))) u (fedUnit (s.chkUnit u))) := by
  have hkept : (fedUnit (s.chkUnit u)).stalled = [] := (foldl_feed_held_stalled _ _).2.trans hstalled
  have hnone : { fedUnit (s.chkUnit u) with stalled := [] } = fedUnit (s.chkUnit u) := by rw [← hkept]
  show execChkFeedDone u s = _
  unfold execChkFeedDone
  rw [feedDone_of_no_held hheld]
  dsimp only
  rw [fedUnit_idle hheld, if_neg Bool.false_ne_true, hkept, hnone]
  rfl

/-! ### Result reads (R558, R560) -/

theorem ofNat_get_result (x : ChkUnit) : BitVec.ofNat 32 (x.get 0x40) = BitVec.ofNat 32 x.result := by
  apply BitVec.eq_of_toNat_eq
  simp [ChkUnit.get]

theorem ofNat_get_resultHi (x : ChkUnit) : BitVec.ofNat 32 (x.get 0x44) = x.resultHi :=
  BitVec.ofNat_toNat 32 x.resultHi |>.trans (BitVec.setWidth_eq _)

/-- A read of an idle unit answers the named half; a read of the low half latches the high one. -/
theorem chkAnswer_spec (s : State) (u : Nat) (view : Nat) (hi : Bool) :
    s.chkAnswer u (view, hi) =
      (withChkUnit s u (if hi then s.chkUnit u else (s.chkUnit u).latch)).tell .register
        (.regRead view (chkOffset u (if hi then 0x44 else 0x40)) (if hi then (s.chkUnit u).resultHi else BitVec.ofNat 32 (s.chkUnit u).result)) := by
  cases hi
  · exact congrArg (fun w => State.tell (withChkUnit s u (s.chkUnit u).latch) .register (.regRead view (chkOffset u 0x40) w))
      (ofNat_get_result (s.chkUnit u).latch)
  · exact congrArg (fun w => State.tell (withChkUnit s u (s.chkUnit u)) .register (.regRead view (chkOffset u 0x44) w)) (ofNat_get_resultHi _)

section
variable {s : State} {view : Fin 17} {u : Fin 65} {hi : Bool} (hheld : s.viewHolds view (chkOffset u (if hi then 0x44 else 0x40)) = true)
include hheld

theorem exec_chkResultRead_of_busy (hbusy : (s.chkUnit u).busy = true) :
    exec (.chkResultRead view u hi) s =
      .next (withChkUnit s u { s.chkUnit u with stalled := (s.chkUnit u).stalled ++ [(view.val, hi)] }) :=
  (if_neg (by simp [hheld])).trans (if_pos hbusy)

theorem exec_chkResultRead_of_idle (hidle : (s.chkUnit u).busy = false) :
    exec (.chkResultRead view u hi) s = .next (s.chkAnswer u (view.val, hi)) :=
  (if_neg (by simp [hheld])).trans (if_neg (by simp [hidle]))

end

/-! ### The order of a message's bits (R555) -/

/-- Reversing a byte exchanges bits `i` and `7 - i`. -/
theorem testBit_reflectBits_byte (b : Byte) {i : Nat} (hi : i < 8) : (reflectBits 8 b.toNat).testBit i = b.getLsbD (7 - i) := by
  have hall : ∀ n : Fin 256, ∀ i : Fin 8, (reflectBits 8 n).testBit i = n.val.testBit (7 - i) := by decide +kernel
  exact hall ⟨b.toNat, b.isLt⟩ ⟨i, hi⟩

theorem feed_msb_first {x : ChkUnit} (b : Byte) (h : x.refin = false) :
    x.feed b = [7, 6, 5, 4, 3, 2, 1, 0].foldl (fun x i => x.feedBit (b.getLsbD i)) x := by
  unfold ChkUnit.feed
  rw [h]
  rfl

theorem feed_lsb_first {x : ChkUnit} (b : Byte) (h : x.refin = true) :
    x.feed b = [0, 1, 2, 3, 4, 5, 6, 7].foldl (fun x i => x.feedBit (b.getLsbD i)) x := by
  unfold ChkUnit.feed
  rw [h]
  have hlow : decide (reflectBits 8 b.toNat % 2 = 1) = b.getLsbD 7 := by
    rw [← Nat.testBit_zero, testBit_reflectBits_byte b (by decide)]
  simp [testBit_reflectBits_byte, hlow]

/-- Settles O44: each row replaces its unit alone, and a byte enters REG bit by bit in the order that REFIN names. -/
theorem checkValueUnitsFeedAndAnswer : Obligations.CheckValueUnitsFeedAndAnswer := by
  unfold Obligations.CheckValueUnitsFeedAndAnswer
  refine ⟨fun s view u v k => ?data, fun s u hheld hstalled => ?done, fun s view u hi hheld => ⟨fun hbusy => ?stalled, fun hidle => ?answer⟩,
    fun x b h => feed_msb_first b h, fun x b h => feed_lsb_first b h⟩
  case data =>
    intro row hheld
    refine ⟨_, (exec_chkDataRow s view u v k).trans (congrArg _ (chkWrite_of_held v hheld)), withChkUnit_only .., withChkUnit_chkUnit_other,
      fun hidle => ?_, fun hbusy => ?_⟩
    · rw [withChkUnit_chkUnit_self, chkUnit_write_of_idle v hidle, chkUnit_apply_data]
    · rw [withChkUnit_chkUnit_self, chkUnit_write_of_busy v hbusy]
  case done =>
    refine ⟨_, exec_chkFeedDone_of_nothing_waiting hheld hstalled, rfl, fun x hx => ?_, withChkUnit_chkUnit_self .., ?_⟩
    · rw [withChkUnit_chkUnit_other x hx, withChkUnit_chkUnit_other x hx]
    · rw [withChkUnit_chkUnit_self, fedUnit_idle hheld]
  case stalled =>
    exact ⟨_, exec_chkResultRead_of_busy hheld hbusy, withChkUnit_only .., withChkUnit_chkUnit _ _⟩
  case answer =>
    refine ⟨_, withChkUnit_only .., fun x => ?_, (exec_chkResultRead_of_idle hheld hidle).trans (congrArg _ (chkAnswer_spec s u view hi))⟩
    rw [withChkUnit_chkUnit]
    cases hi <;> by_cases hx : x = u.val <;> simp [hx, ChkUnit.latch]

end Sys2Proof.Proofs
end

section
/-! PROOFS. The phases of a boot, from LOADER_WAIT to READY (R540 to R546). -/

namespace Sys2Proof.Proofs

open Sys2Proof.Machine Sys2Proof.Laws

section
variable {s : State}

/-! ### IMAGE_PUSH (R541) -/

theorem exec_imagePush_of_ready {v : Word} (hphase : s.power.phase = 1) (hset : v.getLsbD 0 = true) :
    exec (.imagePush 16 v) s = .next (State.tell { s with power := { s.power with phase := 2 }, sec := { s.sec with waiting := false } } (.bulk 16 64)
      (.hostRead (s.sec.addrLo.toNat + s.sec.addrHi.toNat * 2 ^ 32) s.sec.len.toNat)) := by
  refine if_pos ?_
  rw [hphase, show v.toNat.testBit 0 = true from hset]
  rfl

theorem exec_imagePush_of_not_ready {view : Fin 17} {v : Word} (hno : s.power.phase ≠ 1 ∨ v.getLsbD 0 = false ∨ view.val ≠ 16) :
    exec (.imagePush view v) s = .next s := by
  refine if_neg (fun h => ?_)
  rw [Bool.and_eq_true, Bool.and_eq_true] at h
  obtain ⟨⟨hview, hset⟩, hphase⟩ := h
  rcases hno with hno | hno | hno
  · exact hno (of_decide_eq_true hphase)
  · exact Bool.false_ne_true (hno.symm.trans hset)
  · exact hno (of_decide_eq_true hview)

/-! ### IMAGE_READ_DONE (R542, R543) -/

/-- A posting changes neither the security registers nor the power registers. -/
theorem tell_sec (cls : ReiloClass) (m : OutMsg) : (s.tell cls m).sec = s.sec := by
  rw [State.tell, (onlyEvents_post s _).1]

/-- A bad image leaves LOADER_WAIT, its check in FAIL, one more attempt, and the request for an image. -/
theorem imageBad_spec (s : State) (c : Nat) :
    s.imageBad c = State.tell { s with power := { s.power with phase := 1 }, sec := (s.imageBad c).sec } .ring (.irq 0) ∧
      (s.imageBad c).sec = { s.sec with fail := c, attempts := min (s.sec.attempts + 1) 255, waiting := true } := by
  have hsec : (s.imageBad c).sec = { s.sec with fail := c, attempts := min (s.sec.attempts + 1) 255, waiting := true } := tell_sec ..
  exact ⟨by rw [hsec]; rfl, hsec⟩

/-- Measuring adds to the chain, the count and the list of entries alone (R550). -/
theorem measureImage_spec (s : State) (bs : List Byte) :
    s.measureImage bs = { s with sec := (s.measureImage bs).sec } ∧ (s.measureImage bs).sec.imageSvn = s.sec.imageSvn ∧
      (s.measureImage bs).sec.attempts = s.sec.attempts ∧ (s.measureImage bs).sec.fail = s.sec.fail := by
  unfold State.measureImage
  dsimp only
  split <;> exact ⟨rfl, rfl, rfl, rfl⟩

/-- A header that fails its check is what FAIL names. -/
theorem imageFail_of_bad_header {bs : List Byte} {len : Nat} (hbad : imageHeader bs len = false) : s.imageFail bs len = some 1 := by
  unfold State.imageFail State.imageChecks
  rw [hbad]
  rfl

/-- An image that fails no check has a good header and an SVN that the fuses allow. -/
theorem of_imageFail_none {bs : List Byte} {len : Nat} (hgood : s.imageFail bs len = none) :
    s.fuses.minSvn ≤ bytesAt bs 8 4 ∧ imageHeader bs len = true := by
  have hall := List.find?_eq_none.mp (Option.map_eq_none_iff.mp hgood)
  have hheader := hall (1, imageHeader bs len) (by simp [State.imageChecks])
  have hsvn := hall (8, decide (s.fuses.minSvn ≤ bytesAt bs 8 4)) (by simp [State.imageChecks])
  exact ⟨by simpa using hsvn, by simpa using hheader⟩

/-- A good image, measured in `u`, enters LOAD with its SVN and digests. -/
def loadedImage (s : State) (bs : List Byte) (u : State) : State :=
  State.bootPhase { u with sec := { u.sec with imageSvn := bytesAt bs 8 4, fwDigest := imageDigest bs,
                                               ownerDigest := if s.ownerAsked then s.fuses.ownerHash else [] } } 3

section
variable (hphase : s.power.phase = 2)
include hphase

theorem exec_imageReadDone_none : exec (.imageReadDone none) s = .next (s.imageBad 2) :=
  if_neg (by simp [hphase])

/-- A failing check ends in `imageBad`; an image whose SVN alone fails has been measured by then. -/
theorem exec_imageReadDone_of_bad {data : List Byte} {c : Nat} (hbad : s.imageFail (padTo s.sec.len.toNat data) s.sec.len.toNat = some c) :
    exec (.imageReadDone (some data)) s =
      .next (if c = 8 then (s.measureImage (padTo s.sec.len.toNat data)).imageBad 8 else s.imageBad c) := by
  refine (if_neg (by simp [hphase])).trans ?_
  rw [hbad]
  by_cases h8 : c = 8
  · subst h8
    rfl
  · rw [if_neg h8]
    dsimp only
    split
    · next heq => exact absurd (Option.some.inj heq) h8
    · next heq => rw [Option.some.inj heq]
    · next heq => exact absurd heq (by simp)

theorem imageReadDone_bad_spec {data : List Byte} {c : Nat} (hbad : s.imageFail (padTo s.sec.len.toNat data) s.sec.len.toNat = some c) :
    ∃ t, exec (.imageReadDone (some data)) s = .next t ∧
      t = State.tell { s with power := { s.power with phase := 1 }, sec := t.sec } .ring (.irq 0) ∧
      t.sec.fail = c ∧ t.sec.attempts = min (s.sec.attempts + 1) 255 ∧ t.sec.waiting = true ∧ t.sec.imageSvn = s.sec.imageSvn ∧
      (c ≠ 8 → t.sec.entries = s.sec.entries) := by
  refine ⟨_, exec_imageReadDone_of_bad hphase hbad, ?_⟩
  generalize padTo s.sec.len.toNat data = bs
  by_cases h8 : c = 8
  · subst h8
    obtain ⟨hstate, hsec⟩ := imageBad_spec (s.measureImage bs) 8
    obtain ⟨honly, hsvn, hattempts, -⟩ := measureImage_spec s bs
    rw [if_pos rfl]
    generalize s.measureImage bs = u at *
    obtain ⟨c1, rfl⟩ : ∃ c1, u = { s with sec := c1 } := ⟨_, honly⟩
    refine ⟨hstate, ?_⟩
    rw [hsec]
    exact ⟨rfl, congrArg (fun n => min (n + 1) 255) hattempts, rfl, hsvn, fun h => absurd rfl h⟩
  · obtain ⟨hstate, hsec⟩ := imageBad_spec s c
    rw [if_neg h8]
    refine ⟨hstate, ?_⟩
    rw [hsec]
    exact ⟨rfl, rfl, rfl, rfl, fun _ => rfl⟩

theorem imageReadDone_good_spec {data : List Byte} (hgood : s.imageFail (padTo s.sec.len.toNat data) s.sec.len.toNat = none) :
    ∃ t, exec (.imageReadDone (some data)) s = .next t ∧ t = { s with power := { s.power with phase := 3 }, sec := t.sec } ∧
      t.sec.imageSvn = bytesAt (padTo s.sec.len.toNat data) 8 4 ∧ t.sec.fail = s.sec.fail := by
  obtain ⟨honly, -, -, hfail⟩ := measureImage_spec s (padTo s.sec.len.toNat data)
  have hexec : exec (.imageReadDone (some data)) s =
      .next (loadedImage s (padTo s.sec.len.toNat data) (s.measureImage (padTo s.sec.len.toNat data))) := by
    refine (if_neg (by simp [hphase])).trans ?_
    rw [hgood]
    rfl
  generalize padTo s.sec.len.toNat data = bs at *
  generalize s.measureImage bs = u at *
  obtain ⟨c1, rfl⟩ : ∃ c1, u = { s with sec := c1 } := ⟨_, honly⟩
  exact ⟨_, hexec, rfl, rfl, hfail⟩

end

/-! ### DRAM_TRAIN_DONE (R214, R221) -/

/-- A field whose stack has been trained, `fuses` naming the channels that the fuses take out. -/
def trainedField (fuses : SMap Nat) (failed : List (Nat × Nat)) (f : Nat) (d : Field) : Field :=
  { d with stack := d.stack.trained (smapGet 0 fuses f) ((failed.filter (fun x => x.1 == f)).map Prod.snd) }

theorem exec_dramTrainDone_of_phase {failed : List (Nat × Nat)} (hphase : s.power.phase = 5) :
    exec (.dramTrainDone failed) s =
      .next ((s.forAll (List.range 64) (fun t f => t.modFld f (trainedField s.fuses.chanOut failed f))).bootPhase 6) := by
  refine (if_neg (by simp [hphase])).trans (congrArg (fun t => Host.Outcome.next (State.bootPhase t 6)) ?_)
  have hfold : ∀ (fs : List Nat) (t : State), t.fuses = s.fuses →
      (t.forAll fs fun t f => t.modFld f fun d =>
        { d with stack := d.stack.trained (t.fuseChans f) ((failed.filter (fun x => x.1 == f)).map Prod.snd) }) =
      t.forAll fs (fun t f => t.modFld f (trainedField s.fuses.chanOut failed f)) := by
    intro fs
    induction fs with
    | nil => exact fun _ _ => rfl
    | cons f fs ih =>
      intro t ht
      have hhead : (t.modFld f fun d => { d with stack := d.stack.trained (t.fuseChans f) ((failed.filter (fun x => x.1 == f)).map Prod.snd) }) =
          t.modFld f (trainedField s.fuses.chanOut failed f) := by rw [← ht]; rfl
      have := ih (t.modFld f (trainedField s.fuses.chanOut failed f)) ht
      unfold State.forAll at this ⊢
      rw [List.foldl_cons, List.foldl_cons, hhead, this]
  exact hfold _ s rfl

/-- The channels in service after training: those that neither fuse nor blob takes out, and that did not fail. -/
theorem mem_trained_good {k : Stack} {fuse f c : Nat} {failed : List (Nat × Nat)} :
    c ∈ (k.trained fuse ((failed.filter (fun x => x.1 == f)).map Prod.snd)).good ↔
      c < 32 ∧ fuse.testBit c = false ∧ k.blobMap.testBit c = false ∧ (f, c) ∉ failed := by
  have hnamed : (Nat.lor fuse k.blobMap).testBit c = (fuse.testBit c || k.blobMap.testBit c) := Nat.testBit_or fuse k.blobMap c
  simp only [Stack.trained, List.mem_filter, List.mem_range, Bool.and_eq_true, Bool.not_eq_true', hnamed, Bool.or_eq_false_iff,
    List.contains_eq_mem, decide_eq_false_iff_not, List.mem_map, beq_iff_eq, Prod.exists, exists_eq_right, decide_eq_true_eq]
  constructor
  · rintro ⟨hc, ⟨hfuse, hblob⟩, hok⟩
    exact ⟨hc, hfuse, hblob, fun hmem => hok ⟨hmem, hc, hfuse, hblob⟩⟩
  · rintro ⟨hc, hfuse, hblob, hok⟩
    exact ⟨hc, ⟨hfuse, hblob⟩, fun hmem => hok hmem.1⟩

theorem dramTrainDone_spec {failed : List (Nat × Nat)} (hphase : s.power.phase = 5) :
    ∃ t, exec (.dramTrainDone failed) s = .next t ∧ t = { s with fields := t.fields, power := { s.power with phase := 6 } } ∧
      (∀ f c, f < 64 → (c ∈ (t.fld f).stack.good ↔
        c < 32 ∧ (s.fuseChans f).testBit c = false ∧ (s.fld f).stack.blobMap.testBit c = false ∧ (f, c) ∉ failed)) ∧
      (∀ f, { t.fld f with stack := (s.fld f).stack } = s.fld f) := by
  have honly := forAll_modFld_only s (trainedField s.fuses.chanOut failed) (List.range 64)
  have hfld := fld_forAll_modFld s (trainedField s.fuses.chanOut failed) (List.nodup_range (n := 64))
  refine ⟨_, exec_dramTrainDone_of_phase hphase, ?_⟩
  generalize s.forAll (List.range 64) (fun t f => t.modFld f (trainedField s.fuses.chanOut failed f)) = u at *
  have hfld' : ∀ k, (u.bootPhase 6).fld k = if k ∈ List.range 64 then trainedField s.fuses.chanOut failed k (s.fld k) else s.fld k := hfld
  refine ⟨?_, fun f c hf => ?_, fun f => ?_⟩
  · rw [honly]
    rfl
  · rw [hfld', if_pos (List.mem_range.mpr hf)]
    exact mem_trained_good
  · rw [hfld']
    split <;> rfl

/-! ### BOOT_ZEROISE_DONE (R240) -/

theorem bootZeroiseDone_spec (hphase : s.power.phase = 6) :
    ∃ t, exec .bootZeroiseDone s = .next t ∧ t = { s with mem := t.mem, power := { s.power with phase := 7 } } ∧
      (∀ a, memRead t.mem a = if a < 2 ^ 43 then blankByte else memRead s.mem a) := by
  refine ⟨_, if_neg (by simp [hphase]), rfl, fun a => ?_⟩
  refine (memRead_filter s.mem (fun k => !decide (k < 2 ^ 43)) a).trans ?_
  by_cases ha : a < 2 ^ 43
  · rw [if_pos ha, decide_eq_true ha]
    rfl
  · rw [if_neg ha, decide_eq_false ha]
    rfl

/-! ### SELFTEST_DONE (R15, R222, R546) -/

theorem forAll_of_forall_eq {α : Type} {xs : List α} {g : State → α → State} (hg : ∀ x ∈ xs, g s x = s) : s.forAll xs g = s := by
  unfold State.forAll
  induction xs with
  | nil => rfl
  | cons x xs ih =>
    rw [List.foldl_cons, hg x (List.mem_cons_self ..)]
    exact ih (fun y hy => hg y (List.mem_cons_of_mem x hy))

theorem forAll_testField_nil (fs : List Nat) :
    s.forAll fs (fun s f => s.testField f []) = { s with fields := (s.forAll fs (fun s f => s.testField f [])).fields } ∧
      ∀ f, (s.forAll fs (fun s f => s.testField f [])).fld f = s.fld f := by
  simp only [testField_nil]
  refine ⟨forAll_modFld_only s (fun _ => id) fs, ?_⟩
  refine forAll_keeps (fun t : State => ∀ f, t.fld f = s.fld f) fs _ (fun t k _ ht f => ?_) s (fun _ => rfl)
  rw [modFld_fld]
  split
  · next hf => rw [hf]; exact ht k
  · exact ht f

/-- A self-test without a failing tile, of fields that all have channels and 16 slots, ends the boot. -/
theorem selftestDone_boot_spec (hphase : s.power.phase = 7) (hwhole : ∀ f, f < 64 → (s.fld f).stack.good ≠ [] ∧ (s.fld f).slots.length = 16) :
    ∃ t, exec (.selftestDone []) s = .next t ∧
      t = { s with host := t.host, hostMem := t.hostMem, outbox := t.outbox, power := t.power, fields := t.fields } ∧
      t.power = { s.power with phase := 8, state := 1 } ∧ (∀ f, t.fld f = s.fld f) := by
  obtain ⟨honly, hfld⟩ := forAll_testField_nil (s := s) (List.range 64)
  have hexec : exec (.selftestDone []) s =
      .next (let s1 := (s.forAll (List.range 64) (fun s f => s.testField f [])).emptyStacks
        let s2 := State.event { s1 with power := { s1.power with phase := 8, state := 1 } } 12 3 16 0 []
        s2.forAll ((List.range 64).filter (fun f => (s2.fld f).slots.length < 16)) (fun s f => s.raiseLost 16 f stCapacity)) :=
    if_neg (by simp [hphase])
  generalize s.forAll (List.range 64) (fun s f => s.testField f []) = u at *
  have hstacks : u.emptyStacks = u := forAll_of_forall_eq (fun f hf => if_neg (by
    rw [hfld, List.isEmpty_iff]
    exact (hwhole f (List.mem_range.mp hf)).1))
  have hev := (onlyEvents_event { u with power := { u.power with phase := 8, state := 1 } } 12 3 16 0 []).1
  rw [hstacks] at hexec
  dsimp only at hexec
  generalize State.event { u with power := { u.power with phase := 8, state := 1 } } 12 3 16 0 [] = w at *
  have hwfld : ∀ f, w.fld f = s.fld f := fun f => by
    rw [hev]
    exact hfld f
  have hfull : (List.range 64).filter (fun f => (w.fld f).slots.length < 16) = [] := by
    refine List.filter_eq_nil_iff.mpr (fun f hf => ?_)
    rw [hwfld, (hwhole f (List.mem_range.mp hf)).2]
    decide
  rw [hfull] at hexec
  refine ⟨w, hexec, ?_, ?_, hwfld⟩
  · rw [hev, honly]
  · rw [hev, honly]

/-- Without a failing tile no field has a new failure. -/
theorem failingFields_nil : s.failingFields [] = [] := by
  refine List.filter_eq_nil_iff.mpr (fun f _ => ?_)
  rw [testLoss_nil]
  decide

theorem exec_selftestDone_out_of_place {failed : List Nat} (hphase : s.power.phase ≠ 7) (hno : s.leavesRetain = false ∨ failed = []) :
    exec (.selftestDone failed) s = .next s := by
  refine (if_pos (bne_iff_ne.mpr hphase)).trans ?_
  rcases hno with hno | rfl
  · exact if_neg (by simp [hno])
  · split
    · rw [failingFields_nil]
      rfl
    · rfl

/-! ### A failing tile on the way from RETAIN to RUN -/

/-- What the failure of slot `p` costs a field whose spare is idle: slot `p`, which the spare takes. -/
theorem loss_of_idle_spare {d : Field} (p : Fin 16) (hfenced : d.fenced = 0) (hspare : d.spareUsed = false) (hgone : d.gone = false)
    (hfc : d.fcFenced = false) : d.loss [p.val] = { failed := [p.val], lost := [p.val], take := some p.val, spare := false } := by
  have hserves : ∀ i, d.serves i = some i := fun i => by simp [Field.serves, hgone, hfc, hspare, hfenced]
  unfold Field.loss
  simp only [hserves, hfenced, hspare]
  revert p
  decide

/-- The failing tiles of one field, when one tile fails. -/
theorem testLoss_single (f : Fin 64) (p : Fin 16) (g : Nat) :
    s.testLoss g [17 * f.val + p.val] = (s.fld g).loss (if g = f.val then [p.val] else []) := by
  have hp := p.isLt
  have hdiv : (17 * f.val + p.val) / 17 = f.val := by omega
  have hmod : (17 * f.val + p.val) % 17 = p.val := by omega
  unfold State.testLoss
  by_cases hg : g = f.val
  · simp [hdiv, hmod, hg]
  · simp [hdiv, hg, Ne.symm hg]

/-- The field with its slot `p` fenced, its frozen registers `x`, what READY owes it `owed`, and the spare in the slot's place. -/
def spareTook (d : Field) (p : Nat) (x : TileState) (owed : List (Nat × Nat)) : Field :=
  { d with fenced := Nat.lor d.fenced (2 ^ p), frozen := smapSet d.frozen p x, refill := owed, spareUsed := true, spareFor := p, factory := false }

/-- The spare taking a slot over changes that field, and no power register. -/
theorem applyLoss_of_taken (f p : Nat) : let t := s.applyLoss f { failed := [p], lost := [p], take := some p, spare := false }
    t.power = s.power ∧ (∃ x owed, t.fld f = spareTook (s.fld f) p x owed) ∧ ∀ g, g ≠ f → t.fld g = s.fld g := by
  intro t
  let s1 := s.fenceSlot f p
  let s2 := if s1.isTrainField f then s1.oweRefill f p else s1
  have hfenced : ∀ g, s1.fld g = if g = f then { s.fld f with fenced := Nat.lor (s.fld f).fenced (2 ^ p), frozen := smapSet (s.fld f).frozen p (s.physTile f p) }
      else s.fld g := fun g => modFld_fld ..
  have howed : s2.power = s.power ∧ (∃ owed, s2.fld f = { s1.fld f with refill := owed }) ∧ ∀ g, g ≠ f → s2.fld g = s1.fld g := by
    by_cases htrain : s1.isTrainField f = true
    · have : s2 = s1.oweRefill f p := if_pos htrain
      rw [this]
      refine ⟨rfl, ⟨_, (modFld_fld ..).trans (if_pos rfl)⟩, fun g hg => (modFld_fld ..).trans (if_neg hg)⟩
    · have : s2 = s1 := if_neg htrain
      rw [this]
      exact ⟨rfl, ⟨_, rfl⟩, fun _ _ => rfl⟩
  have hfld : ∀ g, t.fld g = if g = f then { s2.fld f with spareUsed := true, spareFor := p, factory := false } else s2.fld g := fun g =>
    modFld_fld s2 f (fun d => { d with spareUsed := true, spareFor := p, factory := false }) g
  obtain ⟨hpower, ⟨owed, hself⟩, hother⟩ := howed
  refine ⟨hpower, ⟨s.physTile f p, owed, ?_⟩, fun g hg => ?_⟩
  · rw [hfld, if_pos rfl, hself, hfenced, if_pos rfl]
    rfl
  · rw [hfld, if_neg hg, hother g hg, hfenced, if_neg hg]

theorem filter_range_beq {n k : Nat} (hk : k < n) : (List.range n).filter (fun i => i == k) = [k] := by
  rw [List.filter_beq, List.count_eq_one_of_mem List.nodup_range (List.mem_range.mpr hk)]
  rfl

/-- A failing tile whose field has an idle spare is replaced by it. -/
theorem selftestDone_spare_spec (f : Fin 64) (p : Fin 16) (hphase : s.power.phase ≠ 7) (hleaves : s.leavesRetain = true)
    (hfenced : (s.fld f).fenced = 0) (hspare : (s.fld f).spareUsed = false) (hgone : (s.fld f).gone = false) (hfc : (s.fld f).fcFenced = false) :
    ∃ t, exec (.selftestDone [17 * f + p]) s = .next t ∧ t.power = s.power ∧ (t.fld f).fenced = 2 ^ p.val ∧ (t.fld f).serves p = some 16 ∧
      (t.fld f).factory = false ∧ (∀ g : Fin 64, g ≠ f → t.fld g = s.fld g) := by
  have hloss : s.testLoss f [17 * f.val + p.val] = { failed := [p.val], lost := [p.val], take := some p.val, spare := false } := by
    rw [testLoss_single, if_pos rfl, loss_of_idle_spare p hfenced hspare hgone hfc]
  have hfailing : s.failingFields [17 * f.val + p.val] = [f.val] := by
    have hone : ∀ g, (!(s.testLoss g [17 * f.val + p.val]).failed.isEmpty) = (g == f.val) := fun g => by
      by_cases hg : g = f.val
      · rw [hg, hloss]
        simp
      · rw [testLoss_single, if_neg hg, loss_nil]
        simp [hg]
    unfold State.failingFields
    simp only [hone]
    exact filter_range_beq f.isLt
  have hserved : (SlotLoss.unserved { failed := [p.val], lost := [p.val], take := some p.val, spare := false }).isEmpty = true := by
    simp [SlotLoss.unserved]
  have hexec : exec (.selftestDone [17 * f + p]) s = .next (s.testField f [17 * f.val + p.val]) := by
    refine (if_pos (bne_iff_ne.mpr hphase)).trans ((if_pos hleaves).trans ?_)
    rw [hfailing]
    refine congrArg Host.Outcome.next (if_pos ?_)
    rw [hloss]
    exact hserved
  obtain ⟨hpower, ⟨x, owed, hself⟩, hother⟩ := applyLoss_of_taken (s := s) f.val p.val
  let u := s.applyLoss f { failed := [p.val], lost := [p.val], take := some p.val, spare := false }
  have hev : OnlyEvents u (u.lossEvents f { failed := [p.val], lost := [p.val], take := some p.val, spare := false }) :=
    (onlyEvents_event ..).trans (onlyEvents_event ..)
  have hfield : s.testField f [17 * f.val + p.val] =
      (u.lossEvents f { failed := [p.val], lost := [p.val], take := some p.val, spare := false }).modFld f
        (fun d => { d with testFailed := d.testFailed + 1 }) := by
    unfold State.testField
    rw [hloss]
    rfl
  generalize u.lossEvents f { failed := [p.val], lost := [p.val], take := some p.val, spare := false } = w at *
  have hwfld : ∀ g, w.fld g = u.fld g := fun g => by rw [hev.1]; rfl
  have hnew : (s.testField f [17 * f.val + p.val]).fld f =
      { spareTook (s.fld f) p x owed with testFailed := (spareTook (s.fld f) p x owed).testFailed + 1 } := by
    rw [hfield, modFld_fld, if_pos rfl, hwfld, hself]
  have hmask : (spareTook (s.fld f) p x owed).fenced = 2 ^ p.val := by
    show Nat.lor (s.fld f).fenced (2 ^ p.val) = _
    rw [hfenced]
    exact Nat.zero_or _
  refine ⟨_, hexec, ?_, ?_, ?_, ?_, fun g hg => ?_⟩
  · rw [hfield]
    show w.power = _
    rw [hev.1]
    exact hpower
  · rw [hnew]
    exact hmask
  · rw [hnew]
    have hp := p.isLt
    have hbit : (2 ^ p.val).testBit 16 = false := Nat.testBit_two_pow_of_ne (by omega)
    refine (if_neg ?_).trans ((if_pos ?_).trans (if_neg ?_))
    · show ¬ ((s.fld f).gone || (s.fld f).fcFenced) = true
      simp [hgone, hfc]
    · show (true && p.val == p.val) = true
      simp
    · show ¬ (spareTook (s.fld f) p x owed).fenced.testBit 16 = true
      rw [hmask, hbit]
      decide
  · rw [hnew]
    rfl
  · rw [hfield, modFld_fld, if_neg (fun h => hg (Fin.ext h)), hwfld]
    exact hother g (fun h => hg (Fin.ext h))

end

/-- Settles O45: each row checks its phase first, and its effect is told by the lemma of its row. -/
theorem bootRunsThroughItsPhases : Obligations.BootRunsThroughItsPhases := by
  unfold Obligations.BootRunsThroughItsPhases
  refine ⟨fun s v => exec_imagePush_of_ready, fun s view v => exec_imagePush_of_not_ready, fun s hphase => ⟨?missing, fun data => ?read⟩, fun s => ?load,
    fun s failed => dramTrainDone_spec, fun s => bootZeroiseDone_spec, fun s => selftestDone_boot_spec, fun s => ?outOfPlace,
    fun s f p => selftestDone_spare_spec f p⟩
  case missing =>
    obtain ⟨hstate, hsec⟩ := imageBad_spec s 2
    rw [exec_imageReadDone_none hphase, hstate, hsec]
  case read =>
    intro bs
    refine ⟨fun c hbad => ?failing, fun hgood => ?loads⟩
    case failing =>
      obtain ⟨t, hexec, hstate, hfail, hattempts, hwaiting, hsvn, hentries⟩ := imageReadDone_bad_spec hphase hbad
      exact ⟨t, hexec, hstate, hfail, hattempts, hwaiting, hsvn, hentries, fun hheader =>
        Option.some.inj (hbad.symm.trans (imageFail_of_bad_header hheader))⟩
    case loads =>
      obtain ⟨t, hexec, hstate, hsvn, hfail⟩ := imageReadDone_good_spec hphase hgood
      obtain ⟨hmin, hheader⟩ := of_imageFail_none hgood
      exact ⟨t, hexec, hstate, hsvn, hfail, hmin, hheader⟩
  case load =>
    by_cases hphase : s.power.phase = 3
    · rw [if_pos hphase]
      exact if_pos hphase
    · rw [if_neg hphase]
      exact if_neg hphase
  case outOfPlace =>
    exact ⟨fun i h => if_pos (bne_iff_ne.mpr h), fun l h => if_pos (bne_iff_ne.mpr h), fun h => if_pos (bne_iff_ne.mpr h),
      fun l => exec_selftestDone_out_of_place⟩

end Sys2Proof.Proofs
end

section
/-! PROOFS. Reset, the rails and the input, the Reilo link's loss and return, and the order in which held postings go out. -/

namespace Sys2Proof.Proofs

open Sys2Proof.Machine Sys2Proof.Laws

/-! ### A list put in order by insertion -/

section
variable {x : Nat × Posting} {xs ys : List (Nat × Posting)}

/-- Each posting in turn put behind those of its place. -/
def inOrder (xs : List (Nat × Posting)) : List (Nat × Posting) := xs.foldl (fun a x => insertPosting x a) []

theorem perm_insertPosting (x : Nat × Posting) (ys : List (Nat × Posting)) : (insertPosting x ys).Perm (x :: ys) := by
  induction ys with
  | nil => exact List.Perm.refl _
  | cons y ys ih =>
    unfold insertPosting
    split
    · exact List.Perm.refl _
    · exact (ih.cons y).trans (List.Perm.swap x y ys)

/-- Whether keys do not fall along a list. -/
def KeysRise (xs : List (Nat × Posting)) : Prop := xs.Pairwise (fun x y => x.1 ≤ y.1)

theorem keysRise_insertPosting (h : KeysRise ys) : KeysRise (insertPosting x ys) := by
  induction ys with
  | nil => exact List.pairwise_singleton _ _
  | cons y ys ih =>
    obtain ⟨hy, hys⟩ := List.pairwise_cons.mp h
    unfold insertPosting
    split
    · next hlt =>
      refine List.pairwise_cons.mpr ⟨fun z hz => ?_, h⟩
      rcases List.mem_cons.mp hz with rfl | hz
      · exact hlt.le
      · exact hlt.le.trans (hy z hz)
    · next hge =>
      refine List.pairwise_cons.mpr ⟨fun z hz => ?_, ih hys⟩
      rcases List.mem_cons.mp ((perm_insertPosting x ys).mem_iff.mp hz) with rfl | hz
      · exact Nat.not_lt.mp hge
      · exact hy z hz

/-- A posting goes behind those of its kind that have come, when none of them has a later key. -/
theorem filter_insertPosting (p : Nat × Posting → Bool) (h : KeysRise ys) (hlast : p x = true → ∀ y ∈ ys, p y = true → y.1 ≤ x.1) :
    (insertPosting x ys).filter p = ys.filter p ++ if p x then [x] else [] := by
  induction ys with
  | nil => by_cases hx : p x = true <;> simp [insertPosting, hx]
  | cons y ys ih =>
    obtain ⟨hy, hys⟩ := List.pairwise_cons.mp h
    unfold insertPosting
    split
    · next hlt =>
      by_cases hx : p x = true
      · have hnone : (y :: ys).filter p = [] := by
          refine List.filter_eq_nil_iff.mpr (fun z hz hpz => ?_)
          have hle := hlast hx z hz hpz
          rcases List.mem_cons.mp hz with rfl | hz
          · omega
          · have := hy z hz
            omega
        rw [List.filter_cons_of_pos hx, hnone, if_pos hx]
        rfl
      · rw [List.filter_cons_of_neg hx, if_neg hx, List.append_nil]
    · have := ih hys (fun hx z hz => hlast hx z (List.mem_cons_of_mem y hz))
      rw [List.filter_cons, List.filter_cons, this]
      split <;> rfl

theorem inOrder_concat : inOrder (xs ++ [x]) = insertPosting x (inOrder xs) := by
  unfold inOrder
  rw [List.foldl_append]
  rfl

theorem perm_inOrder (xs : List (Nat × Posting)) : (inOrder xs).Perm xs := by
  induction xs using List.reverseRecOn with
  | nil => exact List.Perm.refl _
  | append_singleton xs x ih =>
    rw [inOrder_concat]
    exact (perm_insertPosting x _).trans ((ih.cons x).trans (List.perm_append_singleton x xs).symm)

theorem keysRise_inOrder (xs : List (Nat × Posting)) : KeysRise (inOrder xs) := by
  induction xs using List.reverseRecOn with
  | nil => exact List.Pairwise.nil
  | append_singleton xs x ih =>
    rw [inOrder_concat]
    exact keysRise_insertPosting ih

/-- Postings of one kind whose keys rise keep their order. -/
theorem filter_inOrder (p : Nat × Posting → Bool) (h : KeysRise (xs.filter p)) : (inOrder xs).filter p = xs.filter p := by
  induction xs using List.reverseRecOn with
  | nil => rfl
  | append_singleton xs x ih =>
    rw [List.filter_append] at h
    obtain ⟨hxs, -, hcross⟩ := List.pairwise_append.mp h
    rw [inOrder_concat, filter_insertPosting p (keysRise_inOrder xs) ?_, ih hxs, List.filter_append]
    · rw [List.filter_singleton, Bool.cond_eq_ite]
    · intro hx y hy hpy
      exact hcross y (List.mem_filter.mpr ⟨(perm_inOrder xs).mem_iff.mp hy, hpy⟩) x (by simp [hx])

end

/-! ### The keys of what the link holds (R474) -/

section
variable (s : State)

/-- The rank of a posting: its class, and within BULK the shutter's bytes, SERVE, the rest. -/
def postRank (x : Posting) : Nat :=
  match x.cls with
  | .sideband => 0 | .register => 1 | .ring => 2 | .shutter => 3 | .bulk p _ => if s.serves p then 4 else 5

/-- Whether a posting is among the last and of field `f`. -/
def ofField (f : Nat) (x : Posting) : Bool := match x.cls with | .bulk p g => !s.serves p && g == f | _ => false

/-- Each posting with its key. -/
def keyed (xs : List Posting) : List (Nat × Posting) := xs.zipIdx.map (fun p => (s.postKey (xs.take p.2) p.1, p.1))

theorem keyed_concat (xs : List Posting) (x : Posting) : keyed s (xs ++ [x]) = keyed s xs ++ [(s.postKey xs x, x)] := by
  unfold keyed
  rw [List.zipIdx_append, List.map_append]
  congr 1
  · refine List.map_congr_left (fun p hp => ?_)
    have hlt : p.2 < xs.length := List.snd_lt_of_mem_zipIdx hp |>.trans_eq (by omega)
    rw [List.take_append_of_le_length hlt.le]
  · simp

theorem map_snd_keyed (xs : List Posting) : (keyed s xs).map Prod.snd = xs := by
  induction xs using List.reverseRecOn with
  | nil => rfl
  | append_singleton xs x ih => rw [keyed_concat, List.map_append, ih]; rfl

theorem linkOrder_eq (xs : List Posting) : s.linkOrder xs = (inOrder (keyed s xs)).map Prod.snd := rfl

theorem postKey_of_ofField {before : List Posting} {x : Posting} {f : Nat} (h : ofField s f x = true) :
    s.postKey before x = 5 + 65 * before.countP (ofField s f) + min f 64 := by
  obtain ⟨cls, data, msg⟩ := x
  cases cls with
  | bulk p g =>
    obtain ⟨hp, rfl⟩ : s.serves p = false ∧ g = f := by simpa [ofField] using h
    refine (if_neg (by simp [hp])).trans ?_
    rw [List.countP_eq_length_filter]
    rfl
  | _ => exact absurd h Bool.false_ne_true

theorem postRank_eq_min_postKey (before : List Posting) (x : Posting) : postRank s x = min (s.postKey before x) 5 := by
  obtain ⟨cls, data, msg⟩ := x
  cases cls with
  | bulk p g =>
    by_cases hp : s.serves p = true
    · have hkey : s.postKey before { cls := .bulk p g, data := data, msg := msg } = 4 := if_pos hp
      rw [hkey]
      exact if_pos hp
    · have hfield : ofField s g { cls := .bulk p g, data := data, msg := msg } = true := by simp [ofField, hp]
      rw [postKey_of_ofField s hfield]
      have hrank : postRank s { cls := .bulk p g, data := data, msg := msg } = 5 := if_neg hp
      omega
  | _ => rfl

theorem rank_of_mem_keyed {xs : List Posting} {e : Nat × Posting} (he : e ∈ keyed s xs) : postRank s e.2 = min e.1 5 := by
  obtain ⟨p, -, rfl⟩ := List.mem_map.mp he
  exact postRank_eq_min_postKey s _ _

/-- The postings of one field stand in successive turns. -/
theorem keys_of_field (f : Nat) (xs : List Posting) :
    ((keyed s xs).filter (fun e => ofField s f e.2)).map Prod.fst =
      (List.range (xs.countP (ofField s f))).map (fun i => 5 + 65 * i + min f 64) := by
  induction xs using List.reverseRecOn with
  | nil => rfl
  | append_singleton xs x ih =>
    rw [keyed_concat, List.filter_append, List.map_append, ih, List.countP_append]
    by_cases hx : ofField s f x = true
    · rw [List.countP_singleton, if_pos hx, List.range_succ, List.map_append, List.filter_singleton]
      simp [hx, postKey_of_ofField s hx]
    · simp [hx]

theorem keysRise_of_field (f : Nat) (xs : List Posting) : KeysRise ((keyed s xs).filter (fun e => ofField s f e.2)) := by
  have hkeys : (((keyed s xs).filter (fun e => ofField s f e.2)).map Prod.fst).Pairwise (fun a b : Nat => a ≤ b) := by
    rw [keys_of_field]
    refine List.pairwise_map.mpr (List.pairwise_lt_range.imp (fun hab => ?_))
    omega
  exact List.pairwise_map.mp hkeys

/-- The keys of one class rise in the order of arrival. -/
theorem keysRise_of_class (c : ReiloClass) (xs : List Posting) : KeysRise ((keyed s xs).filter (fun e => e.2.cls == c)) := by
  by_cases hlast : ∃ p g, c = .bulk p g ∧ s.serves p = false
  · obtain ⟨p, g, rfl, hp⟩ := hlast
    refine List.Pairwise.sublist ?_ (keysRise_of_field s g xs)
    have hsub : (keyed s xs).filter (fun e => e.2.cls == .bulk p g) =
        ((keyed s xs).filter (fun e => ofField s g e.2)).filter (fun e => e.2.cls == .bulk p g) := by
      rw [List.filter_filter]
      refine List.filter_congr (fun e _ => ?_)
      by_cases hc : e.2.cls = .bulk p g
      · simp [ofField, hc, hp]
      · simp [hc]
    rw [hsub]
    exact List.filter_sublist
  · have hconst : ∀ e ∈ (keyed s xs).filter (fun e => e.2.cls == c), e.1 = postRank s { cls := c } := by
      intro e he
      obtain ⟨hmem, hcls⟩ := List.mem_filter.mp he
      have hcls : e.2.cls = c := by simpa using hcls
      have hrank := rank_of_mem_keyed s hmem
      have hsame : postRank s e.2 = postRank s { cls := c } := by unfold postRank; rw [hcls]
      have hlt : postRank s { cls := c } < 5 := by
        cases c with
        | bulk p g =>
          have hp : s.serves p = true := by
            by_contra h
            exact hlast ⟨p, g, rfl, by simpa using h⟩
          exact (if_pos hp).trans_lt (by decide)
        | _ => exact show (_ : Nat) < 5 by simp [postRank]
      omega
    exact List.pairwise_of_forall_mem_list (fun a ha b hb => ((hconst a ha).trans (hconst b hb).symm).le)

/-! ### The postings in the order of the link -/

section
variable (xs : List Posting)

theorem perm_linkOrder : (s.linkOrder xs).Perm xs := by
  have := (perm_inOrder (keyed s xs)).map Prod.snd
  rwa [map_snd_keyed] at this

/-- The ranks do not fall along what goes out. -/
theorem ranksRise_linkOrder : (s.linkOrder xs).Pairwise (fun x y => postRank s x ≤ postRank s y) := by
  rw [linkOrder_eq]
  refine List.pairwise_map.mpr ((keysRise_inOrder (keyed s xs)).imp_of_mem (fun {a b} ha hb hab => ?_))
  rw [rank_of_mem_keyed s ((perm_inOrder _).mem_iff.mp ha), rank_of_mem_keyed s ((perm_inOrder _).mem_iff.mp hb)]
  omega

/-- Postings of one class keep their order. -/
theorem filter_class_linkOrder (c : ReiloClass) : (s.linkOrder xs).filter (fun x => x.cls == c) = xs.filter (fun x => x.cls == c) := by
  have hkeep := filter_inOrder (fun e => e.2.cls == c) (keysRise_of_class s c xs)
  have hsnd : ∀ l : List (Nat × Posting), (l.map Prod.snd).filter (fun x => x.cls == c) = (l.filter (fun e => e.2.cls == c)).map Prod.snd :=
    fun l => List.filter_map
  rw [linkOrder_eq, hsnd, hkeep, ← hsnd, map_snd_keyed]

/-- The key of a posting of field `f` is its turn among those of the field. -/
theorem key_of_split {f : Nat} {pre post : List (Nat × Posting)} {e : Nat × Posting} (hsplit : inOrder (keyed s xs) = pre ++ e :: post)
    (he : ofField s f e.2 = true) : e.1 = 5 + 65 * pre.countP (fun e => ofField s f e.2) + min f 64 := by
  have hkeys := keys_of_field s f xs
  rw [← filter_inOrder _ (keysRise_of_field s f xs), hsplit, List.filter_append,
    List.filter_cons_of_pos (p := fun e : Nat × Posting => ofField s f e.2) he, List.map_append, List.map_cons] at hkeys
  have hlen : pre.countP (fun e => ofField s f e.2) = ((pre.filter (fun e => ofField s f e.2)).map Prod.fst).length := by
    rw [List.length_map, List.countP_eq_length_filter]
  have hget := congrArg (fun l => l[pre.countP (fun e => ofField s f e.2)]?) hkeys
  rw [List.getElem?_append_right hlen.ge, hlen, Nat.sub_self, List.getElem?_cons_zero, ← hlen, List.getElem?_map] at hget
  obtain ⟨i, hi, hturn⟩ := Option.map_eq_some_iff.mp hget.symm
  obtain ⟨hlt, rfl⟩ := List.getElem?_eq_some_iff.mp hi
  rw [← hturn, List.getElem_range]

theorem exists_last_of_countP_pos {α : Type} {p : α → Bool} {l : List α} (h : 0 < l.countP p) :
    ∃ a e b, l = a ++ e :: b ∧ p e = true ∧ l.countP p = a.countP p + 1 := by
  induction l using List.reverseRecOn with
  | nil => exact absurd h (Nat.lt_irrefl 0)
  | append_singleton l x ih =>
    by_cases hx : p x = true
    · exact ⟨l, x, [], rfl, hx, by simp [List.countP_append, hx]⟩
    · have hsame : (l ++ [x]).countP p = l.countP p := by simp [List.countP_append, hx]
      obtain ⟨a, e, b, hl, he, hcount⟩ := ih (hsame ▸ h)
      exact ⟨a, e, b ++ [x], by simp [hl], he, hsame.trans hcount⟩

/-- The fields take turns: before a posting of field `f` no field had two turns more, and one that still has postings had none less. -/
theorem turns_inOrder {f g : Nat} {pre post : List (Nat × Posting)} {x : Nat × Posting} (hsplit : inOrder (keyed s xs) = pre ++ x :: post)
    (hx : ofField s f x.2 = true) :
    pre.countP (fun e => ofField s g e.2) ≤ pre.countP (fun e => ofField s f e.2) + 1 ∧
      (post.any (fun e => ofField s g e.2) = true → pre.countP (fun e => ofField s f e.2) ≤ pre.countP (fun e => ofField s g e.2)) := by
  have hrise := keysRise_inOrder (keyed s xs)
  rw [hsplit] at hrise
  obtain ⟨-, hxpost, hcross⟩ := List.pairwise_append.mp hrise
  have hkey := key_of_split s xs hsplit hx
  constructor
  · by_cases hnone : pre.countP (fun e => ofField s g e.2) = 0
    · omega
    · obtain ⟨a, e, b, rfl, he, hcount⟩ := exists_last_of_countP_pos (Nat.pos_of_ne_zero hnone)
      have hkeyE := key_of_split s xs (pre := a) (post := b ++ x :: post) (e := e) (by rw [hsplit]; simp) he
      have hle := hcross e (by simp) x (by simp)
      omega
  · intro hany
    by_cases hxg : ofField s g x.2 = true
    · have hkeyG := key_of_split s xs hsplit hxg
      omega
    · obtain ⟨e, hfirst⟩ := Option.isSome_iff_exists.mp ((List.find?_isSome.trans List.any_eq_true.symm).mpr hany)
      obtain ⟨he, a, b, rfl, hbefore⟩ := List.find?_eq_some_iff_append.mp hfirst
      have hnone : a.countP (fun e => ofField s g e.2) = 0 := List.countP_eq_zero.mpr (fun y hy => by simpa using hbefore y hy)
      have hkeyE := key_of_split s xs (pre := pre ++ x :: a) (post := b) (e := e) (by rw [hsplit]; simp) he
      have hle := List.rel_of_pairwise_cons hxpost (show e ∈ a ++ e :: b by simp)
      rw [List.countP_append, List.countP_cons_of_neg (p := fun e : Nat × Posting => ofField s g e.2) hxg, hnone] at hkeyE
      omega

theorem turns_linkOrder {f : Nat} {pre post : List Posting} {x : Posting} (hsplit : s.linkOrder xs = pre ++ x :: post)
    (hx : ofField s f x = true) (g : Nat) : pre.countP (ofField s g) ≤ pre.countP (ofField s f) + 1 ∧
      (post.any (ofField s g) = true → pre.countP (ofField s f) ≤ pre.countP (ofField s g)) := by
  rw [linkOrder_eq] at hsplit
  obtain ⟨pre', rest, hparts, rfl, hrest⟩ := List.map_eq_append_iff.mp hsplit
  obtain ⟨e, post', rfl, rfl, rfl⟩ := List.map_eq_cons_iff.mp hrest
  have := turns_inOrder s xs (g := g) hparts hx
  rw [List.countP_map, List.countP_map, List.any_map]
  exact this

end

end

/-! ### What a returning link does with them (R473, R474) -/

section
variable {s : State}

/-- Host memory with the bytes of the postings laid down in turn. -/
def laidDown (m : Memory) (ys : List Posting) : Memory :=
  ys.foldl (fun m y => match y.data with | some d => memWriteBytes m d.1 d.2 | none => m) m

theorem forAll_handOver (ys : List Posting) (s : State) :
    s.forAll ys State.handOver = { s with hostMem := laidDown s.hostMem ys, outbox := s.outbox ++ ys.filterMap (fun y => y.msg) } := by
  unfold State.forAll
  induction ys generalizing s with
  | nil => rw [List.filterMap_nil, List.append_nil]; rfl
  | cons y ys ih =>
    rw [List.foldl_cons, ih]
    unfold State.handOver
    have hout : s.outbox ++ y.msg.toList ++ ys.filterMap (fun y => y.msg) = s.outbox ++ (y :: ys).filterMap (fun y => y.msg) := by
      cases hmsg : y.msg with
      | none => simp [hmsg]
      | some m => simp [hmsg]
    dsimp only
    rw [hout]
    rfl

/-- What goes out last, behind the completions. -/
def isBulk (x : Posting) : Bool := match x.cls with | .shutter | .bulk _ _ => true | _ => false

theorem isBulk_iff (x : Posting) : isBulk x = true ↔ 3 ≤ postRank s x := by
  obtain ⟨cls, data, msg⟩ := x
  cases cls with
  | bulk p f =>
    have hrank : 3 ≤ postRank s { cls := .bulk p f, data := data, msg := msg } := by
      show 3 ≤ if s.serves p then 4 else 5
      split <;> decide
    exact iff_of_true rfl hrank
  | shutter => exact iff_of_true rfl (le_refl 3)
  | sideband => exact iff_of_false Bool.false_ne_true (Nat.not_succ_le_zero 2)
  | register => exact iff_of_false Bool.false_ne_true (by simp [postRank])
  | ring => exact iff_of_false Bool.false_ne_true (by simp [postRank])

/-- What goes out first stands first. -/
theorem split_at_bulk {xs : List Posting} (h : xs.Pairwise (fun x y => postRank s x ≤ postRank s y)) :
    xs = xs.filter (fun x => !isBulk x) ++ xs.filter isBulk := by
  induction xs with
  | nil => rfl
  | cons x xs ih =>
    obtain ⟨hx, hxs⟩ := List.pairwise_cons.mp h
    by_cases hbulk : isBulk x = true
    · have hall : ∀ y ∈ x :: xs, isBulk y = true := fun y hy => by
        rcases List.mem_cons.mp hy with rfl | hy
        · exact hbulk
        · exact (isBulk_iff y).mpr (((isBulk_iff (s := s) x).mp hbulk).trans (hx y hy))
      rw [List.filter_eq_self.mpr hall, List.filter_eq_nil_iff.mpr (fun y hy => by simp [hall y hy])]
      rfl
    · rw [List.filter_cons_of_pos (by simp [hbulk]), List.filter_cons_of_neg hbulk, List.cons_append, ← ih hxs]

/-- The link with nothing held, what goes first sent, and the completions that are ready posted. -/
def beforeBulk (s : State) (ys : List Posting) : State :=
  State.postReady { s with
    host := { s.host with held := [] }, hostMem := laidDown s.hostMem ys, outbox := s.outbox ++ ys.filterMap (fun y => y.msg) }

theorem release_eq {ys zs : List Posting} (hys : ys = (s.linkOrder s.host.held).filter (fun x => !isBulk x))
    (hzs : zs = (s.linkOrder s.host.held).filter isBulk) :
    s.release = { beforeBulk s ys with
      hostMem := laidDown (beforeBulk s ys).hostMem zs, outbox := (beforeBulk s ys).outbox ++ zs.filterMap (fun z => z.msg) } := by
  have hform : s.release = (((s.modHost (fun h => { h with held := [] })).forAll ys State.handOver).postReady).forAll zs State.handOver := by
    rw [hys, hzs]
    rfl
  rw [hform, forAll_handOver, forAll_handOver]
  rfl

theorem exec_reiloLinkUp_of_rail (n : Nat) (hrail : s.power.pgCtl = true) :
    exec (.reiloLinkUp n) s = .next (State.release { s with host := { s.host with state := 2, lanesOk := min n 16 } }) :=
  if_pos hrail

theorem exec_reiloSilence_eq : exec .reiloSilence s =
    .next (if s.host.state = 2 then { s with host := { s.host with state := 1, downSeen := true } } else s) := by
  by_cases hup : s.host.state = 2
  · rw [if_pos hup]
    exact if_pos hup
  · rw [if_neg hup]
    exact if_neg hup

/-- A returning link carries what it held in the order of R474, the ready completions before BULK. -/
theorem reiloLinkUp_spec (n : Nat) (hrail : s.power.pgCtl = true) : ∃ (t u : State) (xs ys zs : List Posting),
    exec (.reiloLinkUp n) s = .next t ∧ xs = ys ++ zs ∧ xs.Perm s.host.held ∧ (∀ y ∈ ys, postRank s y ≤ 2) ∧ (∀ z ∈ zs, 3 ≤ postRank s z) ∧
      u = State.postReady { s with
        host := { s.host with state := 2, lanesOk := min n 16, held := [] }, hostMem := laidDown s.hostMem ys,
        outbox := s.outbox ++ ys.filterMap (fun y => y.msg) } ∧
      t = { u with hostMem := laidDown u.hostMem zs, outbox := u.outbox ++ zs.filterMap (fun z => z.msg) } ∧
      xs.Pairwise (fun x y => postRank s x ≤ postRank s y) ∧
      (∀ c, xs.filter (fun x => x.cls == c) = s.host.held.filter (fun x => x.cls == c)) ∧
      (∀ pre x post, xs = pre ++ x :: post → ∀ f, ofField s f x = true →
        ∀ g, pre.countP (ofField s g) ≤ pre.countP (ofField s f) + 1 ∧
          (post.any (ofField s g) = true → pre.countP (ofField s f) ≤ pre.countP (ofField s g))) := by
  have hrise := ranksRise_linkOrder s s.host.held
  refine ⟨_, _, s.linkOrder s.host.held, (s.linkOrder s.host.held).filter (fun x => !isBulk x), (s.linkOrder s.host.held).filter isBulk,
    exec_reiloLinkUp_of_rail n hrail, split_at_bulk hrise, perm_linkOrder s _, fun y hy => ?_, fun z hz => ?_, rfl, release_eq rfl rfl, hrise,
    filter_class_linkOrder s _, fun pre x post hsplit f hx g => turns_linkOrder s _ hsplit hx g⟩
  · have hno : isBulk y = false := by simpa using (List.mem_filter.mp hy).2
    by_contra hlt
    exact Bool.false_ne_true (hno.symm.trans ((isBulk_iff y).mpr (Nat.lt_of_not_le hlt)))
  · exact (isBulk_iff z).mp (List.mem_filter.mp hz).2

/-! ### Reset (R534, R540) -/

theorem exec_reset_of_rail (hrail : s.power.pgCtl = true) : exec .reset s = .next (s.afterReset.startBoot) :=
  if_pos hrail

theorem reset_spec (hrail : s.power.pgCtl = true) : ∃ t, exec .reset s = .next t ∧ t.fuses = s.fuses ∧ t.power.phase = 1 ∧ t.power.state = 0 ∧
    t.power.req = none ∧ t.power.pgCtl = true ∧ t.power.pgDram = s.power.pgDram ∧ t.power.pgCore = s.power.pgCore ∧ t.sec.waiting = true ∧
    t.sec.count = 1 ∧ (∀ a, memRead t.mem a = if a < 2 ^ 43 then memRead s.mem a else blankByte) ∧ t.hostMem = s.hostMem ∧
    t.host = { held := [{ cls := .ring, msg := some (.irq 0) }] } ∧ t.parts = [] ∧ t.place = {} ∧ t.tiles = [] ∧ t.chk = [] ∧ t.fab = {} ∧
    t.bcn = {} ∧ t.outer = {} ∧ t.mods = {} ∧ t.outbox = s.outbox ∧ t.pending = s.pending := by
  refine ⟨_, exec_reset_of_rail hrail, rfl, rfl, rfl, rfl, hrail, rfl, rfl, rfl, rfl, fun a => ?_, rfl, rfl, rfl, rfl, rfl, rfl, rfl, rfl, rfl, rfl, rfl, rfl⟩
  refine (memRead_filter s.mem (fun k => decide (k < 2 ^ 43)) a).trans ?_
  simp only [decide_eq_true_eq]

/-! ### The rails and the input (R534 to R537) -/

theorem setGood_good (p : Power) (r x : Fin 3) (b : Bool) : (p.setGood r b).good x = if x = r then b else p.good x := by
  fin_cases r <;> fin_cases x <;> rfl

theorem setGood_enabled (p : Power) (r x : Fin 3) (b : Bool) : (p.setGood r b).enabled x = p.enabled x := by
  fin_cases r <;> fin_cases x <;> rfl

theorem setEnable_good (p : Power) (r x : Fin 3) (b : Bool) : (p.setEnable r b).good x = p.good x := by
  fin_cases r <;> fin_cases x <;> rfl

theorem setEnable_enabled (p : Power) (r x : Fin 3) (b : Bool) : (p.setEnable r b).enabled x = if x = r then b else p.enabled x := by
  fin_cases r <;> fin_cases x <;> rfl

/-- A power fault sets PWRFLT and posts its event. -/
theorem powerFault_spec (s : State) :
    s.powerFault = { s with host := s.powerFault.host, hostMem := s.powerFault.hostMem, outbox := s.powerFault.outbox,
                            power := { s.power with pwrflt := true } } := by
  unfold State.powerFault
  dsimp only
  split
  · have hev := (onlyEvents_event s 12 2 16 0 []).1
    generalize s.event 12 2 16 0 [] = t at *
    rw [hev]
  · rfl

theorem railGoodLost_spec (r : Fin 3) :
    ∃ t, exec (.railGoodLost r) s = .next t ∧ t = { s with host := t.host, hostMem := t.hostMem, outbox := t.outbox, power := t.power } ∧
      t.power.good r = false ∧ (∀ x : Fin 3, x ≠ r → t.power.good x = s.power.good x) ∧ (∀ x : Fin 3, t.power.enabled x = s.power.enabled x) ∧
      (s.power.enabled r = true → s.power.good r = true → ¬ (r = 2 ∧ s.power.railoffOk = true) → t.power.pwrflt = true) ∧
      (s.power.enabled r = false ∨ s.power.good r = false ∨ r = 2 ∧ s.power.railoffOk = true → t = { s with power := s.power.setGood r false }) := by
  have hprepared : s.power.prepared r = true ↔ r = 2 ∧ s.power.railoffOk = true := by
    fin_cases r <;> simp [Power.prepared]
  have hdown : ∀ x : Fin 3, (s.power.setGood r false).good x = if x = r then false else s.power.good x := fun x => setGood_good ..
  have hen : ∀ x : Fin 3, (s.power.setGood r false).enabled x = s.power.enabled x := fun x => setGood_enabled ..
  by_cases hfault : s.power.enabled r && s.power.good r && !s.power.prepared r
  · have hspec := powerFault_spec { s with power := s.power.setGood r false }
    have hexec : exec (.railGoodLost r) s = .next (State.powerFault { s with power := s.power.setGood r false }) := if_pos hfault
    generalize State.powerFault { s with power := s.power.setGood r false } = t at *
    simp only [Bool.and_eq_true, Bool.not_eq_true'] at hfault
    obtain ⟨⟨henabled, hgood⟩, hno⟩ := hfault
    have hpower : t.power = { s.power.setGood r false with pwrflt := true } := by rw [hspec]
    have hgood' : ∀ x : Fin 3, t.power.good x = (s.power.setGood r false).good x := fun x => by rw [hpower]; fin_cases x <;> rfl
    have hen' : ∀ x : Fin 3, t.power.enabled x = (s.power.setGood r false).enabled x := fun x => by rw [hpower]; fin_cases x <;> rfl
    refine ⟨t, hexec, by rw [hspec], ?_, fun x hx => ?_, fun x => (hen' x).trans (hen x), fun _ _ _ => by rw [hpower], fun h => ?_⟩
    · rw [hgood', hdown, if_pos rfl]
    · rw [hgood', hdown, if_neg hx]
    · rcases h with h | h | h
      · exact absurd (henabled.symm.trans h) (by decide)
      · exact absurd (hgood.symm.trans h) (by decide)
      · exact absurd ((hprepared.mpr h).symm.trans hno) (by decide)
  · refine ⟨_, if_neg hfault, rfl, (hdown r).trans (if_pos rfl), fun x hx => (hdown x).trans (if_neg hx), hen, fun henabled hgood hno => ?_, fun _ => rfl⟩
    refine absurd ?_ hfault
    simp only [henabled, hgood, Bool.true_and, Bool.not_eq_true']
    exact Bool.eq_false_iff.mpr (fun h => hno (hprepared.mp h))

theorem railEnableRemoved_core (hok : s.power.railoffOk = true) :
    exec (.railEnableRemoved 2) s = .next { s with power := { s.power with penCore := false, pgCore := false } } := by
  refine (if_neg ?_).trans rfl
  rw [Bool.and_eq_true, Bool.not_eq_true']
  exact fun h => Bool.false_ne_true (h.2.symm.trans hok)

theorem railEnableRemoved_dram (hen : s.power.penDram = true) : ∃ t, exec (.railEnableRemoved 1) s = .next t ∧
    t = { s with host := t.host, hostMem := t.hostMem, outbox := t.outbox, power := t.power } ∧
      t.power = { s.power with penDram := false, pgDram := false, pwrflt := true } := by
  have hspec := powerFault_spec s
  have hexec : exec (.railEnableRemoved 1) s = .next { s.powerFault with power := { s.power with penDram := false, pgDram := false, pwrflt := true } } := by
    refine (if_pos ?_).trans rfl
    show (s.power.penDram && !s.power.prepared 1) = true
    rw [hen]
    rfl
  generalize s.powerFault = t at *
  refine ⟨_, hexec, ?_, rfl⟩
  rw [hspec]

theorem railEnableAsserted_spec (r : Fin 3) : ∃ t, exec (.railEnableAsserted r) s = .next t ∧ t = { s with power := t.power, fresh := s.fresh + 1 } ∧
    t.power.enabled r = true ∧ t.power.good r = true ∧
    (∀ x : Fin 3, x ≠ r → t.power.enabled x = s.power.enabled x ∧ t.power.good x = s.power.good x) ∧
    (r = 2 → t.power.railoffOk = false) ∧ (r = 0 → t.power.on = true) := by
  refine ⟨_, rfl, rfl, ?_, ?_, fun x hx => ?_, ?_, ?_⟩
  · fin_cases r <;> rfl
  · fin_cases r <;> rfl
  · have hgood := (setGood_good (s.power.setEnable r true) r x true).trans (if_neg hx)
    have hen := (setGood_enabled (s.power.setEnable r true) r x true).trans ((setEnable_enabled s.power r x true).trans (if_neg hx))
    rw [setEnable_good] at hgood
    fin_cases x <;> exact ⟨hen, hgood⟩
  · rintro rfl
    exact Bool.and_false _
  · rintro rfl
    exact Bool.or_true _

theorem inputOutOfRange_spec : ∃ t, exec .inputOutOfRange s = .next t ∧ t.power.pwrflt = true ∧
    t = { s with host := t.host, hostMem := t.hostMem, outbox := t.outbox, power := t.power, fresh := s.fresh + 1 } ∧
    t.power = { s.power with pwrflt := true, vin := t.power.vin, pin := t.power.pin } := by
  have hspec := powerFault_spec s.sampleInput
  refine ⟨_, rfl, ?_⟩
  generalize s.sampleInput.powerFault = t at *
  have hpower : t.power = { s.sampleInput.power with pwrflt := true } := by rw [hspec]
  refine ⟨by rw [hpower], ?_, by rw [hpower]; rfl⟩
  rw [hspec]
  rfl

end

/-- Settles O46: each row by the lemma of its own; what a returning link sends is the held postings put in the order of their keys, whose ranks and
turns the keys tell. -/
theorem railsResetAndTheReiloLink : Obligations.RailsResetAndTheReiloLink := by
  unfold Obligations.RailsResetAndTheReiloLink
  refine ⟨fun s => reset_spec, fun s hrail => if_neg (by simp [hrail]), fun s r => railGoodLost_spec r,
    fun s => ⟨railEnableRemoved_core, railEnableRemoved_dram, ⟨_, rfl, rfl, rfl, rfl, rfl, rfl, rfl, rfl, rfl, rfl, rfl, rfl, rfl⟩⟩,
    fun s r => railEnableAsserted_spec r, fun s => inputOutOfRange_spec, fun s hen => if_pos hen,
    fun s => ⟨_, rfl, rfl, rfl, rfl, rfl, rfl, rfl, rfl, rfl, rfl, rfl, rfl, rfl⟩, fun s => exec_reiloSilence_eq,
    fun s n => exec_reiloLinkUp_of_rail n, fun s x => rfl, fun s a b => rfl, fun s n hrail => ?linkUp⟩
  case linkUp => exact reiloLinkUp_spec n hrail

end Sys2Proof.Proofs
end

section
/-! PROOFS. EVAL_SLOT that comes while the module is RECOVERING, over a ring that is shut both ways. -/

namespace Sys2Proof.Proofs

open Sys2Proof.Machine Sys2Proof.Laws

/-- A collective of the training partition that waits to be reissued. -/
def waitingBarrier : OutCmd :=
  { uid := 0, hdr := plainHdr 1 0, part := 0, body := .collective 6 barrier0, phase := .running, deferred := true }

/-- Module 0 of a ring of three whose ports are all down, after the COMMIT of step 0 and RECOVERING: the clause about EVAL_SLOT names neither
RECOVERING nor, as those about STEP_BEGIN and the marks do, the ways to the members. -/
def shutRing : State := { plainState with
  place := { placed := true }
  bcn := { phase := 0xF000, recovering := true }
  blob := { dimX := 3, wrap := 1, members := [⟨0, 0, 0, 0⟩, ⟨1, 1, 0, 0⟩, ⟨2, 2, 0, 0⟩] }
  host := { plainHost with cmds := [waitingBarrier] }
  fab := { groups := [(0, { members := [0, 1], part := 0 })] } }

/-- The collective is reissued, its signature finds both ways of the ring shut, and the fault aborts the step: the position is at STEP_BEGIN. -/
theorem phase_evalSlotDelivery_shutRing :
    (nextOf (exec (.evalSlotDelivery 0) shutRing)).map (fun t => t.bcn.phase) = some 0 := by decide +kernel

/-- Refutes O48: the collective that EVAL_SLOT reissues can abort a step that is being recovered, and the position then leaves EVAL_SLOT. -/
theorem not_stepCycleRowsAdvanceTheStep : ¬ Obligations.StepCycleRowsAdvanceTheStep := by
  unfold Obligations.StepCycleRowsAdvanceTheStep
  intro hall
  obtain ⟨-, -, -, -, -, -, -, -, -, hevalSlot, -⟩ := hall
  obtain ⟨t, hnext, hphase, -⟩ := hevalSlot shutRing rfl rfl (by decide)
  have hzero := phase_evalSlotDelivery_shutRing
  rw [show exec (.evalSlotDelivery 0) shutRing = .next t from hnext] at hzero
  exact absurd (hphase.symm.trans (Option.some.inj hzero)) (by decide)

end Sys2Proof.Proofs
end

section
/-! PROOFS. The layout of frames of the fabric and of flare frames (R308, R345). -/

namespace Sys2Proof.Proofs

open Sys2Proof.Machine Sys2Proof.Laws

/-! ### Numbers inside bytes -/

theorem bytesAt_leBytes_zero (n v : Nat) (ys : List Byte) : bytesAt (leBytes n v ++ ys) 0 n = v % 256 ^ n := by
  rw [bytesAt, List.drop_zero, List.take_left' (length_leBytes n v), leNat_leBytes_mod]

theorem drop_leBytes {k o : Nat} (v : Nat) (ys : List Byte) (h : k ≤ o) : (leBytes k v ++ ys).drop o = ys.drop (o - k) := by
  rw [List.drop_append, List.drop_eq_nil_of_le ((length_leBytes k v).trans_le h), length_leBytes, List.nil_append]

theorem bytesAt_leBytes_later {k o : Nat} (v n : Nat) (ys : List Byte) (h : k ≤ o) : bytesAt (leBytes k v ++ ys) o n = bytesAt ys (o - k) n := by
  rw [bytesAt, drop_leBytes v ys h]
  rfl

/-! ### Frames of the fabric -/

section
variable (f : FabFrame)

theorem length_fabHeader : (fabHeader f).length = 28 := by
  simp only [fabHeader, List.length_append, length_leBytes]

/-- The words of a frame's header, its sequence number, its argument and its payload. -/
theorem fabBytes_words :
    bytesAt (fabBytes f) 0 2 = (f.lseq + f.vl * 2 ^ 12 + f.typ * 2 ^ 14) % 2 ^ 16 ∧ bytesAt (fabBytes f) 2 2 = (f.ack + b2n f.nak * 2 ^ 12) % 2 ^ 16 ∧
      bytesAt (fabBytes f) 4 2 = (f.credit + f.cvl * 2 ^ 12) % 2 ^ 16 ∧ bytesAt (fabBytes f) 6 2 = (f.dest + f.dirlock * 2 ^ 10) % 2 ^ 16 ∧
      bytesAt (fabBytes f) 8 2 = f.src % 2 ^ 16 ∧ bytesAt (fabBytes f) 10 2 = f.flow % 2 ^ 16 ∧ bytesAt (fabBytes f) 12 2 = f.epoch % 2 ^ 16 ∧
      bytesAt (fabBytes f) 14 2 = (f.payload.length + f.kind * 2 ^ 10) % 2 ^ 16 ∧ bytesAt (fabBytes f) 16 4 = f.fseq % 2 ^ 32 ∧
      bytesAt (fabBytes f) 20 8 = f.arg % 2 ^ 64 ∧ (fabBytes f).drop 28 = f.payload := by
  have hshape : fabBytes f = leBytes 2 (packBits [(0, f.lseq), (12, f.vl), (14, f.typ)]) ++ (leBytes 2 (packBits [(0, f.ack), (12, b2n f.nak)]) ++
      (leBytes 2 (packBits [(0, f.credit), (12, f.cvl)]) ++ (leBytes 2 (packBits [(0, f.dest), (10, f.dirlock)]) ++ (leBytes 2 f.src ++
      (leBytes 2 f.flow ++ (leBytes 2 f.epoch ++ (leBytes 2 (packBits [(0, f.payload.length), (10, f.kind)]) ++ (leBytes 4 f.fseq ++
      (leBytes 8 f.arg ++ f.payload))))))))) := by
    simp only [fabBytes, fabHeader, List.append_assoc]
  rw [hshape]
  simp [bytesAt_leBytes_zero, bytesAt_leBytes_later, drop_leBytes, packBits_cons, packBits_nil, Nat.add_assoc]

theorem testBit_twelve (a : Nat) (b : Bool) (ha : a < 4096) : ((a + b2n b * 2 ^ 12) % 2 ^ 16).testBit 12 = b := by
  rw [Nat.testBit_eq_decide_div_mod_eq]
  cases b <;> simp [b2n] <;> omega

/-- A frame that fits R308 reads back from its bytes. -/
theorem fabOf_fabBytes {f : FabFrame} (hwf : FabFrame.wf f = true) : fabOf (fabBytes f) = some f := by
  obtain ⟨hw0, hw2, hw4, hw6, hw8, hw10, hw12, hw14, hfseq, harg, hpayload⟩ := fabBytes_words f
  have hlen : (fabBytes f).length = 28 + f.payload.length := by rw [fabBytes, List.length_append, length_fabHeader]
  simp only [FabFrame.wf, Bool.and_eq_true, decide_eq_true_eq] at hwf
  obtain ⟨⟨⟨⟨⟨⟨⟨⟨⟨⟨⟨⟨⟨⟨⟨hlseq, hvl⟩, htyp⟩, hack⟩, hcredit⟩, hcvl⟩, hdest⟩, hdirlock⟩, hsrc⟩, hflow⟩, hepoch⟩, hkind⟩, hfs⟩, hargb⟩, hplen⟩, hlane⟩ := hwf
  have hlen14 : bytesAt (fabBytes f) 14 2 % 1024 = f.payload.length := by rw [hw14]; omega
  have hvl0 : bytesAt (fabBytes f) 0 2 / 2 ^ 12 % 4 = f.vl := by rw [hw0]; omega
  have hlegal : ((fabBytes f).length = 28 + bytesAt (fabBytes f) 14 2 % 1024 ∧ bytesAt (fabBytes f) 14 2 % 1024 ≤ 512) ∧
      (bytesAt (fabBytes f) 0 2 / 2 ^ 12 % 4 = 0 ∨ bytesAt (fabBytes f) 14 2 % 1024 % 64 = 0) := by
    rw [hlen14, hvl0]
    refine ⟨⟨hlen, hplen⟩, ?_⟩
    by_cases hz : f.vl = 0
    · exact Or.inl hz
    · rw [if_neg hz] at hlane
      exact Or.inr (by simpa using hlane)
  have hnak := testBit_twelve f.ack f.nak hack
  unfold fabOf
  dsimp only
  rw [if_pos (by simpa using hlegal), hw0, hw2, hw4, hw6, hw8, hw10, hw12, hw14, hfseq, harg, hpayload, hnak]
  obtain ⟨lseq, vl, typ, ack, nak, credit, cvl, dest, dirlock, src, flow, epoch, kind, fseq, arg, payload⟩ := f
  dsimp only at *
  have hb : b2n nak ≤ 1 := by cases nak <;> decide
  simp only [Option.some.injEq, FabFrame.mk.injEq]
  refine ⟨?_, ?_, ?_, ?_, trivial, ?_, ?_, ?_, ?_, ?_, ?_, ?_, ?_, ?_, ?_, trivial⟩ <;> omega

end

/-! ### Flare frames (R345) -/

theorem flareArg_eq (f : FlareFrame) :
    flareArg f = f.op + f.key * 2 ^ 8 + f.index * 2 ^ 16 + f.step / 2 ^ 32 * 2 ^ 32 + f.attempt * 2 ^ 48 := by
  simp [flareArg, packBits_cons, packBits_nil, Nat.add_assoc]

/-- A flare frame that fits R345 reads back from the frame of VL0 that carries it, which fits R308. -/
theorem flareFab_spec (f : FlareFrame) (a b : Nat) (hwf : FlareFrame.wf f = true) :
    flareOf (flareFab a b f) = f ∧ flareArg f < 2 ^ 64 ∧ (flareFab a b f).vl = 0 ∧ (a < 1024 → b < 1024 → FabFrame.wf (flareFab a b f) = true) := by
  simp only [FlareFrame.wf, Bool.and_eq_true, decide_eq_true_eq, beq_iff_eq] at hwf
  obtain ⟨⟨⟨⟨⟨⟨hop, hkey⟩, hindex⟩, hstep⟩, hattempt⟩, hlen⟩, hwords⟩ := hwf
  have harg := flareArg_eq f
  have hbound : flareArg f < 2 ^ 64 := by rw [harg]; omega
  refine ⟨?_, hbound, rfl, fun ha hb => ?_⟩
  · unfold flareOf flareFab
    dsimp only
    rw [harg]
    obtain ⟨op, key, index, step, attempt, payload⟩ := f
    dsimp only at *
    simp only [FlareFrame.mk.injEq]
    refine ⟨?_, ?_, ?_, ?_, ?_, trivial⟩ <;> omega
  · have hfseq : f.step % 2 ^ 32 < 2 ^ 32 := Nat.mod_lt _ (by decide)
    have hshort : f.payload.length ≤ 512 := by omega
    simp [FabFrame.wf, flareFab, ha, hb, hlen, hwords, hshort]
    exact ⟨decide_eq_true hfseq, decide_eq_true hbound⟩

end Sys2Proof.Proofs
end

section
/-! PROOFS. Flare frames, and the floods of ABORT and FENCE. -/

namespace Sys2Proof.Proofs

open Sys2Proof.Machine Sys2Proof.Laws

/-! ### What goes out changes ports and outbox (R309 to R311) -/

/-- Nothing but the ports and the outbox has changed. -/
def OnlySends (s t : State) : Prop := t = { s with fab := { s.fab with ports := t.fab.ports }, outbox := t.outbox }

theorem OnlySends.refl (s : State) : OnlySends s s := rfl

theorem OnlySends.trans {s t u : State} (h : OnlySends s t) (k : OnlySends t u) : OnlySends s u := by
  unfold OnlySends at *
  rw [k, h]

theorem onlySends_linkSend (s : State) (p : Nat) (f : FabFrame) : OnlySends s (s.linkSend p f) := by
  obtain ⟨ps, ob, h⟩ := linkSend_eq s p f
  rw [h]
  rfl

theorem onlySends_forAll {α : Type} (xs : List α) (g : State → α → State) (hg : ∀ s x, OnlySends s (g s x)) (s : State) : OnlySends s (s.forAll xs g) :=
  forAll_keeps (OnlySends s) xs g (fun t x _ h => h.trans (hg t x)) s (OnlySends.refl s)

theorem onlySends_flareAll (ps : List Nat) (f : FlareFrame) (s : State) : OnlySends s (s.forAll ps (fun s p => s.flareSend p f)) :=
  onlySends_forAll ps _ (fun s p => onlySends_linkSend s p _) s

theorem onlySends_floodFrom (e : Option Nat) (f : FlareFrame) (s : State) : OnlySends s (s.floodFrom e f) := onlySends_flareAll _ f s

theorem onlySends_passAll (ps : List Nat) (f : FabFrame) (s : State) : OnlySends s (s.forAll ps (fun s p => s.flarePass p f)) :=
  onlySends_forAll ps _ (fun s p => onlySends_linkSend s p _) s

/-- A flood goes out as it would with another step line. -/
theorem floodFrom_modBcn (g : Beacon → Beacon) (e : Option Nat) (f : FlareFrame) (s : State) :
    (s.modBcn g).floodFrom e f = { s.floodFrom e f with bcn := g s.bcn } :=
  forAll_withLine (g s.bcn) s.host s _ _ (fun t p => flareSend_withLine (g s.bcn) s.host t p f) |>.trans (by
    have honly := onlySends_floodFrom e f s
    show withLine (g s.bcn) s.host (s.floodFrom e f) = _
    unfold withLine
    rw [honly])

/-! ### What an accepted frame does to its port -/

section
variable {s : State} {p : Nat}

theorem pump_rxNext (ahead : FabFrame → Bool) (n : Nat) (x : FabPort) : (FabPort.pump ahead n x).1.rxNext = x.rxNext := by
  induction n generalizing x with
  | zero => rfl
  | succ n ih =>
    unfold FabPort.pump
    split
    · exact ih _
    · rfl

theorem pumpZero_rxNext (n : Nat) (x : FabPort) : (FabPort.pumpZero n x).1.rxNext = x.rxNext := by
  induction n generalizing x with
  | zero => rfl
  | succ n ih =>
    unfold FabPort.pumpZero
    split
    · exact ih _
    · rfl

/-- The attempt of the step line and the next frame that a port expects. -/
def expects (s : State) (p : Nat) : Nat × Nat := (s.bcn.attempt, (s.port p).rxNext)

theorem expects_modPort (g : FabPort → FabPort) (hg : ∀ x, (g x).rxNext = x.rxNext) : expects (s.modPort p g) p = expects s p := by
  refine Prod.ext rfl ?_
  show ((s.modPort p g).port p).rxNext = _
  rw [modPort_port, if_pos rfl]
  exact hg _

theorem expects_pumpPort : expects (s.pumpPort p) p = expects s p := by
  refine Prod.ext rfl ?_
  show ((s.modPort p fun _ => (FabPort.pump s.servesFrame (s.port p).wait.length (s.port p)).1).port p).rxNext = _
  rw [modPort_port, if_pos rfl]
  exact pump_rxNext ..

theorem expects_pumpFlare : expects (s.pumpFlare p) p = expects s p := by
  refine Prod.ext rfl ?_
  show ((s.modPort p fun _ => (FabPort.pumpZero (s.port p).wait.length (s.port p)).1).port p).rxNext = _
  rw [modPort_port, if_pos rfl]
  exact pumpZero_rxNext ..

theorem expects_replayPort : expects (s.replayPort p) p = expects s p := by
  unfold State.replayPort
  dsimp only
  split
  · rfl
  · exact expects_modPort (s := s)
      (fun x => { x with replaySeen := true, replays := satAdd 32 x.replays (s.port p).replay.length, tries := x.tries + 1 }) (fun _ => rfl)

theorem expects_portReturns : expects (s.portReturns p) p = expects s p := by
  unfold State.portReturns State.newDepth
  dsimp only
  split
  · rfl
  · split <;> exact expects_modPort (s := s) _ (fun _ => rfl)

theorem rxNext_acked (x : FabPort) (n : Nat) : (x.acked n).rxNext = x.rxNext := by
  unfold FabPort.acked
  split <;> rfl

theorem expects_linkFields (f : FabFrame) : expects (s.linkFields p f) p = expects s p := by
  have hfields : ∀ t : State, expects (t.modPort p (fun x => { x.acked f.ack with used := smapModify 0 x.used f.cvl (fun n => n - f.credit) })) p = expects t p :=
    fun t => expects_modPort _ (fun x => rxNext_acked x f.ack)
  unfold State.linkFields
  dsimp only
  split
  · rw [expects_pumpPort, expects_replayPort, expects_pumpFlare, hfields, expects_portReturns]
  · rw [expects_pumpPort, hfields, expects_portReturns]

/-- A frame whose LSEQ is the next expected one moves RX on (R309). -/
theorem linkAccept_spec {f : FabFrame} (hup : (s.port p).state = 2) (htyp : f.typ < 2) (hseq : f.lseq = (s.port p).rxNext) :
    (s.linkAccept p f).2 = true ∧ ((s.linkAccept p f).1.port p).rxNext = (f.lseq + 1) % 4096 ∧ ((s.linkAccept p f).1.port p).nakOut = false ∧
      (s.linkAccept p f).1.bcn.attempt = s.bcn.attempt := by
  have haccept : s.linkAccept p f = ((s.linkFields p f).modPort p (fun x => { x with
      rxNext := (x.rxNext + 1) % 4096, nakOut := false, owed := smapModify 0 x.owed f.vl (fun n => n + frameUnits f) }), true) := by
    unfold State.linkAccept
    rw [if_neg (by simp [hup]), if_neg (by omega), if_neg (by omega), if_neg (by simp [hseq])]
  obtain ⟨hattempt, hnext⟩ := Prod.mk.inj (expects_linkFields (s := s) (p := p) f)
  rw [haccept]
  refine ⟨rfl, ?_, ?_, hattempt⟩
  · rw [modPort_port, if_pos rfl, hseq, ← hnext]
  · rw [modPort_port, if_pos rfl]

/-- A frame that the link does not accept, or that a module without a place or another lane meets, has the link's effect alone. -/
theorem exec_flareFrameRx_of_refused {port : Fin 8} {f : FabFrame}
    (hno : f.lseq ≠ (s.port port).rxNext ∨ f.typ = 2 ∨ f.typ = 3 ∨ s.place.placed = false ∨ f.vl ≠ 0) :
    exec (.flareFrameRx port f) s = .next (s.linkAccept port f).1 := by
  refine if_neg (fun h => ?_)
  simp only [Bool.and_eq_true, decide_eq_true_eq] at h
  obtain ⟨⟨haccept, hvl⟩, hplaced⟩ := h
  unfold State.linkAccept at haccept
  split at haccept
  · exact Bool.false_ne_true haccept
  split at haccept
  · exact Bool.false_ne_true haccept
  next h3 =>
  split at haccept
  · exact Bool.false_ne_true haccept
  next h2 =>
  split at haccept
  · exact Bool.false_ne_true haccept
  next hseq =>
  rcases hno with h | h | h | h | h
  · exact hseq (bne_iff_ne.mpr h)
  · exact h2 h
  · exact h3 h
  · exact Bool.false_ne_true (h.symm.trans hplaced)
  · exact h hvl

theorem exec_flareFrameRx_of_down {port : Fin 8} {f : FabFrame} (hdown : (s.port port).state ≠ 2) : exec (.flareFrameRx port f) s = .next s := by
  have haccept : s.linkAccept port f = (s, false) := if_pos (bne_iff_ne.mpr hdown)
  show execFlareFrameRx port f s = _
  unfold execFlareFrameRx
  rw [haccept]
  rfl

end

/-! ### What an accepted flare frame does (R345, R347, R349) -/

section
variable {s : State} {port : Fin 8} {f : FabFrame} (hplaced : s.place.placed = true) (haccept : (s.linkAccept port f).2 = true) (hvl : f.vl = 0)
include hplaced haccept hvl

theorem exec_flareFrameRx_of_accepted (hkey : (flareOf f).key ≠ 9) :
    exec (.flareFrameRx port f) s = .next ((s.linkAccept port f).1.flareRx port (flareOf f)) := by
  refine (if_pos (by rw [haccept, hplaced, hvl]; rfl)).trans ?_
  rw [if_neg hkey]

theorem exec_flareFrameRx_of_barrier (hkey : (flareOf f).key = 9) :
    exec (.flareFrameRx port f) s = .next
      ((((s.linkAccept port f).1.barrierRx f).collDrain (flareOf f).index (((s.linkAccept port f).1.barrierRx f).fab.jobs.length + 1)).cgroupSweep) := by
  refine (if_pos (by rw [haccept, hplaced, hvl]; rfl)).trans ?_
  rw [if_pos hkey]

end

section
variable {r : State} {port : Nat} {g : FlareFrame}

theorem flareRx_of_broadcast (hop : g.op = 7) (hkey : g.key ≤ 10) :
    r.flareRx port g = (r.forAll r.children (fun s p => s.flareSend p g)).abandonIn g := by
  unfold State.flareRx
  rw [if_neg (by simp [hop]; omega), if_pos hop]

theorem abandonIn_of_other (hkey : g.key ≠ 7) : r.abandonIn g = r := by
  unfold State.abandonIn
  rw [if_neg (by simp [hkey]), if_neg (by simp [hkey])]

theorem abandonIn_of_stop (hkey : g.key = 7) (hindex : g.index = 0) : r.abandonIn g = { r with
    bcn := if r.bcn.begun = true ∨ r.bcn.phase = 0xF000 then { r.bcn with stopReq := true } else { r.bcn with running := false } } := by
  unfold State.abandonIn State.modBcn
  rw [if_neg (by simp [hindex]), if_pos (by simp [hkey, hindex])]
  simp only [Bool.or_eq_true, decide_eq_true_eq]

theorem abandonIn_of_abandon (hkey : g.key = 7) (hindex : g.index = 1 ∨ g.index = 2) : r.abandonIn g =
    if r.bcn.recovering = true ∧ g.step = r.bcn.step then r.abandonStep (if g.index = 1 then stAbStep else stAbShutter) else r := by
  unfold State.abandonIn
  by_cases hgive : r.bcn.recovering = true ∧ g.step = r.bcn.step
  · rw [if_pos hgive, if_pos (by simp [hkey, hindex, hgive])]
  · rw [if_neg hgive, if_neg (by simp [hkey, hindex]; exact fun h k => hgive ⟨h, k⟩), if_neg (by rcases hindex with h | h <;> simp [h])]

theorem flareRx_of_stale (hop : g.op ≤ 6) (hkey : g.key ≤ 8) (hstale : g.attempt ≠ r.bcn.attempt) :
    r.flareRx port g = { r with bcn := { r.bcn with staleSeen := true } } := by
  unfold State.flareRx
  rw [if_neg (by simp; omega), if_neg (by omega), if_neg (by omega), if_pos (bne_iff_ne.mpr hstale)]
  rfl

/-- The last child's contribution to a round whose own value is present goes to the parent, combined with it. -/
theorem flareRx_of_last_child {rd : FlareRound} {own : List Byte} {p : Nat} (hop : g.op ≤ 6) (hkey : g.key ≤ 5) (hattempt : g.attempt = r.bcn.attempt)
    (hchildren : r.children = [port]) (hkeeper : r.isKeeper = false) (hparent : r.parent = some p) (hrounds : r.bcn.rounds = [rd])
    (hwaits : r.bcn.waits = []) (hfor : rd.isFor g = true) (hown : rd.own = some own) (hkids : rd.kids = []) (hsent : rd.sent = false) :
    ∃ rs, r.flareRx port g = State.flareSend { r with bcn := { r.bcn with rounds := rs } } p { g with payload := flareCombine rd.op own g.payload } := by
  let rd1 : FlareRound := { rd with kids := smapSet rd.kids port g.payload }
  let r1 : State := { r with bcn := { r.bcn with rounds := [rd1] } }
  let r2 : State := { r with bcn := { r.bcn with rounds := [{ rd1 with sent := true }] } }
  have hrx : r.flareRx port g = r.takePart (some port) g := by
    unfold State.flareRx frameCombines
    rw [if_neg (by simp; omega), if_neg (by omega), if_neg (by omega), if_neg (by simp [hattempt]), if_neg (by simp [hkey]), if_neg (by simp [hchildren])]
  have hround : r.bcn.round g = rd := by simp [Beacon.round, hrounds, hfor]
  have hjoin : r.joinRound (some port) g = r1.tryRound g := by
    unfold State.joinRound State.modBcn Beacon.setRound
    dsimp only
    rw [hround, hrounds, List.filter_cons_of_neg (by simp [hfor])]
    rfl
  have hround1 : r1.bcn.round g = rd1 := by
    have hfor1 : rd1.isFor g = true := hfor
    show ([rd1].find? (fun r => r.isFor g)).getD _ = rd1
    rw [List.find?_cons_of_pos (by exact hfor1)]
    rfl
  have htotal : rd1.total r1.children = some (flareCombine rd.op own g.payload) := by
    have hc : r1.children = [port] := hchildren
    rw [hc]
    simp [FlareRound.total, rd1, hown, hkids, smapFind, smapSet, smapGet]
  have hset : r1.modBcn (fun b => b.setRound { rd1 with sent := true } g) = r2 := by
    show ({ r1 with bcn := { r1.bcn with rounds := [rd1].filter (fun x => !x.isFor g) ++ [{ rd1 with sent := true }] } } : State) = r2
    rw [List.filter_cons_of_neg (by simp [show rd1.isFor g = true from hfor])]
    rfl
  have htry : r1.tryRound g = r2.flareSend p { g with payload := flareCombine rd.op own g.payload } := by
    unfold State.tryRound
    dsimp only
    rw [hround1, htotal]
    dsimp only
    rw [if_neg (show ¬ r1.isKeeper = true by rw [show r1.isKeeper = false from hkeeper]; decide),
      if_neg (show ¬ rd1.sent = true by rw [show rd1.sent = false from hsent]; decide), show r1.parent = some p from hparent]
    dsimp only
    rw [hset]
  have hfill : ∀ t : State, t.bcn.waits = [] → t.fillRounds = t := fun t ht => by
    unfold State.fillRounds
    rw [ht]
    rfl
  have hsends := onlySends_linkSend r2 p (flareFab r2.place.moduleId (r2.port p).peerModule { g with payload := flareCombine rd.op own g.payload })
  refine ⟨[{ rd1 with sent := true }], ?_⟩
  rw [hrx, State.takePart, if_pos (by simp [Beacon.roundFree, hrounds]), hjoin, htry, hfill]
  show (r2.linkSend p _).bcn.waits = []
  rw [hsends]
  exact hwaits

/-! ### A BARRIER's frames (R324, R349) -/

theorem collDrain_of_none {t : State} {k n : Nat} (h : ∀ j ∈ t.fab.jobs, j.p.group ≠ k) : t.collDrain k n = t := by
  cases n with
  | zero => rfl
  | succ n =>
    unfold State.collDrain
    rw [List.find?_eq_none.mpr (fun j hj => by simp [h j hj])]

theorem cgroupSweep_of_none {t : State} (h : ∀ c ∈ t.host.cmds, c.phase = .running → opcodeOf c.body ≠ 0x0502) : t.cgroupSweep = t := by
  unfold State.cgroupSweep
  rw [List.filter_eq_nil_iff.mpr (fun c hc => by simpa using h c hc)]
  rfl

end

end Sys2Proof.Proofs
end

section
/-! PROOFS. What an ABORT takes away, and the floods of ABORT and FENCE. -/

namespace Sys2Proof.Proofs

open Sys2Proof.Machine Sys2Proof.Laws

/-! ### An abort that takes effect (R356, R435) -/

/-- The step line after an ABORT that takes effect. -/
def abortedLine (b : Beacon) : Beacon :=
  { b with attempt := (b.attempt + 1) % 256, phase := 0, recovering := true, begun := false, decided := false, ready := false,
           doneSent := false, reached := 0, fieldReached := [], topMark := 0, rounds := b.rounds.filter (fun r => r.key == 5),
           waits := b.waits.filter (fun w => w.2.key == 5), overduePosted := false,
           aborts := b.aborts + 1, advance := none, opened := false }

/-- The gradient areas of a field cleared, and the field as an abort of the step leaves it. -/
def abortField (step : Nat) (s : State) (f : Nat) : State :=
  ((s.fld f).groups.foldl (fun s g => s.clearGrad f g.2) s).modFld f (fun d => d.abort step)

/-- The step line and the registers after an abort, and the commands of partition `p` to be repeated. -/
def abortCommands (s : State) (p : Nat) : State :=
  ({ s with bcn := abortedLine s.bcn, mods := { s.mods with aborts := satAdd 16 s.mods.aborts 1 } } : State).modHost
    (fun h => { h with cmds := h.cmds.map (fun c => if c.repeats p then c.replay (h.postable c) else c) })

/-- The state after an ABORT that takes effect below LIMIT. -/
def abortedState (s : State) (p : Nat) : State :=
  let b := (abortCommands s p).forAll s.trainFields (abortField s.bcn.step)
  { b with tiles := smapMap (fun t x => if s.trainFields.contains (t / 16) then x.abort else x) b.tiles,
           acts := b.acts.map (fun e => if e.1 / 1024 == p then (e.1, { e.2 with prog := smapMap (fun _ x => x.abort) e.2.prog }) else e),
           fab := b.fab.abort p }

section
variable {s : State} {p : Nat}

/-- What of a state an abort of a field's work leaves alone. -/
def OnlyAreas (s t : State) : Prop := t = { s with mem := t.mem, fields := t.fields }

theorem OnlyAreas.trans {s t u : State} (h : OnlyAreas s t) (k : OnlyAreas t u) : OnlyAreas s u := by
  unfold OnlyAreas at *
  rw [k, h]

theorem onlyAreas_clearGrads (f : Nat) (gs : List (Nat × Group)) (s : State) : OnlyAreas s (gs.foldl (fun s g => s.clearGrad f g.2) s) := by
  induction gs generalizing s with
  | nil => rfl
  | cons g gs ih => exact OnlyAreas.trans (t := s.clearGrad f g.2) rfl (ih _)

theorem onlyAreas_abortField (step f : Nat) (s : State) : OnlyAreas s (abortField step s f) :=
  OnlyAreas.trans (onlyAreas_clearGrads f (s.fld f).groups s) (u := abortField step s f) rfl

theorem onlyAreas_abortFields (step : Nat) (fs : List Nat) (s : State) : OnlyAreas s (s.forAll fs (abortField step)) :=
  forAll_keeps (OnlyAreas s) fs _ (fun t f _ ht => ht.trans (onlyAreas_abortField step f t)) s rfl

/-- An ABORT past LIMIT gives the step up (R436). -/
def pastLimit (step : Nat) (s : State) : State :=
  if s.bcn.limit < s.bcn.aborts then ((s.abandonStep stAbStep).faultBit 6).postReady.event 6 4 16 0 (leBytes 8 step) else s

/-- What an ABORT does with the training partition, if there is one. -/
def abortPartition (s : State) : Option Nat → State
  | none => { s with bcn := abortedLine s.bcn, mods := { s.mods with aborts := satAdd 16 s.mods.aborts 1 } }
  | some p => abortedState s p

theorem takeAbort_eq_pastLimit : s.takeAbort = pastLimit s.bcn.step (abortPartition s s.trainPart) := by
  unfold State.takeAbort pastLimit
  show (fun s2 : State => if s2.bcn.limit < s2.bcn.aborts then ((s2.abandonStep stAbStep).faultBit 6).postReady.event 6 4 16 0 (leBytes 8 s.bcn.step)
    else s2) _ = (fun s2 : State => if s2.bcn.limit < s2.bcn.aborts then
      ((s2.abandonStep stAbStep).faultBit 6).postReady.event 6 4 16 0 (leBytes 8 s.bcn.step) else s2) _
  congr 1

theorem bcn_abortedState : (abortedState s p).bcn = abortedLine s.bcn := by
  have honly := onlyAreas_abortFields s.bcn.step s.trainFields (abortCommands s p)
  show ((abortCommands s p).forAll s.trainFields (abortField s.bcn.step)).bcn = _
  rw [honly]
  rfl

theorem takeAbort_eq (hpart : s.trainPart = some p) (hlimit : s.bcn.aborts + 1 ≤ s.bcn.limit) : s.takeAbort = abortedState s p := by
  rw [takeAbort_eq_pastLimit, hpart]
  refine if_neg ?_
  show ¬ (abortedState s p).bcn.limit < (abortedState s p).bcn.aborts
  rw [bcn_abortedState]
  exact Nat.not_lt.mpr hlimit

/-! ### The gradient areas -/

/-- The ranges of the gradient areas of some fields. -/
def gradRanges (s : State) (fs : List Nat) : List (Nat × Nat) :=
  fs.flatMap (fun f => (s.fld f).groups.map (fun g => (redBase f + g.2.p.gbase, 4 * g.2.p.nelem)))

/-- Memory with ranges cleared. -/
def clearedAll (m : Memory) (rs : List (Nat × Nat)) : Memory := rs.foldl (fun m r => memClear m r.1 r.2) m

theorem memRead_clearedAll (m : Memory) (rs : List (Nat × Nat)) (a : Nat) :
    memRead (clearedAll m rs) a = if ∃ r ∈ rs, r.1 ≤ a ∧ a < r.1 + r.2 then blankByte else memRead m a := by
  induction rs generalizing m with
  | nil => simp [clearedAll]
  | cons r rs ih =>
    refine (ih (memClear m r.1 r.2)).trans ?_
    rw [memRead_memClear]
    by_cases hlater : ∃ r ∈ rs, r.1 ≤ a ∧ a < r.1 + r.2
    · obtain ⟨x, hx, hin⟩ := hlater
      rw [if_pos ⟨x, hx, hin⟩, if_pos ⟨x, List.mem_cons_of_mem r hx, hin⟩]
    · rw [if_neg hlater]
      by_cases hin : r.1 ≤ a ∧ a < r.1 + r.2
      · rw [if_pos hin, if_pos ⟨r, List.mem_cons_self .., hin⟩]
      · rw [if_neg hin, if_neg]
        rintro ⟨x, hx, hxin⟩
        rcases List.mem_cons.mp hx with rfl | hx
        · exact hin hxin
        · exact hlater ⟨x, hx, hxin⟩

theorem mem_clearGrads (f : Nat) (gs : List (Nat × Group)) (s : State) :
    (gs.foldl (fun s g => s.clearGrad f g.2) s).mem = clearedAll s.mem (gs.map (fun g => (redBase f + g.2.p.gbase, 4 * g.2.p.nelem))) := by
  induction gs generalizing s with
  | nil => rfl
  | cons g gs ih => exact ih _

theorem fields_clearGrads (f : Nat) (gs : List (Nat × Group)) (s : State) : (gs.foldl (fun s g => s.clearGrad f g.2) s).fields = s.fields := by
  induction gs generalizing s with
  | nil => rfl
  | cons g gs ih => exact ih _

theorem mem_abortField (step f : Nat) (s : State) :
    (abortField step s f).mem = clearedAll s.mem ((s.fld f).groups.map (fun g => (redBase f + g.2.p.gbase, 4 * g.2.p.nelem))) :=
  mem_clearGrads ..

theorem fld_abortField (step f : Nat) (s : State) {k : Nat} (hk : k ≠ f) : (abortField step s f).fld k = s.fld k := by
  refine (modFld_fld _ f (fun d => d.abort step) k).trans ((if_neg hk).trans ?_)
  unfold State.fld
  rw [fields_clearGrads]

theorem mem_abortFields (step : Nat) {fs : List Nat} (hfs : fs.Nodup) (s : State) :
    (s.forAll fs (abortField step)).mem = clearedAll s.mem (gradRanges s fs) := by
  unfold State.forAll
  induction fs generalizing s with
  | nil => rfl
  | cons f fs ih =>
    obtain ⟨hf, hnodup⟩ := List.nodup_cons.mp hfs
    have hranges : gradRanges (abortField step s f) fs = gradRanges s fs := by
      unfold gradRanges
      refine List.flatMap_congr (fun k hk => ?_)
      rw [fld_abortField step f s (fun h => hf (h ▸ hk))]
    rw [List.foldl_cons, ih hnodup, hranges, mem_abortField]
    unfold clearedAll
    rw [← List.foldl_append]
    rfl

theorem nodup_trainFields : s.trainFields.Nodup := by
  unfold State.trainFields
  split
  · exact List.nodup_range.filter _
  · exact List.nodup_nil

/-- A tile after an abort: those of the training partition's fields are cleared. -/
def abortTile (fs : List Nat) (n : Nat) (x : TileState) : TileState := if fs.contains (n / 16) then x.abort else x

theorem tile_abortedState (n : Nat) : (abortedState s p).tile n = if n / 16 ∈ s.trainFields then (s.tile n).abort else s.tile n := by
  have honly := onlyAreas_abortFields s.bcn.step s.trainFields (abortCommands s p)
  have htiles : (abortedState s p).tiles = smapMap (abortTile s.trainFields) s.tiles := by
    unfold abortedState
    dsimp only
    generalize (abortCommands s p).forAll s.trainFields (abortField s.bcn.step) = b at *
    rw [honly]
    rfl
  have hblank : abortTile s.trainFields n {} = {} := by
    unfold abortTile
    split <;> rfl
  unfold State.tile
  rw [htiles, smapGet_smapMap (abortTile s.trainFields) s.tiles n (d := {}) (e := {}) hblank]
  unfold abortTile
  by_cases hn : n / 16 ∈ s.trainFields <;> simp [hn]

theorem mem_abortedState : (abortedState s p).mem = clearedAll s.mem (gradRanges s s.trainFields) :=
  mem_abortFields s.bcn.step nodup_trainFields (abortCommands s p)

theorem queue_abort (x : TileState) (q : Nat) :
    ((x.abort).queue q).source = [] ∧ ((x.abort).queue q).ring = [] ∧ ((x.abort).queue q).started = [] := by
  have hq : (x.abort).queue q = { x.queue q with source := [], ring := [], started := [], nextSeq := 0 } :=
    smapGet_smapMap (fun (_ : Nat) (q : TileQueue) => { q with source := [], ring := [], started := [], nextSeq := 0 }) x.queues q
      (d := ({} : TileQueue)) (e := ({} : TileQueue)) rfl
  rw [hq]
  exact ⟨rfl, rfl, rfl⟩

/-- What else an abort leaves: nothing new goes out, and the ports and the fuses stand. -/
theorem abortedState_rest : (abortedState s p).outbox = s.outbox ∧ (abortedState s p).fab.ports = s.fab.ports ∧
    (abortedState s p).fuses = s.fuses ∧ (abortedState s p).mods.aborts = min (s.mods.aborts + 1) 65535 := by
  have honly := onlyAreas_abortFields s.bcn.step s.trainFields (abortCommands s p)
  unfold abortedState
  dsimp only
  generalize (abortCommands s p).forAll s.trainFields (abortField s.bcn.step) = b at *
  rw [honly]
  exact ⟨rfl, rfl, rfl, rfl⟩

/-! ### The flood of ABORT (R346, R356) -/

theorem knowDecision_of_known (h : s.isKeeper = true ∨ s.bcn.begun = false ∨ s.bcn.doneSent = false) : s.knowDecision = s := by
  unfold State.knowDecision
  refine if_pos ?_
  rcases h with h | h | h <;> simp [h]

/-- The state in which the first copy of an ABORT takes its effect: it has been taken from its port, noted, and sent on. -/
def floodedOn (s : State) (port : Fin 8) (step att : Nat) : State :=
  (((s.flareTook port (abortFrame step att)).modBcn (fun b => { b with abortSeen := true })).modBcn (fun b => b.sawFlood step att)).floodFrom
    (some port.val) (abortFrame step att)

theorem exec_abortFloodRx_of_away {port : Fin 8} {step att : Nat} (h : s.place.placed = false ∨ (s.port port).state ≠ 2) :
    exec (.abortFloodRx port step att) s = .next s := by
  refine if_pos ?_
  rcases h with h | h <;> simp [h]

section
variable {port : Fin 8} {step att : Nat} (hplaced : s.place.placed = true) (hup : (s.port port).state = 2)
include hplaced hup

theorem exec_abortFloodRx_of_known (h : (step, att) ∈ s.bcn.floods) : exec (.abortFloodRx port step att) s =
    .next ((s.flareTook port (abortFrame step att)).modBcn (fun b => { b with abortSeen := true })) :=
  (if_neg (by simp [hplaced, hup])).trans (if_pos (by simpa using h))

theorem exec_abortFloodRx_of_new (h : (step, att) ∉ s.bcn.floods) :
    exec (.abortFloodRx port step att) s = .next ((floodedOn s port step att).abortArrives step att) :=
  (if_neg (by simp [hplaced, hup])).trans (if_neg (by simpa using h))

end

/-- A frame taken from a port changes that port, and where it returns to routing the fences and the depth. -/
theorem flareTook_only (port : Nat) (f : FlareFrame) :
    s.flareTook port f = { s with fab := { s.fab with ports := (s.flareTook port f).fab.ports },
                                  bcn := { s.bcn with fences := (s.flareTook port f).bcn.fences },
                                  place := { s.place with depth := (s.flareTook port f).place.depth } } := by
  unfold State.flareTook State.portReturns State.newDepth
  dsimp only
  split
  · rfl
  · split <;> rfl

theorem floodedOn_only (port : Fin 8) (step att : Nat) :
    floodedOn s port step att = { (s.flareTook port (abortFrame step att)).floodFrom (some port.val) (abortFrame step att) with
      bcn := { (s.flareTook port (abortFrame step att)).bcn with abortSeen := true } |>.sawFlood step att } := by
  unfold floodedOn
  rw [floodFrom_modBcn, floodFrom_modBcn]
  rfl

/-- The state sent on is the one received but for ports, what goes out, the step line's fences and notes, and the depth. -/
theorem floodedOn_spec (port : Fin 8) (step att : Nat) : ∃ fences depth, floodedOn s port step att = { s with
    fab := { s.fab with ports := ((s.flareTook port (abortFrame step att)).floodFrom (some port.val) (abortFrame step att)).fab.ports }
    outbox := ((s.flareTook port (abortFrame step att)).floodFrom (some port.val) (abortFrame step att)).outbox
    bcn := { s.bcn with fences := fences, abortSeen := true } |>.sawFlood step att
    place := { s.place with depth := depth } } := by
  have htook := flareTook_only (s := s) port.val (abortFrame step att)
  refine ⟨(s.flareTook port (abortFrame step att)).bcn.fences, (s.flareTook port (abortFrame step att)).place.depth, ?_⟩
  rw [floodedOn_only]
  have hsends := onlySends_floodFrom (some port.val) (abortFrame step att) (s.flareTook port (abortFrame step att))
  generalize (s.flareTook port (abortFrame step att)).floodFrom (some port.val) (abortFrame step att) = out at *
  generalize s.flareTook port (abortFrame step att) = took at *
  obtain ⟨ps, ob, rfl⟩ : ∃ ps ob, out = { took with fab := { took.fab with ports := ps }, outbox := ob } := ⟨_, _, hsends⟩
  obtain ⟨qs, fences, depth, rfl⟩ : ∃ qs fences depth, took = { s with
    fab := { s.fab with ports := qs }, bcn := { s.bcn with fences := fences }, place := { s.place with depth := depth } } := ⟨_, _, _, htook⟩
  rfl

theorem canAbort_floodedOn (port : Fin 8) (step att : Nat) : (floodedOn s port step att).canAbort = s.canAbort := by
  obtain ⟨fences, depth, h⟩ := floodedOn_spec (s := s) port step att
  rw [h]
  rfl

theorem trainPart_floodedOn (port : Fin 8) (step att : Nat) : (floodedOn s port step att).trainPart = s.trainPart := by
  obtain ⟨fences, depth, h⟩ := floodedOn_spec (s := s) port step att
  rw [h]
  rfl

/-- The first copy of an ABORT for the present step and attempt, where it takes effect below LIMIT. -/
theorem abortFloodRx_spec {port : Fin 8} (hplaced : s.place.placed = true) (hup : (s.port port).state = 2) (hcan : s.canAbort = true)
    (hpart : s.trainPart = some p) (hlimit : s.bcn.aborts + 1 ≤ s.bcn.limit) (hnew : (s.bcn.step, s.bcn.attempt) ∉ s.bcn.floods)
    (hknown : s.isKeeper = true ∨ s.bcn.begun = false ∨ s.bcn.doneSent = false) :
    exec (.abortFloodRx port s.bcn.step s.bcn.attempt) s = .next (abortedState (floodedOn s port s.bcn.step s.bcn.attempt) p) := by
  rw [exec_abortFloodRx_of_new hplaced hup hnew]
  obtain ⟨fences, depth, h⟩ := floodedOn_spec (s := s) port s.bcn.step s.bcn.attempt
  have hcan' := (canAbort_floodedOn (s := s) port s.bcn.step s.bcn.attempt).trans hcan
  have hpart' := (trainPart_floodedOn (s := s) port s.bcn.step s.bcn.attempt).trans hpart
  generalize floodedOn s port s.bcn.step s.bcn.attempt = u at *
  have hstep : u.bcn.step = s.bcn.step := by rw [h]; rfl
  have hattempt : u.bcn.attempt = s.bcn.attempt := by rw [h]; rfl
  have hlimit' : u.bcn.aborts + 1 ≤ u.bcn.limit := by rw [h]; exact hlimit
  have hdecided : u.knowDecision = u := knowDecision_of_known (by rw [h]; exact hknown)
  unfold State.abortArrives
  dsimp only
  rw [hdecided, ite_self, if_pos (by simp [hstep, hattempt, hcan']), takeAbort_eq hpart' hlimit']

/-! ### An ABORT of a step that is about to begin (R356) -/

/-- A tile once the step it awaits has been aborted. -/
def missedTile (fs : List Nat) (n : Nat) (x : TileState) : TileState := if fs.contains (n / 16) then x.missed else x

/-- A field once the step it awaits has been aborted. -/
def missedField (fs : List Nat) (f : Nat) (d : Field) : Field :=
  if fs.contains f then { d with meter := d.meter.zeroCounts, groups := smapMap (fun _ g => { g with contribs := [] }) d.groups } else d

theorem takeMissed_spec (step : Nat) : ∃ fab, s.takeMissed step = { s with
      bcn := (s.takeMissed step).bcn, mods := { s.mods with aborts := min (s.mods.aborts + 1) 65535 }, fab := fab,
      fields := smapMap (missedField s.trainFields) s.fields, tiles := smapMap (missedTile s.trainFields) s.tiles } ∧ fab.ports = s.fab.ports := by
  cases hpart : s.trainPart with
  | none =>
    refine ⟨s.fab, ?_, rfl⟩
    unfold State.takeMissed
    dsimp only
    rw [show (s.modBcn _).trainPart = none from hpart]
    rfl
  | some p =>
    refine ⟨s.fab.nextEpoch p, ?_, rfl⟩
    unfold State.takeMissed
    dsimp only
    rw [show (s.modBcn _).trainPart = some p from hpart]
    rfl

theorem bcn_takeMissed {step att : Nat} (hatt : att = if s.bcn.abandoned = some step then s.bcn.attempt else 0) :
    (s.takeMissed step).bcn.step = step ∧ (s.takeMissed step).bcn.attempt = (att + 1) % 256 ∧ (s.takeMissed step).bcn.phase = 0 ∧
      (s.takeMissed step).bcn.recovering = true ∧ (s.takeMissed step).bcn.missed = true ∧ (s.takeMissed step).bcn.begun = s.bcn.begun ∧
      (s.takeMissed step).bcn.ready = false ∧ (s.takeMissed step).bcn.aborts = 1 := by
  rw [hatt]
  exact ⟨rfl, rfl, rfl, rfl, rfl, rfl, rfl, rfl⟩

/-! ### The flood of FENCE (R346) -/

theorem exec_fenceFloodRx_of_away {port : Fin 8} {m q : Nat} (h : s.place.placed = false ∨ (s.port port).state ≠ 2) :
    exec (.fenceFloodRx port m q) s = .next s := by
  refine if_pos ?_
  rcases h with h | h <;> simp [h]

end

end Sys2Proof.Proofs
end

section
/-! PROOFS. Rounds contributed again keep the fences; the flare rows and the floods as one obligation. -/

namespace Sys2Proof.Proofs

open Sys2Proof.Machine Sys2Proof.Laws

/-! ### What a round can change (R342, R345) -/

section
variable {s : State}

/-- A contribution and what follows from it change the step line, ports, event records and what goes out; the fences stand. -/
def OnlyRounds (s t : State) : Prop :=
  t = { s with bcn := t.bcn, host := { s.host with erings := t.host.erings, held := t.host.held }, hostMem := t.hostMem, outbox := t.outbox,
               fab := { s.fab with ports := t.fab.ports } } ∧ t.bcn.fences = s.bcn.fences

theorem OnlyRounds.refl (s : State) : OnlyRounds s s := ⟨rfl, rfl⟩

theorem OnlyRounds.trans {t u : State} (h : OnlyRounds s t) (k : OnlyRounds t u) : OnlyRounds s u := by
  obtain ⟨honly, hfences⟩ := h
  obtain ⟨konly, kfences⟩ := k
  refine ⟨?_, kfences.trans hfences⟩
  rw [konly, honly]

theorem OnlySends.onlyRounds {t : State} (h : OnlySends s t) : OnlyRounds s t := ⟨by rw [h], by rw [h]⟩

theorem onlyRounds_of_events {t : State} (h : OnlyEvents s t) : OnlyRounds s t := ⟨by rw [h.1], by rw [h.1]⟩

/-- A change of the step line that leaves the fences. -/
theorem onlyRounds_modBcn (g : Beacon → Beacon) (hg : (g s.bcn).fences = s.bcn.fences) : OnlyRounds s (s.modBcn g) := ⟨rfl, hg⟩

theorem onlyRounds_forAll {α : Type} (xs : List α) (g : State → α → State) (hg : ∀ s x, OnlyRounds s (g s x)) : OnlyRounds s (s.forAll xs g) :=
  forAll_keeps (OnlyRounds s) xs g (fun t x _ h => h.trans (hg t x)) s (OnlyRounds.refl s)

theorem onlySends_broadcast (f : FlareFrame) : OnlySends s (s.broadcast f) := by
  obtain ⟨ps, ob, h⟩ := broadcast_eq s f
  rw [h]
  rfl

theorem onlyRounds_beginRound (step : Nat) : OnlyRounds s (s.beginRound step) := by
  unfold State.beginRound
  dsimp only
  split
  · exact onlyRounds_modBcn _ rfl
  · split
    · exact (onlyRounds_modBcn _ (by rfl)).trans (onlyRounds_of_events (onlyEvents_post _ _))
    · exact (onlyRounds_modBcn _ (by rfl)).trans (onlySends_broadcast _).onlyRounds

theorem onlyRounds_decideRound (f : FlareFrame) (v : List Byte) : OnlyRounds s (s.decideRound f v) := by
  unfold State.decideRound
  dsimp only
  split
  · exact (onlyRounds_modBcn _ (by rfl)).trans (onlySends_broadcast _).onlyRounds
  · split
    · exact onlyRounds_of_events (onlyEvents_event ..)
    · exact onlyRounds_beginRound _
  · exact (onlySends_broadcast _).onlyRounds
  · exact (onlySends_broadcast _).onlyRounds

theorem onlyRounds_tryRound (f : FlareFrame) : OnlyRounds s (s.tryRound f) := by
  unfold State.tryRound
  dsimp only
  split
  · exact OnlyRounds.refl s
  · split
    · exact (onlyRounds_modBcn _ (by rfl)).trans (onlyRounds_decideRound _ _)
    · split
      · exact OnlyRounds.refl s
      · split
        · exact (onlyRounds_modBcn _ (by rfl)).trans (onlySends_linkSend _ _ _).onlyRounds
        · exact OnlyRounds.refl s

theorem onlyRounds_joinRound (port : Option Nat) (f : FlareFrame) : OnlyRounds s (s.joinRound port f) :=
  (onlyRounds_modBcn _ (by rfl)).trans (onlyRounds_tryRound f)

theorem onlyRounds_fillRounds : OnlyRounds s s.fillRounds := by
  refine onlyRounds_forAll _ _ (fun t w => ?_)
  split
  · exact (onlyRounds_modBcn _ (by rfl)).trans (onlyRounds_joinRound _ _)
  · exact OnlyRounds.refl t

theorem fillRounds_of_no_waits (hwaits : s.bcn.waits = []) : s.fillRounds = s := by
  unfold State.fillRounds
  rw [hwaits]
  rfl

theorem onlyRounds_roundOver (key index step : Nat) : OnlyRounds s (s.roundOver key index step) := by
  unfold State.roundOver
  dsimp only
  split
  · exact (onlyRounds_modBcn _ (by rfl)).trans onlyRounds_fillRounds
  · exact OnlyRounds.refl s

/-- With nothing that waits, the end of a round takes it off the list and counts it. -/
theorem roundOver_of_no_waits (hwaits : s.bcn.waits = []) (key index step : Nat) : s.roundOver key index step =
    { s with bcn := { s.bcn with rounds := (s.roundOver key index step).bcn.rounds, roundCount := (s.roundOver key index step).bcn.roundCount } } := by
  unfold State.roundOver
  dsimp only
  split
  · rw [fillRounds_of_no_waits (by exact hwaits)]
    rfl
  · rfl

/-! ### The fences stand while rounds are contributed again (R349) -/

theorem fences_of_onlySends {t : State} (h : OnlySends s t) : t.bcn.fences = s.bcn.fences := by rw [h]

theorem fences_forAll {α : Type} (xs : List α) (g : State → α → State) (hg : ∀ s x, (g s x).bcn.fences = s.bcn.fences) :
    (s.forAll xs g).bcn.fences = s.bcn.fences :=
  forAll_keeps (fun t => t.bcn.fences = s.bcn.fences) xs g (fun t x _ h => (hg t x).trans h) s rfl

theorem fences_barrierIn (f : FabFrame) : (s.barrierIn f).bcn.fences = s.bcn.fences := by
  unfold State.barrierIn
  exact (apply_ite (fun t : State => t.bcn.fences) _ _ _).trans (ite_self _)

theorem fences_barrierUp (f : FabFrame) : (s.barrierUp f).bcn.fences = s.bcn.fences := by
  unfold State.barrierUp
  dsimp only
  split
  · exact (fences_barrierIn _).trans (fences_of_onlySends (onlySends_passAll _ _ (s.emit _)))
  · split
    · exact fences_of_onlySends (onlySends_linkSend _ _ _)
    · rfl

theorem fences_reissueBarriers : s.reissueBarriers.bcn.fences = s.bcn.fences := fences_forAll _ _ (fun _ _ => (fences_barrierUp _).trans rfl)

theorem fences_reissue : s.reissue.bcn.fences = s.bcn.fences :=
  fences_reissueBarriers.trans (onlyRounds_fillRounds.2.trans (fences_forAll _ _ (fun _ _ => (onlyRounds_tryRound _).2)))

/-- With no round, nothing that waits and no BARRIER that has started, nothing is contributed again. -/
theorem reissue_of_idle (hrounds : s.bcn.rounds = []) (hwaits : s.bcn.waits = []) (hjobs : ∀ j ∈ s.fab.jobs, j.op = 6 → j.started = false) :
    s.reissue = s := by
  have hbarriers : s.reissueBarriers = s := by
    unfold State.reissueBarriers
    rw [List.filter_eq_nil_iff.mpr (fun j hj => by
      have := hjobs j hj
      simp only [Bool.and_eq_true, beq_iff_eq, not_and, Bool.not_eq_true]
      exact this)]
    rfl
  have hline : s.modBcn (fun b => { b with reissueSeen := b.reissueSeen || !([] : List FlareRound).isEmpty, rounds := [] }) = s := by
    show ({ s with bcn := { s.bcn with reissueSeen := s.bcn.reissueSeen || false, rounds := [] } } : State) = s
    rw [Bool.or_false, ← hrounds]
  unfold State.reissue
  dsimp only
  rw [hrounds, List.filter_nil, List.map_nil, hline]
  show (State.fillRounds s).reissueBarriers = s
  rw [fillRounds_of_no_waits hwaits, hbarriers]

/-! ### A new fence (R346) -/

theorem applyFence_of_new {m p : Nat} (hnew : (m, p) ∉ s.bcn.fences) : (s.applyFence m p).bcn.fences = s.bcn.fences ++ [(m, p)] ∧
    (s.bcn.rounds = [] → s.bcn.waits = [] → (∀ j ∈ s.fab.jobs, j.op = 6 → j.started = false) →
      s.applyFence m p = { s with bcn := { s.bcn with fences := s.bcn.fences ++ [(m, p)] }, place := (s.applyFence m p).place }) := by
  have hfenced : s.applyFence m p =
      if s.treeUnder s.bcn.fences == (s.modBcn (fun b => { b with fences := b.fences ++ [(m, p)] })).newDepth.treeUnder
          (s.modBcn (fun b => { b with fences := b.fences ++ [(m, p)] })).newDepth.bcn.fences
        then (s.modBcn (fun b => { b with fences := b.fences ++ [(m, p)] })).newDepth
        else (s.modBcn (fun b => { b with fences := b.fences ++ [(m, p)] })).newDepth.reissue :=
    if_neg (by simpa using hnew)
  have hdepth : ∃ place, (s.modBcn (fun b => { b with fences := b.fences ++ [(m, p)] })).newDepth =
      { s with bcn := { s.bcn with fences := s.bcn.fences ++ [(m, p)] }, place := place } := by
    unfold State.newDepth
    split <;> exact ⟨_, rfl⟩
  obtain ⟨place, hplace⟩ := hdepth
  rw [hplace] at hfenced
  rw [hfenced]
  constructor
  · split
    · rfl
    · exact fences_reissue
  · intro hrounds hwaits hjobs
    rw [reissue_of_idle (s := { s with bcn := { s.bcn with fences := s.bcn.fences ++ [(m, p)] }, place := place }) hrounds hwaits hjobs, ite_self]

theorem mem_fences_flareTook {port : Nat} {f : FlareFrame} {x : Nat × Nat} (h : x ∈ (s.flareTook port f).bcn.fences) : x ∈ s.bcn.fences := by
  unfold State.flareTook State.portReturns State.newDepth at h
  dsimp only at h
  split at h
  · exact h
  · split at h <;> exact List.mem_of_mem_filter h

section
variable {port : Fin 8} {m p : Nat} (hplaced : s.place.placed = true) (hup : (s.port port).state = 2)
include hplaced hup

theorem exec_fenceFloodRx_of_known (h : (m, p) ∈ s.bcn.fences) :
    exec (.fenceFloodRx port m p) s = .next (s.flareTook port (fenceFrame m p s.bcn.step s.bcn.attempt)) :=
  (if_neg (by simp [hplaced, hup])).trans (if_pos (by simpa using h))

theorem exec_fenceFloodRx_of_new (h : (m, p) ∉ s.bcn.fences) :
    exec (.fenceFloodRx port m p) s = .next (((s.flareTook port (fenceFrame m p s.bcn.step s.bcn.attempt)).floodFrom (some port.val)
      (fenceFrame m p s.bcn.step s.bcn.attempt)).applyFence m p) :=
  (if_neg (by simp [hplaced, hup])).trans (if_neg (by simpa using h))

end

theorem not_mem_fences_floodFrom {port : Fin 8} {m p : Nat} (h : (m, p) ∉ s.bcn.fences) :
    (m, p) ∉ ((s.flareTook port (fenceFrame m p s.bcn.step s.bcn.attempt)).floodFrom (some port.val)
      (fenceFrame m p s.bcn.step s.bcn.attempt)).bcn.fences := by
  rw [fences_of_onlySends (onlySends_floodFrom ..)]
  exact fun hmem => h (mem_fences_flareTook hmem)

/-! ### The clauses of the obligation -/

/-- An accepted flare frame. -/
theorem flareFrameRx_spec {port : Fin 8} {f : FabFrame} (hplaced : s.place.placed = true) (hup : (s.port port).state = 2) (htyp : f.typ < 2)
    (hvl : f.vl = 0) (hseq : f.lseq = (s.port port).rxNext) :
    let r := (s.linkAccept port f).1
    let g := flareOf f
    let down := r.forAll r.children (fun s p => s.flareSend p g)
    (r.port port).rxNext = (f.lseq + 1) % 4096 ∧ (r.port port).nakOut = false ∧ r.bcn.attempt = s.bcn.attempt ∧
    (g.op = 7 → g.key ≤ 10 → g.key ≠ 9 → g.key ≠ 7 → exec (.flareFrameRx port f) s = .next down) ∧
    (g.op = 7 → g.key = 7 → g.index = 0 → exec (.flareFrameRx port f) s = .next { down with
      bcn := if down.bcn.begun = true ∨ down.bcn.phase = 0xF000 then { down.bcn with stopReq := true } else { down.bcn with running := false } }) ∧
    (g.op = 7 → g.key = 7 → g.index = 1 ∨ g.index = 2 → exec (.flareFrameRx port f) s = .next (
      if down.bcn.recovering = true ∧ g.step = down.bcn.step then down.abandonStep (if g.index = 1 then stAbStep else stAbShutter) else down)) ∧
    (g.key = 9 → g.attempt = s.bcn.attempt → (∀ j ∈ r.fab.jobs, j.p.group ≠ g.index) →
      (∀ c ∈ r.host.cmds, c.phase = .running → opcodeOf c.body ≠ 0x0502) →
      (g.op = 7 → let pass := r.forAll r.children (fun s p => s.flarePass p f)
        exec (.flareFrameRx port f) s = .next { pass with fab := { pass.fab with
          barriers := smapModify [] pass.fab.barriers (barrierKey g.index f.epoch) (fun l => if l.contains f.src then l else l ++ [f.src]) } }) ∧
      (g.op = 0 → r.isKeeper = false → ∀ p, r.parent = some p → exec (.flareFrameRx port f) s = .next (r.flarePass p f))) ∧
    (g.op ≤ 6 → g.key ≤ 8 → g.attempt ≠ s.bcn.attempt → exec (.flareFrameRx port f) s = .next { r with bcn := { r.bcn with staleSeen := true } }) ∧
    (∀ (rd : FlareRound) (own : List Byte) (p : Nat), g.op ≤ 6 → g.key ≤ 5 → g.attempt = s.bcn.attempt → r.children = [port.val] → r.isKeeper = false →
      r.parent = some p → r.bcn.rounds = [rd] → r.bcn.waits = [] → rd.isFor g = true → rd.own = some own → rd.kids = [] → rd.sent = false →
      ∃ rs, exec (.flareFrameRx port f) s = .next (State.flareSend { r with bcn := { r.bcn with rounds := rs } } p
        { g with payload := flareCombine rd.op own g.payload })) := by
  obtain ⟨haccept, hnext, hnak, hattempt⟩ := linkAccept_spec hup htyp hseq
  have hrx := fun hkey => exec_flareFrameRx_of_accepted hplaced haccept hvl hkey
  have hbarrier := fun hkey => exec_flareFrameRx_of_barrier hplaced haccept hvl hkey
  generalize (s.linkAccept port f).1 = r at *
  intro _ g down
  refine ⟨hnext, hnak, hattempt, fun hop hle h9 h7 => ?passed, fun hop h7 h0 => ?stopped, fun hop h7 h12 => ?abandoned,
    fun h9 hatt hjobs hcmds => ⟨fun hop => ?barrierDown, fun hop hkeeper p hparent => ?barrierUp⟩, fun hop hkey hatt => ?stale,
    fun rd own p hop hkey hatt hchildren hkeeper hparent hrounds hwaits hfor hown hkids hsent => ?round⟩
  case passed => rw [hrx h9, flareRx_of_broadcast hop hle, abandonIn_of_other h7]
  case stopped =>
    have h9 : g.key ≠ 9 := by omega
    rw [hrx h9, flareRx_of_broadcast hop (by omega), abandonIn_of_stop h7 h0]
  case abandoned =>
    have h9 : g.key ≠ 9 := by omega
    rw [hrx h9, flareRx_of_broadcast hop (by omega), abandonIn_of_abandon h7 h12]
  case barrierDown =>
    intro pass
    have hpass : OnlySends r pass := onlySends_passAll r.children f r
    have hin : r.barrierRx f = { pass with fab := { pass.fab with
        barriers := smapModify [] pass.fab.barriers (barrierKey g.index f.epoch) (fun l => if l.contains f.src then l else l ++ [f.src]) } } := by
      unfold State.barrierRx
      rw [if_pos hop]
      refine if_neg (fun h => ?_)
      have hsame : g.attempt = pass.bcn.attempt := by rw [hpass, hatt, ← hattempt]
      rw [Bool.and_eq_true] at h
      exact absurd hsame (bne_iff_ne.mp h.1)
    rw [hbarrier h9, hin, collDrain_of_none (by rw [hpass]; exact hjobs), cgroupSweep_of_none (by rw [hpass]; exact hcmds)]
  case barrierUp =>
    have hup : r.barrierRx f = r.flarePass p f := by
      unfold State.barrierRx State.barrierUp
      rw [if_neg (by rw [hop]; decide), if_neg (by rw [hop]; decide), if_neg (by rw [hatt, hattempt]; simp), if_neg (by rw [hkeeper]; decide), hparent]
    have hsends : OnlySends r (r.flarePass p f) := onlySends_linkSend _ _ _
    rw [hbarrier h9, hup, collDrain_of_none (by rw [hsends]; exact hjobs), cgroupSweep_of_none (by rw [hsends]; exact hcmds)]
  case stale =>
    have h9 : g.key ≠ 9 := by omega
    rw [hrx h9, flareRx_of_stale hop hkey (by rw [hattempt]; exact hatt)]
  case round =>
    have h9 : g.key ≠ 9 := by omega
    obtain ⟨rs, h⟩ := flareRx_of_last_child (port := port.val) hop hkey (hatt.trans hattempt.symm) hchildren hkeeper hparent hrounds hwaits hfor hown hkids hsent
    exact ⟨rs, (hrx h9).trans (congrArg _ h)⟩

/-- An ABORT for another step: a step that the module awaits is recovered, any other is let go by. -/
theorem abortFloodRx_other_spec {port : Fin 8} {step att : Nat} (hplaced : s.place.placed = true) (hup : (s.port port).state = 2)
    (hnew : (step, att) ∉ s.bcn.floods) (hstep : step ≠ s.bcn.step) :
    (s.bcn.awaitsStep step att = false → exec (.abortFloodRx port step att) s = .next (floodedOn s port step att)) ∧
      (s.bcn.awaitsStep step att = true → exec (.abortFloodRx port step att) s = .next ((floodedOn s port step att).takeMissed step)) := by
  rw [exec_abortFloodRx_of_new hplaced hup hnew]
  obtain ⟨fences, depth, h⟩ := floodedOn_spec (s := s) port step att
  generalize floodedOn s port step att = u at *
  have hstep' : step ≠ u.bcn.step := by rw [h]; exact hstep
  have hawaits : u.bcn.awaitsStep step att = s.bcn.awaitsStep step att := by rw [h]; rfl
  unfold State.abortArrives
  dsimp only
  rw [if_neg (show ¬ (decide (step = u.bcn.step) && decide (att = u.bcn.attempt)) = true by simp [hstep']), if_neg (by simp [hstep']), hawaits]
  exact ⟨fun hno => by rw [hno, if_neg Bool.false_ne_true, if_neg hstep'], fun hyes => by rw [hyes, if_pos rfl]⟩

theorem missedFlood_spec {port : Fin 8} {step att : Nat} (hawaits : s.bcn.awaitsStep step att = true) :
    let on := floodedOn s port step att
    let t := on.takeMissed step
    t = { on with bcn := t.bcn, mods := { s.mods with aborts := min (s.mods.aborts + 1) 65535 }, fab := t.fab, fields := t.fields, tiles := t.tiles } ∧
      t.fab.ports = on.fab.ports ∧ (∀ n, t.tile n = if n / 16 ∈ s.trainFields then (s.tile n).missed else s.tile n) ∧
      (∀ f, f ∉ s.trainFields → t.fld f = s.fld f) ∧
      t.bcn.step = step ∧ t.bcn.attempt = (att + 1) % 256 ∧ t.bcn.phase = 0 ∧ t.bcn.recovering = true ∧ t.bcn.missed = true ∧ t.bcn.begun = false ∧
      t.bcn.ready = false ∧ t.bcn.aborts = 1 := by
  intro on t
  obtain ⟨fences, depth, h⟩ := floodedOn_spec (s := s) port step att
  have hon : on = _ := h
  simp only [Beacon.awaitsStep, Bool.and_eq_true, Bool.not_eq_true', beq_iff_eq] at hawaits
  obtain ⟨⟨⟨⟨hbegun, -⟩, -⟩, -⟩, hatt⟩ := hawaits
  have hmods : on.mods = s.mods := by rw [hon]
  have htrain : on.trainFields = s.trainFields := by rw [hon]; rfl
  have htiles : on.tiles = s.tiles := by rw [hon]
  have hfields : on.fields = s.fields := by rw [hon]
  have habandoned : att = if on.bcn.abandoned = some step then on.bcn.attempt else 0 := by rw [hon]; exact hatt
  have hbegun' : on.bcn.begun = false := by rw [hon]; exact hbegun
  obtain ⟨fab, hmissed, hports⟩ := takeMissed_spec (s := on) step
  obtain ⟨k1, k2, k3, k4, k5, k6, k7, k8⟩ := bcn_takeMissed (s := on) habandoned
  have htile : t.tiles = smapMap (missedTile s.trainFields) s.tiles := by
    show (on.takeMissed step).tiles = _
    rw [hmissed, ← htrain, ← htiles]
  have hfield : t.fields = smapMap (missedField s.trainFields) s.fields := by
    show (on.takeMissed step).fields = _
    rw [hmissed, ← htrain, ← hfields]
  have hfab : t.fab = fab := by
    show (on.takeMissed step).fab = _
    rw [hmissed]
  have hblank : ∀ n, missedTile s.trainFields n {} = {} := fun n => ite_self _
  refine ⟨?_, by rw [hfab, hports], fun n => ?_, fun f hf => ?_, k1, k2, k3, k4, k5, k6.trans hbegun', k7, k8⟩
  · rw [htile, hfield, hfab, ← htrain, ← htiles, ← hfields, ← hmods]
    exact hmissed
  · unfold State.tile
    rw [htile, smapGet_smapMap (missedTile s.trainFields) s.tiles n (d := {}) (e := {}) (hblank n)]
    unfold missedTile
    by_cases hn : n / 16 ∈ s.trainFields <;> simp [hn]
  · have hkeep : ∀ d, missedField s.trainFields f d = d := fun d => if_neg (by simpa using hf)
    unfold State.fld
    rw [hfield, smapGet_smapMap (missedField s.trainFields) s.fields f (d := {}) (e := {}) (hkeep _), hkeep]

/-- What an ABORT that takes effect leaves, as the obligation asks for it. -/
theorem abortedFlood_spec {port : Fin 8} {p : Nat} :
    let out := (s.flareTook port (abortFrame s.bcn.step s.bcn.attempt)).floodFrom (some port.val) (abortFrame s.bcn.step s.bcn.attempt)
    let t := abortedState (floodedOn s port s.bcn.step s.bcn.attempt) p
    t.outbox = out.outbox ∧ t.fab.ports = out.fab.ports ∧
      t.bcn.step = s.bcn.step ∧ t.bcn.attempt = (s.bcn.attempt + 1) % 256 ∧ t.bcn.phase = 0 ∧ t.bcn.recovering = true ∧ t.bcn.begun = false ∧
      t.bcn.abortSeen = true ∧ t.bcn.aborts = s.bcn.aborts + 1 ∧ t.mods.aborts = min (s.mods.aborts + 1) 65535 ∧
      (∀ n q, n / 16 ∈ s.trainFields → ((t.tile n).queue q).source = [] ∧ ((t.tile n).queue q).ring = [] ∧ ((t.tile n).queue q).started = []) ∧
      (∀ n, n / 16 ∈ s.trainFields → (t.tile n).sems = (s.tile n).savedSems ∧ (t.tile n).lanes = (s.tile n).savedLanes) ∧
      (∀ n, n / 16 ∉ s.trainFields → t.tile n = s.tile n) ∧
      (∀ f g i, f ∈ s.trainFields → g ∈ (s.fld f).groups → i < 4 * g.2.p.nelem → memRead t.mem (redBase f + g.2.p.gbase + i) = blankByte) ∧
      (∀ a, (∀ f g, f ∈ s.trainFields → g ∈ (s.fld f).groups → a < redBase f + g.2.p.gbase ∨ redBase f + g.2.p.gbase + 4 * g.2.p.nelem ≤ a) →
        memRead t.mem a = memRead s.mem a) ∧ t.fuses = s.fuses := by
  intro out t
  obtain ⟨fences, depth, h⟩ := floodedOn_spec (s := s) port s.bcn.step s.bcn.attempt
  let u := floodedOn s port s.bcn.step s.bcn.attempt
  have hu : u = _ := h
  have hbcn : t.bcn = abortedLine u.bcn := bcn_abortedState
  have htrain : u.trainFields = s.trainFields := by rw [hu]; rfl
  have htile : ∀ n, t.tile n = if n / 16 ∈ s.trainFields then (s.tile n).abort else s.tile n := fun n => by
    refine (tile_abortedState (s := u) n).trans ?_
    rw [htrain, hu]
    rfl
  have hmem : t.mem = clearedAll s.mem (gradRanges s s.trainFields) := by
    refine (mem_abortedState (s := u)).trans ?_
    rw [htrain, hu]
    rfl
  obtain ⟨houtbox, hports, hfuses, haborts⟩ := abortedState_rest (s := u) (p := p)
  rw [hmem]
  refine ⟨houtbox.trans (by rw [hu]), hports.trans (by rw [hu]), ?_, ?_, by rw [hbcn]; rfl, by rw [hbcn]; rfl, by rw [hbcn]; rfl, ?_, ?_,
    haborts.trans (by rw [hu]), fun n q hn => ?_, fun n hn => ?_, fun n hn => ?_, fun f g i hf hg hi => ?_, fun a ha => ?_, hfuses.trans (by rw [hu])⟩
  · rw [hbcn, hu]; rfl
  · rw [hbcn, hu]; rfl
  · rw [hbcn, hu]; rfl
  · rw [hbcn, hu]; rfl
  · rw [htile, if_pos hn]
    exact queue_abort _ q
  · rw [htile, if_pos hn]
    exact ⟨rfl, rfl⟩
  · rw [htile, if_neg hn]
  · rw [memRead_clearedAll, if_pos]
    exact ⟨_, List.mem_flatMap.mpr ⟨f, hf, List.mem_map.mpr ⟨g, hg, rfl⟩⟩, Nat.le_add_right .., Nat.add_lt_add_left hi _⟩
  · rw [memRead_clearedAll, if_neg]
    rintro ⟨r, hr, hlo, hhi⟩
    obtain ⟨f, hf, hr⟩ := List.mem_flatMap.mp hr
    obtain ⟨g, hg, rfl⟩ := List.mem_map.mp hr
    rcases ha f g hf hg with hout | hout
    · exact absurd hlo (Nat.not_le.mpr hout)
    · exact absurd hhi (Nat.not_lt.mpr hout)

end

/-- Settles O49: frames are numbers laid side by side, and each row by the lemmas about what a link, a round, an abort and a fence change. -/
theorem flareFramesAndFloods : Obligations.FlareFramesAndFloods := by
  unfold Obligations.FlareFramesAndFloods
  refine ⟨fun f hwf => ⟨fabOf_fabBytes hwf, length_fabHeader f⟩, fun f a b hwf => flareFab_spec f a b hwf,
    fun s port f hdown => exec_flareFrameRx_of_down hdown, fun s port f hno => exec_flareFrameRx_of_refused hno,
    fun s port f hplaced hup htyp hvl hseq => flareFrameRx_spec hplaced hup htyp hvl hseq,
    fun s port step att m p haway => ⟨exec_abortFloodRx_of_away haway, exec_fenceFloodRx_of_away haway⟩,
    fun s port p hplaced hup hcan hpart hlimit hnew hknown => ⟨_, abortFloodRx_spec hplaced hup hcan hpart hlimit hnew hknown, abortedFlood_spec⟩,
    fun s port step att hplaced hup => ?otherAbort, fun s port m p hplaced hup => ?fence⟩
  case otherAbort =>
    intro f took on
    have hon : on = floodedOn s port step att := rfl
    refine ⟨exec_abortFloodRx_of_known hplaced hup, fun hnew hstep hno => ?_, fun hnew hstep hyes => ?_⟩
    · exact (abortFloodRx_other_spec hplaced hup hnew hstep).1 hno
    · exact ⟨_, (abortFloodRx_other_spec hplaced hup hnew hstep).2 hyes, missedFlood_spec hyes⟩
  case fence =>
    intro f took on
    refine ⟨exec_fenceFloodRx_of_known hplaced hup, fun hnew => ?_⟩
    exact ⟨_, exec_fenceFloodRx_of_new hplaced hup hnew, applyFence_of_new (not_mem_fences_floodFrom hnew)⟩

end Sys2Proof.Proofs
end

section
/-! PROOFS. Events of the step line: scalars, steering, numeric summaries, the watchdog, site time, ADVANCE. -/

namespace Sys2Proof.Proofs

open Sys2Proof.Machine Sys2Proof.Laws

/-! ### Steering (R152, R153) -/

section
variable {k : Steering} {slot e : Nat} {counts : List Nat}

theorem result_of_not_awaited (h : slot ∉ k.awaited) : k.result slot e counts = k := if_pos (by simpa using h)

/-- The slot with a decision for rung `n`, which comes behind a change that is pending. -/
def decided (x : SteerSlot) (n e : Nat) : SteerSlot :=
  if x.pending then { x with queued := some (n, e + 2) } else { x with pendRung := n, pending := true, pendStep := e + 2 }

/-- An awaited result leaves the other slots, and moves its own where the decision differs from the rung it starts from. -/
theorem result_of_awaited (h : slot ∈ k.awaited) :
    (k.result slot e counts).awaited = k.awaited.filter (fun n => n != slot) ∧
      ∀ n, smapGet ({} : SteerSlot) (k.result slot e counts).slots n =
        if n = slot ∧ ((smapGet {} k.slots slot).decide k counts ≠ (smapGet {} k.slots slot).held ∧ (smapGet ({} : SteerSlot) k.slots slot).pinned = false)
          then decided (smapGet {} k.slots slot) ((smapGet {} k.slots slot).decide k counts) e else smapGet {} k.slots n := by
  have hform : k.result slot e counts = { k with
      awaited := k.awaited.filter (fun n => n != slot),
      slots := if (smapGet {} k.slots slot).decide k counts = (smapGet {} k.slots slot).held || (smapGet ({} : SteerSlot) k.slots slot).pinned then k.slots
        else smapSet k.slots slot (decided (smapGet {} k.slots slot) ((smapGet {} k.slots slot).decide k counts) e) } := if_neg (by simpa using h)
  rw [hform]
  refine ⟨rfl, fun n => ?_⟩
  generalize smapGet {} k.slots slot = x
  dsimp only
  by_cases hstay : x.decide k counts = x.held ∨ x.pinned = true
  · rw [if_pos (by simpa using hstay), if_neg]
    rintro ⟨-, hmove, hfree⟩
    rcases hstay with hstay | hstay
    · exact hmove hstay
    · exact Bool.false_ne_true (hfree.symm.trans hstay)
  · obtain ⟨hmove, hfree⟩ := not_or.mp hstay
    rw [if_neg (by simpa using hstay), smapGet_smapSet]
    by_cases hn : n = slot
    · rw [if_pos hn, if_pos ⟨hn, hmove, by simpa using hfree⟩]
    · rw [if_neg hn, if_neg (fun h => hn h.1)]

/-- The decision of a slot (R153): one rung up, one down, or the rung held. -/
theorem decide_eq (x : SteerSlot) (k : Steering) (counts : List Nat) : x.decide k counts =
    if counts.getD 0 0 = 0 then x.held
    else if k.tHi * counts.getD 0 0 < (counts.getD 1 0 + counts.getD 2 0) * 2 ^ 24 ∧ x.held < x.maxRung then x.held + 1
    else if (counts.getD 3 0 + counts.getD 4 0) * 2 ^ 24 < k.tLo * counts.getD 0 0 ∧ x.minRung < x.held then x.held - 1
    else x.held := by
  unfold SteerSlot.decide
  simp only [Bool.and_eq_true, decide_eq_true_eq]

end

/-- A field after the result of a steering round. -/
def steered (slot e : Nat) (counts : List Nat) (d : Field) : Field := { d with steer := d.steer.result slot e counts }

section
variable {s : State}

/-- The step whose window a steering result ends. -/
def windowEnd (s : State) : Nat := if 0xF000 ≤ s.bcn.phase then s.bcn.step else s.bcn.step - 1

theorem exec_steerRoundResult_eq (slot : Fin 64) (counts : List Nat) : exec (.steerRoundResult slot counts) s =
    .next ((s.roundOver 5 slot (windowEnd s)).forAll s.trainFields (fun t f => t.modFld f (steered slot (windowEnd s) counts))) := rfl

theorem steerRoundResult_spec (slot : Fin 64) (counts : List Nat) :
    ∃ t, exec (.steerRoundResult slot counts) s = .next t ∧
      (let u := s.roundOver 5 slot (windowEnd s)
       t = { u with fields := t.fields } ∧ u.fields = s.fields ∧
       (s.bcn.waits = [] → u = { s with bcn := { s.bcn with rounds := u.bcn.rounds, roundCount := u.bcn.roundCount } })) ∧
      (∀ f, t.fld f = if f ∈ s.trainFields then steered slot (windowEnd s) counts (s.fld f) else s.fld f) := by
  have honly := forAll_modFld_only (s.roundOver 5 slot (windowEnd s)) (fun _ => steered slot (windowEnd s) counts) s.trainFields
  have hfld := fld_forAll_modFld (s.roundOver 5 slot (windowEnd s)) (fun _ => steered slot (windowEnd s) counts) (nodup_trainFields (s := s))
  have hfields : (s.roundOver 5 slot (windowEnd s)).fields = s.fields := by rw [(onlyRounds_roundOver 5 slot (windowEnd s)).1]
  refine ⟨_, exec_steerRoundResult_eq slot counts, ⟨honly, hfields, fun hwaits => roundOver_of_no_waits hwaits 5 slot (windowEnd s)⟩, fun f => ?_⟩
  rw [hfld]
  unfold State.fld
  rw [hfields]

/-- What the decision means for the slot, by the cases of the sums. -/
theorem steered_slot {slot : Fin 64} {counts : List Nat} {e : Nat} {d : Field} (h : slot.val ∈ d.steer.awaited) :
    let k := d.steer
    let x := smapGet ({} : SteerSlot) k.slots slot
    let y := smapGet ({} : SteerSlot) (steered slot e counts d).steer.slots slot
    let lost := (counts.getD 1 0 + counts.getD 2 0) * 2 ^ 24
    let narrow := (counts.getD 3 0 + counts.getD 4 0) * 2 ^ 24
    (steered slot e counts d).steer.awaited = k.awaited.filter (fun n => n != slot.val) ∧
      (∀ n, n ≠ slot.val → smapGet ({} : SteerSlot) (steered slot e counts d).steer.slots n = smapGet ({} : SteerSlot) k.slots n) ∧
      (x.pinned = true ∨ counts.getD 0 0 = 0 → y = x) ∧
      let r := if x.pending = true then x.pendRung else x.rung
      let moved := fun (n : Nat) => if x.pending = true then { x with queued := some (n, e + 2) }
        else { x with pendRung := n, pending := true, pendStep := e + 2 }
      (x.pinned = false → counts.getD 0 0 ≠ 0 → k.tHi * counts.getD 0 0 < lost → r < x.maxRung → y = moved (r + 1)) ∧
      (x.pinned = false → counts.getD 0 0 ≠ 0 → lost ≤ k.tHi * counts.getD 0 0 → narrow < k.tLo * counts.getD 0 0 → x.minRung < r → y = moved (r - 1)) ∧
      (lost ≤ k.tHi * counts.getD 0 0 ∨ x.maxRung ≤ r → k.tLo * counts.getD 0 0 ≤ narrow ∨ r ≤ x.minRung → y = x) := by
  intro k x y lost narrow
  obtain ⟨hawaited, hslots⟩ := result_of_awaited (e := e) (counts := counts) h
  have hy : y = if x.decide k counts ≠ x.held ∧ x.pinned = false then decided x (x.decide k counts) e else x := by
    refine (hslots slot).trans ?_
    simp only [true_and]
    rfl
  have hdecide := decide_eq x k counts
  refine ⟨hawaited, fun n hn => (hslots n).trans (if_neg (fun hboth => hn hboth.1)), fun hstay => ?_, ?_⟩
  · rw [hy]
    refine if_neg (fun hboth => ?_)
    rcases hstay with hpinned | hzero
    · exact Bool.false_ne_true (hboth.2.symm.trans hpinned)
    · rw [if_pos hzero] at hdecide
      exact hboth.1 hdecide
  intro r moved
  have hr : x.held = r := rfl
  rw [hr] at hdecide hy
  refine ⟨fun hfree hsome hloss hroom => ?_, fun hfree hsome hkept hless hroom => ?_, fun hup hdown => ?_⟩
  · rw [if_neg hsome, if_pos ⟨hloss, hroom⟩] at hdecide
    rw [hy, hdecide, if_pos ⟨by omega, hfree⟩]
    rfl
  · rw [if_neg hsome, if_neg (fun hboth => absurd hboth.1 (Nat.not_lt.mpr hkept)), if_pos ⟨hless, hroom⟩] at hdecide
    rw [hy, hdecide, if_pos ⟨by omega, hfree⟩]
    rfl
  · have hsame : x.decide k counts = r := by
      rw [hdecide]
      split
      · rfl
      · rw [if_neg, if_neg]
        · rintro ⟨hless, hroom⟩
          rcases hdown with hge | hle
          · exact absurd hless (Nat.not_lt.mpr hge)
          · exact absurd hroom (Nat.not_lt.mpr hle)
        · rintro ⟨hloss, hroom⟩
          rcases hup with hge | hle
          · exact absurd hloss (Nat.not_lt.mpr hge)
          · exact absurd hroom (Nat.not_lt.mpr hle)
    rw [hy, hsame]
    exact if_neg (fun hboth => hboth.1 rfl)

end

/-! ### Numeric summaries (R549) -/

theorem getLsbD_setBitW (w : Word) {i k : Nat} (hi : i < 32) : (setBitW w k).getLsbD i = (w.getLsbD i || decide (k = i)) := by
  unfold setBitW
  rw [BitVec.getLsbD_or, BitVec.getLsbD_ofNat, Nat.testBit_two_pow]
  simp only [hi, decide_true, Bool.true_and]

/-- A sticky bit is set, and no other changes. -/
theorem status_sticky (m : Meter) (bit tag : Nat) {i : Nat} (hi : i < 32) :
    (m.sticky bit tag).status.getLsbD i = (m.status.getLsbD i || decide (bit = i)) := by
  have hset : (m.sticky bit tag).status = if m.status.toNat.testBit bit then m.status else setBitW m.status bit := by
    unfold Meter.sticky
    dsimp only
    split <;> split <;> rfl
  rw [hset]
  split
  case isTrue hbit =>
    by_cases heq : bit = i
    · subst heq
      have hbit : m.status.getLsbD bit = true := hbit
      rw [hbit, Bool.true_or]
    · rw [decide_eq_false heq, Bool.or_false]
  case isFalse => exact getLsbD_setBitW _ hi

/-- The bits of a tile join the field's; FFL_VALID only where the tile has a capture waiting. -/
theorem status_absorb (due : SMap Nat) (cap : Bool) {i : Nat} (hi : i < 32) (m : Meter) :
    (m.absorb due cap).status.getLsbD i = (m.status.getLsbD i || ((smapFind due i).isSome && (i != bitFfl || cap))) := by
  unfold Meter.absorb
  induction due generalizing m with
  | nil => simp [smapFind]
  | cons p due ih =>
    rw [List.foldl_cons, ih]
    have hhead : (if p.1 = bitFfl && (m.status.toNat.testBit bitFfl || !cap) then m else m.sticky p.1 p.2).status.getLsbD i =
        (m.status.getLsbD i || (decide (p.1 = i) && (i != bitFfl || cap))) := by
      split
      case isTrue h =>
        obtain ⟨hffl, hno⟩ : p.1 = bitFfl ∧ (m.status.getLsbD bitFfl = true ∨ cap = false) := by simpa [BitVec.getLsbD] using h
        by_cases heq : p.1 = i
        · rcases hno with hset | hcap
          · rw [← heq, hffl, hset, Bool.true_or]
          · simp [← heq, hffl, hcap]
        · simp [heq]
      case isFalse h =>
        rw [status_sticky _ _ _ hi]
        by_cases heq : p.1 = i
        · have hopen : (i != bitFfl || cap) = true := by
            by_cases hffl : i = bitFfl
            · simp only [heq, hffl, decide_true, Bool.true_and, Bool.or_eq_true, Bool.not_eq_true', not_or] at h
              simp [h.2]
            · simp [hffl]
          rw [hopen, Bool.and_true]
        · simp [heq]
    rw [hhead, smapFind]
    generalize (i != bitFfl || cap) = allowed
    by_cases heq : p.1 = i
    · cases allowed <;> simp [heq]
    · simp [heq]

section
variable {s : State}

/-- A field's meter changes in its own field alone, of which it leaves all but the captures, and takes the status that the change gives. -/
theorem fieldMeter_fld (s : State) (f : Nat) (g : Meter → Meter) : ∃ x : Field, x.meter.status = (g (s.fld f).meter).status ∧
    { x with meter := (s.fld f).meter, caps := (s.fld f).caps } = s.fld f ∧ ∀ k, (s.fieldMeter f g).fld k = if k = f then x else s.fld k := by
  have hev : ∀ (x : State) k, (x.numericEvents f (s.fld f).meter.status).fld k = x.fld k := fun x k => by
    rw [(onlyEvents_numericEvents x f (s.fld f).meter.status).1]
    rfl
  have hplain : ∀ (g' : Meter → Meter) k, (s.modMeter f g').fld k = if k = f then { s.fld f with meter := { g' (s.fld f).meter with due := [] } } else s.fld k :=
    fun g' k => modFld_fld ..
  have htwice : ∀ (g' : Meter → Meter) (h : Field → Field) k, ((s.modMeter f g').modFld f h).fld k =
      if k = f then h { s.fld f with meter := { g' (s.fld f).meter with due := [] } } else s.fld k := fun g' h k => by
    rw [modFld_fld, hplain, hplain, if_pos rfl]
    split <;> rfl
  have hsame : ∀ k, ((s.modMeter f g).numericEvents f (s.fld f).meter.status).fld k = _ := fun k => (hev ..).trans (hplain g k)
  unfold State.fieldMeter
  dsimp only
  split
  · exact ⟨_, by exact rfl, by exact rfl, hsame⟩
  · split
    case isFalse => exact ⟨_, by exact rfl, by exact rfl, hsame⟩
    refine ⟨_, ?_, ?_, fun k => (hev ..).trans (htwice _ _ k)⟩
    · exact rfl
    · exact rfl

theorem nsummaryPropagate_unserved {n : Fin 1024} (h : s.served n = false) : exec (.nsummaryPropagate n) s = .next s := by
  refine if_pos ?_
  rw [h]
  rfl

theorem nsummaryPropagate_served {n : Fin 1024} (hserved : s.served n = true) :
    ∃ t, exec (.nsummaryPropagate n) s = .next t ∧ t = { s with tiles := t.tiles, fields := t.fields, host := t.host, hostMem := t.hostMem, outbox := t.outbox } ∧
      (∀ k, t.tile k = if k = n.val then { s.tile n with meter := { (s.tile n).meter with due := [] } } else s.tile k) ∧
      (∀ f, { t.fld f with meter := (s.fld f).meter, caps := (s.fld f).caps } = s.fld f) ∧ (∀ f, f ≠ n.val / 16 → t.fld f = s.fld f) ∧
      (∀ i, i < 9 → (t.fld (n.val / 16)).meter.status.getLsbD i = ((s.fld (n.val / 16)).meter.status.getLsbD i ||
        ((smapFind (s.tile n).meter.due i).isSome && (i != 8 || (s.fld (n.val / 16)).caps.any (fun c => c.1 == n.val))))) := by
  by_cases hdue : (s.tile n).meter.due = []
  · have hexec : exec (.nsummaryPropagate n) s = .next s := if_pos (by rw [hdue]; simp)
    refine ⟨s, hexec, rfl, fun k => ?_, fun f => rfl, fun f _ => rfl, fun i _ => ?_⟩
    · split
      case isTrue hk => rw [hk, ← hdue]
      case isFalse => rfl
    · rw [hdue]
      simp [smapFind]
  · have hexec : exec (.nsummaryPropagate n) s = .next (((s.fieldMeter (n.val / 16) (fun d =>
        d.absorb (s.tile n).meter.due ((s.fld (n.val / 16)).caps.any (fun c => c.1 == n.val)))).modFld (n.val / 16)
          (fun d => { d with caps := d.caps.filter (fun c => c.1 != n.val) })).modTile n (fun t => { t with meter := { t.meter with due := [] } })) := by
      refine if_neg ?_
      rw [hserved]
      simpa using hdue
    have honly := onlyFields_fieldMeter s (n.val / 16) (fun d => d.absorb (s.tile n).meter.due ((s.fld (n.val / 16)).caps.any (fun c => c.1 == n.val)))
    obtain ⟨x, hstatus, hrest, hfld⟩ := fieldMeter_fld s (n.val / 16) (fun d => d.absorb (s.tile n).meter.due ((s.fld (n.val / 16)).caps.any (fun c => c.1 == n.val)))
    generalize s.fieldMeter (n.val / 16) _ = u at *
    have hfinal : ∀ f, ((u.modFld (n.val / 16) (fun d => { d with caps := d.caps.filter (fun c => c.1 != n.val) })).modTile n
        (fun t => { t with meter := { t.meter with due := [] } })).fld f =
        if f = n.val / 16 then { x with caps := x.caps.filter (fun c => c.1 != n.val) } else s.fld f := fun f => by
      refine (modFld_fld u (n.val / 16) (fun d => { d with caps := d.caps.filter (fun c => c.1 != n.val) }) f).trans ?_
      rw [hfld, hfld, if_pos rfl]
      split <;> rfl
    have htile : ∀ k, u.tile k = s.tile k := fun k => by rw [honly]; rfl
    refine ⟨_, hexec, ?_, fun k => ?_, fun f => ?_, fun f hf => (hfinal f).trans (if_neg hf), fun i hi => ?_⟩
    · rw [honly]
      rfl
    · refine (modTile_tile ..).trans ?_
      show (if k = n.val then { u.tile n with meter := { (u.tile n).meter with due := [] } } else u.tile k) = _
      rw [htile, htile]
    · rw [hfinal]
      split
      case isTrue hf =>
        rw [hf]
        exact hrest
      case isFalse => rfl
    · rw [hfinal, if_pos rfl]
      exact (congrArg (fun w => w.getLsbD i) hstatus).trans (status_absorb _ _ (by omega) _)

/-! ### The watchdog (R354, R355) -/

theorem stepOverdue_idle {d : Nat} (h : (s.bcn.begun = false ∧ s.bcn.recovering = false) ∨ s.bcn.overduePosted = true ∨ d ≤ s.bcn.overdueLimit) :
    exec (.stepOverdue d) s = .next s := by
  refine if_pos ?_
  simp only [Bool.or_eq_true, Bool.not_eq_true', Bool.or_eq_false_iff, decide_eq_true_eq]
  exact or_assoc.mpr h

theorem stepOverdue_past {d : Nat} (hrun : s.bcn.begun = true ∨ s.bcn.recovering = true) (hfirst : s.bcn.overduePosted = false)
    (hlate : s.bcn.overdueLimit < d) :
    ∃ t, exec (.stepOverdue d) s = .next t ∧ t = { s with bcn := t.bcn, host := t.host, hostMem := t.hostMem, outbox := t.outbox } ∧
      t.bcn = { s.bcn with overdue := true, overduePosted := true } ∧ t.host.cmds = s.host.cmds := by
  refine ⟨_, if_neg ?_, ?_⟩
  · simp only [Bool.or_eq_true, Bool.not_eq_true', Bool.or_eq_false_iff, decide_eq_true_eq, hfirst]
    rintro ((⟨hb, hr⟩ | h) | h)
    · rcases hrun with h | h
      · exact Bool.false_ne_true (hb.symm.trans h)
      · exact Bool.false_ne_true (hr.symm.trans h)
    · exact Bool.false_ne_true h
    · omega
  · have hev := (onlyEvents_event (s.modBcn (fun b => { b with overdue := true, overduePosted := true })) 6 3 16 s.bcn.topMark
      (leBytes 40 ((List.range 64).foldl (fun a f => a + s.overdueField f * 2 ^ (5 * f)) 0))).1
    generalize (s.modBcn (fun b => { b with overdue := true, overduePosted := true })).event 6 3 16 s.bcn.topMark _ = e at *
    rw [hev]
    exact ⟨rfl, rfl, rfl⟩

theorem overdueLimit_first (h : s.bcn.durs = []) : s.bcn.overdueLimit = s.bcn.initMs * 1200000 := if_pos (by rw [h]; rfl)

theorem overdueLimit_one {d : Nat} (h : s.bcn.durs = [d]) : s.bcn.overdueLimit = s.bcn.mult * d := by
  refine (if_neg (by rw [h]; simp)).trans ?_
  rw [h]
  unfold medianOf
  simp

/-! ### Site time (R352) and ADVANCE (R341, R344) -/

theorem siteMessage_after_edge (ns : Nat) (hedge : s.bcn.edgeSeen = true) : ∃ t, exec (.siteMessage ns) s = .next t ∧
    t = { s with bcn := { s.bcn with siteTime := ns % 2 ^ 64, siteValid := t.bcn.siteValid, edgeSeen := false, prevEdge := none } } ∧
    (s.bcn.siteValid = false ∨ s.bcn.prevEdge = none → t.bcn.siteValid = true) ∧
    (∀ c, s.bcn.siteValid = true → s.bcn.prevEdge = some c →
      let counted := 6 * s.bcn.siteTime + 5 * (s.bcn.edgeCclk - c)
      (t.bcn.siteValid = true ↔ 6 * ns ≤ counted + 6000 ∧ counted ≤ 6 * ns + 6000)) := by
  refine ⟨_, if_neg (by rw [hedge]; decide), rfl, fun h => ?_, fun c hvalid hprev => ?_⟩
  · dsimp only [State.modBcn]
    rcases h with h | h
    · rw [h]
      rfl
    · rw [h]
      cases s.bcn.siteValid <;> rfl
  · dsimp only [State.modBcn]
    rw [hvalid, hprev]
    simp only [Bool.not_eq_true', decide_eq_false_iff_not, Nat.not_lt]
    split <;> omega

theorem advance_held {n : Nat} (hn : s.bcn.advance = some n)
    (h : s.isKeeper = false ∨ s.bcn.ext = false ∨ s.bcn.hold = true ∨ s.outer.state = 4 ∨ (∃ k, s.bcn.startReq = some k ∧ k ≠ n)) :
    exec .advance s = .next s := by
  show execAdvance s = _
  unfold execAdvance
  rw [hn]
  refine if_neg ?_
  simp only [Bool.and_eq_true, Bool.not_eq_true', bne_iff_ne]
  rintro ⟨⟨⟨⟨hkeeper, hext⟩, hhold⟩, hstate⟩, hstart⟩
  rcases h with h | h | h | h | ⟨k, hk, hne⟩
  · exact Bool.false_ne_true (h.symm.trans hkeeper)
  · exact Bool.false_ne_true (h.symm.trans hext)
  · exact Bool.false_ne_true (hhold.symm.trans h)
  · exact hstate h
  · rw [hk] at hstart
    exact hne (by simpa using hstart)

theorem advance_lets_begin {n : Nat} (hn : s.bcn.advance = some n) (hkeeper : s.isKeeper = true) (hext : s.bcn.ext = true)
    (hhold : s.bcn.hold = false) (hstate : s.outer.state ≠ 4) (hstart : s.bcn.startReq = none ∨ s.bcn.startReq = some n) :
    exec .advance s = .next (State.broadcast { s with bcn := { s.bcn with advance := none, running := true, opened := true } }
      { op := 7, key := 3, index := 0, step := n, attempt := s.bcn.attempt, payload := [] }) := by
  show execAdvance s = _
  unfold execAdvance
  rw [hn]
  refine if_pos ?_
  rw [hkeeper, hext, hhold]
  rcases hstart with h | h <;> simp [h, hstate]

theorem advance_none (hn : s.bcn.advance = none) : exec .advance s = .next s := by
  show execAdvance s = _
  unfold execAdvance
  rw [hn]

end

/-- Settles O50: each event changes what it names, and nothing where it is out of place. -/
theorem stepLineEvents : Obligations.StepLineEvents := by
  unfold Obligations.StepLineEvents
  refine ⟨fun s slot v step => ?_, fun s slot counts => ?_, fun s n hserved => nsummaryPropagate_served hserved, fun s n h => nsummaryPropagate_unserved h,
    fun s d => ⟨stepOverdue_idle, stepOverdue_past, overdueLimit_first, overdueLimit_one⟩, fun s c => ⟨_, rfl, rfl⟩,
    fun s ns => ⟨fun h => if_pos (by rw [h]; rfl), siteMessage_after_edge ns⟩, fun s => rfl,
    fun s n hn => ⟨advance_lets_begin hn, advance_held hn⟩, fun s hn => advance_none hn⟩
  · show execScalarDelivery slot v step s = _
    unfold execScalarDelivery
    cases s.place.placed <;> rfl
  · obtain ⟨t, hexec, hframe, hfld⟩ := steerRoundResult_spec (s := s) slot counts
    have hfield : ∀ f, t.fld f = s.fld f ∨ t.fld f = steered slot (windowEnd s) counts (s.fld f) := fun f => by
      rw [hfld]
      split
      · exact .inr rfl
      · exact .inl rfl
    refine ⟨t, hexec, hframe, fun f => ?_, fun f hf => (hfld f).trans (if_neg hf), fun f hf hno => ?_, fun f hf hawaited => ?_⟩
    · rcases hfield f with h | h
      · rw [h]
      · rw [h]
        rfl
    · rw [hfld, if_pos hf]
      unfold steered
      rw [result_of_not_awaited hno]
    · rw [hfld, if_pos hf]
      exact steered_slot hawaited

end Sys2Proof.Proofs
end

section
/-! PROOFS. Failed tiles, store words, field controllers and channels. -/

namespace Sys2Proof.Proofs

open Sys2Proof.Machine Sys2Proof.Laws

/-! ### What an abort, a stop and their commands leave of the units -/

/-- The units of a field: its slots, its controller, its stores' flag and its stack. -/
def unitsOf (d : Field) : Nat × Bool × Nat × Bool × Bool × Bool × Bool × Nat × Bool × Stack :=
  (d.fenced, d.spareUsed, d.spareFor, d.factory, d.fcFenced, d.gone, d.tsUe, d.restarts, d.restarting, d.stack)

/-- The fuses, the field that MOD_FAULT names and every field's units are kept, and no bit of MOD_FAULT is cleared. -/
structure KeepsUnits (s t : State) : Prop where
  fuses : t.fuses = s.fuses
  faultField : t.mods.faultField = s.mods.faultField
  fault : ∀ i, s.mods.fault.getLsbD i = true → t.mods.fault.getLsbD i = true
  units : ∀ f, unitsOf (t.fld f) = unitsOf (s.fld f)

theorem KeepsUnits.refl (s : State) : KeepsUnits s s := ⟨rfl, rfl, fun _ h => h, fun _ => rfl⟩

theorem KeepsUnits.trans {s t u : State} (h : KeepsUnits s t) (k : KeepsUnits t u) : KeepsUnits s u :=
  ⟨k.fuses.trans h.fuses, k.faultField.trans h.faultField, fun i hi => k.fault i (h.fault i hi), fun f => (k.units f).trans (h.units f)⟩

/-- A change that leaves fuses, module registers and fields alone keeps the units. -/
theorem keepsUnits_of_eq {s t : State} (hfuses : t.fuses = s.fuses) (hmods : t.mods = s.mods) (hfields : t.fields = s.fields) : KeepsUnits s t :=
  ⟨hfuses, by rw [hmods], by rw [hmods]; exact fun _ h => h, fun f => by unfold State.fld; rw [hfields]⟩

theorem keepsUnits_of_events {s t : State} (h : OnlyEvents s t) : KeepsUnits s t :=
  keepsUnits_of_eq (by rw [h.1]) (by rw [h.1]) (by rw [h.1])

theorem keepsUnits_of_posts {s t : State} (h : OnlyPosts s t) : KeepsUnits s t := keepsUnits_of_eq (by rw [h]) (by rw [h]) (by rw [h])

theorem keepsUnits_of_sends {s t : State} (h : OnlySends s t) : KeepsUnits s t := keepsUnits_of_eq (by rw [h]) (by rw [h]) (by rw [h])

theorem keepsUnits_forAll {α : Type} (xs : List α) (g : State → α → State) (hg : ∀ s x, KeepsUnits s (g s x)) (s : State) :
    KeepsUnits s (s.forAll xs g) :=
  forAll_keeps (KeepsUnits s) xs g (fun t x _ ht => ht.trans (hg t x)) s (KeepsUnits.refl s)

theorem keepsUnits_modFld (s : State) (f : Nat) (g : Field → Field) (hg : unitsOf (g (s.fld f)) = unitsOf (s.fld f)) : KeepsUnits s (s.modFld f g) :=
  ⟨rfl, rfl, fun _ h => h, fun k => by
    rw [modFld_fld]
    split
    case isTrue hk => rw [hk, hg]
    case isFalse => rfl⟩

theorem getLsbD_faultBit (s : State) (bit i : Nat) (hi : i < 32) :
    (s.faultBit bit).mods.fault.getLsbD i = (s.mods.fault.getLsbD i || decide (bit = i)) := getLsbD_setBitW s.mods.fault hi

theorem keepsUnits_faultBit (s : State) (bit : Nat) : KeepsUnits s (s.faultBit bit) :=
  ⟨rfl, rfl, fun i h => by
    rw [getLsbD_faultBit s bit i (BitVec.lt_of_getLsbD h), h, Bool.true_or], fun _ => rfl⟩

theorem keepsUnits_modGroup (s : State) (f g : Nat) (h : Group → Group) : KeepsUnits s (s.modGroup f g h) := by
  unfold State.modGroup
  split
  · exact keepsUnits_modFld _ _ _ rfl
  · exact KeepsUnits.refl s

theorem keepsUnits_transom (s : State) (p : TileProgramP) (acq : Bool) : KeepsUnits s (s.transom p acq) :=
  keepsUnits_forAll _ _ (fun s _ => keepsUnits_forAll _ _ (fun s _ => keepsUnits_modGroup s _ _ _) s) s

theorem keepsUnits_tiles {s t : State} (h : KeepsUnits s t) (tiles : SMap TileState) : KeepsUnits s { t with tiles := tiles } :=
  ⟨h.fuses, h.faultField, h.fault, h.units⟩

theorem keepsUnits_foldCounts (s : State) (f : Nat) : KeepsUnits s (s.foldCounts f) := keepsUnits_tiles (keepsUnits_modFld s f _ rfl) _

theorem keepsUnits_modBcn (s : State) (g : Beacon → Beacon) : KeepsUnits s (s.modBcn g) := keepsUnits_of_eq rfl rfl rfl

theorem keepsUnits_modHost (s : State) (g : HostLink → HostLink) : KeepsUnits s (s.modHost g) := keepsUnits_of_eq rfl rfl rfl

theorem keepsUnits_modPart (s : State) (p : Nat) (g : Partition → Partition) : KeepsUnits s (s.modPart p g) := keepsUnits_of_eq rfl rfl rfl

theorem keepsUnits_programEnd (s : State) (uid status : Nat) : KeepsUnits s (s.programEnd uid status) := by
  unfold State.programEnd
  split
  · exact KeepsUnits.refl s
  · split
    · split
      · split
        · exact (keepsUnits_modHost ..).trans (keepsUnits_transom ..)
        · exact KeepsUnits.refl s
      · exact ((keepsUnits_transom ..).trans (keepsUnits_forAll _ _ (fun s _ => keepsUnits_foldCounts s _) _)).trans (keepsUnits_of_eq rfl rfl rfl)
    · exact KeepsUnits.refl s

theorem keepsUnits_dropTile (s : State) (t status : Nat) : KeepsUnits s (s.dropTile t status) := by
  unfold State.dropTile
  dsimp only
  refine KeepsUnits.trans ?_ (keepsUnits_forAll _ _ (fun s u => keepsUnits_programEnd s u status) _)
  exact keepsUnits_of_eq rfl rfl rfl

theorem keepsUnits_knowDecision (s : State) : KeepsUnits s s.knowDecision := by
  unfold State.knowDecision
  split
  · exact KeepsUnits.refl s
  · exact keepsUnits_of_eq rfl rfl rfl

theorem keepsUnits_clearGrads (s : State) (f : Nat) (gs : List (Nat × Group)) : KeepsUnits s (gs.foldl (fun s g => s.clearGrad f g.2) s) := by
  induction gs generalizing s with
  | nil => exact KeepsUnits.refl s
  | cons g gs ih => exact KeepsUnits.trans (t := s.clearGrad f g.2) (keepsUnits_of_eq rfl rfl rfl) (ih _)

theorem keepsUnits_abortField (step : Nat) (s : State) (f : Nat) : KeepsUnits s (abortField step s f) :=
  (keepsUnits_clearGrads s f _).trans (keepsUnits_modFld _ _ _ rfl)

theorem keepsUnits_abortPartition (s : State) (p : Option Nat) : KeepsUnits s (abortPartition s p) := by
  cases p with
  | none => exact ⟨rfl, rfl, fun _ h => h, fun _ => rfl⟩
  | some p =>
    have hstart : KeepsUnits s (abortCommands s p) := ⟨rfl, rfl, fun _ h => h, fun _ => rfl⟩
    have hfields := keepsUnits_forAll s.trainFields (abortField s.bcn.step) (keepsUnits_abortField _) (abortCommands s p)
    exact (hstart.trans hfields).trans (keepsUnits_of_eq rfl rfl rfl)

theorem keepsUnits_abandonStep (s : State) (status : Nat) : KeepsUnits s (s.abandonStep status) := by
  unfold State.abandonStep
  split
  · exact keepsUnits_of_eq rfl rfl rfl
  · exact keepsUnits_of_eq rfl rfl rfl

theorem keepsUnits_takeAbort (s : State) : KeepsUnits s s.takeAbort := by
  rw [takeAbort_eq_pastLimit]
  refine (keepsUnits_abortPartition s s.trainPart).trans ?_
  unfold pastLimit
  split
  · exact (((keepsUnits_abandonStep ..).trans (keepsUnits_faultBit ..)).trans (keepsUnits_of_posts (onlyPosts_postReady _))).trans
      (keepsUnits_of_events (onlyEvents_event ..))
  · exact KeepsUnits.refl _

theorem keepsUnits_requestAbort (s : State) : KeepsUnits s s.requestAbort := by
  unfold State.requestAbort
  refine (keepsUnits_knowDecision s).trans ?_
  generalize s.knowDecision = u
  dsimp only
  split
  · refine KeepsUnits.trans ?_ (keepsUnits_takeAbort _)
    exact (keepsUnits_of_sends (onlySends_floodFrom none (abortFrame u.bcn.step u.bcn.attempt) u)).trans (keepsUnits_modBcn ..)
  · exact KeepsUnits.refl _

theorem keepsUnits_stopNow (s : State) (p cause : Nat) : KeepsUnits s (s.stopNow p cause) := by
  unfold State.stopNow
  dsimp only
  refine KeepsUnits.trans ?_ (keepsUnits_of_events (onlyEvents_event ..))
  refine KeepsUnits.trans ?_ (keepsUnits_of_posts (onlyPosts_postReady _))
  refine KeepsUnits.trans ?_ (keepsUnits_modHost ..)
  exact keepsUnits_of_eq rfl rfl rfl

theorem keepsUnits_raiseLost (s : State) (part f cause : Nat) : KeepsUnits s (s.raiseLost part f cause) := by
  have hbit : KeepsUnits s (if cause = stHw then s else s.faultBit (causeBit cause)) := by
    split
    · exact KeepsUnits.refl s
    · exact keepsUnits_faultBit ..
  have hev := hbit.trans (keepsUnits_of_events (onlyEvents_event _ 10 (causeEvent cause) part f []))
  unfold State.raiseLost
  dsimp only
  generalize State.event _ 10 (causeEvent cause) part f [] = u at *
  split
  · refine hev.trans ((keepsUnits_knowDecision u).trans ?_)
    split
    · exact keepsUnits_of_eq rfl rfl rfl
    · exact (keepsUnits_requestAbort _).trans (keepsUnits_stopNow ..)
  · exact hev

theorem keepsUnits_loseCapacity (s : State) (f : Nat) : KeepsUnits s (s.loseCapacity f) := by
  unfold State.loseCapacity
  split
  · exact KeepsUnits.refl s
  · exact (keepsUnits_modFld _ _ _ rfl).trans (keepsUnits_raiseLost ..)

theorem keepsUnits_restartEmission (s : State) (f : Nat) : KeepsUnits s (s.restartEmission f) := keepsUnits_modFld _ _ _ rfl

theorem keepsUnits_oweRefill (s : State) (f i : Nat) : KeepsUnits s (s.oweRefill f i) := keepsUnits_modFld _ _ _ rfl

theorem keepsUnits_faultIn (s : State) (f : Nat) : KeepsUnits s (s.faultIn f) := by
  unfold State.faultIn
  split
  · exact keepsUnits_knowDecision s
  · exact KeepsUnits.refl s

/-! ### A tile that serves a slot fails while the spare is free (R15, R430) -/

section
variable {d : Field} {i : Nat}

theorem serves_of_unspared (hspare : d.spareUsed = false) {p : Nat} (h : d.serves i = some p) :
    p = i ∧ d.gone = false ∧ d.fcFenced = false ∧ d.fenced.testBit i = false := by
  unfold Field.serves at h
  rw [hspare] at h
  split at h
  case isTrue => cases h
  case isFalse hin =>
    simp only [Bool.or_eq_true, not_or, Bool.not_eq_true] at hin
    rw [if_neg (by simp)] at h
    split at h
    case isTrue => cases h
    case isFalse hfree => exact ⟨(Option.some.inj h).symm, hin.1, hin.2, by simpa using hfree⟩

/-- The loss of one tile that serves its own slot. -/
def ownLoss (i : Nat) : SlotLoss := { failed := [i], lost := [i], take := some i, spare := false }

theorem loss_of_served (hi : i < 16) (hspare : d.spareUsed = false) (hown : d.fenced.testBit 16 = false) (hserves : d.serves i = some i) :
    d.loss [i] = ownLoss i := by
  obtain ⟨-, hgone, hfc, hfree⟩ := serves_of_unspared hspare hserves
  have hone : ∀ k, d.serves k = if d.fenced.testBit k = true then none else some k := fun k => by simp [Field.serves, hgone, hfc, hspare]
  have hfailed : (List.range 17).filter (fun p => [i].contains p && !d.fenced.testBit p) = [i] := by
    refine Eq.trans (List.filter_congr (fun p _ => ?_)) (filter_range_beq (show i < 17 by omega))
    by_cases hp : p = i
    · simp [hp, hfree]
    · simp [hp]
  unfold Field.loss
  dsimp only
  rw [hfailed]
  generalize hlost : List.filter _ (List.range 16) = lost
  have hl : lost = [i] := by
    rw [← hlost]
    refine Eq.trans (List.filter_congr (fun k _ => ?_)) (filter_range_beq hi)
    rw [hone]
    by_cases hk : k = i
    · simp [hk, hfree]
    · by_cases hfenced : d.fenced.testBit k = true
      · simp [hfenced, hk]
      · simp [hfenced, hk]
  rw [hl, hspare, hown]
  simp [ownLoss, show ¬ 16 = i by omega]

end

section
variable {s : State} {f i : Nat}

/-- A state with the fault of a field's tile noted. -/
def faulted (s : State) (f : Nat) : State := (s.faultBit 0).faultField f

/-- The spare of a field in the place of a failed tile, with the events of it. -/
def replaced (s : State) (f i : Nat) : State := (s.applyLoss f (ownLoss i)).lossEvents f (ownLoss i)

theorem onlyEvents_lossEvents (x : SlotLoss) (s : State) : OnlyEvents s (s.lossEvents f x) := by
  unfold State.lossEvents
  have hspare : OnlyEvents s (if x.spare then s.event 10 6 (s.evPart f) f [] else s) := by
    split
    · exact onlyEvents_event ..
    · exact OnlyEvents.refl s
  refine hspare.trans ?_
  dsimp only
  generalize (if x.spare then s.event 10 6 (s.evPart f) f [] else s) = u
  split
  · exact (onlyEvents_event u ..).trans (onlyEvents_event ..)
  · exact OnlyEvents.refl _

/-- What the spare's taking over leaves of a state, and the field that it is in. -/
theorem replaced_spec (s : State) (f i : Nat) : let t := replaced s f i
    t = { s with tiles := t.tiles, fields := t.fields, mem := t.mem, host := t.host, hostMem := t.hostMem, outbox := t.outbox } ∧
      (∃ x owed, t.fld f = spareTook (s.fld f) i x owed) ∧ ∀ g, g ≠ f → t.fld g = s.fld g := by
  have hloss : s.applyLoss f (ownLoss i) = { s with
      tiles := (s.applyLoss f (ownLoss i)).tiles, fields := (s.applyLoss f (ownLoss i)).fields, mem := (s.applyLoss f (ownLoss i)).mem } := by
    show (s.fenceSlot f i).remap f i = { s with
      tiles := ((s.fenceSlot f i).remap f i).tiles, fields := ((s.fenceSlot f i).remap f i).fields, mem := ((s.fenceSlot f i).remap f i).mem }
    unfold State.remap
    dsimp only
    split <;> rfl
  obtain ⟨-, hself, hother⟩ := applyLoss_of_taken (s := s) f i
  have hev := (onlyEvents_lossEvents (f := f) (ownLoss i) (s.applyLoss f (ownLoss i))).1
  have hfld : ∀ g, (replaced s f i).fld g = (s.applyLoss f (ownLoss i)).fld g := fun g => by
    unfold replaced
    rw [hev]
    rfl
  refine ⟨?_, ?_, fun g hg => (hfld g).trans (hother g hg)⟩
  · unfold replaced
    generalize State.lossEvents _ f (ownLoss i) = e at *
    rw [hev, hloss]
  · rw [hfld]
    exact hself

/-- A tile that serves its slot fails: in a training partition with no COMMIT decided nothing is dropped and the step is aborted; else the
tile's descriptors are dropped, and a training partition stops at the step's end. -/
def ownFault (u : State) (f i : Nat) : State :=
  if u.isTrainField f = false then replaced ((faulted u f).dropTile (16 * f + i) stHw) f i
  else if u.pastDecision = false then (replaced (faulted u f) f i).requestAbort
  else if u.bcn.begun = true then (replaced ((faulted u f).dropTile (16 * f + i) stHw) f i).modPart (u.evPart f) (fun p => { p with cause := stHw })
  else (replaced ((faulted u f).dropTile (16 * f + i) stHw) f i).stopNow (u.evPart f) stHw

theorem failTiles_of_served (hi : i < 16) (hspare : (s.fld f).spareUsed = false) (hown : (s.fld f).fenced.testBit 16 = false)
    (hserves : (s.fld f).serves i = some i) : s.failTiles f [i] = ownFault (s.faultIn f) f i := by
  have hkept : (SlotLoss.unserved (ownLoss i)).isEmpty = true := by simp [SlotLoss.unserved, ownLoss]
  unfold State.failTiles
  rw [loss_of_served hi hspare hown hserves]
  refine (if_neg (by simp [ownLoss])).trans ?_
  generalize s.faultIn f = u
  dsimp only
  rw [if_neg (show ¬ (!(ownLoss i).unserved.isEmpty) = true by rw [hkept]; decide)]
  have hdrop : ∀ late : Bool, ((u.faultBit 0).faultField f).forAll (ownLoss i).lost (fun s k =>
      s.dropTile (16 * f + k) (if decide ((ownLoss i).take = some k) || late then stHw else stCapacity)) = (faulted u f).dropTile (16 * f + i) stHw := fun late => by
    show (faulted u f).dropTile (16 * f + i) (if decide (some i = some i) || late then stHw else stCapacity) = _
    rw [decide_eq_true rfl]
    rfl
  rw [hdrop]
  have hlost : (ownLoss i).lost.isEmpty = false := rfl
  rw [hlost]
  unfold ownFault replaced faulted
  cases u.isTrainField f
  case false => simp only [Bool.false_and, Bool.not_false, Bool.or_true, if_true, Bool.false_eq_true, if_false]
  case true =>
    cases u.pastDecision <;>
      simp only [Bool.true_and, Bool.not_true, Bool.not_false, Bool.or_false, if_true, Bool.false_eq_true, Bool.true_eq_false, if_false]

/-- With nothing in its queues, a tile's drop ends no program. -/
theorem dropTile_of_empty {n status : Nat} (h : ∀ q ∈ (s.tile n).queues, q.2.source = [] ∧ q.2.ring = [] ∧ q.2.started = []) :
    ∃ x, s.dropTile n status = s.setTile n x ∧ x.savedLanes = (s.tile n).savedLanes ∧ x.savedSems = (s.tile n).savedSems := by
  have hnone : (s.tile n).queues.flatMap (fun q => (q.2.source ++ q.2.ring ++ q.2.started).map (fun e => e.cmd)) = [] := by
    refine List.flatMap_eq_nil_iff.mpr (fun q hq => ?_)
    obtain ⟨hsource, hring, hstarted⟩ := h q hq
    rw [hsource, hring, hstarted]
    rfl
  refine ⟨{ s.tile n with queues := smapMap (fun _ q => { q with source := [], ring := [], started := [] }) (s.tile n).queues }, ?_, rfl, rfl⟩
  unfold State.dropTile
  dsimp only
  rw [hnone]
  rfl

theorem faultIn_of_not_train (h : s.isTrainField f = false) : s.faultIn f = s := if_neg (by rw [h]; decide)

/-- A tile at its reset values but for the lanes and semaphores that are saved (R91, R432). -/
def blankTile (x : TileState) : TileState := { lanes := x.savedLanes, sems := x.savedSems, savedLanes := x.savedLanes, savedSems := x.savedSems }

theorem remap_outside (htrain : s.isTrainField f = false) : (s.remap f i).tiles = smapSet s.tiles (16 * f + i) (blankTile (s.tile (16 * f + i))) ∧
    (s.remap f i).mem = memClear s.mem (storeBase (16 * f + i)) 0x2800000 := by
  unfold State.remap
  dsimp only
  rw [htrain]
  refine ⟨rfl, List.filter_congr (fun c _ => ?_)⟩
  rw [if_neg (by decide)]
  exact Bool.or_false _

/-- Outside a training partition the slot's tile starts at its reset values, the saved lanes and semaphores apart, and its store is blank. -/
theorem replaced_outside (htrain : s.isTrainField f = false) : let t := replaced s f i
    (∀ n, t.tile n = if n = 16 * f + i then blankTile (s.tile n) else s.tile n) ∧
    ∀ a, memRead t.mem a = if storeBase (16 * f + i) ≤ a ∧ a < storeBase (16 * f + i) + 0x2800000 then blankByte else memRead s.mem a := by
  have hev := (onlyEvents_lossEvents (f := f) (ownLoss i) (s.applyLoss f (ownLoss i))).1
  obtain ⟨htiles, hmem⟩ := remap_outside (s := s.fenceSlot f i) (f := f) (i := i) htrain
  have htiles : (replaced s f i).tiles = smapSet s.tiles (16 * f + i) (blankTile (s.tile (16 * f + i))) := by
    unfold replaced
    rw [hev]
    exact htiles
  have hmem : (replaced s f i).mem = memClear s.mem (storeBase (16 * f + i)) 0x2800000 := by
    unfold replaced
    rw [hev]
    exact hmem
  refine ⟨fun n => ?_, fun a => ?_⟩
  · unfold State.tile
    rw [htiles, smapGet_smapSet]
    split
    case isTrue hn => rw [hn]; rfl
    case isFalse => rfl
  · rw [hmem, memRead_memClear]

/-- An abort that this module asks for takes effect, where the decision is known and LIMIT is not passed. -/
theorem requestAbort_spec (hcan : s.canAbort = true) (hpart : s.trainPart.isSome = true)
    (hknown : s.isKeeper = true ∨ s.bcn.begun = false ∨ s.bcn.doneSent = false) (hlimit : s.bcn.aborts + 1 ≤ s.bcn.limit) :
    let t := s.requestAbort
    t.bcn.recovering = true ∧ t.bcn.begun = false ∧ t.bcn.attempt = (s.bcn.attempt + 1) % 256 := by
  obtain ⟨p, hp⟩ := Option.isSome_iff_exists.mp hpart
  have hsent := onlySends_floodFrom none (abortFrame s.bcn.step s.bcn.attempt) s
  have hreq : s.requestAbort = ((s.floodFrom none (abortFrame s.bcn.step s.bcn.attempt)).modBcn (fun b =>
      { b.sawFlood b.step b.attempt with abortSeen := true })).takeAbort := by
    unfold State.requestAbort
    rw [knowDecision_of_known hknown]
    exact if_pos (by rw [hcan, hp]; rfl)
  dsimp only
  rw [hreq]
  generalize s.floodFrom none _ = u at *
  have hbcn : u.bcn = s.bcn := by rw [hsent]
  have hpart : (u.modBcn (fun b => { b.sawFlood b.step b.attempt with abortSeen := true })).trainPart = some p := by
    rw [hsent]
    exact hp
  rw [takeAbort_eq hpart (by show u.bcn.aborts + 1 ≤ u.bcn.limit; rw [hbcn]; exact hlimit), bcn_abortedState]
  refine ⟨rfl, rfl, ?_⟩
  show (u.bcn.attempt + 1) % 256 = _
  rw [hbcn]

theorem trainPart_of_train (h : s.isTrainField f = true) : s.trainPart.isSome = true := by
  unfold State.isTrainField State.trainFields at h
  split at h
  case h_1 p hp => rw [hp]; rfl
  case h_2 => cases h

/-- After a fault: its bit and its field stand in the module's registers, the tile is fenced and the spare serves its slot. -/
theorem ownFault_units (hi : i < 16) (hspare : (s.fld f).spareUsed = false) (hown : (s.fld f).fenced.testBit 16 = false)
    (hserves : (s.fld f).serves i = some i) : let t := ownFault (s.faultIn f) f i
    (t.fld f).fenced = Nat.lor (s.fld f).fenced (2 ^ i) ∧ (t.fld f).spareUsed = true ∧ (t.fld f).spareFor = i ∧ (t.fld f).serves i = some 16 ∧
      (t.fld f).factory = false ∧ t.mods.fault.getLsbD 0 = true ∧ t.mods.faultField = f ∧ t.fuses = s.fuses := by
  obtain ⟨-, hgone, hfc, -⟩ := serves_of_unspared hspare hserves
  have hstart := keepsUnits_faultIn s f
  generalize s.faultIn f = u at *
  have hbit : (faulted u f).mods.fault.getLsbD 0 = true := (getLsbD_faultBit u 0 0 (by decide)).trans (by simp)
  have hafter : ∀ v, KeepsUnits (faulted u f) v → ∀ t, KeepsUnits (replaced v f i) t →
      (t.fld f).fenced = Nat.lor (s.fld f).fenced (2 ^ i) ∧ (t.fld f).spareUsed = true ∧ (t.fld f).spareFor = i ∧ (t.fld f).serves i = some 16 ∧
        (t.fld f).factory = false ∧ t.mods.fault.getLsbD 0 = true ∧ t.mods.faultField = f ∧ t.fuses = s.fuses := by
    intro v hv t ht
    obtain ⟨honly, ⟨x, owed, hself⟩, -⟩ := replaced_spec v f i
    have hmods : (replaced v f i).mods = v.mods := by rw [honly]
    have hfuses : (replaced v f i).fuses = v.fuses := by rw [honly]
    have hunits : unitsOf (v.fld f) = unitsOf (s.fld f) := (hv.units f).trans (hstart.units f)
    have htaken := ht.units f
    rw [hself] at htaken
    simp only [unitsOf, Prod.mk.injEq, spareTook] at htaken hunits
    obtain ⟨tf, tu, tfor, tfac, tfc, tg, -⟩ := htaken
    obtain ⟨vf, -, -, -, vfc, vg, -⟩ := hunits
    have hfenced : (t.fld f).fenced = Nat.lor (s.fld f).fenced (2 ^ i) := by rw [tf, vf]
    have h16 : (t.fld f).fenced.testBit 16 = false := by
      rw [hfenced]
      show ((s.fld f).fenced ||| 2 ^ i).testBit 16 = false
      rw [Nat.testBit_or, hown, Nat.testBit_two_pow_of_ne (by omega)]
      rfl
    have hbit0 : t.mods.fault.getLsbD 0 = true := ht.fault 0 (by rw [hmods]; exact hv.fault 0 hbit)
    have hfield : t.mods.faultField = f := by
      rw [ht.faultField, hmods, hv.faultField]
      rfl
    have hkept : t.fuses = s.fuses := by
      rw [ht.fuses, hfuses, hv.fuses, ← hstart.fuses]
      rfl
    refine ⟨hfenced, tu, tfor, ?_, tfac, hbit0, hfield, hkept⟩
    simp [Field.serves, tg, vg, hgone, tfc, vfc, hfc, tu, tfor, h16]
  unfold ownFault
  dsimp only
  split
  · exact hafter _ (keepsUnits_dropTile ..) _ (KeepsUnits.refl _)
  · split
    · exact hafter _ (KeepsUnits.refl _) _ (keepsUnits_requestAbort _)
    · split
      · exact hafter _ (keepsUnits_dropTile ..) _ (keepsUnits_modPart ..)
      · exact hafter _ (keepsUnits_dropTile ..) _ (keepsUnits_stopNow ..)

end

section
variable {s : State}

/-- TILE_FAULT of one tile that serves its slot. -/
theorem tileFault_spec (f : Fin 64) (p : Fin 17) (i : Nat) (hserves : (s.fld f).serves i = some p.val) (hi : i < 16)
    (hspare : (s.fld f).spareUsed = false) (hown : (s.fld f).fenced.testBit 16 = false) :
    ∃ t, exec (.tileFault f [p]) s = .next t ∧ (t.fld f).fenced = Nat.lor (s.fld f).fenced (2 ^ p.val) ∧ (t.fld f).spareUsed = true ∧ (t.fld f).spareFor = i ∧
      (t.fld f).serves i = some 16 ∧ (t.fld f).factory = false ∧ t.mods.fault.getLsbD 0 = true ∧ t.mods.faultField = f.val ∧ t.fuses = s.fuses ∧
      (s.isTrainField f = false → (∀ q ∈ (s.tile (16 * f.val + i)).queues, q.2.source = [] ∧ q.2.ring = [] ∧ q.2.started = []) → t = { s with
          mods := t.mods, host := t.host, hostMem := t.hostMem, outbox := t.outbox, tiles := t.tiles, fields := t.fields, mem := t.mem } ∧
        (let old := s.tile (16 * f.val + i)
         t.tile (16 * f.val + i) = { lanes := old.savedLanes, sems := old.savedSems, savedLanes := old.savedLanes, savedSems := old.savedSems }) ∧ (∀ n, n ≠ 16 * f.val + i → t.tile n = s.tile n) ∧ (∀ g, g ≠ f.val → t.fld g = s.fld g) ∧
        (∀ a, memRead t.mem a = if storeBase (16 * f.val + i) ≤ a ∧ a < storeBase (16 * f.val + i) + 0x2800000 then blankByte else memRead s.mem a)) ∧
      (s.isTrainField f = true → s.canAbort = true → s.isKeeper = true ∨ s.bcn.begun = false ∨ s.bcn.doneSent = false → s.bcn.aborts + 1 ≤ s.bcn.limit → t.bcn.recovering = true ∧ t.bcn.begun = false ∧
        t.bcn.attempt = (s.bcn.attempt + 1) % 256) := by
  obtain ⟨hp, -⟩ := serves_of_unspared hspare hserves
  have hexec : exec (.tileFault f [p]) s = .next (ownFault (s.faultIn f) f i) := by
    show Host.Outcome.next (s.failTiles f [p.val]) = _
    rw [hp, failTiles_of_served hi hspare hown (hp ▸ hserves)]
  rw [hp]
  obtain ⟨h1, h2, h3, h4, h5, h6, h7, h8⟩ := ownFault_units hi hspare hown (hp ▸ hserves)
  refine ⟨_, hexec, h1, h2, h3, h4, h5, h6, h7, h8, fun htrain hempty => ?_, fun htrain hcan hknown hlimit => ?_⟩
  · rw [faultIn_of_not_train htrain]
    obtain ⟨x, hdrop, hlanes, hsems⟩ := dropTile_of_empty (s := faulted s f) (status := stHw) hempty
    have hform : ownFault s f i = replaced ((faulted s f).setTile (16 * f + i) x) f i := (if_pos htrain).trans (by rw [hdrop])
    obtain ⟨honly, -, hother⟩ := replaced_spec ((faulted s f).setTile (16 * f + i) x) f i
    obtain ⟨htile, hmem⟩ := replaced_outside (s := (faulted s f).setTile (16 * f + i) x) (i := i) (f := f) htrain
    have hset : ∀ n, ((faulted s f).setTile (16 * f + i) x).tile n = if n = 16 * f + i then x else s.tile n := fun n => smapGet_smapSet ..
    rw [hform]
    generalize replaced _ f.val i = t at *
    refine ⟨?_, ?_, fun n hn => ?_, hother, hmem⟩
    · rw [honly]
      rfl
    · show t.tile _ = blankTile _
      rw [htile, if_pos rfl, hset, if_pos rfl]
      unfold blankTile
      rw [hlanes, hsems]
      rfl
    · rw [htile, if_neg hn, hset, if_neg hn]
  · have hu : s.faultIn f = s := (if_pos htrain).trans (knowDecision_of_known hknown)
    have hlate : s.pastDecision = false := by simp [State.pastDecision, hcan]
    have hform : ownFault s f i = (replaced (faulted s f) f i).requestAbort :=
      (if_neg (by rw [htrain]; decide)).trans (if_pos hlate)
    obtain ⟨honly, -, -⟩ := replaced_spec (faulted s f) f i
    rw [hu, hform]
    generalize replaced (faulted s f) f.val i = w at *
    have hbcn : w.bcn = s.bcn := by rw [honly]; rfl
    have hkeeper : w.isKeeper = s.isKeeper := by rw [honly]; rfl
    have hpart : w.trainPart = s.trainPart := by rw [honly]; rfl
    have habort := requestAbort_spec (s := w) (by unfold State.canAbort at hcan ⊢; rw [hbcn]; exact hcan) (by rw [hpart]; exact trainPart_of_train htrain)
      (by rw [hkeeper, hbcn]; exact hknown) (by rw [hbcn]; exact hlimit)
    rw [hbcn] at habort
    exact habort

theorem tileFault_fenced (f : Fin 64) (ps : List (Fin 17)) (h : ∀ p ∈ ps, (s.fld f).fenced.testBit p.val = true) : exec (.tileFault f ps) s = .next s := by
  have hnone : ((s.fld f).loss (ps.map (fun p => p.val))).failed = [] := by
    refine List.filter_eq_nil_iff.mpr (fun p _ hp => ?_)
    simp only [Bool.and_eq_true, List.contains_eq_mem, decide_eq_true_eq, List.mem_map, Bool.not_eq_true'] at hp
    obtain ⟨⟨q, hq, rfl⟩, hfree⟩ := hp
    exact Bool.false_ne_true (hfree.symm.trans (h q hq))
  show Host.Outcome.next (s.failTiles f (ps.map (fun p => p.val))) = _
  unfold State.failTiles
  exact congrArg _ (if_pos (by rw [hnone]; rfl))

/-! ### A word of a tile's store (R261, R431, R433) -/

theorem tileStoreUe_first {n : Fin 1024} {w : Nat} (hserved : s.served n = true) (hfirst : (s.tile n).ueWords = [] ∨ w ∈ (s.tile n).ueWords) :
    ∃ t, exec (.tileStoreUe n w) s = .next t ∧ (t.fld (n.val / 16)).tsUe = true ∧
      (s.isTrainField (n.val / 16) = false → t = { s with tiles := t.tiles, fields := t.fields } ∧
        (∀ k, t.tile k = if k = n.val then { s.tile n with ueWords := [w] } else s.tile k) ∧
        (∀ g, t.fld g = if g = n.val / 16 then { s.fld g with tsUe := true } else s.fld g)) := by
  obtain ⟨p, hp⟩ := Option.isSome_iff_exists.mp hserved
  obtain ⟨m, hm⟩ : ∃ m, m = (s.modFld (n.val / 16) (fun d => { d with tsUe := true })).faultIn (n.val / 16) := ⟨_, rfl⟩
  obtain ⟨u, hu⟩ : ∃ u, u = m.modTile n (fun t => { t with ueWords := [w] }) := ⟨_, rfl⟩
  have hexec : exec (.tileStoreUe n w) s = if s.isTrainField (n.val / 16) = false then .next u
      else if m.canAbort then .next ((u.oweRefill (n.val / 16) (n.val % 16)).requestAbort)
      else .next ((u.oweRefill (n.val / 16) (n.val % 16)).restartEmission (n.val / 16)) := by
    show execTileStoreUe n w s = _
    unfold execTileStoreUe
    dsimp only
    rw [hp, hu, hm]
    refine (if_neg ?_).trans ?_
    · rcases hfirst with h | h <;> simp [h]
    · cases s.isTrainField (n.val / 16) <;> rfl
  have hmark : ((s.modFld (n.val / 16) (fun d => { d with tsUe := true })).fld (n.val / 16)).tsUe = true := by rw [modFld_fld, if_pos rfl]
  have htold : ∀ t, KeepsUnits u t → (t.fld (n.val / 16)).tsUe = true := fun t ht => by
    have hunits := ((keepsUnits_faultIn (s.modFld (n.val / 16) (fun d => { d with tsUe := true })) (n.val / 16)).trans
      ((show KeepsUnits _ u by rw [hu, ← hm]; exact keepsUnits_tiles (KeepsUnits.refl m) _).trans ht)).units (n.val / 16)
    simp only [unitsOf, Prod.mk.injEq] at hunits
    obtain ⟨-, -, -, -, -, -, hts, -⟩ := hunits
    exact hts.trans hmark
  rw [hexec]
  by_cases htrain : s.isTrainField (n.val / 16) = false
  · rw [show State.faultIn _ _ = s.modFld (n.val / 16) (fun d => { d with tsUe := true }) from faultIn_of_not_train htrain] at hm
    subst hm hu
    refine ⟨_, if_pos htrain, htold _ (KeepsUnits.refl _), fun _ => ⟨rfl, fun k => ?_, fun g => ?_⟩⟩
    · rw [modTile_tile]
      rfl
    · refine (modFld_fld s (n.val / 16) (fun d => { d with tsUe := true }) g).trans ?_
      split
      case isTrue hg => rw [hg]
      case isFalse => rfl
  · rw [if_neg htrain]
    by_cases hcan : m.canAbort = true
    · exact ⟨_, if_pos hcan, htold _ ((keepsUnits_oweRefill ..).trans (keepsUnits_requestAbort _)), fun h => absurd h htrain⟩
    · exact ⟨_, if_neg hcan, htold _ ((keepsUnits_oweRefill ..).trans (keepsUnits_restartEmission ..)), fun h => absurd h htrain⟩

/-! ### Field controllers (R261, R434) -/

/-- A state with the failure of a field's controller noted and told. -/
def probed (s : State) (f : Nat) : State := ((s.faultBit 1).faultField f).hwEvent (s.evPart f) f

theorem fcProbeTimeout_restarts {f : Fin 64} (hfc : (s.fld f).fcFenced = false) (hrun : (s.fld f).restarting = false) (hfew : (s.fld f).restarts < 2) :
    ∃ t, exec (.fcProbeTimeout f) s = .next t ∧ (t.fld f).restarting = true ∧ (t.fld f).restarts = (s.fld f).restarts + 1 ∧
      t.mods.fault.getLsbD 1 = true ∧ (t.fld f).fenced = (s.fld f).fenced ∧
      (s.isTrainField f = false → t = { s with mods := t.mods, host := t.host, hostMem := t.hostMem, outbox := t.outbox, fields := t.fields }) := by
  let v := if s.isTrainField f then (probed s f).requestAbort else probed s f
  have hexec : exec (.fcProbeTimeout f) s = .next (v.modFld f (fun d => { d with restarting := true, restarts := d.restarts + 1 })) := by
    refine (if_neg ?_).trans (if_pos hfew)
    rw [hfc, hrun]
    decide
  have hev := onlyEvents_event ((s.faultBit 1).faultField f) 10 1 (s.evPart f) f []
  have hkeeps : KeepsUnits ((s.faultBit 1).faultField f) v := by
    refine (keepsUnits_of_events hev).trans ?_
    show KeepsUnits (probed s f) v
    by_cases htrain : s.isTrainField f = true
    · rw [show v = (probed s f).requestAbort from if_pos htrain]
      exact keepsUnits_requestAbort _
    · rw [show v = probed s f from if_neg htrain]
      exact KeepsUnits.refl _
  have hunits := hkeeps.units f
  simp only [unitsOf, Prod.mk.injEq] at hunits
  obtain ⟨hfenced, -, -, -, -, -, -, hrestarts, -⟩ := hunits
  have hbit : v.mods.fault.getLsbD 1 = true := hkeeps.fault 1 ((getLsbD_faultBit s 1 1 (by decide)).trans (by simp))
  have hnew : ∀ g, (v.modFld f (fun d => { d with restarting := true, restarts := d.restarts + 1 })).fld g = _ := fun g => modFld_fld ..
  refine ⟨_, hexec, ?_, ?_, hbit, ?_, fun htrain => ?_⟩
  · rw [hnew, if_pos rfl]
  · rw [hnew, if_pos rfl]
    exact congrArg (· + 1) hrestarts
  · rw [hnew, if_pos rfl]
    exact hfenced
  · have hv : v = probed s f := if_neg (by rw [htrain]; decide)
    rw [hv]
    have hev : probed s f = _ := hev.1
    generalize probed s f = e at *
    rw [hev]
    rfl

theorem fenceSlots_fld (f : Nat) (ps : List Nat) (s : State) : let t := s.forAll ps (fun s p => s.fenceSlot f p)
    t.mods = s.mods ∧ ∀ p, (t.fld f).fenced.testBit p = ((s.fld f).fenced.testBit p || decide (p ∈ ps)) := by
  induction ps generalizing s with
  | nil => exact ⟨rfl, fun p => by simp [State.forAll]⟩
  | cons q ps ih =>
    obtain ⟨hmods, hbits⟩ := ih (s.fenceSlot f q)
    refine ⟨hmods, fun p => (hbits p).trans ?_⟩
    have hfenced : ((s.fenceSlot f q).fld f).fenced = (s.fld f).fenced ||| 2 ^ q := by
      refine congrArg Field.fenced ((modFld_fld ..).trans (if_pos rfl))
    rw [hfenced, Nat.testBit_or, Nat.testBit_two_pow]
    by_cases hpq : q = p
    · simp [hpq]
    · simp [hpq, Ne.symm hpq]

theorem slots_of_fcFenced {d : Field} (h : d.fcFenced = true) : d.slots = [] := by
  refine List.filter_eq_nil_iff.mpr (fun i _ => ?_)
  simp [Field.serves, h]

theorem fcProbeTimeout_fences {f : Fin 64} (hfc : (s.fld f).fcFenced = false) (hrun : (s.fld f).restarting = false) (hmany : 2 ≤ (s.fld f).restarts) :
    ∃ t, exec (.fcProbeTimeout f) s = .next t ∧ (t.fld f).fcFenced = true ∧ (t.fld f).slots = [] ∧
      (∀ p, p < 17 → (t.fld f).fenced.testBit p = true) ∧ t.mods.faultField = f.val := by
  let free := (List.range 17).filter (fun p => !(s.fld f).fenced.testBit p)
  let u := if s.isTrainField f then s.faultField f else (s.faultField f).forAll (s.fld f).slots (fun s i => s.dropTile (16 * f + i) stCapacity)
  let v := (u.forAll free (fun s p => s.fenceSlot f p)).modFld f (fun d => { d with fcFenced := true, sweeping := none })
  have hexec : exec (.fcProbeTimeout f) s = .next (v.loseCapacity f) := by
    refine (if_neg ?_).trans (if_neg (Nat.not_lt.mpr hmany))
    rw [hfc, hrun]
    decide
  have hu : KeepsUnits (s.faultField f) u := by
    by_cases htrain : s.isTrainField f = true
    · rw [show u = s.faultField f from if_pos htrain]
      exact KeepsUnits.refl _
    · rw [show u = _ from if_neg htrain]
      exact keepsUnits_forAll _ _ (fun s i => keepsUnits_dropTile ..) _
  obtain ⟨hmods, hbits⟩ := fenceSlots_fld f free u
  have hlast := keepsUnits_loseCapacity v f
  have hunits := hlast.units f
  have hufenced := hu.units f
  have hv : v.fld f = { (u.forAll free (fun s p => s.fenceSlot f p)).fld f with fcFenced := true, sweeping := none } := (modFld_fld ..).trans (if_pos rfl)
  rw [hv] at hunits
  simp only [unitsOf, Prod.mk.injEq] at hunits hufenced
  obtain ⟨hfenced, -, -, -, hdown, -⟩ := hunits
  obtain ⟨hufenced, -⟩ := hufenced
  refine ⟨_, hexec, hdown, slots_of_fcFenced hdown, fun p hp => ?_, ?_⟩
  · rw [hfenced, hbits, hufenced]
    show ((s.fld f).fenced.testBit p || decide (p ∈ free)) = true
    by_cases hset : (s.fld f).fenced.testBit p = true
    · rw [hset, Bool.true_or]
    · have hin : p ∈ free := List.mem_filter.mpr ⟨List.mem_range.mpr hp, by simpa using hset⟩
      simp [hin]
  · rw [hlast.faultField]
    show (u.forAll free (fun s p => s.fenceSlot f p)).mods.faultField = _
    rw [hmods, hu.faultField]
    rfl

theorem fcRestartDone_spec {f : Fin 64} (hrun : (s.fld f).restarting = true) :
    ∃ t, exec (.fcRestartDone f) s = .next t ∧ t = { s with fields := t.fields } ∧ (∀ g, g ≠ f.val → t.fld g = s.fld g) ∧
      { t.fld f with groups := (s.fld f).groups } = { s.fld f with restarting := false } ∧
      (∀ g, t.group f g = (s.group f g).map (fun x => if x.pendingVer then { x with emitting := false, got := [] } else x)) := by
  have hfld : ∀ g, (State.restartEmission (s.modFld f (fun d => { d with restarting := false })) f).fld g = if g = f.val then
      { s.fld f with restarting := false, groups := smapMap (fun _ x => x.restartEmission) (s.fld f).groups } else s.fld g := fun g => by
    refine (modFld_fld (s.modFld f (fun d => { d with restarting := false })) f _ g).trans ?_
    rw [modFld_fld, modFld_fld, if_pos rfl]
    split <;> rfl
  refine ⟨_, if_neg (by rw [hrun]; decide), rfl, fun g hg => (hfld g).trans (if_neg hg), ?_, fun g => ?_⟩
  · rw [hfld, if_pos rfl]
  · unfold State.group
    rw [hfld, if_pos rfl]
    show smapFind (smapMap (fun _ x => x.restartEmission) (s.fld f).groups) g = _
    exact smapFind_smapMap _ _ _

/-! ### Channels (R223, R225) -/

/-- The state in which channel `c` of field `f` is declared lost. -/
def channelGone (s : State) (f c : Nat) : State :=
  (State.modChan { s with fresh := s.fresh + 1 } f c (fun x => { x with capar := x.capar || (Config.freshByte s.fresh).toNat % 2 == 1 })).modFld f
    (fun d => { d with stack := { d.stack with lost := Nat.lor d.stack.lost (2 ^ c) } })

theorem channelGone_fld (f c g : Nat) : (channelGone s f c).fld g = if g = f then { s.fld f with stack := { (s.fld f).stack with
    lost := Nat.lor (s.fld f).stack.lost (2 ^ c),
    chans := smapModify {} (s.fld f).stack.chans c (fun x => { x with capar := x.capar || (Config.freshByte s.fresh).toNat % 2 == 1 }) } } else s.fld g := by
  unfold channelGone
  rw [modFld_fld]
  unfold State.modChan
  rw [modFld_fld, modFld_fld, if_pos rfl]
  split <;> rfl

theorem exec_channelLost {f : Fin 64} {c : Fin 32} (hin : (s.fld f).stack.chanState c = 0) : exec (.channelLost f c) s =
    match s.partOf f with
    | some p => .next (((channelGone s f c).event 3 2 (s.evPart f) f (leBytes 1 f ++ leBytes 1 c)).raiseLost p f stChannel)
    | none => .next ((channelGone s f c).event 3 2 (s.evPart f) f (leBytes 1 f ++ leBytes 1 c)) := by
  refine (if_neg ?_).trans ?_
  · rw [hin]
    decide
  · rfl

theorem channelLost_marks {f : Fin 64} {c : Fin 32} (hin : (s.fld f).stack.chanState c = 0) :
    ∃ t, exec (.channelLost f c) s = .next t ∧ (t.fld f).stack.lost.testBit c = true := by
  have hmark : ((channelGone s f c).fld f).stack.lost.testBit c = true := by
    rw [channelGone_fld, if_pos rfl]
    show ((s.fld f).stack.lost ||| 2 ^ c.val).testBit c = true
    rw [Nat.testBit_or, Nat.testBit_two_pow_self, Bool.or_true]
  have hkept : ∀ t, KeepsUnits (channelGone s f c) t → (t.fld f).stack.lost.testBit c = true := fun t ht => by
    have hunits := ht.units f
    simp only [unitsOf, Prod.mk.injEq] at hunits
    obtain ⟨-, -, -, -, -, -, -, -, -, hstack⟩ := hunits
    rw [hstack]
    exact hmark
  rw [exec_channelLost hin]
  cases s.partOf f with
  | some p => exact ⟨_, rfl, hkept _ ((keepsUnits_of_events (onlyEvents_event ..)).trans (keepsUnits_raiseLost ..))⟩
  | none => exact ⟨_, rfl, hkept _ (keepsUnits_of_events (onlyEvents_event ..))⟩

theorem channelLost_unowned {f : Fin 64} {c : Fin 32} (hin : (s.fld f).stack.chanState c = 0) (hpart : s.partOf f = none) :
    ∃ t, exec (.channelLost f c) s = .next t ∧
      t = { s with host := t.host, hostMem := t.hostMem, outbox := t.outbox, fields := t.fields, fresh := s.fresh + 1 } ∧
      (∀ g, g ≠ f.val → t.fld g = s.fld g) ∧
      t.fld f = { s.fld f with stack := { (s.fld f).stack with lost := Nat.lor (s.fld f).stack.lost (2 ^ c.val), chans := (t.fld f).stack.chans } } ∧
      (∀ d, smapGet ({} : Channel) (t.fld f).stack.chans d =
        let x := smapGet ({} : Channel) (s.fld f).stack.chans d
        if d = c.val then { x with capar := x.capar || (Config.freshByte s.fresh).toNat % 2 == 1 } else x) := by
  rw [exec_channelLost hin, hpart]
  have hev := (onlyEvents_event (channelGone s f c) 3 2 (s.evPart f) f (leBytes 1 f ++ leBytes 1 c)).1
  generalize (channelGone s f c).event 3 2 (s.evPart f) f _ = e at *
  have hfld : ∀ g, e.fld g = (channelGone s f c).fld g := fun g => by rw [hev]; rfl
  refine ⟨e, rfl, ?_, fun g hg => ?_, ?_, fun d => ?_⟩
  · rw [hev]
    rfl
  · rw [hfld, channelGone_fld, if_neg hg]
  · rw [hfld, channelGone_fld, if_pos rfl]
  · rw [hfld, channelGone_fld, if_pos rfl]
    show smapGet ({} : Channel) (smapModify {} (s.fld f).stack.chans c (fun x => { x with capar := x.capar || (Config.freshByte s.fresh).toNat % 2 == 1 })) d = _
    rw [smapGet_smapModify]
    dsimp only
    split
    case isTrue hd => rw [hd]
    case isFalse => rfl

end

/-- Settles O51: failed tiles, controllers and channels are fenced, and what an abort or a stop does after that leaves them so. -/
theorem failedUnitsAreFencedAndReplaced : Obligations.FailedUnitsAreFencedAndReplaced := by
  unfold Obligations.FailedUnitsAreFencedAndReplaced
  exact ⟨fun s f p i hserves hi _ hspare hown => tileFault_spec f p i hserves hi hspare hown, fun s f ps h => tileFault_fenced f ps h,
    fun s n w hserved hfirst => tileStoreUe_first hserved hfirst,
    fun s f hfc hrun => ⟨fcProbeTimeout_restarts hfc hrun, fcProbeTimeout_fences hfc hrun⟩,
    fun s f => ⟨fun hidle => if_pos (by rw [hidle]; rfl), fcRestartDone_spec⟩,
    fun s f c => ⟨fun hout => if_pos (bne_iff_ne.mpr hout), channelLost_marks, channelLost_unowned⟩⟩

end Sys2Proof.Proofs
end

section
/-! PROOFS. Scrub, temperature, failed transfers and the host tier's acknowledgement. -/

namespace Sys2Proof.Proofs

open Sys2Proof.Machine Sys2Proof.Laws

section
variable {s : State}

/-! ### SCRUB (R216, R217, R219) -/

/-- A channel after an error that a scrub pass finds in it. -/
def counted (x : Channel) (e : EccErr) (off : Nat) : Channel :=
  if e.par = true then { x with capar := true }
  else if e.ue = true then { x with ue := min (x.ue + 1) (2 ^ 32 - 1), ueAddr := if x.ueSeen then x.ueAddr else off, ueSeen := true }
  else { x with ce := min (x.ce + 1) (2 ^ 32 - 1), ceSeen := true }

theorem lost_of_chanState {k : Stack} {c : Nat} (h : k.chanState c = 0) : k.lost.testBit c = false := by
  unfold Stack.chanState at h
  split at h
  case isTrue => cases h
  · split at h
    case isTrue => cases h
    · split at h
      case isTrue => cases h
      case isFalse hfree => simpa using hfree

theorem chan_modChan (f c : Nat) (g : Channel → Channel) (k d : Nat) : smapGet ({} : Channel) ((s.modChan f c g).fld k).stack.chans d =
    if k = f ∧ d = c then g (smapGet {} (s.fld f).stack.chans c) else smapGet {} (s.fld k).stack.chans d := by
  unfold State.modChan
  rw [modFld_fld]
  by_cases hk : k = f
  · rw [if_pos hk, hk]
    refine (smapGet_smapModify ({} : Channel) (s.fld f).stack.chans c d g).trans ?_
    simp
  · rw [if_neg hk, if_neg (fun h => hk h.1)]

/-- The channel of an error, after it is counted. -/
def countedIn (s : State) (f : Nat) (e : EccErr) : State :=
  s.modChan f ((s.fld f).stack.chan e.off) (fun x => counted x e ((s.fld f).stack.chanOff e.off))

theorem countErr_eq (f : Nat) (e : EccErr) (hin : (s.fld f).stack.lost.testBit ((s.fld f).stack.chan e.off) = false) :
    s.countErr f e = if e.par = false ∧ e.ue = true then (countedIn s f e).event 3 1 (s.evPart f) f
      (leBytes 1 f ++ leBytes 1 ((s.fld f).stack.chan e.off) ++ [0, 0] ++ leBytes 4 ((s.fld f).stack.chanOff e.off) ++ leBytes 8 (stackBase f + e.off))
      else countedIn s f e := by
  unfold State.countErr countedIn
  dsimp only
  rw [hin, if_neg (by decide)]
  cases hpar : e.par <;> cases hue : e.ue <;> simp only [counted, hpar, hue] <;> rfl

theorem countErr_spec (f : Nat) (e : EccErr) (hin : (s.fld f).stack.lost.testBit ((s.fld f).stack.chan e.off) = false) :
    let t := s.countErr f e
    t = { s with fields := t.fields, host := t.host, hostMem := t.hostMem, outbox := t.outbox } ∧
    (∀ k d, smapGet ({} : Channel) (t.fld k).stack.chans d = if k = f ∧ d = (s.fld f).stack.chan e.off then
      counted (smapGet {} (s.fld f).stack.chans ((s.fld f).stack.chan e.off)) e ((s.fld f).stack.chanOff e.off) else smapGet {} (s.fld k).stack.chans d) ∧
    (e.ue = false ∨ e.par = true → t = { s with fields := t.fields }) := by
  have hchan := chan_modChan (s := s) f ((s.fld f).stack.chan e.off) (fun x => counted x e ((s.fld f).stack.chanOff e.off))
  dsimp only
  rw [countErr_eq f e hin]
  by_cases htold : e.par = false ∧ e.ue = true
  · rw [if_pos htold]
    have hev := (onlyEvents_event (countedIn s f e) 3 1 (s.evPart f) f (leBytes 1 f ++ leBytes 1 ((s.fld f).stack.chan e.off) ++ [0, 0] ++
      leBytes 4 ((s.fld f).stack.chanOff e.off) ++ leBytes 8 (stackBase f + e.off))).1
    generalize (countedIn s f e).event 3 1 (s.evPart f) f _ = u at *
    rw [hev]
    refine ⟨rfl, hchan, fun hquiet => ?_⟩
    rcases hquiet with h | h
    · exact absurd (h.symm.trans htold.2) (by decide)
    · exact absurd (htold.1.symm.trans h) (by decide)
  · rw [if_neg htold]
    exact ⟨rfl, hchan, fun _ => rfl⟩

/-- One error that a scrub pass finds in a channel in service. -/
theorem scrub_spec {f : Fin 64} {c : Fin 32} {e : EccErr} (hin : (s.fld f).stack.chanState c = 0) (hc : (s.fld f).stack.chan e.off = c.val) :
    ∃ t, exec (.scrub f c [e]) s = .next t ∧ t = { s with fields := t.fields, host := t.host, hostMem := t.hostMem, outbox := t.outbox } ∧
      smapGet ({} : Channel) (t.fld f).stack.chans c = counted (smapGet ({} : Channel) (s.fld f).stack.chans c) e ((s.fld f).stack.chanOff e.off) ∧
      (∀ g d, (g, d) ≠ (f.val, c.val) → smapGet ({} : Channel) (t.fld g).stack.chans d = smapGet ({} : Channel) (s.fld g).stack.chans d) ∧
      (e.ue = false ∨ e.par = true → t = { s with fields := t.fields }) := by
  have hexec : exec (.scrub f c [e]) s = .next (s.countErr f e) := by
    refine (if_neg (by rw [hin]; decide)).trans ?_
    have hone : [e].filter (fun e => (s.fld f).stack.chan e.off == c.val) = [e] := by simp [hc]
    rw [hone]
    rfl
  obtain ⟨hframe, hchan, hquiet⟩ := countErr_spec f e (by rw [hc]; exact lost_of_chanState hin)
  rw [hc] at hchan
  refine ⟨_, hexec, hframe, (hchan f c).trans (if_pos ⟨rfl, rfl⟩), fun g d hgd => (hchan g d).trans (if_neg ?_), hquiet⟩
  rintro ⟨hg, hd⟩
  exact hgd (by rw [hg, hd])

/-! ### THERMAL_SAMPLE (R231 to R234) -/

theorem le_foldl_max_iff (n : Nat) (xs : List Nat) : ∀ a, n ≤ xs.foldl max a ↔ n ≤ a ∨ ∃ x ∈ xs, n ≤ x := by
  induction xs with
  | nil => simp
  | cons x xs ih =>
    intro a
    rw [List.foldl_cons, ih, le_max_iff, List.exists_mem_cons_iff, or_assoc]

theorem any_ge (n : Nat) (xs : List Nat) (hn : 0 < n) : xs.any (fun x => n ≤ x) = decide (n ≤ xs.foldl max 0) := by
  refine Bool.eq_iff_iff.mpr ?_
  rw [List.any_eq_true, decide_eq_true_eq, le_foldl_max_iff]
  simp only [decide_eq_true_eq]
  exact ⟨Or.inr, fun h => h.resolve_left (Nat.not_le.mpr hn)⟩

/-- The hottest group's reading. -/
def hottest (k : Stack) : Nat := (k.sensors.map Sensor.reads).foldl max 0

theorem sample_sensors (k : Stack) (n : Nat) (temp : Option Nat) : (k.sample n temp).sensors =
    k.sensors.set n (temp.elim { k.sensors.getD n {} with valid := false, missed := (k.sensors.getD n {}).missed + 1 }
      (fun q => { temp := q, valid := true, missed := 0 })) := by
  cases temp <;> rfl

theorem nextSill_of_reached {old t : Nat} (h : old ≤ sillOf t) : nextSill old t = sillOf t := if_pos h

theorem sillOf_hot {t : Nat} (h : 380 ≤ t) (hlt : t < 400) : sillOf t = 2 := (if_neg (by omega)).trans (if_pos h)

theorem sillOf_warm {t : Nat} (h : 360 ≤ t) (hlt : t < 380) : sillOf t = 1 := (if_neg (by omega)).trans ((if_neg (by omega)).trans (if_pos h))

theorem sillOf_cool {t : Nat} (h : t < 360) : sillOf t = 0 := (if_neg (by omega)).trans ((if_neg (by omega)).trans (if_neg (by omega)))

theorem sillOf_crit {t : Nat} (h : 400 ≤ t) : sillOf t = 3 := if_pos h

/-- A sill that a reading has not reached is kept until the reading is two degrees below its entry. -/
theorem nextSill_of_held {old t : Nat} (hheld : ¬ t ≤ (match old with | 3 => 392 | 2 => 372 | _ => 352)) (h : ¬ old ≤ sillOf t) : nextSill old t = old :=
  (if_neg h).trans (if_neg hheld)

/-- The sill entered at its temperature, and left two degrees below it. -/
theorem nextSill_spec (old top : Nat) :
    (360 ≤ top → top < 380 → old ≤ 1 → nextSill old top = 1) ∧ (380 ≤ top → top < 400 → old ≤ 2 → nextSill old top = 2) ∧
    (400 ≤ top → old ≤ 3 → nextSill old top = 3) ∧ (top ≤ 352 → old ≤ 1 → nextSill old top = 0) ∧
    (352 < top → top < 360 → old = 1 → nextSill old top = 1) ∧ (372 < top → top < 380 → old = 2 → nextSill old top = 2) ∧
    (392 < top → top < 400 → old = 3 → nextSill old top = 3) := by
  refine ⟨fun h1 h2 h3 => ?_, fun h1 h2 h3 => ?_, fun h1 h2 => ?_, fun h1 h2 => ?_, fun h1 h2 h3 => ?_, fun h1 h2 h3 => ?_, fun h1 h2 h3 => ?_⟩
  · rw [nextSill_of_reached (by rw [sillOf_warm h1 h2]; exact h3), sillOf_warm h1 h2]
  · rw [nextSill_of_reached (by rw [sillOf_hot h1 h2]; exact h3), sillOf_hot h1 h2]
  · rw [nextSill_of_reached (by rw [sillOf_crit h1]; exact h2), sillOf_crit h1]
  · have hcool := sillOf_cool (t := top) (by omega)
    rcases Nat.le_one_iff_eq_zero_or_eq_one.mp h2 with rfl | rfl
    · rw [nextSill_of_reached (Nat.zero_le _), hcool]
    · exact ((if_neg (by rw [hcool]; decide)).trans (if_pos h1)).trans hcool
  · subst h3
    exact nextSill_of_held (Nat.not_le.mpr h1) (by rw [sillOf_cool h2]; decide)
  · subst h3
    exact nextSill_of_held (Nat.not_le.mpr h1) (by rw [sillOf_warm (by omega) h2]; decide)
  · subst h3
    exact nextSill_of_held (Nat.not_le.mpr h1) (by rw [sillOf_hot (by omega) h2]; decide)

theorem thermalSample_spec (f : Fin 64) (n : Fin 8) (temp : Option Nat) : ∃ t, exec (.thermalSample f n temp) s = .next t ∧
    t = { s with fields := t.fields, host := t.host, hostMem := t.hostMem, outbox := t.outbox, power := t.power } ∧ (∀ g, g ≠ f.val → t.fld g = s.fld g) ∧
    t.fld f = { s.fld f with stack := (s.fld f).stack.sample n temp } ∧
    t.power = { s.power with thermtrip := s.power.thermtrip || decide (420 ≤ hottest ((s.fld f).stack.sample n temp)) } := by
  let new := (s.fld f).stack.sample n temp
  let s1 := s.modFld f (fun d => { d with stack := new })
  let hot := ((List.range 8).find? (fun i => (new.sensors.getD i {}).reads == (new.sensors.map Sensor.reads).foldl max 0)).getD 0
  let s2 := if new.sill = 3 && (s.fld f).stack.sill != 3 then s1.event 3 3 (s.evPart f) f
      (leBytes 1 f ++ leBytes 1 hot ++ leBytes 2 (new.sensors.getD hot {}).reads) else s1
  have hexec : exec (.thermalSample f n temp) s =
      if (new.sensors.map Sensor.reads).any (fun t => 420 ≤ t) then .next { s2 with power := { s2.power with thermtrip := true } } else .next s2 := rfl
  have hev : OnlyEvents s1 s2 := by
    show OnlyEvents s1 (if new.sill = 3 && (s.fld f).stack.sill != 3 then _ else s1)
    split
    · exact onlyEvents_event ..
    · exact OnlyEvents.refl s1
  have hfld : ∀ g, s1.fld g = if g = f.val then { s.fld f with stack := new } else s.fld g := fun g => modFld_fld ..
  have hev := hev.1
  rw [hexec, any_ge 420 _ (by decide)]
  clear_value s2
  have hself : s2.fld f = { s.fld f with stack := new } := by
    rw [hev]
    exact (hfld f).trans (if_pos rfl)
  have hother : ∀ g, g ≠ f.val → s2.fld g = s.fld g := fun g hg => by
    rw [hev]
    exact (hfld g).trans (if_neg hg)
  have hpower : s2.power = s.power := by rw [hev]; rfl
  by_cases hhot : 420 ≤ hottest new
  · refine ⟨_, if_pos (decide_eq_true hhot), ?_, hother, hself, ?_⟩
    · rw [hev]
      rfl
    · rw [show decide (420 ≤ hottest ((s.fld f).stack.sample n temp)) = true from decide_eq_true hhot, Bool.or_true, ← hpower]
  · refine ⟨_, if_neg (by rw [show (new.sensors.map Sensor.reads).foldl max 0 = hottest new from rfl, decide_eq_false hhot]; decide), ?_, hother, hself, ?_⟩
    · rw [hev]
      rfl
    · rw [show decide (420 ≤ hottest ((s.fld f).stack.sample n temp)) = false from decide_eq_false hhot, Bool.or_false, hpower]

/-! ### XFAIL (R276, R475, R488) -/

/-- XFAIL_SEEN set. -/
def failSeen (s : State) : State := { s with host := { s.host with xfailSeen := true } }

theorem exec_xfail_queue (q : Fin 64) (why : Nat) :
    ∃ t, exec (.xfail ⟨.queue q, why⟩) s = .next t ∧ t = { s with host := { s.host with xfailSeen := true, queues := t.host.queues } } ∧
      (∀ x, t.cmdQueue x = if x = q.val then { s.cmdQueue q with stopped := true, ringErr := true } else s.cmdQueue x) :=
  ⟨_, rfl, rfl, fun x => smapGet_smapModify ({} : CmdQueue) s.host.queues q x (fun y => { y with stopped := true, ringErr := true })⟩

theorem exec_xfail_cring (c : Fin 64) (why : Nat) :
    ∃ t, exec (.xfail ⟨.cring c, why⟩) s = .next t ∧ t = { s with host := { s.host with xfailSeen := true, crings := t.host.crings } } ∧
      (∀ x, smapGet {} t.host.crings x = if x = c.val then { smapGet ({} : CRing) s.host.crings c with stopped := true, ringErr := true }
        else smapGet ({} : CRing) s.host.crings x) :=
  ⟨_, rfl, rfl, fun x => smapGet_smapModify ({} : CRing) s.host.crings c x (fun y => { y with stopped := true, ringErr := true })⟩

theorem exec_xfail_ering (e : Fin 17) (why : Nat) :
    ∃ t, exec (.xfail ⟨.ering e, why⟩) s = .next t ∧ t = { s with host := { s.host with xfailSeen := true, erings := t.host.erings } } ∧
      (∀ x, smapGet {} t.host.erings x = if x = e.val then { smapGet ({} : ERing) s.host.erings e with stopped := true, ringErr := true }
        else smapGet ({} : ERing) s.host.erings x) :=
  ⟨_, rfl, rfl, fun x => smapGet_smapModify ({} : ERing) s.host.erings e x (fun y => { y with stopped := true, ringErr := true })⟩

/-- Whether a command in hand is the one whose transfer a message of the host names. -/
def names (q : Fin 64) (seq : Nat) (c : OutCmd) : Bool := c.hdr.queue.val == q.val && c.hdr.seq == seq && c.phase == .running && !c.posted

theorem names_eq_false {q : Fin 64} {seq : Nat} {c : OutCmd} (h : c.hdr.queue = q → c.hdr.seq = seq → c.phase ≠ .running ∨ c.posted = true) :
    names q seq c = false := by
  refine Bool.eq_false_iff.mpr (fun hn => ?_)
  simp only [names, Bool.and_eq_true, beq_iff_eq, Bool.not_eq_true'] at hn
  obtain ⟨⟨⟨hq, hseq⟩, hrun⟩, hposted⟩ := hn
  rcases h (Fin.ext hq) hseq with hphase | hp
  · exact hphase hrun
  · exact Bool.false_ne_true (hposted.symm.trans hp)

theorem find_names_none {q : Fin 64} {seq : Nat} (h : ∀ c ∈ s.host.cmds, c.hdr.queue = q → c.hdr.seq = seq → c.phase ≠ .running ∨ c.posted = true) :
    s.host.cmds.find? (names q seq) = none :=
  List.find?_eq_none.mpr (fun c hc => by rw [names_eq_false (h c hc)]; decide)

theorem find_names_first {q : Fin 64} {cs ds : List OutCmd} {c : OutCmd} (hcmds : s.host.cmds = cs ++ c :: ds)
    (hfirst : ∀ x ∈ cs, x.hdr.queue = q → x.hdr.seq = c.hdr.seq → x.phase ≠ .running ∨ x.posted = true) (hq : c.hdr.queue = q)
    (hrun : c.phase = .running) (hposted : c.posted = false) : s.host.cmds.find? (names q c.hdr.seq) = some c := by
  rw [hcmds, List.find?_append, List.find?_eq_none.mpr (fun x hx => by rw [names_eq_false (hfirst x hx)]; decide)]
  simp [names, hq, hrun, hposted]

theorem exec_xfail_none {q : Fin 64} {seq : Nat} (why : Nat)
    (h : ∀ c ∈ s.host.cmds, c.hdr.queue = q → c.hdr.seq = seq → c.phase ≠ .running ∨ c.posted = true) :
    exec (.xfail ⟨.command q seq, why⟩) s = .next (failSeen s) := by
  show Host.Outcome.next ((failSeen s).cmdFail q seq) = _
  unfold State.cmdFail
  have hnone : (failSeen s).host.cmds.find? (fun c => c.hdr.queue.val == q.val && c.hdr.seq == seq && c.phase == .running && !c.posted) = none :=
    find_names_none h
  rw [hnone]

theorem groupFail_only (g : Group) (a : Nat) :
    s.groupFail g a = { g with htErr := true, fetching := (s.groupFail g a).fetching, wbq := (s.groupFail g a).wbq } := by
  unfold State.groupFail
  dsimp only
  split
  · rfl
  · split <;> rfl

theorem exec_xfail_group {f : Fin 64} {gid : Nat} (a why : Nat) {g : Group} (hg : s.group f gid = some g) (htrain : s.isTrainField f = false) :
    ∃ t x, exec (.xfail ⟨.group f gid a, why⟩) s = .next t ∧ t = { s with host := t.host, hostMem := t.hostMem, outbox := t.outbox, fields := t.fields } ∧
      t.host.xfailSeen = true ∧ t.group f gid = some x ∧ x = { g with htErr := true, fetching := x.fetching, wbq := x.wbq } := by
  let x := (failSeen s).groupFail g a
  let u := (failSeen s).modGroup f gid (fun _ => x)
  have hu : u = (failSeen s).modFld f (fun d => { d with groups := smapSet d.groups gid x }) := by
    show State.modGroup _ _ _ _ = _
    unfold State.modGroup
    rw [show (failSeen s).group f gid = some g from hg]
  have hx : x = { g with htErr := true, fetching := x.fetching, wbq := x.wbq } := groupFail_only g a
  have hexec : exec (.xfail ⟨.group f gid a, why⟩) s = .next (u.tierFail f gid a) := by
    show execXfail ⟨.group f gid a, why⟩ s = _
    unfold execXfail
    dsimp only
    rw [hg]
    rfl
  have hevent : u.tierFail f gid a =
      u.event 3 4 (u.evPart f) f (leBytes 1 f ++ [0] ++ leBytes 2 gid ++ List.replicate 4 0 ++ leBytes 8 a) := by
    refine if_pos ?_
    rw [hu]
    show (!s.isTrainField f) = true
    rw [htrain]
    rfl
  have hev := (onlyEvents_event u 3 4 (u.evPart f) f (leBytes 1 f ++ [0] ++ leBytes 2 gid ++ List.replicate 4 0 ++ leBytes 8 a)).1
  refine ⟨_, x, hexec, ?_⟩
  rw [hevent]
  generalize u.event 3 4 (u.evPart f) f _ = e at *
  clear_value u
  rw [hev]
  refine ⟨by rw [hu]; rfl, by rw [hu]; rfl, ?_, hx⟩
  show smapFind (u.fld f).groups gid = some x
  rw [hu, modFld_fld, if_pos rfl]
  exact smapFind_smapSet_same ..

/-! ### A bulk move whose transfer fails or is acknowledged (R475, R507) -/

section
variable {q : Fin 64} {cs ds : List OutCmd} {c : OutCmd} {p : BulkP}

theorem exec_xfail_bulk (hcmds : s.host.cmds = cs ++ c :: ds) (hfind : s.host.cmds.find? (names q c.hdr.seq) = some c) (hothers : ∀ x ∈ cs ++ ds, x.uid ≠ c.uid)
    (hrun : c.phase = .running) (hdrained : c.drained = false) (hbody : c.body = .bulkMove p) (why : Nat) :
    ∃ t, exec (.xfail ⟨.command q c.hdr.seq, why⟩) s = .next t ∧
      t = { s with fab := { s.fab with flows := t.fab.flows }, host := { s.host with xfailSeen := true, cmds := t.host.cmds } } ∧
      t.fab.flows = s.fab.flows.filter (fun x => x.2.uid != some c.uid) ∧
      (∃ c', t.host.cmds = cs ++ c' :: ds ∧ c'.uid = c.uid ∧ c'.phase = .done ∧ c'.status = stTarget) := by
  have hexec : exec (.xfail ⟨.command q c.hdr.seq, why⟩) s = .next (State.finish { failSeen s with
      fab := { s.fab with flows := s.fab.flows.filter (fun x => x.2.uid != some c.uid) } } c.uid stTarget []) := by
    show Host.Outcome.next ((failSeen s).cmdFail q c.hdr.seq) = _
    unfold State.cmdFail
    have hfound : (failSeen s).host.cmds.find? (fun x => x.hdr.queue.val == q.val && x.hdr.seq == c.hdr.seq && x.phase == .running && !x.posted) = some c := hfind
    rw [hfound]
    dsimp only
    rw [hbody]
    rfl
  refine ⟨_, hexec, rfl, rfl, c.finish stTarget [], ?_, uid_finish .., ?_⟩
  · show s.host.cmds.map (fun x => if x.uid == c.uid then x.finish stTarget [] else x) = _
    rw [hcmds]
    exact map_uid_split (fun x => x.finish stTarget []) rfl hothers
  · unfold OutCmd.finish
    simp [hrun, hdrained, stTarget, stDone]

/-- The last part of a command's transfer: the bytes that it keeps for the host land, and it completes. -/
theorem transferDone_spec (hcmds : s.host.cmds = cs ++ c :: ds) (hothers : ∀ x ∈ cs ++ ds, x.uid ≠ c.uid)
    (hrun : c.phase = .running) (hreplayed : c.replayed = false) (hdrained : c.drained = false) (hleft : c.left ≤ 1)
    (h1 : opcodeOf c.body ≠ 0x0103) (h2 : opcodeOf c.body ≠ 0x0101) :
    let t := s.transferDone c.uid
    t = { s with host := { s.host with cmds := t.host.cmds }, hostMem := c.writes.foldl (fun m w => memWriteBytes m w.1 w.2) s.hostMem } ∧
      (∃ c', t.host.cmds = cs ++ c' :: ds ∧ c'.uid = c.uid ∧ c'.phase = .done ∧ c'.status = stDone) := by
  have hcmd : s.cmd c.uid = some c := by
    unfold State.cmd
    rw [hcmds, List.find?_append, List.find?_eq_none.mpr (fun x hx => by simpa using hothers x (List.mem_append_left _ hx))]
    simp
  have hform : s.transferDone c.uid = (s.landWrites c).modCmd c.uid (fun c =>
      let c1 := { c with left := c.left - 1 }
      if c.left ≤ 1 && opcodeOf c.body != 0x0103 && opcodeOf c.body != 0x0101 then c1.finish stDone [c.r0, c.r1, c.r2, c.r3] else c1) := by
    unfold State.transferDone
    rw [hcmd]
    dsimp only
    rw [if_pos (by simp [hleft, hrun])]
  have hc : (let c1 := { c with left := c.left - 1 }
      if c.left ≤ 1 && opcodeOf c.body != 0x0103 && opcodeOf c.body != 0x0101 then c1.finish stDone [c.r0, c.r1, c.r2, c.r3] else c1) =
      OutCmd.finish { c with left := c.left - 1 } stDone [c.r0, c.r1, c.r2, c.r3] :=
    if_pos (by simp [hleft, h1, h2])
  dsimp only
  rw [hform]
  refine ⟨rfl, OutCmd.finish { c with left := c.left - 1 } stDone [c.r0, c.r1, c.r2, c.r3], ?_, uid_finish .., ?_⟩
  · show s.host.cmds.map (fun x => if x.uid == c.uid then _ else x) = _
    rw [hcmds]
    exact (map_uid_split _ rfl hothers).trans (by rw [hc])
  · unfold OutCmd.finish
    simp [hrun, hdrained, hreplayed, stDone]

theorem exec_hostTierAck_of_found (hfind : s.host.cmds.find? (names q c.hdr.seq) = some c) (hbody : c.body = .bulkMove p) (data : List Byte) :
    exec (.hostTierAck q c.hdr.seq data) s =
      if s.bulkAwaits p c.left then
        .next ((if c.left = 2 then s.modCmd c.uid (fun x => { x with left := 1 }) else s).bulkWrite c.uid c.part p (padTo p.bytes data))
      else if p.dk = 1 && c.left = 1 then .next (s.transferDone c.uid) else .next s := by
  show execHostTierAck q c.hdr.seq data s = _
  unfold execHostTierAck
  have hfound : s.host.cmds.find? (fun x => x.hdr.queue.val == q.val && x.hdr.seq == c.hdr.seq && x.phase == .running && !x.posted) = some c := hfind
  rw [hfound]
  dsimp only
  rw [hbody]

end

end

/-- Settles O52: each row's effect is told by the lemma of its row. -/
theorem scrubTemperatureAndTransfers : Obligations.ScrubTemperatureAndTransfers := by
  unfold Obligations.ScrubTemperatureAndTransfers
  refine ⟨fun s f c e hin hc => scrub_spec hin hc, fun s f c es hout => if_pos (bne_iff_ne.mpr hout), fun s f n temp => ?thermal,
    fun s => ⟨exec_xfail_queue, exec_xfail_cring, exec_xfail_ering, fun q seq why h => exec_xfail_none why h,
      fun f gid a why g hg htrain => exec_xfail_group a why hg htrain⟩, ?bulk, fun s q seq data h => ?none⟩
  case thermal =>
    obtain ⟨t, hexec, hframe, hother, hself, hpower⟩ := thermalSample_spec (s := s) f n temp
    refine ⟨t, hexec, hframe, hother, ?_⟩
    rw [hself]
    obtain ⟨h1, h2, h3, h4, h5, h6, h7⟩ := nextSill_spec (s.fld f).stack.sill (hottest ((s.fld f).stack.sample n temp))
    exact ⟨⟨sample_sensors .., h1, h2, h3, h4, h5, h6, h7, rfl, rfl, rfl⟩, hpower⟩
  case none =>
    show execHostTierAck q seq data s = _
    unfold execHostTierAck
    have hnone : s.host.cmds.find? (fun c => c.hdr.queue.val == q.val && c.hdr.seq == seq && c.phase == .running && !c.posted) = none :=
      find_names_none h
    rw [hnone]
  case bulk =>
    intro s q cs ds c p hcmds hfirst hothers hq hrun hposted hreplayed hdrained hbody
    have hfind := find_names_first hcmds hfirst hq hrun hposted
    refine ⟨exec_xfail_bulk hcmds hfind hothers hrun hdrained hbody, fun hsk hdk hleft data => ?_, fun hinv hsk hdk hown hleft hwrites hlost data => ?_⟩
    · have hno : s.bulkAwaits p c.left = false := by simp [State.bulkAwaits, hsk]
      obtain ⟨hframe, hdone⟩ := transferDone_spec hcmds hothers hrun hreplayed hdrained hleft.le (by simp [hbody, opcodeOf]) (by simp [hbody, opcodeOf])
      refine ⟨_, (exec_hostTierAck_of_found hfind hbody data).trans ((if_neg (by rw [hno]; decide)).trans (if_pos (by simp [hdk, hleft]))), hframe, hdone⟩
    · have hyes : s.bulkAwaits p c.left = true := by simp [State.bulkAwaits, State.remoteEnd, hsk, hdk, hown, hleft]
      let u := s.pokeBytes (islandAddr p.dst) (padTo p.bytes data)
      have honly : u = { s with mem := u.mem } := pokeBytes_only ..
      have hform : (if c.left = 2 then s.modCmd c.uid (fun x => { x with left := 1 }) else s).bulkWrite c.uid c.part p (padTo p.bytes data) = u.transferDone c.uid := by
        rw [if_neg (by omega)]
        exact (if_neg (by omega)).trans (if_pos hown)
      obtain ⟨hframe, hdone⟩ := transferDone_spec (s := u) (by rw [honly]; exact hcmds) hothers hrun hreplayed hdrained hleft.le (by simp [hbody, opcodeOf]) (by simp [hbody, opcodeOf])
      refine ⟨_, (exec_hostTierAck_of_found hfind hbody data).trans (if_pos hyes), ?_⟩
      rw [hform]
      have hmem : (u.transferDone c.uid).mem = u.mem := by rw [hframe]
      refine ⟨?_, fun a => ?_, hdone⟩
      · rw [hframe, hwrites, honly]
        rfl
      · rw [hmem]
        have hlen := length_padTo p.bytes data
        by_cases hin : islandAddr p.dst ≤ a ∧ a < islandAddr p.dst + p.bytes
        · have hread := memRead_pokeBytes s (islandAddr p.dst) (padTo p.bytes data) (a - islandAddr p.dst) hinv.1 (by omega)
            (hlost _ (by omega))
          rw [Nat.add_sub_cancel' hin.1] at hread
          rw [if_pos hin]
          exact hread
        · rw [if_neg hin]
          exact memRead_pokeBytes_outside _ _ _ _ (by omega)

end Sys2Proof.Proofs
end

section
/-! PROOFS. Ports of the fabric: training, fences, replay, IDLE frames and discarded frames. -/

namespace Sys2Proof.Proofs

open Sys2Proof.Machine Sys2Proof.Laws

/-! ### What an event adds to what goes out (R487) -/

theorem smapSet_smapSet {α : Type} (m : SMap α) (k : Nat) (v w : α) : smapSet (smapSet m k v) k w = smapSet m k w := by
  induction m with
  | nil => simp [smapSet]
  | cons x m ih =>
    obtain ⟨k', v'⟩ := x
    by_cases heq : k = k'
    · simp [smapSet, heq]
    · by_cases hlt : k < k'
      · simp [smapSet, heq, hlt]
      · simp [smapSet, heq, hlt, ih]

section
variable {s : State}

theorem outbox_post (x : Posting) : s.outbox <+: (s.post x).outbox := by
  unfold State.post
  split
  · exact List.prefix_append _ _
  · exact List.prefix_rfl

theorem outbox_eventWrite (e cls code part unit : Nat) (payload : List Byte) : s.outbox <+: (s.eventWrite e cls code part unit payload).outbox := by
  unfold State.eventWrite
  dsimp only
  split
  · refine List.IsPrefix.trans ?_ (outbox_post _)
    exact outbox_post (s := s) _
  · exact outbox_post (s := s) _

theorem outbox_ringEvent (e cls code part unit : Nat) (payload : List Byte) : s.outbox <+: (s.ringEvent e cls code part unit payload).outbox := by
  unfold State.ringEvent
  dsimp only
  split
  · exact List.prefix_rfl
  · split
    · exact List.prefix_rfl
    · exact outbox_eventWrite ..

theorem outbox_event (cls code part unit : Nat) (payload : List Byte) : s.outbox <+: (s.event cls code part unit payload).outbox := by
  unfold State.event
  dsimp only
  split
  · exact (outbox_ringEvent ..).trans (outbox_ringEvent ..)
  · exact outbox_ringEvent ..

/-! ### Training (R24, R313) -/

theorem modPort_modPort (p : Nat) (g h : FabPort → FabPort) : (s.modPort p g).modPort p h = s.modPort p (fun x => h (g x)) := by
  have hport : (s.modPort p g).port p = g (s.port p) := (modPort_port ..).trans (if_pos rfl)
  show ({ s with fab := { s.fab with ports := smapSet (smapSet s.fab.ports p (g (s.port p))) p (h ((s.modPort p g).port p)) } } : State) = _
  rw [smapSet_smapSet, hport]
  rfl

theorem fabricTrainDone_up {p : Fin 8} {m : Fin 1024} {i : Fin 16} {q : Fin 8} (htrain : (s.port p).state = 1) (hok : s.peerOk p m i q = true) :
    ∃ t, exec (.fabricTrainDone p m i q) s = .next t ∧ t = { s with fab := { s.fab with ports := t.fab.ports } } ∧
      (∀ k, t.port k = if k = p.val then { s.port p with
        state := 2, lanesOk := 24, peerModule := m.val, peerIsland := i.val, peerPort := q.val, txSeq := 0, rxNext := 0 } else s.port k) := by
  have hexec : exec (.fabricTrainDone p m i q) s = .next ((s.modPort p (fun x =>
      { x with lanesOk := 24, peerModule := m.val, peerIsland := i.val, peerPort := q.val })).modPort p (fun x => { x with state := 2, txSeq := 0, rxNext := 0 })) :=
    (if_neg (by rw [htrain]; decide)).trans (if_pos hok)
  rw [modPort_modPort] at hexec
  exact ⟨_, hexec, rfl, fun k => modPort_port ..⟩

theorem fabricTrainDone_refused {p : Fin 8} {m : Fin 1024} {i : Fin 16} {q : Fin 8} (htrain : (s.port p).state = 1) (hno : s.peerOk p m i q = false) :
    ∃ t, exec (.fabricTrainDone p m i q) s = .next t ∧
      t = { s with fab := { s.fab with ports := t.fab.ports }, host := t.host, hostMem := t.hostMem, outbox := t.outbox } ∧
      (∀ k, t.port k = if k = p.val then { s.port p with
        state := 3, refuseSeen := true, lanesOk := 24, peerModule := m.val, peerIsland := i.val, peerPort := q.val } else s.port k) := by
  have hexec : exec (.fabricTrainDone p m i q) s = .next (((s.modPort p (fun x =>
      { x with lanesOk := 24, peerModule := m.val, peerIsland := i.val, peerPort := q.val })).modPort p (fun x => { x with state := 3, refuseSeen := true })).event 5 1
        (s.portOwner p) p (leBytes 2 m.val ++ leBytes 1 i.val)) :=
    (if_neg (by rw [htrain]; decide)).trans (if_neg (by rw [hno]; decide))
  rw [modPort_modPort] at hexec
  refine ⟨_, hexec, ?_⟩
  have hport : ∀ k, (s.modPort p (fun x => { x with
      state := 3, refuseSeen := true, lanesOk := 24, peerModule := m.val, peerIsland := i.val, peerPort := q.val })).port k = _ := fun k => modPort_port ..
  have hev := (onlyEvents_event (s.modPort p (fun x => { x with
      state := 3, refuseSeen := true, lanesOk := 24, peerModule := m.val, peerIsland := i.val, peerPort := q.val })) 5 1
        (s.portOwner p) p (leBytes 2 m.val ++ leBytes 1 i.val)).1
  generalize State.event _ 5 1 (s.portOwner p) p _ = e at *
  refine ⟨by rw [hev]; rfl, fun k => ?_⟩
  rw [← hport, hev]
  rfl

/-! ### A port that is fenced (R313, R314) -/

/-- A port as FENCED leaves it. -/
def shutPort (x : FabPort) : FabPort :=
  { x with state := 4, fenceSeen := true, downSeen := x.downSeen || x.state == 2, replay := [], wait := [], returning := false, used := [], owed := [],
           tries := 0, nakOut := false }

/-- The FENCE of a port as it is told on every other UP port. -/
def toldFence (s : State) (p : Nat) (shut : State) : State := shut.floodFrom none (fenceFrame s.place.moduleId p s.bcn.step s.bcn.attempt)

theorem pumpPort_port (p : Nat) (k : Nat) :
    (s.pumpPort p).port k = if k = p then (FabPort.pump s.servesFrame (s.port p).wait.length (s.port p)).1 else s.port k :=
  modPort_port s p (fun _ => (FabPort.pump s.servesFrame (s.port p).wait.length (s.port p)).1) k

theorem linkSend_port (p : Nat) (f : FabFrame) {k : Nat} (hk : k ≠ p) : (s.linkSend p f).port k = s.port k := by
  unfold State.linkSend
  split
  · rfl
  · rw [pumpPort_port, if_neg hk, modPort_port, if_neg hk]

/-- A flood leaves every port that is not UP. -/
theorem flood_port (ps : List Nat) (f : FlareFrame) {k : Nat} (hk : k ∉ ps) (s : State) : (s.forAll ps (fun s p => s.flareSend p f)).port k = s.port k :=
  forAll_keeps (fun t => t.port k = s.port k) ps _ (fun _ p hp ht => (linkSend_port p _ (fun h : k = p => hk (h ▸ hp))).trans ht) s rfl

theorem floodFrom_port (e : Option Nat) (f : FlareFrame) {k : Nat} (hk : (s.port k).state ≠ 2) : (s.floodFrom e f).port k = s.port k := by
  refine flood_port _ f (fun hin => ?_) s
  have := (List.mem_filter.mp (List.mem_filter.mp hin).1).2
  exact hk (by simpa using this)

theorem applyFence_idle {m p : Nat} (hrounds : s.bcn.rounds = []) (hwaits : s.bcn.waits = []) (hjobs : ∀ j ∈ s.fab.jobs, j.op = 6 → j.started = false) :
    (m, p) ∈ (s.applyFence m p).bcn.fences ∧
      s.applyFence m p = { s with bcn := { s.bcn with fences := (s.applyFence m p).bcn.fences }, place := (s.applyFence m p).place } := by
  by_cases hknown : (m, p) ∈ s.bcn.fences
  · have hsame : s.applyFence m p = s := if_pos (by simpa using hknown)
    rw [hsame]
    exact ⟨hknown, rfl⟩
  · obtain ⟨hfences, hform⟩ := applyFence_of_new hknown
    refine ⟨by rw [hfences]; simp, ?_⟩
    rw [hfences]
    exact hform hrounds hwaits hjobs

theorem fencePort_spec {p : Nat} (hrounds : s.bcn.rounds = []) (hwaits : s.bcn.waits = []) (hjobs : ∀ j ∈ s.fab.jobs, j.op = 6 → j.started = false)
    (htrain : s.trainPart = none) :
    let shut := s.modPort p shutPort
    let told := toldFence s p shut
    let t := s.fencePort p
    t = { told with bcn := { s.bcn with fences := t.bcn.fences }, place := t.place, host := t.host, hostMem := t.hostMem, outbox := t.outbox } ∧
      told.outbox <+: t.outbox ∧ t.port p = shut.port p ∧ (∀ k, k ≠ p → (s.port k).state ≠ 2 → t.port k = s.port k) ∧
      (s.place.moduleId, p) ∈ t.bcn.fences := by
  intro shut told t
  have hsent : OnlySends shut told := onlySends_floodFrom ..
  have hshut : ∀ k, shut.port k = if k = p then shutPort (s.port p) else s.port k := fun k => modPort_port ..
  have htoldport : ∀ k, (shut.port k).state ≠ 2 → told.port k = shut.port k := fun k hk => floodFrom_port none _ hk
  have hline : told.bcn = s.bcn := by rw [hsent]; rfl
  have hjobs' : ∀ j ∈ told.fab.jobs, j.op = 6 → j.started = false := by rw [hsent]; exact hjobs
  obtain ⟨hmem, hfence⟩ := applyFence_idle (s := told) (m := s.place.moduleId) (p := p) (by rw [hline]; exact hrounds) (by rw [hline]; exact hwaits) hjobs'
  have htf : told.trainPart = none := by rw [hsent]; exact htrain
  let u := told.applyFence s.place.moduleId p
  have hu : u = { told with bcn := { told.bcn with fences := u.bcn.fences }, place := u.place } := hfence
  have hut : u.trainPart = none := by rw [hu]; exact htf
  obtain ⟨hev, hout⟩ : OnlyEvents u t ∧ u.outbox <+: t.outbox := by
    by_cases hup : (s.port p).state = 2
    · have hev := onlyEvents_event u 5 2 (s.portOwner p) p
        (leBytes 2 s.place.moduleId ++ leBytes 1 p ++ [0] ++ leBytes 2 (s.port p).peerModule ++ leBytes 1 (s.port p).peerPort)
      have hout := outbox_event (s := u) 5 2 (s.portOwner p) p
        (leBytes 2 s.place.moduleId ++ leBytes 1 p ++ [0] ++ leBytes 2 (s.port p).peerModule ++ leBytes 1 (s.port p).peerPort)
      have ht : t = State.fabricFault (u.event 5 2 (s.portOwner p) p
          (leBytes 2 s.place.moduleId ++ leBytes 1 p ++ [0] ++ leBytes 2 (s.port p).peerModule ++ leBytes 1 (s.port p).peerPort)) p := if_pos hup
      have hidle : (u.event 5 2 (s.portOwner p) p
          (leBytes 2 s.place.moduleId ++ leBytes 1 p ++ [0] ++ leBytes 2 (s.port p).peerModule ++ leBytes 1 (s.port p).peerPort)).trainPart = none := by
        rw [hev.1]
        exact hut
      rw [ht]
      unfold State.fabricFault
      rw [hidle]
      exact ⟨hev, hout⟩
    · have ht : t = u := if_neg hup
      rw [ht]
      exact ⟨OnlyEvents.refl u, List.prefix_rfl⟩
  have hports : ∀ k, t.port k = told.port k := fun k => by rw [hev.1, hu]; rfl
  have hself : (shut.port p).state ≠ 2 := by
    rw [hshut, if_pos rfl]
    exact show (4 : Nat) ≠ 2 by decide
  refine ⟨?_, ?_, (hports p).trans (htoldport p hself), fun k hk hdown => ?_, ?_⟩
  · rw [hev.1, hu, hline]
  · rw [hu] at hout
    exact hout
  · have hk' : shut.port k = s.port k := (hshut k).trans (if_neg hk)
    rw [hports, htoldport k (by rw [hk']; exact hdown), hk']
  · rw [hev.1]
    exact hmem

/-- The four events that fence a port. -/
theorem fenced_spec {p : Fin 8} {ev : Instr} {n : Nat} (hrounds : s.bcn.rounds = []) (hwaits : s.bcn.waits = [])
    (hjobs : ∀ j ∈ s.fab.jobs, j.op = 6 → j.started = false) (htrain : s.trainPart = none)
    (hev : (ev = .fabricTrainTimeout p ∧ (s.port p).state = 1) ∨ ((ev = .fabricSilence p ∨ ev = .fabricLaneLockLost p n) ∧ (s.port p).state = 2) ∨
      (ev = .replayTimeout p ∧ (s.port p).state = 2 ∧ (s.port p).replay ≠ [] ∧ s.fab.set.replayLim ≤ (s.port p).tries)) :
    let shut := s.modPort p (fun x => { x with
      state := 4, fenceSeen := true, downSeen := x.downSeen || x.state == 2, replay := [], wait := [], returning := false, used := [], owed := [], tries := 0,
      nakOut := false, lanesOk := if ev = .fabricLaneLockLost p n then min n 24 else x.lanesOk })
    let told := shut.floodFrom none (fenceFrame s.place.moduleId p s.bcn.step s.bcn.attempt)
    ∃ t, exec ev s = .next t ∧ t = { told with
        bcn := { s.bcn with fences := t.bcn.fences }, place := t.place, host := t.host, hostMem := t.hostMem, outbox := t.outbox } ∧
      told.outbox <+: t.outbox ∧ t.port p = shut.port p ∧ (∀ k, k ≠ p.val → (s.port k).state ≠ 2 → t.port k = s.port k) ∧
      (s.place.moduleId, p.val) ∈ t.bcn.fences := by
  intro shut told
  by_cases hlane : ev = .fabricLaneLockLost p n
  · have hup : (s.port p).state = 2 := by
      rcases hev with ⟨h, -⟩ | ⟨-, h⟩ | ⟨h, -⟩
      · rw [hlane] at h
        cases h
      · exact h
      · rw [hlane] at h
        cases h
    have hshut : shut = (s.modPort p (fun x => { x with lanesOk := min n 24 })).modPort p shutPort := by
      show s.modPort p (fun x => { x with
        state := 4, fenceSeen := true, downSeen := x.downSeen || x.state == 2, replay := [], wait := [], returning := false, used := [], owed := [], tries := 0,
        nakOut := false, lanesOk := if ev = .fabricLaneLockLost p n then min n 24 else x.lanesOk }) = _
      rw [modPort_modPort]
      simp only [if_pos hlane]
      rfl
    have hexec : exec ev s = .next ((s.modPort p (fun x => { x with lanesOk := min n 24 })).fencePort p) := by
      rw [hlane]
      exact if_pos hup
    obtain ⟨h1, h2, h3, h4, h5⟩ := fencePort_spec (s := s.modPort p (fun x => { x with lanesOk := min n 24 })) (p := p) hrounds hwaits hjobs htrain
    have htold : told = toldFence (s.modPort p (fun x => { x with lanesOk := min n 24 })) p ((s.modPort p (fun x => { x with lanesOk := min n 24 })).modPort p shutPort) := by
      show State.floodFrom shut none _ = _
      rw [hshut]
      rfl
    rw [htold, hshut]
    refine ⟨_, hexec, h1, h2, h3, fun k hk hdown => ?_, h5⟩
    have hk' : (s.modPort p (fun x => { x with lanesOk := min n 24 })).port k = s.port k := (modPort_port ..).trans (if_neg hk)
    rw [h4 k hk (by rw [hk']; exact hdown), hk']
  · have hshut : shut = s.modPort p shutPort := by
      show s.modPort p (fun x => { x with
        state := 4, fenceSeen := true, downSeen := x.downSeen || x.state == 2, replay := [], wait := [], returning := false, used := [], owed := [], tries := 0,
        nakOut := false, lanesOk := if ev = .fabricLaneLockLost p n then min n 24 else x.lanesOk }) = _
      simp only [if_neg hlane]
      rfl
    have hexec : exec ev s = .next (s.fencePort p) := by
      rcases hev with ⟨rfl, h⟩ | ⟨rfl | h, hup⟩ | ⟨rfl, hup, hreplay, hlimit⟩
      · exact if_pos h
      · exact if_pos hup
      · exact absurd h hlane
      · refine (if_neg ?_).trans (if_pos hlimit)
        simp [hup, hreplay]
    have hspec := fencePort_spec (s := s) (p := p) hrounds hwaits hjobs htrain
    have htold : told = toldFence s p (s.modPort p shutPort) := by
      show State.floodFrom shut none _ = _
      rw [hshut]
      rfl
    rw [htold, hshut]
    exact ⟨_, hexec, hspec⟩

/-! ### Lanes, replay and IDLE (R309 to R312, R332) -/

theorem fabricLaneLockLost_down {p : Fin 8} (n : Nat) (h : (s.port p).state ≠ 2) : ∃ t, exec (.fabricLaneLockLost p n) s = .next t ∧
    t = { s with fab := { s.fab with ports := t.fab.ports } } ∧
    (∀ k, t.port k = if k = p.val then { s.port p with lanesOk := min n 24 } else s.port k) :=
  ⟨_, if_neg h, rfl, fun k => modPort_port s p (fun x => { x with lanesOk := min n 24 }) k⟩

theorem exec_of_port_down {p : Fin 8} (h : (s.port p).state ≠ 2) :
    exec (.fabricSilence p) s = .next s ∧ exec (.replayTimeout p) s = .next s ∧ exec (.idleSend p) s = .next s ∧
      (∀ f, exec (.idleFrame p f) s = .next s) ∧ (∀ b, exec (.linkFrameDiscard p b) s = .next s) :=
  ⟨if_neg h, if_pos (by simp [h]), if_neg (by simp [h]), fun _ => if_neg (by simp [h]), fun _ => if_neg h⟩

theorem replayTimeout_again {p : Fin 8} (hup : (s.port p).state = 2) (hreplay : (s.port p).replay ≠ []) (hfew : (s.port p).tries < s.fab.set.replayLim) :
    ∃ t, exec (.replayTimeout p) s = .next t ∧
      t = { s with fab := { s.fab with ports := t.fab.ports }, outbox := s.outbox ++ (s.port p).replay.map (fun f => .fabric p f) } ∧
      (∀ k, t.port k = if k = p.val then { s.port p with
        replaySeen := true, replays := min ((s.port p).replays + (s.port p).replay.length) (2 ^ 32 - 1), tries := (s.port p).tries + 1 } else s.port k) := by
  have hexec : exec (.replayTimeout p) s = .next (s.replayPort p) :=
    (if_neg (by simp [hup, hreplay])).trans (if_neg (Nat.not_le.mpr hfew))
  have hform : s.replayPort p = (s.modPort p (fun x => { x with
      replaySeen := true, replays := satAdd 32 x.replays (s.port p).replay.length, tries := x.tries + 1 })).emits ((s.port p).replay.map (fun f => .fabric p f)) :=
    if_neg (by simp [hreplay])
  rw [hform] at hexec
  exact ⟨_, hexec, rfl, fun k => modPort_port s p (fun x => { x with
    replaySeen := true, replays := satAdd 32 x.replays (s.port p).replay.length, tries := x.tries + 1 }) k⟩

theorem idleSend_spec {p : Fin 8} (hup : (s.port p).state = 2) (hnone : (s.port p).pick s.servesFrame = none) :
    ∃ t f, exec (.idleSend p) s = .next t ∧ t = { s with fab := { s.fab with ports := t.fab.ports }, outbox := s.outbox ++ [.fabric p f] } ∧
      f.typ = 2 ∧ f.payload = [] ∧ f.ack = ((s.port p).rxNext + 4095) % 4096 ∧ f.nak = false ∧
      (∀ k, t.port k = if k = p.val then { s.port p with owed := (t.port p).owed } else s.port k) := by
  have hport : ∀ k, (s.sendIdle p false).port k = if k = p.val then (s.port p).paid (idleOf false (s.port p)) else s.port k := fun k =>
    modPort_port s p (fun x => x.paid (idleOf false (s.port p))) k
  refine ⟨s.sendIdle p false, idleOf false (s.port p), if_pos (by simp [hup, hnone]), rfl, rfl, rfl, rfl, rfl, fun k => ?_⟩
  rw [hport, hport, if_pos rfl]
  rfl

theorem linkFrameDiscard_spec {p : Fin 8} (late : Bool) (hup : (s.port p).state = 2) :
    ∃ t, exec (.linkFrameDiscard p late) s = .next t ∧ t = { s with fab := { s.fab with ports := t.fab.ports }, outbox := t.outbox } ∧
      (t.port p).crcerr = (if late = true then (s.port p).crcerr else min ((s.port p).crcerr + 1) (2 ^ 32 - 1)) ∧ (t.port p).nakOut = true ∧
      ((s.port p).nakOut = true → t.outbox = s.outbox) ∧
      ((s.port p).nakOut = false → ∃ f, t.outbox = s.outbox ++ [.fabric p f] ∧ f.nak = true ∧ f.typ = 2 ∧ f.ack = ((s.port p).rxNext + 4095) % 4096) ∧
      (t.port p).rxNext = (s.port p).rxNext ∧ (∀ k, k ≠ p.val → t.port k = s.port k) := by
  obtain ⟨x, hx, hcrc, hrx, hnak⟩ : ∃ x : FabPort, x = (if late = true then s.port p else { s.port p with crcerr := satAdd 32 (s.port p).crcerr 1 }) ∧
      x.crcerr = (if late = true then (s.port p).crcerr else min ((s.port p).crcerr + 1) (2 ^ 32 - 1)) ∧ x.rxNext = (s.port p).rxNext ∧
      x.nakOut = (s.port p).nakOut := by
    refine ⟨_, rfl, ?_, ?_, ?_⟩ <;> cases late <;> rfl
  let u := if (!late) = true then s.modPort p (fun x => { x with crcerr := satAdd 32 x.crcerr 1 }) else s
  have hu : u = { s with fab := { s.fab with ports := u.fab.ports } } := by
    show (if (!late) = true then _ else s) = { s with fab := { s.fab with ports := (if (!late) = true then _ else s : State).fab.ports } }
    cases late <;> rfl
  have huport : ∀ k, u.port k = if k = p.val then x else s.port k := fun k => by
    rw [hx]
    show (if (!late) = true then s.modPort p (fun x => { x with crcerr := satAdd 32 x.crcerr 1 }) else s).port k = _
    cases late
    case false => exact modPort_port s p (fun x => { x with crcerr := satAdd 32 x.crcerr 1 }) k
    case true =>
      rw [if_neg (by decide), if_pos rfl]
      split
      case isTrue hk => rw [hk]
      case isFalse => rfl
  have hexec : exec (.linkFrameDiscard p late) s =
      .next (if (s.port p).nakOut then u else (u.sendIdle p true).modPort p (fun x => { x with nakOut := true })) := if_pos hup
  clear_value u
  refine ⟨_, hexec, ?_⟩
  by_cases hout : (s.port p).nakOut = true
  · rw [if_pos hout]
    have hself : u.port p = x := (huport p).trans (if_pos rfl)
    refine ⟨?_, by rw [hself, hcrc], by rw [hself, hnak, hout], fun _ => by rw [hu], fun h => absurd (h.symm.trans hout) (by decide), by rw [hself, hrx],
      fun k hk => (huport k).trans (if_neg hk)⟩
    rw [hu]
  · rw [if_neg hout]
    have hself : ∀ k, ((u.sendIdle p true).modPort p (fun x => { x with nakOut := true })).port k =
        if k = p.val then { x.paid (idleOf true x) with nakOut := true } else s.port k := fun k => by
      have hidle : ∀ k, (u.sendIdle p true).port k = if k = p.val then (u.port p).paid (idleOf true (u.port p)) else u.port k := fun k =>
        modPort_port u p (fun x => x.paid (idleOf true (u.port p))) k
      rw [modPort_port, hidle, hidle, if_pos rfl, huport, if_pos rfl, huport]
      split <;> rfl
    have hsent : (u.sendIdle p true).outbox = s.outbox ++ [.fabric p (idleOf true x)] := by
      show u.outbox ++ [.fabric p (idleOf true (u.port p))] = _
      rw [huport, if_pos rfl, hu]
    refine ⟨?_, ?_, ?_, fun h => absurd h hout, fun _ => ⟨idleOf true x, hsent, rfl, rfl, ?_⟩, ?_, fun k hk => (hself k).trans (if_neg hk)⟩
    · show ({ u with fab := _, outbox := _ } : State) = _
      rw [hu]
      rfl
    · rw [hself, if_pos rfl]
      exact hcrc
    · rw [hself, if_pos rfl]
    · rw [← hrx]
      rfl
    · rw [hself, if_pos rfl]
      exact hrx

/-! ### IDLE_FRAME (R310, R315) -/

theorem portReturns_same {p : Nat} (h : (s.port p).returning = false) : s.portReturns p = s := if_pos (by rw [h]; rfl)

theorem portReturns_lifts {p : Nat} (h : (s.port p).returning = true) : let u := s.portReturns p
    u = { s with fab := { s.fab with ports := u.fab.ports }, bcn := { s.bcn with fences := u.bcn.fences }, place := u.place } ∧
      u.bcn.fences = s.bcn.fences.filter (fun f => f != (s.place.moduleId, p) && f != ((s.port p).peerModule, (s.port p).peerPort)) ∧
      ∀ k, u.port k = if k = p then { s.port p with returning := false } else s.port k := by
  have hform : s.portReturns p = ((s.modPort p (fun y => { y with returning := false })).modBcn (fun b =>
      { b with fences := b.fences.filter (fun f => f != (s.place.moduleId, p) && f != ((s.port p).peerModule, (s.port p).peerPort)) })).newDepth :=
    if_neg (by rw [h]; decide)
  have hport : ∀ k, (s.modPort p (fun y => { y with returning := false })).port k = _ := fun k => modPort_port ..
  dsimp only
  rw [hform]
  unfold State.newDepth
  split
  · exact ⟨rfl, rfl, hport⟩
  · exact ⟨rfl, rfl, hport⟩

theorem acked_of_absent {x : FabPort} {n : Nat} (h : ∀ g ∈ x.replay, g.lseq ≠ n) : x.acked n = x := by
  refine if_neg ?_
  simpa using h

theorem acked_of_found {x : FabPort} {n : Nat} {as bs : List FabFrame} {g : FabFrame} (hreplay : x.replay = as ++ g :: bs) (hg : g.lseq = n)
    (has : ∀ y ∈ as, y.lseq ≠ n) : (x.acked n).replay = bs ∧ (x.acked n).tries = 0 := by
  have hform : x.acked n = { x with replay := (x.replay.dropWhile (fun f => f.lseq != n)).drop 1, tries := 0 } := by
    refine if_pos ?_
    simp [hreplay, hg]
  rw [hform]
  refine ⟨?_, rfl⟩
  show (x.replay.dropWhile (fun f => f.lseq != n)).drop 1 = bs
  rw [hreplay, List.dropWhile_append_of_pos (fun y hy => bne_iff_ne.mpr (has y hy)), List.dropWhile_cons_of_neg (by simp [hg])]
  rfl

theorem acked_only (x : FabPort) (n : Nat) : x.acked n = { x with replay := (x.acked n).replay, tries := (x.acked n).tries } := by
  unfold FabPort.acked
  split <;> rfl

/-- What an IDLE frame makes of a port that nothing waits at. -/
def idled (x : FabPort) (f : FabFrame) : FabPort :=
  { x.acked f.ack with used := smapModify 0 x.used f.cvl (fun n => n - f.credit) }

/-- A port that nothing waits at sends nothing. -/
theorem pumpPort_of_empty {p : Nat} (h : (s.port p).wait = []) : s.pumpPort p = s.modPort p (fun x => x) := by
  unfold State.pumpPort
  rw [h]
  show ({ s.modPort p (fun _ => s.port p) with outbox := s.outbox ++ [] } : State) = _
  rw [List.append_nil]
  rfl

theorem linkFields_idle {p : Nat} {f : FabFrame} (hnak : f.nak = false) (hwait : ((s.portReturns p).port p).wait = []) :
    s.linkFields p f = (s.portReturns p).modPort p (fun x => idled x f) := by
  have hkept : (((s.portReturns p).modPort p (fun x => idled x f)).port p).wait = [] := by
    rw [modPort_port, if_pos rfl]
    unfold idled
    rw [acked_only]
    exact hwait
  unfold State.linkFields
  refine (if_neg (by rw [hnak]; decide)).trans ?_
  show ((s.portReturns p).modPort p (fun x => idled x f)).pumpPort p = _
  rw [pumpPort_of_empty hkept, modPort_modPort]

theorem idleFrame_spec {p : Fin 8} {f : FabFrame} (hup : (s.port p).state = 2) (htyp : f.typ = 2) (hnak : f.nak = false) (hwait : (s.port p).wait = []) :
    let u := s.portReturns p
    ∃ t, exec (.idleFrame p f) s = .next t ∧ t = { u with fab := { u.fab with ports := t.fab.ports } } ∧ (∀ k, k ≠ p.val → t.port k = s.port k) ∧
      t.port p = { s.port p with replay := (t.port p).replay, tries := (t.port p).tries, used := (t.port p).used, returning := false } ∧
      ((s.port p).returning = false → u = s) ∧
      ((s.port p).returning = true → u = { s with fab := u.fab, bcn := { s.bcn with fences := u.bcn.fences }, place := u.place } ∧
        u.bcn.fences = s.bcn.fences.filter (fun f => f != (s.place.moduleId, p.val) && f != ((s.port p).peerModule, (s.port p).peerPort))) ∧
      (∀ v, smapGet 0 (t.port p).used v = if v = f.cvl then smapGet 0 (s.port p).used v - f.credit else smapGet 0 (s.port p).used v) ∧
      ((∀ g ∈ (s.port p).replay, g.lseq ≠ f.ack) → (t.port p).replay = (s.port p).replay) ∧
      (∀ as bs g, (s.port p).replay = as ++ g :: bs → g.lseq = f.ack → (∀ x ∈ as, x.lseq ≠ f.ack) → (t.port p).replay = bs ∧ (t.port p).tries = 0) := by
  intro u
  have huport : ∀ k, u.port k = if k = p.val then { s.port p with returning := false } else s.port k := fun k => by
    by_cases hret : (s.port p).returning = true
    · exact (portReturns_lifts hret).2.2 k
    · have hret : (s.port p).returning = false := by simpa using hret
      show (s.portReturns p).port k = _
      rw [portReturns_same hret]
      split
      case isTrue hk => rw [hk, ← hret]
      case isFalse => rfl
  have hself : u.port p = { s.port p with returning := false } := (huport p).trans (if_pos rfl)
  have hexec : exec (.idleFrame p f) s = .next (u.modPort p (fun x => idled x f)) := by
    refine (if_pos (by simp [hup, htyp])).trans (congrArg _ (linkFields_idle hnak ?_))
    show (u.port p).wait = []
    rw [hself]
    exact hwait
  have hport : ∀ k, (u.modPort p (fun x => idled x f)).port k = if k = p.val then idled { s.port p with returning := false } f else s.port k := fun k => by
    rw [modPort_port, hself, huport]
    split <;> rfl
  have hnew := (hport p).trans (if_pos rfl)
  refine ⟨_, hexec, rfl, fun k hk => (hport k).trans (if_neg hk), ?_, portReturns_same, fun hret => ?_, fun v => ?_, fun habsent => ?_, fun as bs g hreplay hg has => ?_⟩
  · rw [hnew]
    unfold idled
    rw [acked_only]
  · obtain ⟨h1, h2, -⟩ := portReturns_lifts hret
    refine ⟨?_, h2⟩
    show s.portReturns p = { s with fab := (s.portReturns p).fab, bcn := { s.bcn with fences := (s.portReturns p).bcn.fences }, place := (s.portReturns p).place }
    generalize s.portReturns p = u at *
    rw [h1]
  · rw [hnew]
    show smapGet 0 (smapModify 0 (s.port p).used f.cvl (fun n => n - f.credit)) v = _
    rw [smapGet_smapModify]
    split
    case isTrue hv => rw [hv]
    case isFalse => rfl
  · have hsame := congrArg FabPort.replay (acked_of_absent (x := { s.port p with returning := false }) habsent)
    rw [hnew]
    exact hsame
  · rw [hnew]
    exact acked_of_found (x := { s.port p with returning := false }) hreplay hg has

end

/-- Settles O53: each event of a port's link is told by the lemma of its row. -/
theorem fabricPortsTrainFailAndFence : Obligations.FabricPortsTrainFailAndFence := by
  unfold Obligations.FabricPortsTrainFailAndFence
  exact ⟨fun s p m i q htrain => ⟨fabricTrainDone_up htrain, fabricTrainDone_refused htrain⟩,
    fun s p m i q h => ⟨if_pos (bne_iff_ne.mpr h), if_neg h⟩,
    fun s p ev n hrounds hwaits hjobs htrain hev => fenced_spec hrounds hwaits hjobs htrain hev,
    fun s p n h => fabricLaneLockLost_down n h, fun s p h => exec_of_port_down h, fun s p hup hreplay => replayTimeout_again hup hreplay,
    fun s p hup hnone => idleSend_spec hup hnone, fun s p f hup htyp hnak hwait => idleFrame_spec hup htyp hnak hwait,
    fun s p late hup => linkFrameDiscard_spec late hup⟩

end Sys2Proof.Proofs
end

section
/-! PROOFS. Frames on their way, bulk writes, acknowledgements and retransmissions. -/

namespace Sys2Proof.Proofs

open Sys2Proof.Machine Sys2Proof.Laws

section
variable {s : State} {p : Fin 8} {f : FabFrame}

/-! ### A frame that the link accepts (R308 to R310) -/

/-- A port that has accepted the frame. -/
def acceptedPort (f : FabFrame) (x : FabPort) : FabPort :=
  { idled x f with rxNext := ((idled x f).rxNext + 1) % 4096, nakOut := false, owed := smapModify 0 (idled x f).owed f.vl (fun n => n + frameUnits f) }

theorem linkAccept_idle (hup : (s.port p).state = 2) (htyp : f.typ < 2) (hseq : f.lseq = (s.port p).rxNext) (hnak : f.nak = false)
    (hret : (s.port p).returning = false) (hwait : (s.port p).wait = []) : s.linkAccept p f = (s.modPort p (acceptedPort f), true) := by
  have hfields := linkFields_idle (s := s) (p := p) (f := f) hnak (by rw [portReturns_same hret]; exact hwait)
  rw [portReturns_same hret] at hfields
  unfold State.linkAccept
  rw [if_neg (by simp [hup]), if_neg (by omega), if_neg (by omega), if_neg (by simp [hseq]), hfields, modPort_modPort]
  rfl

theorem acceptedPort_spec {x : FabPort} (hreplay : x.replay = []) : (acceptedPort f x).rxNext = (x.rxNext + 1) % 4096 ∧ (acceptedPort f x).nakOut = false ∧
    (acceptedPort f x).state = x.state ∧ smapGet 0 (acceptedPort f x).owed f.vl = smapGet 0 x.owed f.vl + (f.payload.length + 95) / 64 := by
  have hidle : idled x f = { x with used := smapModify 0 x.used f.cvl (fun n => n - f.credit) } := by
    unfold idled
    rw [acked_of_absent (by rw [hreplay]; simp)]
  unfold acceptedPort
  rw [hidle]
  refine ⟨rfl, rfl, rfl, ?_⟩
  show smapGet 0 (smapModify 0 x.owed f.vl (fun n => n + frameUnits f)) f.vl = _
  rw [smapGet_smapModify, if_pos rfl]
  unfold frameUnits frameSize ceilDiv
  congr 2
  omega

/-! ### A frame on its way from this module (R319) -/

/-- Nothing but ports, the flag of an unreachable destination, and events has changed. -/
def OnlyRoutes (s t : State) : Prop :=
  t = { s with fab := { s.fab with ports := t.fab.ports, unreachSeen := t.fab.unreachSeen },
               host := { s.host with erings := t.host.erings, held := t.host.held }, hostMem := t.hostMem, outbox := t.outbox }

theorem onlyRoutes_of_sends {t : State} (h : OnlySends s t) : OnlyRoutes s t := by
  unfold OnlyRoutes
  rw [h]

theorem onlyRoutes_unreached (arr : Nat) (b : Bool) (f : FabFrame) (htrain : s.trainPart = none) :
    let s1 := State.event { s with fab := { s.fab with unreachSeen := true } } 5 3 16 arr (leBytes 2 f.dest)
    OnlyRoutes s (if b then s1.fabricFault arr else s1) := by
  have hev := (onlyEvents_event { s with fab := { s.fab with unreachSeen := true } } 5 3 16 arr (leBytes 2 f.dest)).1
  dsimp only
  generalize State.event _ 5 3 16 arr (leBytes 2 f.dest) = e at *
  have hquiet : e.fabricFault arr = e := by
    unfold State.fabricFault
    rw [show e.trainPart = none by rw [hev]; exact htrain]
  rw [hquiet, ite_self]
  unfold OnlyRoutes
  rw [hev]

theorem onlyRoutes_routeFrame (htrain : s.trainPart = none) (arr : Option Nat) (f : FabFrame) : OnlyRoutes s (s.routeFrame arr f) := by
  unfold State.routeFrame
  dsimp only
  split
  · split
    · rfl
    · exact onlyRoutes_unreached _ _ f htrain
    · exact onlyRoutes_of_sends (onlySends_linkSend ..)
  · exact onlyRoutes_unreached _ false f htrain

/-! ### Bulk writes (R317, R329, R330) -/

theorem rangeOk_fab (x : Fabric) (part n a m : Nat) : State.rangeOk { s with fab := x } part n a m = s.rangeOk part n a m := by
  induction n generalizing a m with
  | zero => rfl
  | succ n ih =>
    unfold State.rangeOk
    simp only [ih]
    rfl

theorem writeShut_fab (x : Fabric) (a n : Nat) : State.writeShut { s with fab := x } a n = s.writeShut a n := by
  unfold State.writeShut State.moduleRange
  rw [rangeOk_fab]
  rfl

theorem mem_pokeBytes_fab (x : Fabric) (bs : List Byte) (a : Nat) (s : State) : (State.pokeBytes { s with fab := x } a bs).mem = (s.pokeBytes a bs).mem := by
  induction bs generalizing a s with
  | nil => rfl
  | cons b bs ih =>
    unfold State.pokeBytes
    have hlost : State.lostAt { s with fab := x } a = s.lostAt a := rfl
    rw [hlost]
    split
    · exact ih ..
    · exact ih (a + 1) { s with mem := memWrite s.mem a b }

theorem modFlow_flows (k : Nat) (g : Flow → Flow) (j : Nat) : smapFind (s.modFlow k g).fab.flows j =
    if j = k then some (g (smapGet {} s.fab.flows k)) else smapFind s.fab.flows j := smapFind_smapSet ..

theorem smapGet_of_find {α : Type} {d v : α} {m : SMap α} {k : Nat} (h : smapFind m k = some v) : smapGet d m k = v := by
  rw [smapGet_eq_find, h]
  rfl

theorem heirShut_of_low (h : f.arg < heirMark) : s.heirShut f = false := by simp [State.heirShut, Nat.not_le.mpr h]

/-- A packet of a flow without an engine and of no command is written where its ARG says, but for a range that is shut. -/
theorem packetWrite_plain {k : Nat} (hengine : (smapGet ({} : Flow) s.fab.flows k).engine = none) (huid : (smapGet ({} : Flow) s.fab.flows k).uid = none) :
    s.packetWrite k f = if s.writeShut (f.arg % heirMark) f.payload.length then s else s.pokeBytes (f.arg % heirMark) f.payload := by
  unfold State.packetWrite
  dsimp only
  rw [hengine, huid]
  rfl

theorem modFlow_written {w : State} {k : Nat} {g h : Flow → Flow} (hw : w = { s.modFlow k g with mem := w.mem }) :
    w.modFlow k h = { s with mem := (w.modFlow k h).mem, fab := { s.fab with flows := (w.modFlow k h).fab.flows } } := by
  obtain ⟨m, rfl⟩ : ∃ m, w = { s.modFlow k g with mem := m } := ⟨_, hw⟩
  rfl

/-- The flow that a first packet opens here. -/
def openedFlow (f : FabFrame) : Flow := { part := 16, peer := f.src, ctx := f.flow, epoch := f.epoch, sinceAck := 1 }

theorem packetRx_opens (hfree : 0 < s.contextsFree) (hnone : smapFind s.fab.flows f.flow = none) (hrx : smapFind s.fab.flows (rxKey f.src f.flow) = none)
    (hseq : f.fseq = 0) (hlow : f.arg < heirMark) : let t := s.packetRx f
    t = { s with mem := t.mem, fab := { s.fab with flows := t.fab.flows } } ∧
      t.mem = (if s.writeShut f.arg f.payload.length = true then s.mem else (s.pokeBytes f.arg f.payload).mem) ∧
      (∃ fl, smapFind t.fab.flows (rxKey f.src f.flow) = some fl ∧ fl.peer = f.src ∧ fl.ctx = f.flow ∧ fl.epoch = f.epoch ∧ fl.nextRx = 1) := by
  let k := rxKey f.src f.flow
  let s1 := s.modFlow k (fun _ => openedFlow f)
  let w := if s1.writeShut f.arg f.payload.length then s1 else s1.pokeBytes f.arg f.payload
  let s2 := w.modFlow k (fun x => { x with nextRx := (f.fseq + 1) % 2 ^ 32, early := smapErase x.early f.fseq })
  have hfl1 : smapFind s1.fab.flows k = some (openedFlow f) := (modFlow_flows ..).trans (if_pos rfl)
  have hwrite : s1.packetWrite k f = w := by
    have hget : smapGet ({} : Flow) s1.fab.flows k = openedFlow f := smapGet_of_find hfl1
    rw [packetWrite_plain (by rw [hget]; rfl) (by rw [hget]; rfl), Nat.mod_eq_of_lt hlow]
  have hw : w = { s1 with mem := w.mem } := by
    show (if s1.writeShut f.arg f.payload.length then s1 else s1.pokeBytes f.arg f.payload) = { s1 with mem := State.mem (if _ then _ else _) }
    split
    · rfl
    · exact pokeBytes_only ..
  have hmem : w.mem = if s.writeShut f.arg f.payload.length = true then s.mem else (s.pokeBytes f.arg f.payload).mem := by
    show State.mem (if s1.writeShut f.arg f.payload.length then s1 else s1.pokeBytes f.arg f.payload) = _
    rw [show s1.writeShut f.arg f.payload.length = s.writeShut f.arg f.payload.length from writeShut_fab ..]
    split
    · rfl
    · exact mem_pokeBytes_fab ..
  have hfl2 : smapFind s2.fab.flows k = some { openedFlow f with nextRx := 1 } := by
    refine (modFlow_flows ..).trans ((if_pos rfl).trans ?_)
    rw [hw, smapGet_of_find hfl1, hseq]
    rfl
  have hrx' : s.packetRx f = s2 := by
    unfold State.packetRx State.packetKey
    dsimp only
    rw [hnone, heirShut_of_low hlow]
    dsimp only
    rw [hrx]
    refine (if_neg (by decide)).trans ((if_neg (by omega)).trans ((if_pos hseq).trans ?_))
    show s1.packetDeliver k 1 f = s2
    unfold State.packetDeliver
    rw [hwrite]
    show (match smapFind (smapGet ({} : Flow) s2.fab.flows k).early ((f.fseq + 1) % 2 ^ 32) with
      | some g => State.packetDeliver s2 k 0 g
      | none => s2) = s2
    rw [smapGet_of_find hfl2]
    rfl
  have hs2 : s2 = { s with mem := s2.mem, fab := { s.fab with flows := s2.fab.flows } } := modFlow_written hw
  dsimp only
  rw [hrx']
  exact ⟨hs2, hmem, _, hfl2, rfl, rfl, rfl, rfl⟩

theorem packetKey_of_opened (hnone : smapFind s.fab.flows f.flow = none) : s.packetKey f = rxKey f.src f.flow := by
  unfold State.packetKey
  rw [hnone]

theorem packetRx_of_shut (h : s.heirShut f = true) : s.packetRx f = s := if_pos h

theorem packetRx_stands {fl : Flow} (hlow : f.arg < heirMark) (hnone : smapFind s.fab.flows f.flow = none) (hrx : smapFind s.fab.flows (rxKey f.src f.flow) = some fl) :
    s.packetRx f = s.flowTake (rxKey f.src f.flow) fl f := by
  unfold State.packetRx
  dsimp only
  rw [packetKey_of_opened hnone, heirShut_of_low hlow, hrx]
  exact if_neg (by decide)

theorem flowTake_stale {k : Nat} {fl : Flow} (h : f.epoch ≠ fl.epoch) : s.flowTake k fl f = { s with fab := { s.fab with staleSeen := true } } :=
  if_pos (bne_iff_ne.mpr h)

/-- An early packet is held. -/
theorem flowTake_early {k : Nat} {fl : Flow} (hk : smapFind s.fab.flows k = some fl) (hepoch : f.epoch = fl.epoch) (hlate : fl.nextRx < f.fseq)
    (hwindow : f.fseq < fl.nextRx + 1024) (hack : fl.sinceAck < 15) : let t := s.flowTake k fl f
    t = { s with fab := { s.fab with flows := t.fab.flows } } ∧
      ∃ fl', smapFind t.fab.flows k = some fl' ∧ smapFind fl'.early f.fseq = some f ∧ fl'.nextRx = fl.nextRx := by
  have hd : (f.fseq + 2 ^ 32 - fl.nextRx) % 2 ^ 32 = f.fseq - fl.nextRx := by omega
  have hform : s.flowTake k fl f = (s.modFlow k (fun x => { x with early := smapSet x.early f.fseq f })).modFlow k (fun x => { x with sinceAck := x.sinceAck + 1 }) := by
    unfold State.flowTake
    dsimp only
    rw [hd, if_neg (by simp [hepoch])]
    obtain ⟨d, hdd, hpos, hsmall⟩ : ∃ d, f.fseq - fl.nextRx = d ∧ d ≠ 0 ∧ d < 1024 := ⟨_, rfl, by omega, by omega⟩
    rw [hdd, decide_eq_false hpos, if_neg hpos, if_pos hsmall]
    refine (if_neg (by simp)).trans (if_neg ?_)
    simp only [Bool.or_eq_true, decide_eq_true_eq]
    omega
  dsimp only
  rw [hform]
  refine ⟨rfl, { fl with early := smapSet fl.early f.fseq f, sinceAck := fl.sinceAck + 1 }, ?_, smapFind_smapSet_same .., rfl⟩
  have hheld : smapFind (s.modFlow k (fun x => { x with early := smapSet x.early f.fseq f })).fab.flows k = some { fl with early := smapSet fl.early f.fseq f } := by
    rw [modFlow_flows, if_pos rfl, smapGet_of_find hk]
  rw [modFlow_flows, if_pos rfl, smapGet_of_find hheld]

/-! ### Acknowledgements (R317) -/

theorem smapFind_dropFlow (k : Nat) : smapFind (s.dropFlow k).fab.flows k = none := (smapFind_smapErase ..).trans (if_pos rfl)

theorem flowKey_of_low (h : f.arg < 2 ^ 32) (peer : Nat) : flowKey f peer = f.flow := by
  have hnone : argSet f.arg = none := if_pos (Nat.div_eq_of_lt h)
  unfold flowKey
  rw [hnone, ite_self]

/-- The acknowledgement of all that a command's write flow has sent ends the flow and its part of the command. -/
theorem flowAcked_last {fl : Flow} {uid : Nat} {cs ds : List OutCmd} {c : OutCmd} (hlow : f.arg < 2 ^ 32) (hfl : smapFind s.fab.flows f.flow = some fl)
    (hpeer : fl.peer = f.src) (hepoch : fl.epoch = f.epoch) (huid : fl.uid = some uid) (hread : fl.reading = false) (hexpect : fl.expect = 0)
    (hqueued : fl.queued = []) (hunacked : ∀ k ∈ fl.unacked, k.frame.fseq ≤ f.fseq ∧ f.fseq < k.frame.fseq + 1024) (htrain : s.trainPart = none)
    (hcmds : s.host.cmds = cs ++ c :: ds) (hc : c.uid = uid) (hothers : ∀ x ∈ cs ++ ds, x.uid ≠ uid)
    (hrun : c.phase = .running) (hreplayed : c.replayed = false) (hdrained : c.drained = false) (hleft : c.left ≤ 1)
    (h1 : opcodeOf c.body ≠ 0x0103) (h2 : opcodeOf c.body ≠ 0x0101) : let t := s.flowAcked f
    smapFind t.fab.flows f.flow = none ∧ t.mem = s.mem ∧
      (∃ c', t.host.cmds = cs ++ c' :: ds ∧ c'.uid = uid ∧ c'.phase = .done ∧ c'.status = stDone) := by
  have hkeep : fl.unacked.filter (fun p => (f.fseq + 2 ^ 32 - p.frame.fseq) % 2 ^ 32 ≥ 1024) = [] := by
    refine List.filter_eq_nil_iff.mpr (fun k hk => ?_)
    obtain ⟨hle, hlt⟩ := hunacked k hk
    simp only [decide_eq_true_eq]
    omega
  let s1 := s.modFlow f.flow (fun x => { x with unacked := [] })
  let r := s1.routeFrame none (s.flowFrame fl 3 1 3 fl.nextTx 0 [])
  have hform : s.flowAcked f = (r.dropFlow f.flow).transferDone uid := by
    unfold State.flowAcked
    dsimp only
    rw [flowKey_of_low hlow, hfl]
    dsimp only
    rw [if_neg (by simp [hpeer]), if_neg (by simp [hepoch]), hkeep, hqueued, huid]
    exact if_pos (by simp [hread, hexpect])
  have hroute : OnlyRoutes s1 r := onlyRoutes_routeFrame (s := s1) htrain none _
  have hrcmds : (r.dropFlow f.flow).host.cmds = cs ++ c :: ds := by
    show r.host.cmds = _
    rw [hroute]
    exact hcmds
  have hrmem : r.mem = s.mem := by rw [hroute]; rfl
  obtain ⟨hframe, hdone⟩ := transferDone_spec (s := r.dropFlow f.flow) hrcmds (by rw [hc]; exact hothers) hrun hreplayed hdrained hleft h1 h2
  rw [hc] at hframe hdone
  dsimp only
  rw [hform]
  refine ⟨?_, ?_, hdone⟩
  · rw [hframe]
    exact smapFind_dropFlow ..
  · rw [hframe]
    exact hrmem

theorem flowAckOut_spec {k : Nat} {fl : Flow} (hfl : smapFind s.fab.flows k = some fl) (htrain : s.trainPart = none) : let t := s.flowAckOut k
    smapFind t.fab.flows k = some { fl with sinceAck := 0 } ∧ t.mem = s.mem := by
  have hform : ∃ x, s.flowAckOut k = (s.modFlow k (fun x => { x with sinceAck := 0 })).routeFrame none x := by
    unfold State.flowAckOut
    rw [hfl]
    exact ⟨_, rfl⟩
  obtain ⟨x, hx⟩ := hform
  have hroute : OnlyRoutes _ _ := onlyRoutes_routeFrame (s := s.modFlow k (fun x => { x with sinceAck := 0 })) htrain none x
  have hflow : smapFind (s.modFlow k (fun x => { x with sinceAck := 0 })).fab.flows k = some { fl with sinceAck := 0 } := by
    rw [modFlow_flows, if_pos rfl, smapGet_of_find hfl]
  dsimp only
  rw [hx, hroute]
  exact ⟨hflow, rfl⟩

/-! ### Retransmission (R312, R317) -/

theorem exec_flowRetransmitTimeout {k n : Nat} {fl : Flow} {pk : FlowPkt} (hfl : smapFind s.fab.flows k = some fl)
    (hpk : fl.unacked.find? (fun p => p.frame.fseq == n) = some pk) : exec (.flowRetransmitTimeout k n) s =
    if s.fab.set.flowRetry ≤ pk.tries && !s.exportFlow fl then .next (s.flowFail k fl)
    else .next (State.routeFrame { (s.modFlow k (fun x => { x with unacked := x.unacked.map (fun p =>
      if p.frame.fseq == n then { p with tries := p.tries + 1 } else p) })) with
        fab := { (s.modFlow k (fun x => { x with unacked := x.unacked.map (fun p =>
          if p.frame.fseq == n then { p with tries := p.tries + 1 } else p) })).fab with retxSeen := true } } none pk.frame) := by
  show execFlowRetransmitTimeout k n s = _
  unfold execFlowRetransmitTimeout
  rw [hfl]
  dsimp only
  rw [hpk]

theorem flowRetransmitTimeout_again {k n : Nat} {fl : Flow} {pk : FlowPkt} (hfl : smapFind s.fab.flows k = some fl)
    (hpk : fl.unacked.find? (fun p => p.frame.fseq == n) = some pk) (htrain : s.trainPart = none)
    (h : pk.tries < s.fab.set.flowRetry ∨ s.exportFlow fl = true) : ∃ t, exec (.flowRetransmitTimeout k n) s = .next t ∧
      t = { s with fab := t.fab, host := t.host, hostMem := t.hostMem, outbox := t.outbox } ∧ t.host.cmds = s.host.cmds ∧ t.fab.retxSeen = true ∧
      smapFind t.fab.flows k = some { fl with unacked := fl.unacked.map (fun p => if p.frame.fseq = n then { p with tries := p.tries + 1 } else p) } := by
  let u := s.modFlow k (fun x => { x with unacked := x.unacked.map (fun p => if p.frame.fseq == n then { p with tries := p.tries + 1 } else p) })
  have hexec : exec (.flowRetransmitTimeout k n) s = .next (State.routeFrame { u with fab := { u.fab with retxSeen := true } } none pk.frame) := by
    refine (exec_flowRetransmitTimeout hfl hpk).trans (if_neg ?_)
    simp only [Bool.and_eq_true, decide_eq_true_eq, Bool.not_eq_true']
    rintro ⟨hle, hno⟩
    rcases h with h | h
    · omega
    · exact Bool.false_ne_true (hno.symm.trans h)
  have hroute : OnlyRoutes _ _ := onlyRoutes_routeFrame (s := { u with fab := { u.fab with retxSeen := true } }) htrain none pk.frame
  have hflow : smapFind u.fab.flows k = some { fl with unacked := fl.unacked.map (fun p => if p.frame.fseq = n then { p with tries := p.tries + 1 } else p) } := by
    show smapFind (s.modFlow k _).fab.flows k = _
    rw [modFlow_flows, if_pos rfl, smapGet_of_find hfl]
    simp only [beq_iff_eq]
  refine ⟨_, hexec, ?_⟩
  rw [hroute]
  exact ⟨rfl, rfl, rfl, hflow⟩

/-- What has become of the commands of one number: each is one of before, but for its posting. -/
def OnlyPosted (cs ds : List OutCmd) : Prop := ∀ x ∈ ds, ∃ c ∈ cs, x = { c with posted := x.posted }

theorem OnlyPosted.refl (cs : List OutCmd) : OnlyPosted cs cs := fun x hx => ⟨x, hx, rfl⟩

theorem OnlyPosted.trans {as bs cs : List OutCmd} (h : OnlyPosted as bs) (k : OnlyPosted bs cs) : OnlyPosted as cs := fun x hx => by
  obtain ⟨y, hy, hxy⟩ := k x hx
  obtain ⟨z, hz, hyz⟩ := h y hy
  exact ⟨z, hz, by rw [hxy, hyz]⟩

theorem onlyPosted_markPosted (c : OutCmd) : OnlyPosted s.host.cmds (s.markPosted c).host.cmds := by
  unfold State.markPosted
  split
  · intro x hx
    obtain ⟨y, hy, rfl⟩ := List.mem_map.mp hx
    refine ⟨y, hy, ?_⟩
    split <;> rfl
  · exact fun x hx => ⟨x, List.mem_of_mem_filter hx, rfl⟩

theorem onlyPosted_entry (m : Memory) (ring : Nat) (c : OutCmd) :
    OnlyPosted s.host.cmds ((State.modCring { s with hostMem := m } ring CRing.posted).markPosted c).host.cmds :=
  onlyPosted_markPosted (s := State.modCring { s with hostMem := m } ring CRing.posted) c

theorem onlyPosted_postOne (q : Fin 64) : OnlyPosted s.host.cmds (s.postOne q).host.cmds := by
  unfold State.postOne
  dsimp only
  split
  · exact OnlyPosted.refl _
  · split
    · exact OnlyPosted.refl _
    · split
      · exact onlyPosted_entry _ _ _
      · exact onlyPosted_entry _ _ _

theorem onlyPosted_postReady : OnlyPosted s.host.cmds s.postReady.host.cmds :=
  forAll_keeps (fun t => OnlyPosted s.host.cmds t.host.cmds) s.host.cmds _ (fun _ c _ ht => ht.trans (onlyPosted_postOne c.hdr.queue)) s (OnlyPosted.refl _)

/-- Nothing but the fabric's flags and jobs, and the commands, rings and messages of the host has changed. -/
def OnlyFails (s t : State) : Prop :=
  t = { s with fab := { s.fab with jobs := t.fab.jobs, failSeen := t.fab.failSeen }, host := t.host, hostMem := t.hostMem, outbox := t.outbox }

theorem onlyFails_of_posts {u t : State} (h : OnlyFails s u) (k : OnlyPosts u t) : OnlyFails s t := by
  unfold OnlyFails OnlyPosts at *
  rw [k, h]

theorem engineFail_only (fl : Flow) : OnlyFails s (s.engineFail fl) := by
  unfold State.engineFail
  split
  · split
    · rfl
    · refine onlyFails_of_posts ?_ (onlyPosts_postReady _)
      rfl
  · rfl

/-- The commands and flags when a flow fails. -/
def failed (s : State) (fl : Flow) : State :=
  match fl.uid with
  | some uid => (State.finish { s with fab := { s.fab with failSeen := true } } uid stHw []).postReady
  | none => State.engineFail { s with fab := { s.fab with failSeen := true } } fl

theorem failed_only (fl : Flow) : OnlyFails s (failed s fl) ∧ (failed s fl).fab.failSeen = true ∧
    ∀ uid, fl.uid = some uid → ∀ x ∈ (failed s fl).host.cmds, x.uid = uid → ∃ c ∈ s.host.cmds, c.uid = uid ∧ x = { c.finish stHw [] with posted := x.posted } := by
  unfold failed
  cases huid : fl.uid with
  | none =>
    have hfail := engineFail_only (s := { s with fab := { s.fab with failSeen := true } }) fl
    refine ⟨?_, ?_, fun uid h => by cases h⟩
    · dsimp only
      unfold OnlyFails at *
      rw [hfail]
    · unfold State.engineFail
      dsimp only
      split
      · split
        · rfl
        · rw [onlyPosts_postReady]
          rfl
      · rfl
  | some uid =>
    refine ⟨onlyFails_of_posts ?_ (onlyPosts_postReady _), ?_, fun uid' h x hx hxu => ?_⟩
    · rfl
    · dsimp only
      rw [onlyPosts_postReady]
      rfl
    · obtain rfl := Option.some.inj h
      obtain ⟨y, hy, hxy⟩ := onlyPosted_postReady x hx
      obtain ⟨c, hc, rfl⟩ := List.mem_map.mp hy
      by_cases hcu : c.uid = uid
      · refine ⟨c, hc, hcu, ?_⟩
        rw [if_pos (by simpa using hcu)] at hxy
        exact hxy
      · rw [if_neg (by simpa using hcu)] at hxy
        rw [hxy] at hxu
        exact absurd hxu hcu

/-- The flows when flow `k` fails: an engine's loses its packets, any other ends with what its command has open. -/
def flowsAfter (k : Nat) (fl : Flow) (flows : SMap Flow) : SMap Flow :=
  if fl.engine.isSome then smapModify {} flows k Flow.failed else flows.filter (fun x => x.1 != k && (fl.uid.isNone || x.2.uid != fl.uid))

theorem smapFind_filter_out {α : Type} (m : SMap α) (k : Nat) (q : Nat × α → Bool) : smapFind (m.filter (fun x => x.1 != k && q x)) k = none := by
  induction m with
  | nil => rfl
  | cons x m ih =>
    by_cases hx : x.1 = k
    · rw [List.filter_cons_of_neg (by simp [hx]), ih]
    · by_cases hq : q x = true
      · rw [List.filter_cons_of_pos (by simp [hx, hq])]
        exact (if_neg hx).trans ih
      · rw [List.filter_cons_of_neg (by simp [hq]), ih]

theorem smapFind_flowsAfter {k : Nat} {fl : Flow} {flows : SMap Flow} (hfl : smapFind flows k = some fl) :
    smapFind (flowsAfter k fl flows) k = if fl.engine.isSome = true then some fl.failed else none := by
  unfold flowsAfter
  split
  · unfold smapModify
    rw [smapFind_smapSet_same, smapGet_of_find hfl]
  · exact smapFind_filter_out ..

theorem flowFail_eq (k : Nat) (fl : Flow) (htrain : (s.part fl.part).train = false) :
    ∃ e1 e2, s.flowFail k fl = e2 ∧ OnlyEvents (failed s fl) e1 ∧ OnlyEvents { e1 with fab := { e1.fab with flows := flowsAfter k fl e1.fab.flows } } e2 := by
  have hform : s.flowFail k fl = State.hwFault { (failed s fl).event 5 4 fl.part k (leBytes 2 fl.peer) with
      fab := { ((failed s fl).event 5 4 fl.part k (leBytes 2 fl.peer)).fab with
        flows := flowsAfter k fl ((failed s fl).event 5 4 fl.part k (leBytes 2 fl.peer)).fab.flows } } 2 fl.part k := by
    unfold State.flowFail failed flowsAfter
    cases fl.uid <;> rfl
  obtain ⟨hfail, -⟩ := failed_only (s := s) fl
  have hev := onlyEvents_event (failed s fl) 5 4 fl.part k (leBytes 2 fl.peer)
  generalize (failed s fl).event 5 4 fl.part k (leBytes 2 fl.peer) = e1 at *
  have hev2 := onlyEvents_event { e1 with fab := { e1.fab with flows := flowsAfter k fl e1.fab.flows } } 10 1 fl.part k []
  refine ⟨e1, _, hform, hev, ?_⟩
  unfold State.hwFault
  have hpart : ((State.hwEvent { e1 with fab := { e1.fab with flows := flowsAfter k fl e1.fab.flows } } fl.part k).part fl.part).train = false := by
    have hparts : (State.hwEvent { e1 with fab := { e1.fab with flows := flowsAfter k fl e1.fab.flows } } fl.part k).parts = s.parts := by
      show (State.event _ 10 1 fl.part k []).parts = _
      rw [hev2.1]
      show e1.parts = _
      rw [hev.1, hfail]
    unfold State.part
    rw [hparts]
    exact htrain
  have hquiet : ({ e1 with fab := { e1.fab with flows := flowsAfter k fl e1.fab.flows } } : State).part fl.part = s.part fl.part := by
    show smapGet {} e1.parts fl.part = smapGet {} s.parts fl.part
    rw [hev.1, hfail]
  dsimp only
  rw [hquiet, htrain]
  exact hev2

theorem flowRetransmitTimeout_fails {k n : Nat} {fl : Flow} {pk : FlowPkt} (hfl : smapFind s.fab.flows k = some fl)
    (hpk : fl.unacked.find? (fun p => p.frame.fseq == n) = some pk) (hlimit : s.fab.set.flowRetry ≤ pk.tries) (hexport : s.exportFlow fl = false)
    (htrain : (s.part fl.part).train = false) : ∃ t, exec (.flowRetransmitTimeout k n) s = .next t ∧
      t = { s with fab := t.fab, host := t.host, hostMem := t.hostMem, outbox := t.outbox, mods := t.mods } ∧ t.fab.failSeen = true ∧
      smapFind t.fab.flows k = (if fl.engine.isSome = true then some fl.failed else none) ∧
      (∀ uid, fl.uid = some uid → ∀ x ∈ t.host.cmds, x.uid = uid →
        ∃ c ∈ s.host.cmds, c.uid = uid ∧ x = { c.finish stHw [] with posted := x.posted }) := by
  obtain ⟨e1, e2, hform, hev1, hev2⟩ := flowFail_eq k fl htrain
  obtain ⟨hfail, hseen, hcmds⟩ := failed_only (s := s) fl
  refine ⟨e2, ?_, ?_⟩
  · rw [← hform]
    exact (exec_flowRetransmitTimeout hfl hpk).trans (if_pos (by simp [hlimit, hexport]))
  have hflows : e1.fab.flows = s.fab.flows := by rw [hev1.1, hfail]
  refine ⟨?_, ?_, ?_, ?_⟩
  · rw [hev2.1, hev1.1, hfail]
  · rw [hev2.1, hev1.1]
    exact hseen
  · rw [hev2.1]
    show smapFind (flowsAfter k fl e1.fab.flows) k = _
    rw [hflows]
    exact smapFind_flowsAfter hfl
  · rw [hev2.1]
    show ∀ uid, fl.uid = some uid → ∀ x ∈ e1.host.cmds, _
    rw [hev1.1]
    exact hcmds

theorem exec_flow_none {k n : Nat} (h : smapFind s.fab.flows k = none) : exec (.flowRetransmitTimeout k n) s = .next s ∧ exec (.flowAckTimer k) s = .next s := by
  constructor
  · show execFlowRetransmitTimeout k n s = _
    unfold execFlowRetransmitTimeout
    rw [h]
  · show execFlowAckTimer k s = _
    unfold execFlowAckTimer
    rw [h]

theorem exec_flowAckTimer {k : Nat} {fl : Flow} (h : smapFind s.fab.flows k = some fl) :
    exec (.flowAckTimer k) s = if fl.sinceAck = 0 then .next s else .next (s.flowAckOut k) := by
  show execFlowAckTimer k s = _
  unfold execFlowAckTimer
  rw [h]

/-- A frame of a flow that the link accepts, by its KIND. -/
theorem exec_accepted {s' : State} (hacc : s.linkAccept p f = (s', true)) :
    (f.dest = s.place.moduleId → exec (.frameForward p f) s = .next s') ∧
    (f.dest ≠ s.place.moduleId → exec (.frameForward p f) s = .next (s'.routeFrame (some p.val) f)) ∧
    (f.dest = s.place.moduleId → f.kind = 0 → exec (.bulkWritePacket p f) s = .next (s'.packetRx f)) ∧
    (f.dest = s.place.moduleId → f.kind = 3 → exec (.flowControlMessage p f) s = .next (s'.dropFlow (s'.packetKey f))) ∧
    (f.dest = s.place.moduleId → f.kind = 2 → exec (.flowAck p f) s = .next (s'.flowAcked f)) := by
  refine ⟨fun hd => ?_, fun hd => ?_, fun hd hk => ?_, fun hd hk => ?_, fun hd hk => ?_⟩
  · show execFrameForward p f s = _
    unfold execFrameForward
    rw [hacc]
    exact if_neg (by simp [hd])
  · show execFrameForward p f s = _
    unfold execFrameForward
    rw [hacc]
    exact if_pos (by simp [hd])
  · show execBulkWritePacket p f s = _
    unfold execBulkWritePacket
    rw [hacc]
    exact if_pos (by simp [hd, hk])
  · show execFlowControlMessage p f s = _
    unfold execFlowControlMessage
    rw [hacc]
    exact if_pos (by simp [hd, hk])
  · show execFlowAck p f s = _
    unfold execFlowAck
    rw [hacc]
    exact if_pos (by simp [hd, hk])

end

/-- Settles O54: the link's part is one port's, and the flow's part is told by the lemma of its row on the state that the link leaves. -/
theorem flowsCarryBulkWrites : Obligations.FlowsCarryBulkWrites := by
  unfold Obligations.FlowsCarryBulkWrites
  refine ⟨fun s p f hup htyp hseq hnak _ hret hreplay hwait => ?_, fun s k n fl pk hfl hpk htrain =>
    ⟨flowRetransmitTimeout_again hfl hpk htrain, flowRetransmitTimeout_fails hfl hpk⟩, fun s k n h => exec_flow_none h,
    fun s k fl hfl => ⟨fun hz => (exec_flowAckTimer hfl).trans (if_pos hz), fun hz htrain =>
      ⟨_, (exec_flowAckTimer hfl).trans (if_neg hz), flowAckOut_spec hfl htrain⟩⟩⟩
  have hacc := linkAccept_idle hup htyp hseq hnak hret hwait
  obtain ⟨hrx, hnakOut, hstate, howed⟩ := acceptedPort_spec (f := f) hreplay
  have hport : ∀ k, (s.modPort p (acceptedPort f)).port k = if k = p.val then acceptedPort f (s.port p) else s.port k := fun k => modPort_port ..
  have hself := (hport p).trans (if_pos rfl)
  obtain ⟨hforward, honward, hwrite, hcontrol, hack⟩ := exec_accepted hacc
  have hshut : (s.modPort p (acceptedPort f)).writeShut f.arg f.payload.length = s.writeShut f.arg f.payload.length := writeShut_fab ..
  refine ⟨_, hacc, rfl, fun k hk => (hport k).trans (if_neg hk), by rw [hself]; exact hrx, by rw [hself]; exact hnakOut, by rw [hself, hstate]; exact hup,
    by rw [hself]; exact howed, hforward, honward, fun hd hk hnone hnew hfirst hlow hfree => ?_, fun hd hk hheir => ?_, fun fl hd hk hlow hnone hfl => ⟨fun hold => ?_, fun hepoch hlate hwindow _ hsince => ?_⟩,
    fun hd hk => hcontrol hd hk, ?_⟩
  · obtain ⟨hframe, hmem, hflow⟩ := packetRx_opens (s := s.modPort p (acceptedPort f)) hfree hnone hnew hfirst hlow
    refine ⟨_, hwrite hd hk, hframe, ?_, hflow⟩
    rw [hmem, hshut]
    split
    · rfl
    · exact mem_pokeBytes_fab ..
  · rw [hwrite hd hk]
    exact congrArg _ (packetRx_of_shut (s := s.modPort p (acceptedPort f)) hheir)
  · rw [hwrite hd hk]
    exact congrArg _ ((packetRx_stands (s := s.modPort p (acceptedPort f)) hlow hnone hfl).trans (flowTake_stale hold))
  · obtain ⟨hframe, hheld⟩ := flowTake_early (s := s.modPort p (acceptedPort f)) hfl hepoch hlate hwindow hsince
    rw [hwrite hd hk, packetRx_stands (s := s.modPort p (acceptedPort f)) hlow hnone hfl]
    exact ⟨_, rfl, hframe, hheld⟩
  · intro fl uid cs ds c hd hk hlow hfl hpeer hepoch huid hread hexpect hqueued hunacked _ htrain hcmds hc hothers hrun hreplayed hdrained hleft h1 h2
    exact ⟨_, hack hd hk, flowAcked_last (s := s.modPort p (acceptedPort f)) hlow hfl hpeer hepoch huid hread hexpect hqueued hunacked htrain hcmds hc hothers hrun
      hreplayed hdrained hleft h1 h2⟩

end Sys2Proof.Proofs
end

section
/-! PROOFS. A reduced shard that is read back from a memory which lists a byte twice. -/

namespace Sys2Proof.Proofs

open Sys2Proof.Machine Sys2Proof.Laws

/-! ### What is sent stays sent where no field trains and every place among the rounds in flight is taken -/

section

variable {s : State}

theorem outbox_pokeBytes (a : Nat) (bs : List Byte) :
    (s.pokeBytes a bs).outbox = s.outbox ∧ (s.pokeBytes a bs).bcn = s.bcn ∧ (s.pokeBytes a bs).parts = s.parts := by
  induction bs generalizing s a with
  | nil => exact ⟨rfl, rfl, rfl⟩
  | cons b bs ih =>
    rw [State.pokeBytes]
    obtain ⟨hout, hbcn, hparts⟩ := ih (s := if s.lostAt a then s else { s with mem := memWrite s.mem a b }) (a + 1)
    rw [hout, hbcn, hparts]
    split <;> exact ⟨rfl, rfl, rfl⟩

theorem outbox_modGroup (f k : Nat) (h : Group → Group) :
    (s.modGroup f k h).outbox = s.outbox ∧ (s.modGroup f k h).bcn = s.bcn ∧ (s.modGroup f k h).parts = s.parts := by
  unfold State.modGroup
  split <;> exact ⟨rfl, rfl, rfl⟩

theorem outbox_park (g : Group) : (s.park g).outbox = s.outbox ∧ (s.park g).bcn = s.bcn ∧ (s.park g).parts = s.parts := by
  unfold State.park
  dsimp only
  obtain ⟨hout, hbcn, hparts⟩ := outbox_modGroup (s := s.pokeBytes (s.parkAddr g.p s.bcn.step) (s.peekBytes (gradAddr g.p (s.ownBlocks g.p).1)
    (512 * (s.ownBlocks g.p).2))) g.p.field g.p.gid (fun x => { x with
      parks := x.parks.filter (fun k => k.step != s.bcn.step) ++ [{ step := s.bcn.step, factor := oneF32, scal := (s.fld g.p.field).scal }] })
  obtain ⟨hout', hbcn', hparts'⟩ := outbox_pokeBytes (s := s) (s.parkAddr g.p s.bcn.step) (s.peekBytes (gradAddr g.p (s.ownBlocks g.p).1)
    (512 * (s.ownBlocks g.p).2))
  exact ⟨hout.trans hout', hbcn.trans hbcn', hparts.trans hparts'⟩

/-- What goes out, the partitions, the mark table and the marks reached are those of `s`. -/
def Quiet (s t : State) : Prop :=
  t.outbox = s.outbox ∧ t.parts = s.parts ∧ t.bcn.table = s.bcn.table ∧ t.bcn.reached = s.bcn.reached

/-- The module has no partition, and none of the rounds in flight, which fill every place, is the norm's. -/
def Crowded (s : State) : Prop := s.parts = [] ∧ s.bcn.rounds.any (fun r => r.key == 4) = false ∧ 16 ≤ s.bcn.rounds.length

theorem trainFields_of_parts (h : s.parts = []) : s.trainFields = [] := by
  have hnone : s.trainPart = none := by
    unfold State.trainPart State.part
    rw [h]
    decide
  unfold State.trainFields
  rw [hnone]

theorem roundFree_of_crowded (h : Crowded s) (f : FlareFrame) (hkey : f.key = 4) : s.bcn.roundFree f = false := by
  obtain ⟨-, hkeys, hlen⟩ := h
  have hnone : s.bcn.rounds.any (fun r => r.isFor f) = false := by
    rw [List.any_eq_false] at hkeys ⊢
    intro r hr hfor
    refine hkeys r hr ?_
    unfold FlareRound.isFor at hfor
    rw [hkey] at hfor
    simp only [Bool.and_eq_true] at hfor
    exact hfor.1.1.1
  unfold Beacon.roundFree
  rw [hnone, decide_eq_false (by omega)]
  rfl

theorem quiet_checkNorm (h : Crowded s) : Quiet s s.checkNorm := by
  have hfields := trainFields_of_parts h.1
  unfold State.checkNorm State.contribute State.takePart
  simp only [hfields, List.filter_nil, List.isEmpty_nil, Bool.not_true, Bool.and_false, Bool.or_false, State.forAll, List.foldl_nil, List.all_nil,
    if_true]
  split
  · exact ⟨rfl, rfl, rfl, rfl⟩
  · rw [if_neg (by rw [roundFree_of_crowded h _ rfl]; decide)]
    exact ⟨rfl, rfl, rfl, rfl⟩

theorem quiet_afterLanding (h : Crowded s) (f gid : Nat) : Quiet s (s.afterLanding f gid) := by
  unfold State.afterLanding
  split
  · next g _ =>
    dsimp only
    split
    · obtain ⟨hout, hbcn, hparts⟩ := outbox_park (s := s) g
      have hnorm := quiet_checkNorm (s := s.park g) (by unfold Crowded; rw [hbcn, hparts]; exact h)
      unfold Quiet at hnorm ⊢
      rwa [hout, hbcn, hparts] at hnorm
    · exact quiet_checkNorm h
  · exact ⟨rfl, rfl, rfl, rfl⟩

/-- Only the marks 28 and 29 are defined; the module and its training fields `fs` have reached both. -/
def MarksBehind (s : State) (fs : List Nat) : Prop :=
  s.trainFields = fs ∧ s.bcn.table = [] ∧ s.bcn.reached = 3 * 2 ^ 28 ∧ ∀ f ∈ fs, smapGet 0 s.bcn.fieldReached f = 3 * 2 ^ 28

theorem reachOne_of_marksBehind {fs : List Nat} (h : MarksBehind s fs) {n : Nat} (hn : n ∈ (List.range 30).drop 1) : s.reachOne n = s := by
  obtain ⟨hfields, htable, hreached, hfield⟩ := h
  have hmarks : ∀ n ∈ (List.range 30).drop 1, markDef [] n = true → markIsland [] n = true ∧ (3 * 2 ^ 28).testBit n = true := by decide
  rw [← htable] at hmarks
  unfold State.reachOne
  dsimp only
  split
  · rfl
  · next hdef =>
    obtain ⟨hisland, hbit⟩ := hmarks n hn (by simpa using hdef)
    have hat : ∀ f ∈ fs, s.fieldAt f n = true := by
      intro f hf
      unfold State.fieldAt
      rw [hfield f hf, hbit, Bool.or_true]
    rw [hfields, forAll_of_forall_eq fun f hf => by rw [hat f hf]; rfl]
    rw [← hreached] at hbit
    simp only [hbit, hisland, Bool.true_or, if_true, Bool.not_true, Bool.false_and, Bool.false_eq_true, if_false]

theorem reachMarks_of_marksBehind {fs : List Nat} (h : MarksBehind s fs) : s.reachMarks = s := by
  unfold State.reachMarks
  split
  · exact forAll_of_forall_eq fun n hn => reachOne_of_marksBehind h hn
  · rfl

end

/-! ### A byte listed twice -/

/-- A group of two blocks that fields 0 and 1 of this module share; its gradient area begins the reduction buffer of field 0. -/
def sharedGroup : Group :=
  { p := { blockGroup with nelem := 256, r := 2, members := [(0, 0), (0, 1)] }, bank := 0, exchanged := true }

/-- The list of module memory holds the first byte of the gradient area twice, so that the first entry gone leaves the second to be read. -/
def listedAgain : State := { plainState with
  parts := []
  fields := [(0, { groups := [(7, sharedGroup)] })]
  mem := [(redBase 0, 1), (redBase 0, 2)]
  bcn := { begun := true, reached := 3 * 2 ^ 28, rounds := List.replicate 16 { op := 0, key := 0, index := 0, step := 0, attempt := 0 } } }

/-- Both ranks' contributions are 0. -/
def zeroShards : List (Nat × List Byte) := [(0, []), (1, [])]

/-- The words of the own shard: zeros. -/
def zeroSum : List Byte := reducedShard listedAgain 0 sharedGroup (gathered listedAgain sharedGroup zeroShards)

/-- What the other member is told is not the sum. -/
theorem shard_listedAgain :
    (nextOf (exec (.shardReductionLanded 0 7 zeroShards) listedAgain)).map (fun t => t.outbox.getLast?) ≠ some (some (.shard 0 1 7 3 0 zeroSum)) := by
  decide +kernel

theorem joined_listedAgain : joined listedAgain := by
  intro m h t lk vl hself
  simp [listedAgain, plainState, State.self, State.reset] at hself

theorem forAll_toMember_listedAgain {v : State} (h : v.place.moduleId = 0) :
    v.forAll (listedAgain.otherMembers sharedGroup.p) (fun x m => x.toMember sharedGroup.p m 3 0 0 zeroSum) = v.emit (.shard 0 1 7 3 0 zeroSum) := by
  rw [show listedAgain.otherMembers sharedGroup.p = [(0, 1)] by decide]
  unfold State.forAll State.toMember
  rw [List.foldl_cons, List.foldl_nil, if_pos h.symm]
  rfl

/-- Refutes O55: without MemInv the module may read back, and send to the other members, bytes that are not those of the sum it has written. -/
theorem not_updateUnitRows : ¬ Obligations.UpdateUnitRows := by
  unfold Obligations.UpdateUnitRows
  intro hall
  obtain ⟨hshard, -⟩ := hall
  obtain ⟨-, -, hwhole, -⟩ := hshard listedAgain 0 7 sharedGroup zeroShards (by decide) rfl rfl
  obtain ⟨u, v, hnext, hu, hv, -⟩ := hwhole rfl rfl rfl (by decide) (by decide) (by decide) rfl joined_listedAgain
  have hsent := forAll_toMember_listedAgain (v := v) (by rw [hv]; rfl)
  change u = (v.forAll (listedAgain.otherMembers sharedGroup.p) (fun x m => x.toMember sharedGroup.p m 3 0 0 zeroSum)).afterLanding 0 7 at hu
  rw [hsent] at hu
  have hbcn : v.bcn = listedAgain.bcn := by rw [hv]
  have hcrowded : Crowded (v.emit (.shard 0 1 7 3 0 zeroSum)) := by
    refine ⟨by rw [hv]; rfl, ?_, ?_⟩
    · show v.bcn.rounds.any (fun r => r.key == 4) = false
      rw [hbcn]
      decide
    · show 16 ≤ v.bcn.rounds.length
      rw [hbcn]
      decide
  obtain ⟨hout, hparts, htable, hreached⟩ := quiet_afterLanding hcrowded 0 7
  rw [← hu] at hout hparts htable hreached
  have hmarks : u.reachMarks = u :=
    reachMarks_of_marksBehind (fs := []) ⟨trainFields_of_parts (hparts.trans (by rw [hv]; rfl)), htable.trans (by rw [hv]; rfl),
      hreached.trans (by rw [hv]; rfl), nofun⟩
  have hlast := shard_listedAgain
  rw [show exec (.shardReductionLanded 0 7 zeroShards) listedAgain = .next u.reachMarks from hnext, hmarks] at hlast
  refine hlast (congrArg some ?_)
  show u.outbox.getLast? = _
  rw [hout]
  exact List.getLast?_concat

end Sys2Proof.Proofs
end

section
/-! PROOFS. The tiers (O56): activation entries on the way to and from the host tier, and the state of HOST groups. -/

namespace Sys2Proof.Proofs

open Sys2Proof.Machine Sys2Proof.Laws

section

variable {s : State}

/-! ### Entries on their way -/

theorem offload_none {part aid f : Nat} (h : (∀ e, smapFind s.acts (actKey part aid) = some e → e.p.policy ≠ 1 ∨ e.p.fmask.testBit f = false) ∨
    (s.part part).train = false ∨ s.bcn.begun = false) : s.offload part aid f = none := by
  unfold State.offload
  split
  · next e he =>
    refine if_neg fun hc => ?_
    simp only [Bool.and_eq_true, beq_iff_eq] at hc
    obtain ⟨⟨⟨hpolicy, hmask⟩, htrain⟩, hbegun⟩ := hc
    rcases h with h | h | h
    · rcases h e he with hp | hm
      · exact hp hpolicy
      · exact absurd (hm.symm.trans hmask) (by decide)
    · exact absurd (h.symm.trans htrain) (by decide)
    · exact absurd (h.symm.trans hbegun) (by decide)
  · rfl

theorem offload_some {part aid f : Nat} {e : ActEntry} (he : smapFind s.acts (actKey part aid) = some e) (hpolicy : e.p.policy = 1)
    (hmask : e.p.fmask.testBit f = true) (htrain : (s.part part).train = true) (hbegun : s.bcn.begun = true) :
    s.offload part aid f = some (e, smapGet {} e.prog f) := by
  unfold State.offload
  rw [he]
  exact if_pos (by rw [hpolicy, hmask, htrain, hbegun]; rfl)

theorem actProg_of_find {part aid : Nat} (f : Nat) {e : ActEntry} (he : smapFind s.acts (actKey part aid) = some e) :
    s.actProg part aid f = smapGet {} e.prog f := by
  unfold State.actProg
  rw [he]

/-- The progress of one field's transfer of an entry stands as `x`; every other entry stands as before. -/
def ActMoved (s t : State) (key f : Nat) (e : ActEntry) (x : ActProg) : Prop :=
  ∃ ps, smapFind t.acts key = some { e with prog := ps } ∧ (∀ k, smapGet {} ps k = if k = f then x else smapGet {} e.prog k) ∧
    ∀ k, k ≠ key → smapFind t.acts k = smapFind s.acts k

/-- The entries with the progress of one field's transfer changed. -/
def movedActs (s : State) (key f : Nat) (e : ActEntry) (h : ActProg → ActProg) : SMap ActEntry :=
  smapSet s.acts key { e with prog := smapModify {} e.prog f h }

theorem modAct_eq {key : Nat} {e : ActEntry} (he : smapFind s.acts key = some e) (f : Nat) (h : ActProg → ActProg) :
    s.modAct key f h = { s with acts := movedActs s key f e h } := by
  unfold State.modAct
  rw [he]
  rfl

theorem actMoved_of_acts {t : State} {key f : Nat} {e : ActEntry} {h : ActProg → ActProg} (ht : t.acts = movedActs s key f e h) :
    ActMoved s t key f e (h (smapGet {} e.prog f)) := by
  unfold ActMoved
  rw [ht]
  refine ⟨_, (smapFind_smapSet ..).trans (if_pos rfl), fun k => smapGet_smapModify .., fun k hk => (smapFind_smapSet ..).trans (if_neg hk)⟩

/-! ### Signals to a field's tiles -/

theorem forAll_modTile_only (ts : List Nat) (g : TileState → TileState) (s : State) :
    s.forAll ts (fun s n => s.modTile n g) = { s with tiles := (s.forAll ts (fun s n => s.modTile n g)).tiles } :=
  forAll_keeps (fun t => t = { s with tiles := t.tiles }) ts _ (fun t n _ ht => by rw [State.modTile, State.setTile, ht]) s rfl

theorem tile_forAll_modTile {ts : List Nat} (hts : ts.Nodup) (g : TileState → TileState) (s : State) (n : Nat) :
    (s.forAll ts (fun s n => s.modTile n g)).tile n = if n ∈ ts then g (s.tile n) else s.tile n := by
  unfold State.forAll
  induction ts generalizing s with
  | nil => simp
  | cons k ts ih =>
    obtain ⟨hk, hnodup⟩ := List.nodup_cons.mp hts
    rw [List.foldl_cons, ih hnodup, modTile_tile]
    by_cases hn : n = k
    · subst hn; simp [hk]
    · simp [hn]

/-- The tiles of a field that a mask names and physical tiles serve. -/
def maskTiles (s : State) (f mask : Nat) : List Nat := ((onesBelow 16 mask).filter (fun i => s.served (16 * f + i))).map (16 * f + ·)

theorem signalTiles_eq (f mask sem : Nat) : s.signalTiles f mask sem = s.forAll (maskTiles s f mask) (fun s n => s.modTile n (fun t => t.signal sem)) := by
  unfold State.signalTiles State.forAll maskTiles
  rw [List.foldl_map]

theorem nodup_maskTiles (f mask : Nat) : (maskTiles s f mask).Nodup := by
  unfold maskTiles onesBelow
  refine List.Nodup.map (fun a b hab => ?_) ((List.nodup_range.filter _).filter _)
  exact Nat.add_left_cancel hab

theorem mem_maskTiles {f mask n : Nat} : n ∈ maskTiles s f mask ↔ n / 16 = f ∧ mask.testBit (n % 16) = true ∧ s.served n = true := by
  unfold maskTiles onesBelow
  simp only [List.mem_map, List.mem_filter, List.mem_range]
  constructor
  · rintro ⟨i, ⟨⟨hi, hbit⟩, hserved⟩, rfl⟩
    rw [show (16 * f + i) / 16 = f by omega, show (16 * f + i) % 16 = i by omega]
    exact ⟨rfl, hbit, hserved⟩
  · rintro ⟨hf, hbit, hserved⟩
    have hn : 16 * f + n % 16 = n := by omega
    exact ⟨n % 16, ⟨⟨Nat.mod_lt _ (by decide), hbit⟩, by rwa [hn]⟩, hn⟩

theorem tile_signalTiles (f mask sem n : Nat) : (s.signalTiles f mask sem).tile n =
    if n / 16 = f ∧ mask.testBit (n % 16) = true ∧ s.served n = true then (s.tile n).signal sem else s.tile n := by
  rw [signalTiles_eq, tile_forAll_modTile (nodup_maskTiles ..)]
  simp only [mem_maskTiles]

theorem signalTiles_only (f mask sem : Nat) : s.signalTiles f mask sem = { s with tiles := (s.signalTiles f mask sem).tiles } := by
  rw [signalTiles_eq]
  exact forAll_modTile_only ..

theorem post_only (x : Posting) : s.post x = { s with hostMem := (s.post x).hostMem, outbox := (s.post x).outbox, host := (s.post x).host } := by
  unfold State.post
  split <;> rfl

theorem modAct_of_acts {u : State} {key : Nat} {e : ActEntry} (he : smapFind s.acts key = some e) (hacts : u.acts = s.acts) (f : Nat)
    (h : ActProg → ActProg) : u.modAct key f h = { u with acts := movedActs s key f e h } := by
  rw [modAct_eq (by rw [hacts]; exact he)]
  unfold movedActs
  rw [hacts]

theorem acts_signalTiles (f mask sem : Nat) : (s.signalTiles f mask sem).acts = s.acts := by rw [signalTiles_only]

/-- Progress of an entry and signals to the tiles of its mask, on a state with the entries, tiles and fields of `s`. -/
theorem modAct_signalTiles_spec {u : State} {key f : Nat} {e : ActEntry} (he : smapFind s.acts key = some e) (hacts : u.acts = s.acts)
    (htiles : u.tiles = s.tiles) (hfields : u.fields = s.fields) (h : ActProg → ActProg) (mask sem : Nat) :
    let t := (u.modAct key f h).signalTiles f mask sem
    t = { u with acts := t.acts, tiles := t.tiles } ∧ ActMoved s t key f e (h (smapGet {} e.prog f)) ∧
      ∀ n, t.tile n = if n / 16 = f ∧ mask.testBit (n % 16) = true ∧ s.served n = true then (s.tile n).signal sem else s.tile n := by
  have hserved : ∀ n, u.served n = s.served n := by
    intro n
    unfold State.served State.fld
    rw [hfields]
  have htile : ∀ n, u.tile n = s.tile n := by
    intro n
    unfold State.tile
    rw [htiles]
  dsimp only
  rw [modAct_of_acts he hacts]
  refine ⟨?_, actMoved_of_acts (acts_signalTiles ..), fun n => ?_⟩
  · rw [acts_signalTiles]
    exact signalTiles_only ..
  rw [tile_signalTiles]
  show (if n / 16 = f ∧ mask.testBit (n % 16) = true ∧ u.served n = true then (u.tile n).signal sem else u.tile n) = _
  rw [hserved, htile]

theorem landAct_only (p : ActP) (f : Nat) (data : List Byte) : s.landAct p f data = { s with mem := (s.landAct p f data).mem } := pokeBytes_only ..

section

variable {part : Fin 16} {aid : Nat} {f : Fin 64} {e : ActEntry}

theorem exec_offloadDone_late (he : smapFind s.acts (actKey part aid) = some e) (hlate : (smapGet {} e.prog f).offLate = true) :
    exec (.offloadDone part aid f) s = .next { s with acts := movedActs s (actKey part aid) f e (fun x => { x with offLate := false }) } := by
  show execOffloadDone part aid f s = _
  unfold execOffloadDone
  rw [actProg_of_find f he, if_pos hlate, modAct_eq he]

theorem exec_prefetchLanded_late (he : smapFind s.acts (actKey part aid) = some e) (hlate : (smapGet {} e.prog f).pfLate = true) (data : List Byte) :
    exec (.prefetchLanded part aid f data) s = .next { s with
      mem := (s.landAct e.p f data).mem, acts := movedActs s (actKey part aid) f e (fun x => { x with pfLate := false }) } := by
  show execPrefetchLanded part aid f data s = _
  unfold execPrefetchLanded
  rw [he, actProg_of_find f he]
  dsimp only
  have honly := landAct_only (s := s) e.p f data
  rw [if_pos hlate, modAct_of_acts he (by rw [honly]), honly]

variable (he : smapFind s.acts (actKey part aid) = some e) (hoff : s.offload part aid f = some (e, smapGet {} e.prog f))

include hoff

theorem exec_offloadReadDone_eq : exec (.offloadReadDone part aid f) s =
    if (smapGet {} e.prog f).read || !s.pastMark e.p.outMark then .next s
    else .next (((s.store (.bulk part f) (ActP.hostSlotOf e.p f s.bcn.step) (s.peekBytes (stackBase f + e.p.sbase) e.p.bytes)).modAct (actKey part aid) f
      (fun x => { x with started := true, read := true })).signalTiles f e.p.tmask e.p.osem) := by
  show execOffloadReadDone part aid f s = _
  unfold execOffloadReadDone
  rw [hoff]

theorem exec_prefetchStart_eq : exec (.prefetchStart part aid f) s =
    if (smapGet {} e.prog f).pfRun || !s.pastMark e.p.inMark || (if e.p.dfr = 1 then e.first else !(smapGet {} e.prog f).off) then .next s
    else .next ((s.modAct (actKey part aid) f (fun x => { x with pfRun := true })).tell (.bulk part f)
      (.hostRead (ActP.hostSlotOf e.p f (prefetchStep e.p s.bcn.step)) e.p.bytes)) := by
  show execPrefetchStart part aid f s = _
  unfold execPrefetchStart
  rw [hoff]

include he

theorem exec_offloadDone_eq (hlate : (smapGet {} e.prog f).offLate = false) : exec (.offloadDone part aid f) s =
    if (smapGet {} e.prog f).read then
      .next { s with acts := movedActs s (actKey part aid) f e (fun x => { x with off := true }) } else .next s := by
  show execOffloadDone part aid f s = _
  unfold execOffloadDone
  rw [actProg_of_find f he, if_neg (by rw [hlate]; decide), hoff]
  dsimp only
  rw [modAct_eq he]

theorem exec_prefetchLanded_eq (hlate : (smapGet {} e.prog f).pfLate = false) (data : List Byte) : exec (.prefetchLanded part aid f data) s =
    if !(smapGet {} e.prog f).pfRun || (smapGet {} e.prog f).pfDone then .next s
    else .next (((s.landAct e.p f data).modAct (actKey part aid) f (fun x => { x with pfDone := true })).signalTiles f e.p.tmask e.p.isem) := by
  show execPrefetchLanded part aid f data s = _
  unfold execPrefetchLanded
  rw [he, actProg_of_find f he]
  dsimp only
  rw [if_neg (by rw [hlate]; decide), hoff]

end

/-! ### Planes in a row -/

theorem le_alignUp (p : Nat) : p ≤ alignUp 64 p := by
  unfold alignUp
  omega

theorem planeEnd_cons (base n m : Nat) (ns : List Nat) : planeEnd base (n :: m :: ns) = planeEnd (alignUp 64 base + n) (m :: ns) := by
  unfold planeEnd
  rw [List.getLast?_cons_cons, planeOffs, planeOffs, List.getLast?_cons_cons]
  rw [List.getLast?_eq_some_getLast (List.cons_ne_nil _ _), List.getLast?_eq_some_getLast (List.cons_ne_nil _ _)]

/-- Each plane begins at the base or above and ends before the last one does. -/
theorem planeOffs_bounds (ns : List Nat) (base i : Nat) (hi : i < ns.length) :
    base ≤ (planeOffs base ns).getD i 0 ∧ (planeOffs base ns).getD i 0 + ns.getD i 0 ≤ planeEnd base ns := by
  induction ns generalizing base i with
  | nil => exact absurd hi (Nat.not_lt_zero i)
  | cons n ns ih =>
    have hbase := le_alignUp base
    cases ns with
    | nil =>
      obtain rfl : i = 0 := by simpa using hi
      exact ⟨hbase, Nat.le_refl _⟩
    | cons m ns =>
      rw [planeEnd_cons]
      cases i with
      | zero =>
        obtain ⟨hlow, hend⟩ := ih (alignUp 64 base + n) 0 (Nat.succ_pos _)
        exact ⟨hbase, Nat.le_trans hlow (Nat.le_trans (Nat.le_add_right _ _) hend)⟩
      | succ i =>
        obtain ⟨hlow, hend⟩ := ih (alignUp 64 base + n) i (Nat.lt_of_succ_lt_succ hi)
        exact ⟨Nat.le_trans hbase (Nat.le_trans (Nat.le_add_right _ _) hlow), hend⟩

/-- A later plane begins where an earlier one ends, or above. -/
theorem planeOffs_ordered (ns : List Nat) (base i j : Nat) (hij : i < j) (hj : j < ns.length) :
    (planeOffs base ns).getD i 0 + ns.getD i 0 ≤ (planeOffs base ns).getD j 0 := by
  induction ns generalizing base i j with
  | nil => exact absurd hj (Nat.not_lt_zero j)
  | cons n ns ih =>
    obtain ⟨j, rfl⟩ : ∃ k, j = k + 1 := ⟨j - 1, by omega⟩
    have hj' : j < ns.length := Nat.lt_of_succ_lt_succ hj
    cases i with
    | zero => exact (planeOffs_bounds ns (alignUp 64 base + n) j hj').1
    | succ i => exact ih (alignUp 64 base + n) i j (Nat.lt_of_succ_lt_succ hij) hj'

theorem length_baseSizes (g : GroupP) (n : Nat) : 8 ≤ (g.baseSizes n).length := by
  unfold GroupP.baseSizes GroupP.stateSizes
  split
  · exact Nat.le_refl 8
  · simp only [List.length_append, List.length_cons, List.length_nil]
    omega

theorem baseSizes_state (g : GroupP) (n : Nat) {k bank : Nat} (hk : k < 4) (hb : bank ≤ 1) : (g.baseSizes n).getD (2 * k + bank) 0 = g.planeSize n k := by
  have hk' : k = 0 ∨ k = 1 ∨ k = 2 ∨ k = 3 := by omega
  have hb' : bank = 0 ∨ bank = 1 := by omega
  unfold GroupP.baseSizes GroupP.planeSize
  split <;> rcases hk' with rfl | rfl | rfl | rfl <;> rcases hb' with rfl | rfl <;> rfl

theorem planeOff_state (g : GroupP) (n : Nat) {k : Nat} (hk : k < 4) (bank : Nat) :
    g.planeOff n k bank = (planeOffs g.pbase (g.baseSizes n)).getD (2 * k + bank) 0 := by
  unfold GroupP.planeOff
  refine if_neg ?_
  have : k ≠ 4 := by omega
  simp [this]

/-- The four planes of a group's state in one bank follow one another, and end where its planes do. -/
theorem planes_state (g : GroupP) (n : Nat) {bank : Nat} (hb : bank ≤ 1) :
    (∀ k, k < 4 → g.planeOff n k bank + g.planeSize n k ≤ planeEnd g.pbase (g.baseSizes n)) ∧
    ∀ k l, k < l → l < 4 → g.planeOff n k bank + g.planeSize n k ≤ g.planeOff n l bank := by
  have hlen := length_baseSizes g n
  refine ⟨fun k hk => ?_, fun k l hkl hl => ?_⟩
  · rw [planeOff_state g n hk, ← baseSizes_state g n hk hb]
    exact (planeOffs_bounds _ _ _ (by omega)).2
  · rw [planeOff_state g n (by omega), planeOff_state g n hl, ← baseSizes_state g n (by omega) hb]
    exact planeOffs_ordered _ _ _ _ (by omega) (by omega)

/-! ### Bytes written one range after another -/

/-- The ranges of a list are written in its order. -/
def pokeAll (s : State) (xs : List (Nat × List Byte)) : State := s.forAll xs (fun s x => s.pokeBytes x.1 x.2)

theorem pokeAll_only (xs : List (Nat × List Byte)) : pokeAll s xs = { s with mem := (pokeAll s xs).mem } :=
  forAll_keeps (fun t => t = { s with mem := t.mem }) xs _ (fun t x _ ht => by
    have hpoke := pokeBytes_only t x.1 x.2
    rw [ht] at hpoke ⊢
    exact hpoke) s rfl

theorem wf_pokeAll (xs : List (Nat × List Byte)) (h : Memory.wf s.mem = true) : Memory.wf (pokeAll s xs).mem = true :=
  forAll_keeps (fun t => Memory.wf t.mem = true) xs _ (fun _ _ _ ht => wf_pokeBytes _ _ _ ht) s h

theorem memRead_pokeAll_outside (xs : List (Nat × List Byte)) {a : Nat} (h : ∀ x ∈ xs, a < x.1 ∨ x.1 + x.2.length ≤ a) :
    memRead (pokeAll s xs).mem a = memRead s.mem a :=
  forAll_keeps (fun t => memRead t.mem a = memRead s.mem a) xs _ (fun t x hx ht => (memRead_pokeBytes_outside t _ _ _ (h x hx)).trans ht) s rfl

theorem lostAt_pokeAll (xs : List (Nat × List Byte)) (a : Nat) : (pokeAll s xs).lostAt a = s.lostAt a := by
  rw [pokeAll_only]
  rfl

/-- A byte of a range reads as written when no later range touches it. -/
theorem memRead_pokeAll (as : List (Nat × List Byte)) (x : Nat × List Byte) (bs : List (Nat × List Byte)) {i : Nat} (hwf : Memory.wf s.mem = true)
    (hi : i < x.2.length) (hlost : s.lostAt (x.1 + i) = false) (hlater : ∀ y ∈ bs, x.1 + i < y.1 ∨ y.1 + y.2.length ≤ x.1 + i) :
    memRead (pokeAll s (as ++ x :: bs)).mem (x.1 + i) = x.2.getD i 0 := by
  have hsplit : pokeAll s (as ++ x :: bs) = pokeAll ((pokeAll s as).pokeBytes x.1 x.2) bs := by
    unfold pokeAll State.forAll
    rw [List.foldl_append, List.foldl_cons]
  rw [hsplit, memRead_pokeAll_outside bs hlater]
  exact memRead_pokeBytes _ _ _ _ (wf_pokeAll as hwf) hi ((lostAt_pokeAll as _).trans hlost)

theorem lostAt_of_whole {f a : Nat} (h : stackWhole s f) (hlow : stackBase f ≤ a) (hhigh : a < stackBase f + 2 ^ 37) : s.lostAt a = false := by
  obtain ⟨hlost, htest⟩ := h
  unfold stackBase at hlow hhigh
  have hf : a / 2 ^ 37 = f := by omega
  unfold State.lostAt
  rw [hf]
  simp [hlost, htest]

/-! ### The state of a HOST group (R278, R279) -/

/-- The four planes of the fetched bank with the bytes that the host tier delivers for them. -/
def fetchedPlane (s : State) (g : Group) (data : List Byte) (k : Nat) : Nat × List Byte :=
  (s.planeAddr g.p k g.fetchBank 0, padTo (g.p.planeSize (s.ownBlocks g.p).2 k)
    (data.drop ((([0, 1, 2, 3].take k).map (g.p.planeSize (s.ownBlocks g.p).2)).foldl (· + ·) 0)))

theorem forAll_pokeBytes_planes (ks : List Nat) (g : Group) (bytes : Nat → List Byte) (s : State) :
    s.forAll ks (fun s k => s.pokeBytes (s.planeAddr g.p k g.fetchBank 0) (bytes k)) =
      pokeAll s (ks.map (fun k => (s.planeAddr g.p k g.fetchBank 0, bytes k))) := by
  unfold State.forAll
  induction ks generalizing s with
  | nil => rfl
  | cons k ks ih =>
    have haddr : ∀ l, (s.pokeBytes (s.planeAddr g.p k g.fetchBank 0) (bytes k)).planeAddr g.p l g.fetchBank 0 = s.planeAddr g.p l g.fetchBank 0 := by
      intro l
      rw [pokeBytes_only]
      rfl
    rw [List.foldl_cons, ih]
    simp only [haddr]
    rfl

/-- A group of the field after a fetch of `g` has landed. -/
def afterFetch (gid : Nat) (g : Group) (k : Nat) (x : Group) : Group :=
  if k = gid then x.fetched else if sharesLanding x g then { x with resident := false, both := false } else x

/-- The state once the planes are in the landing area, before the audits that waited. -/
def fetchLands (s : State) (f gid : Nat) (g : Group) (data : List Byte) : State :=
  (pokeAll s ([0, 1, 2, 3].map (fetchedPlane s g data))).modFld f (fun d => { d with groups := smapMap (afterFetch gid g) d.groups })

theorem exec_fetchLanded_eq {f : Fin 64} {gid : Nat} {g : Group} (data : List Byte) (hg : s.group f gid = some g) (hfetching : g.fetching = true) :
    exec (.fetchLanded f gid data) s = .next ((fetchLands s f gid g data).runAudits f gid) := by
  show execFetchLanded f gid data s = _
  unfold execFetchLanded
  rw [hg]
  dsimp only
  rw [if_neg (by rw [hfetching]; decide), forAll_pokeBytes_planes]
  have hmap : ∀ d : Field, smapMap (afterFetch gid g) d.groups = d.groups.map (fun x =>
      if x.1 = gid then (x.1, x.2.fetched) else if sharesLanding x.2 g then (x.1, { x.2 with resident := false, both := false }) else x) := by
    intro d
    refine List.map_congr_left fun x _ => ?_
    unfold afterFetch
    split
    · rfl
    · split <;> rfl
  unfold fetchLands
  simp only [hmap]
  rfl

theorem fetchLands_only (f gid : Nat) (g : Group) (data : List Byte) :
    fetchLands s f gid g data = { s with mem := (fetchLands s f gid g data).mem, fields := (fetchLands s f gid g data).fields } := by
  unfold fetchLands State.modFld
  rw [pokeAll_only]

theorem fetchLands_fld (f gid : Nat) (g : Group) (data : List Byte) (h : Nat) : (fetchLands s f gid g data).fld h =
    if h = f then { s.fld f with groups := smapMap (afterFetch gid g) (s.fld f).groups } else s.fld h := by
  unfold fetchLands
  rw [modFld_fld, pokeAll_only]
  rfl

theorem fetchLands_group (f gid : Nat) (g : Group) (data : List Byte) (h k : Nat) : (fetchLands s f gid g data).group h k =
    if h = f then (s.group f k).map (afterFetch gid g k) else s.group h k := by
  unfold State.group
  rw [fetchLands_fld]
  split
  · exact smapFind_smapMap ..
  · rfl

theorem length_fetchedPlane (g : Group) (data : List Byte) (k : Nat) : (fetchedPlane s g data k).2.length = g.p.planeSize (s.ownBlocks g.p).2 k :=
  length_padTo ..

/-- Bytes outside the four planes read as before. -/
theorem fetchLands_outside (f gid : Nat) (g : Group) (data : List Byte) {a : Nat}
    (h : ∀ k, k < 4 → a < s.planeAddr g.p k g.fetchBank 0 ∨ s.planeAddr g.p k g.fetchBank 0 + g.p.planeSize (s.ownBlocks g.p).2 k ≤ a) :
    memRead (fetchLands s f gid g data).mem a = memRead s.mem a := by
  refine memRead_pokeAll_outside _ fun x hx => ?_
  obtain ⟨k, hk, rfl⟩ := List.mem_map.mp hx
  rw [length_fetchedPlane]
  have hsmall : ∀ k ∈ [0, 1, 2, 3], k < 4 := by decide
  exact h k (hsmall k hk)

/-- Each plane holds what was delivered for it: the planes after it do not reach it. -/
theorem fetchLands_inside {f gid : Nat} {g : Group} (data : List Byte) (hf : g.p.field = f) (hbank : g.fetchBank ≤ 1) (hinv : MemInv s)
    (hwhole : stackWhole s f) (hend : planeEnd g.p.pbase (g.p.baseSizes (s.ownBlocks g.p).2) ≤ 2 ^ 37) {k i : Nat} (hk : k < 4)
    (hi : i < g.p.planeSize (s.ownBlocks g.p).2 k) :
    memRead (fetchLands s f gid g data).mem (s.planeAddr g.p k g.fetchBank 0 + i) = (fetchedPlane s g data k).2.getD i 0 := by
  obtain ⟨hbounds, hordered⟩ := planes_state g.p (s.ownBlocks g.p).2 hbank
  have haddr : ∀ l, s.planeAddr g.p l g.fetchBank 0 = stackBase f + g.p.planeOff (s.ownBlocks g.p).2 l g.fetchBank := by
    intro l
    unfold State.planeAddr
    rw [hf]
    exact Nat.add_zero _
  have hsplit : [0, 1, 2, 3].map (fetchedPlane s g data) = (List.range k).map (fetchedPlane s g data) ++ fetchedPlane s g data k ::
      (List.range' (k + 1) (3 - k)).map (fetchedPlane s g data) := by
    have hk' : k = 0 ∨ k = 1 ∨ k = 2 ∨ k = 3 := by omega
    rcases hk' with rfl | rfl | rfl | rfl <;> rfl
  have hread := memRead_pokeAll (s := s) ((List.range k).map (fetchedPlane s g data)) (fetchedPlane s g data k)
    ((List.range' (k + 1) (3 - k)).map (fetchedPlane s g data)) (i := i) hinv.1 (by rw [length_fetchedPlane]; exact hi)
    (by
      have := hbounds k hk
      refine lostAt_of_whole hwhole ?_ ?_ <;> show _ <;> rw [show (fetchedPlane s g data k).1 = _ from haddr k] <;> omega)
    (by
      intro y hy
      obtain ⟨l, hl, rfl⟩ := List.mem_map.mp hy
      rw [length_fetchedPlane, show (fetchedPlane s g data k).1 = _ from haddr k, show (fetchedPlane s g data l).1 = _ from haddr l]
      have hkl : k < l ∧ l < 4 := by
        rw [List.mem_range'_1] at hl
        omega
      have := hordered k l hkl.1 hkl.2
      omega)
  rw [← hsplit] at hread
  exact hread

theorem runAudits_of_none {f gid : Nat} (h : s.auditsOf f gid = []) : s.runAudits f gid = s := by
  unfold State.runAudits
  split
  · split
    · rw [h]; rfl
    · rfl
  · rfl

theorem forAll_withFields {α : Type} (F : SMap Field) (xs : List α) (g : State → α → State) (hg : ∀ (s : State) x, g { s with fields := F } x = { g s x with fields := F })
    (s : State) : ({ s with fields := F } : State).forAll xs g = { s.forAll xs g with fields := F } := by
  unfold State.forAll
  induction xs generalizing s with
  | nil => rfl
  | cons x xs ih => rw [List.foldl_cons, List.foldl_cons, hg, ih]

theorem post_withFields (F : SMap Field) (x : Posting) : ({ s with fields := F } : State).post x = { s.post x with fields := F } := by
  unfold State.post
  dsimp only
  split <;> rfl

end

/-- A plane of a group of `n` own blocks is asked of the host tier. -/
def askPlane (f : Nat) (g : Group) (n : Nat) (s : State) (k : Nat) : State :=
  s.tell (s.fieldClass f) (.hostRead (g.p.hostOff n k g.bank) (g.p.planeSize n k))

/-- What STATE_FETCH asks of the host tier for a group. -/
def askPlanes (s : State) (f : Nat) (g : Group) : State :=
  s.forAll ([0, 1, 2, 3].filter (fun k => g.p.planeSize (s.ownBlocks g.p).2 k != 0)) (askPlane f g (s.ownBlocks g.p).2)

theorem askPlane_withFields (F : SMap Field) (f : Nat) (g : Group) (n : Nat) (s : State) (k : Nat) :
    askPlane f g n { s with fields := F } k = { askPlane f g n s k with fields := F } := post_withFields F _

theorem ownBlocks_askPlane (f : Nat) (g : Group) (n : Nat) (s : State) (k : Nat) : (askPlane f g n s k).ownBlocks g.p = s.ownBlocks g.p := by
  unfold askPlane State.tell
  rw [post_only]
  rfl

theorem askPlanes_own (f : Nat) (g : Group) (n : Nat) (ks : List Nat) (s : State) (hn : (s.ownBlocks g.p).2 = n) :
    s.forAll ks (askPlane f g n) = s.forAll ks (fun s k => askPlane f g (s.ownBlocks g.p).2 s k) := by
  unfold State.forAll
  induction ks generalizing s with
  | nil => rfl
  | cons k ks ih =>
    rw [List.foldl_cons, List.foldl_cons, hn]
    exact ih _ ((congrArg Prod.snd (ownBlocks_askPlane ..)).trans hn)

section

variable {s : State}

/-- Whether another group of the field keeps a group's fetch out for now. -/
def landingBusy (s : State) (f gid : Nat) (g : Group) : Bool :=
  (s.fld f).groups.any (fun x => x.1 != gid && sharesLanding x.2 g && (s.keepsLanding x.2 (!s.needsState g)
    || (s.wantsFetch x.2 && (if s.needsState x.2 == s.needsState g then x.1 < gid else !s.needsState g))))

theorem exec_stateFetch_waits {f : Fin 64} {gid : Nat} {g : Group} (hg : s.group f gid = some g)
    (h : s.wantsFetch g = false ∨ landingBusy s f gid g = true) : exec (.stateFetch f gid) s = .next s := by
  show execStateFetch f gid s = _
  unfold execStateFetch
  rw [hg]
  refine if_pos ?_
  rw [Bool.or_eq_true, Bool.not_eq_true']
  exact h

theorem exec_stateFetch_asks {f : Fin 64} {gid : Nat} {g : Group} (hg : s.group f gid = some g) (hwants : s.wantsFetch g = true)
    (hbusy : landingBusy s f gid g = false) : exec (.stateFetch f gid) s =
      .next { askPlanes s f g with fields := (s.modGroup f gid (fun x => { x with fetching := true, fetchBank := g.bank })).fields } := by
  show execStateFetch f gid s = _
  unfold execStateFetch
  rw [hg]
  refine (if_neg ?_).trans ?_
  · rw [Bool.or_eq_true, Bool.not_eq_true', not_or]
    refine ⟨by rw [hwants]; decide, fun hc => absurd (hbusy.symm.trans hc) (by decide)⟩
  · rw [modGroup_only]
    generalize (s.modGroup f gid (fun x => { x with fetching := true, fetchBank := g.bank })).fields = F
    exact congrArg Host.Outcome.next (forAll_withFields F _ (askPlane f g (s.ownBlocks g.p).2) (fun t k => askPlane_withFields F f g _ t k) s)

theorem landingBusy_of {f gid : Nat} {g : Group} {x : Nat × Group} (hx : x ∈ (s.fld f).groups) (hother : x.1 ≠ gid) (hshares : sharesLanding x.2 g = true)
    (h : x.2.fetching = true ∨ x.2.wbq ≠ [] ∨ (x.2.resident = true ∧ x.2.pendingVer = true ∧ s.hasEmitted x.2 = false) ∨
      (s.wantsFetch x.2 = true ∧ (s.needsState x.2 = s.needsState g ∧ x.1 < gid ∨ s.needsState x.2 = true ∧ s.needsState g = false))) :
    landingBusy s f gid g = true := by
  unfold landingBusy
  refine List.any_eq_true.mpr ⟨x, hx, ?_⟩
  rw [bne_iff_ne.mpr hother, hshares, Bool.true_and, Bool.true_and, Bool.or_eq_true]
  unfold State.keepsLanding
  rcases h with h | h | ⟨hres, hpend, hemit⟩ | ⟨hwants, ⟨hneeds, hlow⟩ | ⟨hneeds, hnow⟩⟩
  · left; simp [h]
  · left; simp [h]
  · left; simp [hres, hpend, hemit]
  · right; simp [hwants, hneeds, hlow]
  · right; simp [hwants, hneeds, hnow]

theorem landingBusy_alone {f gid : Nat} {g : Group} (h : ∀ x ∈ (s.fld f).groups, x.1 ≠ gid → sharesLanding x.2 g = false) : landingBusy s f gid g = false := by
  unfold landingBusy
  refine List.any_eq_false.mpr fun x hx hc => ?_
  simp only [Bool.and_eq_true, bne_iff_ne] at hc
  exact absurd ((h x hx hc.1.1).symm.trans hc.1.2) (by decide)

/-! ### Write-backs (R276, R279, R282) -/

/-- What the acknowledgement of write-back `k` does to its group, `counted` whether the COMMIT waited for it. -/
def writeAcked (k w : Nat) (free : Bool) (x : Group) : Group :=
  if free then { x with wbq := x.wbq.erase k }
  else { x with wbq := x.wbq.erase k, tierWait := true, tstall := satAdd 16 x.tstall 1, waitUs := satAdd 16 x.waitUs w }

theorem exec_tierWritebackAck_none {f : Fin 64} {gid : Nat} {g : Group} (w : Nat) (hg : s.group f gid = some g) (h : ∀ k ∈ g.wbq, k = 3) :
    exec (.tierWritebackAck f gid w) s = .next s := by
  have hnone : g.wbq.find? (fun k => k != 3) = none := List.find?_eq_none.mpr fun k hk => by simp [h k hk]
  show execTierWritebackAck f gid w s = _
  unfold execTierWritebackAck
  rw [hg]
  dsimp only
  rw [hnone]

theorem exec_tierWritebackAck_some {f : Fin 64} {gid : Nat} {g : Group} {as bs : List Nat} {k : Nat} (w : Nat) (hg : s.group f gid = some g)
    (hq : g.wbq = as ++ k :: bs) (has : ∀ x ∈ as, x = 3) (hk : k ≠ 3) : exec (.tierWritebackAck f gid w) s =
      .next (s.modGroup f gid (writeAcked k w (k != 0 || (w = 0 && !s.waitsForTier) || g.p.tier.late = 1))) := by
  have hfind : g.wbq.find? (fun k => k != 3) = some k := by
    rw [hq, List.find?_append, List.find?_eq_none.mpr (fun x hx => by simp [has x hx])]
    simp [hk]
  show execTierWritebackAck f gid w s = _
  unfold execTierWritebackAck
  rw [hg]
  dsimp only
  rw [hfind]
  rfl

theorem erase_after {as bs : List Nat} {k : Nat} (has : ∀ x ∈ as, x = 3) (hk : k ≠ 3) : (as ++ k :: bs).erase k = as ++ bs := by
  rw [List.erase_append_right _ fun hmem => hk (has k hmem), List.erase_cons_head]

end

/-- Settles O56: each row by its own equation; the planes of a fetched state follow one another, so each keeps what was delivered for it. -/
theorem tierRows : Obligations.TierRows := by
  unfold Obligations.TierRows
  refine ⟨?idle, ?ended, ?moving, ?noGroup, ?group⟩
  case idle =>
    intro s part aid f d h
    have hnone := offload_none h
    refine ⟨?_, ?_, fun hlate => ?_, fun hlate => ?_⟩
    · show execOffloadReadDone part aid f s = _
      unfold execOffloadReadDone
      rw [hnone]
    · show execPrefetchStart part aid f s = _
      unfold execPrefetchStart
      rw [hnone]
    · show execOffloadDone part aid f s = _
      unfold execOffloadDone
      rw [hnone, if_neg (by rw [hlate]; decide)]
    · show execPrefetchLanded part aid f d s = _
      unfold execPrefetchLanded
      split
      · rfl
      · rw [hnone, if_neg (by rw [hlate]; decide)]
  case ended =>
    intro s part aid f e data he
    exact ⟨fun hlate => ⟨_, exec_offloadDone_late he hlate, rfl, actMoved_of_acts (h := fun x => { x with offLate := false }) rfl⟩,
      fun hlate => ⟨_, exec_prefetchLanded_late he hlate data, rfl, actMoved_of_acts (h := fun x => { x with pfLate := false }) rfl, rfl⟩⟩
  case moving =>
    intro s part aid f e he hpolicy hmask htrain hbegun
    have hoff := offload_some he hpolicy hmask htrain hbegun
    refine ⟨fun h => ?_, fun hread hmark => ?_, fun hread hlate => ?_, fun hread hlate => ?_, fun h => ?_, fun hrun hmark hready => ?_,
      fun hlate data => ⟨fun h => ?_, fun hrun hdone => ?_⟩⟩
    · refine (exec_offloadReadDone_eq hoff).trans (if_pos ?_)
      rw [Bool.or_eq_true, Bool.not_eq_true']
      exact h
    · let u := s.store (.bulk part f) (ActP.hostSlotOf e.p f s.bcn.step) (s.peekBytes (stackBase f + e.p.sbase) e.p.bytes)
      have hu : u = { s with hostMem := u.hostMem, outbox := u.outbox, host := u.host } := post_only _
      exact ⟨_, (exec_offloadReadDone_eq hoff).trans (if_neg (by rw [hread, hmark]; decide)),
        modAct_signalTiles_spec (u := u) he (by rw [hu]) (by rw [hu]) (by rw [hu]) (fun x => { x with started := true, read := true }) _ _⟩
    · exact (exec_offloadDone_eq he hoff hlate).trans (if_neg (by rw [hread]; decide))
    · exact ⟨_, (exec_offloadDone_eq he hoff hlate).trans (if_pos hread), rfl, actMoved_of_acts (h := fun x => { x with off := true }) rfl⟩
    · refine (exec_prefetchStart_eq hoff).trans (if_pos ?_)
      simp only [Bool.or_eq_true, Bool.not_eq_true']
      rcases h with h | h | ⟨hdfr, hfirst⟩ | ⟨hdfr, hoff⟩
      · exact .inl (.inl h)
      · exact .inl (.inr h)
      · exact .inr ((if_pos hdfr).trans hfirst)
      · exact .inr ((if_neg hdfr).trans (by rw [hoff]; rfl))
    · refine ⟨_, (exec_prefetchStart_eq hoff).trans (if_neg ?_), ?_, ?_⟩
      · rw [hrun, hmark]
        rcases hready with ⟨hdfr, hfirst⟩ | ⟨hdfr, hoff⟩
        · rw [if_pos hdfr, hfirst]; decide
        · rw [if_neg hdfr, hoff]; decide
      · refine actMoved_of_acts (h := fun x => { x with pfRun := true }) ?_
        unfold State.tell
        rw [post_only, modAct_eq he]
      · rw [modAct_eq he]
        generalize movedActs s (actKey part aid) f e (fun x => { x with pfRun := true }) = acts
        unfold State.tell State.post prefetchStep
        dsimp only
        split <;> rfl
    · refine (exec_prefetchLanded_eq he hoff hlate data).trans (if_pos ?_)
      rw [Bool.or_eq_true, Bool.not_eq_true']
      exact h
    · have hu := landAct_only (s := s) e.p f data
      obtain ⟨honly, hmoved, htold⟩ := modAct_signalTiles_spec (u := s.landAct e.p f data) he (by rw [hu]) (by rw [hu]) (by rw [hu])
        (fun x => { x with pfDone := true }) e.p.tmask e.p.isem
      refine ⟨_, (exec_prefetchLanded_eq he hoff hlate data).trans (if_neg (by rw [hrun, hdone]; decide)), ?_, hmoved, htold, fun a ha => ?_,
        fun hinv hwhole hfit i hi => ?_⟩
      · rw [honly, hu]
      · rw [honly]
        exact memRead_pokeBytes_outside _ _ _ _ (by rw [length_padTo]; exact ha)
      · rw [honly]
        exact memRead_pokeBytes _ _ _ _ hinv.1 (by rw [length_padTo]; exact hi) (lostAt_of_whole hwhole (by omega) (by omega))
  case noGroup =>
    intro s f gid w d hg
    refine ⟨?_, ?_, ?_⟩
    · show execStateFetch f gid s = _
      unfold execStateFetch
      rw [hg]
    · show execFetchLanded f gid d s = _
      unfold execFetchLanded
      rw [hg]
    · show execTierWritebackAck f gid w s = _
      unfold execTierWritebackAck
      rw [hg]
  case group =>
    intro s f gid g hg
    refine ⟨?waits, ?asks, fun data => ⟨?notFetching, ?fetched⟩, fun w => ⟨exec_tierWritebackAck_none w hg, ?acked⟩⟩
    case waits =>
      rintro (hwants | ⟨x, hx, hother, hshares, h⟩)
      · exact exec_stateFetch_waits hg (.inl hwants)
      · exact exec_stateFetch_waits hg (.inr (landingBusy_of hx hother hshares h))
    case asks =>
      intro hwants halone
      have hstep := groupStep_modGroup s f gid g (fun x => { x with fetching := true, fetchBank := g.bank }) hg
      refine ⟨_, exec_stateFetch_asks hg hwants (landingBusy_alone halone), hstep, ?_⟩
      unfold askPlanes
      rw [askPlanes_own f g _ _ s rfl]
      rfl
    case notFetching =>
      intro hfetching
      show execFetchLanded f gid data s = _
      unfold execFetchLanded
      rw [hg]
      exact if_pos (by rw [hfetching]; rfl)
    case fetched =>
      intro hfetching hf hbank
      refine ⟨fetchLands s f gid g data, exec_fetchLanded_eq data hg hfetching, fun hnone => runAudits_of_none ?_, fetchLands_only .., ?_, fun h k hh => ?_,
        fun k x hk hx => ?_, fun h => ?_, fun a ha => fetchLands_outside f gid g data ha, fun hinv hwhole hend k i hk hi => ?_⟩
      · rw [fetchLands_only]
        exact hnone
      · rw [fetchLands_group, if_pos rfl, hg]
        exact congrArg some (if_pos rfl)
      · rw [fetchLands_group, if_neg hh]
      · rw [fetchLands_group, if_pos rfl, hx]
        exact congrArg some (if_neg hk)
      · rw [fetchLands_fld]
        split
        · next hh => rw [hh]
        · rfl
      · rw [fetchLands_inside data hf hbank hinv hwhole hend hk hi]
        have hk' : k = 0 ∨ k = 1 ∨ k = 2 ∨ k = 3 := by omega
        rcases hk' with rfl | rfl | rfl | rfl <;> rfl
    case acked =>
      intro as k bs hq has hk
      refine ⟨_, exec_tierWritebackAck_some w hg hq has hk, modGroup_only .., ?_⟩
      have hstep := groupStep_modGroup s f gid g (writeAcked k w (k != 0 || (w = 0 && !s.waitsForTier) || g.p.tier.late = 1)) hg
      have hgroup : writeAcked k w (k != 0 || (w = 0 && !s.waitsForTier) || g.p.tier.late = 1) g =
          if k ≠ 0 ∨ (w = 0 ∧ s.waitsForTier = false) ∨ g.p.tier.late = 1 then { g with wbq := as ++ bs } else { g with
            wbq := as ++ bs, tierWait := true, tstall := min (g.tstall + 1) 65535, waitUs := min (g.waitUs + w) 65535 } := by
        unfold writeAcked
        rw [hq, erase_after has hk]
        refine if_congr ?_ rfl rfl
        simp [or_assoc]
      rw [hgroup] at hstep
      exact hstep

end Sys2Proof.Proofs
end

section
/-! PROOFS. A master that has no way to its member, and the event that says so. -/

namespace Sys2Proof.Proofs

open Sys2Proof.Machine Sys2Proof.Laws

/-! ### A member that no map names -/

/-- The outer record of a group whose fetched state is at hand. -/
def fetchedOuter : OuterGroup := { p := { pastTheWindow with opbase := 2 ^ 20 }, fetched := some [] }

/-- An empty group that field 0 of this module shares with module 1. -/
def farGroup : Group :=
  { p := { blockGroup with nelem := 0, r := 2, members := [(0, 0), (1, 0)] }, bank := 0, updated := true, outer := some fetchedOuter }

/-- The module has no place in an island, so that no frame finds a way; the event ring of the privileged view is full. -/
def nowhere : State := { plainState with
  fields := [(0, { groups := [(7, farGroup)] })]
  outer := { fed := some loneFed, install := some 1 }
  host := { plainHost with erings := [(16, { enabled := true, used := 1 })] }
  bcn := { begun := true, phase := 0xE000, reached := 3 * 2 ^ 28, fieldReached := [(0, 3 * 2 ^ 28)] } }

/-- The events of frames without a way are counted as dropped. -/
theorem dropped_nowhere :
    (nextOf (exec (.outerApplySweep 0 7) nowhere)).map (fun t => (smapGet {} t.host.erings 16).dropped) ≠ some 0 := by decide +kernel

theorem joined_nowhere : joined nowhere := by
  intro m h t lk vl hself
  simp [nowhere, plainState, State.self, State.reset] at hself

/-- Refutes O57: the installed master that is sent to a member without a way raises the event of R319, which the clause about the installation does not
allow for. -/
theorem not_outerSweeps : ¬ Obligations.OuterSweeps := by
  unfold Obligations.OuterSweeps
  intro hall
  obtain ⟨-, -, hinstall, -⟩ := hall
  obtain ⟨u, hnext, -, hu, -⟩ := hinstall nowhere 0 7 loneFed farGroup fetchedOuter 1 [] (by decide) rfl rfl rfl fun _ => joined_nowhere
  have hhost : u.host = nowhere.host := by rw [hu]
  have hmarks : u.reachMarks = u := reachMarks_of_marksBehind (fs := [0]) (by
    rw [hu]
    exact ⟨rfl, rfl, rfl, show ∀ f ∈ [0], smapGet 0 nowhere.bcn.fieldReached f = 3 * 2 ^ 28 by decide⟩)
  have hzero := dropped_nowhere
  rw [show exec (.outerApplySweep 0 7) nowhere = .next u.reachMarks from hnext, hmarks] at hzero
  refine hzero (congrArg some ?_)
  show (smapGet {} u.host.erings 16).dropped = 0
  rw [hhost]
  rfl

end Sys2Proof.Proofs
end

section
/-! PROOFS. The layout of lantern frame headers (R365), and sums of distinct bits. -/

namespace Sys2Proof.Proofs

open Sys2Proof.Machine Sys2Proof.Laws

/-! ### Sums of distinct bits -/

/-- The sum of the bits below `n` that a predicate names. -/
def bitSum (b : Nat → Bool) (n : Nat) : Nat := (List.range n).foldl (fun a i => a + (if b i then 2 ^ i else 0)) 0

theorem bitSum_succ (b : Nat → Bool) (n : Nat) : bitSum b (n + 1) = bitSum b n + (if b n then 2 ^ n else 0) := by
  unfold bitSum
  rw [List.range_succ, List.foldl_append]
  rfl

theorem bitSum_lt (b : Nat → Bool) (n : Nat) : bitSum b n < 2 ^ n := by
  induction n with
  | zero => exact Nat.one_pos
  | succ n ih =>
    rw [bitSum_succ, Nat.pow_succ]
    split <;> omega

theorem testBit_bitSum (b : Nat → Bool) (n i : Nat) : (bitSum b n).testBit i = (decide (i < n) && b i) := by
  induction n with
  | zero => simp [bitSum]
  | succ n ih =>
    rw [bitSum_succ]
    have hlt := bitSum_lt b n
    by_cases hi : i = n
    · subst hi
      have hclear : (bitSum b i).testBit i = false := Nat.testBit_lt_two_pow hlt
      cases hb : b i with
      | true => rw [if_pos rfl, Nat.add_comm, Nat.testBit_two_pow_add_eq, hclear]; simp
      | false => rw [if_neg (by decide), Nat.add_zero, hclear]; simp
    · have hdec : decide (i < n + 1) = decide (i < n) := decide_eq_decide.mpr (by omega)
      rw [hdec, ← ih]
      split
      · rcases Nat.lt_or_gt_of_ne hi with hlow | hhigh
        · rw [Nat.add_comm, Nat.testBit_two_pow_add_gt hlow]
        · have hpow : 2 ^ (n + 1) ≤ 2 ^ i := Nat.pow_le_pow_right (by decide) hhigh
          rw [Nat.testBit_lt_two_pow (by rw [Nat.pow_succ] at hpow; omega), Nat.testBit_lt_two_pow (by rw [Nat.pow_succ] at hpow; omega)]
      · rw [Nat.add_zero]

/-! ### The header -/

section
variable (h : LntHdr)

theorem length_lntHeader : (lntHeader h).length = 60 := by
  simp only [lntHeader, List.length_append, length_leBytes, List.length_replicate]

/-- The first word of a header: TYPE, FLOW and MAN. -/
def lntWord (h : LntHdr) : Nat := h.typ + h.flow * 2 ^ 4 + b2n h.man * 2 ^ 10

theorem lntHeader_eq : lntHeader h = leBytes 2 (lntWord h) ++ (leBytes 2 h.len ++ (leBytes 4 h.session ++ (leBytes 4 h.pseq ++ (leBytes 8 h.sack ++
    (leBytes 8 h.t2 ++ (leBytes 8 h.t3 ++ List.replicate 24 0)))))) := by
  unfold lntHeader lntWord
  rw [packBits_cons, packBits_cons, packBits_cons, packBits_nil]
  simp only [List.append_assoc, Nat.pow_zero, Nat.mul_one, Nat.add_zero, Nat.add_assoc]

/-- The words of a header, in their places. -/
theorem lntHeader_words :
    bytesAt (lntHeader h) 0 2 = lntWord h % 2 ^ 16 ∧ bytesAt (lntHeader h) 2 2 = h.len % 2 ^ 16 ∧ bytesAt (lntHeader h) 4 4 = h.session % 2 ^ 32 ∧
    bytesAt (lntHeader h) 8 4 = h.pseq % 2 ^ 32 ∧ bytesAt (lntHeader h) 12 8 = h.sack % 2 ^ 64 ∧ bytesAt (lntHeader h) 20 8 = h.t2 % 2 ^ 64 ∧
    bytesAt (lntHeader h) 28 8 = h.t3 % 2 ^ 64 ∧ (lntHeader h).drop 36 = List.replicate 24 0 := by
  rw [lntHeader_eq]
  simp [bytesAt_leBytes_zero, bytesAt_leBytes_later, drop_leBytes]

theorem lntHdr_wf_iff : h.wf = true ↔ h.typ ≤ 7 ∧ h.flow < 64 ∧ h.len ≤ 8192 ∧ h.len % 64 = 0 ∧ h.session < 2 ^ 32 ∧ h.pseq < 2 ^ 32 ∧ h.sack < 2 ^ 64 ∧
    h.t2 < 2 ^ 64 ∧ h.t3 < 2 ^ 64 := by
  unfold LntHdr.wf lntLenLegal
  simp only [Bool.and_eq_true, decide_eq_true_eq, beq_iff_eq, and_assoc]

end

/-- A header that is well formed reads back from its bytes. -/
theorem lntHeaderOf_lntHeader (h : LntHdr) (hwf : h.wf = true) : lntHeaderOf (lntHeader h) = some h := by
  obtain ⟨htyp, hflow, hlen, hunit, hsession, hpseq, hsack, ht2, ht3⟩ := (lntHdr_wf_iff h).mp hwf
  obtain ⟨hw, hl, hs, hp, hk, h2, h3, hzero⟩ := lntHeader_words h
  have hman : b2n h.man ≤ 1 := by cases h.man <;> decide
  have hword : lntWord h < 2 ^ 11 := by unfold lntWord; omega
  have htyp' : lntWord h % 16 = h.typ := by unfold lntWord; omega
  have hflow' : lntWord h / 2 ^ 4 % 64 = h.flow := by unfold lntWord; omega
  have hman' : (lntWord h).testBit 10 = h.man := by
    unfold lntWord
    rw [Nat.testBit_eq_decide_div_mod_eq]
    cases h.man <;> simp [b2n] <;> omega
  rw [Nat.mod_eq_of_lt (by omega)] at hw hl hs hp hk h2 h3
  unfold lntHeaderOf
  dsimp only
  rw [hw, hl, hs, hp, hk, h2, h3, hzero, htyp', hflow', hman', length_lntHeader]
  refine if_pos ?_
  simp only [Bool.and_eq_true, decide_eq_true_eq, beq_iff_eq]
  refine ⟨⟨⟨⟨⟨trivial, htyp⟩, Nat.div_eq_of_lt hword⟩, Nat.div_eq_of_lt (by omega)⟩, ?_⟩, by decide⟩
  simp [lntLenLegal, hlen, hunit]

/-! ### A header that bytes spell -/

theorem leBytes_leNat (bs : List Byte) : leBytes bs.length (leNat bs) = bs := by
  induction bs with
  | nil => rfl
  | cons b bs ih =>
    have hb := b.isLt
    rw [List.length_cons, leBytes, leNat, Nat.add_mul_div_left _ _ (by decide), Nat.div_eq_of_lt hb, Nat.zero_add, ih]
    congr 1
    rw [BitVec.ofNat_add, BitVec.ofNat_toNat, BitVec.setWidth_eq]
    apply BitVec.eq_of_toNat_eq
    simpa using hb

theorem leNat_lt (bs : List Byte) : leNat bs < 256 ^ bs.length := by
  induction bs with
  | nil => exact Nat.one_pos
  | cons b bs ih =>
    have hb := b.isLt
    rw [leNat, List.length_cons, Nat.pow_succ]
    omega

theorem length_slice {bs : List Byte} {o n : Nat} (h : o + n ≤ bs.length) : ((bs.drop o).take n).length = n := by
  rw [List.length_take, List.length_drop]
  omega

theorem bytesAt_lt {bs : List Byte} {o n : Nat} (h : o + n ≤ bs.length) : bytesAt bs o n < 256 ^ n := by
  have hlt := leNat_lt ((bs.drop o).take n)
  rwa [length_slice h] at hlt

theorem leBytes_bytesAt {bs : List Byte} {o n : Nat} (h : o + n ≤ bs.length) : leBytes n (bytesAt bs o n) = (bs.drop o).take n := by
  have hback := leBytes_leNat ((bs.drop o).take n)
  rwa [length_slice h] at hback

theorem slice_append {bs : List Byte} (o n : Nat) : (bs.drop o).take n ++ bs.drop (o + n) = bs.drop o := by
  rw [← List.drop_drop, List.take_append_drop]

/-- The first word of a header whose bits from 11 on are zero, as its three fields. -/
theorem word_fields {w : Nat} (hw : w / 2 ^ 11 = 0) : w % 16 + w / 2 ^ 4 % 64 * 2 ^ 4 + b2n (w.testBit 10) * 2 ^ 10 = w := by
  have hbit : b2n (w.testBit 10) = w / 2 ^ 10 % 2 := by
    rw [Nat.testBit_eq_decide_div_mod_eq]
    unfold b2n
    split
    · next hone => exact (of_decide_eq_true hone).symm
    · next hzero =>
      have := of_decide_eq_false (Bool.not_eq_true _ ▸ hzero)
      omega
  rw [hbit]
  omega

/-- Bytes that spell a header are that header's, and it is well formed. -/
theorem lntHeader_of_lntHeaderOf {bs : List Byte} {h : LntHdr} (hof : lntHeaderOf bs = some h) : h.wf = true ∧ lntHeader h = bs := by
  unfold lntHeaderOf at hof
  dsimp only at hof
  split at hof
  · next hlegal =>
    simp only [Bool.and_eq_true, decide_eq_true_eq, beq_iff_eq, lntLenLegal] at hlegal
    obtain ⟨⟨⟨⟨⟨hlen, htyp⟩, hword⟩, -⟩, hmax, hunit⟩, hzero⟩ := hlegal
    obtain rfl := Option.some.inj hof
    have hslice : ∀ o n, o + n ≤ 60 → leBytes n (bytesAt bs o n) ++ bs.drop (o + n) = bs.drop o := fun o n ho => by
      rw [leBytes_bytesAt (by omega), slice_append]
    have htail : bs.drop 36 = List.replicate 24 0 := by
      refine List.eq_replicate_iff.mpr ⟨by rw [List.length_drop]; omega, fun b hb => ?_⟩
      have := List.all_eq_true.mp hzero b hb
      simpa using this
    constructor
    · rw [lntHdr_wf_iff]
      exact ⟨htyp, Nat.mod_lt _ (by decide), hmax, hunit, bytesAt_lt (n := 4) (by omega), bytesAt_lt (n := 4) (by omega), bytesAt_lt (n := 8) (by omega),
        bytesAt_lt (n := 8) (by omega), bytesAt_lt (n := 8) (by omega)⟩
    · rw [lntHeader_eq]
      unfold lntWord
      dsimp only
      rw [word_fields hword, ← htail, hslice 28 8 (by decide), hslice 20 8 (by decide), hslice 12 8 (by decide), hslice 8 4 (by decide),
        hslice 4 4 (by decide), hslice 2 2 (by decide), hslice 0 2 (by decide)]
      rfl
  · cases hof

end Sys2Proof.Proofs
end

section
/-! PROOFS. The flows and the delay of lantern sessions (O60). -/

namespace Sys2Proof.Proofs

open Sys2Proof.Machine Sys2Proof.Laws

section

variable {s : State}

/-! ### The lantern ports stand where only the fabric is at work -/

/-- The lantern ports are those of `s`. -/
def SameLnt (s t : State) : Prop := t.lnt = s.lnt

theorem SameLnt.refl (s : State) : SameLnt s s := rfl

theorem SameLnt.trans {s t u : State} (h : SameLnt s t) (k : SameLnt t u) : SameLnt s u := Eq.trans k h

theorem sameLnt_of_events {t : State} (h : OnlyEvents s t) : SameLnt s t := by
  unfold SameLnt
  rw [h.1]

theorem sameLnt_of_sends {t : State} (h : OnlySends s t) : SameLnt s t := by
  unfold SameLnt
  rw [h]

theorem sameLnt_of_posts {t : State} (h : OnlyPosts s t) : SameLnt s t := by
  unfold SameLnt
  rw [h]

theorem sameLnt_forAll {α : Type} (xs : List α) (g : State → α → State) (hg : ∀ s x, SameLnt s (g s x)) (s : State) : SameLnt s (s.forAll xs g) :=
  forAll_keeps (SameLnt s) xs g (fun t x _ ht => ht.trans (hg t x)) s (SameLnt.refl s)

theorem sameLnt_modBcn (g : Beacon → Beacon) : SameLnt s (s.modBcn g) := rfl

theorem sameLnt_abortPartition (o : Option Nat) : SameLnt s (abortPartition s o) := by
  cases o with
  | none => rfl
  | some p =>
    show ((abortCommands s p).forAll s.trainFields (abortField s.bcn.step)).lnt = s.lnt
    rw [onlyAreas_abortFields]
    rfl

theorem sameLnt_abandonStep (status : Nat) : SameLnt s (s.abandonStep status) := by
  unfold State.abandonStep
  split <;> rfl

theorem sameLnt_faultBit (bit : Nat) : SameLnt s (s.faultBit bit) := rfl

theorem sameLnt_takeAbort (s : State) : SameLnt s s.takeAbort := by
  rw [takeAbort_eq_pastLimit]
  refine (sameLnt_abortPartition s.trainPart).trans ?_
  generalize abortPartition s s.trainPart = u
  unfold pastLimit
  split
  · exact (((sameLnt_abandonStep _).trans (sameLnt_faultBit 6)).trans (sameLnt_of_posts (onlyPosts_postReady _))).trans
      (sameLnt_of_events (onlyEvents_event ..))
  · exact SameLnt.refl _

theorem sameLnt_knowDecision (s : State) : SameLnt s s.knowDecision := by
  unfold State.knowDecision
  split <;> rfl

theorem sameLnt_requestAbort (s : State) : SameLnt s s.requestAbort := by
  unfold State.requestAbort
  refine (sameLnt_knowDecision s).trans ?_
  generalize s.knowDecision = u
  dsimp only
  split
  · refine SameLnt.trans ?_ (sameLnt_takeAbort _)
    exact (sameLnt_of_sends (onlySends_floodFrom none (abortFrame u.bcn.step u.bcn.attempt) u)).trans (sameLnt_modBcn _)
  · exact SameLnt.refl _

theorem sameLnt_restartEmissions (s : State) : SameLnt s s.restartEmissions := by
  unfold State.restartEmissions
  split
  · exact sameLnt_forAll _ _ (fun t f => (rfl : SameLnt t (t.restartEmission f))) s
  · exact SameLnt.refl _

theorem sameLnt_hwFault (s : State) (bit part unit : Nat) : SameLnt s (s.hwFault bit part unit) := by
  unfold State.hwFault
  refine SameLnt.trans (t := s.hwEvent part unit) (sameLnt_of_events (onlyEvents_event ..)) ?_
  generalize s.hwEvent part unit = u
  dsimp only
  split
  · exact SameLnt.refl _
  · refine (sameLnt_knowDecision u).trans ?_
    generalize u.knowDecision = v
    split
    · exact (sameLnt_faultBit bit).trans (sameLnt_requestAbort _)
    · exact sameLnt_restartEmissions v

/-- A frame for which there is no way is counted, and, where both ways of a ring are shut, a fault. -/
theorem sameLnt_unreached (arr : Nat) (both : Bool) (f : FabFrame) :
    let s1 := State.event { s with fab := { s.fab with unreachSeen := true } } 5 3 16 arr (leBytes 2 f.dest)
    SameLnt s (if both then s1.fabricFault arr else s1) := by
  have hevent : SameLnt s (State.event { s with fab := { s.fab with unreachSeen := true } } 5 3 16 arr (leBytes 2 f.dest)) :=
    SameLnt.trans (t := { s with fab := { s.fab with unreachSeen := true } }) rfl (sameLnt_of_events (onlyEvents_event ..))
  dsimp only
  generalize State.event _ 5 3 16 arr (leBytes 2 f.dest) = u at *
  split
  · refine hevent.trans ?_
    unfold State.fabricFault
    split
    · exact sameLnt_hwFault ..
    · exact SameLnt.refl _
  · exact hevent

theorem sameLnt_routeFrame (arr : Option Nat) (f : FabFrame) : SameLnt s (s.routeFrame arr f) := by
  unfold State.routeFrame
  split
  · split
    · exact SameLnt.refl _
    · exact sameLnt_unreached ..
    · exact sameLnt_of_sends (onlySends_linkSend ..)
  · exact sameLnt_unreached _ false f

theorem sameLnt_modFlow (k : Nat) (g : Flow → Flow) : SameLnt s (s.modFlow k g) := rfl

theorem sameLnt_flowPump (k n : Nat) : SameLnt s (s.flowPump k n) := by
  induction n generalizing s with
  | zero => exact SameLnt.refl _
  | succ n ih =>
    unfold State.flowPump
    split
    · exact SameLnt.refl _
    · split
      · exact SameLnt.refl _
      · split
        · exact SameLnt.refl _
        · exact ((sameLnt_modFlow k _).trans (sameLnt_routeFrame ..)).trans ih

theorem sameLnt_sendMsg (part epoch set peer seg : Nat) (m : FabMsg) : SameLnt s (s.sendMsg part epoch set peer seg m) := by
  unfold State.sendMsg
  refine SameLnt.trans ?_ (sameLnt_flowPump ..)
  refine SameLnt.trans ?_ (sameLnt_forAll _ _ (fun _ _ => sameLnt_modFlow ..) _)
  split
  · exact SameLnt.refl _
  · exact sameLnt_modFlow ..

theorem SameLnt.lport {t : State} (h : SameLnt s t) (k : Nat) : t.lport k = s.lport k := by
  unfold State.lport
  rw [show t.lnt = s.lnt from h]

/-! ### One flow of one port -/

/-- Only flow `f` of port `p` has changed among the lantern ports: it stands as `y`. -/
def OnlyFlow (s t : State) (p f : Nat) (y : LntFlow) : Prop :=
  (∀ k, k ≠ p → t.lport k = s.lport k) ∧ t.lport p = { s.lport p with flows := (t.lport p).flows } ∧
    ∀ k, smapGet {} (t.lport p).flows k = if k = f then y else smapGet {} (s.lport p).flows k

theorem OnlyFlow.modFlow {t : State} {p f : Nat} {y : LntFlow} (h : OnlyFlow s t p f y) (g : LntFlow → LntFlow) :
    OnlyFlow s (t.modLport p (fun x => x.modFlow f g)) p f (g y) := by
  obtain ⟨hothers, hport, hflows⟩ := h
  refine ⟨fun k hk => ?_, ?_, fun k => ?_⟩
  · rw [modLport_lport, if_neg hk]
    exact hothers k hk
  · rw [modLport_lport, if_pos rfl]
    unfold LntPort.modFlow
    rw [hport]
  · rw [modLport_lport, if_pos rfl]
    unfold LntPort.modFlow
    rw [smapGet_smapModify, hflows f, if_pos rfl, hflows k]
    split <;> rfl

theorem onlyFlow_modFlow (p f : Nat) (g : LntFlow → LntFlow) :
    OnlyFlow s (s.modLport p (fun x => x.modFlow f g)) p f (g (smapGet {} (s.lport p).flows f)) := by
  refine OnlyFlow.modFlow (t := s) ⟨fun _ _ => rfl, rfl, fun k => ?_⟩ g
  split
  · next hk => rw [hk]
  · rfl

theorem OnlyFlow.of_lnt {t u : State} {p f : Nat} {y : LntFlow} (h : OnlyFlow s t p f y) (hlnt : SameLnt t u) : OnlyFlow s u p f y := by
  unfold OnlyFlow at *
  rw [hlnt.lport]
  exact ⟨fun k hk => (hlnt.lport k).trans (h.1 k hk), h.2⟩

theorem OnlyFlow.base {u t : State} {p f : Nat} {y : LntFlow} (h : OnlyFlow u t p f y) (hlnt : SameLnt s u) : OnlyFlow s t p f y := by
  unfold OnlyFlow at *
  simp only [hlnt.lport] at h
  exact h

theorem OnlyFlow.flow {t : State} {p f : Nat} {y : LntFlow} (h : OnlyFlow s t p f y) : smapGet {} (t.lport p).flows f = y :=
  (h.2.2 f).trans (if_pos rfl)

/-! ### Sessions -/

theorem inSession_out {p n : Nat} {g : State} (h : (s.lport p).state < 2 ∨ 5 < (s.lport p).state) : s.inSession p n g = s := by
  unfold State.inSession
  exact if_pos (by simpa using h)

theorem inSession_stale {p n : Nat} {g : State} (hlow : 2 ≤ (s.lport p).state) (hhigh : (s.lport p).state ≤ 5) (hn : n ≠ (s.lport p).session) :
    s.inSession p n g = s.modLport p (fun x => { x with staleSeen := true }) := by
  unfold State.inSession
  dsimp only
  rw [if_neg (by simp; omega), if_pos (by simpa using hn)]

theorem inSession_up {p n : Nat} {g : State} (hup : (s.lport p).state = 4) (hn : n = (s.lport p).session) : s.inSession p n g = g := by
  unfold State.inSession
  dsimp only
  rw [hup, if_neg (by decide), if_neg (by simp [hn]), if_pos rfl]

theorem exec_lanternData_legal {p : Fin 4} {d : LntData} (h : LntData.legal d = true) :
    exec (.lanternData p d) s = .next (s.inSession p d.session (if d.flow < (s.lport p).flowCount then s.lntTake p d else s)) := by
  show execLanternData p d s = _
  unfold execLanternData
  exact if_neg (by rw [h]; decide)

theorem exec_lanternData_illegal {p : Fin 4} {d : LntData} (h : LntData.legal d = false) : exec (.lanternData p d) s = .next (s.lntDiscard p) := by
  show execLanternData p d s = _
  unfold execLanternData
  exact if_pos (by rw [h]; rfl)

/-- A change of one port alone. -/
theorem onlyPort_modLport {p : Nat} (g : LntPort → LntPort) : ∃ t : State, Host.Outcome.next (s.modLport p g) = (.next t : Host.Outcome State Fault Refusal) ∧
    t = { s with lnt := t.lnt } ∧ ∀ k, t.lport k = if k = p then g (s.lport p) else s.lport k :=
  ⟨_, rfl, rfl, fun k => modLport_lport s p g k⟩

/-! ### DATA packets (R373, R374) -/

section

variable {p : Nat} {d : LntData}

/-- The flow of a packet, and how far ahead of CUM the packet is. -/
def dataFlow (s : State) (p : Nat) (d : LntData) : LntFlow := smapGet {} (s.lport p).flows d.flow

/-- How far a packet is ahead of CUM. -/
def dataGap (s : State) (p : Nat) (d : LntData) : Nat := (d.pseq + 2 ^ 32 - (dataFlow s p d).cum) % 2 ^ 32

/-- CUM moves past a packet, whose payload joins the transfer, or which ends it. -/
def passed (d : LntData) (body : List Byte) (g : LntFlow) : LntFlow :=
  { g with cum := (d.pseq + 1) % 2 ^ 32, early := smapErase g.early d.pseq, body := if d.man then [] else body ++ d.payload }

theorem passed_of_empty {body : List Byte} {g : LntFlow} (hearly : g.early = []) :
    passed d body g = { g with cum := (d.pseq + 1) % 2 ^ 32, body := if d.man then [] else body ++ d.payload } := by
  unfold passed
  rw [hearly]
  cases g
  subst hearly
  rfl

/-- The flow has moved past the packet. -/
def movedOn (s : State) (p : Nat) (d : LntData) : State := s.modLport p (fun x => x.modFlow d.flow (passed d (dataFlow s p d).body))

theorem onlyFlow_movedOn : OnlyFlow s (movedOn s p d) p d.flow (passed d (dataFlow s p d).body (dataFlow s p d)) := onlyFlow_modFlow ..

/-- The flow past a packet behind which none is held, with one packet more to acknowledge. -/
theorem onlyFlow_next {u : State} (hearly : (dataFlow s p d).early = []) (hu : OnlyFlow s u p d.flow (passed d (dataFlow s p d).body (dataFlow s p d))) :
    OnlyFlow s (u.modLport p (fun x => x.modFlow d.flow (fun g => { g with fresh := g.fresh + 1 }))) p d.flow { dataFlow s p d with
      cum := (d.pseq + 1) % 2 ^ 32, body := if d.man then [] else (dataFlow s p d).body ++ d.payload, fresh := (dataFlow s p d).fresh + 1 } := by
  have hall := hu.modFlow (fun g => { g with fresh := g.fresh + 1 })
  rw [passed_of_empty hearly] at hall
  exact hall

/-- A packet that arrives in its turn, with none held behind it. -/
theorem lntTake_next {u : State} (hgap : dataGap s p d = 0) (hearly : (dataFlow s p d).early = []) (hfresh : (dataFlow s p d).fresh < 31)
    (hu : u = if d.man then (movedOn s p d).manifestIn p d.flow d.payload (dataFlow s p d).body else movedOn s p d)
    (hflow : smapGet {} (u.lport p).flows d.flow = passed d (dataFlow s p d).body (dataFlow s p d)) :
    s.lntTake p d = u.modLport p (fun x => x.modFlow d.flow (fun g => { g with fresh := g.fresh + 1 })) := by
  have hnone : (passed d (dataFlow s p d).body (dataFlow s p d)).early = [] := by
    show smapErase (dataFlow s p d).early d.pseq = []
    rw [hearly]
    rfl
  unfold dataGap at hgap
  unfold State.lntTake
  dsimp only
  unfold dataFlow at *
  rw [hgap, hearly]
  rw [if_neg (by simp [smapFind]), if_neg (by simp), if_pos rfl, if_neg (by omega)]
  unfold State.lntDeliver
  dsimp only
  unfold movedOn dataFlow at hu
  have hbody : u = if d.man then (s.modLport p (fun y => y.modFlow d.flow (fun g => { g with
      cum := (d.pseq + 1) % 2 ^ 32, early := smapErase g.early d.pseq,
      body := if d.man then [] else (smapGet {} (s.lport p).flows d.flow).body ++ d.payload }))).manifestIn p d.flow d.payload
        (smapGet {} (s.lport p).flows d.flow).body
      else s.modLport p (fun y => y.modFlow d.flow (fun g => { g with
        cum := (d.pseq + 1) % 2 ^ 32, early := smapErase g.early d.pseq,
        body := if d.man then [] else (smapGet {} (s.lport p).flows d.flow).body ++ d.payload })) := hu
  rw [← hbody, hflow, hnone]
  rfl

/-- A packet that comes early goes into the receive window. -/
theorem lntTake_early (hlow : 0 < dataGap s p d) (hhigh : dataGap s p d < 2 ^ 31) (hfind : smapFind (dataFlow s p d).early d.pseq = none)
    (hroom : (s.lport p).heldIn < windowSlots) (hfresh : (dataFlow s p d).fresh < 31) : s.lntTake p d =
      ((s.pokeBytes ((s.lport p).slotAddr (windowSlots + (s.lport p).freeRecv)) d.payload).modLport p (fun x => x.modFlow d.flow (fun g =>
        { g with early := smapSet g.early d.pseq { man := d.man, slot := (s.lport p).freeRecv, len := d.payload.length } }))).modLport p
          (fun x => x.modFlow d.flow (fun g => { g with fresh := g.fresh + 1 })) := by
  unfold dataGap at hlow hhigh
  unfold State.lntTake
  dsimp only
  unfold dataFlow at *
  rw [hfind, if_neg (by simp; omega), if_neg (by simp; omega), if_neg (by omega), if_neg (by omega)]

/-- SACK of a flow. -/
def sackOf (fl : LntFlow) : Nat := bitSum (fun i => (smapFind fl.early ((fl.cum + 1 + i) % 2 ^ 32)).isSome) 64

theorem lntAckOut_eq (f : Nat) : s.lntAckOut p f = (s.modLport p (fun x => x.modFlow f (fun g => { g with fresh := 0 }))).emit
    (.lntAck p (s.lport p).session f (((smapGet {} (s.lport p).flows f).cum + 2 ^ 32 - 1) % 2 ^ 32) (sackOf (smapGet {} (s.lport p).flows f))) := rfl

/-- A packet that has been received is acknowledged again. -/
theorem lntTake_again (h : 2 ^ 31 ≤ dataGap s p d ∨ smapFind (dataFlow s p d).early d.pseq ≠ none) : s.lntTake p d = s.lntAckOut p d.flow := by
  unfold State.lntTake
  refine if_pos ?_
  rw [Bool.or_eq_true, decide_eq_true_eq]
  exact h.imp_right Option.isSome_iff_ne_none.mpr

theorem sameLnt_emit (m : OutMsg) : SameLnt s (s.emit m) := rfl

/-! ### Manifests (R384 to R386) -/

/-- Whether a manifest packet fits the payload before it. -/
def manifestFits (m body : List Byte) : Bool := bytesAt m 48 8 == crc64 (body ++ m.take 48) && bytesAt m 16 8 == body.length

theorem manifestIn_unfit {f : Nat} {m body : List Byte} (h : manifestFits m body = false) : s.manifestIn p f m body =
    (s.modLport p (fun x => { x with crc64Seen := true })).emit (.lntReject p (s.lport p).session f) := by
  unfold State.manifestIn
  refine if_pos ?_
  unfold manifestFits at h
  rw [Bool.and_eq_false_iff] at h
  simpa [bne] using h

theorem manifestIn_hands {f : Nat} {m body : List Byte} (h : manifestFits m body = true) (howns : s.ownsLport p = true) (htyp : (xferOf m body).typ < 5) :
    s.manifestIn p f m body = s.handOn (xferOf m body) := by
  unfold State.manifestIn
  refine (if_neg ?_).trans ((if_neg (by rw [howns]; decide)).trans (if_neg (by omega)))
  unfold manifestFits at h
  simpa [bne] using h

theorem manifestIn_drops {f : Nat} {m body : List Byte} (h : manifestFits m body = true) (howns : s.ownsLport p = false) : s.manifestIn p f m body = s := by
  unfold State.manifestIn
  refine (if_neg ?_).trans (if_pos (by rw [howns]; rfl))
  unfold manifestFits at h
  simpa [bne] using h

theorem handOn_here {x : Xfer} (h : x.dstModule s.outer.fed = s.place.moduleId) : s.handOn x = s.emit (.relay (x.dstModule s.outer.fed) none x) := if_pos h

theorem handOn_elsewhere {x : Xfer} (h : x.dstModule s.outer.fed ≠ s.place.moduleId) :
    s.handOn x = s.sendMsg (s.trainPart.getD 16) 0 deliverSet (x.dstModule s.outer.fed) 0 (relayMsg x) := if_neg h

end

/-! ### Acknowledgements (R374, R375) -/

section

variable {p f : Nat}

theorem higherThan_zero (cum q : Nat) : higherThan cum 0 q = 0 := by
  unfold higherThan
  simp

theorem ackedBy_zero {cum q : Nat} (hq : q < 2 ^ 32) (hcum : cum < 2 ^ 32) : ackedBy cum 0 q = true ↔ (cum + 2 ^ 32 - q) % 2 ^ 32 < 2 ^ 31 := by
  unfold ackedBy
  simp only [Nat.zero_testBit, Bool.and_false, Bool.or_false, decide_eq_true_eq]
  omega

/-- An ACK without SACK takes the packets that it reports out of the window; nothing waits to follow them. -/
theorem lntAcked_plain {cum : Nat} (hwaiting : (smapGet {} (s.lport p).flows f).waiting = []) : s.lntAcked p f cum 0 =
    (s.modLport p (fun x => x.modFlow f (fun g => { g with
      window := (smapGet {} (s.lport p).flows f).window.filter (fun k => !ackedBy cum 0 k.pseq) }))).modOuter (fun o => { o with
        sent := o.sent.filter (fun t => !(t.port == p && t.flow == f && ackedBy cum 0 t.lastPseq)) }) := by
  have hfast : ∀ ks : List LntPkt, ks.filter (fun k => !k.fast && decide (3 ≤ higherThan cum 0 k.pseq)) = [] := by
    intro ks
    refine List.filter_eq_nil_iff.mpr fun k _ => ?_
    rw [higherThan_zero]
    simp
  unfold State.lntAcked
  dsimp only
  rw [hfast, hwaiting]
  simp only [List.contains_nil, Bool.false_eq_true, if_false, List.map_id']
  rfl

theorem exec_lanternAckTimer_eq (p : Fin 4) (f : Fin 64) : exec (.lanternAckTimer p f) s =
    if (s.lport p).state = 4 && (smapGet {} (s.lport p).flows f).fresh != 0 then .next (s.lntAckOut p f) else .next s := rfl

/-- A packet is marked as no longer sent again fast. -/
def unfast (q : Nat) (g : LntFlow) : LntFlow := { g with window := g.window.map (fun e => if e.pseq = q then { e with fast := false } else e) }

theorem exec_lanternRtoExpiry_none {p : Fin 4} {f : Fin 64} {q : Nat} (h : ∀ k ∈ (smapGet {} (s.lport p).flows f).window, k.pseq ≠ q) :
    exec (.lanternRtoExpiry p f q) s = .next s := by
  have hnone : (smapGet {} (s.lport p).flows f).window.find? (fun k => k.pseq == q) = none :=
    List.find?_eq_none.mpr fun k hk => by simpa using h k hk
  show execLanternRtoExpiry p f q s = _
  unfold execLanternRtoExpiry
  dsimp only
  rw [hnone]

theorem exec_lanternRtoExpiry_some {p : Fin 4} {f : Fin 64} {q : Nat} {as bs : List LntPkt} {k : LntPkt}
    (hwindow : (smapGet {} (s.lport p).flows f).window = as ++ k :: bs) (has : ∀ e ∈ as, e.pseq ≠ q) (hk : k.pseq = q) :
    exec (.lanternRtoExpiry p f q) s =
      if (s.lport p).state = 4 then .next ((s.modLport p (fun x => x.modFlow f (unfast q))).lntResend p f k) else .next s := by
  have hfind : (smapGet {} (s.lport p).flows f).window.find? (fun k => k.pseq == q) = some k := by
    rw [hwindow, List.find?_append, List.find?_eq_none.mpr (fun e he => by simpa using has e he)]
    simp [hk]
  show execLanternRtoExpiry p f q s = _
  unfold execLanternRtoExpiry
  dsimp only
  rw [hfind]
  rfl

theorem exec_lanternRtoExpiry_down {p : Fin 4} {f : Fin 64} {q : Nat} (h : (s.lport p).state ≠ 4) : exec (.lanternRtoExpiry p f q) s = .next s := by
  show execLanternRtoExpiry p f q s = _
  unfold execLanternRtoExpiry
  dsimp only
  split
  · exact if_neg h
  · rfl

theorem unfast_window (q : Nat) (g : LntFlow) :
    (unfast q g).window.map (fun e => ({ e with fast := false } : LntPkt)) = g.window.map (fun e => { e with fast := false }) := by
  unfold unfast
  rw [List.map_map]
  refine List.map_congr_left fun e _ => ?_
  dsimp only [Function.comp]
  split <;> rfl

end

/-! ### Rejected transfers (R386) -/

theorem rejectXfer_own {x : Xfer} (h : x.srcIsland = s.place.islandId ∧ x.srcModule = s.place.moduleId) : s.rejectXfer x =
    if 2 ≤ x.attempt then (s.event 7 4 (s.trainPart.getD 16) (keyField x.item) []).emit (.xferFailed x stHw)
    else s.sendXfer { x with attempt := x.attempt + 1 } := if_pos (by simp [h])

theorem rejectXfer_other {x : Xfer} (h : ¬ (x.srcIsland = s.place.islandId ∧ x.srcModule = s.place.moduleId)) :
    s.rejectXfer x = s.emit (.rejected x.srcModule x) := if_neg (by simpa using h)

/-! ### Delay (R376 to R378) -/

section

variable {x : LntPort} {v : Int}

/-- The first sample of a session. -/
theorem sample_first (h : x.sampled = false) :
    x.sample v = ({ x with sampled := true, base := v.toNat, var := 250000, shiftCount := 0, rto := v.toNat + 1000000 }, false) := by
  unfold LntPort.sample
  exact if_pos (by rw [h]; rfl)

/-- The base and the variance that a sample within SHIFT leaves. -/
theorem sample_within (h : x.sampled = true) (hin : (v - (x.base : Int)).natAbs ≤ 1000 * x.set.shiftUs) : let d := v - (x.base : Int)
    x.sample v = ({ x with
      shiftCount := 0, base := ((x.base : Int) + Int.tdiv d 8).toNat, var := ((x.var : Int) + Int.tdiv ((d.natAbs : Int) - (x.var : Int)) 4).toNat,
      rto := ((x.base : Int) + Int.tdiv d 8).toNat + max (4 * ((x.var : Int) + Int.tdiv ((d.natAbs : Int) - (x.var : Int)) 4).toNat) 1000000 }, false) := by
  unfold LntPort.sample
  exact (if_neg (by rw [h]; decide)).trans (if_pos hin)

/-- How many shifted samples of one direction have come, with the one at hand. -/
def shiftRun (x : LntPort) (d : Int) : Nat := if x.shiftCount ≠ 0 ∧ x.shiftUp = decide (0 < d) then x.shiftCount + 1 else 1

theorem sample_shifted (h : x.sampled = true) (hout : 1000 * x.set.shiftUs < (v - (x.base : Int)).natAbs) : let n := shiftRun x (v - (x.base : Int))
    x.sample v = if x.set.shiftN ≤ n then
        ({ x with pathchg := true, base := v.toNat, var := 250000, shiftCount := 0, rto := v.toNat + 1000000 }, true)
      else ({ x with shiftCount := n, shiftUp := decide (0 < v - (x.base : Int)), rto := x.base + max (4 * x.var) 1000000 }, false) := by
  have hrun : (if x.shiftCount != 0 && x.shiftUp == decide (0 < v - (x.base : Int)) then x.shiftCount + 1 else 1) = shiftRun x (v - (x.base : Int)) := by
    unfold shiftRun
    simp only [Bool.and_eq_true, bne_iff_ne, beq_iff_eq]
  unfold LntPort.sample
  refine (if_neg (by rw [h]; decide)).trans ((if_neg (by omega)).trans ?_)
  dsimp only
  rw [hrun]
  rfl

end

theorem exec_echoReply_none {p : Fin 4} {t1 t2 t3 now : Nat} (h : (s.lport p).measures = false ∨ t1 ∉ (s.lport p).echoes) :
    exec (.echoReply p t1 t2 t3 now) s = .next s := by
  show execEchoReply p t1 t2 t3 now s = _
  unfold execEchoReply
  refine if_pos ?_
  rcases h with h | h
  · rw [h]; rfl
  · simp [h]

theorem exec_echoReply_old {p : Fin 4} {t1 t2 t3 now : Nat} (hm : (s.lport p).measures = true) (hin : t1 ∈ (s.lport p).echoes)
    (hsampled : (s.lport p).sampled = true) (hold : t1 + 2 * (s.lport p).rto < now) :
    exec (.echoReply p t1 t2 t3 now) s = .next (s.modLport p (fun x => { x with echoes := x.echoes.erase t1 })) := by
  show execEchoReply p t1 t2 t3 now s = _
  unfold execEchoReply
  exact (if_neg (by simp [hm, hin])).trans (if_pos (by simp [hsampled, hold]))

/-- A reply that is taken as a sample. -/
theorem exec_echoReply_sample {p : Fin 4} {t1 t2 t3 now : Nat} {v : Int} (hm : (s.lport p).measures = true) (hin : t1 ∈ (s.lport p).echoes)
    (hv : v = ((now : Int) - t1) - ((t3 : Int) - t2)) (hnew : (s.lport p).sampled = false ∨ now ≤ t1 + 2 * (s.lport p).rto)
    {r : LntPort × Bool} (hr : LntPort.sample { s.lport p with echoes := (s.lport p).echoes.erase t1 } v = r) :
    exec (.echoReply p t1 t2 t3 now) s = .next (if r.2 then (s.modLport p (fun _ => r.1)).lntEvent 2 p (leBytes 4 (s.lport p).base ++ leBytes 4 r.1.base)
      else s.modLport p (fun _ => r.1)) := by
  show execEchoReply p t1 t2 t3 now s = _
  unfold execEchoReply
  refine (if_neg (by simp [hm, hin])).trans ((if_neg ?_).trans ?_)
  · rcases hnew with h | h
    · simp [h]
    · simp; omega
  · dsimp only
    rw [← hv, hr]

theorem lntDiscard_measuring {p : Nat} (hlow : 2 ≤ (s.lport p).state) (hhigh : (s.lport p).state ≤ 5) :
    s.lntDiscard p = s.modLport p (fun x => { x with crcerr := satAdd 32 x.crcerr 1 }) := if_pos (by simp [hlow, hhigh])

theorem lntDiscard_out {p : Nat} (h : (s.lport p).state < 2 ∨ 5 < (s.lport p).state) : s.lntDiscard p = s :=
  if_neg (by simp; omega)

theorem measures_iff (x : LntPort) : x.measures = true ↔ 2 ≤ x.state ∧ x.state ≤ 5 := by
  unfold LntPort.measures
  simp

end

/-- Settles O60: each row by its equation; what a packet does to a flow is told once for the port and the flow. -/
theorem lanternFlowsAndDelay : Obligations.LanternFlowsAndDelay := by
  unfold Obligations.LanternFlowsAndDelay
  refine ⟨?frames, ?data, ?ack, ?timers, ?reject, ?idle, ?delay, fun _ _ => rfl, fun h hwf => ⟨length_lntHeader h, lntHeaderOf_lntHeader h hwf⟩,
    fun bs h hof => lntHeader_of_lntHeaderOf hof⟩
  case frames =>
    intro s p d n fl cum sack
    refine ⟨fun hout => ⟨?_, congrArg _ (inSession_out hout)⟩, ?_, fun hlow hhigh hlegal => ?_, fun hup hlegal hsession hflow => ?_⟩
    · cases hlegal : LntData.legal d with
      | true => exact (exec_lanternData_legal hlegal).trans (congrArg _ (inSession_out hout))
      | false => exact (exec_lanternData_illegal hlegal).trans (congrArg _ (lntDiscard_out hout))
    · rintro hlow hhigh ev (⟨rfl, hlegal, hn⟩ | ⟨rfl, hn⟩)
      · rw [exec_lanternData_legal hlegal, inSession_stale hlow hhigh hn]
        exact onlyPort_modLport _
      · rw [show exec (.lanternAck p n fl cum sack) s = .next (s.inSession p n _) from rfl, inSession_stale hlow hhigh hn]
        exact onlyPort_modLport _
    · rw [exec_lanternData_illegal hlegal, lntDiscard_measuring hlow hhigh]
      exact onlyPort_modLport _
    · rw [exec_lanternData_legal hlegal, inSession_up hup hsession, if_neg (by omega)]
  case data =>
    intro s p d x fl gap only hup hlegal hsession hflow hcum hpseq
    have hexec : exec (.lanternData p d) s = .next (s.lntTake p d) := by
      rw [exec_lanternData_legal hlegal, inSession_up hup hsession, if_pos hflow]
    rw [hexec]
    refine ⟨fun hgap hman hearly hfresh => ?_, fun hlow hhigh hfind hroom hfresh => ?_, fun h => ?_, fun hgap hman hearly hfresh => ?_⟩
    · have hmoved := onlyFlow_movedOn (s := s) (p := p) (d := d)
      have htake := lntTake_next (u := movedOn s p d) hgap hearly hfresh (by rw [hman]; rfl) hmoved.flow
      have hall := onlyFlow_next hearly hmoved
      rw [hman] at hall
      exact ⟨_, congrArg _ htake, rfl, hall⟩
    · have honly := pokeBytes_only s (x.slotAddr (windowSlots + x.freeRecv)) d.payload
      have hpoke : SameLnt s (s.pokeBytes (x.slotAddr (windowSlots + x.freeRecv)) d.payload) := by rw [honly]; rfl
      have htake := lntTake_early hlow hhigh hfind hroom hfresh
      have hall := ((onlyFlow_modFlow (s := s.pokeBytes (x.slotAddr (windowSlots + x.freeRecv)) d.payload) p d.flow (fun g => { g with
        early := smapSet g.early d.pseq { man := d.man, slot := x.freeRecv, len := d.payload.length } })).modFlow
          (fun g => { g with fresh := g.fresh + 1 })).base hpoke
      rw [hpoke.lport] at hall
      refine ⟨_, congrArg _ htake, ?_, rfl, hall⟩
      generalize s.pokeBytes (x.slotAddr (windowSlots + x.freeRecv)) d.payload = u at *
      rw [honly]
      rfl
    · refine ⟨_, sackOf fl, congrArg _ ((lntTake_again h).trans (lntAckOut_eq _)), rfl, ?_, fun i hi => ?_⟩
      · exact (onlyFlow_modFlow (s := s) p d.flow (fun g => { g with fresh := 0 })).of_lnt (sameLnt_emit _)
      · exact (testBit_bitSum ..).trans (by rw [decide_eq_true hi]; rfl)
    · intro fits x1 m after
      have hmoved := onlyFlow_movedOn (s := s) (p := p) (d := d)
      have hafter : ∀ u : State, SameLnt (movedOn s p d) u → (movedOn s p d).manifestIn p d.flow d.payload fl.body = u →
          s.lntTake p d = u.modLport p (fun x => x.modFlow d.flow (fun g => { g with fresh := g.fresh + 1 })) ∧
          OnlyFlow s (u.modLport p (fun x => x.modFlow d.flow (fun g => { g with fresh := g.fresh + 1 }))) p d.flow after := by
        intro u hlnt hu
        have hflow := hmoved.of_lnt hlnt
        have hall := onlyFlow_next hearly hflow
        rw [hman] at hall
        exact ⟨lntTake_next hgap hearly hfresh (by rw [hman]; exact hu.symm) hflow.flow, hall⟩
      refine ⟨fun hfits howns => ?_, fun hfits howns htyp => ⟨fun hm => ?_, fun hm => ?_⟩, fun hfits => ?_⟩
      · obtain ⟨htake, hall⟩ := hafter (movedOn s p d) (SameLnt.refl _) (manifestIn_drops hfits howns)
        exact ⟨_, congrArg _ htake, rfl, hall⟩
      · obtain ⟨htake, hall⟩ := hafter _ (sameLnt_emit _) ((manifestIn_hands (s := movedOn s p d) hfits howns htyp).trans (handOn_here (s := movedOn s p d) hm))
        exact ⟨_, congrArg _ htake, rfl, hall⟩
      · obtain ⟨htake, hall⟩ := hafter _ (sameLnt_sendMsg ..) ((manifestIn_hands (s := movedOn s p d) hfits howns htyp).trans (handOn_elsewhere (s := movedOn s p d) hm))
        exact ⟨_, movedOn s p d, congrArg _ htake, rfl, rfl, hall⟩
      · let u := ((movedOn s p d).modLport p (fun x => { x with crc64Seen := true })).emit (.lntReject p x.session d.flow)
        have hsession' : ((movedOn s p d).lport p).session = x.session := by rw [hmoved.2.1]
        have hu : (movedOn s p d).manifestIn p d.flow d.payload fl.body = u := (manifestIn_unfit hfits).trans (by rw [hsession'])
        have hport : u.lport p = { (movedOn s p d).lport p with crc64Seen := true } := 
          (modLport_lport (movedOn s p d) p (fun x => { x with crc64Seen := true }) p).trans (if_pos rfl)
        have hflow : smapGet {} (u.lport p).flows d.flow = passed d fl.body fl := by
          rw [hport]
          exact hmoved.flow
        refine ⟨_, congrArg _ (lntTake_next hgap hearly hfresh (by rw [hman]; exact hu.symm) hflow), rfl, ?_, ?_⟩
        · rw [modLport_lport, if_pos rfl, hport]
          rfl
        · rw [modLport_lport, if_pos rfl]
          unfold LntPort.modFlow
          rw [smapGet_smapModify, if_pos rfl, hflow, passed_of_empty hearly, hman]
          rfl
  case ack =>
    intro s p f cum x hup hflow hwaiting
    have hexec : exec (.lanternAck p x.session f cum 0) s = .next (s.lntAcked p f cum 0) := by
      show Host.Outcome.next (s.inSession p x.session (if f < x.flowCount then s.lntAcked p f cum 0 else s)) = _
      rw [inSession_up hup rfl, if_pos hflow]
    obtain ⟨hothers, hport, hflows⟩ := onlyFlow_modFlow (s := s) p f (fun g => { g with
      window := (smapGet {} (s.lport p).flows f).window.filter (fun k => !ackedBy cum 0 k.pseq) })
    exact ⟨_, hexec.trans (congrArg _ (lntAcked_plain hwaiting)), rfl, hothers, hport, hflows, rfl, fun q hq hcum => ackedBy_zero hq hcum⟩
  case timers =>
    intro s p f q x fl
    refine ⟨fun h => ?_, fun hup hfresh => ?_, ?_, fun as k bs hup hwindow has hk => ?_⟩
    · refine (exec_lanternAckTimer_eq p f).trans (if_neg ?_)
      simp only [Bool.and_eq_true, decide_eq_true_eq, bne_iff_ne]
      rintro ⟨hup, hfresh⟩
      rcases h with h | h
      · exact h hup
      · exact hfresh h
    · obtain ⟨hothers, -, hflows⟩ := onlyFlow_modFlow (s := s) p f (fun g => { g with fresh := 0 })
      refine ⟨_, sackOf fl, (exec_lanternAckTimer_eq p f).trans ((if_pos ?_).trans (congrArg _ (lntAckOut_eq _))), rfl, hothers, (hflows f).trans (if_pos rfl)⟩
      simp only [Bool.and_eq_true, decide_eq_true_eq, bne_iff_ne]
      exact ⟨hup, hfresh⟩
    · rintro (h | h)
      · exact exec_lanternRtoExpiry_down h
      · exact exec_lanternRtoExpiry_none h
    · obtain ⟨hothers, hport, hflows⟩ := onlyFlow_modFlow (s := s) p f (unfast q)
      generalize hu : s.modLport p (fun x => x.modFlow f (unfast q)) = u at *
      have hresent := exec_lanternRtoExpiry_some hwindow has hk
      rw [if_pos hup, hu] at hresent
      have hlport : ∀ j, (u.lntResend p f k).lport j = if j = p.val then { u.lport p with retx := satAdd 32 (u.lport p).retx 1 } else u.lport j :=
        fun j => modLport_lport u p (fun y => { y with retx := satAdd 32 y.retx 1 }) j
      refine ⟨_, hresent, ?_, fun j hj => ?_, ?_, ?_⟩
      · have haddr : ∀ slot, (u.lport p).slotAddr slot = x.slotAddr slot := fun slot => by rw [hport]; rfl
        have hdata : u.dataOf p f k = { session := x.session, flow := f, man := k.man, pseq := q, payload := s.peekBytes (x.slotAddr k.slot) k.len } := by
          unfold State.dataOf
          dsimp only
          rw [haddr, hk, hport, ← hu]
          rfl
        unfold State.lntResend
        rw [hdata, ← hu]
        rfl
      · rw [hlport, if_neg hj]
        exact hothers j hj
      · rw [hlport, if_pos rfl, hport]
        rfl
      · rw [hlport, if_pos rfl]
        show (smapGet {} (u.lport p).flows f).window.map _ = _
        rw [hflows f, if_pos rfl]
        exact unfast_window ..
  case reject =>
    intro s p n f x own
    refine ⟨fun hown hlow => ?_, fun hown hhigh => ?_, fun hown => ?_, fun as e bs hsent has hport hflow hx hown hup hn => ?_⟩
    · exact congrArg _ ((rejectXfer_own (of_decide_eq_true hown)).trans (if_neg (by omega)))
    · have hform := (rejectXfer_own (s := s) (of_decide_eq_true hown)).trans (if_pos hhigh)
      have honly := (onlyEvents_event s 7 4 (s.trainPart.getD 16) (keyField x.item) []).1
      generalize s.event 7 4 (s.trainPart.getD 16) (keyField x.item) [] = u at *
      refine ⟨u.emit (.xferFailed x stHw), congrArg Host.Outcome.next hform, ?_, List.mem_append_right u.outbox (List.mem_singleton_self _)⟩
      rw [honly]
      rfl
    · exact congrArg _ (rejectXfer_other (of_decide_eq_false hown))
    · have hfind : s.outer.sent.find? (fun t => t.port == p.val && t.flow == f) = some e := by
        rw [hsent, List.find?_append, List.find?_eq_none.mpr (fun w hw => by simpa using has w hw)]
        simp [hport, hflow]
      have herase : s.outer.sent.erase e = as ++ bs := by
        rw [hsent, List.erase_append_right _ (fun hmem => has e hmem ⟨hport, hflow⟩), List.erase_cons_head]
      show execManifestReject p n f none s = _
      unfold execManifestReject
      dsimp only
      rw [hfind]
      dsimp only
      rw [inSession_up hup hn, hx]
      refine congrArg _ ((rejectXfer_other (s := s.modOuter (fun o => { o with sent := o.sent.erase e })) (of_decide_eq_false hown)).trans ?_)
      rw [← herase]
      rfl
  case idle =>
    intro s p t1 t2 t3 now hm
    refine ⟨?_, ?_, exec_echoReply_none (.inl hm), ?_⟩
    · show execEchoTimer p now s = _
      unfold execEchoTimer
      exact if_neg (by rw [hm]; decide)
    · show execEcho p t1 now s = _
      unfold execEcho
      exact if_neg (by rw [hm]; decide)
    · refine congrArg _ (lntDiscard_out ?_)
      by_contra hc
      have := (measures_iff (s.lport p)).mpr (by omega)
      rw [hm] at this
      cases this
  case delay =>
    intro s p t1 t2 t3 now hm x port
    obtain ⟨hlow, hhigh⟩ := (measures_iff x).mp hm
    refine ⟨?_, ?_, ?_, fun hin => exec_echoReply_none (.inr hin), fun hin hsampled hold => ?_, fun v hv hin hnew => ?_⟩
    · have hat := modLport_lport s p (fun x => { x with echoes := x.echoes.filter (fun t => !x.sampled || decide (now ≤ t + 2 * x.rto)) ++ [now] })
      generalize ht : s.modLport p (fun x => { x with echoes := x.echoes.filter (fun t => !x.sampled || decide (now ≤ t + 2 * x.rto)) ++ [now] }) = t at *
      have hself := (hat p).trans (if_pos rfl)
      refine ⟨t.emit (.lntEcho p now), (if_pos hm).trans (congrArg (fun w : State => Host.Outcome.next (w.emit (.lntEcho p now))) ht), ?_, fun k => ?_, ?_⟩
      · rw [← ht]
        rfl
      · show t.lport k = if k = p.val then { x with echoes := (t.lport p).echoes } else s.lport k
        rw [hself]
        exact hat k
      · show now ∈ (t.lport p).echoes
        rw [hself]
        exact List.mem_append_right _ (List.mem_singleton_self _)
    · exact if_pos hm
    · exact ⟨_, congrArg Host.Outcome.next (lntDiscard_measuring hlow hhigh), rfl, modLport_lport s p (fun x => { x with crcerr := satAdd 32 x.crcerr 1 })⟩
    · exact ⟨_, exec_echoReply_old hm hin hsampled hold, rfl, modLport_lport s p (fun x => { x with echoes := x.echoes.erase t1 })⟩
    · intro y d run
      refine ⟨fun hfirst => ?_, fun hsampled hwithin => ?_, fun hsampled hout hrun => ?_, fun hsampled hout hrun => ?_⟩
      · exact ⟨_, exec_echoReply_sample hm hin hv hnew (sample_first (x := y) hfirst), rfl, modLport_lport s p (fun _ => _)⟩
      · exact ⟨_, exec_echoReply_sample hm hin hv hnew (sample_within (x := y) hsampled hwithin), rfl, modLport_lport s p (fun _ => _)⟩
      · exact ⟨_, exec_echoReply_sample hm hin hv hnew ((sample_shifted (x := y) hsampled hout).trans (if_neg (by exact Nat.not_le.mpr hrun))), rfl,
          modLport_lport s p (fun _ => _)⟩
      · have hexec := exec_echoReply_sample hm hin hv hnew ((sample_shifted (x := y) hsampled hout).trans (if_pos hrun))
        have hat := modLport_lport s p (fun _ => { y with pathchg := true, base := v.toNat, var := 250000, shiftCount := 0, rto := v.toNat + 1000000 })
        generalize hu : s.modLport p (fun _ => { y with pathchg := true, base := v.toNat, var := 250000, shiftCount := 0, rto := v.toNat + 1000000 }) = u at *
        have hev : OnlyEvents u (u.lntEvent 2 p (leBytes 4 (s.lport p).base ++ leBytes 4 v.toNat)) := onlyEvents_event ..
        refine ⟨u.lntEvent 2 p (leBytes 4 (s.lport p).base ++ leBytes 4 v.toNat), hexec.trans (congrArg Host.Outcome.next (if_pos rfl)), ?_,
          fun k => (((sameLnt_of_events hev).lport k).trans (hat k))⟩
        have honly := hev.1
        generalize u.lntEvent 2 p (leBytes 4 (s.lport p).base ++ leBytes 4 v.toNat) = w at *
        rw [honly, ← hu]
        rfl

end Sys2Proof.Proofs
end

section
/-! PROOFS. What the outer loop does on its own: transfers on their way, the view of partners and the island's state (R380 to R383, R410 to R415). -/

namespace Sys2Proof.Proofs

open Sys2Proof.Machine Sys2Proof.Laws

section

variable {s t u : State}

/-! ### Links of the fabric -/

/-- No port of the fabric changes its state, nor whether it returns to routing. -/
def SameLinks (s t : State) : Prop := ∀ k, (t.port k).state = (s.port k).state ∧ (t.port k).returning = (s.port k).returning

theorem SameLinks.refl (s : State) : SameLinks s s := fun _ => ⟨rfl, rfl⟩

theorem SameLinks.trans (h : SameLinks s t) (k : SameLinks t u) : SameLinks s u := fun p => ⟨(k p).1.trans (h p).1, (k p).2.trans (h p).2⟩

theorem sameLinks_of_ports (h : t.fab.ports = s.fab.ports) : SameLinks s t := fun k => by
  have hport : t.port k = s.port k := by
    unfold State.port
    rw [h]
  rw [hport]
  exact ⟨rfl, rfl⟩

theorem sameLinks_modPort (p : Nat) (g : FabPort → FabPort) (h : (g (s.port p)).state = (s.port p).state ∧ (g (s.port p)).returning = (s.port p).returning) :
    SameLinks s (s.modPort p g) := fun k => by
  rw [modPort_port s p g k]
  split
  · next hk => rw [hk]; exact h
  · exact ⟨rfl, rfl⟩

theorem sameLinks_forAll {α : Type} (xs : List α) (g : State → α → State) (hg : ∀ s x, SameLinks s (g s x)) (s : State) : SameLinks s (s.forAll xs g) :=
  forAll_keeps (SameLinks s) xs g (fun t x _ ht => ht.trans (hg t x)) s (SameLinks.refl s)

theorem pump_link (ahead : FabFrame → Bool) (n : Nat) (x : FabPort) :
    (FabPort.pump ahead n x).1.state = x.state ∧ (FabPort.pump ahead n x).1.returning = x.returning := by
  induction n generalizing x with
  | zero => exact ⟨rfl, rfl⟩
  | succ n ih =>
    unfold FabPort.pump
    split
    · exact ih _
    · exact ⟨rfl, rfl⟩

theorem sameLinks_linkSend (p : Nat) (f : FabFrame) : SameLinks s (s.linkSend p f) := by
  unfold State.linkSend
  split
  · exact SameLinks.refl s
  · refine SameLinks.trans (sameLinks_modPort p (fun x => { x with wait := x.wait ++ [f] }) ⟨rfl, rfl⟩) ?_
    generalize s.modPort p _ = v
    exact (sameLinks_modPort p (fun _ => (FabPort.pump v.servesFrame (v.port p).wait.length (v.port p)).1) (pump_link ..)).trans (sameLinks_of_ports rfl)

theorem sameLinks_flareAll (ps : List Nat) (f : FlareFrame) (s : State) : SameLinks s (s.forAll ps (fun s p => s.flareSend p f)) :=
  sameLinks_forAll _ _ (fun _ _ => sameLinks_linkSend _ _) s

theorem sameLinks_broadcast (f : FlareFrame) : SameLinks s (s.broadcast f) :=
  SameLinks.trans (t := s.emit (.broadcast f)) (sameLinks_of_ports rfl) (sameLinks_flareAll _ _ _)

theorem sameLinks_of_events (h : OnlyEvents s t) : SameLinks s t := sameLinks_of_ports (by rw [h.1])

/-! ### What may change while the outer loop reacts -/

/-- The outer state but for what exchanges, fetches, transfers and the island's state change. -/
def SameOuter (s t : State) : Prop :=
  t.outer = { s.outer with
    asked := t.outer.asked, sent := t.outer.sent, state := t.outer.state, holdSeen := t.outer.holdSeen, source := t.outer.source, rhoSrc := t.outer.rhoSrc,
    gathered := t.outer.gathered, refetch := t.outer.refetch, install := t.outer.install, returned := t.outer.returned }

/-- The whole state but for what the outer loop works with. -/
def SameRest (s t : State) : Prop :=
  t = { s with mem := t.mem, fields := t.fields, lnt := t.lnt, fab := t.fab, bcn := t.bcn, outbox := t.outbox, host := t.host, hostMem := t.hostMem,
               outer := t.outer }

/-- Ports that are not UP stand, the others but for their flows; transfers are added on ports that are UP. -/
structure Reacts (s t : State) : Prop where
  rest : SameRest s t
  outer : SameOuter s t
  port : ∀ k, t.lport k = { s.lport k with flows := (t.lport k).flows }
  idle : ∀ k, (s.lport k).state ≠ 4 → t.lport k = s.lport k
  sent : ∀ e ∈ t.outer.sent, e ∈ s.outer.sent ∨ (s.lport e.port).state = 4

theorem Reacts.refl (s : State) : Reacts s s := ⟨rfl, rfl, fun _ => rfl, fun _ _ => rfl, fun _ he => .inl he⟩

theorem SameRest.trans (h : SameRest s t) (k : SameRest t u) : SameRest s u := by
  unfold SameRest at *
  rw [k, h]

theorem SameOuter.trans (h : SameOuter s t) (k : SameOuter t u) : SameOuter s u := by
  unfold SameOuter at *
  rw [k, h]

theorem Reacts.port_state (h : Reacts s t) (k : Nat) : (t.lport k).state = (s.lport k).state := by rw [h.port k]

theorem Reacts.trans (h : Reacts s t) (k : Reacts t u) : Reacts s u where
  rest := h.rest.trans k.rest
  outer := h.outer.trans k.outer
  port p := by rw [k.port p, h.port p]
  idle p hp := (k.idle p (by rw [h.port_state]; exact hp)).trans (h.idle p hp)
  sent e he := by
    rcases k.sent e he with hin | hup
    · exact h.sent e hin
    · exact .inr (by rw [← h.port_state]; exact hup)

/-- The lantern ports and the list of transfers stand. -/
theorem reacts_of_same (hrest : SameRest s t) (houter : SameOuter s t) (hlnt : SameLnt s t) (hsent : t.outer.sent = s.outer.sent) : Reacts s t where
  rest := hrest
  outer := houter
  port k := by rw [hlnt.lport]
  idle k _ := hlnt.lport k
  sent e he := .inl (hsent ▸ he)

theorem reacts_of_sends (h : OnlySends s t) : Reacts s t :=
  reacts_of_same (by unfold SameRest; rw [h]) (by unfold SameOuter; rw [h]) (sameLnt_of_sends h) (by rw [h])

theorem reacts_of_events (h : OnlyEvents s t) : Reacts s t :=
  reacts_of_same (by unfold SameRest; rw [h.1]) (by unfold SameOuter; rw [h.1]) (sameLnt_of_events h) (by rw [h.1])

theorem reacts_of_rounds (h : OnlyRounds s t) : Reacts s t :=
  reacts_of_same (by unfold SameRest; rw [h.1]) (by unfold SameOuter; rw [h.1]) (by unfold SameLnt; rw [h.1]) (by rw [h.1])

theorem reacts_modOuter (g : OuterIsland → OuterIsland) (houter : SameOuter s (s.modOuter g)) (hsent : (g s.outer).sent = s.outer.sent) :
    Reacts s (s.modOuter g) := reacts_of_same rfl houter rfl hsent

theorem Reacts.place (h : Reacts s t) : t.place = s.place := by rw [h.rest]

theorem Reacts.tiles (h : Reacts s t) : t.tiles = s.tiles := by rw [h.rest]

theorem Reacts.parts (h : Reacts s t) : t.parts = s.parts := by rw [h.rest]

theorem Reacts.gwUp (h : Reacts s t) : t.outer.gwUp = s.outer.gwUp := by rw [h.outer]

theorem Reacts.routes (h : Reacts s t) : t.outer.routes = s.outer.routes := by rw [h.outer]

theorem Reacts.dark (h : Reacts s t) : t.outer.dark = s.outer.dark := by rw [h.outer]

/-- A module that finds no ring shut both ways still finds none. -/
theorem SameRest.still_joined (h : SameRest s t) (hlinks : SameLinks s t) (hjoined : joined s) : joined t := by
  have hplace : t.place = s.place := by rw [h]
  have hblob : t.blob = s.blob := by rw [h]
  intro m a b lk vl ha hb
  have hself : s.self = some a := by
    unfold State.self at *
    rw [hplace, hblob] at ha
    exact ha
  rw [hblob] at hb ⊢
  simp only [(hlinks _).1, (hlinks _).2]
  exact hjoined m a b lk vl hself hb

/-- The gateways that are UP stay those. -/
theorem Reacts.gatesUp (h : Reacts s t) (i : Nat) : t.gatesUp i = s.gatesUp i := by
  have howns : ∀ p, t.ownsLport p = s.ownsLport p := by
    intro p
    unfold State.ownsLport State.trainPart State.lportOwner State.part
    rw [h.parts]
  have hpeer : ∀ p, (t.lport p).peerIsland = (s.lport p).peerIsland := fun p => by rw [h.port p]
  unfold State.gatesUp
  simp only [h.routes, h.place, h.port_state, hpeer, howns, h.gwUp]

/-! ### What a module tells others -/

/-- Only the fabric, the step line, event records and what goes out change, and no link of the fabric. -/
def Tells (s t : State) : Prop :=
  t = { s with fab := t.fab, bcn := t.bcn, host := t.host, hostMem := t.hostMem, outbox := t.outbox } ∧ SameLinks s t

theorem Tells.refl (s : State) : Tells s s := ⟨rfl, SameLinks.refl s⟩

theorem Tells.trans (h : Tells s t) (k : Tells t u) : Tells s u := ⟨by rw [k.1, h.1], h.2.trans k.2⟩

theorem Tells.mem (h : Tells s t) : t.mem = s.mem := by rw [h.1]

theorem Tells.fields (h : Tells s t) : t.fields = s.fields := by rw [h.1]

theorem Tells.outer (h : Tells s t) : t.outer = s.outer := by rw [h.1]

theorem Tells.still_joined (h : Tells s t) (hjoined : joined s) : joined t := SameRest.still_joined (by unfold SameRest; rw [h.1]) h.2 hjoined

theorem Tells.modOuter (h : Tells s t) (g : OuterIsland → OuterIsland) : Tells (s.modOuter g) (t.modOuter g) := by
  refine ⟨?_, h.2⟩
  rw [h.1]
  rfl

theorem tells_of_events (h : OnlyEvents s t) : Tells s t := ⟨by rw [h.1], sameLinks_of_events h⟩

theorem tells_emit (m : OutMsg) : Tells s (s.emit m) := tells_of_events (onlyEvents_emit ..)

theorem tells_linkSend (p : Nat) (f : FabFrame) : Tells s (s.linkSend p f) := ⟨by rw [onlySends_linkSend s p f], sameLinks_linkSend _ _⟩

theorem tells_floodFrom (e : Option Nat) (f : FlareFrame) : Tells s (s.floodFrom e f) := ⟨by rw [onlySends_floodFrom e f s], sameLinks_flareAll _ _ _⟩

theorem tells_broadcast (f : FlareFrame) : Tells s (s.broadcast f) := ⟨by rw [onlySends_broadcast f], sameLinks_broadcast _⟩

theorem tells_modBcn (g : Beacon → Beacon) : Tells s (s.modBcn g) := ⟨rfl, sameLinks_of_ports rfl⟩

theorem tells_modFlow (k : Nat) (g : Flow → Flow) : Tells s (s.modFlow k g) := ⟨rfl, sameLinks_of_ports rfl⟩

/-- Along a list, with no ring shut both ways. -/
theorem tells_forAll {α : Type} (xs : List α) (g : State → α → State) (hg : ∀ s, joined s → ∀ x, Tells s (g s x)) (hjoined : joined s) :
    Tells s (s.forAll xs g) :=
  forAll_keeps (Tells s) xs g (fun t x _ ht => ht.trans (hg t (ht.still_joined hjoined) x)) s (Tells.refl s)

theorem tells_unreached (f : FabFrame) :
    Tells s (State.event { s with fab := { s.fab with unreachSeen := true } } 5 3 16 0 (leBytes 2 f.dest)) :=
  Tells.trans (t := { s with fab := { s.fab with unreachSeen := true } }) ⟨rfl, sameLinks_of_ports rfl⟩ (tells_of_events (onlyEvents_event ..))

theorem tells_routeFrame (hjoined : joined s) (f : FabFrame) : Tells s (s.routeFrame none f) := by
  unfold State.routeFrame
  dsimp only
  split
  · next a b ha hb =>
    split
    · exact Tells.refl s
    · next both hhop =>
      cases both with
      | true => exact absurd hhop (hjoined _ _ _ _ _ ha hb)
      | false => exact tells_unreached f
    · exact tells_linkSend ..
  · exact tells_unreached f

theorem tells_flowPump (k n : Nat) (hjoined : joined s) : Tells s (s.flowPump k n) := by
  induction n generalizing s with
  | zero => exact Tells.refl s
  | succ n ih =>
    unfold State.flowPump
    split
    · exact Tells.refl s
    · split
      · exact Tells.refl s
      · split
        · exact Tells.refl s
        · next pk rest _ _ =>
          have hmod := tells_modFlow (s := s) k (fun x => { x with queued := rest, unacked := x.unacked ++ [pk] })
          have hroute := hmod.trans (tells_routeFrame (hmod.still_joined hjoined) pk.frame)
          exact hroute.trans (ih (hroute.still_joined hjoined))

theorem tells_sendMsg (hjoined : joined s) (part epoch set peer seg : Nat) (m : FabMsg) : Tells s (s.sendMsg part epoch set peer seg m) := by
  unfold State.sendMsg
  dsimp only
  have hopen : Tells s (if (smapFind s.fab.flows (txKey set peer)).isSome then s
      else s.modFlow (txKey set peer) (fun _ => { part := part, peer := peer, ctx := set % 16384, epoch := epoch, engine := some set })) := by
    split
    · exact Tells.refl s
    · exact tells_modFlow ..
  have hqueued := hopen.trans (tells_forAll (List.range (ceilDiv m.bytes.length 512)) _ (fun t _ i => tells_modFlow (s := t) (txKey set peer) (fun fl =>
    { fl with nextTx := (fl.nextTx + 1) % 2 ^ 32,
              queued := fl.queued ++ [{ frame := t.flowFrame fl 1 0 1 fl.nextTx (engineArg set seg) ((m.bytes.drop (512 * i)).take 512) }] }))
    (hopen.still_joined hjoined))
  exact hqueued.trans (tells_flowPump _ _ (hqueued.still_joined hjoined))

theorem tells_outerSay (index : Nat) (payload : List Byte) : Tells s (s.outerSay index payload) := by
  unfold State.outerSay
  dsimp only
  split
  · exact tells_broadcast _
  · split
    · exact tells_linkSend ..
    · exact Tells.refl s

theorem tells_beginRound (step : Nat) : Tells s (s.beginRound step) := by
  unfold State.beginRound
  dsimp only
  split
  · exact tells_modBcn _
  · split
    · exact (tells_modBcn _).trans (tells_of_events (onlyEvents_post _ _))
    · exact (tells_modBcn _).trans (tells_broadcast _)

theorem tells_resume : Tells s s.resume := by
  unfold State.resume
  split
  · split
    · exact tells_beginRound _
    · exact Tells.refl _
  · exact Tells.refl _

/-- The island's outer state is another one. -/
def nowIn (v : Nat) (o : OuterIsland) : OuterIsland := { o with state := v, holdSeen := o.holdSeen || v == 4 }

theorem tells_outerBecomes (v : Nat) : Tells (s.modOuter (nowIn v)) (s.outerBecomes v) := by
  unfold State.outerBecomes
  dsimp only
  split
  · exact tells_resume (s := s.modOuter (nowIn v))
  · exact Tells.refl _

/-- A change of the island's state by the keeper changes that state and tells it. -/
theorem tells_keeperSays (v : Nat) (rejoin : Bool) : Tells (s.modOuter (nowIn v)) (s.keeperSays v rejoin) := by
  unfold State.keeperSays
  dsimp only
  have hnoted : Tells s (if v = 4 then s.event 9 3 (s.trainPart.getD 16) 0 [] else s) := by
    split
    · exact tells_of_events (onlyEvents_event ..)
    · exact Tells.refl s
  exact ((hnoted.modOuter (nowIn v)).trans (tells_outerBecomes v)).trans (tells_outerSay ..)

theorem OnlyRounds.mem_fields (h : OnlyRounds s t) : t.mem = s.mem ∧ t.fields = s.fields ∧ t.outer = s.outer := by
  rw [h.1]
  exact ⟨rfl, rfl, rfl⟩

/-! ### Transfers on their way -/

/-- The outer loop reacts, and the fabric's links stay as they are. -/
def Relays (s t : State) : Prop := Reacts s t ∧ SameLinks s t

theorem Relays.refl (s : State) : Relays s s := ⟨Reacts.refl s, SameLinks.refl s⟩

theorem Relays.trans (h : Relays s t) (k : Relays t u) : Relays s u := ⟨h.1.trans k.1, h.2.trans k.2⟩

theorem Relays.still_joined (h : Relays s t) (hjoined : joined s) : joined t := h.1.rest.still_joined h.2 hjoined

theorem Tells.relays (h : Tells s t) : Relays s t :=
  ⟨reacts_of_same (by unfold SameRest; rw [h.1]) (by unfold SameOuter; rw [h.1]) (by unfold SameLnt; rw [h.1]) (by rw [h.1]), h.2⟩

theorem relays_modOuter (g : OuterIsland → OuterIsland) (houter : SameOuter s (s.modOuter g)) (hsent : (g s.outer).sent = s.outer.sent) :
    Relays s (s.modOuter g) := ⟨reacts_modOuter g houter hsent, sameLinks_of_ports rfl⟩

theorem modOut_only (f gid : Nat) (g : OuterGroup → OuterGroup) : s.modOut f gid g = { s with fields := (s.modOut f gid g).fields } := modGroup_only ..

theorem relays_modOut (f gid : Nat) (g : OuterGroup → OuterGroup) : Relays s (s.modOut f gid g) := by
  have honly := modOut_only (s := s) f gid g
  generalize s.modOut f gid g = v at *
  rw [honly]
  exact ⟨reacts_of_same rfl rfl rfl rfl, sameLinks_of_ports rfl⟩

/-- Along a list, with no ring shut both ways. -/
theorem relays_forAll {α : Type} (xs : List α) (g : State → α → State) (hg : ∀ s, joined s → ∀ x, Relays s (g s x)) (hjoined : joined s) :
    Relays s (s.forAll xs g) :=
  forAll_keeps (Relays s) xs g (fun t x _ ht => ht.trans (hg t (ht.still_joined hjoined) x)) s (Relays.refl s)

/-! ### Transfers of this module -/

theorem relays_transferDark (x : Xfer) : Relays s (s.transferDark x) := by
  unfold State.transferDark
  split
  · exact relays_modOut ..
  · split
    · exact relays_modOuter _ rfl rfl
    · exact Relays.refl s

theorem relays_cutTransfer (x : Xfer) : Relays s (s.cutTransfer x) := by
  unfold State.cutTransfer
  split
  · exact relays_transferDark x
  · exact (tells_emit _).relays

/-- A port that is UP changes its flows alone. -/
theorem relays_modFlows {p : Nat} (hup : (s.lport p).state = 4) (g : LntPort → LntPort) (hg : ∀ x, g x = { x with flows := (g x).flows }) :
    Relays s (s.modLport p g) := by
  have hat : ∀ k, (s.modLport p g).lport k = if k = p then g (s.lport p) else s.lport k := modLport_lport s p g
  refine ⟨⟨rfl, rfl, fun k => ?_, fun k hk => ?_, fun e he => .inl he⟩, sameLinks_of_ports rfl⟩
  · rw [hat]
    split
    · next hk => rw [hk]; exact hg _
    · rfl
  · rw [hat, if_neg (fun h : k = p => hk (h ▸ hup))]

theorem relays_modPortFlow {p : Nat} (hup : (s.lport p).state = 4) (f : Nat) (h : LntFlow → LntFlow) : Relays s (s.modLport p (fun y => y.modFlow f h)) :=
  relays_modFlows hup _ (fun _ => rfl)

theorem relays_pokeBytes (a : Nat) (bs : List Byte) : Relays s (s.pokeBytes a bs) := by
  have honly := pokeBytes_only s a bs
  generalize s.pokeBytes a bs = v at *
  rw [honly]
  exact ⟨reacts_of_same rfl rfl rfl rfl, sameLinks_of_ports rfl⟩

theorem relays_lntPump (p f n : Nat) : Relays s (s.lntPump p f n) := by
  induction n generalizing s with
  | zero => exact Relays.refl s
  | succ n ih =>
    unfold State.lntPump
    dsimp only
    split
    · exact Relays.refl s
    · split
      · exact Relays.refl s
      · next k rest _ hroom =>
        have hup : (s.lport p).state = 4 := by
          by_contra hne
          exact hroom (by simp [hne])
        refine Relays.trans ?_ ih
        refine Relays.trans ?_ (tells_emit _).relays
        have hpoke := relays_pokeBytes (s := s) ((s.lport p).slotAddr (s.lport p).freeSend) k.payload
        exact hpoke.trans (relays_modPortFlow (by rw [hpoke.1.port_state]; exact hup) _ _)

/-- A transfer is queued on a flow of a port that is UP, and listed. -/
theorem relays_queueXfer {p : Nat} (hup : (s.lport p).state = 4) (f : Nat) (h : LntFlow → LntFlow) (e : SentXfer) (he : e.port = p) :
    Relays s ((s.modLport p (fun y => y.modFlow f h)).modOuter (fun o => { o with sent := o.sent ++ [e] })) := by
  refine Relays.trans (relays_modPortFlow hup f h) ?_
  generalize hv : s.modLport p (fun y => y.modFlow f h) = v
  have hport : (v.lport p).state = 4 := by
    rw [← hv, modLport_lport, if_pos rfl]
    exact hup
  refine ⟨⟨rfl, rfl, fun _ => rfl, fun _ _ => rfl, fun x hx => ?_⟩, sameLinks_of_ports rfl⟩
  rcases List.mem_append.mp hx with hin | hin
  · exact .inl hin
  · rw [List.mem_singleton.mp hin, he]
    exact .inr hport

theorem relays_lntSend {p : Nat} (hup : (s.lport p).state = 4) (x : Xfer) : Relays s (s.lntSend p x) := by
  unfold State.lntSend
  dsimp only
  exact (relays_queueXfer hup _ _ _ rfl).trans (relays_lntPump ..)

/-- A gateway of this module that counts as UP is in the state UP. -/
theorem up_of_gatesUp {i : Nat} {g : Nat × Nat} (hg : g ∈ s.gatesUp i) (hown : g.1 = s.place.moduleId) : (s.lport g.2).state = 4 := by
  unfold State.gatesUp at hg
  split at hg
  · have hcond := (List.mem_filter.mp hg).2
    rw [if_pos hown] at hcond
    simp only [Bool.and_eq_true, beq_iff_eq] at hcond
    exact hcond.1.1
  · cases hg

theorem relays_sendXfer (hjoined : joined s) (x : Xfer) : Relays s (s.sendXfer x) := by
  unfold State.sendXfer
  dsimp only
  split
  · exact relays_cutTransfer x
  · next g hg =>
    split
    · next hown => exact relays_lntSend (up_of_gatesUp (List.mem_of_getElem? hg) hown) x
    · exact (tells_sendMsg hjoined ..).relays

/-! ### The island's state -/

theorem relays_keeperSays (v : Nat) (rejoin : Bool) : Relays s (s.keeperSays v rejoin) :=
  Relays.trans (t := s.modOuter (nowIn v)) (relays_modOuter _ rfl rfl) (tells_keeperSays v rejoin).relays

theorem relays_ask (hjoined : joined s) (i : Nat) : Relays s (s.ask i) := by
  unfold State.ask State.sendStatus
  dsimp only
  have hasked : Relays s (s.modOuter (fun o => { o with asked := o.asked.filter (fun e => e.island != i) ++ [{ island := i, own := s.standing i }] })) :=
    relays_modOuter _ rfl rfl
  exact hasked.trans (relays_sendXfer (hasked.still_joined hjoined) _)

/-! ### Fetches -/

theorem reacts_contribute (op key index step : Nat) (payload : List Byte) : Reacts s (s.contribute op key index step payload) := by
  unfold State.contribute State.takePart
  split
  · exact reacts_of_rounds ((onlyRounds_joinRound _ _).trans onlyRounds_fillRounds)
  · exact (tells_modBcn _).relays.1

theorem reacts_checkGathered : Reacts s s.checkGathered := by
  unfold State.checkGathered
  dsimp only
  split
  · exact Reacts.trans (t := s.modOuter (fun o => { o with gathered := true })) (reacts_modOuter _ rfl rfl) (reacts_contribute ..)
  · exact Reacts.refl s

/-- The transfers by which a fetch begins. -/
def fetchAsks (s : State) (i : Nat) : State :=
  let s1 := s.modOuter (fun o => { o with source := some i, gathered := false, refetch := false, install := none })
  s1.forAll s.outerGroups (fun s k => (s.modOut k.1 k.2 (fun x => { x with fetched := none })).sendXfer
    { typ := 3, srcIsland := s.place.islandId, dstIsland := i, fmt := 0, round := 0, base := 0, item := s.keyOf k.1 k.2,
      srcModule := s.place.moduleId, attempt := 0, payload := outerHeader 0 false 0 0 0 0 0 })

theorem startFetch_eq (i : Nat) : s.startFetch i = (fetchAsks s i).checkGathered := rfl

theorem relays_fetchAsks (hjoined : joined s) (i : Nat) : Relays s (fetchAsks s i) := by
  have hset : Relays s (s.modOuter (fun o => { o with source := some i, gathered := false, refetch := false, install := none })) := relays_modOuter _ rfl rfl
  refine hset.trans (relays_forAll _ _ (fun t ht k => ?_) (hset.still_joined hjoined))
  have hout := relays_modOut (s := t) k.1 k.2 (fun x => { x with fetched := none })
  exact hout.trans (relays_sendXfer (hout.still_joined ht) _)

theorem reacts_startFetch (hjoined : joined s) (i : Nat) : Reacts s (s.startFetch i) := by
  rw [startFetch_eq]
  exact (relays_fetchAsks hjoined i).1.trans reacts_checkGathered

theorem reacts_restartFetch (hjoined : joined s) : Reacts s s.restartFetch := by
  unfold State.restartFetch
  split
  · exact reacts_modOuter _ rfl rfl
  · next i _ =>
    dsimp only
    have hsource : Relays s (s.modOuter (fun o => { o with source := some i, rhoSrc := none })) := relays_modOuter _ rfl rfl
    have hasked : Relays s (if s.isKeeper then ((s.modOuter (fun o => { o with source := some i, rhoSrc := none })).keeperState 1).ask i
        else s.modOuter (fun o => { o with source := some i, rhoSrc := none })) := by
      split
      · have hsaid := hsource.trans (relays_keeperSays 1 false)
        exact hsaid.trans (relays_ask (hsaid.still_joined hjoined) i)
      · exact hsource
    exact hasked.1.trans (reacts_startFetch (hasked.still_joined hjoined) i)

/-- Partners that returned have been asked, and are forgotten. -/
def askedBack (s : State) : State :=
  let s0 := s.modOuter (fun o => { o with returned := [] })
  if s.isKeeper then s0.forAll (s.outer.returned.filter (fun i => s.partners.contains i)) (fun s i => s.ask i) else s0

theorem outerReact_eq : s.outerReact =
    if s.outer.fed.isNone || s.outer.state = 0 then s.modOuter (fun o => { o with returned := [] })
    else if s.outer.state = 1 then
      (if (askedBack s).outer.lostSource && (askedBack s).outer.install.isNone && (s.isKeeper || (askedBack s).outer.source.isSome) then (askedBack s).restartFetch
       else askedBack s)
    else if s.isKeeper && (askedBack s).lit.isEmpty && s.outer.state = 2 then (askedBack s).keeperState 3 else askedBack s := rfl

theorem relays_clearReturned : Relays s (s.modOuter (fun o => { o with returned := [] })) := relays_modOuter _ rfl rfl

theorem relays_askedBack (hjoined : joined s) : Relays s (askedBack s) := by
  unfold askedBack
  dsimp only
  split
  · exact relays_clearReturned.trans (relays_forAll _ _ (fun _ h i => relays_ask h i) (relays_clearReturned.still_joined hjoined))
  · exact relays_clearReturned

theorem reacts_outerReact (hjoined : joined s) : Reacts s s.outerReact := by
  have hasked := relays_askedBack hjoined
  rw [outerReact_eq]
  split
  · exact relays_clearReturned.1
  · generalize askedBack s = v at *
    split
    · split
      · exact hasked.1.trans (reacts_restartFetch (hasked.still_joined hjoined))
      · exact hasked.1
    · split
      · exact hasked.1.trans (relays_keeperSays 3 false).1
      · exact hasked.1

/-! ### What stays of fields and memory -/

theorem fields_lntPump (p f n : Nat) : (s.lntPump p f n).fields = s.fields := by
  induction n generalizing s with
  | zero => rfl
  | succ n ih =>
    unfold State.lntPump
    dsimp only
    split
    · rfl
    · split
      · rfl
      · next k rest _ _ =>
        have hpoke := pokeBytes_only s ((s.lport p).slotAddr (s.lport p).freeSend) k.payload
        rw [ih]
        show (s.pokeBytes ((s.lport p).slotAddr (s.lport p).freeSend) k.payload).fields = s.fields
        rw [hpoke]

theorem fields_lntSend (p : Nat) (x : Xfer) : (s.lntSend p x).fields = s.fields := fields_lntPump ..

/-- A transfer that is no UP one leaves the fields. -/
theorem fields_sendXfer (hjoined : joined s) {x : Xfer} (htyp : x.typ ≠ 0) : (s.sendXfer x).fields = s.fields := by
  unfold State.sendXfer
  dsimp only
  split
  · unfold State.cutTransfer State.transferDark
    rw [if_neg htyp]
    split
    · split <;> rfl
    · rfl
  · split
    · exact fields_lntSend ..
    · exact (tells_sendMsg hjoined ..).fields

theorem mem_cutTransfer (x : Xfer) : (s.cutTransfer x).mem = s.mem := by
  unfold State.cutTransfer State.transferDark
  split
  · split
    · rw [modOut_only]
    · split <;> rfl
  · rfl

/-- No gateway of this module is UP for a partner. -/
def NoOwnGate (s : State) (i : Nat) : Prop := ∀ y ∈ s.gatesUp i, y.1 ≠ s.place.moduleId

theorem NoOwnGate.reacts {i : Nat} (h : NoOwnGate s i) (hreacts : Reacts s t) : NoOwnGate t i := by
  unfold NoOwnGate
  rw [hreacts.gatesUp, hreacts.place]
  exact h

/-- A transfer that leaves by another module touches no memory here. -/
theorem mem_sendXfer (hjoined : joined s) {x : Xfer} (hnone : NoOwnGate s x.dstIsland) : (s.sendXfer x).mem = s.mem := by
  unfold State.sendXfer
  dsimp only
  split
  · exact mem_cutTransfer x
  · next g hg =>
    rw [if_neg (hnone g (List.mem_of_getElem? hg))]
    exact (tells_sendMsg hjoined ..).mem

theorem fields_ask (hjoined : joined s) (i : Nat) : (s.ask i).fields = s.fields := by
  unfold State.ask State.sendStatus
  refine (fields_sendXfer ?_ (by show (2 : Nat) ≠ 0; decide)).trans rfl
  exact (relays_modOuter (s := s) (fun o => { o with asked := o.asked.filter (fun e => e.island != i) ++ [{ island := i, own := s.standing i }] })
    rfl rfl).still_joined hjoined

theorem mem_ask (hjoined : joined s) {i : Nat} (hnone : NoOwnGate s i) : (s.ask i).mem = s.mem := by
  have hasked : Relays s (s.modOuter (fun o => { o with asked := o.asked.filter (fun e => e.island != i) ++ [{ island := i, own := s.standing i }] })) :=
    relays_modOuter _ rfl rfl
  unfold State.ask State.sendStatus
  exact (mem_sendXfer (hasked.still_joined hjoined) (hnone.reacts hasked.1)).trans rfl

/-- Along a list, what reacts and keeps something of the state that stays while nothing else is at work. -/
theorem forAll_relays_keeps {α β : Type} (get : State → β) (xs : List α) (g : State → α → State) (hg : ∀ t, joined t → ∀ x, Relays t (g t x))
    (hjoined : joined s) (hkeeps : ∀ t, Relays s t → ∀ x ∈ xs, get (g t x) = get t) : get (s.forAll xs g) = get s :=
  (forAll_keeps (fun t => Relays s t ∧ get t = get s) xs g
    (fun t x hx ht => ⟨ht.1.trans (hg t (ht.1.still_joined hjoined) x), (hkeeps t ht.1 x hx).trans ht.2⟩) s ⟨Relays.refl s, rfl⟩).2

theorem fields_askedBack (hjoined : joined s) : (askedBack s).fields = s.fields := by
  have hclear := relays_clearReturned (s := s)
  unfold askedBack
  dsimp only
  split
  · exact forAll_relays_keeps State.fields _ _ (fun _ h i => relays_ask h i) (hclear.still_joined hjoined)
      (fun t ht i _ => fields_ask (ht.still_joined (hclear.still_joined hjoined)) i)
  · rfl

theorem mem_askedBack (hjoined : joined s) (hnone : ∀ i ∈ s.outer.returned, NoOwnGate s i) : (askedBack s).mem = s.mem := by
  have hclear := relays_clearReturned (s := s)
  unfold askedBack
  dsimp only
  split
  · exact forAll_relays_keeps State.mem _ _ (fun _ h i => relays_ask h i) (hclear.still_joined hjoined)
      (fun t ht i hi => mem_ask (ht.still_joined (hclear.still_joined hjoined)) ((hnone i (List.mem_filter.mp hi).1).reacts (hclear.trans ht).1))
  · rfl

/-- But in JOINING, the island that reacts leaves the fields. -/
theorem fields_outerReact (hjoined : joined s) (hstate : s.outer.state ≠ 1) : s.outerReact.fields = s.fields := by
  have hasked := fields_askedBack hjoined
  rw [outerReact_eq]
  split
  · rfl
  · split
    · exact (tells_keeperSays 3 false).fields.trans hasked
    · exact hasked

theorem mem_outerReact (hjoined : joined s) (hstate : s.outer.state ≠ 1) (hnone : ∀ i ∈ s.outer.returned, NoOwnGate s i) : s.outerReact.mem = s.mem := by
  have hasked := mem_askedBack hjoined hnone
  rw [outerReact_eq]
  split
  · rfl
  · split
    · exact (tells_keeperSays 3 false).mem.trans hasked
    · exact hasked

/-- Changing the outer registration of a group changes that group alone. -/
theorem groupStep_modOut {f gid : Nat} {g : Group} {o : OuterGroup} (h : OuterGroup → OuterGroup) (hg : s.group f gid = some g) (ho : g.outer = some o) :
    GroupStep s (s.modOut f gid h) f gid { g with outer := some (h o) } := by
  have hstep := groupStep_modGroup s f gid g (fun x => { x with outer := x.outer.map h }) hg
  rw [ho] at hstep
  exact hstep

theorem groupStep_of_fields {f gid : Nat} {g : Group} (h : GroupStep s t f gid g) (hfields : u.fields = t.fields) : GroupStep s u f gid g := by
  unfold GroupStep State.group State.fld at *
  rw [hfields]
  exact h

end

end Sys2Proof.Proofs
end

section
/-! PROOFS. The lantern ports and their sessions: optics, links, HELLO, attestation, loss and close (O59). -/

namespace Sys2Proof.Proofs

open Sys2Proof.Machine Sys2Proof.Laws

section

variable {s t u : State}

/-! ### The view of partners -/

/-- The view of partners changes: which gateways and partners are reached, and what follows from it. -/
structure Views (s t : State) : Prop where
  rest : SameRest s t
  fields : t.fields = s.fields
  mem : t.mem = s.mem
  lnt : SameLnt s t
  links : SameLinks s t
  outer : t.outer = { s.outer with gwUp := t.outer.gwUp, dark := t.outer.dark, returned := t.outer.returned, asked := t.outer.asked }

theorem Views.refl (s : State) : Views s s := ⟨rfl, rfl, rfl, rfl, SameLinks.refl s, rfl⟩

theorem Views.trans (h : Views s t) (k : Views t u) : Views s u where
  rest := h.rest.trans k.rest
  fields := k.fields.trans h.fields
  mem := k.mem.trans h.mem
  lnt := h.lnt.trans k.lnt
  links := h.links.trans k.links
  outer := by rw [k.outer, h.outer]

theorem views_of_events (h : OnlyEvents s t) : Views s t :=
  ⟨(reacts_of_events h).rest, by rw [h.1], by rw [h.1], sameLnt_of_events h, sameLinks_of_events h, by rw [h.1]⟩

theorem views_floodFrom (e : Option Nat) (f : FlareFrame) : Views s (s.floodFrom e f) := by
  have honly := onlySends_floodFrom e f s
  exact ⟨(reacts_of_sends honly).rest, by rw [honly], by rw [honly], sameLnt_of_sends honly, sameLinks_flareAll _ _ _, by rw [honly]⟩

/-- The view of partners before its events. -/
def seenDark (o : OuterIsland) : OuterIsland :=
  let new := (List.range 16).filter o.isDark
  let gone := new.filter (fun i => !o.dark.testBit i)
  let back := (List.range 16).filter (fun i => o.dark.testBit i && !o.isDark i && (o.routes.map (fun r => r.island)).contains i)
  { o with dark := new.foldl (fun a i => a + 2 ^ i) 0, returned := o.returned.filter (fun i => !gone.contains i) ++ back,
           asked := o.asked.filter (fun e => !gone.contains e.island) }

theorem refreshDark_events : OnlyEvents (s.modOuter seenDark) s.refreshDark := by
  unfold State.refreshDark
  dsimp only
  refine OnlyEvents.trans (t := State.forAll (s.modOuter seenDark) _ _) ?_ (onlyEvents_forAll _ _ (fun _ _ => onlyEvents_event ..) _)
  exact onlyEvents_forAll _ _ (fun _ _ => onlyEvents_event ..) _

theorem views_refreshDark : Views s s.refreshDark :=
  Views.trans (t := s.modOuter seenDark) ⟨rfl, rfl, rfl, rfl, SameLinks.refl s, rfl⟩ (views_of_events refreshDark_events)

theorem gwUp_refreshDark : s.refreshDark.outer.gwUp = s.outer.gwUp := by rw [refreshDark_events.1]; rfl

theorem views_modGwUp (xs : List (Nat × Nat × Nat)) : Views s (s.modOuter (fun o => { o with gwUp := xs })) := ⟨rfl, rfl, rfl, rfl, SameLinks.refl s, rfl⟩

/-- The gateways that are UP after a change of one. -/
def gwAfter (gs : List (Nat × Nat × Nat)) (g : Nat × Nat × Nat) (up : Bool) : List (Nat × Nat × Nat) :=
  if up then (if gs.contains g then gs else gs ++ [g]) else gs.filter (fun x => x != g)

theorem gateway_spec (p island : Nat) (up : Bool) :
    Views s (s.gateway p island up) ∧ (s.gateway p island up).outer.gwUp = gwAfter s.outer.gwUp (island, s.place.moduleId, p) up := by
  have hset := views_modGwUp (s := s) (gwAfter s.outer.gwUp (island, s.place.moduleId, p) up)
  generalize hu : s.modOuter (fun o => { o with gwUp := gwAfter s.outer.gwUp (island, s.place.moduleId, p) up }) = u at *
  have hview := views_refreshDark (s := u)
  have hgw := gwUp_refreshDark (s := u)
  have hform : s.gateway p island up = u.refreshDark.floodFrom none (u.partnerFrame island s.place.moduleId p (!up)) := by
    rw [← hu]
    rfl
  rw [hform]
  refine ⟨(hset.trans hview).trans (views_floodFrom ..), ?_⟩
  rw [onlySends_floodFrom none (u.partnerFrame island s.place.moduleId p (!up)) u.refreshDark, hgw, ← hu]
  rfl

theorem Views.place (h : Views s t) : t.place = s.place := by rw [h.rest]

theorem Views.sent (h : Views s t) : t.outer.sent = s.outer.sent := by rw [h.outer]

/-! ### The end of a session -/

/-- What cutting transfers of a session changes. -/
def OnlyCuts (s t : State) : Prop := t = { s with fields := t.fields, outbox := t.outbox, outer := { s.outer with refetch := t.outer.refetch } }

theorem OnlyCuts.refl (s : State) : OnlyCuts s s := rfl

theorem OnlyCuts.trans (h : OnlyCuts s t) (k : OnlyCuts t u) : OnlyCuts s u := by
  unfold OnlyCuts at *
  rw [k, h]

theorem onlyCuts_cutTransfer (x : Xfer) : OnlyCuts s (s.cutTransfer x) := by
  unfold State.cutTransfer State.transferDark
  split
  · split
    · unfold OnlyCuts State.modOut
      rw [modGroup_only]
    · split
      · rfl
      · rfl
  · rfl

/-- The session of a port has gone from it, and its transfers from the list. -/
def sessionGone (s : State) (p : Nat) : State :=
  (s.modLport p (fun x => { x with live := false, flowCount := 0, flows := [], session := 0 })).modOuter (fun o =>
    { o with sent := o.sent.filter (fun t => t.port != p) })

theorem dropSession_of_live {p : Nat} (h : (s.lport p).live = true) : OnlyCuts (sessionGone s p) (s.dropSession p) := by
  have hform : s.dropSession p = (sessionGone s p).forAll (s.outer.sent.filter (fun t => t.port == p)) (fun s t => s.cutTransfer t.x) :=
    if_neg (by rw [h]; decide)
  rw [hform]
  exact forAll_keeps (OnlyCuts (sessionGone s p)) _ _ (fun t x _ ht => ht.trans (onlyCuts_cutTransfer x.x)) _ (OnlyCuts.refl _)

theorem dropSession_of_dead {p : Nat} (h : (s.lport p).live = false) : s.dropSession p = s := if_pos (by rw [h]; rfl)

/-- One port stands as `x`, the other ports as they were, and outside the lantern only what the outer loop works with has changed. -/
structure PortNow (s t : State) (p : Nat) (x : LntPort) : Prop where
  rest : SameRest s t
  links : SameLinks s t
  at_port : t.lport p = x
  others : ∀ k, k ≠ p → t.lport k = s.lport k

theorem PortNow.refl (s : State) (p : Nat) : PortNow s s p (s.lport p) := ⟨rfl, SameLinks.refl s, rfl, fun _ _ => rfl⟩

theorem PortNow.modLport {p : Nat} {x : LntPort} (h : PortNow s t p x) (g : LntPort → LntPort) : PortNow s (t.modLport p g) p (g x) where
  rest := h.rest.trans rfl
  links := h.links.trans (sameLinks_of_ports rfl)
  at_port := by rw [modLport_lport, if_pos rfl, h.at_port]
  others k hk := by rw [modLport_lport, if_neg hk, h.others k hk]

theorem PortNow.of_rest {p : Nat} {x : LntPort} (h : PortNow s t p x) (hrest : SameRest t u) (hlinks : SameLinks t u) (hlnt : SameLnt t u) :
    PortNow s u p x where
  rest := h.rest.trans hrest
  links := h.links.trans hlinks
  at_port := (hlnt.lport p).trans h.at_port
  others k hk := (hlnt.lport k).trans (h.others k hk)

theorem PortNow.views {p : Nat} {x : LntPort} (h : PortNow s t p x) (hviews : Views t u) : PortNow s u p x :=
  h.of_rest hviews.rest hviews.links hviews.lnt

theorem PortNow.events {p : Nat} {x : LntPort} (h : PortNow s t p x) (hev : OnlyEvents t u) : PortNow s u p x := h.views (views_of_events hev)

theorem PortNow.still_joined {p : Nat} {x : LntPort} (h : PortNow s t p x) (hjoined : joined s) : joined t := h.rest.still_joined h.links hjoined

theorem PortNow.place {p : Nat} {x : LntPort} (h : PortNow s t p x) : t.place = s.place := by rw [h.rest]

theorem PortNow.tiles {p : Nat} {x : LntPort} (h : PortNow s t p x) : t.tiles = s.tiles := by rw [h.rest]

/-- No transfer is listed for a port. -/
def NoneSent (s : State) (p : Nat) : Prop := ∀ e ∈ s.outer.sent, e.port ≠ p

/-- No transfer joins the list of a port that is not UP. -/
theorem NoneSent.reacts {p : Nat} (h : NoneSent s p) (hdown : (s.lport p).state ≠ 4) (hreacts : Reacts s t) : NoneSent t p := by
  intro e he hp
  rcases hreacts.sent e he with hin | hup
  · exact h e hin hp
  · exact hdown (hp ▸ hup)

theorem dropSession_spec {p : Nat} (h : (s.lport p).live = true) :
    PortNow s (s.dropSession p) p { s.lport p with live := false, flowCount := 0, flows := [], session := 0 } ∧ NoneSent (s.dropSession p) p ∧
      (s.dropSession p).outer.gwUp = s.outer.gwUp := by
  have hcuts := dropSession_of_live h
  have hgone := (PortNow.refl s p).modLport (fun x => { x with live := false, flowCount := 0, flows := [], session := 0 })
  have hstart : PortNow s (sessionGone s p) p { s.lport p with live := false, flowCount := 0, flows := [], session := 0 } :=
    hgone.of_rest rfl (sameLinks_of_ports rfl) rfl
  have hnone : NoneSent (sessionGone s p) p := fun e he => by
    have := (List.mem_filter.mp he).2
    simpa using this
  have hgw : (sessionGone s p).outer.gwUp = s.outer.gwUp := rfl
  generalize sessionGone s p = v at *
  generalize s.dropSession p = u at *
  refine ⟨hstart.of_rest ?_ ?_ ?_, ?_, ?_⟩
  · rw [hcuts]
    rfl
  · rw [hcuts]
    exact sameLinks_of_ports rfl
  · rw [hcuts]
    rfl
  · rw [hcuts]
    exact hnone
  · rw [hcuts]
    exact hgw

/-- DARK, as a port without a session enters it. -/
def darkPort (x : LntPort) : LntPort := { x with state := if x.state = 0 then 0 else 5, darkSeen := true, own := none, peer := none, session := 0 }

theorem darkPort_not_up (x : LntPort) : (darkPort x).state ≠ 4 := by
  unfold darkPort
  dsimp only
  split <;> omega

theorem goDark_spec {p : Nat} {x : LntPort} (hdrop : PortNow s (s.dropSession p) p x) :
    PortNow s (s.goDark p) p (darkPort x) ∧ (s.goDark p).outer = (s.dropSession p).outer := by
  have hdark := hdrop.modLport darkPort
  have hev : OnlyEvents ((s.dropSession p).modLport p darkPort) (s.goDark p) := onlyEvents_event ..
  refine ⟨hdark.events hev, ?_⟩
  rw [hev.1]
  rfl

/-! ### UP -/

theorem foldl_pokeBytes_only {α : Type} (xs : List α) (a : α → Nat) (b : α → List Byte) (s : State) :
    xs.foldl (fun s k => s.pokeBytes (a k) (b k)) s = { s with mem := (xs.foldl (fun s k => s.pokeBytes (a k) (b k)) s).mem } := by
  induction xs generalizing s with
  | nil => rfl
  | cons x xs ih =>
    have hone := pokeBytes_only s (a x) (b x)
    have hrest := ih (s.pokeBytes (a x) (b x))
    rw [List.foldl_cons]
    generalize xs.foldl (fun s k => s.pokeBytes (a k) (b k)) (s.pokeBytes (a x) (b x)) = v at *
    generalize s.pokeBytes (a x) (b x) = w at *
    rw [hrest, hone]

/-- The windows take their new place: the waiting settings are in force. -/
theorem moveWindows_spec (p : Nat) : PortNow s (s.moveWindows p) p { s.lport p with set := (s.lport p).pend } ∧ (s.moveWindows p).outer = s.outer := by
  unfold State.moveWindows
  dsimp only
  split
  · exact ⟨(PortNow.refl s p).modLport (fun _ => _), rfl⟩
  · generalize hv : List.foldl _ s _ = v
    have honly : v = { s with mem := v.mem } := by
      rw [← hv]
      exact foldl_pokeBytes_only _ _ _ s
    refine ⟨((PortNow.refl s p).of_rest (u := v) ?_ ?_ ?_).modLport (fun _ => _), ?_⟩
    · rw [honly]
      rfl
    · rw [honly]
      exact sameLinks_of_ports rfl
    · rw [honly]
      rfl
    · rw [honly]
      rfl

/-- The port UP, before its gateway is told and its flows go on. -/
def upPort (s : State) (p flows : Nat) : State := (s.moveWindows p).modLport p (fun x => { x with state := 4, live := true, flowCount := flows })

theorem outer_modLport (p : Nat) (g : LntPort → LntPort) : (s.modLport p g).outer = s.outer := rfl

/-- Whether the gateways need not be told of an UP port. -/
def knownGate (s : State) (p : Nat) (peer : HelloF) : Bool := s.outer.gwUp.contains (peer.island, s.place.moduleId, p) || !s.ownsLport p

theorem relays_lntPumpAll (p : Nat) (hjoined : joined s) : Relays s (s.lntPumpAll p) :=
  relays_forAll _ _ (fun _ _ f => relays_lntPump p f.1 _) hjoined

/-- The port UP, its gateway told. -/
def upTold (s : State) (p flows : Nat) (peer : HelloF) : State :=
  if knownGate s p peer then upPort s p flows else (upPort s p flows).gateway p peer.island true

theorem goUp_eq (p flows : Nat) (peer : HelloF) : s.goUp p peer flows = ((upTold s p flows peer).lntPumpAll p).outerReact := rfl

/-- The port as a session in force finds it. -/
def sessionPort (x : LntPort) (flows : Nat) : LntPort := { x with set := x.pend, state := 4, live := true, flowCount := flows }

theorem upPort_spec (p flows : Nat) : PortNow s (upPort s p flows) p (sessionPort (s.lport p) flows) ∧ (upPort s p flows).outer = s.outer := by
  obtain ⟨hmoved, houter⟩ := moveWindows_spec (s := s) p
  unfold upPort
  have hup := hmoved.modLport (fun x => { x with state := 4, live := true, flowCount := flows })
  generalize s.moveWindows p = v at *
  generalize s.lport p = x at *
  exact ⟨hup, (outer_modLport p _).trans houter⟩

theorem upTold_spec (p flows : Nat) (peer : HelloF) : PortNow s (upTold s p flows peer) p (sessionPort (s.lport p) flows) ∧
    (upTold s p flows peer).outer.gwUp = if knownGate s p peer then s.outer.gwUp else gwAfter s.outer.gwUp (peer.island, s.place.moduleId, p) true := by
  obtain ⟨hup, houter⟩ := upPort_spec (s := s) p flows
  unfold upTold
  split
  · exact ⟨hup, by rw [houter]⟩
  · obtain ⟨hviews, hgw⟩ := gateway_spec (s := upPort s p flows) p peer.island true
    exact ⟨hup.views hviews, by rw [hgw, houter, hup.place]⟩

theorem goUp_spec (p flows : Nat) (peer : HelloF) (hjoined : joined s) :
    (s.goUp p peer flows).lport p = { sessionPort (s.lport p) flows with flows := ((s.goUp p peer flows).lport p).flows } ∧
    (s.goUp p peer flows).tiles = s.tiles ∧ (s.goUp p peer flows).outer.gwUp =
      if knownGate s p peer then s.outer.gwUp else gwAfter s.outer.gwUp (peer.island, s.place.moduleId, p) true := by
  obtain ⟨hport, hgw⟩ := upTold_spec (s := s) p flows peer
  rw [goUp_eq]
  generalize upTold s p flows peer = v at *
  have hpump := relays_lntPumpAll p (hport.still_joined hjoined)
  have hall := hpump.1.trans (reacts_outerReact (hpump.still_joined (hport.still_joined hjoined)))
  generalize (v.lntPumpAll p).outerReact = w at *
  exact ⟨by rw [hall.port p, hport.at_port], by rw [hall.tiles, hport.tiles], by rw [hall.gwUp, hgw]⟩

/-! ### HELLO -/

theorem length_report (purpose : Nat) (nonce context : List Byte) : (s.report purpose nonce context).length = 448 := by
  unfold State.report
  simp only [List.length_append, length_leBytes, length_padTo, List.length_replicate]

/-- The port knows its peer. -/
def metPort (f : HelloF) (x : LntPort) : LntPort :=
  { x with peer := some f, peerIsland := f.island % 16, peerModule := f.module % 1024, peerPort := f.port % 4 }

/-- The answer to a HELLO of another island. -/
def answered (s : State) (p : Nat) (own f : HelloF) : State :=
  let n := sessionOf own f
  let c := lntContext own f n
  ((s.modLport p (fun x => { x with state := 3, session := n })).emit (.lntAttest p n (s.report 1 c.1 c.2))).signed

/-- Whether a HELLO names another peer than the session that stands. -/
def newPeer (x : LntPort) (f : HelloF) : Bool := x.live && (x.peerIsland != f.island || x.peerModule != f.module || x.peerPort != f.port)

theorem takeHello_eq (p : Nat) (own f : HelloF) : s.takeHello p own f =
    let s1 := (if newPeer (s.lport p) f then (s.dropSession p).outerReact else s).modLport p (metPort f)
    if own.island = f.island then s1.refuse p f (if own.fedTag = f.fedTag then 1 else 0) else answered s1 p own f := rfl

theorem newPeer_same {x : LntPort} {f : HelloF} (h : x.live = false ∨ (x.peerIsland = f.island ∧ x.peerModule = f.module ∧ x.peerPort = f.port)) :
    newPeer x f = false := by
  unfold newPeer
  rcases h with h | ⟨hi, hm, hp⟩
  · rw [h]
    rfl
  · simp [hi, hm, hp]

theorem newPeer_other {x : LntPort} {f : HelloF} (hlive : x.live = true) (h : ¬ (x.peerIsland = f.island ∧ x.peerModule = f.module ∧ x.peerPort = f.port)) :
    newPeer x f = true := by
  unfold newPeer
  rw [hlive]
  simp only [Bool.true_and, Bool.or_eq_true, bne_iff_ne]
  by_contra hc
  push Not at hc
  exact h ⟨hc.1.1, hc.1.2, hc.2⟩

/-! ### Attestation -/

theorem findIdx?_refused {l : List Bool} (h : l.contains false = true) : ∃ c, l.findIdx? (fun ok => !ok) = some c := by
  refine Option.isSome_iff_exists.mp ?_
  rw [List.findIdx?_isSome]
  simpa using h

theorem findIdx?_accepted {l : List Bool} (h : l.contains false = false) : l.findIdx? (fun ok => !ok) = none := by
  rw [List.findIdx?_eq_none_iff]
  intro x hx
  cases x with
  | true => rfl
  | false => simp [hx] at h

end

end Sys2Proof.Proofs
end

section
/-! PROOFS. The obligation about lantern ports and sessions (O59). -/

namespace Sys2Proof.Proofs

open Sys2Proof.Machine Sys2Proof.Laws

section

variable {s : State} {p : Fin 4}

/-- A change of one port, with every other port as it was. -/
theorem lport_modLport (q : Nat) (g : LntPort → LntPort) {y : LntPort} (h : g (s.lport q) = y) (k : Nat) :
    (s.modLport q g).lport k = if k = q then y else s.lport k := by
  rw [modLport_lport, h]

/-! ### Optics and the link -/

theorem linkLost_running {q : Nat} (h : 2 ≤ (s.lport q).state ∧ (s.lport q).state ≤ 5) :
    s.linkLost q = (((s.modLport q (fun x => { x with own := none, peer := none })).trainLport q).lntEvent 5 q []) := if_pos (by simpa using h)

theorem linkLost_out {q : Nat} (h : ¬ (2 ≤ (s.lport q).state ∧ (s.lport q).state ≤ 5)) : s.linkLost q = s.modLport q (fun x => { x with linked := false }) :=
  if_neg (by simpa using h)

/-- A port loses its link: from LINK to DARK it trains anew. -/
def unlinked (x : LntPort) : LntPort :=
  if 2 ≤ x.state ∧ x.state ≤ 5 then { x with state := 1, linked := false, own := none, peer := none } else { x with linked := false }

/-- One port stands as `x`, and outside it only event records and what goes out differ. -/
structure PortOnly (s t : State) (q : Nat) (x : LntPort) : Prop where
  frame : t = { s with lnt := t.lnt, host := t.host, hostMem := t.hostMem, outbox := t.outbox }
  ports : ∀ k, t.lport k = if k = q then x else s.lport k

theorem PortOnly.events {q : Nat} {x : LntPort} {t u : State} (h : PortOnly s t q x) (hev : OnlyEvents t u) : PortOnly s u q x where
  frame := by rw [hev.1, h.frame]
  ports k := ((sameLnt_of_events hev).lport k).trans (h.ports k)

theorem portOnly_modLport (q : Nat) (g : LntPort → LntPort) : PortOnly s (s.modLport q g) q (g (s.lport q)) := ⟨rfl, lport_modLport q g rfl⟩

theorem PortOnly.modLport {q : Nat} {x : LntPort} {t : State} (h : PortOnly s t q x) (g : LntPort → LntPort) : PortOnly s (t.modLport q g) q (g x) where
  frame := h.frame ▸ rfl
  ports k := by
    rw [modLport_lport, h.ports q, if_pos rfl]
    split
    · rfl
    · next hk => rw [h.ports k, if_neg hk]

theorem linkLost_spec (q : Nat) : PortOnly s (s.linkLost q) q (unlinked (s.lport q)) := by
  unfold unlinked
  split
  · next h =>
    rw [linkLost_running h]
    have hgone := portOnly_modLport (s := s) q (fun x => { x with own := none, peer := none })
    have htrain := hgone.modLport (fun x => { x with state := 1, linked := false })
    generalize s.modLport q (fun x => { x with own := none, peer := none }) = v at *
    have hsent : PortOnly s (v.trainLport q) q { s.lport q with state := 1, linked := false, own := none, peer := none } :=
      htrain.events (onlyEvents_emit ..)
    exact hsent.events (onlyEvents_event ..)
  · next h =>
    rw [linkLost_out h]
    exact portOnly_modLport q (fun x => { x with linked := false })

/-- A port refuses its peer: REFUSED, and an event. -/
theorem refuse_spec (q c : Nat) (f : HelloF) : PortOnly s (s.refuse q f c) q { s.lport q with state := 6, refuseSeen := true } :=
  (portOnly_modLport q (fun x => { x with state := 6, refuseSeen := true })).events (onlyEvents_event ..)

/-- A HELLO goes out, and the port is in LINK. -/
theorem sendHello_spec (q : Nat) :
    s.sendHello q 2 = { s with lnt := (s.sendHello q 2).lnt, fresh := s.fresh + 34, outbox := s.outbox ++ [.lntHello q (s.newHello q)] } ∧
      ∀ k, (s.sendHello q 2).lport k = if k = q then { s.lport q with state := 2, own := some (s.newHello q), peer := none } else s.lport k :=
  ⟨rfl, lport_modLport (s := { s with fresh := s.fresh + 34 }) q (fun x => { x with state := 2, own := some (s.newHello q), peer := none }) rfl⟩

/-! ### Rows out of place -/

theorem exec_lanternLinkUp_lit (h : (s.lport p).state ≠ 0) : exec (.lanternLinkUp p) s =
    .next (if (s.lport p).state = 1 then (s.modLport p (fun x => { x with lanesOk := 4, linked := true })).sendHello p 2
      else s.modLport p (fun x => { x with lanesOk := 4, linked := true })) := if_neg h

theorem exec_helloRetry_dark (h : (s.lport p).state = 5 ∨ (s.lport p).state = 6) :
    exec (.helloRetry p) s = .next (if (s.lport p).linked then s.sendHello p 2 else s.trainLport p) := by
  show execHelloRetry p s = _
  unfold execHelloRetry
  exact if_pos (by simpa using h)

theorem exec_helloRetry_link {own : HelloF} (h : (s.lport p).state = 2) (hown : (s.lport p).own = some own) :
    exec (.helloRetry p) s = .next (s.emit (.lntHello p own)) := by
  show execHelloRetry p s = _
  unfold execHelloRetry
  refine (if_neg (by simp; omega)).trans ((if_pos h).trans ?_)
  rw [hown]

theorem exec_helloRetry_other (h2 : (s.lport p).state ≠ 2) (h5 : (s.lport p).state ≠ 5) (h6 : (s.lport p).state ≠ 6) : exec (.helloRetry p) s = .next s := by
  show execHelloRetry p s = _
  unfold execHelloRetry
  exact (if_neg (by simp; omega)).trans (if_neg h2)

theorem exec_opticsPoll_present (r : OpticsRead) (n : Nat) (h : (s.lport p).present = true) : exec (.opticsPoll p r n) s =
    .next (let s1 := s.modLport p (fun x => { x with losSeen := x.losSeen || r.los, lanesOk := min n 4, modState := r.modState, faults := r.faults })
      if (s.lport p).linked && !r.active then s1.linkLost p else s1) := if_pos h

theorem exec_hello_answers {f own : HelloF} (h : (s.lport p).state = 2) (hown : (s.lport p).own = some own) :
    exec (.hello p f) s = .next ((s.emit (.lntHello p own)).takeHello p own f) := by
  show execHello p f s = _
  unfold execHello
  dsimp only
  rw [if_pos h, hown]

theorem exec_hello_dark {f : HelloF} (h : (s.lport p).state = 5) (hlinked : (s.lport p).linked = true) :
    exec (.hello p f) s = .next ((s.sendHello p 2).takeHello p (s.newHello p) f) := by
  show execHello p f s = _
  unfold execHello
  dsimp only
  rw [if_neg (by omega), if_pos (by simp [h, hlinked])]

theorem exec_attestFrame_out {n : Nat} {report : List Byte} (h : (s.lport p).state < 2 ∨ 5 < (s.lport p).state) : exec (.attestFrame p n report) s = .next s := by
  show execAttestFrame p n report s = _
  unfold execAttestFrame
  exact if_pos (by simpa using h)

theorem exec_attestFrame_illegal {n : Nat} {report : List Byte} (hlow : 2 ≤ (s.lport p).state) (hhigh : (s.lport p).state ≤ 5)
    (hlen : lntLenLegal report.length = false) : exec (.attestFrame p n report) s = .next (s.lntDiscard p) := by
  show execAttestFrame p n report s = _
  unfold execAttestFrame
  dsimp only
  rw [if_neg (by simp; omega), if_pos (by rw [hlen]; rfl)]

theorem exec_attestFrame_stale {n : Nat} {report : List Byte} (hlow : 2 ≤ (s.lport p).state) (hhigh : (s.lport p).state ≤ 5)
    (hlen : lntLenLegal report.length = true) (hn : n ≠ (s.lport p).session) :
    exec (.attestFrame p n report) s = .next (s.modLport p (fun x => { x with staleSeen := true })) := by
  show execAttestFrame p n report s = _
  unfold execAttestFrame
  dsimp only
  rw [if_neg (by simp; omega), if_neg (by rw [hlen]; decide), if_pos (by simpa using hn)]

theorem exec_attestFrame_other {n : Nat} {report : List Byte} (h : (s.lport p).state = 2 ∨ (s.lport p).state = 4 ∨ (s.lport p).state = 5)
    (hlen : lntLenLegal report.length = true) (hn : n = (s.lport p).session) : exec (.attestFrame p n report) s = .next s := by
  show execAttestFrame p n report s = _
  unfold execAttestFrame
  dsimp only
  rw [if_neg (by simp; omega), if_neg (by rw [hlen]; decide), if_neg (by simpa using hn)]
  split
  · omega
  · rfl

/-- A report that the session awaits is judged. -/
theorem exec_attestFrame_judged {n : Nat} {report : List Byte} {own peer : HelloF} (h : (s.lport p).state = 3) (hn : n = (s.lport p).session)
    (hlen : lntLenLegal report.length = true) (hown : (s.lport p).own = some own) (hpeer : (s.lport p).peer = some peer) (flows : Nat)
    (hflows : flows = max 1 (min own.flows peer.flows)) {c : Option Nat} (hc : (s.accepts p own peer n report).findIdx? (fun ok => !ok) = c) :
    exec (.attestFrame p n report) s = .next (c.elim (if s.contextsFree + (if (s.lport p).live then (s.lport p).flowCount else 0) < flows then s.refuse p peer 7
      else s.goUp p peer flows) (s.refuse p peer)) := by
  show execAttestFrame p n report s = _
  unfold execAttestFrame
  dsimp only
  rw [if_neg (by simp; omega), if_neg (by rw [hlen]; decide), if_neg (by simpa using hn)]
  split
  · next own' peer' _ hown' hpeer' =>
    cases hown.symm.trans hown'
    cases hpeer.symm.trans hpeer'
    rw [hc, ← hflows]
    cases c with
    | some c => rfl
    | none => exact (apply_ite Host.Outcome.next _ _ _).symm
  · next hnone => exact (hnone own peer h hown hpeer).elim

theorem exec_attestTimeout_waiting {peer : HelloF} (h : (s.lport p).state = 3) (hpeer : (s.lport p).peer = some peer) :
    exec (.attestTimeout p) s = .next (s.refuse p peer 6) := by
  show execAttestTimeout p s = _
  unfold execAttestTimeout
  rw [h, hpeer]
  rfl

theorem exec_attestTimeout_other (h : (s.lport p).state ≠ 3 ∨ (s.lport p).peer = none) : exec (.attestTimeout p) s = .next s := by
  show execAttestTimeout p s = _
  unfold execAttestTimeout
  split
  · next h3 hpeer =>
    rcases h with h | h
    · exact absurd h3 h
    · rw [h] at hpeer
      cases hpeer
  · rfl

theorem exec_close_out {n : Nat} (h : (s.lport p).state < 2 ∨ 5 < (s.lport p).state) : exec (.close p n) s = .next s := by
  show execClose p n s = _
  unfold execClose
  exact if_pos (by simpa using h)

theorem exec_close_stale {n : Nat} (hlow : 2 ≤ (s.lport p).state) (hhigh : (s.lport p).state ≤ 5) (hn : n ≠ (s.lport p).session) :
    exec (.close p n) s = .next (s.modLport p (fun x => { x with staleSeen := true })) := by
  show execClose p n s = _
  unfold execClose
  dsimp only
  rw [if_neg (by simp; omega), if_pos (by simpa using hn)]

theorem exec_close_session {n : Nat} (hlow : 2 ≤ (s.lport p).state) (hhigh : (s.lport p).state ≤ 5) (hn : n = (s.lport p).session) :
    exec (.close p n) s = if (s.lport p).state = 3 ∨ (s.lport p).state = 4 then .next (s.goDark p).outerReact else .next s := by
  show execClose p n s = _
  unfold execClose
  dsimp only
  rw [if_neg (by simp; omega), if_neg (by simpa using hn)]
  simp only [Bool.or_eq_true, decide_eq_true_eq]

theorem exec_losttouch_none : exec (.losttouch p none) s =
    if s.staleGates p ≠ [] then .next (s.forAll (s.staleGates p) (fun s i => s.gateway p i false)).outerReact
    else if (s.lport p).live then .next ((s.goDark p).gateway p (s.lport p).peerIsland false).outerReact else .next s := by
  show execLosttouch p none s = _
  unfold execLosttouch
  dsimp only
  simp only [Bool.not_eq_true', List.isEmpty_eq_false_iff]

/-! ### Gateways that are no longer reached -/

/-- Every gateway of a list is told of no more. -/
theorem forAll_gateway_spec (q : Nat) (is : List Nat) (s : State) : Views s (s.forAll is (fun s i => s.gateway q i false)) ∧
    ∀ x ∈ (s.forAll is (fun s i => s.gateway q i false)).outer.gwUp, x ∈ s.outer.gwUp ∧ ∀ i ∈ is, x ≠ (i, s.place.moduleId, q) := by
  induction is generalizing s with
  | nil => exact ⟨Views.refl s, fun x hx => ⟨hx, fun i hi => by cases hi⟩⟩
  | cons i is ih =>
    obtain ⟨hone, hgw⟩ := gateway_spec (s := s) q i false
    obtain ⟨hrest, hall⟩ := ih (s.gateway q i false)
    refine ⟨hone.trans hrest, fun x hx => ?_⟩
    obtain ⟨hin, hne⟩ := hall x hx
    rw [hgw] at hin
    obtain ⟨hmem, hx1⟩ := List.mem_filter.mp hin
    refine ⟨hmem, fun j hj => ?_⟩
    rcases List.mem_cons.mp hj with rfl | hj
    · simpa using hx1
    · rw [← hone.place]
      exact hne j hj

/-! ### What the rows do -/

/-- A report that passes has the length of a report. -/
theorem accepts_length {q n : Nat} {own peer : HelloF} {report : List Byte} (h : (s.accepts q own peer n report).contains false = false) :
    report.length = 448 := by
  cases hlen : (report.length == 448) with
  | true => simpa using hlen
  | false =>
    unfold State.accepts at h
    simp [hlen] at h

/-- A gateway of the training job's partition counts as UP once its session is in force. -/
theorem mem_gateways {q : Nat} {peer : HelloF} (howns : s.ownsLport q = true) : (peer.island, s.place.moduleId, q) ∈
    (if knownGate s q peer then s.outer.gwUp else gwAfter s.outer.gwUp (peer.island, s.place.moduleId, q) true) := by
  unfold knownGate gwAfter
  rw [howns]
  by_cases hin : (peer.island, s.place.moduleId, q) ∈ s.outer.gwUp
  · simp [hin]
  · simp [hin]

/-- A port that has just got its optics leaves DOWN where it is ready. -/
theorem present_spec (q : Nat) : let x := s.lport q
    let wakes := decide (x.state = 0 ∧ s.place.placed = true ∧ x.configured = true ∧
      (List.range 16).any (fun k => (s.part k).state != 0 && (s.part k).lports.testBit q) = true)
    let t := (s.modLport q (fun x => { x with present := true })).wakeLport q
    t = { s with lnt := t.lnt, outbox := s.outbox ++ (if wakes then [.dataPath q true] else []) } ∧
      (∀ k, t.lport k = if k = q then { x with present := true, state := if wakes then 1 else x.state, linked := x.linked && !wakes } else s.lport k) := by
  intro x wakes t
  have hpresent := portOnly_modLport (s := s) q (fun x => { x with present := true })
  have hself : (s.modLport q (fun x => { x with present := true })).lport q = { x with present := true } := (hpresent.ports q).trans (if_pos rfl)
  have hready : (((s.modLport q (fun x => { x with present := true })).lport q).state = 0 && (s.modLport q (fun x => { x with present := true })).lportReady q) = wakes := by
    unfold State.lportReady
    rw [hself]
    show (decide (x.state = 0) && (s.place.placed && true && x.configured && (List.range 16).any (fun k => (s.part k).state != 0 && (s.part k).lports.testBit q))) = wakes
    rw [Bool.eq_iff_iff]
    simp only [wakes, Bool.and_eq_true, decide_eq_true_eq]
    tauto
  have hform : t = if wakes then (s.modLport q (fun x => { x with present := true })).trainLport q else s.modLport q (fun x => { x with present := true }) := by
    rw [← hready]
    rfl
  rw [hform]
  cases wakes with
  | true =>
    exact ⟨rfl, fun k => ((hpresent.modLport (fun x => { x with state := 1, linked := false })).ports k).trans (by rw [Bool.not_true, Bool.and_false]; rfl)⟩
  | false =>
    refine ⟨?_, fun k => (hpresent.ports k).trans (by rw [Bool.not_false, Bool.and_true]; rfl)⟩
    rw [if_neg (by decide), if_neg (by decide), List.append_nil]
    rfl

theorem PortOnly.linkLost {q : Nat} {x : LntPort} {t : State} (h : PortOnly s t q x) : PortOnly s (t.linkLost q) q (unlinked x) where
  frame := by
    have hlost := (linkLost_spec (s := t) q).frame
    generalize t.linkLost q = u at *
    rw [hlost, h.frame]
  ports k := by
    rw [(linkLost_spec (s := t) q).ports k, h.ports q, if_pos rfl]
    split
    · rfl
    · next hk => rw [h.ports k, if_neg hk]

/-- The own HELLO has gone out, and the port stands as `y`. -/
structure HelloSent (s w : State) (q : Nat) (own : HelloF) (fresh : Nat) (y : LntPort) : Prop where
  frame : w = { s with lnt := w.lnt, fresh := fresh, outbox := s.outbox ++ [.lntHello q own] }
  ports : ∀ k, w.lport k = if k = q then y else s.lport k

theorem answered_eq (q : Nat) (own f : HelloF) : ∃ report, Proofs.answered s q own f = { s with
    lnt := (Proofs.answered s q own f).lnt, sec := { s.sec with signed := s.sec.signed + 1 }, outbox := s.outbox ++ [.lntAttest q (sessionOf own f) report] } ∧
      report.length = 448 := ⟨_, rfl, length_report ..⟩

/-- A HELLO of another island is answered with a report. -/
theorem HelloSent.answered {w : State} {q fresh : Nat} {own f : HelloF} {y : LntPort} (h : HelloSent s w q own fresh y) (hsame : newPeer y f = false)
    (hne : own.island ≠ f.island) : ∃ report, w.takeHello q own f = { s with
        lnt := (w.takeHello q own f).lnt, fresh := fresh, sec := { s.sec with signed := s.sec.signed + 1 },
        outbox := s.outbox ++ [.lntHello q own, .lntAttest q (sessionOf own f) report] } ∧ report.length = 448 ∧
      (∀ k, (w.takeHello q own f).lport k = if k = q then { metPort f y with state := 3, session := sessionOf own f } else s.lport k) := by
  have hself : w.lport q = y := (h.ports q).trans (if_pos rfl)
  have hform : w.takeHello q own f = Proofs.answered (w.modLport q (metPort f)) q own f := by
    rw [takeHello_eq]
    dsimp only
    rw [if_neg hne, hself, hsame]
    rfl
  have hmet := (portOnly_modLport (s := w) q (metPort f)).modLport (fun x => { x with state := 3, session := sessionOf own f })
  rw [hself] at hmet
  obtain ⟨report, heq, hlen⟩ := answered_eq (s := w.modLport q (metPort f)) q own f
  have hlnt : SameLnt ((w.modLport q (metPort f)).modLport q (fun x => { x with state := 3, session := sessionOf own f })) (w.takeHello q own f) := by
    rw [hform]
    rfl
  rw [← hform] at heq
  generalize w.takeHello q own f = u at *
  refine ⟨report, ?_, hlen, fun k => (hlnt.lport k).trans ((hmet.ports k).trans ?_)⟩
  · generalize u.lnt = l at heq
    have houtbox : w.outbox ++ [OutMsg.lntAttest q (sessionOf own f) report] = s.outbox ++ [.lntHello q own, .lntAttest q (sessionOf own f) report] := by
      rw [h.frame]
      exact List.append_assoc ..
    rw [← houtbox]
    obtain ⟨k, hw⟩ : ∃ k, w = { s with lnt := k, fresh := fresh, outbox := s.outbox ++ [.lntHello q own] } := ⟨_, h.frame⟩
    subst hw
    rw [heq]
    rfl
  · split
    · rfl
    · next hk => rw [h.ports k, if_neg hk]

/-- A HELLO of the own island is refused. -/
theorem HelloSent.refused {w : State} {q fresh : Nat} {own f : HelloF} {y : LntPort} (h : HelloSent s w q own fresh y) (hsame : newPeer y f = false)
    (heq : own.island = f.island) : let t := w.takeHello q own f
    (t.lport q).state = 6 ∧ (t.lport q).refuseSeen = true ∧
      t = { s with lnt := t.lnt, fresh := t.fresh, host := t.host, hostMem := t.hostMem, outbox := t.outbox } ∧ (∀ k, k ≠ q → t.lport k = s.lport k) := by
  intro t
  have hself : w.lport q = y := (h.ports q).trans (if_pos rfl)
  have hform : t = (w.modLport q (metPort f)).refuse q f (if own.fedTag = f.fedTag then 1 else 0) := by
    show w.takeHello q own f = _
    rw [takeHello_eq]
    dsimp only
    rw [if_pos heq, hself, hsame]
    rfl
  have hmet := ((portOnly_modLport (s := w) q (metPort f)).modLport (fun x => { x with state := 6, refuseSeen := true })).events
    (u := t) (by rw [hform]; exact onlyEvents_event ..)
  have hat := (hmet.ports q).trans (if_pos rfl)
  refine ⟨by rw [hat], by rw [hat], ?_, fun k hk => (hmet.ports k).trans ((if_neg hk).trans ((h.ports k).trans (if_neg hk)))⟩
  have hframe := hmet.frame
  generalize t = u at *
  rw [hframe, h.frame]

/-! ### The outer loop after a port has gone -/

theorem outerReact_quiet (h : s.outer.fed = none ∨ s.outer.state = 0 ∨ s.outer.state = 3 ∧ s.outer.returned = []) :
    s.outerReact = { s with outer := { s.outer with returned := [] } } := by
  rw [outerReact_eq]
  split
  · rfl
  · next hon =>
    obtain ⟨hstate, hnone⟩ : s.outer.state = 3 ∧ s.outer.returned = [] := by
      rcases h with h | h | h
      · simp [h] at hon
      · simp [h] at hon
      · exact h
    have hasked : askedBack s = s.modOuter (fun o => { o with returned := [] }) := by
      unfold askedBack
      rw [hnone]
      exact ite_self _
    rw [hasked, if_neg (by omega), if_neg (by rw [hstate]; simp)]
    rfl

theorem outerReact_ended {q : Nat} {x : LntPort} {u : State} (hdown : PortNow s u q (darkPort x)) (hnone : NoneSent u q) (hjoined : joined s) :
    u.outerReact.lport q = darkPort x ∧ NoneSent u.outerReact q ∧ u.outerReact.tiles = s.tiles := by
  have hreacts := reacts_outerReact (hdown.still_joined hjoined)
  have hstate : (u.lport q).state ≠ 4 := by rw [hdown.at_port]; exact darkPort_not_up x
  exact ⟨(hreacts.idle q hstate).trans hdown.at_port, hnone.reacts hstate hreacts, hreacts.tiles.trans hdown.tiles⟩

end

/-- Settles O59: the rows of a port by their equations; the end of a session and a session in force by what they leave of the port, and the outer
loop that reacts by `Reacts`, which leaves ports that are not UP. -/
theorem lanternPortsAndSessions : Obligations.LanternPortsAndSessions := by
  unfold Obligations.LanternPortsAndSessions
  refine ⟨?optics, ?link, ?helloAway, ?hello, ?helloNew, ?attest, ?touchNone, ?touchStale, ?ended, ?closeDead, ?cutUp, ?cutOther, ?quiet⟩
  case optics =>
    intro s p r n x y runs wakes
    refine ⟨fun hpresent => if_neg (by rw [hpresent]; decide), fun hpresent hstays => ?_, fun hpresent hlinked hactive => ?_, ⟨_, rfl, rfl, lport_modLport p _ rfl⟩, ?_⟩
    · rw [exec_opticsPoll_present r n hpresent]
      dsimp only
      rw [if_neg (by rw [Bool.and_eq_true]; rintro ⟨hl, ha⟩; rcases hstays with h | h <;> simp_all [x])]
      exact ⟨_, rfl, rfl, lport_modLport p _ rfl⟩
    · rw [exec_opticsPoll_present r n hpresent]
      dsimp only
      rw [if_pos (by rw [Bool.and_eq_true]; exact ⟨hlinked, by rw [hactive]; rfl⟩)]
      have hread := portOnly_modLport (s := s) p (fun x => { x with losSeen := x.losSeen || r.los, lanesOk := min n 4, modState := r.modState, faults := r.faults })
      have hlost := hread.linkLost
      generalize s.modLport p (fun x => { x with losSeen := x.losSeen || r.los, lanesOk := min n 4, modState := r.modState, faults := r.faults }) = u at *
      refine ⟨_, rfl, hlost.frame, fun k => (hlost.ports k).trans (if_congr Iff.rfl ?_ rfl)⟩
      unfold unlinked
      by_cases hrun : 2 ≤ x.state ∧ x.state ≤ 5
      · rw [if_pos hrun, show runs = true from decide_eq_true hrun]
        rfl
      · rw [if_neg hrun, show runs = false from decide_eq_false hrun]
        rfl
    · obtain ⟨hframe, hports⟩ := present_spec (s := s) p
      exact ⟨_, rfl, hframe, hports⟩
  case link =>
    intro s p n x
    refine ⟨fun hdown => if_pos hdown, fun hon => ?_, fun ev hev => ?_, fun hstate hlinked => ?_, fun hlink own hown => ?_, fun h2 h5 h6 => ?_, fun hlow hhigh => ?_,
      fun hout => ?_⟩
    · have hst : 2 ≤ (s.lport p).state := hon
      exact ⟨_, (exec_lanternLinkUp_lit (by omega)).trans (congrArg Host.Outcome.next (if_neg (by omega))), rfl, lport_modLport p _ rfl⟩
    · rcases hev with ⟨rfl, hstate⟩ | ⟨rfl, hstate, hlinked⟩
      · have hst : (s.lport p).state = 1 := hstate
        have hform := (exec_lanternLinkUp_lit (p := p) (by omega)).trans (congrArg Host.Outcome.next (if_pos hst))
        have hlit := portOnly_modLport (s := s) p (fun x => { x with lanesOk := 4, linked := true })
        have hself := (hlit.ports p).trans (if_pos rfl)
        generalize hu : s.modLport p (fun x => { x with lanesOk := 4, linked := true }) = u at *
        obtain ⟨hframe, hports⟩ := sendHello_spec (s := u) p
        refine ⟨_, u.newHello p, hform, ?_, ?_, ?_, rfl, ?_, ?_, fun k => ?_⟩
        · generalize u.sendHello p 2 = t at *
          rw [hframe, ← hu]
          rfl
        · rw [← hu]; rfl
        · rw [← hu]; rfl
        · rw [← hu]; rfl
        · show (u.lport p).pend.flows = _
          rw [hself]
        · rw [hports, hself, if_pos hstate]
          split
          · rfl
          · next hk => rw [hlit.ports k, if_neg hk]
      · have hst : (s.lport p).state = 5 ∨ (s.lport p).state = 6 := hstate
        obtain ⟨hframe, hports⟩ := sendHello_spec (s := s) p
        refine ⟨_, s.newHello p, (exec_helloRetry_dark hst).trans (congrArg Host.Outcome.next (if_pos hlinked)), hframe, rfl, rfl, rfl, rfl, rfl, fun k => ?_⟩
        rw [hports, if_neg (show ¬ x.state = 1 by show ¬ (s.lport p).state = 1; omega), ← hlinked]
    · have hst : (s.lport p).state = 5 ∨ (s.lport p).state = 6 := hstate
      have hunlit : ¬ (s.lport p).linked = true := by rw [show (s.lport p).linked = false from hlinked]; decide
      exact ⟨_, (exec_helloRetry_dark hst).trans (congrArg Host.Outcome.next (if_neg hunlit)), rfl,
        lport_modLport p (fun x => { x with state := 1, linked := false }) rfl⟩
    · exact exec_helloRetry_link hlink hown
    · exact exec_helloRetry_other h2 h5 h6
    · have hread := portOnly_modLport (s := s) p (fun x => { x with lanesOk := min n 4 })
      have hlost := hread.linkLost
      refine ⟨_, rfl, hlost.frame, fun k => (hlost.ports k).trans (if_congr Iff.rfl ?_ rfl)⟩
      exact if_pos ⟨hlow, hhigh⟩
    · have hst : (s.lport p).state < 2 ∨ 5 < (s.lport p).state := hout
      have hread := portOnly_modLport (s := s) p (fun x => { x with lanesOk := min n 4 })
      have hself := (hread.ports p).trans (if_pos rfl)
      have hexec : exec (.lanternLinkLost p n) s = .next ((s.modLport p (fun x => { x with lanesOk := min n 4 })).linkLost p) := rfl
      rw [linkLost_out (by rw [hself]; show ¬ (2 ≤ (s.lport p).state ∧ (s.lport p).state ≤ 5); omega)] at hexec
      exact ⟨_, hexec, rfl, (hread.modLport (fun x => { x with linked := false })).ports⟩
  case helloAway =>
    intro s p f hlink hdark
    show execHello p f s = _
    unfold execHello
    exact (if_neg hlink).trans (if_neg (by simp; tauto))
  case hello =>
    intro s p f own x hat hsame
    have hnew : newPeer x f = false := newPeer_same hsame
    rcases hat with ⟨hlink, hown⟩ | ⟨hdark, hlinked, rfl⟩
    · have hst : ¬ x.state = 5 := by rw [hlink]; decide
      have hsent : HelloSent s (s.emit (.lntHello p own)) p own s.fresh x := ⟨rfl, fun k => by split <;> simp_all [x]⟩
      refine ⟨fun hne => ?_, fun heq => ?_⟩
      · obtain ⟨report, hframe, hlen, hports⟩ := hsent.answered hnew hne
        rw [if_neg hst]
        refine ⟨_, report, exec_hello_answers hlink hown, hframe, hlen, fun k => (hports k).trans (if_congr Iff.rfl ?_ rfl)⟩
        rw [← hown]
        rfl
      · exact ⟨_, exec_hello_answers hlink hown, hsent.refused hnew heq⟩
    · obtain ⟨hframe, hports⟩ := sendHello_spec (s := s) p
      have hsent : HelloSent s (s.sendHello p 2) p (s.newHello p) (s.fresh + 34) { x with state := 2, own := some (s.newHello p), peer := none } := ⟨hframe, hports⟩
      refine ⟨fun hne => ?_, fun heq => ?_⟩
      · obtain ⟨report, hframe, hlen, hports⟩ := hsent.answered hnew hne
        rw [if_pos hdark]
        exact ⟨_, report, exec_hello_dark hdark hlinked, hframe, hlen, hports⟩
      · exact ⟨_, exec_hello_dark hdark hlinked, hsent.refused hnew heq⟩
  case helloNew =>
    intro s p f own x hlink hown hlive hother hne hjoined hwaits
    obtain ⟨hdrop, hnone, -⟩ := dropSession_spec (s := s.emit (.lntHello p own)) (p := p) hlive
    have hdown : ((State.dropSession (s.emit (.lntHello p own)) p).lport p).state ≠ 4 := by
      rw [hdrop.at_port]
      show x.state ≠ 4
      rw [hlink]
      decide
    have hreacts := reacts_outerReact (hdrop.still_joined hjoined)
    have hafter := hnone.reacts hdown hreacts
    have hport := (hreacts.idle p hdown).trans hdrop.at_port
    have hform : (s.emit (.lntHello p own)).takeHello p own f = answered (((s.emit (.lntHello p own)).dropSession p).outerReact.modLport p (metPort f)) p own f := by
      rw [takeHello_eq]
      dsimp only
      rw [if_neg hne, show newPeer ((s.emit (.lntHello p own)).lport p) f = true from newPeer_other hlive hother, if_pos rfl]
    have htiles : ((s.emit (.lntHello p own)).dropSession p).outerReact.tiles = s.tiles := hreacts.tiles.trans hdrop.tiles
    have hexec := exec_hello_answers (f := f) hlink hown
    rw [hform] at hexec
    generalize ((s.emit (.lntHello p own)).dropSession p).outerReact = u at *
    have hmet := (portOnly_modLport (s := u) p (metPort f)).modLport (fun x => { x with state := 3, session := sessionOf own f })
    have hat := (hmet.ports p).trans (if_pos rfl)
    rw [hport] at hat
    have hanswer : (answered (u.modLport p (metPort f)) p own f).lport p = ((u.modLport p (metPort f)).modLport p (fun x =>
      { x with state := 3, session := sessionOf own f })).lport p := rfl
    rw [hat] at hanswer
    have hsent : NoneSent (answered (u.modLport p (metPort f)) p own f) p := hafter
    have htiles' : (answered (u.modLport p (metPort f)) p own f).tiles = s.tiles := htiles
    generalize answered (u.modLport p (metPort f)) p own f = w at *
    exact ⟨w, hexec, htiles', by rw [hanswer], by rw [hanswer]; rfl, by rw [hanswer]; rfl, by rw [hanswer]; exact hown, by rw [hanswer]; rfl, hsent⟩
  case attest =>
    intro s p n report x
    refine ⟨fun hlow hhigh hlen => ?_, fun hout => ⟨exec_attestFrame_out hout, exec_close_out hout⟩, fun hlow hhigh hn ev hev => ?_,
      fun hstate hn hlen => exec_attestFrame_other hstate hlen hn, fun hstate hn => ?_, fun own peer hstate hn hown hpeer => ?_, exec_attestTimeout_other⟩
    · rw [exec_attestFrame_illegal hlow hhigh hlen, lntDiscard_measuring hlow hhigh]
      exact ⟨_, rfl, rfl, lport_modLport p _ rfl⟩
    · rcases hev with ⟨rfl, hlen⟩ | rfl
      · rw [exec_attestFrame_stale hlow hhigh hlen hn]
        exact ⟨_, rfl, rfl, lport_modLport p _ rfl⟩
      · rw [exec_close_stale hlow hhigh hn]
        exact ⟨_, rfl, rfl, lport_modLport p _ rfl⟩
    · have hst : (s.lport p).state = 2 ∨ (s.lport p).state = 5 := hstate
      exact (exec_close_session (by omega) (by omega) hn).trans (if_neg (by omega))
    · intro flows room refused
      have hrefuse : ∀ c, refused (s.refuse p peer c) := fun c => ⟨(refuse_spec p c peer).frame, (refuse_spec p c peer).ports⟩
      refine ⟨fun hlen hwhy => ?_, fun hgood hroom hjoined hwaits => ?_, _, exec_attestTimeout_waiting hstate hpeer, hrefuse 6⟩
      · have hexec := exec_attestFrame_judged hstate hn hlen hown hpeer flows rfl rfl
        cases hc : (s.accepts p own peer n report).findIdx? (fun ok => !ok) with
        | some c => exact ⟨_, by rw [hexec, hc]; rfl, hrefuse c⟩
        | none =>
          rcases hwhy with hbad | hroom
          · obtain ⟨c, hsome⟩ := findIdx?_refused hbad
            rw [hc] at hsome
            cases hsome
          · refine ⟨_, ?_, hrefuse 7⟩
            rw [hexec, hc]
            exact congrArg Host.Outcome.next (if_pos (Nat.lt_of_not_le (of_decide_eq_false hroom)))
      · have hlen : lntLenLegal report.length = true := by
          rw [accepts_length hgood]
          decide
        have hexec := exec_attestFrame_judged hstate hn hlen hown hpeer flows rfl (findIdx?_accepted hgood)
        have hform : exec (.attestFrame p n report) s = .next (s.goUp p peer flows) :=
          hexec.trans (congrArg Host.Outcome.next (if_neg (Nat.not_lt.mpr (of_decide_eq_true hroom))))
        obtain ⟨hport, htiles, hgw⟩ := goUp_spec p flows peer hjoined
        refine ⟨_, hform, by rw [hport]; rfl, by rw [hport]; rfl, by rw [hport]; rfl, by rw [hport]; rfl, by rw [hport]; exact hn.symm, fun howns => ?_,
          fun howns => ?_, htiles⟩
        · rw [hgw]
          exact mem_gateways howns
        · rw [hgw, if_pos (by unfold knownGate; rw [howns]; simp)]
  case touchNone =>
    intro s p hlive hstale
    rw [exec_losttouch_none, if_neg (by simp [hstale]), hlive]
    rfl
  case touchStale =>
    intro s p hstale hjoined hwaits
    rw [exec_losttouch_none, if_pos hstale]
    obtain ⟨hviews, hgw⟩ := forAll_gateway_spec p (s.staleGates p) s
    have hreacts := reacts_outerReact (hviews.rest.still_joined hviews.links hjoined)
    generalize s.forAll (s.staleGates p) (fun s i => s.gateway p i false) = u at *
    refine ⟨_, rfl, fun i hi hin => ?_, by rw [hreacts.tiles, hviews.rest]⟩
    rw [hreacts.gwUp] at hin
    exact (hgw _ hin).2 i hi rfl
  case ended =>
    intro s p n ev x hlive hev hjoined hwaits
    obtain ⟨hdrop, hnone, hgw⟩ := dropSession_spec hlive
    obtain ⟨hdark, houter⟩ := goDark_spec hdrop
    rw [← houter] at hgw
    have hnone' : NoneSent (s.goDark p) p := fun e he => hnone e (houter ▸ he)
    rcases hev with ⟨rfl, hstale⟩ | ⟨rfl, hn, hstate⟩
    · obtain ⟨hviews, hgone⟩ := gateway_spec (s := s.goDark p) p x.peerIsland false
      rw [exec_losttouch_none, if_neg (by simp [hstale]), if_pos hlive]
      rw [hdark.place, hgw] at hgone
      have hdown := hdark.views hviews
      have hnone2 : NoneSent ((s.goDark p).gateway p x.peerIsland false) p := fun e he => hnone' e (hviews.sent ▸ he)
      have hend := outerReact_ended hdown hnone2 hjoined
      have hreacts := reacts_outerReact (hdown.still_joined hjoined)
      generalize (s.goDark p).gateway p x.peerIsland false = u at *
      refine ⟨u.outerReact, rfl, hend.1, fun _ hin => ?_, fun h => (by cases h), hend.2.1, hend.2.2⟩
      rw [hreacts.gwUp, hgone] at hin
      have := (List.mem_filter.mp hin).2
      simp at this
    · have hst : (s.lport p).state = 3 ∨ (s.lport p).state = 4 := hstate
      rw [exec_close_session (by omega) (by omega) hn, if_pos hst]
      have hend := outerReact_ended hdark hnone' hjoined
      have hreacts := reacts_outerReact (hdark.still_joined hjoined)
      generalize s.goDark p = u at *
      exact ⟨u.outerReact, rfl, hend.1, fun h => (by cases h), fun _ => by rw [hreacts.gwUp, hgw], hend.2.1, hend.2.2⟩
  case closeDead =>
    intro s p x hlive hstate hjoined hwaits
    have hdrop : PortNow s (s.dropSession p) p x := by
      rw [dropSession_of_dead hlive]
      exact PortNow.refl s p
    obtain ⟨hdark, houter⟩ := goDark_spec hdrop
    have hreacts := reacts_outerReact (hdark.still_joined hjoined)
    have hst : (s.lport p).state = 3 ∨ (s.lport p).state = 4 := hstate
    rw [exec_close_session (by omega) (by omega) rfl, if_pos hst]
    rw [dropSession_of_dead hlive] at houter
    generalize s.goDark p = u at *
    refine ⟨_, rfl, ?_, by rw [hreacts.gwUp, houter], by rw [hreacts.tiles, hdark.tiles]⟩
    rw [hreacts.idle p (by rw [hdark.at_port]; exact darkPort_not_up x), hdark.at_port]
    unfold darkPort
    rw [if_neg (by show ¬ (s.lport p).state = 0; omega)]
  case cutUp =>
    intro s p x g o htyp hstate hg ho hjoined
    have hform : s.transferDark x = s.modOut (keyField x.item) (keyGid x.item) (fun o => { o with again := o.again ++ [x] }) := if_pos htyp
    have hstep := groupStep_modOut (fun o => { o with again := o.again ++ [x] }) hg ho
    have honly := modOut_only (s := s) (keyField x.item) (keyGid x.item) (fun o => { o with again := o.again ++ [x] })
    have hexec : exec (.losttouch p (some x)) s = .next (s.transferDark x).outerReact := rfl
    have hdark := (relays_transferDark (s := s) x).still_joined hjoined
    rw [hform] at hexec hdark
    generalize s.modOut (keyField x.item) (keyGid x.item) (fun o => { o with again := o.again ++ [x] }) = u at *
    have houter : u.outer = s.outer := by rw [honly]
    have hstate' : u.outer.state ≠ 1 := by rw [houter]; exact hstate
    refine ⟨_, hexec, groupStep_of_fields hstep (fields_outerReact hdark hstate'), fun hnone => ?_, ?_⟩
    · rw [mem_outerReact hdark hstate' (by rw [houter, hnone]; exact fun _ h => absurd h List.not_mem_nil), honly]
    · rw [(reacts_outerReact hdark).tiles, honly]
  case cutOther =>
    intro s p x htyp hcut
    show Host.Outcome.next (s.transferDark x).outerReact = _
    refine congrArg (fun u : State => Host.Outcome.next u.outerReact) ?_
    unfold State.transferDark
    refine (if_neg htyp).trans (if_neg ?_)
    simp only [Bool.and_eq_true, decide_eq_true_eq]
    tauto
  case quiet =>
    intro s h
    exact outerReact_quiet h

end Sys2Proof.Proofs
end

section
/-! PROOFS. What transfers and floods of the outer loop leave: the outer state, memory, links and the view of partners. -/

namespace Sys2Proof.Proofs

open Sys2Proof.Machine Sys2Proof.Laws

section

variable {s t u : State}

/-! ### Ways that open (R319) -/

/-- A frame takes the nearer way where it is open, else the other. -/
theorem drop_iff_both_shut {a b : Bool} {x y : Hop} (hx : x ≠ .drop true) (hy : y ≠ .drop true) :
    (if !a then x else if !b then y else .drop true) = .drop true ↔ a = true ∧ b = true := by
  cases a <;> cases b <;> simp [hx, hy]

theorem both_shut_iff (shut : Nat → Bool) (fwd : Bool) (d : Nat) : shut (if fwd then 2 * d else 2 * d + 1) = true ∧ shut (if !fwd then 2 * d else 2 * d + 1) = true ↔
    shut (2 * d) = true ∧ shut (2 * d + 1) = true := by
  cases fwd
  · exact and_comm
  · exact Iff.rfl

/-- A frame of this module's own finds both ways of a ring shut exactly where they are and no express port is worth the way. -/
theorem hopIn_shut_iff (b : Blob) (shut : Nat → Bool) (h t : MapMember) (lk vl d : Nat) : hopIn b shut h t none lk vl d = .drop true ↔
    b.wraps d = true ∧ (shut (2 * d) = true ∧ shut (2 * d + 1) = true) ∧ (b.expressPort shut d = none ∨
      ¬ (1 + ringDist (b.dim d) ((t.coord d + b.dim d - h.coord d) % b.dim d + b.dim d - b.dim d / 2) <
        min ((t.coord d + b.dim d - h.coord d) % b.dim d) (b.dim d - (t.coord d + b.dim d - h.coord d) % b.dim d))) := by
  unfold hopIn
  dsimp only
  cases b.wraps d with
  | false =>
    rw [if_pos (by decide)]
    refine ⟨fun hdrop => ?_, fun hall => absurd hall.1 (by decide)⟩
    generalize (if h.coord d < t.coord d then 2 * d else 2 * d + 1) = q at hdrop
    split at hdrop <;> cases hdrop
  | true =>
    rw [if_neg (by decide), if_neg (by simp)]
    cases b.expressPort shut d with
    | none =>
      refine (drop_iff_both_shut (by simp) (by simp)).trans ((both_shut_iff ..).trans ?_)
      simp
    | some p =>
      dsimp only
      split
      · next hworth => exact ⟨fun hdrop => (by cases hdrop), fun hall => absurd hworth (hall.2.2.resolve_left (by simp))⟩
      · next hworth =>
        refine (drop_iff_both_shut (by simp) (by simp)).trans ((both_shut_iff ..).trans ?_)
        simp [hworth]

/-- Where no way is newly shut, a ring that is not shut both ways stays so. -/
theorem hopOf_shut_mono {b : Blob} {shut shut' : Nat → Bool} (h : ∀ p, shut' p = true → shut p = true) {x y : MapMember} {lk vl : Nat}
    (hdrop : hopOf b shut' x y none lk vl = .drop true) : hopOf b shut x y none lk vl = .drop true := by
  unfold hopOf at *
  split at hdrop
  · rw [hopIn_shut_iff] at *
    obtain ⟨hwraps, ⟨hplus, hminus⟩, hexpress⟩ := hdrop
    refine ⟨hwraps, ⟨h _ hplus, h _ hminus⟩, hexpress.imp_left fun hnone => ?_⟩
    unfold Blob.expressPort at *
    rw [List.find?_eq_none] at *
    intro p hp
    have := hnone p hp
    simp only [Bool.and_eq_true, Bool.not_eq_true', not_and, Bool.not_eq_false] at *
    exact fun hdim => h p (this hdim)
  · cases hdrop

theorem portReturns_opens (port k : Nat) : ((s.portReturns port).port k).state = (s.port k).state ∧
    (((s.portReturns port).port k).returning = true → (s.port k).returning = true) := by
  unfold State.portReturns
  dsimp only
  split
  · exact ⟨rfl, id⟩
  · generalize hv : s.modPort port (fun y => { y with returning := false }) = v
    have hdepth : ∀ w : State, w.newDepth.fab = w.fab := fun w => by
      unfold State.newDepth
      split <;> rfl
    have hport : ∀ g, (v.modBcn g).newDepth.port k = v.port k := fun g => by
      unfold State.port
      rw [hdepth]
      rfl
    rw [hport, ← hv, modPort_port]
    split
    · next hk => exact ⟨by rw [hk], fun h => by cases h⟩
    · exact ⟨rfl, id⟩

/-- A frame taken from a port opens ways only. -/
theorem joined_flareTook (port : Nat) (f : FlareFrame) (hjoined : joined s) : joined (s.flareTook port f) := by
  have honly := flareTook_only (s := s) port f
  have hlink : ∀ k, ((s.flareTook port f).port k).state = (s.port k).state ∧ (((s.flareTook port f).port k).returning = true → (s.port k).returning = true) := by
    intro k
    have htook : SameLinks (s.portReturns port) (s.flareTook port f) := sameLinks_modPort port (fun x =>
      { x with rxNext := (x.rxNext + 1) % 4096, nakOut := false, owed := smapModify 0 x.owed 0 (fun n => n + frameUnits (flareFab 0 0 f)) }) ⟨rfl, rfl⟩
    obtain ⟨hstate, hreturning⟩ := portReturns_opens (s := s) port k
    exact ⟨(htook k).1.trans hstate, fun h => hreturning ((htook k).2 ▸ h)⟩
  have hblob : (s.flareTook port f).blob = s.blob := by rw [honly]
  have hself : (s.flareTook port f).self = s.self := by
    unfold State.self
    rw [honly]
  intro m a b lk vl ha hb hdrop
  rw [hself] at ha
  rw [hblob] at hb hdrop
  refine hjoined m a b lk vl ha hb (hopOf_shut_mono (fun p hp => ?_) hdrop)
  rw [(hlink p).1, Bool.or_eq_true] at hp
  rw [Bool.or_eq_true]
  exact hp.imp_right (hlink p).2

/-! ### The outer state -/

theorem outer_lntPump (p f n : Nat) : (s.lntPump p f n).outer = s.outer := by
  induction n generalizing s with
  | zero => rfl
  | succ n ih =>
    unfold State.lntPump
    dsimp only
    split
    · rfl
    · split
      · rfl
      · next k rest _ _ =>
        have hpoke := pokeBytes_only s ((s.lport p).slotAddr (s.lport p).freeSend) k.payload
        rw [ih]
        show (s.pokeBytes ((s.lport p).slotAddr (s.lport p).freeSend) k.payload).outer = s.outer
        rw [hpoke]

/-- Of the outer state, only the list of transfers and whether a fetch restarts change. -/
def Lists (s t : State) : Prop := t.outer = { s.outer with refetch := t.outer.refetch, sent := t.outer.sent }

theorem Lists.trans (h : Lists s t) (k : Lists t u) : Lists s u := by
  unfold Lists at *
  rw [k, h]

theorem lists_of_outer (h : t.outer = s.outer) : Lists s t := by
  unfold Lists
  rw [h]

theorem lists_transferDark (x : Xfer) : Lists s (s.transferDark x) := by
  unfold State.transferDark
  split
  · exact lists_of_outer (by rw [modOut_only])
  · split <;> rfl

theorem lists_sendXfer (hjoined : joined s) (x : Xfer) : Lists s (s.sendXfer x) := by
  unfold State.sendXfer
  dsimp only
  split
  · unfold State.cutTransfer
    split
    · exact lists_transferDark x
    · rfl
  · split
    · unfold State.lntSend Lists
      dsimp only
      rw [outer_lntPump]
      rfl
    · exact lists_of_outer (tells_sendMsg hjoined ..).outer

theorem outer_contribute (op key index step : Nat) (payload : List Byte) : (s.contribute op key index step payload).outer = s.outer := by
  unfold State.contribute State.takePart
  split
  · exact ((onlyRounds_joinRound _ _).trans onlyRounds_fillRounds).mem_fields.2.2
  · rfl

theorem outer_checkGathered : s.checkGathered.outer = { s.outer with gathered := s.checkGathered.outer.gathered } := by
  unfold State.checkGathered
  dsimp only
  split
  · rw [outer_contribute]
    rfl
  · rfl

/-- What a fetch from a source sets. -/
def fetchFrom (i : Nat) (o : OuterIsland) : OuterIsland := { o with source := some i, gathered := false, refetch := false, install := none }

/-- Along a list, transfers of fetches go out. -/
theorem lists_fetchAsks (hjoined : joined s) (i : Nat) : Lists (s.modOuter (fetchFrom i)) (fetchAsks s i) := by
  have hset : Relays s (s.modOuter (fetchFrom i)) := relays_modOuter _ rfl rfl
  have hone : ∀ (t : State), joined t → ∀ (k : Nat × Nat) (x : Xfer), Relays t ((t.modOut k.1 k.2 (fun x => { x with fetched := none })).sendXfer x) ∧
      Lists t ((t.modOut k.1 k.2 (fun x => { x with fetched := none })).sendXfer x) := by
    intro t ht k x
    have hout := relays_modOut (s := t) k.1 k.2 (fun x => { x with fetched := none })
    have hlists : Lists t (t.modOut k.1 k.2 (fun x => { x with fetched := none })) := lists_of_outer (by rw [modOut_only])
    exact ⟨hout.trans (relays_sendXfer (hout.still_joined ht) x), hlists.trans (lists_sendXfer (hout.still_joined ht) x)⟩
  have hstart := hset.still_joined hjoined
  exact (forAll_keeps (fun t => Relays (s.modOuter (fetchFrom i)) t ∧ Lists (s.modOuter (fetchFrom i)) t) _ _
    (fun t k _ ht => ⟨ht.1.trans (hone t (ht.1.still_joined hstart) k _).1, ht.2.trans (hone t (ht.1.still_joined hstart) k _).2⟩) _
    ⟨Relays.refl _, lists_of_outer rfl⟩).2

theorem outer_startFetch (hjoined : joined s) (i : Nat) : (s.startFetch i).outer = { s.outer with
    source := some i, install := none, gathered := (s.startFetch i).outer.gathered, refetch := (s.startFetch i).outer.refetch,
    sent := (s.startFetch i).outer.sent } := by
  have hasks := lists_fetchAsks hjoined i
  rw [startFetch_eq, outer_checkGathered, hasks]
  rfl

/-! ### Memory -/

theorem mem_checkGathered : s.checkGathered.mem = s.mem := by
  unfold State.checkGathered
  dsimp only
  split
  · unfold State.contribute State.takePart
    split
    · exact ((onlyRounds_joinRound _ _).trans onlyRounds_fillRounds).mem_fields.1
    · rfl
  · rfl

theorem mem_startFetch (hjoined : joined s) {i : Nat} (hnone : NoOwnGate s i) : (s.startFetch i).mem = s.mem := by
  have hset : Relays s (s.modOuter (fetchFrom i)) := relays_modOuter _ rfl rfl
  rw [startFetch_eq, mem_checkGathered]
  refine forAll_relays_keeps (s := s.modOuter (fetchFrom i)) State.mem _ _ (fun t ht k => ?_) (hset.still_joined hjoined) (fun t ht k _ => ?_)
  · have hout := relays_modOut (s := t) k.1 k.2 (fun x => { x with fetched := none })
    exact hout.trans (relays_sendXfer (hout.still_joined ht) _)
  · have hout := relays_modOut (s := t) k.1 k.2 (fun x => { x with fetched := none })
    have hall := (hset.trans ht).trans hout
    refine (mem_sendXfer (hall.still_joined hjoined) (hnone.reacts hall.1)).trans ?_
    rw [modOut_only]

theorem mem_restartFetch (hjoined : joined s) (hnone : ∀ i, NoOwnGate s i) : s.restartFetch.mem = s.mem := by
  unfold State.restartFetch
  split
  · rfl
  · next i _ =>
    dsimp only
    have hsource : Relays s (s.modOuter (fun o => { o with source := some i, rhoSrc := none })) := relays_modOuter _ rfl rfl
    split
    · have hsaid := hsource.trans (relays_keeperSays 1 false)
      have hmem : ((s.modOuter (fun o => { o with source := some i, rhoSrc := none })).keeperState 1).mem = s.mem := (tells_keeperSays 1 false).mem
      have hasked := hsaid.trans (relays_ask (hsaid.still_joined hjoined) i)
      exact (mem_startFetch (hasked.still_joined hjoined) ((hnone i).reacts hasked.1)).trans
        ((mem_ask (hsaid.still_joined hjoined) ((hnone i).reacts hsaid.1)).trans hmem)
    · exact mem_startFetch (hsource.still_joined hjoined) ((hnone i).reacts hsource.1)

/-- Without a gateway of its own that is UP, a module that reacts leaves memory. -/
theorem mem_outerReact_away (hjoined : joined s) (hnone : ∀ i, NoOwnGate s i) : s.outerReact.mem = s.mem := by
  have hasked := mem_askedBack hjoined (fun i _ => hnone i)
  have hrelays := relays_askedBack hjoined
  rw [outerReact_eq]
  split
  · rfl
  · split
    · split
      · exact (mem_restartFetch (hrelays.still_joined hjoined) (fun i => (hnone i).reacts hrelays.1)).trans hasked
      · exact hasked
    · split
      · exact (tells_keeperSays 3 false).mem.trans hasked
      · exact hasked

/-! ### The view of partners -/

theorem testBit_seenDark (o : OuterIsland) {k : Nat} (hk : k < 16) : (seenDark o).dark.testBit k = o.isDark k := by
  have hsum : (seenDark o).dark = bitSum o.isDark 16 := by
    unfold seenDark bitSum
    dsimp only
    rw [List.foldl_filter]
    congr 1
    funext a i
    split <;> simp_all
  rw [hsum, testBit_bitSum, decide_eq_true hk, Bool.true_and]

theorem outer_refreshDark : s.refreshDark.outer = seenDark s.outer := by
  rw [refreshDark_events.1]
  rfl

/-- After the view follows the sessions, its bits are those of the partners that no gateway reaches. -/
theorem dark_refreshDark {k : Nat} (hk : k < 16) : s.refreshDark.outer.dark.testBit k = s.refreshDark.outer.isDark k := by
  rw [outer_refreshDark]
  exact testBit_seenDark s.outer hk

end

end Sys2Proof.Proofs
end

section
/-! PROOFS. How the rows of transfers and floods of the outer loop answer: equations by case. -/

namespace Sys2Proof.Proofs

open Sys2Proof.Machine Sys2Proof.Laws

section

variable {s : State} {x : Xfer}

/-! ### Transfers for another island -/

theorem mod_max_one (m n : Nat) (h : n ≠ 0) : m % max 1 n = m % n := by rw [Nat.max_eq_right (by omega)]

/-- The gateway that a transfer's number names. -/
theorem numbered_gate {α : Type} {gs : List α} {m : Nat} {g : α} (h : gs[m % gs.length]? = some g) : gs[m % max 1 gs.length]? = some g := by
  have hne : gs.length ≠ 0 := by
    intro h0
    rw [List.length_eq_zero_iff.mp h0] at h
    cases h
  rw [mod_max_one _ _ hne]
  exact h

theorem cutTransfer_of_other (h : x.srcIsland ≠ s.place.islandId ∨ x.srcModule ≠ s.place.moduleId) :
    s.cutTransfer x = { s with outbox := s.outbox ++ [.cut x.srcIsland x.srcModule x] } := if_neg (by simpa [imp_iff_not_or] using h)

theorem relayXfer_none (h : ∀ y ∈ s.gatesUp x.dstIsland, y.1 ≠ s.place.moduleId) : s.relayXfer x = s.cutTransfer x := by
  unfold State.relayXfer
  dsimp only
  have hfind : (s.gatesUp x.dstIsland).find? (fun g => g.1 == s.place.moduleId) = none :=
    List.find?_eq_none.mpr fun y hy => by simpa using h y hy
  have hnumbered : ((s.gatesUp x.dstIsland)[x.srcModule % max 1 (s.gatesUp x.dstIsland).length]?).filter (fun g => g.1 == s.place.moduleId) = none := by
    cases hg : (s.gatesUp x.dstIsland)[x.srcModule % max 1 (s.gatesUp x.dstIsland).length]? with
    | none => rfl
    | some g => exact Option.filter_some_neg (by simpa using h g (List.mem_of_getElem? hg))
  rw [hnumbered, hfind]
  rfl

theorem relayXfer_numbered {p : Nat} (h : (s.gatesUp x.dstIsland)[x.srcModule % (s.gatesUp x.dstIsland).length]? = some (s.place.moduleId, p)) :
    s.relayXfer x = s.lntSend p x := by
  unfold State.relayXfer
  dsimp only
  rw [numbered_gate h, Option.filter_some_pos (by simp)]
  rfl

theorem relayXfer_first {m q p : Nat} (h : (s.gatesUp x.dstIsland)[x.srcModule % (s.gatesUp x.dstIsland).length]? = some (m, q)) (hm : m ≠ s.place.moduleId)
    (hfind : (s.gatesUp x.dstIsland).find? (fun y => y.1 == s.place.moduleId) = some (s.place.moduleId, p)) : s.relayXfer x = s.lntSend p x := by
  unfold State.relayXfer
  dsimp only
  rw [numbered_gate h, Option.filter_some_neg (by simpa using hm), hfind]
  rfl

theorem sendXfer_dark (h : s.gatesUp x.dstIsland = []) : s.sendXfer x = s.cutTransfer x := by
  unfold State.sendXfer
  dsimp only
  rw [h]
  rfl

theorem sendXfer_away {m p : Nat} (h : (s.gatesUp x.dstIsland)[s.place.moduleId % (s.gatesUp x.dstIsland).length]? = some (m, p)) (hm : m ≠ s.place.moduleId) :
    s.sendXfer x = s.sendMsg (s.trainPart.getD 16) 0 gatewaySet m 0 (relayMsg x) := by
  unfold State.sendXfer
  dsimp only
  rw [numbered_gate h]
  exact if_neg hm

/-- The five rows of a transfer relay one for another island. -/
theorem exec_relays (h : x.dstIsland ≠ s.place.islandId) :
    exec (.upTransferDelivered x) s = .next (s.relayXfer x).reachMarks ∧ exec (.downTransferDelivered x) s = .next (s.relayXfer x).reachMarks ∧
      exec (.statusTransferRx x) s = .next (s.relayXfer x) ∧ exec (.fetchReqRx x) s = .next (s.relayXfer x) ∧
      exec (.fetchDataRx x) s = .next (s.relayXfer x) := by
  have hne : (x.dstIsland != s.place.islandId) = true := bne_iff_ne.mpr h
  refine ⟨?_, ?_, if_pos hne, if_pos hne, if_pos hne⟩
  · exact congrArg settle (if_pos hne)
  · exact congrArg settle (if_pos hne)

/-! ### Transfers for a group of this module -/

theorem keyGroup_none {n : Option Nat} (h : x.item % 1024 ≠ s.place.moduleId ∨ s.group (keyField x.item) (keyGid x.item) = none) : s.keyGroup x.item n = none := by
  unfold State.keyGroup
  dsimp only
  split
  · rfl
  · next hkey =>
    rw [h.resolve_left (by simp at hkey; simpa using hkey.1)]

theorem keyGroup_some {g : Group} {o : OuterGroup} {n : Option Nat} (hitem : x.item % 1024 = s.place.moduleId) (hlow : x.item < 2 ^ 24)
    (hg : s.group (keyField x.item) (keyGid x.item) = some g) (ho : g.outer = some o) (hn : n.all (fun n => n == 128 * s.shardBlocks g.p) = true) :
    s.keyGroup x.item n = some (keyField x.item, keyGid x.item, g, o) := by
  unfold State.keyGroup
  dsimp only
  rw [if_neg (by simp [hitem]; omega), hg]
  dsimp only
  rw [ho]
  exact if_pos hn

/-- A delivered UP or DOWN transfer in its own row. -/
theorem exec_delivered {ev : Instr} (hdst : x.dstIsland = s.place.islandId)
    (hev : (x.typ = 0 ∧ ev = .upTransferDelivered x) ∨ (x.typ = 1 ∧ ev = .downTransferDelivered x)) : exec ev s = .next (s.landXfer x).reachMarks := by
  have hhere : ¬ (x.dstIsland != s.place.islandId) = true := by rw [hdst]; simp
  rcases hev with ⟨htyp, rfl⟩ | ⟨htyp, rfl⟩
  · exact congrArg settle ((if_neg hhere).trans (if_pos htyp))
  · exact congrArg settle ((if_neg hhere).trans (if_pos htyp))

theorem discardXfer_only : s.discardXfer x = { s with host := (s.discardXfer x).host, hostMem := (s.discardXfer x).hostMem, outbox := (s.discardXfer x).outbox } := by
  have hev : OnlyEvents s (s.discardXfer x) := onlyEvents_event ..
  generalize s.discardXfer x = u at *
  rw [hev.1]

/-- The landing of a transfer. -/
def landingOf (s : State) (x : Xfer) : Landing :=
  { up := x.typ == 0, round := x.round, base := x.base, mask := bytesAt x.payload 0 2, catchup := (x.payload.getD 2 0).toNat.testBit 0,
    late := s.bcn.begun && (smapGet 0 s.bcn.fieldReached (keyField x.item)).testBit 28 }

/-- A group with one more transfer in landing slot `i`. -/
def landed (s : State) (x : Xfer) (i : Nat) (o : OuterGroup) : OuterGroup :=
  { o with landing := smapSet o.landing i (landingOf s x), heard := if x.typ = 0 then smapModify 0 o.heard x.round (fun m => Nat.lor m (s.senderBit x)) else o.heard }

section

variable {g : Group} {o : OuterGroup}

theorem landXfer_waits (hkey : s.keyGroup x.item (some (bytesAt x.payload 4 4)) = some (keyField x.item, keyGid x.item, g, o)) (hfree : o.freeLanding = none) :
    s.landXfer x = s.modOut (keyField x.item) (keyGid x.item) (fun y => { y with waiting := y.waiting ++ [x] }) := by
  unfold State.landXfer
  rw [hkey]
  dsimp only
  rw [hfree]

/-- The bytes that a landed transfer leaves in its slot. -/
def landedBytes (s : State) (x : Xfer) (g : Group) (o : OuterGroup) (i : Nat) : State :=
  s.pokeBytes (s.outAddr g.p o.p (12 + i)) (padTo (64 + wireLen o.p.dfmt (s.shardBlocks g.p)) x.payload)

theorem landXfer_lands {i : Nat} (hkey : s.keyGroup x.item (some (bytesAt x.payload 4 4)) = some (keyField x.item, keyGid x.item, g, o))
    (hfree : o.freeLanding = some i) : s.landXfer x = (landedBytes s x g o i).modOut (keyField x.item) (keyGid x.item) (landed s x i) := by
  unfold State.landXfer
  rw [hkey]
  dsimp only
  rw [hfree]
  rfl

/-- A landed transfer stands in its slot, and its bytes in the slot's plane. -/
theorem landXfer_spec {i : Nat} (hkey : s.keyGroup x.item (some (bytesAt x.payload 4 4)) = some (keyField x.item, keyGid x.item, g, o))
    (hg : s.group (keyField x.item) (keyGid x.item) = some g) (ho : g.outer = some o) (hfree : o.freeLanding = some i) :
    s.landXfer x = { s with mem := (s.landXfer x).mem, fields := (s.landXfer x).fields } ∧
      GroupStep s (s.landXfer x) (keyField x.item) (keyGid x.item) { g with outer := some (landed s x i o) } ∧
      (s.landXfer x).mem = (landedBytes s x g o i).mem := by
  rw [landXfer_lands hkey hfree]
  have hbytes := pokeBytes_only s (s.outAddr g.p o.p (12 + i)) (padTo (64 + wireLen o.p.dfmt (s.shardBlocks g.p)) x.payload)
  have hfields : (landedBytes s x g o i).fields = s.fields := by
    unfold landedBytes
    rw [hbytes]
  have hgroup : (landedBytes s x g o i).group (keyField x.item) (keyGid x.item) = some g := by
    unfold State.group State.fld at *
    rw [hfields]
    exact hg
  have hstep := groupStep_modOut (s := landedBytes s x g o i) (landed s x i) hgroup ho
  have honly := modOut_only (s := landedBytes s x g o i) (keyField x.item) (keyGid x.item) (landed s x i)
  have hland : landedBytes s x g o i = { s with mem := (landedBytes s x g o i).mem } := hbytes
  generalize (landedBytes s x g o i).modOut (keyField x.item) (keyGid x.item) (landed s x i) = u at *
  generalize landedBytes s x g o i = w at *
  refine ⟨by rw [honly, hland], ?_, by rw [honly]⟩
  unfold GroupStep State.group State.fld at *
  rw [hfields] at hstep
  exact hstep

end

/-! ### STATUS -/

/-- An exchange that a partner opens with a module that has none open. -/
def opened (s : State) (i : Nat) (got : Standing) : State :=
  s.modOuter (fun o => { o with asked := [{ island := i, own := s.standing i, got := some got }] })

/-- The record that a STATUS carries. -/
def standingOf (x : Xfer) : Standing := { group := bytesAt x.payload 16 1, rho := bytesAt x.payload 8 4, lastj := bytesAt x.payload 12 4 }

theorem evaluate_nothing (n : Nat) (h : s.outer.asked = []) : s.evaluate n = s := by
  cases n with
  | zero => rfl
  | succ n =>
    unfold State.evaluate
    dsimp only
    rw [h, List.mergeSort_nil]
    rfl

/-- One exchange that has its answer is decided. -/
theorem evaluate_one {n : Nat} {e : Exchange} {got : Standing} (hasked : s.outer.asked = [e]) (hgot : e.got = some got) (hstate : 2 ≤ s.outer.state) :
    s.evaluate (n + 1) = if mustJoin s.place.islandId ((s.outer.fed.map (fun r => r.rejoin)).getD 0) e got then s.keeperJoins e.island got.rho
      else let s1 := s.modOuter (fun o => { o with asked := o.asked.filter (fun x => x.island != e.island) })
        State.evaluate (if s1.outer.state = 2 then s1 else s1.keeperState 2) n := by
  rw [State.evaluate]
  dsimp only
  rw [hasked, List.mergeSort_singleton]
  dsimp only [List.head?]
  rw [hgot]
  exact if_neg (by omega)

theorem statusRx_away (h : s.isKeeper = false ∨ s.partners.contains x.srcIsland = false) : s.statusRx x = s := by
  unfold State.statusRx
  refine if_pos ?_
  rcases h with h | h <;> rw [h] <;> simp

/-- A STATUS that no exchange awaits and that asks for none. -/
theorem statusRx_unasked (hreq : bytesAt x.payload 17 1 ≠ 1) (hasked : s.outer.asked = []) (hstate : 2 ≤ s.outer.state) : s.statusRx x = s := by
  unfold State.statusRx
  dsimp only
  split
  · rfl
  · rw [hasked, if_neg (show ¬ s.outer.state = 1 by omega), if_neg (show ¬ s.outer.state = 0 by omega), if_neg (by simp [hreq])]
    exact evaluate_nothing 16 hasked

/-- A STATUS that asks, with no other exchange open, is answered and decided. -/
theorem statusRx_asks (hkeeper : s.isKeeper = true) (hpartner : s.partners.contains x.srcIsland = true) (hreq : bytesAt x.payload 17 1 = 1)
    (hasked : s.outer.asked = []) (hstate : 2 ≤ s.outer.state) :
    s.statusRx x = ((opened s x.srcIsland (standingOf x)).sendStatus x.srcIsland (s.standing x.srcIsland) 0).evaluate 16 := by
  unfold State.statusRx
  dsimp only
  rw [if_neg (by rw [hkeeper, hpartner]; decide), hasked, if_neg (show ¬ s.outer.state = 1 by omega), if_neg (show ¬ s.outer.state = 0 by omega), if_pos hreq,
    if_pos (by simp [hreq])]
  have hopen : s.modOuter (fun o => { o with asked := o.asked.filter (fun e => e.island != x.srcIsland) ++
      [{ island := x.srcIsland, own := s.standing x.srcIsland, got := some (standingOf x) }] }) = opened s x.srcIsland (standingOf x) := by
    unfold opened State.modOuter
    dsimp only
    rw [hasked]
    rfl
  rw [← hopen]
  rfl

/-- STATUS goes out: of the outer state, only what is listed changes, and no field. -/
theorem sendStatus_spec (hjoined : joined s) (i req : Nat) (st : Standing) : Relays s (s.sendStatus i st req) ∧ Lists s (s.sendStatus i st req) ∧
    (s.sendStatus i st req).fields = s.fields ∧ (NoOwnGate s i → (s.sendStatus i st req).mem = s.mem) :=
  ⟨relays_sendXfer hjoined _, lists_sendXfer hjoined _, fields_sendXfer hjoined (by show (2 : Nat) ≠ 0; decide), fun hnone => mem_sendXfer hjoined hnone⟩

/-- The outer state of an island that a decision puts in JOINING. -/
def joinsWith (i rho : Nat) (o : OuterIsland) : OuterIsland := { o with rejoinSeen := true, source := some i, rhoSrc := some rho, asked := [] }

/-- An island that joins has its source and asks it. -/
theorem keeperJoins_spec (hjoined : joined s) (i rho : Nat) : (s.keeperJoins i rho).tiles = s.tiles ∧
    (NoOwnGate s i → (s.keeperJoins i rho).mem = s.mem) ∧ (s.keeperJoins i rho).outer = { nowIn 1 (joinsWith i rho s.outer) with
      source := some i, install := none, gathered := (s.keeperJoins i rho).outer.gathered, refetch := (s.keeperJoins i rho).outer.refetch,
      sent := (s.keeperJoins i rho).outer.sent } := by
  have hform : s.keeperJoins i rho = ((s.modOuter (joinsWith i rho)).keeperSays 1 true).startFetch i := rfl
  rw [hform]
  have htells := tells_keeperSays (s := s.modOuter (joinsWith i rho)) 1 true
  have hsaid := relays_keeperSays (s := s.modOuter (joinsWith i rho)) 1 true
  have hstart : joined (s.modOuter (joinsWith i rho)) := hjoined
  have hgates : NoOwnGate s i → NoOwnGate (s.modOuter (joinsWith i rho)) i := fun h => h
  have hmem : (s.modOuter (joinsWith i rho)).mem = s.mem := rfl
  have htiles : (s.modOuter (joinsWith i rho)).tiles = s.tiles := rfl
  have houter := htells.outer
  have hmem' := htells.mem
  generalize (s.modOuter (joinsWith i rho)).keeperSays 1 true = v at *
  have hv := hsaid.still_joined hstart
  refine ⟨?_, fun hnone => ?_, ?_⟩
  · rw [(reacts_startFetch hv i).tiles, hsaid.1.tiles, htiles]
  · rw [mem_startFetch hv ((hgates hnone).reacts hsaid.1), hmem']
    exact hmem
  · rw [outer_startFetch hv i, houter]
    rfl

/-- An exchange of which the answer does not put the island in JOINING leaves it LINKED. -/
def staysLinked (s : State) : State :=
  let s1 := s.modOuter (fun o => { o with asked := [] })
  if s1.outer.state = 2 then s1 else s1.keeperState 2

theorem staysLinked_spec : (staysLinked s).tiles = s.tiles ∧ (staysLinked s).mem = s.mem ∧ (staysLinked s).fields = s.fields ∧
    ∃ held, (staysLinked s).outer = { s.outer with asked := [], state := 2, holdSeen := held } := by
  unfold staysLinked
  dsimp only
  split
  · next h =>
    have h2 : s.outer.state = 2 := h
    refine ⟨rfl, rfl, rfl, s.outer.holdSeen, ?_⟩
    rw [← h2]
    rfl
  · have htells := tells_keeperSays (s := s.modOuter (fun o => { o with asked := [] })) 2 false
    have hreacts := (relays_keeperSays (s := s.modOuter (fun o => { o with asked := [] })) 2 false).1
    exact ⟨hreacts.tiles, htells.mem, htells.fields, _, htells.outer⟩

/-- An exchange that has its answer puts the island in JOINING, or leaves it LINKED. -/
theorem evaluate_decides {e : Exchange} {got : Standing} (hasked : s.outer.asked = [e]) (hgot : e.got = some got) (hstate : 2 ≤ s.outer.state)
    {joins : Bool} (hjoins : mustJoin s.place.islandId ((s.outer.fed.map (fun r => r.rejoin)).getD 0) e got = joins) :
    s.evaluate 16 = if joins then s.keeperJoins e.island got.rho else staysLinked s := by
  have hone := evaluate_one (n := 15) hasked hgot hstate
  rw [hjoins] at hone
  refine hone.trans ?_
  cases joins with
  | true => rfl
  | false =>
    have hclear : s.modOuter (fun o => { o with asked := o.asked.filter (fun x => x.island != e.island) }) = s.modOuter (fun o => { o with asked := [] }) := by
      unfold State.modOuter
      dsimp only
      rw [hasked]
      simp
    have hlinked : (if (s.modOuter (fun o => { o with asked := o.asked.filter (fun x => x.island != e.island) })).outer.state = 2
        then s.modOuter (fun o => { o with asked := o.asked.filter (fun x => x.island != e.island) })
        else (s.modOuter (fun o => { o with asked := o.asked.filter (fun x => x.island != e.island) })).keeperState 2) = staysLinked s := by
      rw [hclear]
      rfl
    rw [if_neg (by decide), if_neg (by decide)]
    dsimp only
    rw [hlinked]
    obtain ⟨-, -, -, held, houter⟩ := staysLinked_spec (s := s)
    exact evaluate_nothing 15 (by rw [houter])

/-! ### Floods -/

theorem exec_outerFloodRx_idle {w : OuterFlood} (h : s.place.placed = false ∨ OuterFlood.wf w = false) : exec (.outerFloodRx w) s = .next s.reachMarks := by
  refine congrArg settle (if_neg ?_)
  rcases h with h | h <;> rw [h] <;> simp

theorem exec_outerFloodRx_wf {w : OuterFlood} (hplaced : s.place.placed = true) (hwf : OuterFlood.wf w = true) :
    exec (.outerFloodRx w) s = .next (s.outerFlood w).reachMarks := congrArg settle (if_pos (by rw [hplaced, hwf]; rfl))

theorem resume_held (h : s.bcn.advance = none ∨ s.isKeeper = false ∨ s.bcn.hold = true) : s.resume = s := by
  unfold State.resume
  split
  · next n hn =>
    refine if_neg ?_
    rcases h with h | h | h
    · rw [h] at hn
      cases hn
    · rw [h]
      simp
    · rw [h]
      simp
  · rfl

theorem resume_free {n : Nat} (hn : s.bcn.advance = some n) (hkeeper : s.isKeeper = true) (hhold : s.bcn.hold = false) : s.resume = s.beginRound n := by
  unfold State.resume
  rw [hn]
  exact if_pos (by rw [hkeeper, hhold]; rfl)

theorem outerBecomes_eq (v : Nat) : s.outerBecomes v = if s.outer.state = 4 && v != 4 then (s.modOuter (nowIn v)).resume else s.modOuter (nowIn v) := rfl

theorem outerBecomes_stays {v : Nat} (h : s.outer.state ≠ 4 ∨ s.bcn.advance = none ∨ s.isKeeper = false ∨ s.bcn.hold = true) :
    s.outerBecomes v = s.modOuter (nowIn v) := by
  rw [outerBecomes_eq]
  split
  · next hleaves =>
    rw [Bool.and_eq_true, decide_eq_true_eq] at hleaves
    exact resume_held (s := s.modOuter (nowIn v)) (h.resolve_left (not_not_intro hleaves.1))
  · rfl

theorem outerBecomes_resumes {v n : Nat} (hstate : s.outer.state = 4) (hv : v ≠ 4) (hn : s.bcn.advance = some n) (hkeeper : s.isKeeper = true)
    (hhold : s.bcn.hold = false) : s.outerBecomes v = (s.modOuter (nowIn v)).beginRound n := by
  rw [outerBecomes_eq, if_pos (by simp [hstate, hv])]
  exact resume_free (s := s.modOuter (nowIn v)) hn hkeeper hhold

/-- What the keeper knows of the modules with outer groups, after one has said whether it holds any. -/
def regsAfter (o : OuterIsland) (m : Nat) (here : Bool) : List Nat := if here then o.regs.filter (fun k => k != m) ++ [m] else o.regs.filter (fun k => k != m)

theorem keeperState_spec (v : Nat) : (s.keeperState v).tiles = s.tiles ∧ (s.keeperState v).mem = s.mem ∧ (s.keeperState v).fields = s.fields ∧
    (s.keeperState v).outer.regs = s.outer.regs ∧ (s.keeperState v).outer.state = v := by
  have htells : Tells (s.modOuter (nowIn v)) (s.keeperState v) := tells_keeperSays v false
  exact ⟨htells.relays.1.tiles, htells.mem, htells.fields, by rw [htells.outer]; rfl, by rw [htells.outer]; rfl⟩

theorem keeperGroups_spec (m : Nat) (here : Bool) : let t := s.keeperGroups m here
    t.tiles = s.tiles ∧ t.mem = s.mem ∧ t.fields = s.fields ∧ t.outer.regs = regsAfter s.outer m here ∧
      t.outer.state = if (regsAfter s.outer m here).isEmpty then 0 else if s.outer.state = 0 && s.outer.fed.isSome then (if s.lit.isEmpty then 3 else 2)
        else s.outer.state := by
  have hform : s.keeperGroups m here = if (regsAfter s.outer m here).isEmpty then
        (if s.outer.state = 0 then s.modOuter (fun o => { o with regs := regsAfter s.outer m here })
         else (s.modOuter (fun o => { o with regs := regsAfter s.outer m here })).keeperState 0)
      else if s.outer.state = 0 && s.outer.fed.isSome then
        (s.modOuter (fun o => { o with regs := regsAfter s.outer m here })).keeperState (if s.lit.isEmpty then 3 else 2)
      else s.modOuter (fun o => { o with regs := regsAfter s.outer m here }) := rfl
  intro t
  show (s.keeperGroups m here).tiles = _ ∧ (s.keeperGroups m here).mem = _ ∧ (s.keeperGroups m here).fields = _ ∧
    (s.keeperGroups m here).outer.regs = _ ∧ (s.keeperGroups m here).outer.state = _
  rw [hform]
  split
  · split
    · next h0 => exact ⟨rfl, rfl, rfl, rfl, h0⟩
    · exact keeperState_spec 0
  · split
    · exact keeperState_spec _
    · exact ⟨rfl, rfl, rfl, rfl, rfl⟩

end

end Sys2Proof.Proofs
end

section
/-! PROOFS. The obligation about transfers and floods of the outer loop (O58). -/

namespace Sys2Proof.Proofs

open Sys2Proof.Machine Sys2Proof.Laws

section

variable {s : State} {x : Xfer}

theorem length_outerHeader (mask nelem rho lastj group req : Nat) (catchup : Bool) : (outerHeader mask catchup nelem rho lastj group req).length = 64 := by
  unfold outerHeader
  simp only [List.length_append, length_leBytes, List.length_replicate, List.length_cons, List.length_nil]

theorem drop_fetchReply (g : Group) (o : OuterGroup) : (s.fetchReply g o x).payload.drop 64 =
    s.peekBytes (s.outAddr g.p o.p g.bank) (512 * s.shardBlocks g.p) ++ s.peekBytes (s.outAddr g.p o.p (4 + g.bank)) (512 * s.shardBlocks g.p) := by
  unfold State.fetchReply
  dsimp only
  rw [List.append_assoc]
  exact List.drop_left' (length_outerHeader ..)

/-! ### Contributions to a fetch round -/

/-- The step line, the fabric and what goes out change; what waits for a round stays. -/
def OnlySteps (s t : State) : Prop := t = { s with bcn := t.bcn, fab := t.fab, outbox := t.outbox } ∧ t.bcn.waits = s.bcn.waits

theorem OnlySteps.trans {t u : State} (h : OnlySteps s t) (k : OnlySteps t u) : OnlySteps s u := ⟨by rw [k.1, h.1], k.2.trans h.2⟩

theorem onlySteps_of_sends {t : State} (h : OnlySends s t) : OnlySteps s t := ⟨by rw [h], by rw [h]⟩

theorem onlySteps_modBcn (g : Beacon → Beacon) (hg : (g s.bcn).waits = s.bcn.waits) : OnlySteps s (s.modBcn g) := ⟨rfl, hg⟩

theorem onlySteps_decideRound {f : FlareFrame} (hkey : f.key = 10) (v : List Byte) : OnlySteps s (s.decideRound f v) := by
  unfold State.decideRound
  dsimp only
  split
  · next h => exact absurd (hkey.symm.trans h) (by decide)
  · next h => exact absurd (hkey.symm.trans h) (by decide)
  · exact onlySteps_of_sends (onlySends_broadcast _)
  · exact onlySteps_of_sends (onlySends_broadcast _)

theorem onlySteps_tryRound {f : FlareFrame} (hkey : f.key = 10) : OnlySteps s (s.tryRound f) := by
  unfold State.tryRound
  dsimp only
  split
  · exact ⟨rfl, rfl⟩
  · split
    · exact (onlySteps_modBcn _ (by rfl)).trans (onlySteps_decideRound hkey _)
    · split
      · exact ⟨rfl, rfl⟩
      · split
        · exact OnlySteps.trans (onlySteps_modBcn _ (by rfl)) (onlySteps_of_sends (onlySends_linkSend ..))
        · exact ⟨rfl, rfl⟩

/-- A contribution to a fetch round, with nothing that waits, leaves event records. -/
theorem contribute_fetch (hwaits : s.bcn.waits = []) (op index step : Nat) (payload : List Byte) : ∃ b fab ob,
    s.contribute op 10 index step payload = { s with bcn := b, fab := fab, outbox := ob } := by
  unfold State.contribute State.takePart
  split
  · generalize hf : ({ op := op, key := 10, index := index, step := step, attempt := s.bcn.attempt, payload := payload } : FlareFrame) = f
    have hjoin : OnlySteps s (s.joinRound none f) :=
      OnlySteps.trans (onlySteps_modBcn _ (by rfl)) (onlySteps_tryRound (by rw [← hf]))
    rw [fillRounds_of_no_waits (hjoin.2.trans hwaits)]
    exact ⟨_, _, _, hjoin.1⟩
  · exact ⟨_, _, _, rfl⟩

theorem checkGathered_frame (hwaits : s.bcn.waits = []) : ∃ all b fab ob,
    s.checkGathered = { s with outer := { s.outer with gathered := all }, bcn := b, fab := fab, outbox := ob } := by
  unfold State.checkGathered
  dsimp only
  split
  · obtain ⟨b, fab, ob, h⟩ := contribute_fetch (s := s.modOuter (fun o => { o with gathered := true })) hwaits 0 1 s.bcn.step []
    exact ⟨true, b, fab, ob, h⟩
  · exact ⟨s.outer.gathered, _, _, _, rfl⟩

/-! ### Fetches -/

theorem exec_fetchReqRx_for {k : Nat × Nat × Group × OuterGroup} (hdst : x.dstIsland = s.place.islandId) (htyp : x.typ = 3) (hkey : s.keyGroup x.item none = some k) :
    exec (.fetchReqRx x) s = if s.outer.state = 1 then .next (s.emit (.cut x.srcIsland x.srcModule x))
      else if s.bcn.begun then .next (s.modOut k.1 k.2.1 (fun y => { y with reqs := y.reqs ++ [x] })) else .next (s.sendXfer (s.fetchReply k.2.2.1 k.2.2.2 x)) := by
  show execFetchReqRx x s = _
  unfold execFetchReqRx
  rw [if_neg (by rw [hdst]; simp), if_neg (by simp [htyp]), hkey]

theorem exec_fetchDataRx_for {k : Nat × Nat × Group × OuterGroup} (hdst : x.dstIsland = s.place.islandId) (htyp : x.typ = 4)
    (hkey : s.keyGroup x.item (some (bytesAt x.payload 4 4)) = some k) :
    exec (.fetchDataRx x) s = if s.outer.state != 1 || s.outer.source != some x.srcIsland || s.outer.install.isSome then .next s
      else .next (s.modOut k.1 k.2.1 (fun y => { y with fetched := some (x.payload.drop 64) })).checkGathered := by
  show execFetchDataRx x s = _
  unfold execFetchDataRx
  rw [if_neg (by rw [hdst]; simp), if_neg (by simp [htyp]), hkey]

/-! ### Floods -/

theorem outerFlood_landed (v : Nat) : s.outerFlood (.landed v) = { s.roundOver 10 1 s.bcn.step with
    outer := { (s.roundOver 10 1 s.bcn.step).outer with install := if s.outer.state = 1 then some v else (s.roundOver 10 1 s.bcn.step).outer.install } } := by
  unfold State.outerFlood
  dsimp only
  split <;> rfl

theorem flareTook_keeps (port : Nat) (f : FlareFrame) : (s.flareTook port f).place.moduleId = s.place.moduleId ∧ (s.flareTook port f).outer = s.outer ∧
    (s.flareTook port f).tiles = s.tiles ∧ (s.flareTook port f).mem = s.mem ∧ (s.flareTook port f).parts = s.parts ∧ SameLnt s (s.flareTook port f) := by
  have honly := flareTook_only (s := s) port f
  generalize s.flareTook port f = u at *
  rw [honly]
  exact ⟨rfl, rfl, rfl, rfl, rfl, rfl⟩

section

variable {i m p : Nat} {dark : Bool} {arr : Fin 8}

/-- A partner flood of this module itself, or one that says nothing new, goes no further. -/
theorem outerFlood_partner_known (h : m = s.place.moduleId ∨ s.outer.gwUp.contains (i, m, p) ≠ dark) :
    s.outerFlood (.partner i m p dark arr) = s.flareTook arr (s.partnerFrame i m p dark) := by
  obtain ⟨hmodule, houter, -⟩ := flareTook_keeps (s := s) arr (s.partnerFrame i m p dark)
  unfold State.outerFlood
  dsimp only
  rw [hmodule, houter]
  refine if_pos ?_
  rw [Bool.or_eq_true, decide_eq_true_eq, bne_iff_ne]
  exact h

/-- The view of this module changes as the flood says, and the flood goes on. -/
def partnerSeen (s : State) (i m p : Nat) (dark : Bool) (arr : Fin 8) : State :=
  (((s.flareTook arr (s.partnerFrame i m p dark)).floodFrom (some arr.val) (s.partnerFrame i m p dark)).modOuter (fun o => { o with
    gwUp := gwAfter o.gwUp (i, m, p) (!dark) })).refreshDark

theorem outerFlood_partner_new (hother : m ≠ s.place.moduleId) (hnew : s.outer.gwUp.contains (i, m, p) = dark) :
    s.outerFlood (.partner i m p dark arr) = (partnerSeen s i m p dark arr).outerReact := by
  obtain ⟨hmodule, houter, -⟩ := flareTook_keeps (s := s) arr (s.partnerFrame i m p dark)
  unfold State.outerFlood
  dsimp only
  rw [hmodule, houter, if_neg (by rw [Bool.or_eq_true, decide_eq_true_eq, bne_iff_ne]; exact fun h => h.elim hother (fun h => h hnew))]
  cases dark <;> rfl

theorem partnerSeen_spec (hjoined : joined s) : let t := partnerSeen s i m p dark arr
    joined t ∧ t.tiles = s.tiles ∧ t.mem = s.mem ∧ t.outer.routes = s.outer.routes ∧ t.place.moduleId = s.place.moduleId ∧
      t.outer.gwUp = gwAfter s.outer.gwUp (i, m, p) (!dark) ∧ ∀ k, k < 16 → t.outer.dark.testBit k = t.outer.isDark k := by
  obtain ⟨hmodule, houter, htiles, hmem, -⟩ := flareTook_keeps (s := s) arr (s.partnerFrame i m p dark)
  have htook := joined_flareTook arr (s.partnerFrame i m p dark) hjoined
  unfold partnerSeen
  generalize s.flareTook arr (s.partnerFrame i m p dark) = u at *
  have hflood := tells_floodFrom (s := u) (some arr.val) (s.partnerFrame i m p dark)
  have hplace : (u.floodFrom (some arr.val) (s.partnerFrame i m p dark)).place = u.place := hflood.relays.1.place
  have htiles' : (u.floodFrom (some arr.val) (s.partnerFrame i m p dark)).tiles = u.tiles := hflood.relays.1.tiles
  have hmem' := hflood.mem
  have houter' := hflood.outer
  have hjoined' := hflood.still_joined htook
  generalize u.floodFrom (some arr.val) (s.partnerFrame i m p dark) = v at *
  have hset := views_modGwUp (s := v) (gwAfter v.outer.gwUp (i, m, p) (!dark))
  have hstart : v.modOuter (fun o => { o with gwUp := gwAfter o.gwUp (i, m, p) (!dark) }) =
    v.modOuter (fun o => { o with gwUp := gwAfter v.outer.gwUp (i, m, p) (!dark) }) := rfl
  rw [hstart]
  have hgw : (v.modOuter (fun o => { o with gwUp := gwAfter v.outer.gwUp (i, m, p) (!dark) })).outer.gwUp = gwAfter s.outer.gwUp (i, m, p) (!dark) := by
    rw [← houter, ← houter']
    rfl
  generalize v.modOuter (fun o => { o with gwUp := gwAfter v.outer.gwUp (i, m, p) (!dark) }) = w at *
  have hviews := hset.trans (views_refreshDark (s := w))
  intro t
  refine ⟨hviews.rest.still_joined hviews.links hjoined', ?_, ?_, ?_, ?_, gwUp_refreshDark.trans hgw, fun k hk => dark_refreshDark hk⟩
  · show w.refreshDark.tiles = _
    rw [hviews.rest, ← htiles, ← htiles']
  · exact hviews.mem.trans (hmem'.trans hmem)
  · show w.refreshDark.outer.routes = _
    rw [hviews.outer, houter', houter]
  · exact (congrArg (fun pl => pl.moduleId) (hviews.place.trans hplace)).trans hmodule

end

theorem mem_gwAfter_true (gs : List (Nat × Nat × Nat)) (g x : Nat × Nat × Nat) : x ∈ gwAfter gs g true ↔ x = g ∨ x ∈ gs := by
  unfold gwAfter
  rw [if_pos rfl]
  split
  · next h =>
    refine ⟨.inr, fun hx => hx.elim (fun hg => ?_) id⟩
    rw [hg]
    simpa using h
  · simp [or_comm]

theorem Reacts.isDark {t : State} (h : Reacts s t) (k : Nat) : t.outer.isDark k = s.outer.isDark k := by
  unfold OuterIsland.isDark
  rw [h.routes, h.gwUp]

/-- No gateway of this module stands in the table. -/
theorem noOwnGate_of_routes (h : ∀ r ∈ s.outer.routes, ∀ y ∈ r.gws.take r.ngw, y.1 ≠ s.place.moduleId) (i : Nat) : NoOwnGate s i := by
  intro y hy
  unfold State.gatesUp at hy
  split at hy
  · next r hr => exact h r (List.mem_of_find?_eq_some hr) y (List.mem_filter.mp hy).1
  · cases hy

/-- The island in JOINING, as a flood says it. -/
def joiningSays (s : State) (from1 : Option Nat) (rejoin : Bool) : State :=
  (s.modOuter (fun o => { o with rejoinSeen := o.rejoinSeen || rejoin, join := false, source := from1 })).outerBecomes 1

theorem outerFlood_joining (src : Nat) (rejoin : Bool) {from1 : Option Nat} (h : from1 = if src = 255 then none else some src) :
    s.outerFlood (.state 1 src rejoin) = if s.outer.state = 1 && s.outer.source = from1 then s
      else from1.elim (joiningSays s from1 rejoin) (fun i => (joiningSays s from1 rejoin).startFetch i) := by
  unfold State.outerFlood
  dsimp only
  rw [if_pos rfl, ← h]
  cases from1 <;> rfl

/-- A flood that puts the island in JOINING with a source begins the fetch. -/
theorem outerFlood_joins {src : Nat} {rejoin : Bool} (hnot4 : s.outer.state ≠ 4)
    (hnew : s.outer.state ≠ 1 ∨ s.outer.source ≠ (if src = 255 then none else some src)) :
    let join : State := { s with outer := { s.outer with
      state := 1, rejoinSeen := s.outer.rejoinSeen || rejoin, join := false, source := if src = 255 then none else some src } }
    s.outerFlood (.state 1 src rejoin) = (if src = 255 then none else some src : Option Nat).elim join (fun i => join.startFetch i) := by
  intro join
  have hbecomes : (s.modOuter (fun o => { o with rejoinSeen := o.rejoinSeen || rejoin, join := false, source := if src = 255 then none else some src })).outerBecomes 1 =
      join := by
    refine (outerBecomes_stays (s := s.modOuter (fun o =>
      { o with rejoinSeen := o.rejoinSeen || rejoin, join := false, source := if src = 255 then none else some src })) (.inl hnot4)).trans ?_
    show ({ s with outer := { s.outer with
      state := 1, holdSeen := s.outer.holdSeen || false, rejoinSeen := s.outer.rejoinSeen || rejoin, join := false,
      source := if src = 255 then none else some src } } : State) = join
    rw [Bool.or_false]
  rw [outerFlood_joining src rejoin rfl, if_neg (by rw [Bool.and_eq_true, decide_eq_true_eq, decide_eq_true_eq]; tauto),
    show joiningSays s (if src = 255 then none else some src) rejoin = join from hbecomes]

theorem regsAfter_isEmpty (m : Nat) (here : Bool) : (regsAfter s.outer m here).isEmpty = true ↔ here = false ∧ s.outer.regs.filter (fun k => k != m) = [] := by
  unfold regsAfter
  cases here with
  | true => simp
  | false => exact List.isEmpty_iff.trans (by simp)

end

/-- Settles O58: the rows by their equations; the outer loop that reacts by `Reacts`, and what it leaves of memory and fields by the islands that it
sends to. -/
theorem outerTransfersAndFloods : Obligations.OuterTransfersAndFloods := by
  unfold Obligations.OuterTransfersAndFloods
  refine ⟨?relay, ?other, ?land, ?status, ?fetch, ?idle, ?flood⟩
  case relay =>
    intro s x hdst
    obtain ⟨hup, hdown, hstatus, hreq, hdata⟩ := exec_relays hdst
    refine ⟨hup, hdown, hstatus, hreq, hdata, fun hnone hsrc => ?_, fun p hp => relayXfer_numbered hp, fun m q p hp hm hfind => relayXfer_first hp hm hfind,
      fun hnone hsrc => ?_, fun m p hp hm => sendXfer_away hp hm⟩
    · exact (relayXfer_none hnone).trans (cutTransfer_of_other hsrc)
    · exact (sendXfer_dark hnone).trans (cutTransfer_of_other hsrc)
  case other =>
    intro s x hdst
    have hhere : ¬ (x.dstIsland != s.place.islandId) = true := by rw [hdst]; simp
    refine ⟨fun h => congrArg settle ((if_neg hhere).trans (if_neg h)), fun h => congrArg settle ((if_neg hhere).trans (if_neg h)),
      fun h => (if_neg hhere).trans (if_neg h), fun h => (if_neg hhere).trans (if_pos (bne_iff_ne.mpr h)), fun h => (if_neg hhere).trans (if_pos (bne_iff_ne.mpr h)),
      fun hkey ev hev => ?_, fun hkey ev hev => ?_⟩
    · refine ⟨s.discardXfer x, ?_, discardXfer_only⟩
      rcases hev with ⟨htyp, rfl⟩ | ⟨htyp, rfl⟩
      · refine (if_neg hhere).trans ((if_neg (by simp [htyp])).trans ?_)
        rw [keyGroup_none hkey]
      · refine (if_neg hhere).trans ((if_neg (by simp [htyp])).trans ?_)
        rw [keyGroup_none hkey]
    · refine ⟨s.discardXfer x, (exec_delivered hdst hev).trans ?_, discardXfer_only⟩
      unfold State.landXfer
      rw [keyGroup_none hkey]
  case land =>
    intro s x g o ev hdst hev hitem hlow hg ho hnelem
    have hkey := keyGroup_some (n := some (bytesAt x.payload 4 4)) hitem hlow hg ho (by simpa using hnelem)
    refine ⟨fun hfree => ?_, fun i hfree => ?_⟩
    · refine ⟨_, exec_delivered hdst hev, ?_, ?_⟩
      · rw [landXfer_waits hkey hfree]
        exact modOut_only ..
      · rw [landXfer_waits hkey hfree]
        exact groupStep_modOut _ hg ho
    · intro n base item
      obtain ⟨hframe, hstep, hmem⟩ := landXfer_spec hkey hg ho hfree
      refine ⟨_, exec_delivered hdst hev, hframe, hstep, fun a ha => ?_, fun hinv hwhole k hk => ?_⟩
      · rw [hmem]
        exact memRead_pokeBytes_outside s _ _ a (by rw [length_padTo]; exact ha)
      · rw [hmem]
        exact memRead_pokeBytes s _ _ k hinv.1 (by rw [length_padTo]; exact hk) (hwhole k hk)
  case status =>
    intro s x hdst htyp i got
    have hexec : exec (.statusTransferRx x) s = .next (s.statusRx x) :=
      (if_neg (by rw [hdst]; simp)).trans (if_pos htyp)
    rw [hexec]
    refine ⟨fun h => congrArg _ (statusRx_away h), fun hreq hasked hstate => congrArg _ (statusRx_unasked hreq hasked hstate),
      fun hkeeper hpartner hreq hasked hstate hjoined hwaits => ?_⟩
    intro joins
    obtain ⟨hsent, hlists, hfields, hmem⟩ := sendStatus_spec (s := opened s i got) hjoined i 0 (s.standing i)
    have hrx : s.statusRx x = ((opened s i got).sendStatus i (s.standing i) 0).evaluate 16 := statusRx_asks hkeeper hpartner hreq hasked (by omega)
    generalize hw : (opened s i got).sendStatus i (s.standing i) 0 = w at *
    have hwstate : w.outer.state = s.outer.state := by rw [hlists]; rfl
    have hwasked : w.outer.asked = [{ island := i, own := s.standing i, got := some got }] := by rw [hlists]; rfl
    have hwjoins : mustJoin w.place.islandId ((w.outer.fed.map (fun r => r.rejoin)).getD 0) { island := i, own := s.standing i, got := some got } got = joins := by
      rw [hsent.1.place, hlists]
      rfl
    have hdecided := evaluate_decides hwasked rfl (by omega) hwjoins
    rw [hrx, hdecided]
    have hwtiles : w.tiles = s.tiles := hsent.1.tiles
    have hwfields : w.fields = s.fields := hfields
    have hwmem : NoOwnGate s i → w.mem = s.mem := hmem
    have hwgate : NoOwnGate s i → NoOwnGate w i := fun h => NoOwnGate.reacts (s := opened s i got) h hsent.1
    have hwjoined : joined w := hsent.still_joined (s := opened s i got) hjoined
    have hwouter : w.outer.rho = s.outer.rho ∧ w.outer.lastj = s.outer.lastj ∧ w.outer.source = s.outer.source := by
      rw [hlists]
      exact ⟨rfl, rfl, rfl⟩
    obtain ⟨hrho, hlastj, hsource⟩ := hwouter
    clear_value joins
    cases joins with
    | true =>
      obtain ⟨htiles, hmem', houter⟩ := keeperJoins_spec hwjoined i got.rho
      refine ⟨w.keeperJoins i got.rho, rfl, by rw [houter]; rfl, htiles.trans hwtiles, fun hnone => (hmem' (hwgate hnone)).trans (hwmem hnone), by rw [houter]; exact hrho,
        by rw [houter]; exact hlastj, by rw [houter]; rfl, fun _ => ?_, fun h => (by cases h)⟩
      rw [houter]
      exact ⟨rfl, rfl, rfl⟩
    | false =>
      obtain ⟨htiles, hmem', hfields', held, houter⟩ := staysLinked_spec (s := w)
      exact ⟨staysLinked w, rfl, by rw [houter]; rfl, htiles.trans hwtiles, fun hnone => hmem'.trans (hwmem hnone), by rw [houter]; exact hrho,
        by rw [houter]; exact hlastj, by rw [houter], fun h => (by cases h), fun _ => ⟨hfields'.trans hwfields, by rw [houter]; exact hsource⟩⟩
  case fetch =>
    intro s x g o hdst hitem hlow hg ho
    have hkey : s.keyGroup x.item none = some (keyField x.item, keyGid x.item, g, o) := keyGroup_some hitem hlow hg ho rfl
    refine ⟨fun htyp hstate => ?_, fun htyp hstate hbegun => ?_, fun htyp hstate hbegun => ⟨?_, rfl, rfl, drop_fetchReply g o⟩, fun htyp hnelem => ?_⟩
    · exact (exec_fetchReqRx_for hdst htyp hkey).trans (if_pos hstate)
    · exact ⟨_, (exec_fetchReqRx_for hdst htyp hkey).trans ((if_neg hstate).trans (if_pos hbegun)), modOut_only .., groupStep_modOut _ hg ho⟩
    · exact (exec_fetchReqRx_for hdst htyp hkey).trans ((if_neg hstate).trans (if_neg (by rw [hbegun]; decide)))
    · have hkey' := keyGroup_some (n := some (bytesAt x.payload 4 4)) hitem hlow hg ho (by simpa using hnelem)
      have hexec := exec_fetchDataRx_for hdst htyp hkey'
      refine ⟨fun hno => hexec.trans (if_pos ?_), fun hstate hsource hinstall hwaits => ?_⟩
      · simp only [Bool.or_eq_true, bne_iff_ne, Option.isSome_iff_ne_none]
        tauto
      · have hheld := hexec.trans (if_neg (by simp [hstate, hsource, hinstall]))
        have hstep := groupStep_modOut (fun y => { y with fetched := some (x.payload.drop 64) }) hg ho
        have honly := modOut_only (s := s) (keyField x.item) (keyGid x.item) (fun y => { y with fetched := some (x.payload.drop 64) })
        dsimp only at hheld
        generalize s.modOut (keyField x.item) (keyGid x.item) (fun y => { y with fetched := some (x.payload.drop 64) }) = u at *
        obtain ⟨all, b, fab, ob, hgathered⟩ := checkGathered_frame (s := u) (by rw [honly]; exact hwaits)
        refine ⟨_, hheld, ?_, groupStep_of_fields hstep (by rw [hgathered])⟩
        rw [hgathered, honly]
  case idle => exact fun s w h => exec_outerFloodRx_idle h
  case flood =>
    intro s hplaced
    refine ⟨fun v hv => ?_, fun v hv => ?_, fun v src rejoin hv hsrc => ?_, fun m here hm => ?_, fun i m p dark arr hi hm hp hknown => ?_,
      fun i m p dark arr hi hm hp hother hview hjoined hwaits => ?_⟩
    · intro w
      exact ⟨exec_outerFloodRx_wf (w := .lastj v) hplaced (decide_eq_true hv), fun hwaits => roundOver_of_no_waits hwaits ..⟩
    · intro w
      refine ⟨(exec_outerFloodRx_wf (w := .landed v) hplaced (decide_eq_true hv)).trans (congrArg (fun u : State => Host.Outcome.next u.reachMarks) ?_),
        fun hwaits => roundOver_of_no_waits hwaits ..⟩
      exact outerFlood_landed v
    · intro from1 said join
      have hwf : ∀ v, v ≤ 4 → OuterFlood.wf (.state v src rejoin) = true := fun v hv => by rcases hsrc with h | h <;> simp [OuterFlood.wf, hv, h]
      have hexec : ∀ w, s.outerFlood (.state v src rejoin) = w → exec (.outerFloodRx (.state v src rejoin)) s = .next w.reachMarks := fun w hw =>
        hw ▸ exec_outerFloodRx_wf hplaced (hwf v hv)
      have hexec1 : ∀ w, s.outerFlood (.state 1 src rejoin) = w → exec (.outerFloodRx (.state 1 src rejoin)) s = .next w.reachMarks := fun w hw =>
        hw ▸ exec_outerFloodRx_wf hplaced (hwf 1 (by decide))
      have hjoin : s.outer.state ≠ 4 → s.outer.state ≠ 1 ∨ s.outer.source ≠ from1 →
          s.outerFlood (.state 1 src rejoin) = from1.elim join (fun i => join.startFetch i) := fun hnot4 hnew => outerFlood_joins hnot4 hnew
      refine ⟨fun hv1 hsame => hexec _ ((if_neg hv1).trans (if_pos hsame)),
        fun hv1 hnew hheld => hexec _ ((if_neg hv1).trans ((if_neg hnew).trans (outerBecomes_stays hheld))),
        fun n hv1 hstate hv4 hn hkeeper hhold =>
          hexec _ ((if_neg hv1).trans ((if_neg (by omega)).trans (outerBecomes_resumes hstate hv4 hn hkeeper hhold))),
        fun hstate hsource => ?_, fun hnot4 hnew => ⟨fun hnone => ?_, fun hsome => ?_⟩⟩
      · exact hexec1 _ ((outerFlood_joining src rejoin rfl).trans (if_pos (by rw [Bool.and_eq_true, decide_eq_true_eq, decide_eq_true_eq]; exact ⟨hstate, hsource⟩)))
      · exact hexec1 _ ((hjoin hnot4 hnew).trans (by rw [show from1 = none from if_pos hnone]; rfl))
      · exact hexec1 _ ((hjoin hnot4 hnew).trans (by rw [show from1 = some src from if_neg (by omega)]; rfl))
    · have hexec : exec (.outerFloodRx (.registered m here)) s = .next (s.outerFlood (.registered m here)).reachMarks :=
        exec_outerFloodRx_wf hplaced (by simp [OuterFlood.wf, hm])
      rw [hexec]
      refine ⟨fun h => congrArg (fun u : State => Host.Outcome.next u.reachMarks) (if_neg ?_), fun hkeeper hother hnot4 => ?_⟩
      · rcases h with h | h <;> rw [h] <;> simp
      · intro others
        have hgroups : s.outerFlood (.registered m here) = s.keeperGroups m here := if_pos (by rw [hkeeper]; simpa using hother)
        obtain ⟨htiles, hmem, hfields, hregs, hstate⟩ := keeperGroups_spec (s := s) m here
        rw [hgroups]
        refine ⟨_, rfl, htiles, hmem, hfields, hregs, hstate.trans ?_⟩
        exact if_congr (regsAfter_isEmpty m here) rfl (if_congr (by
          rw [Bool.and_eq_true, decide_eq_true_eq, Option.isSome_iff_ne_none]) (if_congr List.isEmpty_iff rfl rfl) rfl)
    · have hexec : exec (.outerFloodRx (.partner i m p dark arr)) s = .next (s.outerFlood (.partner i m p dark arr)).reachMarks :=
        exec_outerFloodRx_wf hplaced (by simp [OuterFlood.wf, hi, hm, hp])
      refine hexec.trans (congrArg (fun u : State => Host.Outcome.next u.reachMarks) (outerFlood_partner_known hknown))
    · have hexec : exec (.outerFloodRx (.partner i m p dark arr)) s = .next (s.outerFlood (.partner i m p dark arr)).reachMarks :=
        exec_outerFloodRx_wf hplaced (by simp [OuterFlood.wf, hi, hm, hp])
      obtain ⟨hseen, htiles, hmem, hroutes, hmodule, hgw, hdark⟩ := partnerSeen_spec (i := i) (m := m) (p := p) (dark := dark) (arr := arr) hjoined
      rw [outerFlood_partner_new hother hview] at hexec
      have hreacts := reacts_outerReact hseen
      refine ⟨_, hexec, hreacts.routes.trans hroutes, hreacts.tiles.trans htiles, fun hd => ?_, fun hd z => ?_, fun haway => ?_, fun k hk => ?_⟩
      · rw [hreacts.gwUp, hgw, hd]
        rfl
      · rw [hreacts.gwUp, hgw, hd]
        exact mem_gwAfter_true _ _ _
      · rw [mem_outerReact_away hseen (noOwnGate_of_routes (by rw [hroutes, hmodule]; exact haway)), hmem]
      · rw [hreacts.dark, hdark k hk, hreacts.isDark]

end Sys2Proof.Proofs
end
